-- ==== Sys2Proof/Word.lean ====
section
/-! DEFINITION. The word types of the Ramub 3240 and the sparse table that State uses for everything the machine has many of. -/

namespace Sys2Proof

/-- A 32-bit word (R4). -/
abbrev Word := BitVec 32

/-- A 64-bit word (R4). -/
abbrev Word64 := BitVec 64

/-- A byte. -/
abbrev Byte := BitVec 8

/-- A sparse table: entries by rising key. -/
abbrev Tab (α : Type) := List (Nat × α)

/-- The entry at a key. -/
def tabGet {α : Type} : Tab α → Nat → Option α
  | [], _ => none
  | (k, x) :: t, i => if i = k then some x else if i < k then none else tabGet t i

/-- The table with the entry at a key written. -/
def tabPut {α : Type} : Tab α → Nat → α → Tab α
  | [], i, y => [(i, y)]
  | (k, x) :: t, i, y =>
    if i = k then (i, y) :: t else if i < k then (i, y) :: (k, x) :: t else (k, x) :: tabPut t i y

/-- The table without the entry at a key. -/
def tabDel {α : Type} : Tab α → Nat → Tab α
  | [], _ => []
  | (k, x) :: t, i => if i = k then t else if i < k then (k, x) :: t else (k, x) :: tabDel t i

/-- Every key of the table is above the bound, and the keys rise. -/
def tabSorted {α : Type} : Nat → Tab α → Bool
  | _, [] => true
  | b, (k, _) :: t => decide (b ≤ k) && tabSorted (k + 1) t

end Sys2Proof
end

