-- ==== Sys2Proof/Syntax.lean ====
section
/-! DEFINITION. The instructions: one constructor per row of the opcode table, its operands destination first. -/

namespace Sys2Proof

/-- The four result latches `la` `lb` `lm` `lf` (R47, R135). -/
inductive Latch where
  | a | b | m | f
deriving DecidableEq, Repr

/-- The constants of codes 0x78 to 0x7E (R138). -/
inductive VConst where
  | zero | one | negOne | half | two | absent | lane
deriving DecidableEq, Repr

/-- The 16-bit float type of opcodes 0x02 and 0x03 (R142). -/
inductive HalfT where
  | f16 | bf16
deriving DecidableEq, Repr

/-- The 8-bit float type, FN[4] of opcode 0x05 (R142). -/
inductive Fp8T where
  | e4m3 | e5m2
deriving DecidableEq, Repr

/-- The direction of `frnd`, FN[1:0] (R161). -/
inductive RndDir where
  | n | d | u | z
deriving DecidableEq, Repr

/-- The element type of opcode 0x08 (R165). -/
inductive ValT where
  | i32 | i16 | i8 | n8
deriving DecidableEq, Repr

/-- The compare condition (R169). -/
inductive Cond where
  | eq | ne | lt | le | gt | ge | un | abs
deriving DecidableEq, Repr

/-- The element type of `tabs`, `toabs` and `defabs` (R170), and ATYPE of R96. -/
inductive AbsT where
  | f32 | f16 | bf16 | e4m3 | e5m2 | i32 | i8 | n8
deriving DecidableEq, Repr

/-- The source type of `cvtup` (R175). -/
inductive UpT where
  | f16 | bf16 | e4m3 | e5m2 | i8 | n8
deriving DecidableEq, Repr

/-- The predicate operation of `plog` (R171). -/
inductive PlogOp where
  | and | or | xor | not
deriving DecidableEq, Repr

/-- The load size (R211). -/
inductive LdSz where
  | b8s | b8z | b16s | b16z | b32 | b64 | b128
deriving DecidableEq, Repr

/-- The store size (R211). -/
inductive StSz where
  | b8 | b16 | b32 | b64 | b128
deriving DecidableEq, Repr

/-- The order hint of a load (R212). -/
inductive LdOrd where
  | plain | acq | inv | stream
deriving DecidableEq, Repr

/-- The order hint of a store (R212). -/
inductive StOrd where
  | plain | rel | stream
deriving DecidableEq, Repr

/-- The cache policy hint (R89, R212). -/
inductive Pol where
  | normal | l2 | ef | el
deriving DecidableEq, Repr

/-- The order of an atomic (R111). -/
inductive AOrd where
  | relaxed | acq | rel | ar
deriving DecidableEq, Repr

/-- The type of an atomic (R217). -/
inductive ATy where
  | i32 | n32 | f32 | b64
deriving DecidableEq, Repr

/-- The atomic operations (R218). -/
inductive AtomicOp where
  | add | min | max | and | or | xor | xch | cas | acc | inc
deriving DecidableEq, Repr

/-- The object and atomic spaces (R204, R217). -/
inductive Sp where
  | spad | clmem
deriving DecidableEq, Repr

/-- The kind of a fence (R112). -/
inductive FKind where
  | acq | rel | ar
deriving DecidableEq, Repr

/-- The scopes of R107. -/
inductive Scope where
  | team | wg | clu | stk | pkg | sys
deriving DecidableEq, Repr

/-- The source space of `mld` (R247). -/
inductive MldSrc where
  | global | spad | clmem
deriving DecidableEq, Repr

/-- The type of `mred` and `mscan` (R261). -/
inductive RedT where
  | f32 | f16 | bf16 | i32
deriving DecidableEq, Repr

/-- A 7-bit vector operand (R138). -/
inductive VOp where
  /-- `v0` to `v63`. -/
  | v (n : BitVec 6)
  /-- `s0` to `s31`, broadcast. -/
  | s (n : BitVec 5)
  /-- `o0` to `o15`. -/
  | o (n : BitVec 4)
  /-- A result latch. -/
  | latch (l : Latch)
  /-- A constant. -/
  | const (c : VConst)
deriving DecidableEq, Repr

/-- What one column's meters and sensors give at a 10 µs sample (R351, R359, R360): the hottest reading of its core on each
layer in 0.1 °C, the event energies of its cores and L1 banks and the leakage of its islands in units of 10 mW, the issue power
of each priority class in the same unit, and BUSY and STALL in 1/255 of the window. -/
structure ColumnReading where
  column : Nat
  temps : List Nat
  events : Nat
  leakage : Nat
  classPower : List Nat
  busy : Nat
  stall : Nat
deriving DecidableEq, Repr

/-- The energy of one engine operation in the window, in units of 10 mW (R359): the operation by the number of its entry. -/
structure EngineCharge where
  op : Nat
  energy : Nat
deriving DecidableEq, Repr

/-- The hottest sensor of one engine or base-die island at a sample, in 0.1 °C (R362). -/
structure IslandReading where
  island : Nat
  temp : Nat
deriving DecidableEq, Repr

/-- Everything one sample reads (R351). -/
structure Sample where
  columns : List ColumnReading
  engines : List EngineCharge
  islands : List IslandReading
deriving DecidableEq, Repr, Inhabited

/-- A target that the stage manager writes for one island (R352, R354): voltage and frequency codes. -/
structure IslandTarget where
  island : Nat
  vtgt : Nat
  ftgt : Nat
deriving DecidableEq, Repr

/-- The bands of one engine that the stage manager allows to be gated while idle (R352, R358). -/
structure BandPermission where
  engine : Nat
  gate : BitVec 4
deriving DecidableEq, Repr

/-- A slow-down or release notice of a chorus (R363, R388). -/
structure Notice where
  release : Bool
  origin : Nat
  seq : Nat
deriving DecidableEq, Repr

/-- One access of a host agent through a port (R385): it names a context, a virtual address, and the bytes it writes or how
many it reads; an atomic has its operation, and its operands in place of the bytes. -/
structure HostAccess where
  port : Nat
  ctx : Nat
  write : Bool
  addr : Nat
  bytes : List Byte
  alu : Option (AtomicOp × ATy) := none
deriving DecidableEq, Repr

/-- What the ranks of a reduction must agree on (R233, R323): the rank descriptors, the element type, the bytes of an array and
its slices. -/
structure CredTerms where
  ranks : List Nat
  ety : Nat
  bytes : Nat
  sl : Nat
deriving DecidableEq, Repr

/-- A `cred` payload block of a rank of another package (R389): the reduction and rank it belongs to, the terms of that rank, its
number, its 16-bit header and the bits that follow, lowest first; or word that the rank's package has abandoned the reduction
(R233). -/
structure CredBlock where
  cred : Nat
  rank : Nat
  terms : CredTerms
  abandoned : Bool := false
  index : Nat
  header : BitVec 16
  payload : Nat
deriving DecidableEq, Repr

/-- What the patrol scrub found on one HBM line (R390). -/
structure ScrubResult where
  line : Nat
  uncorrectable : Bool
deriving DecidableEq, Repr

/-- What the boot ROM finds at reset (R391): the firmware image, its public key and signature, and the later stages. -/
structure BootInput where
  image : List Byte
  key : List Byte
  signature : List Byte
  stages : List (List Byte)
deriving DecidableEq, Repr

/-- A service descriptor as the stage manager publishes it (R394). -/
structure Descriptor where
  svc : Nat
  stk : Nat
  lyr : Nat
  fmax : Nat
  fmt : Nat
  hbm : Nat
  half : Bool
  fwver : BitVec 32
deriving DecidableEq, Repr

/-- Where a 16-byte granule is moved (R345): a slice of a collective copy, or an entry of an engine. -/
inductive WriteSite where
  | copy (c : Nat) (slice : Nat)
  | engine (g : Nat) (k : Nat)
deriving DecidableEq, Repr


/-- The instructions: one constructor per row of the opcode table. -/
inductive Instr where
  /-- FADD_F32 (R160): Per-lane f32 add in the skip class, rounded once in MODE.RM. -/
  | faddF32 (d : VOp) (a : VOp) (b : VOp)
  /-- FADD_F16_BF16 (R160): Packed f16x2 or bf16x2 add in the skip class, element by element. -/
  | faddF16Bf16 (t : HalfT) (d : VOp) (a : VOp) (b : VOp)
  /-- FADD_F64 (R160): f64 pair add in the skip class; writes no latch. -/
  | faddF64 (d : VOp) (a : VOp) (b : VOp)
  /-- FADD_FP8 (R160): Packed e4m3x4 or e5m2x4 add; MODE.SAT applies on overflow. -/
  | faddFp8 (t : Fp8T) (d : VOp) (a : VOp) (b : VOp)
  /-- FSUB_F32 (R160): Per-lane f32 subtract in the skip class; absent minus b gives -b. -/
  | fsubF32 (d : VOp) (a : VOp) (b : VOp)
  /-- FSUB_F16_BF16 (R160): Packed f16 or bf16 subtract in the skip class. -/
  | fsubF16Bf16 (t : HalfT) (d : VOp) (a : VOp) (b : VOp)
  /-- FSUB_F64 (R160): f64 pair subtract in the skip class. -/
  | fsubF64 (d : VOp) (a : VOp) (b : VOp)
  /-- FSUB_FP8 (R160): Packed FP8 subtract in the skip class. -/
  | fsubFp8 (t : Fp8T) (d : VOp) (a : VOp) (b : VOp)
  /-- FMUL_F32 (R160): Per-lane f32 multiply in the propagate class. -/
  | fmulF32 (d : VOp) (a : VOp) (b : VOp)
  /-- FMUL_F16_BF16 (R160): Packed f16 or bf16 multiply in the propagate class. -/
  | fmulF16Bf16 (t : HalfT) (d : VOp) (a : VOp) (b : VOp)
  /-- FMUL_F64 (R160): f64 pair multiply in the propagate class. -/
  | fmulF64 (d : VOp) (a : VOp) (b : VOp)
  /-- FMUL_FP8 (R160): Packed FP8 multiply in the propagate class. -/
  | fmulFp8 (t : Fp8T) (d : VOp) (a : VOp) (b : VOp)
  /-- FMIN_F32 (R161): Per-lane f32 minimum, skip class, unrounded. -/
  | fminF32 (d : VOp) (a : VOp) (b : VOp)
  /-- FMIN_F16_BF16 (R161): Packed f16 or bf16 minimum. -/
  | fminF16Bf16 (t : HalfT) (d : VOp) (a : VOp) (b : VOp)
  /-- FMIN_F64 (R161): f64 pair minimum. -/
  | fminF64 (d : VOp) (a : VOp) (b : VOp)
  /-- FMIN_FP8 (R161): Packed FP8 minimum; never -0. -/
  | fminFp8 (t : Fp8T) (d : VOp) (a : VOp) (b : VOp)
  /-- FMAX_F32 (R161): Per-lane f32 maximum, skip class, unrounded. -/
  | fmaxF32 (d : VOp) (a : VOp) (b : VOp)
  /-- FMAX_F16_BF16 (R161): Packed f16 or bf16 maximum. -/
  | fmaxF16Bf16 (t : HalfT) (d : VOp) (a : VOp) (b : VOp)
  /-- FMAX_F64 (R161): f64 pair maximum. -/
  | fmaxF64 (d : VOp) (a : VOp) (b : VOp)
  /-- FMAX_FP8 (R161): Packed FP8 maximum. -/
  | fmaxFp8 (t : Fp8T) (d : VOp) (a : VOp) (b : VOp)
  /-- FABS_F32 (R161): Clears the f32 sign bit; absent propagates. -/
  | fabsF32 (d : VOp) (a : VOp)
  /-- FABS_F16_BF16 (R161): Packed f16 or bf16 absolute value. -/
  | fabsF16Bf16 (t : HalfT) (d : VOp) (a : VOp)
  /-- FABS_F64 (R161): f64 pair absolute value. -/
  | fabsF64 (d : VOp) (a : VOp)
  /-- FABS_FP8 (R161): Packed FP8 absolute value. -/
  | fabsFp8 (t : Fp8T) (d : VOp) (a : VOp)
  /-- FNEG_F32 (R161): Inverts the f32 sign bit; absent propagates. -/
  | fnegF32 (d : VOp) (a : VOp)
  /-- FNEG_F16_BF16 (R161): Packed f16 or bf16 negation. -/
  | fnegF16Bf16 (t : HalfT) (d : VOp) (a : VOp)
  /-- FNEG_F64 (R161): f64 pair negation. -/
  | fnegF64 (d : VOp) (a : VOp)
  /-- FNEG_FP8 (R161): Packed FP8 negation; zero stays 0x00. -/
  | fnegFp8 (t : Fp8T) (d : VOp) (a : VOp)
  /-- FSAT_F32 (R161): Clamps an f32 value to [0, 1]. -/
  | fsatF32 (d : VOp) (a : VOp)
  /-- FSAT_F16_BF16 (R161): Packed f16 or bf16 clamp to [0, 1]. -/
  | fsatF16Bf16 (t : HalfT) (d : VOp) (a : VOp)
  /-- FSAT_F64 (R161): f64 pair clamp to [0, 1]. -/
  | fsatF64 (d : VOp) (a : VOp)
  /-- FSAT_FP8 (R161): Packed FP8 clamp to [0, 1]. -/
  | fsatFp8 (t : Fp8T) (d : VOp) (a : VOp)
  /-- FRND_F32 (R161): Rounds an f32 value to an integral value in the direction its mnemonic names. -/
  | frndF32 (m : RndDir) (d : VOp) (a : VOp)
  /-- FRND_F16_BF16 (R161): Packed f16 or bf16 integral rounding in a fixed direction. -/
  | frndF16Bf16 (t : HalfT) (m : RndDir) (d : VOp) (a : VOp)
  /-- FRND_F64 (R161): f64 pair integral rounding in a fixed direction. -/
  | frndF64 (m : RndDir) (d : VOp) (a : VOp)
  /-- FDIV_F32 (R160): Per-lane f32 divide, propagate class, DZ on finite/0. -/
  | fdivF32 (d : VOp) (a : VOp) (b : VOp)
  /-- FDIV_F64 (R160): f64 pair divide. -/
  | fdivF64 (d : VOp) (a : VOp) (b : VOp)
  /-- FSQRT_F32 (R160): Per-lane f32 square root, propagate class. -/
  | fsqrtF32 (d : VOp) (a : VOp)
  /-- FSQRT_F64 (R160): f64 pair square root. -/
  | fsqrtF64 (d : VOp) (a : VOp)
  /-- FFMA_F32 (R163): f32 a*b+d with one rounding; absent products dropped. -/
  | ffmaF32 (d : VOp) (a : VOp) (b : VOp)
  /-- FFMS_F32 (R163): f32 a*b-d with one rounding. -/
  | ffmsF32 (d : VOp) (a : VOp) (b : VOp)
  /-- FFNMA_F32 (R163): f32 d-a*b with one rounding. -/
  | ffnmaF32 (d : VOp) (a : VOp) (b : VOp)
  /-- FFMA_F16 (R163): Packed f16 fused multiply-add element by element. -/
  | ffmaF16 (d : VOp) (a : VOp) (b : VOp)
  /-- FFMA_BF16 (R163): Packed bf16 fused multiply-add element by element. -/
  | ffmaBf16 (d : VOp) (a : VOp) (b : VOp)
  /-- FFMA_F64 (R163): f64 pair fused multiply-add; writes no latch. -/
  | ffmaF64 (d : VOp) (a : VOp) (b : VOp)
  /-- FDOT2_F16 (R163): Two-term f16 dot product plus f32 addend, rounded once. -/
  | fdot2F16 (d : VOp) (a : VOp) (b : VOp)
  /-- FDOT2_BF16 (R163): Two-term bf16 dot product plus f32 addend. -/
  | fdot2Bf16 (d : VOp) (a : VOp) (b : VOp)
  /-- FDOT4_E4M3 (R163): Four-term e4m3 dot product plus f32 addend. -/
  | fdot4E4m3 (d : VOp) (a : VOp) (b : VOp)
  /-- FDOT4_E5M2 (R163): Four-term e5m2 dot product plus f32 addend. -/
  | fdot4E5m2 (d : VOp) (a : VOp) (b : VOp)
  /-- IDOT4_II (R163): Signed-by-signed 8-bit dot product plus i32 addend, saturated. -/
  | idot4Ii (d : VOp) (a : VOp) (b : VOp)
  /-- IDOT4_IN (R163): Signed-by-natural 8-bit dot product plus i32 addend. -/
  | idot4In (d : VOp) (a : VOp) (b : VOp)
  /-- IDOT4_NI (R163): Natural-by-signed 8-bit dot product plus i32 addend. -/
  | idot4Ni (d : VOp) (a : VOp) (b : VOp)
  /-- IDOT4_NN (R163): Natural-by-natural 8-bit dot product plus i32 addend. -/
  | idot4Nn (d : VOp) (a : VOp) (b : VOp)
  /-- IADD (R164): Raw 32-bit add modulo 2^32, no flag. -/
  | iadd (d : VOp) (a : VOp) (b : VOp)
  /-- ISUB (R164): Raw 32-bit subtract. -/
  | isub (d : VOp) (a : VOp) (b : VOp)
  /-- IMUL (R164): Raw low 32 bits of a product. -/
  | imul (d : VOp) (a : VOp) (b : VOp)
  /-- IMULH_I32 (R164): High 32 bits of the signed 64-bit product. -/
  | imulhI32 (d : VOp) (a : VOp) (b : VOp)
  /-- IMULH_N32 (R164): High 32 bits of the unsigned 64-bit product. -/
  | imulhN32 (d : VOp) (a : VOp) (b : VOp)
  /-- IMAD (R164): Raw a*b+d modulo 2^32. -/
  | imad (d : VOp) (a : VOp) (b : VOp)
  /-- IMIN_I32 (R164): Signed raw minimum. -/
  | iminI32 (d : VOp) (a : VOp) (b : VOp)
  /-- IMAX_I32 (R164): Signed raw maximum. -/
  | imaxI32 (d : VOp) (a : VOp) (b : VOp)
  /-- IMIN_N32 (R164): Unsigned raw minimum. -/
  | iminN32 (d : VOp) (a : VOp) (b : VOp)
  /-- IMAX_N32 (R164): Unsigned raw maximum. -/
  | imaxN32 (d : VOp) (a : VOp) (b : VOp)
  /-- IABS (R164): Raw signed absolute value. -/
  | iabs (d : VOp) (a : VOp)
  /-- INEG (R164): Raw two's complement negation. -/
  | ineg (d : VOp) (a : VOp)
  /-- IADD_V (R165): Value-integer add in the skip class with saturation, type from FN[4:3]. -/
  | iaddV (t : ValT) (d : VOp) (a : VOp) (b : VOp)
  /-- ISUB_V (R165): Value-integer subtract in the skip class with saturation. -/
  | isubV (t : ValT) (d : VOp) (a : VOp) (b : VOp)
  /-- IMUL_V (R165): Value-integer multiply in the propagate class with saturation. -/
  | imulV (t : ValT) (d : VOp) (a : VOp) (b : VOp)
  /-- IMIN_V (R165): Value-integer minimum in the skip class. -/
  | iminV (t : ValT) (d : VOp) (a : VOp) (b : VOp)
  /-- IMAX_V (R165): Value-integer maximum in the skip class. -/
  | imaxV (t : ValT) (d : VOp) (a : VOp) (b : VOp)
  /-- IABS_V (R165): Value-integer absolute value, saturated, propagate class. -/
  | iabsV (t : ValT) (d : VOp) (a : VOp)
  /-- AND (R166): Bitwise AND. -/
  | and (d : VOp) (a : VOp) (b : VOp)
  /-- OR (R166): Bitwise OR. -/
  | or (d : VOp) (a : VOp) (b : VOp)
  /-- XOR (R166): Bitwise XOR. -/
  | xor (d : VOp) (a : VOp) (b : VOp)
  /-- NOT (R166): Bitwise NOT. -/
  | not (d : VOp) (a : VOp)
  /-- ANDN (R166): a AND NOT b. -/
  | andn (d : VOp) (a : VOp) (b : VOp)
  /-- SHL (R166): Left shift by b[5:0], zero when 32 or more. -/
  | shl (d : VOp) (a : VOp) (b : VOp)
  /-- SHR (R166): Logical right shift by b[5:0]. -/
  | shr (d : VOp) (a : VOp) (b : VOp)
  /-- SAR (R166): Arithmetic right shift by b[5:0]. -/
  | sar (d : VOp) (a : VOp) (b : VOp)
  /-- BFE_I (R167): Signed bit-field extract with offset and width from b. -/
  | bfeI (d : VOp) (a : VOp) (b : VOp)
  /-- BFE_N (R167): Unsigned bit-field extract. -/
  | bfeN (d : VOp) (a : VOp) (b : VOp)
  /-- BFI (R167): Bit-field insert into the destination. -/
  | bfi (d : VOp) (a : VOp) (b : VOp)
  /-- POPC (R166): Population count. -/
  | popc (d : VOp) (a : VOp)
  /-- CLZ (R166): Count of leading zero bits. -/
  | clz (d : VOp) (a : VOp)
  /-- BREV (R166): Bit reversal. -/
  | brev (d : VOp) (a : VOp)
  /-- BPERM (R168): Builds each result byte from selected bytes or sign bytes of a. -/
  | bperm (d : VOp) (a : VOp) (b : VOp)
  /-- FCMP (R169): f32 compare under R77 writing a predicate bit per active lane. -/
  | fcmp (c : Cond) (p : BitVec 3) (a : VOp) (b : VOp)
  /-- ICMP_I32 (R169): Signed value compare writing a predicate. -/
  | icmpI32 (c : Cond) (p : BitVec 3) (a : VOp) (b : VOp)
  /-- ICMP_N32 (R169): Natural value compare writing a predicate. -/
  | icmpN32 (c : Cond) (p : BitVec 3) (a : VOp) (b : VOp)
  /-- TABS (R170): Sets a predicate where every element of the lane is absent for type T. -/
  | tabs (t : AbsT) (p : BitVec 3) (a : VOp)
  /-- CVT_F32_F16 (R172): Exact f16 to f32 conversion. -/
  | cvtF32F16 (d : VOp) (a : VOp)
  /-- CVT_F32_BF16 (R172): Exact bf16 to f32 conversion. -/
  | cvtF32Bf16 (d : VOp) (a : VOp)
  /-- CVT_F32_E4M3 (R172): Exact e4m3 to f32 conversion. -/
  | cvtF32E4m3 (d : VOp) (a : VOp)
  /-- CVT_F32_E5M2 (R172): Exact e5m2 to f32 conversion. -/
  | cvtF32E5m2 (d : VOp) (a : VOp)
  /-- CVT_F16_F32 (R172): f32 to f16 narrowing in MODE.RM with MODE.SAT overflow rule. -/
  | cvtF16F32 (d : VOp) (a : VOp)
  /-- CVT_BF16_F32 (R172): f32 to bf16 narrowing. -/
  | cvtBf16F32 (d : VOp) (a : VOp)
  /-- CVT_E4M3_F32 (R172): f32 to e4m3 narrowing; infinities replaced as overflow. -/
  | cvtE4m3F32 (d : VOp) (a : VOp)
  /-- CVT_E5M2_F32 (R172): f32 to e5m2 narrowing. -/
  | cvtE5m2F32 (d : VOp) (a : VOp)
  /-- CVT_F64_F32 (R172): Exact f32 to f64 pair conversion; no latch. -/
  | cvtF64F32 (d : VOp) (a : VOp)
  /-- CVT_F32_F64 (R172): f64 pair to f32 narrowing. -/
  | cvtF32F64 (d : VOp) (a : VOp)
  /-- CVT_F32_I32 (R172): i32 to f32 rounded in MODE.RM. -/
  | cvtF32I32 (d : VOp) (a : VOp)
  /-- CVT_F32_N32 (R172): n32 to f32 rounded in MODE.RM. -/
  | cvtF32N32 (d : VOp) (a : VOp)
  /-- CVT_I32_F32 (R173): f32 to i32 truncating, saturating with NV out of range. -/
  | cvtI32F32 (d : VOp) (a : VOp)
  /-- CVT_N32_F32 (R173): f32 to n32 truncating, saturating. -/
  | cvtN32F32 (d : VOp) (a : VOp)
  /-- CVT_I32_I8 (R172): Exact i8 to i32 conversion. -/
  | cvtI32I8 (d : VOp) (a : VOp)
  /-- CVT_I32_N8 (R172): Exact n8 to i32 conversion. -/
  | cvtI32N8 (d : VOp) (a : VOp)
  /-- CVT_I8_I32 (R172): i32 to i8 saturating. -/
  | cvtI8I32 (d : VOp) (a : VOp)
  /-- CVT_N8_I32 (R172): i32 to n8 saturating. -/
  | cvtN8I32 (d : VOp) (a : VOp)
  /-- CVTPK (R174): Converts two f32 values into one f16x2 word. -/
  | cvtpk (d : VOp) (a : VOp) (b : VOp)
  /-- CVTUP (R175): Converts one selected element of a packed source to f32 or i32. -/
  | cvtup (t : UpT) (e : BitVec 2) (d : VOp) (a : VOp)
  /-- TUNPK (R176): Extracts trit K of a TERN5 byte as i32; reserved bytes fault FMTF under STRICT at issue. -/
  | tunpk (d : VOp) (a : VOp) (k : BitVec 3)
  /-- FRCP (R177): Reciprocal special function within 1 ulp. -/
  | frcp (d : VOp) (a : VOp)
  /-- FRSQ (R177): Reciprocal square root special function. -/
  | frsq (d : VOp) (a : VOp)
  /-- FEXP2 (R177): Base-2 exponential special function. -/
  | fexp2 (d : VOp) (a : VOp)
  /-- FLOG2 (R177): Base-2 logarithm special function. -/
  | flog2 (d : VOp) (a : VOp)
  /-- FSIN (R177): Sine special function. -/
  | fsin (d : VOp) (a : VOp)
  /-- FCOS (R177): Cosine special function. -/
  | fcos (d : VOp) (a : VOp)
  /-- FTANH (R177): Hyperbolic tangent special function. -/
  | ftanh (d : VOp) (a : VOp)
  /-- FSIGM (R177): Logistic sigmoid special function. -/
  | fsigm (d : VOp) (a : VOp)
  /-- SHFL (R192): Reads A from a lane of the word selected by b[4:0]. -/
  | shfl (d : VOp) (a : VOp) (b : VOp)
  /-- SHFLUP (R192): Reads A from a lane b[4:0] below, else own value. -/
  | shflup (d : VOp) (a : VOp) (b : VOp)
  /-- SHFLDN (R192): Reads A from a lane b[4:0] above, else own value. -/
  | shfldn (d : VOp) (a : VOp) (b : VOp)
  /-- SHFLX (R192): Reads A from the lane at bit XOR b[4:0]. -/
  | shflx (d : VOp) (a : VOp) (b : VOp)
  /-- BCAST (R192): Broadcasts A of the lowest active lane of the word. -/
  | bcast (d : VOp) (a : VOp)
  /-- BALLOT (R192): Gathers a predicate of the word's active lanes into a 32-bit mask. -/
  | ballot (d : VOp) (p : BitVec 3)
  /-- VANY (R192): 1 if any active lane of the word has the predicate set. -/
  | vany (d : VOp) (p : BitVec 3)
  /-- VALL (R192): 1 if every active lane of the word has the predicate set. -/
  | vall (d : VOp) (p : BitVec 3)
  /-- WRED_ADD_F32 (R193): Word f32 sum over present active lanes, rounded once. -/
  | wredAddF32 (d : VOp) (a : VOp)
  /-- WRED_MAX_F32 (R193): Word skip-class f32 maximum. -/
  | wredMaxF32 (d : VOp) (a : VOp)
  /-- WRED_ADD_I32 (R193): Word i32 exact sum, saturated. -/
  | wredAddI32 (d : VOp) (a : VOp)
  /-- WSCAN_ADD_F32 (R193): Word f32 inclusive prefix sum, each rounded once. -/
  | wscanAddF32 (d : VOp) (a : VOp)
  /-- WSCAN_ADD_I32 (R193): Word i32 inclusive prefix sum, saturated. -/
  | wscanAddI32 (d : VOp) (a : VOp)
  /-- LANES (R192): Writes the count of active lanes below and in the word. -/
  | lanes (d : VOp)
  /-- MOV (R179): Copies A; keeps its tag under a full mask. -/
  | mov (d : VOp) (a : VOp)
  /-- SEL (R180): Per-lane select of a or b by predicate p1-p7; result G. -/
  | sel (d : VOp) (p : BitVec 3) (a : VOp) (b : VOp)
  /-- TOABS (R181): Makes the lane's elements absent of type T where the predicate is set. -/
  | toabs (t : AbsT) (d : VOp) (a : VOp) (p : BitVec 3)
  /-- DEFABS (R182): Replaces absent elements of A by those of B. -/
  | defabs (t : AbsT) (d : VOp) (a : VOp) (b : VOp)
  /-- PLOG (R171): Combines predicates by and, or, xor or not in active lanes. -/
  | plog (o : PlogOp) (d : BitVec 3) (a : BitVec 3) (b : BitVec 3)
  /-- GTAG (R183): Writes a scalar with a register's tag, the team's G count and grant. -/
  | gtag (d : BitVec 6) (a : BitVec 6)
  /-- MKG (R184): Makes the destination a G register holding A in active lanes. -/
  | mkg (d : VOp) (a : VOp)
  /-- IADDI (R185): Adds a sign-extended 9-bit immediate. -/
  | iaddi (d : VOp) (a : VOp) (i : BitVec 9)
  /-- ANDI (R185): ANDs with an immediate. -/
  | andi (d : VOp) (a : VOp) (i : BitVec 9)
  /-- ORI (R185): ORs with an immediate. -/
  | ori (d : VOp) (a : VOp) (i : BitVec 9)
  /-- XORI (R185): XORs with an immediate. -/
  | xori (d : VOp) (a : VOp) (i : BitVec 9)
  /-- SHLI (R185): Left shift by an immediate 0-31. -/
  | shli (d : VOp) (a : VOp) (n : BitVec 5)
  /-- SHRI (R185): Logical right shift by an immediate. -/
  | shri (d : VOp) (a : VOp) (n : BitVec 5)
  /-- SARI (R185): Arithmetic right shift by an immediate. -/
  | sari (d : VOp) (a : VOp) (n : BitVec 5)
  /-- MOVI (R185): Writes a sign-extended immediate, tag U under a full mask. -/
  | movi (d : VOp) (i : BitVec 9)
  /-- SADD (R187): Scalar add modulo 2^32. -/
  | sadd (d : BitVec 6) (a : BitVec 6) (b : BitVec 6)
  /-- SSUB (R187): Scalar subtract. -/
  | ssub (d : BitVec 6) (a : BitVec 6) (b : BitVec 6)
  /-- SMUL (R187): Scalar low product. -/
  | smul (d : BitVec 6) (a : BitVec 6) (b : BitVec 6)
  /-- SMULH_I (R187): Scalar signed high product. -/
  | smulhI (d : BitVec 6) (a : BitVec 6) (b : BitVec 6)
  /-- SMULH_N (R187): Scalar unsigned high product. -/
  | smulhN (d : BitVec 6) (a : BitVec 6) (b : BitVec 6)
  /-- SMIN_I (R187): Scalar signed minimum. -/
  | sminI (d : BitVec 6) (a : BitVec 6) (b : BitVec 6)
  /-- SMAX_I (R187): Scalar signed maximum. -/
  | smaxI (d : BitVec 6) (a : BitVec 6) (b : BitVec 6)
  /-- SMIN_N (R187): Scalar unsigned minimum. -/
  | sminN (d : BitVec 6) (a : BitVec 6) (b : BitVec 6)
  /-- SMAX_N (R187): Scalar unsigned maximum. -/
  | smaxN (d : BitVec 6) (a : BitVec 6) (b : BitVec 6)
  /-- SAND (R187): Scalar bitwise AND. -/
  | sand (d : BitVec 6) (a : BitVec 6) (b : BitVec 6)
  /-- SOR (R187): Scalar bitwise OR. -/
  | sor (d : BitVec 6) (a : BitVec 6) (b : BitVec 6)
  /-- SXOR (R187): Scalar bitwise XOR. -/
  | sxor (d : BitVec 6) (a : BitVec 6) (b : BitVec 6)
  /-- SSHL (R187): Scalar left shift by b[5:0]. -/
  | sshl (d : BitVec 6) (a : BitVec 6) (b : BitVec 6)
  /-- SSHR (R187): Scalar logical right shift. -/
  | sshr (d : BitVec 6) (a : BitVec 6) (b : BitVec 6)
  /-- SSAR (R187): Scalar arithmetic right shift. -/
  | ssar (d : BitVec 6) (a : BitVec 6) (b : BitVec 6)
  /-- SBFE_I (R187): Scalar signed bit-field extract. -/
  | sbfeI (d : BitVec 6) (a : BitVec 6) (b : BitVec 6)
  /-- SBFE_N (R187): Scalar unsigned bit-field extract. -/
  | sbfeN (d : BitVec 6) (a : BitVec 6) (b : BitVec 6)
  /-- SBFI (R187): Scalar bit-field insert into sD. -/
  | sbfi (d : BitVec 6) (a : BitVec 6) (b : BitVec 6)
  /-- SPOPC (R187): Scalar population count. -/
  | spopc (d : BitVec 6) (a : BitVec 6)
  /-- SCLZ (R187): Scalar leading-zero count. -/
  | sclz (d : BitVec 6) (a : BitVec 6)
  /-- SADD64 (R187): 64-bit pair add. -/
  | sadd64 (d : BitVec 6) (a : BitVec 6) (b : BitVec 6)
  /-- SSUB64 (R187): 64-bit pair subtract. -/
  | ssub64 (d : BitVec 6) (a : BitVec 6) (b : BitVec 6)
  /-- SSHL64 (R187): 64-bit pair left shift by b[6:0]. -/
  | sshl64 (d : BitVec 6) (a : BitVec 6) (b : BitVec 6)
  /-- SCMP_EQ (R187): Scalar equality compare giving 1 or 0. -/
  | scmpEq (d : BitVec 6) (a : BitVec 6) (b : BitVec 6)
  /-- SCMP_LT_I (R187): Scalar signed less-than. -/
  | scmpLtI (d : BitVec 6) (a : BitVec 6) (b : BitVec 6)
  /-- SCMP_LT_N (R187): Scalar unsigned less-than. -/
  | scmpLtN (d : BitVec 6) (a : BitVec 6) (b : BitVec 6)
  /-- SADDI (R188): Scalar add of a sign-extended 10-bit immediate. -/
  | saddi (d : BitVec 6) (a : BitVec 6) (i : BitVec 10)
  /-- SANDI (R188): Scalar AND immediate. -/
  | sandi (d : BitVec 6) (a : BitVec 6) (i : BitVec 10)
  /-- SORI (R188): Scalar OR immediate. -/
  | sori (d : BitVec 6) (a : BitVec 6) (i : BitVec 10)
  /-- SXORI (R188): Scalar XOR immediate. -/
  | sxori (d : BitVec 6) (a : BitVec 6) (i : BitVec 10)
  /-- SSHLI (R188): Scalar left shift by 0-31. -/
  | sshli (d : BitVec 6) (a : BitVec 6) (n : BitVec 5)
  /-- SSHRI (R188): Scalar logical right shift by 0-31. -/
  | sshri (d : BitVec 6) (a : BitVec 6) (n : BitVec 5)
  /-- SSARI (R188): Scalar arithmetic right shift by 0-31. -/
  | ssari (d : BitVec 6) (a : BitVec 6) (n : BitVec 5)
  /-- SCMPI_LT (R188): Scalar signed less-than an immediate. -/
  | scmpiLt (d : BitVec 6) (a : BitVec 6) (i : BitVec 10)
  /-- SMOVI (R188): Writes a sign-extended immediate to a scalar. -/
  | smovi (d : BitVec 6) (i : BitVec 10)
  /-- SRD (R190): Reads a special register into a scalar, snapshotting multi-word values (R53). -/
  | srd (d : BitVec 6) (n : BitVec 12)
  /-- SWR (R190): Writes a special register (MODE, FLAGS) effective at clause boundaries. -/
  | swr (n : BitVec 12) (s : BitVec 6)
  /-- VTOS (R191): Reads one lane of a vector register into a scalar after the clause's last pass. -/
  | vtos (d : BitVec 6) (a : BitVec 6) (l : BitVec 6)
  /-- STOV (R190): Writes a scalar to every active lane of a vector register. -/
  | stov (d : BitVec 6) (s : BitVec 6)
  /-- SMOVW (R190): Writes a 32-bit literal from the extension word to a scalar. -/
  | smovw (d : BitVec 6) (w : BitVec 32)
  /-- BDSET (R190): Writes a whole buffer descriptor from two pairs. -/
  | bdset (d : BitVec 4) (a : BitVec 6) (c : BitVec 6)
  /-- SLUI (R189): Writes IMM20 shifted left by 12 to a scalar. -/
  | slui (d : BitVec 6) (i : BitVec 20)
  /-- BRA (R194): Unconditional relative branch. -/
  | bra (o : BitVec 12)
  /-- BPT (R23): Per-lane branch where the predicate is set; diverges under a token. -/
  | bpt (p : BitVec 3) (k : BitVec 4) (o : BitVec 12)
  /-- BPF (R23): Per-lane branch where the predicate is clear; diverges under a token. -/
  | bpf (p : BitVec 3) (k : BitVec 4) (o : BitVec 12)
  /-- BANY (R194): Uniform branch if any active lane has the predicate. -/
  | bany (p : BitVec 3) (o : BitVec 12)
  /-- BALL (R194): Uniform branch if every active lane has the predicate, or none is active. -/
  | ball (p : BitVec 3) (o : BitVec 12)
  /-- BNZ (R194): Branch if a scalar is non-zero. -/
  | bnz (s : BitVec 6) (o : BitVec 12)
  /-- BZ (R194): Branch if a scalar is zero. -/
  | bz (s : BitVec 6) (o : BitVec 12)
  /-- JMP (R194): Unconditional jump with a 32-bit word offset in its second word. -/
  | jmp (w : BitVec 32)
  /-- LOOP (R198): Opens a hardware loop level with a count from a scalar. -/
  | loop (v : BitVec 2) (s : BitVec 6) (n : BitVec 10)
  /-- LOOPI (R198): Opens a hardware loop level with an immediate count. -/
  | loopi (v : BitVec 2) (c : BitVec 8) (n : BitVec 10)
  /-- LBRK (R198): Leaves a loop level and closes it and inner levels. -/
  | lbrk (v : BitVec 2)
  /-- NOP (R200): No operation. -/
  | nop
  /-- RCV (R24): Reconvergence point for a token; fragments stop, parents wait and merge. -/
  | rcv (k : BitVec 4)
  /-- CALL (R196): Pushes a return address in each frame lane's call area and jumps. -/
  | call (w : BitVec 32)
  /-- CALLR (R196): Register-indirect call. -/
  | callr (x : BitVec 5)
  /-- RET (R196): Pops the common top frame and returns. -/
  | ret
  /-- JR (R196): Register-indirect jump. -/
  | jr (x : BitVec 5)
  /-- YIELD (R201): Sets LIVE and the deadline and offers the team to pre-emption. -/
  | yield (d : BitVec 4) (l : BitVec 7)
  /-- YIELDC (R201): Yield, then wait on counters and continue at a target. -/
  | yieldc (l : BitVec 3) (s : BitVec 3) (c : BitVec 3) (t : BitVec 3) (d : BitVec 4) (n : BitVec 7) (o : BitVec 21)
  /-- EXIT (R202): Ends the executing entity; its lanes retire. -/
  | exit
  /-- TRAP (R202): Raises TRAP precisely with a 16-bit code. -/
  | trap (i : BitVec 16)
  /-- WAIT (R203): Holds the entity until the outstanding-operation counters fall to the given levels. -/
  | wait (l : BitVec 3) (s : BitVec 3) (c : BitVec 3) (t : BitVec 3)
  /-- BARINIT (R205): Initialises a barrier object and sets residence. -/
  | barinit (p : Bool) (o : BitVec 6) (n : BitVec 6) (b : BitVec 6)
  /-- BAREXP (R205): Sets expected bytes and tests completion at once. -/
  | barexp (p : Bool) (o : BitVec 6) (b : BitVec 6)
  /-- BARARR (R205): Returns the phase and adds one arrival with release. -/
  | bararr (p : Bool) (t : BitVec 6) (o : BitVec 6)
  /-- BARWAIT (R205): Holds until the barrier phase differs from the token; acquires. -/
  | barwait (p : Bool) (o : BitVec 6) (t : BitVec 6)
  /-- BARTRY (R205): Tests the barrier phase without waiting. -/
  | bartry (p : Bool) (r : BitVec 6) (o : BitVec 6) (t : BitVec 6)
  /-- RINGINIT (R206): Initialises a ring header and slot barriers. -/
  | ringinit (p : Bool) (o : BitVec 6) (c : BitVec 6) (d : BitVec 6)
  /-- AWAITF (R206): Holds until a ring slot fills, then returns its index with acquire. -/
  | awaitf (p : Bool) (i : BitVec 6) (o : BitVec 6) (j : BitVec 6)
  /-- RELS (R206): Releases one consumed ring slot. -/
  | rels (p : Bool) (o : BitVec 6)
  /-- WGBAR (R207): Workgroup barrier rendezvous of all live teams. -/
  | wgbar
  /-- LDG (R213): Per-lane global load (offset form adds an extension word). -/
  | ldg (z : LdSz) (o : LdOrd) (p : Pol) (d : VOp) (b : BitVec 4) (v : VOp) (off : Option (BitVec 32))
  /-- STG (R213): Per-lane global store, highest lane wins on shared bytes. -/
  | stg (z : StSz) (o : StOrd) (p : Pol) (b : BitVec 4) (v : VOp) (off : Option (BitVec 32)) (d : VOp)
  /-- LDSP (R214): SPAD load. -/
  | ldsp (z : LdSz) (q : Bool) (d : VOp) (b : BitVec 4) (v : VOp) (off : Option (BitVec 32))
  /-- LDCL (R214): CLMEM load. -/
  | ldcl (z : LdSz) (q : Bool) (d : VOp) (b : BitVec 4) (v : VOp) (off : Option (BitVec 32))
  /-- LDST (R214): STMEM load. -/
  | ldst (z : LdSz) (q : Bool) (d : VOp) (b : BitVec 4) (v : VOp) (off : Option (BitVec 32))
  /-- LDLP (R214): LANE load from the lane's own region. -/
  | ldlp (z : LdSz) (q : Bool) (d : VOp) (b : BitVec 4) (v : VOp) (off : Option (BitVec 32))
  /-- STSP (R214): SPAD store. -/
  | stsp (z : StSz) (q : Bool) (b : BitVec 4) (v : VOp) (off : Option (BitVec 32)) (d : VOp)
  /-- STCL (R214): CLMEM store. -/
  | stcl (z : StSz) (q : Bool) (b : BitVec 4) (v : VOp) (off : Option (BitVec 32)) (d : VOp)
  /-- STST (R214): STMEM store; WINV in a compute phase. -/
  | stst (z : StSz) (q : Bool) (b : BitVec 4) (v : VOp) (off : Option (BitVec 32)) (d : VOp)
  /-- STLP (R214): LANE store. -/
  | stlp (z : StSz) (q : Bool) (b : BitVec 4) (v : VOp) (off : Option (BitVec 32)) (d : VOp)
  /-- LDB (R97): Bounds-checked buffer load with absent fill. -/
  | ldb (z : LdSz) (o : LdOrd) (l : Bool) (d : VOp) (b : BitVec 4) (v : VOp) (off : Option (BitVec 32))
  /-- STB (R97): Bounds-checked buffer store with optional drop. -/
  | stb (z : StSz) (o : StOrd) (l : Bool) (b : BitVec 4) (v : VOp) (off : Option (BitVec 32)) (d : VOp)
  /-- AADD (R218): Global atomic add; f32 rounds per arrival. -/
  | aadd (o : AOrd) (t : ATy) (d : VOp) (b : BitVec 4) (v : VOp)
  /-- AMIN (R218): Global atomic minimum. -/
  | amin (o : AOrd) (t : ATy) (d : VOp) (b : BitVec 4) (v : VOp)
  /-- AMAX (R218): Global atomic maximum. -/
  | amax (o : AOrd) (t : ATy) (d : VOp) (b : BitVec 4) (v : VOp)
  /-- AAND (R218): Global atomic AND. -/
  | aand (o : AOrd) (t : ATy) (d : VOp) (b : BitVec 4) (v : VOp)
  /-- AOR (R218): Global atomic OR. -/
  | aor (o : AOrd) (t : ATy) (d : VOp) (b : BitVec 4) (v : VOp)
  /-- AXOR (R218): Global atomic XOR. -/
  | axor (o : AOrd) (t : ATy) (d : VOp) (b : BitVec 4) (v : VOp)
  /-- AXCH (R218): Global atomic exchange. -/
  | axch (o : AOrd) (t : ATy) (d : VOp) (b : BitVec 4) (v : VOp)
  /-- ACAS (R218): Global atomic compare-and-swap. -/
  | acas (o : AOrd) (t : ATy) (d : VOp) (b : BitVec 4) (v : VOp)
  /-- AACC (R220): Global atomic accumulation into a value-and-count cell. -/
  | aacc (o : AOrd) (d : VOp) (b : BitVec 4) (v : VOp)
  /-- AINC (R218): Global atomic increment. -/
  | ainc (o : AOrd) (n : Bool) (d : VOp) (b : BitVec 4) (v : VOp)
  /-- AADD_SPACE (R218): SPAD or CLMEM atomic add. -/
  | aaddSpace (o : AOrd) (s : Sp) (t : ATy) (d : VOp) (v : VOp)
  /-- AMIN_SPACE (R218): Space atomic minimum. -/
  | aminSpace (o : AOrd) (s : Sp) (t : ATy) (d : VOp) (v : VOp)
  /-- AMAX_SPACE (R218): Space atomic maximum. -/
  | amaxSpace (o : AOrd) (s : Sp) (t : ATy) (d : VOp) (v : VOp)
  /-- AAND_SPACE (R218): Space atomic AND. -/
  | aandSpace (o : AOrd) (s : Sp) (t : ATy) (d : VOp) (v : VOp)
  /-- AOR_SPACE (R218): Space atomic OR. -/
  | aorSpace (o : AOrd) (s : Sp) (t : ATy) (d : VOp) (v : VOp)
  /-- AXOR_SPACE (R218): Space atomic XOR. -/
  | axorSpace (o : AOrd) (s : Sp) (t : ATy) (d : VOp) (v : VOp)
  /-- AXCH_SPACE (R218): Space atomic exchange. -/
  | axchSpace (o : AOrd) (s : Sp) (t : ATy) (d : VOp) (v : VOp)
  /-- ACAS_SPACE (R218): Space atomic compare-and-swap. -/
  | acasSpace (o : AOrd) (s : Sp) (t : ATy) (d : VOp) (v : VOp)
  /-- AACC_SPACE (R220): Space atomic cell accumulation. -/
  | aaccSpace (o : AOrd) (s : Sp) (d : VOp) (v : VOp)
  /-- AINC_SPACE (R218): Space atomic increment. -/
  | aincSpace (o : AOrd) (s : Sp) (n : Bool) (d : VOp) (v : VOp)
  /-- FENCE (R112): Orders the entity's accesses of a kind at a scope, waiting for parked accesses. -/
  | fence (k : FKind) (s : Scope)
  /-- CPRF (R222): Prefetches a line into L2 or L1 and L2; never faults. -/
  | cprf (i : BitVec 10) (a : BitVec 6) (l : Bool)
  /-- CFLUSH (R223): Writes dirty bytes of a range to memory and invalidates the lines. -/
  | cflush (a : BitVec 6) (d : BitVec 6)
  /-- SLD (R216): Scalar 32-bit global load. -/
  | sld (d : BitVec 6) (a : BitVec 6) (i : BitVec 10)
  /-- SST (R216): Scalar 32-bit global store. -/
  | sst (a : BitVec 6) (i : BitVec 10) (d : BitVec 6)
  /-- CPY_G2S (R225): Issues a slice of a collective copy from global memory to SPAD. -/
  | cpyG2s (dst : BitVec 6) (src : BitVec 6) (len : BitVec 6) (sl : BitVec 4) (obj : BitVec 6) (idx : BitVec 6) (rows : BitVec 6) (stride : BitVec 6) (mc : Bool) (ring : Bool) (fill : Bool)
  /-- CPY_G2C (R225): Copy slice from global memory to CLMEM. -/
  | cpyG2c (dst : BitVec 6) (src : BitVec 6) (len : BitVec 6) (sl : BitVec 4) (obj : BitVec 6) (idx : BitVec 6) (rows : BitVec 6) (stride : BitVec 6) (ring : Bool) (fill : Bool)
  /-- CPY_G2T (R225): Copy slice from global memory to STMEM. -/
  | cpyG2t (dst : BitVec 6) (src : BitVec 6) (len : BitVec 6) (sl : BitVec 4) (obj : BitVec 6) (idx : BitVec 6) (rows : BitVec 6) (stride : BitVec 6) (fill : Bool)
  /-- CPY_S2G (R225): Copy slice from SPAD to global memory. -/
  | cpyS2g (dst : BitVec 6) (src : BitVec 6) (len : BitVec 6) (sl : BitVec 4) (obj : BitVec 6) (idx : BitVec 6) (rows : BitVec 6) (stride : BitVec 6)
  /-- CPY_C2S (R225): Copy slice from CLMEM to SPAD. -/
  | cpyC2s (dst : BitVec 6) (src : BitVec 6) (len : BitVec 6) (sl : BitVec 4) (obj : BitVec 6) (idx : BitVec 6) (rows : BitVec 6) (stride : BitVec 6) (mc : Bool) (ring : Bool)
  /-- CPY_S2C (R225): Copy slice from SPAD to CLMEM. -/
  | cpyS2c (dst : BitVec 6) (src : BitVec 6) (len : BitVec 6) (sl : BitVec 4) (obj : BitVec 6) (idx : BitVec 6) (rows : BitVec 6) (stride : BitVec 6) (ring : Bool)
  /-- CPYM (R225): Copy slice from global to global memory. -/
  | cpym (dst : BitVec 6) (src : BitVec 6) (len : BitVec 6) (sl : BitVec 4) (obj : BitVec 6) (idx : BitVec 6) (rows : BitVec 6) (stride : BitVec 6) (fill : Bool)
  /-- CPYX (R225): Copy slice from STMEM to SPAD. -/
  | cpyx (dst : BitVec 6) (src : BitVec 6) (len : BitVec 6) (sl : BitVec 4) (obj : BitVec 6) (idx : BitVec 6) (rows : BitVec 6) (stride : BitVec 6) (ring : Bool)
  /-- CPYG (R225): Gathers global rows named by a SPAD pointer table into SPAD. -/
  | cpyg (dst : BitVec 6) (src : BitVec 6) (len : BitVec 6) (sl : BitVec 4) (obj : BitVec 6) (idx : BitVec 6) (rows : BitVec 6) (stride : BitVec 6) (ring : Bool) (fill : Bool)
  /-- CRED (R232): Contributes a slice to a cross-package reduction on a group. -/
  | cred (dst : BitVec 6) (src : BitVec 6) (len : BitVec 6) (sl : BitVec 4) (obj : BitVec 6) (idx : BitVec 6) (rows : BitVec 6) (stride : BitVec 6)
  /-- CPYCAN (R234): Cancels copies on an object key that have not written. -/
  | cpycan (n : BitVec 6) (cl : Bool) (obj : BitVec 6)
  /-- MRES (R246): Reserves a MOB record with a format word. -/
  | mres (d : BitVec 4) (w : BitVec 32)
  /-- MFREE (R246): Releases a MOB record after its earlier users complete. -/
  | mfree (d : BitVec 4)
  /-- MLD (R247): Loads record rows from global memory, SPAD or CLMEM. -/
  | mld (q : MldSrc) (d : BitVec 4) (s : BitVec 5) (p : BitVec 5)
  /-- MSCL (R248): Attaches block scales from a bf16 record. -/
  | mscl (d : BitVec 4) (s : BitVec 4) (o : BitVec 5)
  /-- MGANG (R242): Names or leaves the team's gang. -/
  | mgang (b : BitVec 5) (i : BitVec 4)
  /-- MSHAPE (R249): Sets the team's band mask for later mma. -/
  | mshape (m : BitVec 4)
  /-- MLS (R250): Loads the shadow plane from a record, optionally with column sums. -/
  | mls (r : BitVec 4) (s : Bool) (c : BitVec 4) (o : BitVec 5)
  /-- MSWAP (R251): Exchanges shadow and active planes band by band. -/
  | mswap
  /-- MMA (R254): Streams record rows through the active plane into an accumulator tile. -/
  | mma (t : BitVec 3) (a : BitVec 4) (q : BitVec 5) (p : BitVec 2) (g : Bool) (z : Bool) (s : Bool) (w : Bool)
  /-- MDRAIN (R258): Converts tile rows through the drain stages and writes them out. -/
  | mdrain (t : BitVec 3) (x : BitVec 4) (o : BitVec 5) (n : BitVec 6) (w : BitVec 32)
  /-- MTAB (R259): Loads the activation table from a record. -/
  | mtab (t : BitVec 4)
  /-- MZERO (R260): Clears a tile to +0, count 0, type none. -/
  | mzero (t : BitVec 3)
  /-- MFILL (R260): Loads a tile's values, counts, row sums and type from a RAW image record. -/
  | mfill (t : BitVec 3) (r : BitVec 4)
  /-- MRED_ADD (R261): Team-wide grouped sum and count into a scalar pair on the drain path. -/
  | mredAdd (t : RedT) (d : BitVec 6) (a : VOp)
  /-- MSCAN_ADD (R261): Team-wide grouped prefix sums and counts into a vector pair. -/
  | mscanAdd (t : RedT) (d : BitVec 6) (a : VOp)
  /-- LAUNCH (R269): Reads a launch record and enqueues a child grid on a queue. -/
  | launch (d : BitVec 6) (a : BitVec 6) (q : BitVec 6)
  /-- COMMIT (R273): Workgroup rendezvous that ends the compute phase. -/
  | commit
  /-- SPGROW (R276): Grows the workgroup's SPAD allocation; XSPAD past SPADMAX. -/
  | spgrow (d : BitVec 6) (a : BitVec 6)
  /-- LPGROW (R276): Grows every lane's LANE allocation; XLANE past LANEMAX. -/
  | lpgrow (d : BitVec 6) (a : BitVec 6)
  /-- QWAIT (R270): Waits for the workgroup's child grids and returns how many faulted. -/
  | qwait (d : BitVec 6)
  /-- ALLOW (R277): Raises XALW if fewer compute-phase words remain than requested. -/
  | allow (a : BitVec 6)
  /-- TRET (R328): Leaves handler state and resumes at the slot's clause and word. -/
  | tret
  /-- PCSRR (R329): Reads a privileged register. -/
  | pcsrr (d : BitVec 6) (a : BitVec 6)
  /-- PCSRW (R329): Writes a privileged register subject to R313. -/
  | pcsrw (a : BitVec 6) (b : BitVec 6)
  /-- TINV (R330): Invalidates cached translations of a page or context and waits for them. -/
  | tinv (a : BitVec 6) (b : BitVec 6)
  /-- RQREL (R330): Releases parked accesses and held slices on a page, optionally failing them. -/
  | rqrel (a : BitVec 6) (b : BitVec 6)
  /-- HLT (R331): Holds until EVPEND AND EVMASK is non-zero, then returns it. -/
  | hlt (d : BitVec 6)
  /-- BRK (R376): Breakpoint: stops the context for a debugger or faults BRK. -/
  | brk (i : BitVec 16)
  /-- TMARK (R376): Writes a trace marker record when enabled. -/
  | tmark (i : BitVec 16)
  /-- CLAUSE_ISSUE (R21): An issuable clause of an entity is decoded, checked and issued on its pipe. -/
  | clauseIssue (e : Nat)
  /-- ISSUE_WAIT_LIMIT (R22): An issuable entity's count reaches 64 and it issues next ahead of every class. -/
  | issueWaitLimit (e : Nat)
  /-- YDL (R201): Retired words pass the team's yield deadline; the team faults and ends. -/
  | ydl (e : Nat)
  /-- DEFERRAL_SWITCH (R25): The innermost deferral slot's running path reaches 256 clauses and paths exchange. -/
  | deferralSwitch (e : Nat)
  /-- LOAD_COMPLETE (R213): A load's lanes write their destinations and CNTLD falls. -/
  | loadComplete (op : Nat)
  /-- STORE_COMPLETE (R213): A store's writes are performed and CNTST falls. -/
  | storeComplete (op : Nat)
  /-- ATOMIC_PERFORM (R221): An atomic's lanes are performed at the home L2 or SRAM in lane order. -/
  | atomicPerform (op : Nat)
  /-- REPLAY_STALL_RESUME (R104): An entity stalled on a full replay queue or data store resumes when room frees. -/
  | replayStallResume (e : Nat)
  /-- PARKED_ACCESS_REPLAY (R339): A released parked entry is translated afresh and completes, re-parks or fails. -/
  | parkedAccessReplay (r : Nat)
  /-- HELD_SLICE_ISSUE (R231): A first copy slice held on a full ring issues and claims a slot once room frees. -/
  | heldSliceIssue (e : Nat)
  /-- COPY_COMPLETE (R228): Every slice of a copy has written; its bytes are added to the object and CNTCP falls. -/
  | copyComplete (c : Nat)
  /-- COPY_FAILURE (R228): A slice fails a check at a page after acceptance and ends its copy. -/
  | copyFailure (c : Nat) (i : Nat)
  /-- CRED_COMPLETE (R233): A reduction combines in the rank tree and writes every rank's destination. -/
  | credComplete (g : Nat)
  /-- ENGINE_DEFERRED_ACCEPT (R238): A waiting engine instruction is accepted once an entry frees or an mfill completes. -/
  | engineDeferredAccept (e : Nat)
  /-- ARBITER_GRANT (R240): A free engine path grants an eligible entry or mma pass. -/
  | arbiterGrant (g : Nat) (p : Nat)
  /-- ARBITER_AGE_LIMIT (R240): An entry eligible for 4,096 engine cycles goes first. -/
  | arbiterAgeLimit (g : Nat) (k : Nat)
  /-- MSWAP_BAND_SWAP (R251): A band swaps planes once earlier passes have left it. -/
  | mswapBandSwap (g : Nat) (k : Nat) (b : Nat)
  /-- ENGINE_OP_COMPLETE (R239): An engine operation completes, frees its entry and CNTTL falls. -/
  | engineOpComplete (g : Nat) (k : Nat)
  /-- MLD_FAILURE (R247): A held or changed-page mld fails; loaded rows stand and a deferred record goes out. -/
  | mldFailure (g : Nat) (k : Nat)
  /-- MLD_STRICT_FMTF (R247): A strict mld finds a reserved TERN5 byte and raises deferred FMTF. -/
  | mldStrictFmtf (g : Nat) (k : Nat)
  /-- BAND_RAIL_WAKE (R358): A gated band rail finishes its 2 µs wake-up. -/
  | bandRailWake (g : Nat) (b : Nat)
  /-- BAND_RAIL_GATE (R358): A band with GATE set powers down once no accepted mma names it. -/
  | bandRailGate (g : Nat) (b : Nat)
  /-- QUEUE_RECORD_CONSUME (R266): The grid unit reads a published record with acquire, copies it and advances HEAD. -/
  | queueRecordConsume (c : Nat) (q : Nat)
  /-- CONTEXT_CHOICE (R320): A stack chooses a candidate context by weighted round robin. -/
  | contextChoice (st : Nat)
  /-- PLACEMENT (R326): A unit or restored workgroup is placed on cores once it fits. -/
  | placement (c : Nat) (k : Nat)
  /-- TEAM_SWAP_OUT (R14): A team in qwait whose children cannot be placed is saved to its image. -/
  | teamSwapOut (t : Nat)
  /-- WORKGROUP_RETIRE (R14): A workgroup whose teams ended and descendants retired retires. -/
  | workgroupRetire (w : Nat)
  /-- HANG (R346): A team's watchdog count reaches HANGLIM times 2^20 and the team ends. -/
  | hang (t : Nat)
  /-- SAMPLE_TICK (R351): Every 10 µs all column records, power estimates and thermal readings are written. -/
  | sampleTick (x : Sample)
  /-- EMERGENCY_RELEASE (R363): After 1 ms below TEMG-80 the origin sends a release notice. -/
  | emergencyRelease
  /-- NOTICE_RECEIVE (R388): A slow-down or release notice arrives on a chorus link and is applied and forwarded. -/
  | noticeReceive (l : Nat) (n : Notice)
  /-- MIGRATION_START (R364): A chosen move starts once R28 and R29 permit; IDLE landings are redirected. -/
  | migrationStart (w : Nat) (y : Nat)
  /-- MIGRATION_ARRIVAL (R28): The whole workgroup state has arrived and its entities resume on the new layer. -/
  | migrationArrival (w : Nat)
  /-- SM_LOOP_PASS (R352): The stage manager's 1 ms pass writes targets and increments SMHB. -/
  | smLoopPass (ts : List IslandTarget) (gs : List BandPermission)
  /-- SMHB_TIMEOUT (R352): SMHB unchanged for 10 ms caps every island at 0.60 GHz. -/
  | smhbTimeout
  /-- ISLAND_TARGET (R354): A target write is checked against range and floor and accepted or made pending. -/
  | islandTarget (x : IslandTarget)
  /-- VOLTAGE_RAMP_DONE (R355): The rail reaches its target voltage. -/
  | voltageRampDone (i : Nat)
  /-- SETTLE_DONE (R355): The 2 µs settle after a voltage rise ends. -/
  | settleDone (i : Nat)
  /-- FREQUENCY_SWITCH (R356): A 4-cycle frequency switch completes and issue resumes at the new clock. -/
  | frequencySwitch (i : Nat)
  /-- ACQ (R314): A port requests or renews ownership of DZ_SEM. -/
  | acq (p : Nat)
  /-- REL (R314): The owner releases DZ_SEM. -/
  | rel (p : Nat)
  /-- DZ_HB (R314): The owner's heartbeat write restarts the lease. -/
  | dzHb (p : Nat)
  /-- LEASE_LAPSE (R314): 100 ms without renewal frees DZ_SEM. -/
  | leaseLapse
  /-- PRIV_REGISTER_WRITE (R313): A privileged register write is accepted or dropped and logged in DZ_DROP. -/
  | privRegisterWrite (p : Nat) (a : Nat) (v : BitVec 32)
  /-- CREATE (R316): A FREE context becomes ACTIVE with fresh state and keys. -/
  | create (p : Nat) (c : Nat)
  /-- SUSPEND (R317): An ACTIVE context stops drawing and begins its world switch. -/
  | suspend (p : Nat) (c : Nat)
  /-- RESUME (R317): A SUSPENDED context returns saved workgroups to placement. -/
  | resume (p : Nat) (c : Nat)
  /-- TEAR (R316): A context ends all work and discards parked and held accesses. -/
  | tear (p : Nat) (c : Nat)
  /-- PREEMPTION_TIMEOUT (R342): PRETO ticks pass and teams stop at their next clause boundary. -/
  | preemptionTimeout (c : Nat)
  /-- WORKGROUP_SAVE (R343): Once every entity has stopped, engine, landings and sections are saved and resources freed. -/
  | workgroupSave (w : Nat)
  /-- CONTEXT_SAVE_COMPLETE (R316): The world switch ends and the context becomes SUSPENDED. -/
  | contextSaveComplete (c : Nat)
  /-- TEAR_COMPLETE (R316): Nothing of the context remains and it becomes FREE. -/
  | tearComplete (c : Nat)
  /-- HOST_RQREL (R330): A write of RQCMD performs rqrel for the context with RQVA. -/
  | hostRqrel (p : Nat) (c : Nat) (v : BitVec 32)
  /-- TAG_COUNT_WRITE (R337): A write of COUNT starts tagging granules from TAGVA. -/
  | tagCountWrite (p : Nat) (c : Nat) (v : BitVec 32)
  /-- GRANULE_TAG (R337): One granule receives TAG or is skipped; COUNT falls and TAGVA advances. -/
  | granuleTag (c : Nat)
  /-- ATTESTATION_REQUEST (R392): A port's write of a context number starts a signed report. -/
  | attestationRequest (p : Nat) (v : BitVec 32)
  /-- ATTESTATION_COMPLETE (R392): The report is written and status becomes done, refused or exhausted. -/
  | attestationComplete
  /-- STOP (R370): Debug command stops a context's entities on a partition. -/
  | stop (p : Nat) (q : Nat) (v : BitVec 32)
  /-- STOP_SETTLED (R370): The last clause in issue completes and STOPPED is set. -/
  | stopSettled (q : Nat)
  /-- DEBUG_RESUME (R370): Debug command makes every stopped entity eligible and cancels pending halts. -/
  | debugResume (p : Nat) (q : Nat)
  /-- STEP (R373): Debug command issues one clause of the selected stopped entity. -/
  | step (p : Nat) (q : Nat)
  /-- STEPALL (R373): Debug command issues one clause of each issuable stopped entity. -/
  | stepall (p : Nat) (q : Nat)
  /-- DEBUG_EDIT (R374): A DDATA write edits selected state of a stopped entity and sets MOD. -/
  | debugEdit (p : Nat) (q : Nat) (v : BitVec 32)
  /-- DEBUG_REVOKE (R368): A DBG write clearing EN or changing HPORT revokes the debug right. -/
  | debugRevoke (p : Nat) (c : Nat) (v : BitVec 32)
  /-- TRACE_FRAME (R377): At each 2^K tick islands latch figures and a frame enters the ring. -/
  | traceFrame
  /-- HISTOGRAM_REQUEST (R380): A completed engine request tests the trigger and is counted in its bucket. -/
  | histogramRequest (h : Nat) (n : Nat)
  /-- CLR (R379): Clears a histogram's buckets, FIRED and FROZEN. -/
  | clr (p : Nat) (h : Nat)
  /-- HOST_ACCESS (R385): A host agent's access to device memory is translated by its context and performed. -/
  | hostAccess (x : HostAccess)
  /-- CRED_BLOCK (R389): A cred payload block arrives on a chorus link and is rebuilt exactly. -/
  | credBlock (x : CredBlock)
  /-- LINK_KEYING (R393): A link session is keyed by ML-KEM before it carries traffic. -/
  | linkKeying (l : Nat)
  /-- FLIT_AUTH_FAILURE (R393): A flit fails authentication and is retried; three in a row take the link down. -/
  | flitAuthFailure (l : Nat)
  /-- PATROL_SCRUB (R390): Continuous scrub reads and corrects HBM lines. -/
  | patrolScrub (x : ScrubResult)
  /-- RESET (R391): Reset starts the boot ROM, which verifies firmware and extends measurements. -/
  | reset (x : BootInput)
  /-- DESCRIPTOR_PUBLISH (R394): A new service descriptor is published, SEQ rises and KIND 5 is sent. -/
  | descriptorPublish (x : Descriptor)
  /-- DESTINATION_WRITE (R345): A copy slice, mld or mdrain reads or writes a 16-byte granule of its SPAD, CLMEM or global range; its landing entry goes from IDLE to WRITING, or it meets a page it must be held on. -/
  | destinationWrite (x : WriteSite)
  /-- SAVE_BLOCK_TRANSFER (R343): The stream save engine, a restore or the vertical state bus finishes transferring one 4 KiB block of a workgroup's state, releasing landings that wait on that block. -/
  | saveBlockTransfer (w : Nat)
  /-- LINK_LEVEL_RETRY (R385): A flit lost on an Asosh Link port or chorus link is detected and replayed by link-level retry. -/
  | linkLevelRetry (l : Nat)
deriving DecidableEq, Repr

end Sys2Proof
end

