-- ==== Sys2Proof/Config.lean ====
section
/-! DEFINITION. What the spec leaves to the part: free values, which nothing in Lean can evaluate, and the constants of one
package that an implementation fixes. -/

namespace Sys2Proof

/-- The bytes of a MOB record that nothing has written (R246 calls them undefined), by the number of the record's reservation
and the byte's place: a free value (log 9). -/
opaque Config.freeByte : Nat → Nat → Byte

/-- The V operand of an address when it is the constant 0.5, which has no integer reading (R138, R208): a free value (log 16). -/
opaque Config.halfOffset : Word

/-- Which of the results that R177 and R178 allow a special function gives for an input: a free choice, by function number and
input bits (log 8). -/
opaque Config.specialChoice : Nat → Word → Nat

/-- Byte `i` of a 64-byte line written under one key and read under another (R393): AES-256-XTS is named by an outside
standard, so the byte is a free value of both keys, the line and its bytes (log 13). -/
opaque Config.recryptByte : Nat → Nat → Nat → List Byte → Nat → Byte

/-- Byte `i` of the SHAKE256-256 digest of a string (R391, R392), a free value (log 13). -/
opaque Config.shake256 : List Byte → Nat → Byte

/-- Byte `i` of the digest of the public key that is fused in the lead base die (R391), a free value (log 13). -/
opaque Config.fusedDigest : Nat → Byte

/-- Whether a signature of a firmware image verifies under a public key (R391), a free value (log 13). -/
opaque Config.xmssVerify : List Byte → List Byte → List Byte → Bool

/-- Byte `i` of the XMSS signature of a string under an index of the identity key (R392), a free value (log 13). -/
opaque Config.xmssSign : Nat → List Byte → Nat → Byte

/-- The bytes of an XMSS-SHAKE256_20_256 signature in a report (R392), which the outside standard fixes. -/
def Config.signatureBytes : Nat := 2820

/-- How many signatures the identity key has: one an index of a tree of height 20 (R392). -/
def Config.signatureCount : Nat := 1048576

/-- The BUSY and STALL figures of an island over an interval (R377), by the number of the frame: they are of timing alone, which
the model leaves out, so each is a free value (log 25). -/
opaque Config.islandFigure : Nat → Nat → Word

/-- What the sensors and the energy counters give at the sample of a reference tick (R351, R359): a free value, by the tick (log 25). -/
opaque Config.sample : Nat → Sample

/-- The latency of a request of a copy engine or a matrix engine, in cycles of its clock (R379): a free value, by its number (log 25). -/
opaque Config.latency : Nat → Nat

/-- How many events of a code of R382 that depend on timing alone (issue cycles, L2 hits and misses, fabric bytes)
happen for a context in one reference tick, by the tick's free number, the context and the code: a free value (log 26). -/
opaque Config.eventFigure : Nat → Nat → Nat → Nat

/-- The LINK word of a launched record, by depth and parent (R263): a form that software cannot read back, a free value (log 24). -/
opaque Config.linkWord : Nat → Nat → Word

/-- Byte `i` of the public ML-KEM-1024 key that the device generates at a boot, by the number of the signature that it signs it
with (R393), a free value (log 13). -/
opaque Config.kemKey : Nat → Nat → Byte

/-- The bytes of an ML-KEM-1024 public key (R393), which the outside standard fixes. -/
def Config.kemBytes : Nat := 1568

/-- Whether an ACQ of the other port that the outside has next in store falls in the same cycle as one (R314): the order of events is
held, not their cycles, so it is a free value, by its number (log 20). -/
opaque Config.sameCycle : Nat → Bool

/-- The chorus links over which the firmware's routing table reaches a member as it stands after reset (R388): a free value (log 48). -/
opaque Config.route : Nat → BitVec 18

/-- The fuses of an island, FLOOR0 and FSLOPE (R354): each part has its own, so each is a free value (log 12). -/
opaque Config.fuse : Nat → Nat × Nat

/-- The home of an engine's record bytes and every other on-package memory is not addressed; physical memory is HBM first,
16 stacks of 48 GiB (R390), and host memory above it (log 2). -/
def Config.hbmStackBytes : Nat := 51539607552

/-- The first physical address of host memory (log 2). -/
def Config.hostBase : Nat := 16 * Config.hbmStackBytes

end Sys2Proof
end

