-- ==== Sys2Proof/Machine/State.lean ====
section
/-! DEFINITION. The state of the machine as plain data: everything the spec gives it, and the state after reset. -/

namespace Sys2Proof.Machine

/-- Why the machine stops with a fault of the model (never a fault of the spec, which is always a next state). -/
inductive Fault where
  /-- An access at a physical address of 2^48 or above, which no entry can name (R334) and only an untranslated register
  (CTXSAVE, TRBASE, the attestation address) can hold.  Raised by the writers of save records, trace frames and reports.
  Safe: the spec gives such an address no memory. -/
  | noMemory (addr : Nat)
deriving DecidableEq, Repr

/-- Why an instruction is refused. -/
inductive Refusal where
  /-- The instruction has no meaning in this model.  Raised by arms of `exec` alone.  Safe: nothing is proved of it. -/
  | notModelled (mnemonic : String)
deriving DecidableEq, Repr

/-- A vector register (R41): absent without a type, uniform, affine, or a word a lane. -/
inductive VReg where
  | absent
  | uniform (w : Word)
  | affine (base stride : Word)
  | general (ws : List Word)
deriving DecidableEq, Repr

/-- A shape tag (R41); code 0b11 counts as uniform for every shape rule. -/
inductive Tag where
  | u | a | g | x
deriving DecidableEq, Repr

/-- A register named by the scoreboard (R21). -/
inductive Ref where
  | s (n : Nat) | v (n : Nat) | o (n : Nat) | p (n : Nat) | b (n : Nat)
deriving DecidableEq, Repr

/-- The clause classes (R132). -/
inductive Cls where
  | vx | ls | en | cf | mx
deriving DecidableEq, Repr

/-- A loop level that is valid (R50). -/
structure LoopLevel where
  count : Word
  start : Word64
  stop : Word64
deriving DecidableEq, Repr

/-- An occupied deferral slot (R25): the inactive path, the clauses counted while it is innermost, and when it opened. -/
structure Slot where
  mask : BitVec 1024
  pc : Word64
  count : Nat
  opened : Nat
  /-- The inactive path has reached its `rcv` (R25). -/
  arrived : Bool
  /-- The running path is the one that the divergence sent away (R23). -/
  minority : Bool := false
deriving DecidableEq, Repr

/-- What an entity waits for at the word it stands at, or before its next clause (R21, R28); `merge`: a fragment has stopped
at its `rcv` (R24), `exhausted`: an instruction that aborts its workgroup does not take effect (R278), `arriving`: a `wgbar` or a `commit` waits for
its entity's accesses before it arrives (R128), `counters`: a `wait`, `pipe`: the word it waited at has completed and the rest of its clause
waits for its pipe (R20), `room`: an instruction that would raise a counter above 63 (R51), `order`: a release waits for earlier accesses;
`room`, `order`, `fence` and `tinv` wait inside their clause (R28 names the others). -/
inductive Hold where
  | counters | merge | yieldc | barrier | ring | workgroup | gang | rcv | qwait | hlt | engine | slice | replay | exhausted | arriving
  | fence | tinv | record | order | room | pipe
deriving DecidableEq, Repr

/-- The clause an entity has in issue (R20): its words, the index of the next word to execute, the MODE it issued under
(R54), its latches (R47), the `vtos` moves waiting for its last pass (R191), the MODE an `swr` of it leaves, and its grant. -/
structure Issue where
  pc : Word64
  cls : Cls
  words : List Word
  next : Nat
  mode : Word
  modeNew : Option Word
  latches : Tab (List Word)
  vtos : List (BitVec 6 × BitVec 6 × Word)
  /-- The vector registers that the clause turns to tag G, counted against the grant since its issue (R44, R158). -/
  claimed : List Nat
  /-- The word at which the check made at its issue found the grant passed (R44), and the G count before each `gtag` (R183). -/
  xreg : Option Nat := none
  gcounts : Tab Nat := []
  /-- The flags of vector instructions whose last pass has still to come (R18, R54). -/
  flagsLate : Word := 0
deriving DecidableEq, Repr

/-- An entity (R20, R23): a team's own path of control, or a detached fragment of it. -/
structure Entity where
  team : Nat
  parent : Option Nat
  entry : Nat
  token : Nat
  mask : BitVec 1024
  pc : Word64
  /-- The word its clause resumes at, 0 for the header (R58, R328). -/
  word : Nat
  issue : Option Issue
  loops : List LoopLevel
  inherited : Nat
  slots : Tab Slot
  handler : Option Nat
  snap : Option (Nat × Word64)
  hold : Option Hold
  /-- The rendezvous generation this entity arrived in and has not yet passed (R207, R243). -/
  arrived : Option Nat
  /-- Cycles its clause has been issuable without issuing (R22), and when it became issuable (R21). -/
  waits : Nat
  ready : Nat
  stopped : Bool
  haltNext : Bool
  /-- The page on which its clause fetch or its `launch` is parked (R338, R269). -/
  parkedPc : Option Nat
  /-- Accesses not yet performed when its path began or took others in, which happen before everything it does since (R119). -/
  after : List Nat := []
  /-- The word it resumes at comes from a team image, so the wait fields of its clause are not tested again (R58). -/
  admitted : Bool := false
deriving DecidableEq, Repr

/-- A buffer descriptor (R49). -/
structure BufDesc where
  base : Word64
  len : Word
  flags : Word
deriving DecidableEq, Repr

/-- One entry of an outstanding-operation counter's queue (R51, R126): the operation and whether it has completed. -/
structure CntEntry where
  op : Nat
  done : Bool
deriving DecidableEq, Repr

/-- The four outstanding-operation counters (R51). -/
inductive CntKind where
  | ld | st | cp | tl
deriving DecidableEq, Repr

/-- A register pending in the scoreboard (R21) until an operation writes it, with a number that rises from entry to entry (R375). -/
structure Pend where
  op : Nat
  ref : Ref
  made : Nat
deriving DecidableEq, Repr

/-- A fault as its record will name it (R340), with the point a trap handler resumes at (R325). -/
structure FaultInfo where
  cause : Nat
  parked : Bool := false
  defer : Bool := false
  word : Nat
  frag : Nat := 0
  lanes : BitVec 1024
  code : Nat := 0
  pc : Word64
  addr1 : Nat := 0
  addr2 : Nat := 0
  resumePc : Word64
  resume : Nat
deriving DecidableEq, Repr

/-- A team (R13, R39): its register files by number, an unlisted register holding its team-start value. -/
structure Team where
  wg : Nat
  teamId : Nat
  lanes : Nat
  part : Nat
  slot : Nat
  s : Tab Word
  v : Tab VReg
  o : Tab (List Word)
  p : Tab (BitVec 1024)
  b : Tab BufDesc
  mode : Word
  flags : Word
  mshape : BitVec 4
  gang : Option (BitVec 4)
  gangMap : Word
  live : Nat
  deadline : Nat
  retired : Nat
  grant : Nat
  laneSize : Nat
  laneMem : Tab Byte
  cntLd : List CntEntry
  cntSt : List CntEntry
  cntCp : List CntEntry
  cntTl : List CntEntry
  pend : List Pend
  hang : Nat
  cyc : Nat
  keys : Tab Nat
  /-- A deferred fault ends the team at its next clause boundary (R341). -/
  dying : Bool
  /-- The fault of the clause whose retirement passed the deadline (R201). -/
  ydl : Option FaultInfo
  swapped : Bool
  /-- The team has stopped at a `yield` for a pending save (R342). -/
  offered : Bool
  /-- Where the image of a team that is swapped out lies in the save area of its context (R14, R342). -/
  imageAt : Nat := 0
deriving DecidableEq, Repr

/-- Three numbers, one an axis. -/
structure Triple where
  x : Nat
  y : Nat
  z : Nat
deriving DecidableEq, Repr

/-- A launch record read from memory (R263). -/
structure LaunchRec where
  entry : Nat
  param : Nat
  lanes : Nat
  teams : Nat
  axes : Nat
  prio : Nat
  cluster : Bool
  split : Bool
  det : Bool
  grant : Nat
  ord : List Nat
  stmem : Nat
  ext : Triple
  clmem : Nat
  grain : Triple
  smallest : Triple
  spad : Nat
  spadMax : Nat
  lane : Nat
  laneMax : Nat
  allow : Nat
  wbase : Nat
  wstride : Nat
  wbytes : Nat
deriving DecidableEq, Repr

/-- Where a workgroup's state is (R28, R342 to R345); `halting`: a chosen move waits for clauses in issue to complete (R364). -/
inductive Residency where
  | resident
  | halting (layer : Nat)
  | moving (layer : Nat) (blocks : Nat)
  | stopping
  | saving (blocks : Nat)
  | saved
  | restoring (blocks : Nat)
deriving DecidableEq, Repr

/-- One arrival at the workgroup rendezvous (R207, R273): the team, and whether by `commit`. -/
structure RvArrival where
  team : Nat
  commit : Bool
deriving DecidableEq, Repr

/-- A workgroup (R13, R15). -/
structure Workgroup where
  ctx : Nat
  grid : Nat
  wgid : Triple
  lo : Triple
  hi : Triple
  splits : Nat
  cluster : Option Nat
  clusSlot : Nat
  core : Nat
  teams : Nat
  phase : Bool
  words : Nat
  spad : Tab Byte
  spadSize : Nat
  spadRes : List Nat
  arrivals : List RvArrival
  rvGen : Nat
  place : Residency
  /-- Where its save record lies in the save area of its context (R344). -/
  saveAt : Nat
  /-- The grids its teams launched (R269). -/
  kids : List Nat
  aborting : Bool
  /-- The collective copies, by key and ordinal, that have ended with every slice accepted (R226). -/
  ended : List (Nat × Nat) := []
deriving DecidableEq, Repr

/-- A cluster launch (R31, R236). -/
structure Cluster where
  ctx : Nat
  grid : Nat
  cluster : Nat
  clmem : Tab Byte
  size : Nat
  res : List Nat
  wgs : List Nat
deriving DecidableEq, Repr

/-- A half, or a saved or held unit, waiting for placement (R280, R322). -/
structure Piece where
  grid : Nat
  wgid : Triple
  lo : Triple
  hi : Triple
  splits : Nat
deriving DecidableEq, Repr

/-- A unit of placement (R322): workgroups of a grid by linear index, or a half. -/
inductive PlaceUnit where
  | blocks (grid : Nat) (first : Nat) (count : Nat)
  | half (p : Piece)
deriving DecidableEq, Repr

/-- A grid that has started and not retired (R13, R14). -/
structure Grid where
  ctx : Nat
  gridId : Nat
  queue : Nat
  depth : Nat
  rcd : LaunchRec
  parent : Option Nat
  next : Nat
  /-- An entity of it was ended by a fault, and how many grids below it that have retired had one (R270). -/
  faulted : Bool
  below : Nat
  retired : Bool
  stmem : Tab Byte
  stack : Option Nat
deriving DecidableEq, Repr

/-- The memories an access can reach (R91, R87). -/
inductive Space where
  | global | spad | clmem | stmem | lane
deriving DecidableEq, Repr

/-- What an in-flight memory operation does (R213, R217, R223). -/
inductive OpKind where
  | load | store | atomic | flush
deriving DecidableEq, Repr

/-- Where a load or a returning atomic writes (R211, R216, R217). -/
inductive Dest where
  | none
  | vreg (n : Nat)
  | oreg (n : Nat)
  | scalar (n : Nat)
deriving DecidableEq, Repr

/-- One lane of a memory operation: its pointer or offset, the physical address it was translated to (none while its page
has no present mapping), the page's memory type, the bytes it stores or combines, a buffer fill in place of an access
(R97), whether it has been performed, and the level of the leaf that translated it (R336); a load that has been performed keeps in
`data` the bytes it read (R110). -/
structure LaneAcc where
  lane : Nat
  ptr : Nat
  phys : Option Nat
  mtype : Nat
  data : List Byte
  fill : Option (List Byte)
  done : Bool
  level : Nat := 0
deriving DecidableEq, Repr

/-- A load, store, atomic or flush that has issued and not completed (R213, R221, R223).  Its key in the table is its place
in the program order of its entity. -/
structure MemOp where
  ent : Nat
  team : Nat
  kind : OpKind
  space : Space
  size : Nat
  signed : Bool
  uniform : Bool
  dest : Dest
  alu : Option (AtomicOp × ATy)
  acq : Bool
  rel : Bool
  l2 : Bool
  cnt : CntKind
  pc : Word64
  word : Nat
  mask : BitVec 1024
  lanes : List LaneAcc
  /-- Lanes of it failed their checks on release and are done without effect (R105), so its completion raises no flags (R54). -/
  failed : Bool
  /-- The accesses of other entities that happen before it (R119), how its issuer is coded in records (R340), and the flags it
  raises when it completes (R54, R219). -/
  after : List Nat := []
  frag : Nat := 0
  flags : Word := 0
deriving DecidableEq, Repr

/-- An entry of a partition's replay queue (R338): a memory operation's lanes on one page. -/
structure ReplayEntry where
  op : Nat
  ent : Nat
  team : Nat
  part : Nat
  page : Nat
  lanes : List Nat
  bytes : Nat
  released : Bool
  /-- The release carried FAIL (R330). -/
  fail : Bool
deriving DecidableEq, Repr

/-- The copy instructions that move a tile, and the reduction (R224). -/
inductive CopyFn where
  | g2s | g2c | g2t | s2g | c2s | s2c | gg | x2s | gather | cred
deriving DecidableEq, Repr

/-- One slice of a collective copy (R225): its issuer, the granules of it moved so far, the pages it is held on and whether a
release with FAIL has ended its wait (R227, R330), the earlier accesses of its issuer that must be performed before it moves
anything (R125), and the bound and absent type of its rows (R229). -/
structure Slice where
  team : Nat
  ent : Nat
  index : Nat
  moved : Nat
  missing : List Nat
  fail : Bool
  after : List Nat
  bound : Nat
  ftype : Nat
  pc : Word64
  word : Nat
  mask : BitVec 1024
  /-- How its issuer is coded in records (R309, R340), and the bytes that a slice of a `cred` has read. -/
  frag : Nat := 0
  data : List Byte := []
deriving DecidableEq, Repr

/-- A collective copy (R225, R226): its key, its ordinal on the key, what the slices must agree in, the ring slot it claimed
(R206), and whether it was cancelled (R234) or failed (R228).  A `cred` has its group, its element type and its ordinal on the
group, and the reduction it has joined (R232). -/
structure Copy where
  wg : Nat
  key : Nat
  ordinal : Nat
  fn : CopyFn
  /-- The SL field, and the slice count that it gives (R225, R226). -/
  slField : Nat := 0
  sl : Nat
  flags : Nat
  len : Nat
  rows : Nat
  stride : Nat
  src : Nat
  dst : Nat
  obj : Option (Sp × Nat)
  slot : Option Nat
  group : Nat
  ety : Nat
  credOrd : Nat
  cred : Option Nat
  slices : List Slice
  cancelled : Bool
  failed : Bool
deriving DecidableEq, Repr

/-- What one rank of a reduction brings (R232, R233): the descriptor of the context it is, the collective copy, where it is in
this package, or the blocks that have come from its package (R389), and whether it disagrees with the first rank. -/
structure CredRank where
  rank : Nat
  owner : Nat := 0
  copy : Option Nat
  blocks : Tab (List Byte)
  mismatch : Bool
deriving DecidableEq, Repr

/-- A reduction of a group (R232): its rank descriptors, element type, bytes and slice count as the first rank gave them, the
ranks that have arrived, and, once every rank's array has, its result and flags. -/
structure Cred where
  group : Nat
  ordinal : Nat
  ranks : List Nat
  ety : Nat
  bytes : Nat
  sl : Nat
  parts : List CredRank
  result : Option (List Byte × Word) := none
deriving DecidableEq, Repr

/-- A 16-byte sector held in an L1, and which of its bytes are dirty (R2, R89). -/
structure Sector where
  bytes : List Byte
  dirty : BitVec 16
deriving DecidableEq, Repr

/-- A cached leaf translation (R336): the context and root it belongs to, its level, and the entry. -/
structure TlbEntry where
  ctx : Nat
  page : Nat
  level : Nat
  entry : Nat
  addr : Nat
deriving DecidableEq, Repr

/-- A trap slot of a context in use (R325): its index and the entity in it. -/
abbrev TrapSlots := Tab Nat

/-- The states of a context (R316). -/
inductive CtxState where
  | free | active | suspending | suspended | tearing
deriving DecidableEq, Repr

/-- What the grid unit keeps for one queue (R280, R397). -/
structure Queue where
  split : List Piece
  reported : Bool
deriving DecidableEq, Repr

/-- A context's privileged registers (R315, R333, R367, R381) and what the device keeps for it. -/
structure Ctx where
  state : CtxState
  err : Bool
  priv : Bool
  port : Nat
  part : Nat
  share : Nat
  trapEn : Bool
  tmask : Nat
  seed : Word
  qtBase : Word64
  fqBase : Word64
  fqLog : Nat
  fqHead : Word
  fqTail : Word
  fqOvf : Nat
  tvec : Word64
  tslots : Nat
  tarea : Word64
  grpBase : Word64
  ctxSave : Word64
  rqva : Word64
  root0 : Word64
  root1 : Word64
  kslot : Nat
  tag : Nat
  count : Nat
  tagVa : Nat
  traps : Tab Nat
  queues : Tab Queue
  held : Option PlaceUnit
  nextGrid : Nat
  /-- Saved workgroups in the order of their save (R317), and the next free offset of the save area. -/
  savedWgs : List Nat
  saveTop : Nat
  keyId : Nat
  /-- The debug right and the counter session (R367, R381). -/
  dbgEn : Bool
  dbgPort : Nat
  dbgMod : Bool
  cen : Nat
  oie : Nat
  ovf : Nat
  evt : List Nat
  counters : List Nat
  /-- Reference ticks since a pre-emption of the context was requested (R342). -/
  preTicks : Nat
  /-- Reductions issued on each group (R232). -/
  creds : Tab Nat
  /-- Records that `launch` has written and the grid unit has not consumed, by queue and index: the child grid's number, its
  depth and its parent workgroup (R263, R269). -/
  links : Tab (Nat × Nat × Nat)
deriving DecidableEq, Repr

/-- A number as a format holds it: absent, a NaN (signalling or quiet), an infinity, or (−1)^neg · man · 2^exp (R60). -/
inductive Num where
  | absent
  | nan (signalling : Bool)
  | inf (neg : Bool)
  | fin (neg : Bool) (man : Nat) (exp : Int)
deriving DecidableEq, Repr

/-- A reserved MOB record (R237, R244): its format word, its bytes, the number under which its unwritten bytes are free, and
the scales attached to it (R248). -/
structure MobRecord where
  format : Word
  bytes : Tab Byte
  fresh : Nat
  scales : Option (Nat × Nat)
deriving DecidableEq, Repr

/-- An accumulator tile (R237, R81): its type (0 none, 1 INT32, 2 FP32, 3 FP64), the value words by 256·row + column, the
counts, and the row sums; an unlisted one is zero. -/
structure Tile where
  ty : Nat
  vals : Tab Word
  cnts : Tab Nat
  sums : Tab Word
deriving DecidableEq, Repr

/-- One band of a stationary plane (R249, R250): the format word of the record it was loaded from (none: never loaded, every
element absent), and its elements by K·column + k and block scales by 8·column + block, an unlisted one absent. -/
structure Band where
  format : Option Word
  elems : Tab Num
  scales : Tab Num
deriving DecidableEq, Repr

/-- The activation table (R237, R259). -/
structure ActTable where
  ys : List Word
  x0 : Word
  h : Word
deriving DecidableEq, Repr

/-- The engine operations that take an entry (R239). -/
inductive EngineOp where
  | mres (d : Nat) (format : Word)
  | mfree (d : Nat)
  | mld (d : Nat) (src : MldSrc) (base : Nat) (first count : Nat) (bytes : Nat) (strict : Bool)
  | mscl (d s : Nat) (off : Nat)
  | mls (r : Nat) (sums : Option (Nat × Nat))
  | mswap
  | mma (t a : Nat) (first rows : Nat) (mshape : BitVec 4) (rowsum satacc zero : Bool) (prio : Nat)
  | mdrain (t x : Nat) (cmd : Word) (rows : Nat) (off : Nat)
  | mtab (t : Nat)
  | mzero (t : Nat)
  | mfill (t r : Nat)
  | mred (scan : Bool) (t : RedT) (dst : Nat) (vals : List (Nat × Word)) (ent : Nat)
deriving DecidableEq, Repr

/-- A reservation-table entry (R239): the operation, its issuers (entity and team), its class, the rows or units already done,
the bands swapped, the pages an `mld` is held on and whether it ever was, whether its wait ended under FAIL, whether it has
been eligible for the age limit (R240), and the flags it will raise. -/
structure EngineEntry where
  op : EngineOp
  ent : Nat
  teams : List Nat
  wg : Nat
  prio : Nat
  started : Bool
  progress : Nat
  bands : BitVec 4
  missing : List Nat
  held : Bool
  fail : Bool
  aged : Bool
  finished : Bool
  flags : Word
  after : List Nat
  pc : Word64
  word : Nat
  mask : BitVec 1024
  /-- The bytes a drain writes, once computed, by granule. -/
  out : List Byte
  /-- Source address of the lowest reserved byte of a strict load (R247). -/
  reserved : Option Nat
  /-- How its issuer is coded in records (R309, R340). -/
  frag : Nat := 0
deriving DecidableEq, Repr

/-- A rendezvous latch (R243): the reference the first member set, and the entities that have arrived. -/
structure GangLatch where
  ref : List Nat
  members : List Nat
deriving DecidableEq, Repr

/-- The matrix engine of a cluster (R236, R237). -/
structure Engine where
  owner : Option Nat
  recs : Tab MobRecord
  tiles : Tab Tile
  active : List Band
  shadow : List Band
  table : ActTable
  latches : Tab GangLatch
  entries : Tab EngineEntry
  on : BitVec 4
  gate : BitVec 4
deriving DecidableEq, Repr

/-- A column's sample record, budget and throttle (R351, R359, R360). -/
structure Column where
  busy : Nat
  stall : Nat
  seq : Nat
  pwr : Nat
  lost : Nat
  temps : List Nat
  budget : Nat
  sigma : List (Nat × Nat)
  /-- The migrations that have started, newest first (R365): the workgroup, and the tick. -/
  moves : List (Nat × Nat)
  /-- The move that the governor has chosen (R364): the workgroup, and the layer; and whether R29 has deferred it. -/
  chosen : Option (Nat × Nat)
  deferred : Bool
  /-- The issue cycles that the budget has suppressed since the last sample (R360). -/
  suppressed : Nat
deriving DecidableEq, Repr

/-- The states of a domain controller (R353). -/
inductive IslandState where
  | idle | fdown | ramp | settle | fup
deriving DecidableEq, Repr

/-- An island (R353, R354, R357): targets, the running point (the voltage as it was when the change in progress began), that
change, and its caps. -/
structure Island where
  vtgt : Nat
  ftgt : Nat
  vcur : Nat
  fcur : Nat
  state : IslandState
  result : Nat
  pending : Option (Nat × Nat)
  goal : Nat × Nat
  localCap : Nat
  smhbCap : Nat
  emgCap : Nat
  /-- The tick at which its state began. -/
  since : Nat
deriving DecidableEq, Repr

/-- A partition's debug window (R369). -/
structure DebugWindow where
  stopped : Bool
  busy : Bool
  lost : Bool
  err : Bool
  sctx : Nat
  stepn : Nat
  dsel : Nat
  daddr : Word
  dscbi : Nat
  stopTime : Nat
  bcode : Nat
  bent : Nat
  bval : Bool
  /-- A stop has been commanded and its last clause in issue has not completed (R370). -/
  stopping : Bool
  /-- Entities still to be stepped by a STEPALL (R373). -/
  stepping : List Nat
  /-- An entity held at a word, whose step is the word's next try. -/
  retry : Option Nat
deriving DecidableEq, Repr

/-- A latency histogram (R379). -/
structure Histogram where
  bkt : Tab Nat
  pctl : Nat
  act : Nat
  arm : Bool
  fired : Bool
  frozen : Bool
  mincnt : Nat
  flat : Nat
  ftime : Nat
deriving DecidableEq, Repr

/-- The trace stream's registers (R377). -/
structure Trace where
  en : Bool
  k : Nat
  mark : Bool
  trlog : Nat
  base : Word64
  head : Word
  tail : Word
  fdrop : Nat
  mdrop : Nat
  seq : Word
  /-- The tick of the last frame. -/
  last : Nat
deriving DecidableEq, Repr

/-- The configuration semaphore and the drop log (R314, R315). -/
structure Sem where
  held : Bool
  owner : Nat
  epoch : Nat
  lease : Nat
  dropCount : Nat
  dropPort : Nat
  dropReg : Nat
deriving DecidableEq, Repr

/-- The thermal policy and the emergency (R361, R363, R352). -/
structure Policy where
  tmig : Nat
  tthr : Nat
  migDelta : Nat
  migEn : Bool
  migGap : Nat
  smax : Nat
  emg : Bool
  emgSrc : Bool
  emgSeq : Nat
  smhb : Nat
  /-- Reference ticks since SMHB last changed, and whether its cap is in force (R352). -/
  smhbTicks : Nat
  smhbCapped : Bool
  /-- Reference ticks for which every sensor has read below TEMG − 80 (R363). -/
  coolTicks : Nat
  /-- The next sequence number of a notice this package originates. -/
  nextSeq : Nat
  /-- The tick of the last sample (R351). -/
  lastSample : Nat
deriving DecidableEq, Repr

/-- A chorus link or an Asosh port (R385, R388, R393). -/
structure Link where
  trained : Bool
  keyed : Bool
  failures : Nat
  retries : Nat
  /-- Notices sent on it, oldest first. -/
  sent : List Notice
deriving DecidableEq, Repr

/-- The service descriptor (R394). -/
structure Service where
  svc : Nat
  boot : Nat
  seq : Nat
  stk : Nat
  lyr : Nat
  fmax : Nat
  fmt : Nat
  hbm : Nat
  half : Bool
  fwver : Word
deriving DecidableEq, Repr

/-- The root of trust (R391, R392): measurement registers, the identity key's index, and the report in progress. -/
structure Trust where
  measures : List Nat
  nonce : List Word
  index : Nat
  reqCtx : Nat
  addr : Word64
  status : Nat
  busy : Bool
  /-- The boot ROM's verdict, visible at the next publication (R394). -/
  verdict : Nat
  /-- The public ML-KEM key of this boot and its signature by the identity key (R393). -/
  kemKey : List Byte
  kemSig : List Byte
deriving DecidableEq, Repr

/-- What the package sends over an Asosh Link port (R385): an interrupt message to one of the two, a byte for host memory, or bytes at a
pointer of a context whose walk lies in host memory (R335). -/
inductive Outgoing where
  | irq (port : Nat) (word : Word)
  | byte (phys : Nat) (b : Byte)
  | put (stack ctx ptr : Nat) (bytes : List Byte)
deriving DecidableEq, Repr

/-- The state of the package. -/
structure State where
  /-- Physical memory, by address; an unlisted byte reads as `Memory.blank`. -/
  mem : List Host.Cell
  tags : Tab Nat
  poison : Tab (BitVec 64)
  lineKey : Tab Nat
  l1 : Tab (Tab Sector)
  tlb : Tab (List TlbEntry)
  ents : Tab Entity
  teams : Tab Team
  wgs : Tab Workgroup
  clusters : Tab Cluster
  grids : Tab Grid
  ops : Tab MemOp
  replay : Tab ReplayEntry
  copies : Tab Copy
  creds : Tab Cred
  engines : Tab Engine
  ctxs : Tab Ctx
  parts : Tab Nat
  sem : Sem
  evPend : Word64
  evMask : Word64
  preTo : Word
  hangLim : Nat
  rrCtx : Tab (Nat × Nat)
  cols : Tab Column
  policy : Policy
  islands : Tab Island
  debug : Tab DebugWindow
  hists : Tab Histogram
  trace : Trace
  member : Nat
  /-- The firmware's routing table (R388): for each member, the chorus links over which it is reached. -/
  routes : List (BitVec 18)
  linkEn : BitVec 18
  links : Tab Link
  ports : Tab Link
  notices : Tab Nat
  /-- `cred` payload blocks sent, with the member each went to (R388, R389). -/
  sentBlocks : List (Nat × CredBlock)
  service : Service
  trust : Trust
  irqs : List (Nat × Word)
  /-- What waits for a port that carries traffic (R385, R393), oldest first. -/
  outbox : List Outgoing
  /-- The engine operations that have completed since the last sample, with the columns of the teams that issued them (R359). -/
  charged : Tab (List Nat)
  /-- What reads and atomics of host agents have returned, with the port of each (R385). -/
  responses : List (Nat × List Byte)
  /-- Correctable memory errors counted on the call board (R390). -/
  corrected : Nat
  time : Word64
  cur : Nat
  agenda : List Instr
  turn : Nat
  nextId : Nat
  free : Nat
deriving DecidableEq, Repr

/-- A context's registers at reset (R315, R333, R367, R381). -/
def Ctx.reset : Ctx :=
  { state := .free, err := false, priv := false, port := 0, part := 0, share := 1, trapEn := false, tmask := 0, seed := 1,
    qtBase := 0, fqBase := 0, fqLog := 0, fqHead := 0, fqTail := 0, fqOvf := 0, tvec := 0, tslots := 0, tarea := 0,
    grpBase := 0, ctxSave := 0, rqva := 0, root0 := 0, root1 := 0, kslot := 0, tag := 0, count := 0, tagVa := 0,
    traps := [], queues := [], held := none, nextGrid := 1, savedWgs := [], saveTop := 0, keyId := 0, dbgEn := false,
    dbgPort := 0, dbgMod := false, cen := 0, oie := 0, ovf := 0, evt := [0, 0, 0, 0], counters := [0, 0, 0, 0],
    preTicks := 0, creds := [], links := [] }

/-- A column's words at reset (R351, R359). -/
def Column.reset : Column :=
  { busy := 0, stall := 0, seq := 0, pwr := 0, lost := 0, temps := [0, 0, 0, 0], budget := 188, sigma := [(0, 1), (0, 1), (0, 1), (0, 1)],
    moves := [], chosen := none, deferred := false, suppressed := 0 }

/-- An island at reset (R353): VTGT 30, FTGT 10, VCUR 30, FCUR 10 are a DESIGN CHOICE (log 12). -/
def Island.reset : Island :=
  { vtgt := 30, ftgt := 10, vcur := 30, fcur := 10, state := .idle, result := 0, pending := none, goal := (30, 10),
    localCap := 38, smhbCap := 38, emgCap := 38, since := 0 }

/-- A debug window at reset (R369). -/
def DebugWindow.reset : DebugWindow :=
  { stopped := false, busy := false, lost := false, err := false, sctx := 0, stepn := 0, dsel := 0, daddr := 0, dscbi := 0,
    stopTime := 0, bcode := 0, bent := 0, bval := false, stopping := false, stepping := [], retry := none }

/-- A histogram at reset (R379). -/
def Histogram.reset : Histogram :=
  { bkt := [], pctl := 243, act := 0, arm := false, fired := false, frozen := false, mincnt := 0, flat := 0, ftime := 0 }

/-- A link at reset: untrained and without a key (R388, R393). -/
def Link.reset : Link := { trained := false, keyed := false, failures := 0, retries := 0, sent := [] }

/-- An empty queue of the grid unit (R280). -/
def Queue.reset : Queue := { split := [], reported := false }

/-- A band that holds nothing: every element absent (R237). -/
def Band.blank : Band := { format := none, elems := [], scales := [] }

/-- The identity activation table (R259): point i is the binary32 value of i − 64, from −64 to 64. -/
def ActTable.identity : ActTable :=
  { ys := (List.range 129).map fun i =>
      let d := if i < 64 then 64 - i else i - 64
      if d = 0 then 0
      else .ofNat 32 ((if i < 64 then 2147483648 else 0) + (127 + Nat.log2 d) * 8388608 +
        (d * 2 ^ (23 - Nat.log2 d) - 8388608))
    x0 := 0xC2800000
    h := 0x3F800000 }

/-- A tile of +0 values, counts 0 and type none (R237). -/
def Tile.blank : Tile := { ty := 0, vals := [], cnts := [], sums := [] }

/-- An engine without an owner (R237): its state as a cluster launch will find it, every rail on (R358). -/
def Engine.reset : Engine :=
  { owner := none, recs := [], tiles := [], active := [.blank, .blank, .blank, .blank],
    shadow := [.blank, .blank, .blank, .blank], table := .identity, latches := [], entries := [], on := 15, gate := 0 }

/-- The machine right after reset: every field at the value the spec states; where it states none, at the value the log
names (logs 1, 2, 3, 6, 9, 10, 11, 12, 13, 20, 48). -/
def State.reset : State :=
  { mem := [], tags := [], poison := [], lineKey := [], l1 := [], tlb := [], ents := [], teams := [], wgs := [], clusters := [], grids := [],
    ops := [], replay := [], copies := [], creds := [], engines := [], ctxs := [], parts := [],
    sem := { held := false, owner := 0, epoch := 0, lease := 0, dropCount := 0, dropPort := 0, dropReg := 0 },
    evPend := 0, evMask := 0, preTo := 100000, hangLim := 1024, rrCtx := [], cols := [],
    policy := { tmig := 920, tthr := 1000, migDelta := 80, migEn := true, migGap := 10000, smax := 7, emg := false,
                emgSrc := false, emgSeq := 0, smhb := 0, smhbTicks := 0, smhbCapped := false, coolTicks := 0, nextSeq := 0,
                lastSample := 0 },
    islands := [], debug := [], hists := [],
    trace := { en := false, k := 10, mark := false, trlog := 0, base := 0, head := 0, tail := 0, fdrop := 0, mdrop := 0,
               seq := 0, last := 0 },
    member := 0, routes := (List.range 256).map Config.route, linkEn := 0, links := [], ports := [], notices := [], sentBlocks := [],
    service := { svc := 0, boot := 0, seq := 0, stk := 0, lyr := 0, fmax := 0, fmt := 0, hbm := 0, half := false,
                 fwver := 0 },
    trust := { measures := [0, 0, 0, 0, 0, 0, 0, 0], nonce := [0, 0, 0, 0, 0, 0, 0, 0], index := 0, reqCtx := 0, addr := 0,
               status := 0, busy := false, verdict := 0, kemKey := [], kemSig := [] },
    irqs := [], outbox := [], charged := [], responses := [], corrected := 0, time := 0, cur := 0, agenda := [], turn := 0, nextId := 1, free := 0 }

end Sys2Proof.Machine
end

