-- ==== Sys2Proof/Machine/Memory.lean ====
section
/-! DEFINITION. Bytes of memory: the canonical form, physical memory with its keys and poison, and the L1s (R89, R390, R393). -/

namespace Sys2Proof.Machine

/-- What a byte of memory that nothing has written reads as (log 1). -/
def Memory.blank : Byte := 0

/-- The byte at an address. -/
def Memory.read (m : List Host.Cell) (a : Nat) : Byte := (tabGet m a).getD Memory.blank

/-- The memory with one byte written, in canonical form. -/
def Memory.write (m : List Host.Cell) (a : Nat) (b : Byte) : List Host.Cell :=
  if b = Memory.blank then tabDel m a else tabPut m a b

/-- The canonical form: addresses strictly rising, and no entry equal to what an unlisted address reads as. -/
abbrev Memory.wf (m : List Host.Cell) : Bool := tabSorted 0 m && m.all fun c => c.2 != Memory.blank

/-- `n` bytes from an address on. -/
def Memory.readN (m : List Host.Cell) (a n : Nat) : List Byte := (List.range n).map fun i => Memory.read m (a + i)

/-- The memory with bytes written from an address on. -/
def Memory.writeN (m : List Host.Cell) (a : Nat) : List Byte → List Host.Cell
  | [] => m
  | b :: bs => Memory.writeN (Memory.write m a b) (a + 1) bs

/-- A little-endian number (R4). -/
def leNat : List Byte → Nat
  | [] => 0
  | b :: bs => b.toNat + 256 * leNat bs

/-- The `n` low bytes of a number, little-endian (R4). -/
def leBytes : Nat → Nat → List Byte
  | 0, _ => []
  | n + 1, x => BitVec.ofNat 8 x :: leBytes n (x / 256)

/-- Every byte of `addr` on for `len` bytes, as a list of addresses. -/
def addrRange (addr len : Nat) : List Nat := (List.range len).map (addr + ·)

/-- Bit `i` of a number. -/
def bitOf (x i : Nat) : Bool := x / 2 ^ i % 2 == 1

/-- Bits `hi` to `lo` of a number. -/
def bitsOf (x hi lo : Nat) : Nat := x / 2 ^ lo % 2 ^ (hi - lo + 1)

/-- A physical address as accesses carry it: the address in bits [47:0] and above them the key its bytes are under (R393), 0
for plaintext. -/
def physOf (pa key : Nat) : Nat := pa + key * 281474976710656

/-- The address of a physical address with a key. -/
def physAddr (x : Nat) : Nat := x % 281474976710656

/-- The key of a physical address with a key. -/
def physKey (x : Nat) : Nat := x / 281474976710656

/-- The bytes of a 64-byte line as a key reads them (R393). -/
def State.lineUnder (s : State) (line key : Nat) : List Byte :=
  let bytes := Memory.readN s.mem (64 * line) 64
  let k := (tabGet s.lineKey line).getD 0
  if k = key then bytes else (List.range 64).map (Config.recryptByte k key line bytes)

/-- One byte of physical memory as a key reads it. -/
def State.loadByte (s : State) (x : Nat) : Byte :=
  let a := physAddr x
  if (tabGet s.lineKey (a / 64)).getD 0 = physKey x then Memory.read s.mem a
  else (s.lineUnder (a / 64) (physKey x)).getD (a % 64) Memory.blank

/-- The memory with a line under a key: a line under another key turns into what that key reads there. -/
def State.rekey (s : State) (line key : Nat) : State :=
  if (tabGet s.lineKey line).getD 0 = key then s
  else { s with mem := Memory.writeN s.mem (64 * line) (s.lineUnder line key)
                lineKey := if key = 0 then tabDel s.lineKey line else tabPut s.lineKey line key }

/-- The poison of a line with one more of its bytes overwritten; none left clears it (R390). -/
def unpoison (t : Tab (BitVec 64)) (a : Nat) : Tab (BitVec 64) :=
  match tabGet t (a / 64) with
  | none => t
  | some m =>
    let m' := m &&& ~~~(1#64 <<< (a % 64))
    if m' = 0 then tabDel t (a / 64) else tabPut t (a / 64) m'

/-- Whether an address lies in HBM, not in host memory (R94, R390). -/
def inHbm (pa : Nat) : Bool := decide (pa < Config.hostBase)

/-- Whether an Asosh Link port carries traffic (R393): it is trained and keyed. -/
def State.portUp (s : State) (p : Nat) : Bool :=
  match tabGet s.ports p with
  | some l => decide (p < 2) && l.trained && l.keyed
  | none => false

/-- Whether no port carries the package's traffic to the host (R385). -/
def State.hostless (s : State) : Bool := !s.portUp 0 && !s.portUp 1

/-- Whether an access can reach a byte: the package reaches host memory only through a port (R385). -/
def State.reaches (s : State) (phys : Nat) : Bool := inHbm (physAddr phys) || !s.hostless

/-- The state with one byte of physical memory written. -/
def State.writeByte (s : State) (x : Nat) (b : Byte) : State :=
  let s := s.rekey (physAddr x / 64) (physKey x)
  { s with mem := Memory.write s.mem (physAddr x) b, poison := unpoison s.poison (physAddr x) }

/-- A byte stored in physical memory: one for host memory waits while no port carries it (R385). -/
def State.storeByte (s : State) (x : Nat) (b : Byte) : State :=
  if s.reaches x then s.writeByte x b else { s with outbox := s.outbox ++ [.byte x b] }

/-- Bytes of physical memory. -/
def State.loadBytes (s : State) (x n : Nat) : List Byte := (List.range n).map fun i => s.loadByte (x + i)

/-- The state with bytes of physical memory written. -/
def State.storeBytes (s : State) (x : Nat) : List Byte → State
  | [] => s
  | b :: bs => (s.storeByte x b).storeBytes (x + 1) bs

/-- Whether a physical range touches a poisoned line, and the line's address (R390). -/
def State.poisoned (s : State) (pa n : Nat) : Option Nat :=
  ((addrRange pa n).find? fun a => (tabGet s.poison (a / 64)).isSome).map fun a => a / 64 * 64

/-- The L1 of a column (R89). -/
def State.l1Of (s : State) (col : Nat) : Tab Sector := (tabGet s.l1 col).getD []

/-- The state with a column's L1 replaced. -/
def State.setL1 (s : State) (col : Nat) (t : Tab Sector) : State :=
  { s with l1 := if t.isEmpty then tabDel s.l1 col else tabPut s.l1 col t }

/-- Write back the dirty bytes of a sector at an address on, and of every sector of a list (R89). -/
def State.writeDirty (s : State) (x : Nat) (dirty : BitVec 16) : List Byte → Nat → State
  | [], _ => s
  | b :: bs, i => (if dirty.getLsbD i then s.storeByte (x + i) b else s).writeDirty x dirty bs (i + 1)
def State.writeBack (s : State) : Tab Sector → State
  | [] => s
  | (k, c) :: t => (s.writeDirty (16 * k) c.dirty c.bytes 0).writeBack t

/-- Write back and drop the sectors of a column's L1 that a test names. -/
def State.l1Drop (s : State) (col : Nat) (hit : Nat → Bool) : State :=
  let t := s.l1Of col
  (s.writeBack (t.filter fun c => hit c.1)).setL1 col (t.filter fun c => !hit c.1)

/-- The lines of 64 bytes that sectors of rising keys lie in (R2). -/
def linesOf : Tab Sector → List Nat
  | [] => []
  | [c] => [c.1 / 4]
  | c :: d :: t => if c.1 / 4 = d.1 / 4 then linesOf (d :: t) else c.1 / 4 :: linesOf (d :: t)

/-- The lines of a 1 MiB L1 (R2). -/
def l1Lines : Nat := 16384

/-- Room in a column's L1 for a sector (R2): a full one gives up its lowest other line (log 10). -/
def State.l1Room (s : State) (col sec : Nat) : State :=
  let ls := linesOf (s.l1Of col)
  if ls.contains (sec / 4) || decide (ls.length < l1Lines) then s
  else s.l1Drop col fun k => k / 4 == ls.headD 0

/-- The state with a sector in a column's L1, clean as memory holds it where it was not there (R89). -/
def State.l1Fill (s : State) (col sec : Nat) : State :=
  match tabGet (s.l1Of col) sec with
  | some _ => s
  | none =>
    let s := s.l1Room col sec
    s.setL1 col (tabPut (s.l1Of col) sec { bytes := s.loadBytes (16 * sec) 16, dirty := 0 })

/-- A load's byte through an L1 (R89): the sector's, or memory's; `alloc` keeps the whole sector, so that a load of up to 16
aligned bytes never mixes two states of memory (R109). -/
def State.cacheLoad (s : State) (col : Nat) (alloc : Bool) (x : Nat) : Byte × State :=
  match tabGet (s.l1Of col) (x / 16) with
  | some c => (c.bytes.getD (x % 16) Memory.blank, s)
  | none => (s.loadByte x, if alloc then s.l1Fill col (x / 16) else s)

/-- A NORMAL store's byte (R89): held dirty in the L1, or written through to memory where the policy does not allocate. -/
def State.cacheStore (s : State) (col : Nat) (alloc : Bool) (x : Nat) (b : Byte) : State :=
  let s := if alloc then s.l1Fill col (x / 16) else s.storeByte x b
  match tabGet (s.l1Of col) (x / 16) with
  | some c =>
    let bit : BitVec 16 := 1#16 <<< (x % 16)
    s.setL1 col (tabPut (s.l1Of col) (x / 16)
      { bytes := c.bytes.set (x % 16) b, dirty := if alloc then c.dirty ||| bit else c.dirty &&& ~~~bit })
  | none => s

/-- The L1 actions of a fence at `.clu` or wider (R89): dirty bytes are written back and every line is dropped. -/
def State.l1Sync (s : State) (col : Nat) : State := (s.writeBack (s.l1Of col)).setL1 col []

/-- Write back and drop, in every L1 named, the sectors that hold a byte at an address a test names (R223, R221). -/
def State.l1Evict (s : State) (cols : List Nat) (hit : Nat → Bool) : State :=
  cols.foldl (fun s col => s.l1Drop col fun k => (List.range 16).any fun i => hit (physAddr (16 * k + i))) s

/-- Every L1 that holds anything. -/
def State.l1Cols (s : State) : List Nat := s.l1.map (·.1)

end Sys2Proof.Machine
end

