-- ==== Sys2Proof/Machine/Translate.lean ====
section
/-! DEFINITION. Translation: page tables, leaf checks, tags, TLBs (R87, R94, R98, R333 to R336, R395). -/

namespace Sys2Proof.Machine

/-- The fault codes (R341). -/
def cILLOP : Nat := 0x01
def cILLCL : Nat := 0x02
def cILLPV : Nat := 0x03
def cPGNP : Nat := 0x10
def cPGPR : Nat := 0x11
def cPGXN : Nat := 0x12
def cTAGF : Nat := 0x13
def cBNDF : Nat := 0x14
def cALGN : Nat := 0x15
def cSPBND : Nat := 0x16
def cBAROV : Nat := 0x17
def cWINV : Nat := 0x18
def cXREG : Nat := 0x20
def cXSPAD : Nat := 0x21
def cXLANE : Nat := 0x22
def cXALW : Nat := 0x23
def cSGF : Nat := 0x24
def cXAC : Nat := 0x25
def cYDL : Nat := 0x30
def cHANG : Nat := 0x31
def cGMIS : Nat := 0x32
def cLDEPTH : Nat := 0x33
def cFMTF : Nat := 0x34
def cNDET : Nat := 0x35
def cTRAP : Nat := 0x40
def cBRK : Nat := 0x41

/-- What an access does to the page (R98). -/
inductive AccKind where
  | load | store | atomic | fetch | copyRead | copyWrite
deriving DecidableEq, Repr

/-- Whether an access kind needs R, or W (R98). -/
def AccKind.reads : AccKind → Bool
  | .store | .copyWrite => false
  | _ => true
def AccKind.writes : AccKind → Bool
  | .store | .copyWrite | .atomic => true
  | _ => false

/-- What a walk finds (R335): a leaf with its level and the address of its entry, nothing, or a malformed entry. -/
inductive Walk where
  | absent
  | malformed (entryAddr : Nat)
  | leaf (entry lvl entryAddr : Nat)
deriving DecidableEq, Repr

/-- What the translation of one access gives (R335): a physical address with its key and the page's memory type, no present
mapping, or a fault with the addresses its record names. -/
inductive Xlat where
  | ok (phys mtype : Nat)
  | absent
  | fault (cause addr1 addr2 : Nat)
deriving DecidableEq, Repr

/-- The key slot field of an entry (R334). -/
def pteKey (e : Nat) : Nat := bitsOf e 63 52

/-- Whether an entry at a level is malformed (R334). -/
def pteMalformed (e lvl : Nat) : Bool :=
  bitsOf e 51 48 != 0 || bitsOf e 12 10 != 0 ||
  (if bitOf e 1 then
     lvl == 3 || bitsOf e 15 13 != 0 || bitsOf e 47 16 % 2 ^ (10 * lvl) != 0
   else
     lvl == 0 || bitsOf e 9 2 != 0 || bitsOf e 63 52 != 0)

/-- The table address in a root or table entry (R333, R334). -/
def tableAddr (e : Nat) : Nat := bitsOf e 47 13 * 8192

/-- The eight bytes of an entry, read coherently in physical memory (R335). -/
def State.pteAt (s : State) (a : Nat) : Nat := leNat (s.loadBytes a 8)

/-- The rest of a walk from a table address, at the level whose entries it holds (R335).  An entry in a line with an uncorrectable error is
reported as a malformed one is, by the line's address with bit 63 set (R390). -/
def State.walkFrom (s : State) (va : Nat) : Nat → Nat → Walk
  | 0, _ => .absent
  | lvl + 1, table =>
    let a := table + 8 * bitsOf va (10 * lvl + 25) (10 * lvl + 16)
    let e := s.pteAt a
    match s.poisoned a 8 with
    | some l => .malformed (l + 2 ^ 63)
    | none =>
    if !bitOf e 0 then .absent
    else if pteMalformed e lvl then .malformed a
    else if bitOf e 1 then .leaf e lvl a
    else s.walkFrom va lvl (tableAddr e)

/-- A context's registers. -/
def State.ctx (s : State) (c : Nat) : Ctx := (tabGet s.ctxs c).getD Ctx.reset

/-- The state with a context's registers written. -/
def State.setCtx (s : State) (c : Nat) (x : Ctx) : State := { s with ctxs := tabPut s.ctxs c x }

/-- The state with a context's registers changed. -/
def State.modCtx (s : State) (c : Nat) (f : Ctx → Ctx) : State := s.setCtx c (f (s.ctx c))

/-- A fresh walk of an address for a context (R335). -/
def State.walk (s : State) (c va : Nat) : Walk :=
  let root := (if bitOf va 56 then (s.ctx c).root1 else (s.ctx c).root0).toNat
  if bitOf root 0 then s.walkFrom va 4 (tableAddr root) else .absent

/-- The cached leaf of a stack for an address (R336), if any. -/
def State.tlbFind (s : State) (stack c va : Nat) : Option TlbEntry :=
  ((tabGet s.tlb stack).getD []).find? fun e => e.ctx = c && e.page / 2 ^ (10 * e.level) = va / 65536 / 2 ^ (10 * e.level)

/-- The leaf an access uses (R335, R336): the TLB's, unless it must still be marked written, or a fresh walk's. -/
def State.leafFor (s : State) (stack c : Nat) (k : AccKind) (va : Nat) : Walk :=
  match s.tlbFind stack c va with
  | some e => if k.writes && !bitOf e.entry 9 then s.walk c va else .leaf e.entry e.level e.addr
  | none => s.walk c va

/-- The physical address of an address in a leaf's page (R334). -/
def leafPa (e lvl va : Nat) : Nat := bitsOf e 47 16 * 65536 + va % (65536 * 2 ^ (10 * lvl))

/-- Whether a physical address lies in memory that is in service (R395): host memory, or an HBM stack of the descriptor. -/
def State.inService (s : State) (pa : Nat) : Bool := !inHbm pa || bitOf s.service.hbm (pa / Config.hbmStackBytes)

/-- The tag of a granule of HBM (R94). -/
def State.tagOf (s : State) (pa : Nat) : Nat := (tabGet s.tags (pa / 16)).getD 0

/-- The checks of a leaf for an access of `n` bytes (R335, R98, R94, R99, R390, R395); `none` where it passes.  A clause fetch
carries no tag and is never tag-checked. -/
def State.leafCheck (s : State) (c : Nat) (k : AccKind) (ptr n e pa : Nat) : Option (Nat × Nat × Nat) :=
  let mt := bitsOf e 7 6
  let tag := bitsOf ptr 63 60
  if k = .fetch && !bitOf e 2 then some (cPGPR, ptr, 0)
  else if k = .fetch && bitOf e 4 then some (cPGXN, ptr, 0)
  else if k.reads && !bitOf e 2 || k.writes && !bitOf e 3 then some (cPGPR, ptr, 0)
  else if bitOf e 5 && !inHbm pa then some (cPGPR, ptr, 0)
  else if pteKey e ≠ 0 && (pteKey e ≠ (s.ctx c).kslot || !inHbm pa) then some (cPGPR, ptr, 0)
  else if k = .atomic && (mt = 1 || mt = 2) then some (cPGPR, ptr, 0)
  else if !s.inService pa then some (cPGPR, ptr, 0)
  else match (if k.reads then s.poisoned pa n else none) with
    | some l => some (cPGPR, ptr, l + 2 ^ 63)
    | none =>
      if k = .fetch then none
      else if bitOf e 5 then (if tag ≠ 0 && tag = s.tagOf pa then none else some (cTAGF, ptr, 0))
      else if tag = 0 then none else some (cTAGF, ptr, 0)

/-- The key number under which a page's bytes lie (R393): the key pair of the context where the entry names its slot. -/
def State.keyNumber (s : State) (c e : Nat) : Nat := if pteKey e = 0 then 0 else (s.ctx c).keyId

/-- The translation of an access of `n` bytes at a pointer of a context, made on a stack (R87, R335). -/
def State.xlate (s : State) (stack c : Nat) (k : AccKind) (ptr n : Nat) : Xlat :=
  if bitsOf ptr 59 57 ≠ 0 then .fault cPGPR ptr 0
  else
    let va := ptr % 2 ^ 57
    match s.leafFor stack c k va with
    | .absent => .absent
    | .malformed a => .fault cPGPR ptr a
    | .leaf e lvl _ =>
      let pa := leafPa e lvl va
      match s.leafCheck c k ptr n e pa with
      | some (x, a1, a2) => .fault x a1 a2
      | none => .ok (physOf pa (s.keyNumber c e)) (bitsOf e 7 6)

/-- The level of the leaf that translates an address (R336); 0 where none does. -/
def State.leafLevel (s : State) (stack c ptr : Nat) : Nat :=
  match s.leafFor stack c .load (ptr % 2 ^ 57) with
  | .leaf _ lvl _ => lvl
  | _ => 0

/-- Whether the rest of a walk reads an entry in host memory. -/
def State.walkHost (s : State) (va : Nat) : Nat → Nat → Bool
  | 0, _ => false
  | lvl + 1, table =>
    let a := table + 8 * bitsOf va (10 * lvl + 25) (10 * lvl + 16)
    let e := s.pteAt a
    !inHbm a || (bitOf e 0 && !pteMalformed e lvl && !bitOf e 1 && s.walkHost va lvl (tableAddr e))

/-- Whether the translation of an access must wait: its walk reads host memory, and no port carries it (R335, R385). -/
def State.walkWaits (s : State) (stack c : Nat) (k : AccKind) (ptr : Nat) : Bool :=
  let va := ptr % 2 ^ 57
  let root := (if bitOf va 56 then (s.ctx c).root1 else (s.ctx c).root0).toNat
  s.hostless && bitOf root 0 && s.walkHost va 4 (tableAddr root) &&
    (match s.tlbFind stack c va with
     | some e => k.writes && !bitOf e.entry 9
     | none => true)

/-- Whether an access must wait for a port: its walk does, or what it reads or writes is host memory. -/
def State.accessWaits (s : State) (stack c : Nat) (k : AccKind) (ptr n : Nat) : Bool :=
  s.walkWaits stack c k ptr || (match s.xlate stack c k ptr n with
    | .ok phys _ => !s.reaches phys
    | _ => false)

/-- The entries of a stack's TLB (R2). -/
def tlbEntries : Nat := 32768

/-- What a translation leaves behind (R335, R336): the entry marked accessed, and written by a write, and cached; a full TLB
gives up its oldest entry (R2, log 11). -/
def State.touch (s : State) (stack c : Nat) (k : AccKind) (ptr : Nat) : State :=
  let va := ptr % 2 ^ 57
  match s.tlbFind stack c va, k.writes with
  | some _, false => s
  | _, _ =>
    match s.leafFor stack c k va with
    | .leaf e lvl a =>
      let e1 := if bitOf e 8 then e else e + 256
      let e2 := if k.writes && !bitOf e1 9 then e1 + 512 else e1
      let s := if e2 = e then s else s.storeBytes a (leBytes 8 e2)
      let old := ((tabGet s.tlb stack).getD []).filter fun t =>
        !(t.ctx == c && t.page / 2 ^ (10 * t.level) == va / 65536 / 2 ^ (10 * t.level))
      let all := { ctx := c, page := va / 65536, level := lvl, entry := e2, addr := a } :: old
      { s with tlb := tabPut s.tlb stack (all.take tlbEntries) }
    | _ => s

/-- The state with every cached translation of a page of a context, or of the whole context, removed (R330). -/
def State.tlbDrop (s : State) (c page : Nat) (all : Bool) : State :=
  { s with tlb := s.tlb.map fun st => (st.1, st.2.filter fun e =>
      !(e.ctx == c && (all || e.page / 2 ^ (10 * e.level) == page / 2 ^ (10 * e.level)))) }

end Sys2Proof.Machine
end

