-- ==== Sys2Proof/Machine/Ops.lean ====
section
/-! DEFINITION. The shared operations: reading and writing registers, the current entity, the end of a word and of a clause,
counters, and the delivery of faults: trap entry, the fault queue, and the end of an entity or a team. -/

namespace Sys2Proof.Machine

/-! ### Lane masks -/

/-- The mask of lanes 0 to `n` − 1. -/
def fullMask (n : Nat) : BitVec 1024 := BitVec.ofNat 1024 (2 ^ n - 1)

/-- The lanes of a mask below a bound, ascending. -/
def lanesOf (m : BitVec 1024) (n : Nat) : List Nat := (List.range n).filter fun l => m.getLsbD l

/-- The mask of a list of lanes. -/
def maskOf (ls : List Nat) : BitVec 1024 := ls.foldl (fun m l => m ||| (1#1024 <<< l)) 0

/-- Mask word Ww (R17). -/
def maskWord (m : BitVec 1024) (w : Nat) : Nat := m.toNat / 2 ^ (32 * w) % 4294967296

/-- The summary word S (R17). -/
def summary (m : BitVec 1024) : Nat :=
  (List.range 32).foldl (fun a w => if maskWord m w = 0 then a else a + 2 ^ w) 0

/-- How many lanes a mask holds. -/
def popCount (m : BitVec 1024) : Nat := (lanesOf m 1024).length

/-! ### Where things are (R3, R13, R349) -/

/-- The stack, column, layer and cluster engine of a core. -/
def coreStack (g : Nat) : Nat := g / 128
def coreColumn (g : Nat) : Nat := g / 128 * 32 + g % 32
def coreLayer (g : Nat) : Nat := g / 32 % 4
def coreEngine (g : Nat) : Nat := g / 4

/-- The core at the same position on another layer of its column. -/
def coreOnLayer (g layer : Nat) : Nat := g / 128 * 128 + layer * 32 + g % 32

/-! ### Updates by number -/

/-- A table with one entry changed where it exists. -/
def tabMod {α : Type} (t : Tab α) (k : Nat) (f : α → α) : Tab α :=
  match tabGet t k with
  | some x => tabPut t k (f x)
  | none => t

def State.modEnt (s : State) (k : Nat) (f : Entity → Entity) : State := { s with ents := tabMod s.ents k f }
def State.modTeam (s : State) (k : Nat) (f : Team → Team) : State := { s with teams := tabMod s.teams k f }
def State.modWg (s : State) (k : Nat) (f : Workgroup → Workgroup) : State := { s with wgs := tabMod s.wgs k f }
def State.modCluster (s : State) (k : Nat) (f : Cluster → Cluster) : State := { s with clusters := tabMod s.clusters k f }
def State.modGrid (s : State) (k : Nat) (f : Grid → Grid) : State := { s with grids := tabMod s.grids k f }
def State.modOp (s : State) (k : Nat) (f : MemOp → MemOp) : State := { s with ops := tabMod s.ops k f }
def State.modCopy (s : State) (k : Nat) (f : Copy → Copy) : State := { s with copies := tabMod s.copies k f }

/-- The engine of a cluster. -/
def State.engine (s : State) (g : Nat) : Engine := (tabGet s.engines g).getD Engine.reset
def State.setEngine (s : State) (g : Nat) (e : Engine) : State := { s with engines := tabPut s.engines g e }
def State.modEngine (s : State) (g : Nat) (f : Engine → Engine) : State := s.setEngine g (f (s.engine g))

/-- A column's record (R351, R359). -/
def State.column (s : State) (c : Nat) : Column := (tabGet s.cols c).getD Column.reset
def State.modColumn (s : State) (c : Nat) (f : Column → Column) : State := { s with cols := tabPut s.cols c (f (s.column c)) }

/-- An island (R353). -/
def State.island (s : State) (i : Nat) : Island := (tabGet s.islands i).getD Island.reset
def State.modIsland (s : State) (i : Nat) (f : Island → Island) : State :=
  { s with islands := tabPut s.islands i (f (s.island i)) }

/-- A partition's debug window (R369). -/
def State.window (s : State) (q : Nat) : DebugWindow := (tabGet s.debug q).getD DebugWindow.reset
def State.modWindow (s : State) (q : Nat) (f : DebugWindow → DebugWindow) : State :=
  { s with debug := tabPut s.debug q (f (s.window q)) }

/-- The stacks of a spatial partition (R315). -/
def State.partStacks (s : State) (p : Nat) : Nat := (tabGet s.parts p).getD (if p = 0 then 255 else 0)

/-- A number that nothing has used, and the state after taking it. -/
def State.fresh (s : State) : Nat × State := (s.nextId, { s with nextId := s.nextId + 1 })

/-- The workgroup, grid and context of a team. -/
def State.wgOf (s : State) (t : Team) : Option Workgroup := tabGet s.wgs t.wg
def State.gridOf (s : State) (t : Team) : Option Grid := (s.wgOf t).bind fun w => tabGet s.grids w.grid
def State.ctxOf (s : State) (t : Team) : Nat := match s.wgOf t with | some w => w.ctx | none => 0
def State.coreOf (s : State) (t : Team) : Nat := match s.wgOf t with | some w => w.core | none => 0

/-- The entities of a team, by number. -/
def State.entsOf (s : State) (tid : Nat) : List (Nat × Entity) := s.ents.filter fun x => x.2.team == tid

/-- The teams of a workgroup, by number. -/
def State.teamsOf (s : State) (w : Nat) : List (Nat × Team) := s.teams.filter fun x => x.2.wg == w

/-- Whether an entity is detached from its team (R23), and how its number is coded in records and debug windows (R340, R369). -/
def Entity.isFrag (e : Entity) : Bool := e.parent.isSome
def Entity.fragCode (e : Entity) : Nat := if e.isFrag then e.entry + 1 else 0

/-- The core that a workgroup moves to, from the choice of the move on (R364). -/
def Workgroup.target (w : Workgroup) : Option Nat :=
  match w.place with
  | .halting y => some (coreOnLayer w.core y)
  | .moving y _ => some (coreOnLayer w.core y)
  | _ => none

/-- Whether a fragment has an entry of the split table of a partition of a core (R23): a team that is saved or swapped out has none
there (R343, R59).  And whether its workgroup brings it there by a move that has been chosen (R364). -/
def State.hasEntry (s : State) (core part : Nat) (e : Entity) : Bool :=
  e.isFrag && (tabGet s.teams e.team).any fun t => t.part == part && !t.swapped && (s.wgOf t).any fun w => w.core == core && w.place != .saved
def State.bringsEntry (s : State) (core part : Nat) (e : Entity) : Bool :=
  e.isFrag && (tabGet s.teams e.team).any fun t => t.part == part && !t.swapped && (s.wgOf t).any fun w => w.target == some core

/-- The split-table entries in use on a partition of a core (R23), but for one entity's. -/
def State.entriesBut (s : State) (core part k : Nat) : List Nat :=
  (s.ents.filter fun x => x.1 != k && s.hasEntry core part x.2).map fun x => x.2.entry

/-- Whether the split table of a partition of a core takes some more fragments beside those it has and those on their way (R59, R364). -/
def State.entryRoom (s : State) (core part more : Nat) : Bool :=
  decide ((s.ents.filter fun x => s.hasEntry core part x.2 || s.bringsEntry core part x.2).length + more ≤ 16)

/-- The lowest number below a bound that a list does not hold. -/
def lowestFree (used : List Nat) (n : Nat) : Option Nat := (List.range n).find? fun i => !used.contains i

/-- The split-table entry that a new fragment of a partition takes (R23): the lowest free one, if any is free. -/
def State.freeEntryOf (s : State) (core part : Nat) : Option Nat :=
  if s.entryRoom core part 1 then lowestFree (s.entriesBut core part s.nextId) 16 else none

/-- A team's fragments take free split-table entries of a core (R59). -/
def State.reenter (s : State) (tid core : Nat) : State :=
  match tabGet s.teams tid with
  | none => s
  | some t => ((s.entsOf tid).filter fun e => e.2.isFrag).foldl (fun s e =>
      s.modEnt e.1 fun x => { x with entry := (lowestFree (s.entriesBut core t.part e.1) 16).getD x.entry }) s

/-! ### Accesses still to be performed -/

/-- The accesses not yet performed that happen before everything an entity does from now on (R119): another path's, once its own
path began or took that one in. -/
def State.afterOf (s : State) (eid : Nat) : List Nat :=
  match tabGet s.ents eid with
  | some e => e.after.filter fun k => (tabGet s.ops k).isSome
  | none => []

/-- The accesses of an entity, and those before them, that are not yet performed. -/
def State.unperformed (s : State) (eid : Nat) : List Nat :=
  s.afterOf eid ++ (s.ops.filter fun x => x.2.ent == eid).map (·.1)

/-- Whether every access an entity has made, and every one that happens before them, is performed (R111, R112, R119). -/
def State.settledEnt (s : State) (eid : Nat) : Bool := (s.unperformed eid).isEmpty

/-! ### Registers -/

/-- Scalar `s`n (R40): `s0` reads zero. -/
def Team.sreg (t : Team) (n : Nat) : Word := if n = 0 then 0 else (tabGet t.s n).getD 0

/-- The team with a scalar written (R40): a write to `s0` is discarded. -/
def Team.setS (t : Team) (n : Nat) (w : Word) : Team := if n = 0 then t else { t with s := tabPut t.s n w }

/-- The pair `x`k (R40): `x0` reads zero. -/
def Team.xreg (t : Team) (k : Nat) : Word64 := if k = 0 then 0 else t.sreg (2 * k + 1) ++ t.sreg (2 * k)

/-- The team with a pair written (R40): a write to `x0` is discarded whole. -/
def Team.setX (t : Team) (k : Nat) (w : Word64) : Team :=
  if k = 0 then t else (t.setS (2 * k) (w.setWidth 32)).setS (2 * k + 1) ((w >>> 32).setWidth 32)

/-- Vector register `v`n (R39, R41): absent at team start. -/
def Team.vreg (t : Team) (n : Nat) : VReg := (tabGet t.v n).getD .absent
def Team.setV (t : Team) (n : Nat) (r : VReg) : Team := { t with v := tabPut t.v n r }

/-- Operand register `o`n (R46): zero in every lane at team start. -/
def Team.oreg (t : Team) (n : Nat) : List Word := (tabGet t.o n).getD (List.replicate t.lanes 0)
def Team.setO (t : Team) (n : Nat) (ws : List Word) : Team := { t with o := tabPut t.o n ws }

/-- Predicate `p`n (R48): `p0` reads true in every lane and is never written. -/
def Team.preg (t : Team) (n : Nat) : BitVec 1024 := if n = 0 then fullMask t.lanes else (tabGet t.p n).getD 0
def Team.setP (t : Team) (n : Nat) (m : BitVec 1024) : Team := if n = 0 then t else { t with p := tabPut t.p n m }

/-- Buffer descriptor `b`n (R49): zero at team start. -/
def Team.breg (t : Team) (n : Nat) : BufDesc := (tabGet t.b n).getD { base := 0, len := 0, flags := 0 }

/-- Whether a vector register holds tag G (R41). -/
def VReg.isG : VReg → Bool
  | .general _ => true
  | _ => false

/-- The team's G count (R43). -/
def Team.gCount (t : Team) : Nat := (t.v.filter fun x => x.2.isG).length

/-- How many operand registers a team may name (R46). -/
def operandLimit (lanes : Nat) : Nat := if 512 / lanes < 16 then 512 / lanes else 16

/-- The team with flags raised (R54). -/
def Team.raiseFlags (t : Team) (f : Word) : Team := { t with flags := t.flags ||| f }

/-! ### Outstanding-operation counters (R51, R126) -/

def Team.cntList (t : Team) : CntKind → List CntEntry
  | .ld => t.cntLd
  | .st => t.cntSt
  | .cp => t.cntCp
  | .tl => t.cntTl

def Team.setCntList (t : Team) (k : CntKind) (l : List CntEntry) : Team :=
  match k with
  | .ld => { t with cntLd := l }
  | .st => { t with cntSt := l }
  | .cp => { t with cntCp := l }
  | .tl => { t with cntTl := l }

/-- A counter's value: the operations that it holds. -/
def Team.cnt (t : Team) (k : CntKind) : Nat := (t.cntList k).length

/-- An operation issues. -/
def Team.cntPush (t : Team) (k : CntKind) (op : Nat) : Team :=
  t.setCntList k (t.cntList k ++ [{ op := op, done := false }])

/-- An operation completes: a load, a store or an atomic leaves its counter at once (R105, R213), an engine operation and every
completed one before it once all before them have completed (R126). -/
def Team.cntDone (t : Team) (k : CntKind) (op : Nat) : Team :=
  match k with
  | .ld | .st => t.setCntList k ((t.cntList k).filter fun e => e.op != op)
  | .cp | .tl =>
    t.setCntList k (((t.cntList k).map fun e => if e.op = op then { e with done := true } else e).dropWhile (·.done))

/-! ### Scoreboard (R21, R375) -/

/-- A `launch` or a `qwait` that waits has its entity's number in place of an operation's (R268). -/
def Team.isPending (t : Team) (r : Ref) : Bool := t.pend.any fun p => p.ref == r
def Team.addPend (t : Team) (op made : Nat) (rs : List Ref) : Team :=
  { t with pend := t.pend ++ rs.map fun r => { op := op, ref := r, made := made } }
def Team.clearPend (t : Team) (op : Nat) : Team := { t with pend := t.pend.filter fun p => p.op != op }

/-! ### Interrupts and counter sessions (R383, R386) -/

/-- A message sent to a port; it waits while the port carries nothing (R385, R393). -/
def State.sendIrq (s : State) (port : Nat) (w : Word) : State :=
  { s with irqs := if s.portUp port then s.irqs ++ [(port, w)] else s.irqs
           outbox := if s.portUp port then s.outbox else s.outbox ++ [.irq port w] }

/-- An interrupt message sent to a port. -/
def State.irq (s : State) (port kind ctx cmask : Nat) : State := s.sendIrq port (BitVec.ofNat 32 (kind + 16 * ctx + 1024 * cmask))

/-- Counter `i` of a session after `n` events (R383), and whether it wrapped. -/
def bumpCounter (l : List Nat) (i n : Nat) : List Nat × Bool :=
  let x := l.getD i 0 + n
  (l.set i (x % 281474976710656), decide (281474976710656 ≤ x))

/-- `n` events of code `evt` happen for a context's work (R381 to R383). -/
def State.countEvent (s : State) (c evt n : Nat) : State :=
  let x := s.ctx c
  if n = 0 || x.state == .suspended || x.state == .free then s
  else
    (List.range 4).foldl (fun s i =>
      let x := s.ctx c
      if bitOf x.cen i && x.evt.getD i 0 == evt then
        let (l, wrapped) := bumpCounter x.counters i n
        let isNew := wrapped && !bitOf x.ovf i
        let s := s.setCtx c { x with counters := l, ovf := if isNew then x.ovf + 2 ^ i else x.ovf }
        if wrapped && bitOf x.oie i then s.irq x.port 2 c (if isNew then 2 ^ i else 0) else s
      else s) s

/-! ### Accesses of the device in a context's space (R397) -/

/-- Translate every 16-byte granule of a device access, in order; the first that fails decides. -/
def State.xlateAll (s : State) (stack c : Nat) (k : AccKind) (ptr : Nat) : Nat → Xlat
  | 0 => .ok 0 0
  | n + 1 =>
    match s.xlate stack c k (ptr + 16 * n) 16 with
    | .ok _ _ => s.xlateAll stack c k ptr n
    | r => match s.xlateAll stack c k ptr n with
      | .ok _ _ => r
      | r' => r'

/-- Store bytes, whole granules from a granule boundary on, at a pointer of a context; every page is present and passes. -/
def State.deviceStore (s : State) (stack c ptr : Nat) (bytes : List Byte) : State :=
  (List.range ((bytes.length + 15) / 16)).foldl (fun s i =>
    match s.xlate stack c .store (ptr + 16 * i) 16 with
    | .ok phys _ =>
      ((s.touch stack c .store (ptr + 16 * i)).l1Evict s.l1Cols (fun a => a / 16 == physAddr phys / 16)).storeBytes phys
        ((bytes.drop (16 * i)).take 16)
    | _ => s) s

/-- Whether a translation of the granules of a range must wait for a port (R385). -/
def State.storeWaits (s : State) (stack c ptr n : Nat) : Bool :=
  (List.range ((n + 15) / 16)).any fun i => s.walkWaits stack c .store (ptr + 16 * i)

/-- The device's store of whole granules: where a walk for it must wait for a port, all of it waits (R385). -/
def State.deviceSend (s : State) (stack c ptr : Nat) (bytes : List Byte) : State :=
  if s.storeWaits stack c ptr bytes.length then { s with outbox := s.outbox ++ [.put stack c ptr bytes] }
  else s.deviceStore stack c ptr bytes

/-- Whether the device can store whole granules of a range, now or once a port carries its walk. -/
def State.canSend (s : State) (stack c ptr n : Nat) : Bool :=
  s.storeWaits stack c ptr (16 * n) || (match s.xlateAll stack c .store ptr n with
    | .ok _ _ => true
    | _ => false)

/-- What the translations of a device's read of a range leave behind (R335): every page is present and passes. -/
def State.touchRange (s : State) (stack c ptr n : Nat) : State :=
  (List.range ((n + 15) / 16)).foldl (fun s i => s.touch stack c .load (ptr + 16 * i)) s

/-- Load bytes, whole granules from a granule boundary on, at a pointer of a context; every page is present and passes. -/
def State.deviceLoad (s : State) (stack c ptr n : Nat) : List Byte :=
  ((List.range ((n + 15) / 16)).flatMap fun i =>
    match s.xlate stack c .load (ptr + 16 * i) 16 with
    | .ok phys _ => s.loadBytes phys 16
    | _ => List.replicate 16 0).take n

/-! ### Fault records and the fault queue (R324, R340) -/

/-- The words of a fault record (R340). -/
def recordWords (s : State) (c team grid : Nat) (wgid : Triple) (f : FaultInfo) (trapped : Bool) : List Nat :=
  let fsum := summary f.lanes
  let words := (List.range 32).filter fun w => bitOf fsum w
  let ncont := (words.length - 1 + 13) / 14
  let b (x : Bool) (n : Nat) : Nat := if x then 2 ^ n else 0
  let main : List Nat :=
    [f.cause + b f.parked 8 + b f.defer 9 + b trapped 11 + 4096 * (f.word % 16) + 65536 * (c % 64) + 4194304 * (team % 8) +
       33554432 * (f.frag % 32), grid, wgid.x, wgid.y, wgid.z, fsum,
     (match words with | w :: _ => maskWord f.lanes w | [] => 0), ncont + 65536 * (f.code % 65536),
     f.pc.toNat % 4294967296, f.pc.toNat / 4294967296, f.addr1 % 4294967296, f.addr1 / 4294967296 % 4294967296,
     f.addr2 % 4294967296, f.addr2 / 4294967296 % 4294967296, s.time.toNat % 4294967296, s.time.toNat / 4294967296]
  let cont (i : Nat) : List Nat :=
    let ms := ((words.drop 1).drop (14 * i)).take 14
    [1024 + b trapped 11 + 65536 * (c % 64) + 4194304 * (team % 8) + 33554432 * (f.frag % 32), grid] ++
      (List.range 14).map fun j => (ms[j]?).elim 0 (maskWord f.lanes)
  main ++ (List.range ncont).flatMap cont

/-- A record as bytes. -/
def wordsBytes (ws : List Nat) : List Byte := ws.flatMap (leBytes 4)

/-- Write records, 64 bytes each, to a context's fault queue (R324): lost where the ring is disabled, full or cannot be
written; then FQOVF rises once for the fault. -/
def State.fqWrite (s : State) (stack c : Nat) (bytes : List Byte) : State :=
  let x := s.ctx c
  let n := bytes.length / 64
  let size := 2 ^ x.fqLog
  let used := (x.fqTail - x.fqHead).toNat
  let slot (i : Nat) : Nat := (x.fqBase.toNat + 64 * ((x.fqTail.toNat + i) % size)) % 2 ^ 64
  let lost := s.setCtx c { x with fqOvf := if x.fqOvf < 65535 then x.fqOvf + 1 else x.fqOvf }
  if n = 0 then s
  else if x.fqLog = 0 || decide (12 < x.fqLog) || decide (size < used + n) then lost
  else if (List.range n).any (fun i => !s.canSend stack c (slot i) 4) then lost
  else
    let s := (List.range n).foldl (fun s i => s.deviceSend stack c (slot i) ((bytes.drop (64 * i)).take 64)) s
    let s := s.modCtx c fun x => { x with fqTail := x.fqTail + BitVec.ofNat 32 n }
    let s := { s with evPend := s.evPend ||| (1#64 <<< c) }
    (s.irq x.port 1 c 0).countEvent c 0x10 n

/-- The records of a fault of a team, as bytes. -/
def State.recordBytes (s : State) (t : Team) (f : FaultInfo) (trapped : Bool) : List Byte :=
  match s.wgOf t with
  | some w =>
    let g := match tabGet s.grids w.grid with | some g => g.gridId | none => 0
    wordsBytes (recordWords s w.ctx t.teamId g w.wgid f trapped)
  | none => []

/-- Write a fault's records to the fault queue of a team's context. -/
def State.fqFault (s : State) (t : Team) (f : FaultInfo) : State :=
  s.fqWrite (coreStack (s.coreOf t)) (s.ctxOf t) (s.recordBytes t f false)

/-! ### The end of entities, teams and phases -/

/-- Whether a team still runs: some entity of it has not ended (R202). -/
def State.teamLive (s : State) (tid : Nat) : Bool := s.ents.any fun x => x.2.team == tid

/-- The workgroup rendezvous completes once every team that has not exited has arrived (R207, R273).  The compute phase ends
at it only when every team arrived by `commit`, one that has ended since among them. -/
def State.rendezvousCheck (s : State) (wid : Nat) : State :=
  match tabGet s.wgs wid with
  | none => s
  | some w =>
    let live := (s.teamsOf wid).filter fun t => s.teamLive t.1
    if w.arrivals.isEmpty || !live.all (fun t => w.arrivals.any fun a => a.team == t.1) then s
    else s.modWg wid fun w => { w with arrivals := [], rvGen := w.rvGen + 1, phase := w.phase && !w.arrivals.all (·.commit) }

/-- The innermost occupied deferral slot (R25): the one opened last. -/
def Entity.innermost (e : Entity) : Option (Nat × Slot) :=
  e.slots.foldl (fun best x => match best with
    | some b => if b.2.opened < x.2.opened then some x else some b
    | none => some x) none

/-- The entity's slots with one emptied: a slot that becomes innermost by it counts again from 0 (R25). -/
def Entity.closeSlot (e : Entity) (k : Nat) : Entity :=
  let was := e.innermost.map (·.1)
  let e := { e with slots := tabDel e.slots k }
  match e.innermost with
  | some (j, sl) => if was = some j then e else { e with slots := tabPut e.slots j { sl with count := 0 } }
  | none => e

/-- A team's entity gives back its trap slot and what the scoreboard holds for a word it waits at (R325, R268). -/
def State.freeHandler (s : State) (eid : Nat) (e : Entity) : State :=
  match tabGet s.teams e.team with
  | none => s
  | some t =>
    let s := s.modTeam e.team fun t => t.clearPend eid
    match e.handler with
    | some i => s.modCtx (s.ctxOf t) fun x => { x with traps := tabDel x.traps i }
    | none => s

/-- An entity ends as by `exit` (R202): its lanes retire, its split-table entry and its trap slot are free, and what it issued
still completes.  Its team's LANE memory goes with the team's last entity (R91).  The fragments it leaves, a fragment's too,
become orphans (R202 says so of the team entity's; log 32). -/
def State.endEntity (s : State) (eid : Nat) : State :=
  match tabGet s.ents eid with
  | none => s
  | some e =>
    let s := (s.freeHandler eid e)
    let s := { s with ents := tabDel s.ents eid }
    match tabGet s.teams e.team with
    | none => s
    | some t =>
      if s.teamLive e.team then s
      else (s.modTeam e.team fun t => { t with laneMem := [] }).rendezvousCheck t.wg

/-- The running path of an entity ends as by `exit` (R202).  A deferred path, the innermost, goes on in its place, as it would had
it detached (R26, log 32), stopped where a halt is pending, which ends with the handler (R370, R371); an entity without one ends. -/
def State.endPath (s : State) (eid : Nat) : State :=
  match tabGet s.ents eid with
  | none => s
  | some e =>
    match e.innermost with
    | none => s.endEntity eid
    | some (k, sl) =>
      (s.freeHandler eid e).modEnt eid fun e =>
        ({ e with mask := sl.mask, pc := sl.pc, word := 0, issue := none, hold := none, handler := none, stopped := e.haltNext
                  haltNext := false }).closeSlot k

/-- A team ends: every one of its entities ends as if by `exit` (R341). -/
def State.endTeam (s : State) (tid : Nat) : State := (s.entsOf tid).foldl (fun s x => s.endEntity x.1) s

/-- The grid of a team had an entity ended by a fault (R270). -/
def State.markFaulted (s : State) (t : Team) : State :=
  match s.wgOf t with
  | some w => s.modGrid w.grid fun g => { g with faulted := true }
  | none => s

/-- The holds that count as a boundary (R28); a fence, a release of an object, the wait of `tinv` and the wait for a counter of 63 keep
their clause in issue. -/
def Hold.boundary : Hold → Bool
  | .fence | .tinv | .order | .room => false
  | _ => true

/-- Whether an entity stands at a clause boundary: no clause in issue, or held at an instruction (R28). -/
def Entity.atBoundary (e : Entity) : Bool :=
  e.issue.isNone || (match e.hold with | some h => h.boundary | none => false)

/-! ### Trap entry (R324, R325) -/

/-- The TMASK bit of a cause, if it can be trapped at all (R324). -/
def causeClass (c : Nat) : Option Nat :=
  if c = cILLOP ∨ c = cILLCL ∨ c = cILLPV then some 0
  else if c = cPGPR ∨ c = cPGXN ∨ c = cTAGF ∨ c = cBNDF ∨ c = cALGN ∨ c = cSPBND ∨ c = cBAROV ∨ c = cWINV ∨ c = cPGNP then some 1
  else if c = cSGF ∨ c = cXAC then some 2
  else if c = cGMIS ∨ c = cLDEPTH ∨ c = cFMTF ∨ c = cNDET then some 3
  else if c = cTRAP then some 4
  else if c = cBRK then some 5
  else none

/-- The lowest free trap slot of a context (R325). -/
def Ctx.freeSlot (x : Ctx) : Option Nat := lowestFree (x.traps.map (·.1)) x.tslots

/-- The address of a trap slot (R325). -/
def Ctx.slotAddr (x : Ctx) (i : Nat) : Nat := (x.tarea.toNat + 128 * i) % 2 ^ 64

/-- The trap slot a fault of an entity is delivered to (R324, R397): none sends it to the fault queue. -/
def State.trapSlot (s : State) (e : Entity) (t : Team) (f : FaultInfo) : Option Nat :=
  let x := s.ctx (s.ctxOf t)
  match causeClass f.cause with
  | none => none
  | some bit =>
    if !x.trapEn || !bitOf x.tmask bit || e.handler.isSome || f.defer then none
    else match x.freeSlot with
      | none => none
      | some i => if s.canSend (coreStack (s.coreOf t)) (s.ctxOf t) (x.slotAddr i) 8 then some i else none

/-- An entity enters its trap handler (R325): the slot holds the record, the resume point and `s60` to `s63`; `x31` names the
slot and `s60` the cause; the entity continues at TVEC.  Continuation records go to the fault queue (R340). -/
def State.trapEnter (s : State) (eid : Nat) (e : Entity) (t : Team) (f : FaultInfo) (i : Nat) : State :=
  let c := s.ctxOf t
  let x := s.ctx c
  let stack := coreStack (s.coreOf t)
  let bytes := s.recordBytes t f true
  let addr := x.slotAddr i
  let slot := bytes.take 64 ++ leBytes 8 f.resumePc.toNat ++ leBytes 4 f.resume ++ leBytes 4 0 ++
    [60, 61, 62, 63].flatMap (fun n => leBytes 4 (t.sreg n).toNat) ++ leBytes 32 0
  let s := s.deviceSend stack c addr slot
  let s := s.fqWrite stack c (bytes.drop 64)
  let s := s.modCtx c fun x => { x with traps := tabPut x.traps i eid }
  let s := s.modTeam e.team fun t => ((t.setX 31 (BitVec.ofNat 64 addr)).setS 60 (BitVec.ofNat 32 f.cause)).setS 61 0
  s.modEnt eid fun e => { e with handler := some i, pc := x.tvec, word := 0, issue := none, hold := none }

/-- A fault that reports an uncorrectable error sends a KIND 4 interrupt (R390): its second address has bit 63 set. -/
def State.errorIrq (s : State) (c : Nat) (f : FaultInfo) : State :=
  if 2 ^ 63 ≤ f.addr2 then s.irq (s.ctx c).port 4 c 0 else s

/-- A precise fault of an entity is delivered (R324): as a trap, or to the fault queue, and then the entity ends.  An MODE
write of the words before it takes effect (log 17). -/
def State.deliver (s : State) (eid : Nat) (f : FaultInfo) : State :=
  match tabGet s.ents eid with
  | none => s
  | some e =>
    match tabGet s.teams e.team with
    | none => s
    | some t =>
      let s := match e.issue.bind (·.modeNew) with
        | some m => s.modTeam e.team fun t => { t with mode := m }
        | none => s
      let s := (s.modTeam e.team fun t => t.clearPend eid).errorIrq (s.ctxOf t) f
      match s.trapSlot e t f with
      | some i => s.trapEnter eid e t f i
      | none => ((s.fqFault t f).markFaulted t).endPath eid

end Sys2Proof.Machine
end

