-- ==== Sys2Proof/Machine/Clause.lean ====
section
/-! DEFINITION. The entity that executes: the end of a word and of a clause, loop continuation, holding, faults of the current
word, exhaustion and the abort of a workgroup (R28, R54, R198, R199, R201, R275, R278 to R280). -/

namespace Sys2Proof.Machine

/-- The entity that executes a word, its team, and the clause it has in issue. -/
structure Cur where
  eid : Nat
  e : Entity
  t : Team
  i : Issue

/-- A meaning of the current entity's word.  A state without a current entity that has a clause in issue has no word to
execute, and stays as it is. -/
def withCur (s : State) (f : Cur → State) : Host.Outcome State Fault Refusal :=
  match tabGet s.ents s.cur with
  | none => .next s
  | some e =>
    match e.issue, tabGet s.teams e.team with
    | some i, some t => .next (f { eid := s.cur, e := e, t := t, i := i })
    | _, _ => .next s

/-- An entity's word in issue, as its own current word. -/
def State.curOf (s : State) (eid : Nat) : Option Cur :=
  match tabGet s.ents eid with
  | none => none
  | some e => match e.issue, tabGet s.teams e.team with
    | some i, some t => some { eid := eid, e := e, t := t, i := i }
    | _, _ => none

/-- The coordinate of a triple on an axis, and the triple with one replaced. -/
def Triple.axis (t : Triple) (a : Nat) : Nat := if a = 0 then t.x else if a = 1 then t.y else t.z
def Triple.setAxis (t : Triple) (a n : Nat) : Triple :=
  if a = 0 then { t with x := n } else if a = 1 then { t with y := n } else { t with z := n }

/-- `n` divided by `k`, rounded up. -/
def ceilDiv (n k : Nat) : Nat := (n + k - 1) / k

/-- The split algorithm (R279): the two halves of a subdomain along the first axis of the order that allows one. -/
def halve (r : LaunchRec) (lo hi : Triple) : List Nat → Option ((Triple × Triple) × (Triple × Triple))
  | [] => none
  | a :: as =>
    let n := hi.axis a - lo.axis a
    let q := r.smallest.axis a
    let h := q * ceilDiv (ceilDiv n 2) q
    if q < n ∧ h < n then some ((lo, hi.setAxis a (lo.axis a + h)), (lo.setAxis a (lo.axis a + h), hi))
    else halve r lo hi as

/-- Whether every lane of an operation has been performed. -/
def MemOp.settled (o : MemOp) : Bool := o.lanes.all (·.done)

/-- A lane that parks is discarded: it never lands (R278). -/
def LaneAcc.discard (l : LaneAcc) : LaneAcc := if l.phys.isNone && l.fill.isNone then { l with done := true } else l

/-- The parked accesses of some teams are discarded (R278 step 2). -/
def State.discardParked (s : State) (tids : List Nat) : State :=
  { s with
    ops := s.ops.map fun (x : Nat × MemOp) =>
      if tids.contains x.2.team then (x.1, { x.2 with lanes := x.2.lanes.map LaneAcc.discard }) else x
    replay := s.replay.filter fun x => !tids.contains x.2.team }

/-- The abort of a workgroup whose entities all stand at a boundary (R278, R280): its copies and its trap slots are dropped, its
state is freed, and its halves go to the head of its queue's split list. -/
def State.abortWg (s : State) (wid : Nat) : State :=
  match tabGet s.wgs wid with
  | none => s
  | some w =>
    match tabGet s.grids w.grid with
    | none => s
    | some g =>
      match halve g.rcd w.lo w.hi g.rcd.ord with
      | none => s
      | some ((lo1, hi1), (lo2, hi2)) =>
        let tids := (s.teamsOf wid).map (·.1)
        let s := s.l1Sync (coreColumn w.core)
        let eids := (s.ents.filter fun x => tids.contains x.2.team).map (·.1)
        let s := s.modCtx w.ctx fun x => { x with traps := x.traps.filter fun y => !eids.contains y.2 }
        let s := { s with
          ents := s.ents.filter fun x => !tids.contains x.2.team
          ops := s.ops.filter fun x => !tids.contains x.2.team
          replay := s.replay.filter fun x => !tids.contains x.2.team
          copies := s.copies.filter fun x => x.2.wg != wid
          teams := s.teams.filter fun x => x.2.wg != wid
          wgs := tabDel s.wgs wid }
        let piece (lo hi : Triple) : Piece := { grid := w.grid, wgid := w.wgid, lo := lo, hi := hi, splits := w.splits + 1 }
        let s := s.modCtx w.ctx fun x =>
          let q := (tabGet x.queues g.queue).getD Queue.reset
          { x with queues := tabPut x.queues g.queue { q with split := piece lo1 hi1 :: piece lo2 hi2 :: q.split } }
        s.countEvent w.ctx 0x0A 1

/-- What happens once every entity concerned stands at a boundary: a team that a deferred fault ends (R341), and a workgroup
that an exhaustion aborts (R278). -/
def State.settle (s : State) (tid : Nat) : State :=
  match tabGet s.teams tid with
  | none => s
  | some t =>
    let s := if t.dying && (s.entsOf tid).all (fun x => x.2.atBoundary) then s.endTeam tid else s
    match tabGet s.wgs t.wg with
    | none => s
    | some w =>
      let tids := (s.teamsOf t.wg).map (·.1)
      let s := if w.aborting then s.discardParked tids else s
      if w.aborting && (s.ents.all fun x => !tids.contains x.2.team || x.2.atBoundary) &&
          (s.ops.all fun x => !tids.contains x.2.team || x.2.settled) then s.abortWg t.wg
      else s

/-- A deferred fault (R341): its record goes to the fault queue, and its team ends at its next clause boundary. -/
def State.deferFault (s : State) (tid : Nat) (f : FaultInfo) : State :=
  match tabGet s.teams tid with
  | none => s
  | some t =>
    let f := { f with defer := true }
    ((((s.errorIrq (s.ctxOf t) f).fqFault t f).markFaulted t).modTeam tid fun t => { t with dying := true }).settle tid

/-- The current entity waits at its word (R28): the word has not started. -/
def Cur.holdAt (c : Cur) (s : State) (h : Hold) : State := (s.modEnt c.eid fun e => { e with hold := some h }).settle c.e.team

/-- The fault of the current word (R340, R325): its word index counts the header as 0, and a VX clause resumes whole. -/
def Cur.fault (c : Cur) (cause addr1 : Nat) : FaultInfo :=
  { cause := cause, word := c.i.next + 1, frag := c.e.fragCode, lanes := c.e.mask, pc := c.i.pc, addr1 := addr1,
    resumePc := c.i.pc, resume := if c.i.cls == .vx then 1 else c.i.next + 1 }

/-- A fault is delivered and the boundary it leaves is seen to. -/
def Cur.raiseWith (c : Cur) (s : State) (f : FaultInfo) : State := (s.deliver c.eid f).settle c.e.team

/-- A precise fault of the current word. -/
def Cur.raise (c : Cur) (s : State) (cause addr1 : Nat) : State := c.raiseWith s (c.fault cause addr1)

/-- ILLOP at the current word: its record gives the header's address (R341). -/
def Cur.illop (c : Cur) (s : State) : State := c.raise s cILLOP c.i.pc.toNat

/-- Resource exhaustion at a fault point (R275): abort and halve in the compute phase, or SGF, or XAC after `commit`. -/
def State.exhaust (s : State) (eid tid : Nat) (f : FaultInfo) : State :=
  match tabGet s.teams tid with
  | none => s
  | some t =>
    match s.wgOf t, s.gridOf t with
    | some w, some g =>
      if w.phase && (halve g.rcd w.lo w.hi g.rcd.ord).isSome then
        ((s.modWg t.wg fun w => { w with aborting := true }).modEnt eid fun e =>
          { e with hold := if e.issue.isSome then some .exhausted else e.hold }).settle tid
      else
        (s.deliver eid { f with cause := if g.rcd.split && !w.phase then cXAC else cSGF, addr1 := f.cause }).settle tid
    | _, _ => s

/-- Exhaustion at the current word. -/
def Cur.exhaust (c : Cur) (s : State) (code : Nat) : State := s.exhaust c.eid c.e.team (c.fault code 0)

/-- The levels that a sequential continuation leaves, innermost first, and the address it goes to (R198); `none` where it
reaches the end of a level that a fragment inherited (R199).  `depth` is the number of levels in the list. -/
def loopNext (inherited : Nat) : List LoopLevel → Word64 → Option (List LoopLevel × Word64)
  | [], a => some ([], a)
  | l :: ls, a =>
    if a = l.stop then
      if ls.length < inherited then none
      else if l.count - 1 = 0 then loopNext inherited ls a
      else some ({ l with count := l.count - 1 } :: ls, l.start)
    else some (l :: ls, a)

/-- The levels, outermost first, that a taken branch to an address keeps (R198). -/
def keepLevels (a : Word64) : List LoopLevel → List LoopLevel
  | [] => []
  | l :: ls => if l.start.toNat ≤ a.toNat ∧ a.toNat < l.stop.toNat then l :: keepLevels a ls else []

/-- A vector register's word for lane `l`, an absent register reading as a word of the reader (R41). -/
def VReg.lane (r : VReg) (absentWord : Word) (l : Nat) : Word :=
  match r with
  | .absent => absentWord
  | .uniform w => w
  | .affine b st => b + BitVec.ofNat 32 l * st
  | .general ws => ws.getD l 0

/-- What an instruction without an element type reads from an absent register (R41). -/
def absentRaw : Word := 0xFF800001

/-- The `vtos` move of a team (R191), the lane as the scalar operand gave it. -/
def Team.vtosMove (t : Team) (d a : BitVec 6) (l : Word) : Team :=
  let n := l.toNat
  t.setS d.toNat (if n < t.lanes then (t.vreg a.toNat).lane absentRaw n else 0)

/-- The waits of one entity during which its team counts no words: `yieldc` (R201) and `hlt` (R331). -/
def Hold.pausesWords : Hold → Bool
  | .yieldc | .hlt => true
  | _ => false

/-- The clause in issue of an entity retires (R191, R54, R201, R331, R346, R382): its deferred `vtos` moves run, the flags of its later passes
are raised, its MODE write takes effect, its words count unless the team waits in a `yieldc` or a `hlt`, and the watchdog restarts. -/
def State.retireClause (s : State) (eid : Nat) (e : Entity) (i : Issue) : State :=
  let n := i.words.length
  let counted := if (s.entsOf e.team).any fun x => x.2.hold.any Hold.pausesWords && x.1 != eid then 0 else n
  let s := s.modTeam e.team fun t =>
    let t := i.vtos.foldl (fun t m => t.vtosMove m.1 m.2.1 m.2.2) t
    let t := match i.modeNew with | some m => { t with mode := m } | none => t
    let t := { t.raiseFlags i.flagsLate with retired := t.retired + counted, hang := 0 }
    if t.deadline < t.retired && t.ydl.isNone then
      { t with ydl := some { cause := cYDL, word := 0, frag := e.fragCode, lanes := e.mask, pc := i.pc, addr1 := t.retired,
                             resumePc := i.pc, resume := 1 } }
    else t
  let s := match tabGet s.teams e.team with
    | some t => (s.countEvent (s.ctxOf t) 1 1).countEvent (s.ctxOf t) 2 counted
    | none => s
  s.modEnt eid fun e => { e with issue := none, hold := none, word := 0 }

/-- The header that follows a clause (R130). -/
def Issue.after (i : Issue) : Word64 := i.pc + BitVec.ofNat 64 (4 * (i.words.length + 1))

/-- An entity continues sequentially at an address (R198, R199). -/
def State.continueAt (s : State) (eid tid : Nat) (a : Word64) : State :=
  match tabGet s.ents eid with
  | none => s
  | some e =>
    match loopNext (if e.isFrag then e.inherited else 0) e.loops.reverse a with
    | some (ls, a) => (s.modEnt eid fun e => { e with loops := ls.reverse, pc := a }).settle tid
    | none =>
      ((s.modEnt eid fun e => { e with pc := a }).deliver eid
        { cause := cILLOP, word := 0, frag := e.fragCode, lanes := e.mask, pc := a, addr1 := a.toNat, resumePc := a,
          resume := 1 }).settle tid

/-- An entity is at an address that a taken branch named (R198): the levels the target lies outside of close. -/
def State.branchTo (s : State) (eid tid : Nat) (a : Word64) : State :=
  (s.modEnt eid fun e =>
    let ls := keepLevels a e.loops
    { e with loops := ls, inherited := min e.inherited ls.length, pc := a }).settle tid

/-- An entity is at an address that a call, a return or a loop named: no level closes (R198). -/
def State.jumpTo (s : State) (eid tid : Nat) (a : Word64) : State := (s.modEnt eid fun e => { e with pc := a }).settle tid

/-- The current clause ends at its last word and continues sequentially. -/
def Cur.finish (c : Cur) (s : State) : State :=
  match (tabGet s.ents c.eid).bind (·.issue) with
  | some i => (s.retireClause c.eid c.e i).continueAt c.eid c.e.team i.after
  | none => s

/-- The current word is done; it took `n` words (R141). -/
def Cur.advance (c : Cur) (s : State) (n : Nat) : State :=
  if c.i.words.length ≤ c.i.next + n then c.finish s
  else s.modEnt c.eid fun e => { e with hold := none, issue := e.issue.map fun i => { i with next := c.i.next + n } }

/-- A team observes completions (R126, R127): what its column caches is written back and dropped (R89). -/
def State.observe (s : State) (t : Team) : State := s.l1Sync (coreColumn (s.coreOf t))

/-- The current clause ends with a taken branch. -/
def Cur.branch (c : Cur) (s : State) (a : Word64) : State := (s.retireClause c.eid c.e c.i).branchTo c.eid c.e.team a

/-- The current clause ends with a jump that closes no level. -/
def Cur.jump (c : Cur) (s : State) (a : Word64) : State := (s.retireClause c.eid c.e c.i).jumpTo c.eid c.e.team a

/-- The target of a signed offset in words from the current clause's header (R140). -/
def Cur.target (c : Cur) (off : Int) : Word64 := c.i.pc + BitVec.ofInt 64 (4 * off)

/-- The state with the current team changed and the word done. -/
def Cur.teamWord (c : Cur) (s : State) (f : Team → Team) : State := c.advance (s.modTeam c.e.team f) 1

/-- The state with the current clause's issue changed. -/
def Cur.modIssue (c : Cur) (s : State) (f : Issue → Issue) : State :=
  s.modEnt c.eid fun e => { e with issue := e.issue.map f }

end Sys2Proof.Machine
end

