-- ==== Sys2Proof/Machine/Float.lean ====
section
/-! DEFINITION. The float formats, exact arithmetic on their values, and the one rounding (R60 to R68, R159 to R163). -/

namespace Sys2Proof.Machine

/-- The rounding modes of MODE.RM (R54). -/
inductive Rm where
  | ne | tz | dn | up
deriving DecidableEq, Repr

/-- A float format: fraction bits, exponent bits, bias, total width, and its codes (R60, R67). `inf` is none where the format
has no infinity; `maxCode` is the largest finite positive code. -/
structure FFmt where
  mbits : Nat
  ebits : Nat
  bias : Nat
  width : Nat
  absent : Nat
  nan : Nat
  inf : Option Nat
  maxCode : Nat
  fp8 : Bool
deriving DecidableEq, Repr

def fmtF64 : FFmt := ⟨52, 11, 1023, 64, 0xFFF0000000000001, 0x7FF8000000000000, some 0x7FF0000000000000, 0x7FEFFFFFFFFFFFFF, false⟩
def fmtF32 : FFmt := ⟨23, 8, 127, 32, 0xFF800001, 0x7FC00000, some 0x7F800000, 0x7F7FFFFF, false⟩
def fmtF16 : FFmt := ⟨10, 5, 15, 16, 0xFC01, 0x7E00, some 0x7C00, 0x7BFF, false⟩
def fmtBf16 : FFmt := ⟨7, 8, 127, 16, 0xFF81, 0x7FC0, some 0x7F80, 0x7F7F, false⟩
def fmtE4m3 : FFmt := ⟨3, 4, 7, 8, 0x80, 0x7F, none, 0x7E, true⟩
def fmtE5m2 : FFmt := ⟨2, 5, 15, 8, 0x80, 0x7E, some 0x7C, 0x7B, true⟩

/-- The flag bits of FLAGS (R55). -/
def flagNV : Word := 1
def flagDZ : Word := 2
def flagOF : Word := 4
def flagUF : Word := 8
def flagNX : Word := 16
def flagSAT : Word := 32
def flagCSAT : Word := 64
def flagABS : Word := 128
def flagFMT : Word := 256

/-- The value of a code of a format (R62, R67): the absent code is no NaN. -/
def numOf (f : FFmt) (c : Nat) : Num :=
  if c = f.absent then .absent
  else
    let neg := c / 2 ^ (f.width - 1) % 2 = 1
    let e := c / 2 ^ f.mbits % 2 ^ f.ebits
    let m := c % 2 ^ f.mbits
    if e = 2 ^ f.ebits - 1 ∧ f.inf ≠ none then
      if m = 0 then .inf neg else .nan (!f.fp8 && decide (m < 2 ^ (f.mbits - 1)))
    else if f.inf = none ∧ e = 2 ^ f.ebits - 1 ∧ m = 2 ^ f.mbits - 1 then .nan false
    else if e = 0 then .fin neg m (1 - (f.bias : Int) - f.mbits)
    else .fin neg (m + 2 ^ f.mbits) ((e : Int) - f.bias - f.mbits)

/-- The number of bits of a natural number. -/
def bitLen (n : Nat) : Nat := if n = 0 then 0 else Nat.log2 n + 1

/-- `man` divided by `2 ^ sh`, rounded in a mode (R65); the Boolean says whether the result is inexact. -/
def roundShift (rm : Rm) (neg : Bool) (man sh : Nat) : Nat × Bool :=
  let q := man / 2 ^ sh
  let r := man % 2 ^ sh
  if r = 0 then (q, false)
  else
    let up := match rm with
      | .ne => decide (2 ^ sh < 2 * r) || (decide (2 * r = 2 ^ sh) && decide (q % 2 = 1))
      | .tz => false
      | .dn => neg
      | .up => !neg
    (if up then q + 1 else q, true)

/-- The code of a sign and a magnitude code: FP8 has no negative zero (R68). -/
def signed (f : FFmt) (neg : Bool) (mag : Nat) : Nat :=
  if neg && !(f.fp8 && mag == 0) then mag + 2 ^ (f.width - 1) else mag

/-- What replaces an overflowing result (R66), with its flags. -/
def overflow (f : FFmt) (rm : Rm) (sat : Bool) (neg : Bool) : Nat × Word :=
  (match f.inf with
   | none => if sat then signed f neg f.maxCode else f.nan
   | some i =>
     if sat then signed f neg f.maxCode
     else match rm, neg with
       | .tz, _ | .dn, false | .up, true => signed f neg f.maxCode
       | _, _ => signed f neg i,
   flagOF ||| flagNX)

/-- A finite value rounded once to a format (R63 to R68): the code and the flags.  `man` may carry a lowest bit that stands
for everything below it. -/
def roundFin (f : FFmt) (rm : Rm) (sat : Bool) (neg : Bool) (man : Nat) (exp : Int) : Nat × Word :=
  if man = 0 then (signed f neg 0, 0)
  else
    let emin : Int := 1 - (f.bias : Int)
    let e : Int := exp + bitLen man - 1
    let qn : Int := e - f.mbits
    let q : Int := if qn < emin - f.mbits then emin - f.mbits else qn
    let (n, ix) := if q ≤ exp then (man * 2 ^ (exp - q).toNat, false) else roundShift rm neg man (q - exp).toNat
    -- the magnitude in units of the smallest subnormal
    let units := n * 2 ^ (q - (emin - f.mbits)).toNat
    let maxUnits := (2 ^ f.mbits + f.maxCode % 2 ^ f.mbits) * 2 ^ (f.maxCode / 2 ^ f.mbits - 1)
    if maxUnits < units then overflow f rm sat neg
    else
      let tiny := decide (e < emin) &&
        (let n2 := (if qn ≤ exp then man * 2 ^ (exp - qn).toNat else (roundShift rm neg man (qn - exp).toNat).1)
         !(decide (e + 1 = emin) && decide (n2 = 2 ^ (f.mbits + 1))))
      let mag :=
        if units < 2 ^ f.mbits then units
        else
          let b := bitLen units - 1 - f.mbits
          (b + 1) * 2 ^ f.mbits + (units / 2 ^ b - 2 ^ f.mbits)
      (signed f neg mag, if ix then (if tiny then flagUF ||| flagNX else flagNX) else 0)

/-- A value written in a format: NaNs canonical (R64), an infinity in a format without one as an overflow (R66). -/
def roundNum (f : FFmt) (rm : Rm) (sat : Bool) : Num → Nat × Word
  | .absent => (f.absent, 0)
  | .nan _ => (f.nan, 0)
  | .inf neg =>
    match f.inf with
    | some i => (signed f neg i, 0)
    | none => overflow f rm sat neg
  | .fin neg m e => roundFin f rm sat neg m e

/-- NV where a value is a signalling NaN (R64). -/
def sigFlag : Num → Word
  | .nan true => flagNV
  | _ => 0

/-- Whether a value is absent. -/
def Num.isAbsent : Num → Bool
  | .absent => true
  | _ => false

/-- Whether a value is a NaN. -/
def Num.isNan : Num → Bool
  | .nan _ => true
  | _ => false

/-- The value with its sign inverted; a NaN has no sign (R160). -/
def Num.negate : Num → Num
  | .inf n => .inf !n
  | .fin n m e => .fin (!n) m e
  | x => x

/-- A finite value as a multiple of a power of two. -/
def scaled (neg : Bool) (m : Nat) (e base : Int) : Int :=
  let k : Int := m * 2 ^ (e - base).toNat
  if neg then -k else k

/-- The exact sum of two values and the flags of an invalid one (R64, R160); neither is absent.  A zero sum of opposite signs
is +0, and −0 when rounding down. -/
def addNum (rm : Rm) : Num → Num → Num × Word
  | .nan a, .nan b => (.nan false, sigFlag (.nan a) ||| sigFlag (.nan b))
  | .nan a, _ => (.nan false, sigFlag (.nan a))
  | _, .nan b => (.nan false, sigFlag (.nan b))
  | .inf a, .inf b => if a = b then (.inf a, 0) else (.nan false, flagNV)
  | .inf a, _ => (.inf a, 0)
  | _, .inf b => (.inf b, 0)
  | .fin na ma ea, .fin nb mb eb =>
    let base := if ea ≤ eb then ea else eb
    let s := scaled na ma ea base + scaled nb mb eb base
    if s = 0 then (.fin (if na = nb then na else rm == .dn) 0 0, 0)
    else (.fin (decide (s < 0)) s.natAbs base, 0)
  | .absent, x => (x, 0)
  | x, .absent => (x, 0)

/-- The exact product of two values and the flags of an invalid one (R64, R160); neither is absent. -/
def mulNum : Num → Num → Num × Word
  | .nan a, .nan b => (.nan false, sigFlag (.nan a) ||| sigFlag (.nan b))
  | .nan a, _ => (.nan false, sigFlag (.nan a))
  | _, .nan b => (.nan false, sigFlag (.nan b))
  | .inf a, .inf b => (.inf (a != b), 0)
  | .inf a, .fin b m _ => if m = 0 then (.nan false, flagNV) else (.inf (a != b), 0)
  | .fin a m _, .inf b => if m = 0 then (.nan false, flagNV) else (.inf (a != b), 0)
  | .fin na ma ea, .fin nb mb eb => (.fin (na != nb) (ma * mb) (ea + eb), 0)
  | .absent, _ => (.absent, 0)
  | _, .absent => (.absent, 0)

/-- The quotient of two values, its lowest bit standing for the remainder (R160); neither is absent. -/
def divNum : Num → Num → Num × Word
  | .nan a, .nan b => (.nan false, sigFlag (.nan a) ||| sigFlag (.nan b))
  | .nan a, _ => (.nan false, sigFlag (.nan a))
  | _, .nan b => (.nan false, sigFlag (.nan b))
  | .inf _, .inf _ => (.nan false, flagNV)
  | .inf a, .fin b _ _ => (.inf (a != b), 0)
  | .fin a _ _, .inf b => (.fin (a != b) 0 0, 0)
  | .fin na ma ea, .fin nb mb eb =>
    if mb = 0 then (if ma = 0 then (.nan false, flagNV) else (.inf (na != nb), flagDZ))
    else if ma = 0 then (.fin (na != nb) 0 0, 0)
    else
      let k := 64 + bitLen mb
      let n := ma * 2 ^ k
      (.fin (na != nb) (2 * (n / mb) + (if n % mb = 0 then 0 else 1)) (ea - k - eb - 1), 0)
  | .absent, _ => (.absent, 0)
  | _, .absent => (.absent, 0)

/-- The largest number whose square is not above `n`, found from a bit position down. -/
def isqrtFrom (n : Nat) : Nat → Nat → Nat
  | 0, acc => acc
  | k + 1, acc =>
    let c := acc + 2 ^ k
    isqrtFrom n k (if c * c ≤ n then c else acc)

/-- The integer square root. -/
def isqrt (n : Nat) : Nat := isqrtFrom n (bitLen n / 2 + 1) 0

/-- The square root, its lowest bit standing for the remainder (R160); the operand is not absent. -/
def sqrtNum : Num → Num × Word
  | .nan a => (.nan false, sigFlag (.nan a))
  | .inf true => (.nan false, flagNV)
  | .inf false => (.inf false, 0)
  | .fin n 0 e => (.fin n 0 e, 0)
  | .fin true _ _ => (.nan false, flagNV)
  | .fin false m e =>
    let k : Nat := 128 + (e % 2).toNat
    let n := m * 2 ^ k
    let r := isqrt n
    (.fin false (2 * r + (if r * r = n then 0 else 1)) ((e - k) / 2 - 1), 0)
  | .absent => (.absent, 0)

/-- Whether one value is below another; neither is a NaN or absent.  The two zeros are equal. -/
def ltNum : Num → Num → Bool
  | .inf true, .inf true => false
  | .inf true, _ => true
  | .inf false, _ => false
  | .fin _ _ _, .inf n => !n
  | .fin na ma ea, .fin nb mb eb =>
    let base := if ea ≤ eb then ea else eb
    decide (scaled na ma ea base < scaled nb mb eb base)
  | _, _ => false

/-- Whether two values are equal; neither is a NaN or absent. -/
def eqNum (a b : Num) : Bool := !ltNum a b && !ltNum b a

/-- The sign bit of a value. -/
def Num.sign : Num → Bool
  | .inf n => n
  | .fin n _ _ => n
  | _ => false

/-- Below, with −0 below +0, as `fmin` and `fmax` order values (R161). -/
def ltZero (a b : Num) : Bool := ltNum a b || (eqNum a b && a.sign && !b.sign)

/-- `Pass` of R160 at the code level: a NaN becomes canonical, a signalling one raises NV. -/
def passNum (f : FFmt) (c : Nat) : Nat × Word :=
  match numOf f c with
  | .nan s => (f.nan, sigFlag (.nan s))
  | _ => (c, 0)

/-- The code of the negated value; `Pass` of it canonicalises a NaN (R160). -/
def passNegate (f : FFmt) (c : Nat) : Nat × Word :=
  match numOf f c with
  | .nan s => (f.nan, sigFlag (.nan s))
  | .absent => (c, 0)
  | .fin n m _ => (if f.fp8 && m == 0 then 0 else signed f (!n) (c % 2 ^ (f.width - 1)), 0)
  | .inf n => (signed f (!n) (c % 2 ^ (f.width - 1)), 0)

/-- The float operations of two operands (R159). -/
inductive FOp2 where
  | add | sub | mul | div | min | max
deriving DecidableEq, Repr

/-- The float operations of one operand (R159). -/
inductive FOp1 where
  | abs | neg | sat | sqrt | rnd (dir : RndDir)
deriving DecidableEq, Repr

/-- The smaller or larger of two present values (R161), as one of the two codes. -/
def minMax (f : FFmt) (max : Bool) (a b : Nat) : Nat × Word :=
  let x := numOf f a
  let y := numOf f b
  if x.isNan || y.isNan then (f.nan, sigFlag x ||| sigFlag y)
  else (if (if max then ltZero x y else ltZero y x) then b else a, 0)

/-- One element of a two-operand float instruction (R160, R161). -/
def float2 (f : FFmt) (rm : Rm) (sat : Bool) (op : FOp2) (a b : Nat) : Nat × Word :=
  let x := numOf f a
  let y := numOf f b
  match op with
  | .mul | .div =>
    if x.isAbsent || y.isAbsent then (f.absent, 0)
    else
      let (r, fl) := if op = .mul then mulNum x y else divNum x y
      let (c, fr) := roundNum f rm sat r
      (c, fl ||| fr)
  | _ =>
    if x.isAbsent && y.isAbsent then (f.absent, 0)
    else if y.isAbsent then passNum f a
    else if x.isAbsent then (if op = .sub then passNegate f b else passNum f b)
    else
      match op with
      | .min => minMax f false a b
      | .max => minMax f true a b
      | _ =>
        let (r, fl) := addNum rm x (if op = .sub then y.negate else y)
        let (c, fr) := roundNum f rm sat r
        (c, fl ||| fr)

/-- A finite value rounded to an integral one in a direction (R161). -/
def roundIntegral (dir : RndDir) (neg : Bool) (m : Nat) (e : Int) : Num :=
  if 0 ≤ e then .fin neg m e
  else
    let rm := match dir with
      | .n => Rm.ne
      | .d => .dn
      | .u => .up
      | .z => .tz
    .fin neg (roundShift rm neg m (-e).toNat).1 0

/-- One element of a one-operand float instruction (R160, R161). -/
def float1 (f : FFmt) (rm : Rm) (sat : Bool) (op : FOp1) (a : Nat) : Nat × Word :=
  let x := numOf f a
  match x with
  | .absent => (f.absent, 0)
  | .nan s =>
    match op with
    | .sat => (0, sigFlag (.nan s))
    | _ => (f.nan, sigFlag (.nan s))
  | _ =>
    match op with
    | .abs => (a % 2 ^ (f.width - 1), 0)
    | .neg => passNegate f a
    | .sat =>
      if x.sign then (0, 0)
      else if ltNum (.fin false 1 0) x then ((roundNum f .ne false (.fin false 1 0)).1, 0)
      else (a, 0)
    | .sqrt =>
      let (r, fl) := sqrtNum x
      let (c, fr) := roundNum f rm sat r
      (c, fl ||| fr)
    | .rnd dir =>
      match x with
      | .fin n m e => ((roundNum f .ne false (roundIntegral dir n m e)).1, 0)
      | _ => (a, 0)

/-- The flags of an exact sum (R163, R193): NV where an operand is a signalling NaN, or where infinities of both signs are among
the operands, whatever else is there and in whatever order they stand (log 29). -/
def sumFlags (xs : List Num) : Word :=
  xs.foldl (fun f x => f ||| sigFlag x) 0 |||
    (if xs.any (· == .inf false) && xs.any (· == .inf true) then flagNV else 0)

/-- The exact sum of a list of values, and the flags of an invalid one. -/
def sumNum (rm : Rm) : List Num → Num × Word
  | [] => (.fin false 0 0, 0)
  | x :: rest => (rest.foldl (fun acc y => (addNum rm acc y).1) x, sumFlags (x :: rest))

/-- How the fused forms use their addend (R162). -/
inductive FmaKind where
  | plus | minus | from
deriving DecidableEq, Repr

/-- One lane of a fused or dot form (R163): the factors of each product, the addend, and the format of the result. -/
def fused (fi fr : FFmt) (rm : Rm) (kind : FmaKind) (ps : List (Nat × Nat)) (c : Nat) : Nat × Word :=
  let present := ps.filter fun (a, b) => !(numOf fi a).isAbsent && !(numOf fi b).isAbsent
  let prods := present.map fun (a, b) => mulNum (numOf fi a) (numOf fi b)
  let fp := prods.foldl (fun fl p => fl ||| p.2) (0 : Word)
  let z := numOf fr c
  if prods.isEmpty then
    if z.isAbsent then (fr.absent, 0)
    else if kind = .minus then passNegate fr c else passNum fr c
  else
    let ps := if kind = .from then prods.map fun p => p.1.negate else prods.map (·.1)
    let zs := if z.isAbsent then [] else if kind = .minus then [z.negate] else [z]
    let s := (sumNum rm (prods.map (·.1))).1
    let s := if kind = .from then s.negate else s
    let r := zs.foldl (fun s z => (addNum rm z s).1) s
    let (code, ff) := roundNum fr rm false r
    (code, fp ||| sumFlags (ps ++ zs) ||| ff)

/-- The value of a number as an integer where it is one, and whether anything was cut off, rounding in a mode. -/
def toInteger (rm : Rm) (neg : Bool) (m : Nat) (e : Int) : Int × Bool :=
  let (q, ix) := if 0 ≤ e then (m * 2 ^ e.toNat, false) else roundShift rm neg m (-e).toNat
  (if neg then -(q : Int) else q, ix)

/-- An integer as an exact value. -/
def numOfInt (i : Int) : Num := .fin (decide (i < 0)) i.natAbs 0

end Sys2Proof.Machine
end

