-- ==== Sys2Proof/Machine/Flags.lean ====
section
/-! DEFINITION. MODE and FLAGS (R54, R55), and integer saturation (R9, R165). -/

namespace Sys2Proof.Machine

/-- MODE.RM. -/
def modeRm (m : Word) : Rm :=
  match m.toNat % 4 with
  | 0 => .ne
  | 1 => .tz
  | 2 => .dn
  | _ => .up

/-- MODE.SAT, MODE.STRICT and MODE.DET. -/
def modeSat (m : Word) : Bool := m.getLsbD 2
def modeStrict (m : Word) : Bool := m.getLsbD 4
def modeDet (m : Word) : Bool := m.getLsbD 5

/-- What a write leaves in MODE: reserved bits read as zero (R6, R54). -/
def modeWrite (w : Word) : Word := w &&& 0x37

/-- What a write leaves in FLAGS: a 0 clears, a 1 leaves (R55). -/
def flagsWrite (old w : Word) : Word := old &&& w &&& 0x1FF

/-- The rounding mode, saturation and strictness the current clause issued under (R54). -/
def Cur.rm (c : Cur) : Rm := modeRm c.i.mode
def Cur.sat (c : Cur) : Bool := modeSat c.i.mode
def Cur.strict (c : Cur) : Bool := modeStrict c.i.mode
def Cur.det (c : Cur) : Bool := modeDet c.i.mode

/-- An integer clamped to a range; SAT where it changed (R9). -/
def satInt (lo hi x : Int) : Int × Word :=
  if x < lo then (lo, flagSAT) else if hi < x then (hi, flagSAT) else (x, 0)

/-- An integer's low bits as a code of a width. -/
def intCode (w : Nat) (x : Int) : Nat := (x % (2 : Int) ^ w).toNat

/-- The signed value of a code of a width. -/
def intVal (w c : Nat) : Int := if 2 ^ (w - 1) ≤ c then (c : Int) - (2 : Int) ^ w else c

/-- An integer type of values (R60, R165): its width, whether it is signed, and its absent code. -/
structure IFmt where
  width : Nat
  signed : Bool
  absent : Nat

def ifmtI32 : IFmt := ⟨32, true, 0x80000000⟩
def ifmtN32 : IFmt := ⟨32, false, 0xFFFFFFFF⟩
def ifmtI16 : IFmt := ⟨16, true, 0x8000⟩
def ifmtI8 : IFmt := ⟨8, true, 0x80⟩
def ifmtN8 : IFmt := ⟨8, false, 0xFF⟩

/-- The value of a code, none where it is absent. -/
def IFmt.val (f : IFmt) (c : Nat) : Option Int :=
  if c = f.absent then none else some (if f.signed then intVal f.width c else c)

/-- The range of the present values: the absent code's value is left out (R60). -/
def IFmt.lo (f : IFmt) : Int := if f.signed then 1 - (2 : Int) ^ (f.width - 1) else 0
def IFmt.hi (f : IFmt) : Int := if f.signed then (2 : Int) ^ (f.width - 1) - 1 else (2 : Int) ^ f.width - 2

/-- A value saturated and encoded (R9). -/
def IFmt.sat (f : IFmt) (x : Int) : Nat × Word :=
  let (y, fl) := satInt f.lo f.hi x
  (intCode f.width y, fl)

end Sys2Proof.Machine
end

