-- ==== Sys2Proof/WellFormed.lean ====
section
/-! DEFINITION. Which instructions are well formed: the operand rules a single instruction can break. -/

namespace Sys2Proof

/-- How an operand field reads a constant (R138): the type whose value the constant takes. `raw` is the reading of the
raw-integer, logic, select, move and shuffle instructions. -/
inductive ConstTy where
  | f32 | f16 | bf16 | f64 | e4m3 | e5m2 | i32 | n32 | i16 | i8 | n8 | raw
deriving DecidableEq, Repr

/-- Whether a type takes a constant (R138): 0.5 is refused where the operand is an integer, −1 where it is natural. -/
def constOk : ConstTy → VConst → Bool
  | .raw, .half | .i32, .half | .i16, .half | .i8, .half | .n8, .half | .n32, .half => false
  | .n8, .negOne | .n32, .negOne => false
  | _, _ => true

def HalfT.constTy : HalfT → ConstTy
  | .f16 => .f16
  | .bf16 => .bf16

def Fp8T.constTy : Fp8T → ConstTy
  | .e4m3 => .e4m3
  | .e5m2 => .e5m2

def ValT.constTy : ValT → ConstTy
  | .i32 => .i32
  | .i16 => .i16
  | .i8 => .i8
  | .n8 => .n8

def AbsT.constTy : AbsT → ConstTy
  | .f32 => .f32
  | .f16 => .f16
  | .bf16 => .bf16
  | .e4m3 => .e4m3
  | .e5m2 => .e5m2
  | .i32 => .i32
  | .i8 => .i8
  | .n8 => .n8

def UpT.constTy : UpT → ConstTy
  | .f16 => .f16
  | .bf16 => .bf16
  | .e4m3 => .e4m3
  | .e5m2 => .e5m2
  | .i8 => .i8
  | .n8 => .n8

def RedT.constTy : RedT → ConstTy
  | .f32 => .f32
  | .f16 => .f16
  | .bf16 => .bf16
  | .i32 => .i32

/-- Whether a source of `cvtup` has 16-bit elements (R175). -/
def UpT.is16 : UpT → Bool
  | .f16 | .bf16 => true
  | _ => false

/-- A destination is a `v` or `o` register or the instruction's own latch (R138, R135). -/
def dstOk (l : Latch) : VOp → Bool
  | .v _ | .o _ => true
  | .latch k => k == l
  | _ => false

/-- A source: any register or latch, or a constant its type takes (R138). -/
def srcOk (t : ConstTy) : VOp → Bool
  | .const c => constOk t c
  | _ => true

/-- An even register number. -/
def evenIdx {w : Nat} (n : BitVec w) : Bool := n.toNat % 2 == 0

/-- A 64-bit destination pair (R139). -/
def dst64Ok : VOp → Bool
  | .v n => evenIdx n
  | .o n => evenIdx n
  | _ => false

/-- A 64-bit source pair (R139): no latch, no lane index. -/
def src64Ok : VOp → Bool
  | .v n => evenIdx n
  | .o n => evenIdx n
  | .s n => evenIdx n
  | .latch _ => false
  | .const c => c != .lane

/-- Outside VX no operand names a latch (R47). -/
def noLatchOp : VOp → Bool
  | .latch _ => false
  | _ => true

/-- The registers that a load of a size writes (R211). -/
def ldDstOk (z : LdSz) : VOp → Bool
  | .v n => (z != .b64 || evenIdx n) && (z != .b128 || n.toNat % 4 == 0)
  | .o n => (z != .b64 || evenIdx n) && (z != .b128 || n.toNat % 4 == 0)
  | _ => false

/-- The data source of a store of a size (R211). -/
def stSrcOk (z : StSz) : VOp → Bool
  | .v n => (z != .b64 || evenIdx n) && (z != .b128 || n.toNat % 4 == 0)
  | .o n => (z != .b64 || evenIdx n) && (z != .b128 || n.toNat % 4 == 0)
  | .s n => z != .b128 && (z != .b64 || evenIdx n)
  | .latch _ => false
  | .const c => c != .half && (z != .b128 || c == .zero)

/-- The operand of an atomic of a type (R217). -/
def atOpOk (t : ATy) : VOp → Bool
  | .v n => t != .b64 || evenIdx n
  | .o n => t != .b64 || evenIdx n
  | .s n => t != .b64 || evenIdx n
  | .latch _ => false
  | .const c => c != .lane && (c != .half || t == .f32) && (c != .absent || t != .b64)

/-- The operand of `acas` (R218): a `v` register aligned to the pair, or to the quad for 64 bits. -/
def casOpOk (t : ATy) : VOp → Bool
  | .v n => if t == .b64 then n.toNat % 4 == 0 else evenIdx n
  | _ => false

/-- The operand of `aacc` (R217, R220): a 64-bit pair, or an f32 constant or broadcast. -/
def accOpOk : VOp → Bool
  | .v n => evenIdx n
  | .o n => evenIdx n
  | .s n => evenIdx n
  | .latch _ => false
  | .const c => c == .zero || c == .one || c == .negOne || c == .two

/-- The special registers that `swr` may write: MODE and FLAGS (R52). -/
def sregWritable (n : BitVec 12) : Bool := n == 0x020 || n == 0x021

/-- The operand rules that one word (or one pair of words) can break: R135 to R144 and the field checks of each
instruction.  Rules that need the clause, the team or the state are judged when the clause is decoded (R145). -/
def Instr.wellFormed : Instr → Bool
  | .faddF32 d a b => dstOk .a d && srcOk .f32 a && srcOk .f32 b
  | .faddF16Bf16 t d a b => dstOk .a d && srcOk t.constTy a && srcOk t.constTy b
  | .faddF64 d a b => dst64Ok d && src64Ok a && src64Ok b
  | .faddFp8 t d a b => dstOk .a d && srcOk t.constTy a && srcOk t.constTy b
  | .fsubF32 d a b => dstOk .a d && srcOk .f32 a && srcOk .f32 b
  | .fsubF16Bf16 t d a b => dstOk .a d && srcOk t.constTy a && srcOk t.constTy b
  | .fsubF64 d a b => dst64Ok d && src64Ok a && src64Ok b
  | .fsubFp8 t d a b => dstOk .a d && srcOk t.constTy a && srcOk t.constTy b
  | .fmulF32 d a b => dstOk .a d && srcOk .f32 a && srcOk .f32 b
  | .fmulF16Bf16 t d a b => dstOk .a d && srcOk t.constTy a && srcOk t.constTy b
  | .fmulF64 d a b => dst64Ok d && src64Ok a && src64Ok b
  | .fmulFp8 t d a b => dstOk .a d && srcOk t.constTy a && srcOk t.constTy b
  | .fminF32 d a b => dstOk .a d && srcOk .f32 a && srcOk .f32 b
  | .fminF16Bf16 t d a b => dstOk .a d && srcOk t.constTy a && srcOk t.constTy b
  | .fminF64 d a b => dst64Ok d && src64Ok a && src64Ok b
  | .fminFp8 t d a b => dstOk .a d && srcOk t.constTy a && srcOk t.constTy b
  | .fmaxF32 d a b => dstOk .a d && srcOk .f32 a && srcOk .f32 b
  | .fmaxF16Bf16 t d a b => dstOk .a d && srcOk t.constTy a && srcOk t.constTy b
  | .fmaxF64 d a b => dst64Ok d && src64Ok a && src64Ok b
  | .fmaxFp8 t d a b => dstOk .a d && srcOk t.constTy a && srcOk t.constTy b
  | .fabsF32 d a => dstOk .a d && srcOk .f32 a
  | .fabsF16Bf16 t d a => dstOk .a d && srcOk t.constTy a
  | .fabsF64 d a => dst64Ok d && src64Ok a
  | .fabsFp8 t d a => dstOk .a d && srcOk t.constTy a
  | .fnegF32 d a => dstOk .a d && srcOk .f32 a
  | .fnegF16Bf16 t d a => dstOk .a d && srcOk t.constTy a
  | .fnegF64 d a => dst64Ok d && src64Ok a
  | .fnegFp8 t d a => dstOk .a d && srcOk t.constTy a
  | .fsatF32 d a => dstOk .a d && srcOk .f32 a
  | .fsatF16Bf16 t d a => dstOk .a d && srcOk t.constTy a
  | .fsatF64 d a => dst64Ok d && src64Ok a
  | .fsatFp8 t d a => dstOk .a d && srcOk t.constTy a
  | .frndF32 _ d a => dstOk .a d && srcOk .f32 a
  | .frndF16Bf16 t _ d a => dstOk .a d && srcOk t.constTy a
  | .frndF64 _ d a => dst64Ok d && src64Ok a
  | .fdivF32 d a b => dstOk .a d && srcOk .f32 a && srcOk .f32 b
  | .fdivF64 d a b => dst64Ok d && src64Ok a && src64Ok b
  | .fsqrtF32 d a => dstOk .a d && srcOk .f32 a
  | .fsqrtF64 d a => dst64Ok d && src64Ok a
  | .ffmaF32 d a b => dstOk .a d && srcOk .f32 a && srcOk .f32 b
  | .ffmsF32 d a b => dstOk .a d && srcOk .f32 a && srcOk .f32 b
  | .ffnmaF32 d a b => dstOk .a d && srcOk .f32 a && srcOk .f32 b
  | .ffmaF16 d a b => dstOk .a d && srcOk .f16 a && srcOk .f16 b
  | .ffmaBf16 d a b => dstOk .a d && srcOk .bf16 a && srcOk .bf16 b
  | .ffmaF64 d a b => dst64Ok d && src64Ok a && src64Ok b
  | .fdot2F16 d a b => dstOk .a d && srcOk .f16 a && srcOk .f16 b
  | .fdot2Bf16 d a b => dstOk .a d && srcOk .bf16 a && srcOk .bf16 b
  | .fdot4E4m3 d a b => dstOk .a d && srcOk .e4m3 a && srcOk .e4m3 b
  | .fdot4E5m2 d a b => dstOk .a d && srcOk .e5m2 a && srcOk .e5m2 b
  | .idot4Ii d a b => dstOk .a d && srcOk .i8 a && srcOk .i8 b
  | .idot4In d a b => dstOk .a d && srcOk .i8 a && srcOk .n8 b
  | .idot4Ni d a b => dstOk .a d && srcOk .n8 a && srcOk .i8 b
  | .idot4Nn d a b => dstOk .a d && srcOk .n8 a && srcOk .n8 b
  | .iadd d a b => dstOk .b d && srcOk .raw a && srcOk .raw b
  | .isub d a b => dstOk .b d && srcOk .raw a && srcOk .raw b
  | .imul d a b => dstOk .b d && srcOk .raw a && srcOk .raw b
  | .imulhI32 d a b => dstOk .b d && srcOk .raw a && srcOk .raw b
  | .imulhN32 d a b => dstOk .b d && srcOk .raw a && srcOk .raw b
  | .imad d a b => dstOk .b d && srcOk .raw a && srcOk .raw b
  | .iminI32 d a b => dstOk .b d && srcOk .raw a && srcOk .raw b
  | .imaxI32 d a b => dstOk .b d && srcOk .raw a && srcOk .raw b
  | .iminN32 d a b => dstOk .b d && srcOk .raw a && srcOk .raw b
  | .imaxN32 d a b => dstOk .b d && srcOk .raw a && srcOk .raw b
  | .iabs d a => dstOk .b d && srcOk .raw a
  | .ineg d a => dstOk .b d && srcOk .raw a
  | .iaddV t d a b => dstOk .b d && srcOk t.constTy a && srcOk t.constTy b
  | .isubV t d a b => dstOk .b d && srcOk t.constTy a && srcOk t.constTy b
  | .imulV t d a b => dstOk .b d && srcOk t.constTy a && srcOk t.constTy b
  | .iminV t d a b => dstOk .b d && srcOk t.constTy a && srcOk t.constTy b
  | .imaxV t d a b => dstOk .b d && srcOk t.constTy a && srcOk t.constTy b
  | .iabsV t d a => dstOk .b d && srcOk t.constTy a
  | .and d a b => dstOk .b d && srcOk .raw a && srcOk .raw b
  | .or d a b => dstOk .b d && srcOk .raw a && srcOk .raw b
  | .xor d a b => dstOk .b d && srcOk .raw a && srcOk .raw b
  | .not d a => dstOk .b d && srcOk .raw a
  | .andn d a b => dstOk .b d && srcOk .raw a && srcOk .raw b
  | .shl d a b => dstOk .b d && srcOk .raw a && srcOk .raw b
  | .shr d a b => dstOk .b d && srcOk .raw a && srcOk .raw b
  | .sar d a b => dstOk .b d && srcOk .raw a && srcOk .raw b
  | .bfeI d a b => dstOk .b d && srcOk .raw a && srcOk .raw b
  | .bfeN d a b => dstOk .b d && srcOk .raw a && srcOk .raw b
  | .bfi d a b => dstOk .b d && srcOk .raw a && srcOk .raw b
  | .popc d a => dstOk .b d && srcOk .raw a
  | .clz d a => dstOk .b d && srcOk .raw a
  | .brev d a => dstOk .b d && srcOk .raw a
  | .bperm d a b => dstOk .b d && srcOk .raw a && srcOk .raw b
  | .fcmp _ _ a b => srcOk .f32 a && srcOk .f32 b
  | .icmpI32 _ _ a b => srcOk .i32 a && srcOk .i32 b
  | .icmpN32 _ _ a b => srcOk .n32 a && srcOk .n32 b
  | .tabs t _ a => srcOk t.constTy a
  | .cvtF32F16 d a => dstOk .f d && srcOk .f16 a
  | .cvtF32Bf16 d a => dstOk .f d && srcOk .bf16 a
  | .cvtF32E4m3 d a => dstOk .f d && srcOk .e4m3 a
  | .cvtF32E5m2 d a => dstOk .f d && srcOk .e5m2 a
  | .cvtF16F32 d a => dstOk .f d && srcOk .f32 a
  | .cvtBf16F32 d a => dstOk .f d && srcOk .f32 a
  | .cvtE4m3F32 d a => dstOk .f d && srcOk .f32 a
  | .cvtE5m2F32 d a => dstOk .f d && srcOk .f32 a
  | .cvtF64F32 d a => dst64Ok d && srcOk .f32 a
  | .cvtF32F64 d a => dstOk .f d && src64Ok a
  | .cvtF32I32 d a => dstOk .f d && srcOk .i32 a
  | .cvtF32N32 d a => dstOk .f d && srcOk .n32 a
  | .cvtI32F32 d a => dstOk .f d && srcOk .f32 a
  | .cvtN32F32 d a => dstOk .f d && srcOk .f32 a
  | .cvtI32I8 d a => dstOk .f d && srcOk .i8 a
  | .cvtI32N8 d a => dstOk .f d && srcOk .n8 a
  | .cvtI8I32 d a => dstOk .f d && srcOk .i32 a
  | .cvtN8I32 d a => dstOk .f d && srcOk .i32 a
  | .cvtpk d a b => dstOk .f d && srcOk .f32 a && srcOk .f32 b
  | .cvtup t e d a => dstOk .f d && srcOk t.constTy a && (!t.is16 || decide (e.toNat < 2))
  | .tunpk d a k => dstOk .f d && srcOk .raw a && decide (k.toNat ≤ 4)
  | .frcp d a => dstOk .f d && srcOk .f32 a
  | .frsq d a => dstOk .f d && srcOk .f32 a
  | .fexp2 d a => dstOk .f d && srcOk .f32 a
  | .flog2 d a => dstOk .f d && srcOk .f32 a
  | .fsin d a => dstOk .f d && srcOk .f32 a
  | .fcos d a => dstOk .f d && srcOk .f32 a
  | .ftanh d a => dstOk .f d && srcOk .f32 a
  | .fsigm d a => dstOk .f d && srcOk .f32 a
  | .shfl d a b => dstOk .m d && srcOk .raw a && srcOk .raw b
  | .shflup d a b => dstOk .m d && srcOk .raw a && srcOk .raw b
  | .shfldn d a b => dstOk .m d && srcOk .raw a && srcOk .raw b
  | .shflx d a b => dstOk .m d && srcOk .raw a && srcOk .raw b
  | .bcast d a => dstOk .m d && srcOk .raw a
  | .ballot d _ => dstOk .m d
  | .vany d _ => dstOk .m d
  | .vall d _ => dstOk .m d
  | .wredAddF32 d a => dstOk .m d && srcOk .f32 a
  | .wredMaxF32 d a => dstOk .m d && srcOk .f32 a
  | .wredAddI32 d a => dstOk .m d && srcOk .i32 a
  | .wscanAddF32 d a => dstOk .m d && srcOk .f32 a
  | .wscanAddI32 d a => dstOk .m d && srcOk .i32 a
  | .lanes d => dstOk .m d
  | .mov d a => dstOk .b d && srcOk .raw a
  | .sel d p a b => dstOk .b d && srcOk .raw a && srcOk .raw b && decide (p.toNat ≠ 0)
  | .toabs t d a _ => dstOk .b d && srcOk t.constTy a
  | .defabs t d a b => dstOk .b d && srcOk t.constTy a && srcOk t.constTy b
  | .plog o _ _ b => (o != .not || b == 0)
  | .gtag _ _ => true
  | .mkg d a => dstOk .b d && srcOk .raw a
  | .iaddi d a _ => dstOk .b d && srcOk .raw a
  | .andi d a _ => dstOk .b d && srcOk .raw a
  | .ori d a _ => dstOk .b d && srcOk .raw a
  | .xori d a _ => dstOk .b d && srcOk .raw a
  | .shli d a _ => dstOk .b d && srcOk .raw a
  | .shri d a _ => dstOk .b d && srcOk .raw a
  | .sari d a _ => dstOk .b d && srcOk .raw a
  | .movi d _ => dstOk .b d
  | .sadd _ _ _ => true
  | .ssub _ _ _ => true
  | .smul _ _ _ => true
  | .smulhI _ _ _ => true
  | .smulhN _ _ _ => true
  | .sminI _ _ _ => true
  | .smaxI _ _ _ => true
  | .sminN _ _ _ => true
  | .smaxN _ _ _ => true
  | .sand _ _ _ => true
  | .sor _ _ _ => true
  | .sxor _ _ _ => true
  | .sshl _ _ _ => true
  | .sshr _ _ _ => true
  | .ssar _ _ _ => true
  | .sbfeI _ _ _ => true
  | .sbfeN _ _ _ => true
  | .sbfi _ _ _ => true
  | .spopc _ _ => true
  | .sclz _ _ => true
  | .sadd64 d a b => evenIdx d && evenIdx a && evenIdx b
  | .ssub64 d a b => evenIdx d && evenIdx a && evenIdx b
  | .sshl64 d a _ => evenIdx d && evenIdx a
  | .scmpEq _ _ _ => true
  | .scmpLtI _ _ _ => true
  | .scmpLtN _ _ _ => true
  | .saddi _ _ _ => true
  | .sandi _ _ _ => true
  | .sori _ _ _ => true
  | .sxori _ _ _ => true
  | .sshli _ _ _ => true
  | .sshri _ _ _ => true
  | .ssari _ _ _ => true
  | .scmpiLt _ _ _ => true
  | .smovi _ _ => true
  | .srd _ _ => true
  | .swr n _ => sregWritable n
  | .vtos _ _ _ => true
  | .stov _ _ => true
  | .smovw _ _ => true
  | .bdset _ a c => evenIdx a && evenIdx c
  | .slui _ _ => true
  | .bra _ => true
  | .bpt _ _ _ => true
  | .bpf _ _ _ => true
  | .bany _ _ => true
  | .ball _ _ => true
  | .bnz _ _ => true
  | .bz _ _ => true
  | .jmp _ => true
  | .loop v _ n => decide (v.toNat < 3) && decide (n.toNat ≠ 0) && decide (n.toNat ≤ 256)
  | .loopi v c n => decide (v.toNat < 3) && decide (n.toNat ≠ 0) && decide (n.toNat ≤ 256) && decide (c.toNat ≠ 0)
  | .lbrk v => decide (v.toNat < 3)
  | .nop => true
  | .rcv _ => true
  | .call _ => true
  | .callr _ => true
  | .ret => true
  | .jr _ => true
  | .yield _ l => decide (l.toNat ≤ 64)
  | .yieldc _ _ _ _ _ n _ => decide (n.toNat ≤ 64)
  | .exit => true
  | .trap _ => true
  | .wait _ _ _ _ => true
  | .barinit _ _ _ _ => true
  | .barexp _ _ _ => true
  | .bararr _ _ _ => true
  | .barwait _ _ _ => true
  | .bartry _ _ _ _ => true
  | .ringinit _ _ c _ => evenIdx c
  | .awaitf _ _ _ _ => true
  | .rels _ _ => true
  | .wgbar => true
  | .ldg z _ _ d _ v _ => ldDstOk z d && noLatchOp v
  | .stg z _ _ _ v _ d => stSrcOk z d && noLatchOp v
  | .ldsp z _ d _ v _ => ldDstOk z d && noLatchOp v
  | .ldcl z _ d _ v _ => ldDstOk z d && noLatchOp v
  | .ldst z _ d _ v _ => ldDstOk z d && noLatchOp v
  | .ldlp z _ d _ v _ => ldDstOk z d && noLatchOp v
  | .stsp z _ _ v _ d => stSrcOk z d && noLatchOp v
  | .stcl z _ _ v _ d => stSrcOk z d && noLatchOp v
  | .stst z _ _ v _ d => stSrcOk z d && noLatchOp v
  | .stlp z _ _ v _ d => stSrcOk z d && noLatchOp v
  | .ldb z _ _ d _ v _ => ldDstOk z d && noLatchOp v
  | .stb z _ _ _ v _ d => stSrcOk z d && noLatchOp v
  | .aadd _ t d _ v => atOpOk t d && noLatchOp v
  | .amin _ t d _ v => t != .b64 && atOpOk t d && noLatchOp v
  | .amax _ t d _ v => t != .b64 && atOpOk t d && noLatchOp v
  | .aand _ t d _ v => t != .f32 && atOpOk t d && noLatchOp v
  | .aor _ t d _ v => t != .f32 && atOpOk t d && noLatchOp v
  | .axor _ t d _ v => t != .f32 && atOpOk t d && noLatchOp v
  | .axch _ t d _ v => atOpOk t d && noLatchOp v
  | .acas _ t d _ v => casOpOk t d && noLatchOp v
  | .aacc _ d _ v => accOpOk d && noLatchOp v
  | .ainc _ _ d _ v => atOpOk .i32 d && noLatchOp v
  | .aaddSpace _ _ t d v => atOpOk t d && noLatchOp v
  | .aminSpace _ _ t d v => t != .b64 && atOpOk t d && noLatchOp v
  | .amaxSpace _ _ t d v => t != .b64 && atOpOk t d && noLatchOp v
  | .aandSpace _ _ t d v => t != .f32 && atOpOk t d && noLatchOp v
  | .aorSpace _ _ t d v => t != .f32 && atOpOk t d && noLatchOp v
  | .axorSpace _ _ t d v => t != .f32 && atOpOk t d && noLatchOp v
  | .axchSpace _ _ t d v => atOpOk t d && noLatchOp v
  | .acasSpace _ _ t d v => casOpOk t d && noLatchOp v
  | .aaccSpace _ _ d v => accOpOk d && noLatchOp v
  | .aincSpace _ _ _ d v => atOpOk .i32 d && noLatchOp v
  | .fence _ _ => true
  | .cprf _ a _ => evenIdx a
  | .cflush a _ => evenIdx a
  | .sld _ a _ => evenIdx a
  | .sst a _ _ => evenIdx a
  | .cpyG2s _ src len _ obj _ _ _ mc ring fill => evenIdx src && !(mc && ring) && (!ring || obj != 0) && (!fill || evenIdx len)
  | .cpyG2c _ src len _ obj _ _ _ ring fill => evenIdx src && (!ring || obj != 0) && (!fill || evenIdx len)
  | .cpyG2t _ src len _ _ _ _ _ fill => evenIdx src && (!fill || evenIdx len)
  | .cpyS2g dst _ _ _ _ _ _ _ => evenIdx dst
  | .cpyC2s _ _ _ _ obj _ _ _ mc ring => !(mc && ring) && (!ring || obj != 0)
  | .cpyS2c _ _ _ _ obj _ _ _ ring => (!ring || obj != 0)
  | .cpym dst src len _ _ _ _ _ fill => evenIdx dst && evenIdx src && (!fill || evenIdx len)
  | .cpyx _ _ _ _ obj _ _ _ ring => (!ring || obj != 0)
  | .cpyg _ _ len _ obj _ _ stride ring fill => stride == 0 && (!ring || obj != 0) && (!fill || evenIdx len)
  | .cred dst src _ _ _ _ _ _ => evenIdx dst && evenIdx src
  | .cpycan _ _ _ => true
  | .mres _ _ => true
  | .mfree _ => true
  | .mld q _ s _ => (q != .global || evenIdx s)
  | .mscl _ _ _ => true
  | .mgang _ _ => true
  | .mshape m => decide (m.toNat ≠ 0)
  | .mls _ s c o => (s || (c == 0 && o == 0))
  | .mswap => true
  | .mma _ _ _ _ _ _ _ _ => true
  | .mdrain _ _ _ _ _ => true
  | .mtab _ => true
  | .mzero _ => true
  | .mfill _ _ => true
  | .mredAdd t d a => decide (d.toNat ≤ 62) && srcOk t.constTy a && noLatchOp a
  | .mscanAdd t d a => decide (d.toNat ≤ 62) && srcOk t.constTy a && noLatchOp a
  | .launch _ a _ => evenIdx a
  | .commit => true
  | .spgrow _ _ => true
  | .lpgrow _ _ => true
  | .qwait _ => true
  | .allow a => evenIdx a
  | .tret => true
  | .pcsrr _ _ => true
  | .pcsrw _ _ => true
  | .tinv a _ => evenIdx a
  | .rqrel a _ => evenIdx a
  | .hlt d => evenIdx d
  | .brk _ => true
  | .tmark _ => true
  | .clauseIssue _ => true
  | .issueWaitLimit _ => true
  | .ydl _ => true
  | .deferralSwitch _ => true
  | .loadComplete _ => true
  | .storeComplete _ => true
  | .atomicPerform _ => true
  | .replayStallResume _ => true
  | .parkedAccessReplay _ => true
  | .heldSliceIssue _ => true
  | .copyComplete _ => true
  | .copyFailure _ _ => true
  | .credComplete _ => true
  | .engineDeferredAccept _ => true
  | .arbiterGrant _ _ => true
  | .arbiterAgeLimit _ _ => true
  | .mswapBandSwap _ _ _ => true
  | .engineOpComplete _ _ => true
  | .mldFailure _ _ => true
  | .mldStrictFmtf _ _ => true
  | .bandRailWake _ _ => true
  | .bandRailGate _ _ => true
  | .queueRecordConsume _ _ => true
  | .contextChoice _ => true
  | .placement _ _ => true
  | .teamSwapOut _ => true
  | .workgroupRetire _ => true
  | .hang _ => true
  | .sampleTick _ => true
  | .emergencyRelease => true
  | .noticeReceive _ _ => true
  | .migrationStart _ _ => true
  | .migrationArrival _ => true
  | .smLoopPass _ _ => true
  | .smhbTimeout => true
  | .islandTarget _ => true
  | .voltageRampDone _ => true
  | .settleDone _ => true
  | .frequencySwitch _ => true
  | .acq _ => true
  | .rel _ => true
  | .dzHb _ => true
  | .leaseLapse => true
  | .privRegisterWrite _ _ _ => true
  | .create _ _ => true
  | .suspend _ _ => true
  | .resume _ _ => true
  | .tear _ _ => true
  | .preemptionTimeout _ => true
  | .workgroupSave _ => true
  | .contextSaveComplete _ => true
  | .tearComplete _ => true
  | .hostRqrel _ _ _ => true
  | .tagCountWrite _ _ _ => true
  | .granuleTag _ => true
  | .attestationRequest _ _ => true
  | .attestationComplete => true
  | .stop _ _ _ => true
  | .stopSettled _ => true
  | .debugResume _ _ => true
  | .step _ _ => true
  | .stepall _ _ => true
  | .debugEdit _ _ _ => true
  | .debugRevoke _ _ _ => true
  | .traceFrame => true
  | .histogramRequest _ _ => true
  | .clr _ _ => true
  | .hostAccess _ => true
  | .credBlock _ => true
  | .linkKeying _ => true
  | .flitAuthFailure _ => true
  | .patrolScrub _ => true
  | .reset _ => true
  | .descriptorPublish _ => true
  | .destinationWrite _ => true
  | .saveBlockTransfer _ => true
  | .linkLevelRetry _ => true

end Sys2Proof
end

