-- ==== Sys2Proof/Machine/Operands.lean ====
section
/-! DEFINITION. Vector operands: every operand form as a lane value (R41, R138, R139), result tags (R42), and the store of a
vector result with its tag, its latch and its flags (R44, R45, R135, R155). -/

namespace Sys2Proof.Machine

/-- A 16-bit or 8-bit code repeated in every element of a word (R138). -/
def rep16 (c : Nat) : Word := BitVec.ofNat 32 (c + 65536 * c)
def rep8 (c : Nat) : Word := BitVec.ofNat 32 (c + 256 * c + 65536 * c + 16777216 * c)

/-- The absent code of a type, in every element of a word (R41, R60). -/
def absentWord : ConstTy → Word
  | .f32 | .raw | .f64 => 0xFF800001
  | .f16 => rep16 0xFC01
  | .bf16 => rep16 0xFF81
  | .e4m3 | .e5m2 | .i8 => rep8 0x80
  | .i32 => 0x80000000
  | .n32 | .n8 => 0xFFFFFFFF
  | .i16 => rep16 0x8000

/-- A constant in a type, in every element of a word (R138).  The lane index has no word of its own, and a constant that a type
refuses reads zero: `WellFormed` lets no instruction name it. -/
def constWord : ConstTy → VConst → Word
  | t, .absent => absentWord t
  | _, .zero | _, .lane => 0
  | .f32, .one | .f64, .one => 0x3F800000
  | .f32, .negOne | .f64, .negOne => 0xBF800000
  | .f32, .half | .f64, .half => 0x3F000000
  | .f32, .two | .f64, .two => 0x40000000
  | .f16, .one => rep16 0x3C00
  | .f16, .negOne => rep16 0xBC00
  | .f16, .half => rep16 0x3800
  | .f16, .two => rep16 0x4000
  | .bf16, .one => rep16 0x3F80
  | .bf16, .negOne => rep16 0xBF80
  | .bf16, .half => rep16 0x3F00
  | .bf16, .two => rep16 0x4000
  | .e4m3, .one => rep8 0x38
  | .e4m3, .negOne => rep8 0xB8
  | .e4m3, .half => rep8 0x30
  | .e4m3, .two => rep8 0x40
  | .e5m2, .one => rep8 0x3C
  | .e5m2, .negOne => rep8 0xBC
  | .e5m2, .half => rep8 0x38
  | .e5m2, .two => rep8 0x40
  | .i32, .one | .n32, .one | .raw, .one => 1
  | .i32, .two | .n32, .two | .raw, .two => 2
  | .i16, .one => rep16 1
  | .i16, .two => rep16 2
  | .i8, .one | .n8, .one => rep8 1
  | .i8, .two | .n8, .two => rep8 2
  | .i32, .negOne | .i16, .negOne | .i8, .negOne | .raw, .negOne => 0xFFFFFFFF
  | .n32, .negOne | .n8, .negOne => 0
  | .i32, .half | .n32, .half | .i16, .half | .i8, .half | .n8, .half | .raw, .half => 0

/-- A constant in binary64 (R139), by word: the low word, then the high word. -/
def constPair : VConst → Word × Word
  | .zero | .lane => (0, 0)
  | .one => (0, 0x3FF00000)
  | .negOne => (0, 0xBFF00000)
  | .half => (0, 0x3FE00000)
  | .two => (0, 0x40000000)
  | .absent => (1, 0xFFF00000)

/-- The number of a latch in the issue. -/
def latchNum : Latch → Nat
  | .a => 0
  | .b => 1
  | .m => 2
  | .f => 3

/-- The words of a latch. -/
def Issue.latch (i : Issue) (l : Latch) (lanes : Nat) : List Word := (tabGet i.latches (latchNum l)).getD (List.replicate lanes 0)

/-- An operand as a tagged register (R42): broadcasts and constants are U, the lane index is A, operand registers and latches
are G. -/
def readOp (t : Team) (i : Issue) (ty : ConstTy) : VOp → VReg
  | .v n => t.vreg n.toNat
  | .s n => .uniform (t.sreg n.toNat)
  | .o n => .general (t.oreg n.toNat)
  | .latch l => .general (i.latch l t.lanes)
  | .const .lane => .affine 0 1
  | .const c => .uniform (constWord ty c)

/-- The tag of an operand; an absent register's code is kept apart (R41). -/
def VReg.tag : VReg → Tag
  | .absent => .x
  | .uniform _ => .u
  | .affine _ _ => .a
  | .general _ => .g

/-- The words of a register for lanes 0 to `n` − 1. -/
def VReg.words (r : VReg) (absent : Word) (n : Nat) : List Word :=
  match r with
  | .absent => List.replicate n absent
  | .uniform w => List.replicate n w
  | .affine b st => (List.range n).map fun l => b + BitVec.ofNat 32 l * st
  | .general ws => (List.range n).map fun l => ws.getD l 0

/-- The words an instruction of a type reads from an operand. -/
def Cur.words (c : Cur) (ty : ConstTy) (x : VOp) : List Word := (readOp c.t c.i ty x).words (absentWord ty) c.t.lanes

/-- The operand one register on: the odd half of a pair (R139). -/
def vopNext : VOp → VOp
  | .v n => .v (n + 1)
  | .s n => .s (n + 1)
  | .o n => .o (n + 1)
  | x => x

/-- The 64-bit values an f64 instruction reads from a pair (R139): an absent half reads its half of the absent code, and a
broadcast `s`n reads `x`(n/2), so `s0` reads the pair that always reads zero. -/
def Cur.pairs (c : Cur) (x : VOp) : List Word64 :=
  let n := c.t.lanes
  match x with
  | .const k => let (lo, hi) := constPair k; List.replicate n (hi ++ lo)
  | .s k => List.replicate n (c.t.xreg (k.toNat / 2))
  | _ =>
    List.zipWith (fun lo hi => hi ++ lo) ((readOp c.t c.i .f64 x).words 1 n) ((readOp c.t c.i .f64 (vopNext x)).words 0xFFF00000 n)

/-- How an instruction's result tag follows from its operands' (R42). -/
inductive TagRule where
  | plain | alwaysG | sum | product | affine | keep
deriving DecidableEq, Repr

/-- Whether a tag counts as U (R41). -/
def Tag.isU : Tag → Bool
  | .u | .x => true
  | _ => false

/-- The result tag of R42. -/
def resultTag (full : Bool) (rule : TagRule) (tags : List Tag) : Tag :=
  let allU := tags.all Tag.isU
  let ua := tags.all fun t => t.isU || t == .a
  if !full then .g
  else match rule with
    | .alwaysG => .g
    | .keep => match tags with | t :: _ => t | [] => .u
    | .sum | .affine => if allU then .u else if ua then .a else .g
    | .product => if allU then .u else if ua && (tags.filter fun t => t == .a).length == 1 then .a else .g
    | .plain => if allU then .u else .g

/-- A mask is full when it is a team's own with every lane active (R42). -/
def Entity.maskFull (e : Entity) (lanes : Nat) : Bool := !e.isFrag && e.mask == fullMask lanes

/-- A vector result: where it goes, its latch, the rule of its tag, and the operands the rule looks at (R42, R135). -/
structure VRes where
  dst : List VOp
  latch : Option Latch
  rule : TagRule
  srcs : List VOp

/-- The result tag of a vector result in a team's registers. -/
def VRes.tag (r : VRes) (e : Entity) (t : Team) (i : Issue) : Tag :=
  resultTag (e.maskFull t.lanes) r.rule (r.srcs.map fun x => (readOp t i .raw x).tag)

/-- The vector registers of a team that hold tag G, or that a VX clause in issue will turn to G (R44, R158). -/
def State.gRegs (s : State) (tid : Nat) (t : Team) : List Nat :=
  let reserved := (s.entsOf tid).flatMap fun x => match x.2.issue with | some i => i.claimed | none => []
  (List.range 64).filter fun n => (t.vreg n).isG || reserved.contains n

/-- Whether the check made at the issue of the current clause found that its current word would pass the grant (R44). -/
def Cur.pastGrant (c : Cur) : Bool := c.i.xreg == some (c.i.next + 1)

/-- Whether a vector result would raise the count of G registers above the grant (R44). -/
def grantPassed (grant : Nat) (held : List Nat) (tag : Tag) (dst : List VOp) : Bool :=
  let claims := if tag == .g then dst.filterMap fun d => match d with
    | .v n => if held.contains n.toNat then none else some n.toNat
    | _ => none else []
  !claims.isEmpty && decide (grant < held.length + claims.length)

/-- How many words of an entity's lanes hold an active one: the passes of a vector instruction (R18). -/
def Cur.passes (c : Cur) : Nat := ((List.range 32).filter fun w => maskWord c.e.mask w != 0).length

/-- Whether the flags of a vector instruction wait for the last pass of its clause (R18, R54): it is not the first pass's alone. -/
def Cur.flagsWait (c : Cur) : Bool := c.i.cls == .vx && decide (1 < c.passes)

/-- The state with the flags of a vector instruction raised as it completes: at once, or with the clause's last pass (log 7). -/
def Cur.raiseAfter (c : Cur) (s : State) (fl : Word) : State :=
  if c.flagsWait then c.modIssue s fun i => { i with flagsLate := i.flagsLate ||| fl }
  else s.modTeam c.e.team fun t => t.raiseFlags fl

/-- The words a destination held before a write (R45).  Where it was code 0b11, which has no type, a lane that is not written
turns into the absent code of the destination's type, and for a load or an atomic into 0xFF800001 (log 29). -/
def Cur.oldWords (c : Cur) (ty : ConstTy) (d : VOp) : List Word := c.words ty d

/-- A vector's words as a register of a tag: base and stride are what lanes 0 and 1 hold (R42). -/
def tagged (tag : Tag) (ws : List Word) : VReg :=
  match tag with
  | .u => .uniform (ws.getD 0 0)
  | .a => .affine (ws.getD 0 0) (ws.getD 1 0 - ws.getD 0 0)
  | .g => .general ws
  | .x => .absent

/-- The state with a vector result of the current word stored in one destination. -/
def Cur.storeOne (c : Cur) (s : State) (tag : Tag) (d : VOp) (ws : List Word) : State :=
  match d with
  | .v n => s.modTeam c.e.team fun t => t.setV n.toNat (tagged tag ws)
  | .o n => s.modTeam c.e.team fun t => t.setO n.toNat ws
  | _ => s

/-- The state with a latch of the clause in issue written (R135): only a VX clause has latches. -/
def Cur.storeLatch (c : Cur) (s : State) (l : Option Latch) (ws : List Word) : State :=
  match l with
  | some k => if c.i.cls == .vx then c.modIssue s fun i => { i with latches := tabPut i.latches (latchNum k) ws } else s
  | none => s

/-- Apply a lane function to the active lanes of three operands, the others keeping their old words; the flags are ORed. -/
def lanes3 (m : BitVec 1024) (f : Word → Word → Word → Word × Word) :
    Nat → List Word → List Word → List Word → List Word → List Word × Word
  | l, a :: as, b :: bs, d :: ds, o :: os =>
    let (ws, fl) := lanes3 m f (l + 1) as bs ds os
    if m.getLsbD l then
      let (r, g) := f a b d
      (r :: ws, fl ||| g)
    else (o :: ws, fl)
  | _, _, _, _, _ => ([], 0)

/-- The same on 64-bit values. -/
def lanes3d (m : BitVec 1024) (f : Word64 → Word64 → Word64 → Word64 × Word) :
    Nat → List Word64 → List Word64 → List Word64 → List Word64 → List Word64 × Word
  | l, a :: as, b :: bs, d :: ds, o :: os =>
    let (ws, fl) := lanes3d m f (l + 1) as bs ds os
    if m.getLsbD l then
      let (r, g) := f a b d
      (r :: ws, fl ||| g)
    else (o :: ws, fl)
  | _, _, _, _, _ => ([], 0)

/-- The common end of a vector word (R44, R155): nothing where no lane is active (R19), exhaustion where the check at the clause's
issue found the grant passed, or the results stored, the flags raised and the word done. -/
def Cur.vecEnd (c : Cur) (s : State) (r : VRes) (results : List (List Word)) (flags : Word) : State :=
  if c.e.mask = 0 then c.advance s 1
  else
    let tag := r.tag c.e c.t c.i
    if c.pastGrant then c.exhaust s cXREG
    else
      let s := (r.dst.zip results).foldl (fun s x => c.storeOne s tag x.1 x.2) s
      let s := c.storeLatch s r.latch (results.getD 0 [])
      c.advance (c.raiseAfter s flags) 1

/-- A vector instruction on 32-bit lane words: `f` takes a, b and the destination's old word. -/
def Cur.vec (c : Cur) (s : State) (r : VRes) (ty : ConstTy) (d : VOp) (a b : ConstTy × VOp)
    (f : Word → Word → Word → Word × Word) : State :=
  let old := c.oldWords ty d
  let (ws, fl) := lanes3 c.e.mask f 0 (c.words a.1 a.2) (c.words b.1 b.2) old old
  c.vecEnd s r [ws] fl

/-- A vector instruction on 64-bit lane values in pairs (R139). -/
def Cur.vec64 (c : Cur) (s : State) (r : VRes) (d a b : VOp) (f : Word64 → Word64 → Word64 → Word64 × Word) : State :=
  let old := c.pairs d
  let (ws, fl) := lanes3d c.e.mask f 0 (c.pairs a) (c.pairs b) old old
  c.vecEnd s r [ws.map fun w => w.setWidth 32, ws.map fun (w : Word64) => (w >>> 32).setWidth 32] fl

/-- A result in a destination of 32 bits, and in a pair. -/
def res32 (l : Latch) (rule : TagRule) (d : VOp) (srcs : List VOp) : VRes := { dst := [d], latch := some l, rule := rule, srcs := srcs }
def res64 (d : VOp) (srcs : List VOp) : VRes :=
  { dst := [d, vopNext d], latch := none, rule := .plain, srcs := srcs.flatMap fun x => [x, vopNext x] }

end Sys2Proof.Machine
end

