-- ==== Sys2Proof/Machine/Special.lean ====
section
/-! DEFINITION. The special functions (R177, R178): the exact value to within 2^-90, the results the error bound allows, and
the free choice among them (log 8). -/

namespace Sys2Proof.Machine

/-- π in units of 2^-400, and ln 2 in units of 2^-200, both rounded down. -/
def piFixed : Nat := 0x3243f6a8885a308d313198a2e03707344a4093822299f31d0082efa98ec4e6c89452821e638d01377be5466cf34e90c6cc0ac
def ln2Fixed : Nat := 0xb17217f7d1cf79abc9e3b39803f2f6af40f343267298b62d8a

/-- An exact real to within 2^24 units: `val` units of 2^`exp`. -/
structure Approx where
  val : Int
  exp : Int

/-- How far an approximation may be from the real it stands for, in its own units. -/
def approxSlack : Int := 16777216

/-- The terms of a power series in a fixed-point argument: term k + 1 is term k times `y` over `den k`, in units of 2^-200. -/
def series (y : Int) (den : Nat → Nat) : Nat → Nat → Int → Int
  | 0, _, t => t
  | n + 1, k, t => t + series y den n (k + 1) (t * y / ((2 : Int) ^ 200 * den k))

/-- e^y for a fixed-point y of magnitude at most 1, in units of 2^-200. -/
def expFixed (y : Int) : Int := series y (fun k => k + 1) 60 0 ((2 : Int) ^ 200)

/-- e^y for any fixed-point y in units of 2^-200: a power of two times e^r. -/
def expApprox (y : Int) : Approx :=
  let n := y / (ln2Fixed : Int)
  { val := expFixed (y - n * ln2Fixed), exp := n - 200 }

/-- sin and cos of a fixed-point angle of magnitude at most 1, in units of 2^-200. -/
def sinFixed (r : Int) : Int := series (-(r * r / (2 : Int) ^ 200)) (fun k => (2 * k + 2) * (2 * k + 3)) 30 0 r
def cosFixed (r : Int) : Int := series (-(r * r / (2 : Int) ^ 200)) (fun k => (2 * k + 1) * (2 * k + 2)) 30 0 ((2 : Int) ^ 200)

/-- sin x, or cos x with `q` = 1, of an exact dyadic x: the angle is reduced by multiples of π/2. -/
def sinApprox (q : Int) (neg : Bool) (m : Nat) (e : Int) : Approx :=
  let x : Int := (if neg then -1 else 1) * ((m : Int) * 2 ^ (e + 400).toNat)
  let k := (4 * x + piFixed) / (2 * (piFixed : Int))
  let r := (2 * x - k * piFixed) / (2 : Int) ^ 201
  let j := (k + q) % 4
  { val := if j = 0 then sinFixed r else if j = 1 then cosFixed r else if j = 2 then -sinFixed r else -cosFixed r, exp := -200 }

/-- The fraction bits of log2 of a fixed-point number in [1, 2), by squaring; units of 2^-256 in, one bit a step out. -/
def log2Bits : Nat → Nat → Nat → Nat
  | 0, _, acc => acc
  | n + 1, m, acc =>
    let sq := m * m / 2 ^ 256
    if 2 ^ 257 ≤ sq then log2Bits n (sq / 2) (2 * acc + 1) else log2Bits n sq (2 * acc)

/-- log2 of m · 2^e, for m not 0, in units of 2^-120. -/
def log2Approx (m : Nat) (e : Int) : Approx :=
  let b := bitLen m - 1
  { val := (e + b) * (2 : Int) ^ 120 + log2Bits 120 (m * 2 ^ (256 - b)) 0, exp := -120 }

/-- A fixed-point number, in units of 2^-200, from an exact dyadic, rounded down. -/
def toFixed (neg : Bool) (m : Nat) (e : Int) : Int :=
  let x := if 0 ≤ e + 200 then m * 2 ^ (e + 200).toNat else m / 2 ^ (-(e + 200)).toNat
  if neg then -(x : Int) else x

/-- 1 / (1 + e^-x) for x ≥ 0, and tanh x for x ≥ 0, in units of 2^-200. -/
def sigmFixed (y : Int) : Int :=
  let a := expApprox (-y)
  let t := a.val / (2 : Int) ^ (-(a.exp + 200)).toNat
  (2 : Int) ^ 400 / ((2 : Int) ^ 200 + t)
def tanhFixed (y : Int) : Int :=
  let a := expApprox (-(2 * y))
  let t := a.val / (2 : Int) ^ (-(a.exp + 200)).toNat
  ((2 : Int) ^ 200 - t) * (2 : Int) ^ 200 / ((2 : Int) ^ 200 + t)

/-- The place of a finite code in the order of values, −0 just below +0, and the code of a place. -/
def codeOrd (c : Nat) : Int := if c < 2147483648 then c else -((c - 2147483648 : Nat) : Int) - 1
def ordCode (i : Int) : Nat := if i < 0 then 2147483647 + i.natAbs else i.natAbs

/-- A sum of two dyadic numbers, rounded to binary32 in a mode, as its place in the order. -/
def roundedSum (rm : Rm) (a ea b eb : Int) : Int :=
  let base := if ea ≤ eb then ea else eb
  let v := a * (2 : Int) ^ (ea - base).toNat + b * (2 : Int) ^ (eb - base).toNat
  codeOrd (roundFin fmtF32 rm false (decide (v < 0)) v.natAbs base).1

/-- The error bound of a result (R177): `n` units in the last place of the exact value, or an absolute 2^`abs` where that is
larger, as a dyadic. -/
def errorBound (n : Nat) (abs : Option Int) (v : Approx) : Int × Int :=
  let top : Int := v.exp + bitLen (v.val.natAbs - approxSlack.natAbs) - 1
  let u : Int := (if top < -126 then -126 else top) - 23
  match abs with
  | some a => if (n : Int) * 2 ^ (u + 200).toNat < 2 ^ (a + 200).toNat then (1, a) else (n, u)
  | none => (n, u)

/-- One of the codes within an error bound of a value and within a range (R177, R178), chosen freely, of the two zeros either where
0 is within the bound; where no code is within the bound the spec states no result and the whole word is free (log 8). -/
def chooseSpecial (fn : Nat) (x : Word) (v : Approx) (bound : Int × Int) (lo hi : Int) : Word :=
  let a := roundedSum .up (v.val + approxSlack) v.exp (-bound.1) bound.2
  let a := if a = 0 then -1 else a
  let b := roundedSum .dn (v.val - approxSlack) v.exp bound.1 bound.2
  let a := if a < lo then lo else a
  let b := if hi < b then hi else b
  if b < a then BitVec.ofNat 32 (Config.specialChoice fn x)
  else BitVec.ofNat 32 (ordCode (a + ((Config.specialChoice fn x % ((b - a).toNat + 1) : Nat) : Int)))

/-- The largest finite code's place, and that of 1.0. -/
def ordMax : Int := 0x7F7FFFFF
def ordOne : Int := 0x3F800000

/-- A power of two as a binary32 value, where it has one. -/
def pow2Code (neg : Bool) (e : Int) : Word := BitVec.ofNat 32 (roundFin fmtF32 .ne false neg 1 e).1

/-- A result whose exact value is beyond every finite binary32 value (R66): the infinity or the largest finite value of its sign, a
free choice, since no mode governs it (log 8). -/
def overflowSpecial (fn : Nat) (x : Word) (n : Bool) : Word :=
  (if n then 0x80000000 else 0) ||| (if Config.specialChoice fn x % 2 = 0 then 0x7F800000 else 0x7F7FFFFF)

/-- Whether a number is a power of two. -/
def isPow2 (m : Nat) : Bool := m != 0 && m == 2 ^ (bitLen m - 1)

/-- A special function of a present value that is no NaN, with its flags (R177). -/
def specialFin (fn : Nat) (x : Word) (z : Num) : Word × Word :=
  match fn, z with
  | 0, .inf n => (pow2Code n (-1000), 0)
  | 0, .fin n 0 _ => (if n then 0xFF800000 else 0x7F800000, flagDZ)
  | 0, .fin n m e =>
    if isPow2 m && decide (-(e + bitLen m - 1) ≤ 127) then (pow2Code n (-(e + bitLen m - 1)), 0)
    else if decide (e + bitLen m - 1 < -128) || isPow2 m then (overflowSpecial 0 x n, 0)
    else
      let v : Int := (2 : Int) ^ 260 / m
      let a : Approx := { val := if n then -v else v, exp := -260 - e }
      (chooseSpecial 0 x a (errorBound 1 none a) (-ordMax - 1) ordMax, 0)
  | 1, .inf false => (0, 0)
  | 1, .fin n 0 _ => (if n then 0xFF800000 else 0x7F800000, flagDZ)
  | 1, .inf true => (0x7FC00000, flagNV)
  | 1, .fin true _ _ => (0x7FC00000, flagNV)
  | 1, .fin false m e =>
    let top : Int := e + bitLen m - 1
    if isPow2 m && top % 2 == 0 then (pow2Code false (-(top / 2)), 0)
    else
      -- 1/√(m·2^e) in units of 2^-k: the root of 2^(2k) / (m·2^e)
      let h : Int := e / 2
      let n := m * 2 ^ (e - 2 * h).toNat
      let a : Approx := { val := isqrt (2 ^ 520 / n), exp := -260 - h }
      (chooseSpecial 1 x a (errorBound 1 none a) 0 ordMax, 0)
  | 2, .inf true => (0, 0)
  | 2, .inf false => (0x7F800000, 0)
  | 2, .fin n m e =>
    let y := toFixed n m e
    if (128 : Int) * 2 ^ 200 ≤ y then (0x7F800000, flagOF)
    else
      let fl := if y < -(126 : Int) * 2 ^ 200 then flagUF else 0
      let whole := m == 0 || decide (0 ≤ e) || m % 2 ^ (-e).toNat == 0
      if whole && decide (-(149 : Int) * 2 ^ 200 ≤ y) then (pow2Code false (y / 2 ^ 200), fl)
      else
        let i := y / (2 : Int) ^ 200
        let r := y - i * (2 : Int) ^ 200
        let i := if i < -400 then -400 else i
        let a : Approx := { val := expFixed (r * ln2Fixed / (2 : Int) ^ 200), exp := i - 200 }
        (chooseSpecial 2 x a (errorBound 2 none a) 0 ordMax, fl)
  | 3, .inf false => (0x7F800000, 0)
  | 3, .inf true => (0x7FC00000, flagNV)
  | 3, .fin _ 0 _ => (0xFF800000, flagDZ)
  | 3, .fin true _ _ => (0x7FC00000, flagNV)
  | 3, .fin false m e =>
    let top : Int := e + bitLen m - 1
    if isPow2 m then (BitVec.ofNat 32 (roundNum fmtF32 .ne false (numOfInt top)).1, 0)
    else
      let a := log2Approx m e
      let near := top == 0 || top == -1
      (chooseSpecial 3 x a (errorBound 2 (if near then some (-22) else none) a) (-ordMax - 1) ordMax, 0)
  | 4, .fin n 0 _ => (if n then 0x80000000 else 0, 0)
  | 4, .inf _ => (0x7FC00000, flagNV)
  | 4, .fin n m e => (chooseSpecial 4 x (sinApprox 0 n m e) (1, -21) (-ordOne - 1) ordOne, 0)
  | 5, .fin _ 0 _ => (0x3F800000, 0)
  | 5, .inf _ => (0x7FC00000, flagNV)
  | 5, .fin n m e => (chooseSpecial 5 x (sinApprox 1 n m e) (1, -21) (-ordOne - 1) ordOne, 0)
  | 6, .fin n 0 _ => (if n then 0x80000000 else 0, 0)
  | 6, .inf n => (if n then 0xBF800000 else 0x3F800000, 0)
  | 6, .fin n m e =>
    let y := toFixed false m e
    let t := tanhFixed (if (100 : Int) * 2 ^ 200 < y then 100 * 2 ^ 200 else y)
    let a : Approx := { val := if n then -t else t, exp := -200 }
    (chooseSpecial 6 x a (errorBound 2 (some (-22)) a) (-ordOne - 1) ordOne, 0)
  | _, .fin _ 0 _ => (0x3F000000, 0)
  | _, .inf n => (if n then 0 else 0x3F800000, 0)
  | _, .fin n m e =>
    let y := toFixed false m e
    let t := sigmFixed (if (200 : Int) * 2 ^ 200 < y then 200 * 2 ^ 200 else y)
    let a : Approx := { val := if n then (2 : Int) ^ 200 - t else t, exp := -200 }
    (chooseSpecial 7 x a (errorBound 2 (some (-23)) a) 0 ordOne, 0)
  | _, _ => (0x7FC00000, 0)

/-- One lane of a special function (R177, R178). -/
def special (fn : Nat) (x : Word) : Word × Word :=
  match numOf fmtF32 x.toNat with
  | .absent => (0xFF800001, 0)
  | .nan s => (0x7FC00000, sigFlag (.nan s))
  | z => specialFin fn x z

end Sys2Proof.Machine
end

