-- ==== Sys2Proof/Machine/VFun.lean ====
section
/-! DEFINITION. The lane functions of the vector families: packed elements, integers, bits, conversions (R159 to R176). -/

namespace Sys2Proof.Machine

/-- A function of elements applied to every element of width `w` of three words, `k` elements from element `i` on (R61, R79). -/
def elemsFrom (w : Nat) (f : Nat → Nat → Nat → Nat × Word) (a b d : Nat) : Nat → Nat → Nat × Word
  | _, 0 => (0, 0)
  | i, k + 1 =>
    let (r, fl) := f (a / 2 ^ (w * i) % 2 ^ w) (b / 2 ^ (w * i) % 2 ^ w) (d / 2 ^ (w * i) % 2 ^ w)
    let (rs, fs) := elemsFrom w f a b d (i + 1) k
    (r % 2 ^ w * 2 ^ (w * i) + rs, fl ||| fs)

def elems (w : Nat) (f : Nat → Nat → Nat → Nat × Word) (a b d : Word) : Word × Word :=
  let (r, fl) := elemsFrom w f a.toNat b.toNat d.toNat 0 (32 / w)
  (BitVec.ofNat 32 r, fl)

/-- The elements of a word. -/
def elemList (w : Nat) (a : Word) : List Nat := (List.range (32 / w)).map fun i => a.toNat / 2 ^ (w * i) % 2 ^ w

/-- The same for one 64-bit element. -/
def elem64 (f : Nat → Nat → Nat → Nat × Word) (a b d : Word64) : Word64 × Word :=
  let (r, fl) := f a.toNat b.toNat d.toNat
  (BitVec.ofNat 64 r, fl)

/-- The format of a type. -/
def halfFmt : HalfT → FFmt
  | .f16 => fmtF16
  | .bf16 => fmtBf16
def fp8Fmt : Fp8T → FFmt
  | .e4m3 => fmtE4m3
  | .e5m2 => fmtE5m2

/-- Signed and unsigned readings of a raw word. -/
def rawInt (a : Word) : Int := a.toInt
def high (x : Int) : Word := BitVec.ofInt 32 (x / 4294967296)

/-- The shifts of R166: the count is b[5:0]. -/
def shlWord (a : Word) (n : Nat) : Word := if 32 ≤ n then 0 else a <<< n
def shrWord (a : Word) (n : Nat) : Word := if 32 ≤ n then 0 else a >>> n
def sarWord (a : Word) (n : Nat) : Word := a.sshiftRight (if 32 ≤ n then 31 else n)
def shiftCount (b : Word) : Nat := b.toNat % 64

/-- The number of 1 bits, and of leading zeros, of a word (R166). -/
def popcWord (a : Word) : Word := BitVec.ofNat 32 ((List.range 32).filter fun i => a.getLsbD i).length
def clzWord (a : Word) : Word := BitVec.ofNat 32 (32 - bitLen a.toNat)
def brevWord (a : Word) : Word :=
  BitVec.ofNat 32 ((List.range 32).foldl (fun x i => if a.getLsbD i then x + 2 ^ (31 - i) else x) 0)

/-- The bit-field forms (R167): offset b[4:0], width b[13:8], cut at bit 31. -/
def bfWidth (b : Word) : Nat :=
  let w := b.toNat / 256 % 64
  if w < 32 - b.toNat % 32 then w else 32 - b.toNat % 32
def bfeN (a b : Word) : Word := BitVec.ofNat 32 (a.toNat / 2 ^ (b.toNat % 32) % 2 ^ bfWidth b)
def bfeI (a b : Word) : Word :=
  if bfWidth b = 0 then 0 else BitVec.ofInt 32 (intVal (bfWidth b) (a.toNat / 2 ^ (b.toNat % 32) % 2 ^ bfWidth b))
def bfi (a b d : Word) : Word :=
  let m := BitVec.ofNat 32 ((2 ^ bfWidth b - 1) * 2 ^ (b.toNat % 32))
  (d &&& ~~~m) ||| ((a <<< (b.toNat % 32)) &&& m)

/-- `bperm` (R168). -/
def bpermWord (a b : Word) : Word :=
  BitVec.ofNat 32 ((List.range 4).foldl (fun x i =>
    let s := b.toNat / 2 ^ (8 * i) % 16
    let byte (j : Nat) : Nat := a.toNat / 2 ^ (8 * j) % 256
    let r := if s < 4 then byte s else if s < 8 then (if 128 ≤ byte (s - 4) then 255 else 0) else 0
    x + r * 2 ^ (8 * i)) 0)

/-- Raw signed and unsigned order (R164). -/
def minI (a b : Word) : Word := if b.slt a then b else a
def maxI (a b : Word) : Word := if a.slt b then b else a
def minN (a b : Word) : Word := if b.ult a then b else a
def maxN (a b : Word) : Word := if a.ult b then b else a
def absI (a : Word) : Word := if a.slt 0 then -a else a

/-- The operations of opcode 0x08 (R165). -/
inductive VIOp where
  | add | sub | mul | min | max | abs
deriving DecidableEq, Repr

/-- One element of a value-integer instruction (R165): the skip class, but `mul` and `abs` propagate. -/
def valueInt (f : IFmt) (op : VIOp) (a b : Nat) : Nat × Word :=
  match op, f.val a, f.val b with
  | .abs, some x, _ => f.sat (if x < 0 then -x else x)
  | .abs, none, _ => (f.absent, 0)
  | .mul, some x, some y => f.sat (x * y)
  | .mul, _, _ => (f.absent, 0)
  | .add, some x, some y => f.sat (x + y)
  | .sub, some x, some y => f.sat (x - y)
  | .min, some x, some y => f.sat (if y < x then y else x)
  | .max, some x, some y => f.sat (if x < y then y else x)
  | .sub, none, some y => f.sat (-y)
  | _, none, some _ => (b, 0)
  | _, some _, none => (a, 0)
  | _, none, none => (f.absent, 0)

/-- The integer format of a value type. -/
def valFmt : ValT → IFmt
  | .i32 => ifmtI32
  | .i16 => ifmtI16
  | .i8 => ifmtI8
  | .n8 => ifmtN8

/-- One lane of an integer dot form (R163). -/
def idot4 (fa fb : IFmt) (a b d : Word) : Word × Word :=
  let prods := ((elemList 8 a).zip (elemList 8 b)).filterMap fun (x, y) =>
    match fa.val x, fb.val y with
    | some p, some q => some (p * q)
    | _, _ => none
  match ifmtI32.val d.toNat with
  | none => if prods.isEmpty then (d, 0) else let (r, fl) := ifmtI32.sat prods.sum; (BitVec.ofNat 32 r, fl)
  | some c => if prods.isEmpty then (d, 0) else let (r, fl) := ifmtI32.sat (prods.sum + c); (BitVec.ofNat 32 r, fl)

/-- The ordered result of a condition (R77). -/
def condOrd (c : Cond) (lt eq : Bool) : Bool :=
  match c with
  | .eq => eq
  | .ne => !eq
  | .lt => lt
  | .le => lt || eq
  | .gt => !lt && !eq
  | .ge => !lt
  | .un | .abs => false

/-- A float compare (R77): quiet, but a signalling NaN raises NV. -/
def floatCmp (c : Cond) (a b : Word) : Bool × Word :=
  let x := numOf fmtF32 a.toNat
  let y := numOf fmtF32 b.toNat
  let fl := sigFlag x ||| sigFlag y
  let r :=
    if x.isAbsent || y.isAbsent then
      (match c with
       | .ne | .abs => true
       | .un => x.isNan || y.isNan
       | _ => false)
    else if x.isNan || y.isNan then (match c with | .ne | .un => true | _ => false)
    else condOrd c (ltNum x y) (eqNum x y)
  (r, fl)

/-- A value-integer compare (R77). -/
def intCmp (f : IFmt) (c : Cond) (a b : Word) : Bool :=
  match f.val a.toNat, f.val b.toNat with
  | some x, some y => condOrd c (decide (x < y)) (decide (x = y))
  | _, _ => match c with | .ne | .abs => true | _ => false

/-- The width and absent code of the elements of a type of R170. -/
def absInfo : AbsT → Nat × Nat
  | .f32 => (32, 0xFF800001)
  | .f16 => (16, 0xFC01)
  | .bf16 => (16, 0xFF81)
  | .e4m3 | .e5m2 | .i8 => (8, 0x80)
  | .i32 => (32, 0x80000000)
  | .n8 => (8, 0xFF)

/-- Whether every element of a word is absent (R170), a word of absent elements (R181), and their replacement (R182). -/
def allAbsent (t : AbsT) (a : Word) : Bool := (elemList (absInfo t).1 a).all fun x => x == (absInfo t).2
def absentOf (t : AbsT) : Word := (elems (absInfo t).1 (fun _ _ _ => ((absInfo t).2, 0)) 0 0 0).1
def defAbsent (t : AbsT) (a b : Word) : Word :=
  (elems (absInfo t).1 (fun x y _ => (if x = (absInfo t).2 then y else x, 0)) a b 0).1

/-- A conversion between float formats (R172). -/
def floatCvt (fi fo : FFmt) (rm : Rm) (sat : Bool) (c : Nat) : Nat × Word :=
  let z := numOf fi c
  let (r, fl) := roundNum fo rm sat z
  (r, fl ||| sigFlag z)

/-- A conversion from an integer of values (R172). -/
def fromInt (f : IFmt) (rm : Rm) (c : Nat) : Nat × Word :=
  match f.val c with
  | none => (fmtF32.absent, 0)
  | some x => roundNum fmtF32 rm false (numOfInt x)

/-- A conversion to an integer (R173): toward zero; out of range saturates with NV. -/
def toInt (f : IFmt) (c : Nat) : Nat × Word :=
  match numOf fmtF32 c with
  | .absent => (f.absent, 0)
  | .nan _ => (0, flagNV)
  | .inf n => let (r, fl) := f.sat (if n then f.lo - 1 else f.hi + 1); (r, fl ||| flagNV)
  | .fin n m e =>
    let (q, ix) := toInteger .tz n m e
    let nx := if ix then flagNX else 0
    let (r, fl) := f.sat q
    (r, nx ||| fl ||| (if fl = 0 then 0 else flagNV))

/-- An integer of values converted to another type (R172). -/
def intCvt (fi fo : IFmt) (c : Nat) : Nat × Word :=
  match fi.val c with
  | none => (fo.absent, 0)
  | some x => fo.sat x

/-- The conversion of one element of `cvtup` (R175). -/
def upCvt (t : UpT) (c : Nat) : Nat × Word :=
  match t with
  | .f16 => floatCvt fmtF16 fmtF32 .ne false (c % 65536)
  | .bf16 => floatCvt fmtBf16 fmtF32 .ne false (c % 65536)
  | .e4m3 => floatCvt fmtE4m3 fmtF32 .ne false (c % 256)
  | .e5m2 => floatCvt fmtE5m2 fmtF32 .ne false (c % 256)
  | .i8 => intCvt ifmtI8 ifmtI32 (c % 256)
  | .n8 => intCvt ifmtN8 ifmtI32 (c % 256)

/-- A trit of a TERN5 byte outside strict mode (R70, R176). -/
def tritOf (v k : Nat) : Word × Word :=
  if v < 243 then ((match v / 3 ^ k % 3 with | 0 => 0 | 1 => 1 | _ => 0xFFFFFFFF), 0)
  else (0x80000000, if v = 243 then 0 else flagFMT)

/-- A lane function that raises no flag, and one on codes. -/
def quiet (f : Word → Word → Word → Word) : Word → Word → Word → Word × Word := fun a b d => (f a b d, 0)
def coded (p : Nat × Word) : Word × Word := (BitVec.ofNat 32 p.1, p.2)

end Sys2Proof.Machine
end

