-- ==== Sys2Proof/Machine/Control.lean ====
section
/-! DEFINITION. Branches, divergence and reconvergence, calls, loops, yields and exits, opcodes 0x14 to 0x16 (R23 to R26,
R194 to R203). -/

namespace Sys2Proof.Machine

/-! ### Branches -/

/-- A uniform branch (R194): taken to an address, or on to the next clause. -/
def Cur.choose (c : Cur) (s : State) (taken : Bool) (a : Word64) : State := if taken then c.branch s a else c.finish s

/-- `bra` (R194). -/
def execBra (o : BitVec 12) (s : State) : Host.Outcome State Fault Refusal :=
  withCur s fun c => c.choose s true (c.target o.toInt)

/-- `jmp` (R194): the second word is the offset. -/
def execJmp (w : BitVec 32) (s : State) : Host.Outcome State Fault Refusal :=
  withCur s fun c => c.choose s true (c.target w.toInt)

/-- `bnz` (R194). -/
def execBnz (r : BitVec 6) (o : BitVec 12) (s : State) : Host.Outcome State Fault Refusal :=
  withCur s fun c => c.choose s (c.t.sreg r.toNat != 0) (c.target o.toInt)

/-- `bz` (R194). -/
def execBz (r : BitVec 6) (o : BitVec 12) (s : State) : Host.Outcome State Fault Refusal :=
  withCur s fun c => c.choose s (c.t.sreg r.toNat == 0) (c.target o.toInt)

/-- `bany` (R194): an empty lane set falls through (R19). -/
def execBany (p : BitVec 3) (o : BitVec 12) (s : State) : Host.Outcome State Fault Refusal :=
  withCur s fun c => c.choose s (c.e.mask &&& c.t.preg p.toNat != 0) (c.target o.toInt)

/-- `ball` (R194): an empty lane set is taken (R19). -/
def execBall (p : BitVec 3) (o : BitVec 12) (s : State) : Host.Outcome State Fault Refusal :=
  withCur s fun c => c.choose s (c.e.mask &&& ~~~c.t.preg p.toNat == 0) (c.target o.toInt)

/-- How many deferral slots count before a switch (R25). -/
def switchLimit : Nat := 256

/-- The new fragment of a divergence (R23, R199): a minority that took the branch keeps only the levels its target lies in.  It is in no
handler, so a pending halt stops it (R370). -/
def Cur.fragment (c : Cur) (entry k : Nat) (mask : BitVec 1024) (a : Word64) (taken : Bool) (before : List Nat) : Entity :=
  let ls := if taken then keepLevels a c.e.loops else c.e.loops
  { team := c.e.team, parent := some c.eid, entry := entry, token := k, mask := mask, pc := a, word := 0,
    issue := none, loops := ls, inherited := ls.length, slots := [], handler := none, snap := none, hold := none,
    arrived := none, waits := 0, ready := 0, stopped := c.e.haltNext, haltNext := false
    parkedPc := none, after := before }

/-- The majority of a divergence goes on: its clause retires, and it stands at the target or at the next clause. -/
def Cur.majority (c : Cur) (s : State) (mask : BitVec 1024) (taken : Bool) (a : Word64) : State :=
  let s := s.modEnt c.eid fun e => { e with mask := mask }
  if taken then c.branch s a else c.finish s

/-- A divergent branch (R23, R25, R199): the smaller side, the taken side on a tie, detaches, or is deferred where the split
table is full.  What the entity has still to perform happens before everything on both paths (R119). -/
def Cur.diverge (c : Cur) (s : State) (k : Nat) (t f : BitVec 1024) (a : Word64) : State :=
  let sendTaken := decide (popCount t ≤ popCount f)
  let (mino, minPc, majo) := if sendTaken then (t, a, f) else (f, c.i.after, t)
  let before := s.unperformed c.eid
  let keep (s : State) : State := s.modEnt c.eid fun e => { e with after := before }
  if !sendTaken && c.e.loops.any (fun l => l.stop == c.i.after) then c.illop s
  else match s.freeEntryOf (s.coreOf c.t) c.t.part with
    | some entry =>
      let (id, s) := s.fresh
      c.majority (keep { s with ents := tabPut s.ents id (c.fragment entry k mino minPc sendTaken before) }) majo (!sendTaken) a
    | none =>
      if (tabGet c.e.slots k).isSome then c.illop s
      else
        let (id, s) := s.fresh
        let sl : Slot := { mask := mino, pc := minPc, count := 0, opened := id, arrived := false }
        c.majority ((keep s).modEnt c.eid fun e => { e with slots := tabPut e.slots k sl }) majo (!sendTaken) a

/-- `bpt` and `bpf` with the lanes for which the branch is taken (R23). -/
def Cur.perLane (c : Cur) (s : State) (k : Nat) (t : BitVec 1024) (a : Word64) : State :=
  let f := c.e.mask &&& ~~~t
  if t = 0 then c.finish s
  else if f = 0 then c.branch s a
  else c.diverge s k t f a

/-- `bpt` (R23, R194). -/
def execBpt (p : BitVec 3) (k : BitVec 4) (o : BitVec 12) (s : State) : Host.Outcome State Fault Refusal :=
  withCur s fun c => c.perLane s k.toNat (c.e.mask &&& c.t.preg p.toNat) (c.target o.toInt)

/-- `bpf` (R23, R194). -/
def execBpf (p : BitVec 3) (k : BitVec 4) (o : BitVec 12) (s : State) : Host.Outcome State Fault Refusal :=
  withCur s fun c => c.perLane s k.toNat (c.e.mask &&& ~~~c.t.preg p.toNat) (c.target o.toInt)

/-! ### Reconvergence (R24, R25) -/

/-- The fragments of an entity that it detached and that have not ended. -/
def State.kids (s : State) (eid : Nat) : List (Nat × Entity) := s.ents.filter fun x => x.2.parent == some eid

/-- An operation, or a parked entry, of one entity given to another. -/
def MemOp.reown (o : MemOp) (k p : Nat) : MemOp := if o.ent = k then { o with ent := p } else o
def ReplayEntry.reown (r : ReplayEntry) (k p : Nat) : ReplayEntry := if r.ent = k then { r with ent := p } else r

/-- The state with one fragment merged into its parent (R24): its lanes come back, and its accesses are the parent's (R26). -/
def State.mergeKid (s : State) (eid : Nat) (kid : Nat × Entity) : State :=
  let s := { s with
    ents := tabDel s.ents kid.1
    ops := s.ops.map fun (x : Nat × MemOp) => (x.1, x.2.reown kid.1 eid)
    replay := s.replay.map fun (x : Nat × ReplayEntry) => (x.1, x.2.reown kid.1 eid) }
  s.modEnt eid fun e => { e with mask := e.mask ||| kid.2.mask }

/-- A parent's `rcv` (R24): it waits until every fragment of the token has stopped, and takes them in.  What it and they have still to
perform happens before everything after (R26, R119). -/
def Cur.gather (c : Cur) (s : State) (k : Nat) (done : State → State) : State :=
  let kids := (s.kids c.eid).filter fun x => x.2.token == k
  if kids.isEmpty then done s
  else if kids.all fun x => x.2.hold == some .merge then
    let before := s.unperformed c.eid ++ kids.flatMap fun x => s.unperformed x.1
    done ((kids.foldl (fun s x => s.mergeKid c.eid x) s).modEnt c.eid fun e => { e with after := before })
  else c.holdAt s .rcv

/-- An entity's paths of the divergence in slot `k` are exchanged (R25): it leaves its clause at `rcv`, or stands before one. -/
def Entity.exchange (e : Entity) (k : Nat) (sl : Slot) (pc : Word64) (arrived : Bool) : Entity :=
  { e with mask := sl.mask, pc := sl.pc
           slots := tabPut e.slots k { sl with mask := e.mask, pc := pc, count := 0, arrived := arrived, minority := !sl.minority } }

/-- What an `rcv` does once nothing of its token is left to take in (R24): a fragment of that token stops, when its own paths and
fragments have come together (log 32); any other entity goes on. -/
def Cur.stopOrPass (c : Cur) (s : State) (n : Nat) : State :=
  match tabGet s.ents c.eid with
  | none => s
  | some e =>
    let orphan := match e.parent with | some p => (tabGet s.ents p).isNone | none => false
    if e.isFrag && !orphan && e.token == n && !e.slots.any (·.2.minority) then
      if e.inherited < e.loops.length then c.illop s
      else match e.innermost with
        | some (j, sl) =>
          if sl.arrived then c.holdAt s .rcv
          else ((s.retireClause c.eid c.e c.i).modEnt c.eid fun e => e.exchange j sl c.i.pc false).settle c.e.team
        | none => if (s.kids c.eid).isEmpty then c.holdAt s .merge else c.holdAt s .rcv
    else c.advance s 1

/-- `rcv` (R24, R25, R50). -/
def execRcv (k : BitVec 4) (s : State) : Host.Outcome State Fault Refusal :=
  withCur s fun c =>
    let n := k.toNat
    match tabGet c.e.slots n with
    | some sl =>
      if sl.arrived then
        c.gather s n fun s =>
          let before := s.unperformed c.eid
          c.stopOrPass (s.modEnt c.eid fun e => ({ e with mask := e.mask ||| sl.mask, after := before }).closeSlot n) n
      else ((s.retireClause c.eid c.e c.i).modEnt c.eid fun e => e.exchange n sl c.i.pc true).settle c.e.team
    | none => c.gather s n fun s => c.stopOrPass s n

/-! ### LANE memory and calls (R91, R195, R196) -/

/-- Where a byte of a lane's region lies in the team's LANE table. -/
def laneKey (lane off : Nat) : Nat := lane * 4294967296 + off

/-- Bytes of a lane's region as a number, and the region with bytes written. -/
def Team.laneRead (t : Team) (lane off n : Nat) : Nat :=
  leNat ((List.range n).map fun i => (tabGet t.laneMem (laneKey lane (off + i))).getD 0)
def Team.laneWrite (t : Team) (lane off n x : Nat) : Team :=
  { t with laneMem := ((leBytes n x).zipIdx).foldl (fun m b => tabPut m (laneKey lane (off + b.2)) b.1) t.laneMem }

/-- A lane's call depth (R195). -/
def Team.depth (t : Team) (laneMax lane : Nat) : Nat := if laneMax < 8 then 0 else t.laneRead lane (laneMax - 8) 4

/-- The frame lanes of an entity (R195): its active lanes, or lane 0 where it has none. -/
def Cur.frames (c : Cur) : List Nat := if c.e.mask = 0 then [0] else lanesOf c.e.mask c.t.lanes

/-- The reserved LANE size of the current grid (R92). -/
def Cur.laneMax (c : Cur) (s : State) : Nat := match s.gridOf c.t with | some g => g.rcd.laneMax | none => 0

/-- A call to an address (R196): XLANE before anything is written. -/
def Cur.call (c : Cur) (s : State) (a : Word64) : State :=
  let m := c.laneMax s
  if c.frames.any fun l => m < c.t.laneSize + 8 * (c.t.depth m l + 2) then c.exhaust s cXLANE
  else
    let s := s.modTeam c.e.team fun t => c.frames.foldl (fun t l =>
      let d := c.t.depth m l
      (t.laneWrite l (m - 16 - 8 * d) 8 c.i.after.toNat).laneWrite l (m - 8) 4 (d + 1)) t
    c.jump s a

/-- `call` (R196). -/
def execCall (w : BitVec 32) (s : State) : Host.Outcome State Fault Refusal :=
  withCur s fun c => c.call s (c.target w.toInt)

/-- `callr` (R196): ALGN where the address is no word's (R130). -/
def execCallr (x : BitVec 5) (s : State) : Host.Outcome State Fault Refusal :=
  withCur s fun c =>
    let a := c.t.xreg x.toNat
    if a.toNat % 4 ≠ 0 then c.raise s cALGN a.toNat else c.call s a

/-- `jr` (R196, R198): a jump closes the levels its target lies outside of. -/
def execJr (x : BitVec 5) (s : State) : Host.Outcome State Fault Refusal :=
  withCur s fun c =>
    let a := c.t.xreg x.toNat
    if a.toNat % 4 ≠ 0 then c.raise s cALGN a.toNat else c.branch s a

/-- `ret` (R196): the frame lanes must agree; the freed bytes are cleared. -/
def execRet (s : State) : Host.Outcome State Fault Refusal :=
  withCur s fun c =>
    let m := c.laneMax s
    let top (l : Nat) : Nat := c.t.laneRead l (m - 8 - 8 * c.t.depth m l) 8
    let a := top (c.frames.headD 0)
    if c.frames.any fun l => c.t.depth m l = 0 then c.illop s
    else if c.frames.any fun l => top l ≠ a then c.illop s
    else
      let s := s.modTeam c.e.team fun t => c.frames.foldl (fun t l =>
        let d := c.t.depth m l
        (t.laneWrite l (m - 8 - 8 * d) 8 0).laneWrite l (m - 8) 4 (d - 1)) t
      c.jump s (BitVec.ofNat 64 a)

/-! ### Loops (R197 to R199) -/

/-- The clause ends and its entity stands at an address with other loop levels. -/
def Cur.toLevels (c : Cur) (s : State) (ls : List LoopLevel) (a : Word64) : State :=
  ((s.retireClause c.eid c.e c.i).modEnt c.eid fun e => { e with loops := ls, pc := a }).settle c.e.team

/-- `loop` and `loopi` with the count (R198). -/
def Cur.openLoop (c : Cur) (s : State) (lvl : Nat) (n : Word) (len : Nat) : State :=
  let st := c.i.after
  let en := st + BitVec.ofNat 64 (4 * len)
  let outside : Bool := match c.e.loops.getLast? with
    | some l => decide (st.toNat < l.start.toNat) || decide (l.stop.toNat < en.toNat)
    | none => false
  if lvl ≠ c.e.loops.length || outside then c.illop s
  else if n = 0 then c.toLevels s c.e.loops en
  else c.toLevels s (c.e.loops ++ [{ count := n, start := st, stop := en }]) st

/-- `loop` (R198). -/
def execLoop (v : BitVec 2) (r : BitVec 6) (n : BitVec 10) (s : State) : Host.Outcome State Fault Refusal :=
  withCur s fun c => c.openLoop s v.toNat (c.t.sreg r.toNat) n.toNat

/-- `loopi` (R198). -/
def execLoopi (v : BitVec 2) (k : BitVec 8) (n : BitVec 10) (s : State) : Host.Outcome State Fault Refusal :=
  withCur s fun c => c.openLoop s v.toNat (k.setWidth 32) n.toNat

/-- `lbrk` (R198, R199): a fragment may not leave a level it inherited. -/
def execLbrk (v : BitVec 2) (s : State) : Host.Outcome State Fault Refusal :=
  withCur s fun c =>
    match c.e.loops[v.toNat]? with
    | some l =>
      if c.e.isFrag && decide (v.toNat < c.e.inherited) then c.illop s
      else c.toLevels s (c.e.loops.take v.toNat) l.stop
    | none => c.illop s

/-! ### Yields, waits, exits and traps (R200 to R203) -/

/-- `nop` (R200). -/
def execNop (s : State) : Host.Outcome State Fault Refusal := withCur s fun c => c.advance s 1

/-- What a yield does to its team (R201): LIVE, the deadline, and the offer to a pending save. -/
def State.yieldTeam (s : State) (tid dl live : Nat) : State :=
  s.modTeam tid fun t =>
    let stopping : Bool := match s.wgOf t with | some w => w.place == .stopping | none => false
    { t with live := live, deadline := 2 ^ (dl + 8), retired := 0, offered := stopping }

/-- `yield` (R201). -/
def execYield (d : BitVec 4) (l : BitVec 7) (s : State) : Host.Outcome State Fault Refusal :=
  withCur s fun c => c.finish (s.yieldTeam c.e.team d.toNat l.toNat)

/-- Whether the outstanding-operation counters of a team are within wait fields (R21, R203): 7 is no wait. -/
def Team.within (t : Team) (l st cp tl : Nat) : Bool :=
  (l == 7 || decide (t.cnt .ld ≤ l)) && (st == 7 || decide (t.cnt .st ≤ st)) && (cp == 7 || decide (t.cnt .cp ≤ cp)) &&
    (tl == 7 || decide (t.cnt .tl ≤ tl))

/-- `yieldc` (R201): it yields once, and waits for the counters; then it goes to its target as a branch does (R198, log 32). -/
def execYieldc (l st cp tl : BitVec 3) (d : BitVec 4) (n : BitVec 7) (o : BitVec 21) (s : State) :
    Host.Outcome State Fault Refusal :=
  withCur s fun c =>
    let s := if c.e.hold == some .yieldc then s else s.yieldTeam c.e.team d.toNat n.toNat
    if c.t.within l.toNat st.toNat cp.toNat tl.toNat then
      c.branch (if l = 7 ∧ st = 7 ∧ cp = 7 ∧ tl = 7 then s else s.observe c.t) (c.target o.toInt)
    else c.holdAt s .yieldc

/-- `wait` (R203); one that asks for no counter observes nothing (R126). -/
def execWait (l st cp tl : BitVec 3) (s : State) : Host.Outcome State Fault Refusal :=
  withCur s fun c =>
    if c.t.within l.toNat st.toNat cp.toNat tl.toNat then
      c.advance (if l = 7 ∧ st = 7 ∧ cp = 7 ∧ tl = 7 then s else s.observe c.t) 1
    else c.holdAt s .counters

/-- `exit` (R202): the running path ends, and with no deferred path left the entity. -/
def execExit (s : State) : Host.Outcome State Fault Refusal :=
  withCur s fun c => ((s.retireClause c.eid c.e c.i).endPath c.eid).settle c.e.team

/-- `trap` (R202): TRAP with the code; its resume point is the word after it. -/
def execTrap (i : BitVec 16) (s : State) : Host.Outcome State Fault Refusal :=
  withCur s fun c => c.raiseWith s { c.fault cTRAP 0 with code := i.toNat, resume := c.i.next + 2 }

end Sys2Proof.Machine
end

