-- ==== Sys2Proof/Machine/Image.lean ====
section
/-! DEFINITION. The team image (R57 to R59) and where the sections of a workgroup's save record lie (R344, log 15). -/

namespace Sys2Proof.Machine

/-- A number rounded up to a multiple of another, and bytes padded with zeros to a length. -/
def alignUp (n k : Nat) : Nat := ceilDiv n k * k
def padTo (n : Nat) (bs : List Byte) : List Byte := bs ++ List.replicate (n - bs.length) 0

/-- A bit mask as bytes, lane l at bit l mod 8 of byte l div 8 (R57). -/
def maskBytes (m : BitVec 1024) (lanes : Nat) : List Byte := leBytes (lanes / 8) m.toNat

/-- A mask record (R58). -/
def maskRecord (m : BitVec 1024) (pc : Word64) (last : Nat) : List Byte :=
  leBytes 4 (summary m) ++ leBytes 128 m.toNat ++ leBytes 8 pc.toNat ++ leBytes 4 last

/-- The words of R58 that follow the PC: token, parent ordinal, whether it is a deferral slot, resume word, and occupied slots. -/
def recordTail (token parent : Nat) (slot : Bool) (k occupied : Nat) : Nat :=
  token % 16 + 16 * (parent % 32) + (if slot then 512 else 0) + 1024 * (k % 16) + 65536 * (occupied % 65536)

/-- Where an entity resumes: its clause and the word in it, 0 before the header (R58); one at `rcv` is in its clause (log 15). -/
def Entity.resumeAt (e : Entity) : Word64 × Nat :=
  match e.issue with
  | some i => (i.pc, i.next + 1)
  | none => (e.pc, e.word)

/-- The entities of a team in the order of its image (R57): the team's own, where it has not exited (R202), and the fragments by rising
split-table index. -/
def State.imageLead (s : State) (tid : Nat) : Option (Nat × Entity) := (s.entsOf tid).find? fun x => !x.2.isFrag
def State.imageFrags (s : State) (tid : Nat) : List (Nat × Entity) :=
  (List.range 16).flatMap fun k => (s.entsOf tid).filter fun x => x.2.isFrag && x.2.entry == k

/-- The ordinal of an entity's record (R58): 0 is the team's, also where the team's own entity or another parent has ended. -/
def State.imageOrdinal (s : State) (tid k : Nat) : Nat :=
  let frags := (s.imageFrags tid).map (·.1)
  if frags.contains k then 1 + frags.findIdx (· == k) else 0

/-- An entity's records: its own, and its deferral slots by rising token (R57, R58); a slot's has parent 0 (log 50). -/
def State.entityRecords (s : State) (tid : Nat) (e : Entity) : List Byte :=
  let parent := match e.parent with | some p => s.imageOrdinal tid p | none => 0
  let (pc, k) := e.resumeAt
  let bitmap := (e.slots.map fun x => 2 ^ x.1).sum
  maskRecord e.mask pc (recordTail e.token parent false k bitmap) ++
    e.slots.flatMap fun x => maskRecord x.2.mask x.2.pc (recordTail x.1 0 true 0 0)

/-- A loop level of the image (R57). -/
def levelBytes : Option LoopLevel → List Byte
  | some l => leBytes 4 l.count.toNat ++ leBytes 4 1 ++ leBytes 8 l.start.toNat ++ leBytes 8 l.stop.toNat
  | none => leBytes 24 0

/-- The two tag bits of a register of an image; a register that is not LIVE is recorded as dead (R57). -/
def Team.tagCode (t : Team) (n : Nat) : Nat :=
  if t.live ≤ n then 3
  else match t.vreg n with
    | .absent => 3
    | .uniform _ => 0
    | .affine _ _ => 1
    | .general _ => 2

/-- A register's bytes in an image. -/
def VReg.image (r : VReg) : List Byte :=
  match r with
  | .absent => []
  | .uniform w => leBytes 4 w.toNat
  | .affine b st => leBytes 4 b.toNat ++ leBytes 4 st.toNat
  | .general ws => ws.flatMap fun w => leBytes 4 w.toNat

/-- The counter word of an image (R57). -/
def Team.cntWord (t : Team) : Nat :=
  t.cnt .ld % 64 + 256 * (t.cnt .st % 64) + 65536 * (t.cnt .cp % 64) + 16777216 * (t.cnt .tl % 64)

/-- The image after its header (R57).  A team whose own entity has exited keeps its record, with no lanes. -/
def State.imageBody (s : State) (tid : Nat) (t : Team) : List Byte :=
  let lead := s.imageLead tid
  let loops := match lead with | some x => x.2.loops | none => []
  (match lead with | some x => s.entityRecords tid x.2 | none => maskRecord 0 0 0) ++
  (s.imageFrags tid).flatMap (fun x => s.entityRecords tid x.2) ++
  (List.range 64).flatMap (fun n => leBytes 4 (t.sreg n).toNat) ++
  (List.range 8).flatMap (fun n => maskBytes (t.preg n) t.lanes) ++
  (List.range 3).flatMap (fun k => levelBytes loops[k]?) ++ leBytes 8 0 ++
  (List.range 16).flatMap (fun n => leBytes 8 (t.breg n).base.toNat ++ leBytes 4 (t.breg n).len.toNat ++ leBytes 4 (t.breg n).flags.toNat) ++
  (List.range (operandLimit t.lanes)).flatMap (fun n => (t.oreg n).flatMap fun w => leBytes 4 w.toNat) ++
  leBytes 16 ((List.range 64).map fun n => t.tagCode n * 4 ^ n).sum ++
  (List.range t.live).flatMap fun n => (t.vreg n).image

/-- The team image (R57). -/
def State.teamImage (s : State) (tid : Nat) (t : Team) : List Byte :=
  let body := s.imageBody tid t
  let frags := ((s.entsOf tid).filter fun x => x.2.isFrag).length
  leBytes 4 (1 + 256 * t.live + 65536 * (t.lanes / 32)) ++ leBytes 4 (t.teamId + 256 * frags + 65536 * t.grant) ++
    leBytes 4 t.mode.toNat ++ leBytes 4 t.flags.toNat ++ leBytes 4 t.cntWord ++ leBytes 4 (64 + body.length) ++
    leBytes 8 (t.deadline - t.retired) ++ leBytes 32 0 ++ body

/-! ### The save record's layout (R344) -/

/-- The teams of a workgroup in TEAMID order. -/
def State.teamsInOrder (s : State) (wid : Nat) : List (Nat × Team) :=
  (List.range 8).flatMap fun k => (s.teamsOf wid).filter fun t => t.2.teamId == k

/-- The parked entries of a workgroup, in the order in which they parked, and the bytes that one takes in the operand section. -/
def State.parkedOf (s : State) (wid : Nat) : List (Nat × ReplayEntry) :=
  s.replay.filter fun r => match tabGet s.teams r.2.team with | some t => t.wg == wid | none => false
def operandBytes (r : ReplayEntry) : Nat := 128 + r.bytes

/-- The image of a team in a save record, 16-byte aligned (R57). -/
def State.imageSize (s : State) (tid : Nat) (t : Team) : Nat := alignUp (s.teamImage tid t).length 16

/-- The bytes that the call area takes in each lane of a team's section: as many as its deepest lane needs (R195, R344). -/
def Team.callBytes (t : Team) (laneMax : Nat) : Nat :=
  match (List.range t.lanes).foldl (fun m l => Nat.max m (t.depth laneMax l)) 0 with
  | 0 => 0
  | d => 8 * (d + 1)

/-- The bytes of LANE memory that a team's section holds for each lane, and where byte `i` of that section lies: the lane's LANE
memory and then its call area, lane after lane (R344, log 15). -/
def Team.laneSpan (t : Team) (laneMax : Nat) : Nat := t.laneSize + t.callBytes laneMax
def Team.laneCell (t : Team) (laneMax i : Nat) : Nat :=
  let n := t.laneSpan laneMax
  laneKey (i / n) (if i % n < t.laneSize then i % n else laneMax - n + i % n)

/-- The LANE maximum of a workgroup's grid (R92). -/
def State.wgLaneMax (s : State) (w : Workgroup) : Nat := match tabGet s.grids w.grid with | some g => g.rcd.laneMax | none => 0

/-- The bytes of a workgroup's LANE section, and the team and key of byte `i` of it. -/
def State.laneTotal (s : State) (wid : Nat) (w : Workgroup) : Nat :=
  ((s.teamsInOrder wid).map fun t => t.2.laneSpan (s.wgLaneMax w) * t.2.lanes).sum
def laneCellIn (laneMax : Nat) : List (Nat × Team) → Nat → Option (Nat × Nat)
  | [], _ => none
  | t :: ts, i =>
    let n := t.2.laneSpan laneMax * t.2.lanes
    if i < n then some (t.1, t.2.laneCell laneMax i) else laneCellIn laneMax ts (i - n)

/-- The cluster launch of a workgroup, and whether the workgroup is the one whose record and moves carry its CLMEM (log 15). -/
def State.clusterOf (s : State) (w : Workgroup) : Option Cluster := w.cluster.bind (tabGet s.clusters)
def State.keepsClmem (s : State) (wid : Nat) (w : Workgroup) : Bool :=
  match s.clusterOf w with
  | some c => (c.wgs.find? fun k => (tabGet s.wgs k).isSome) == some wid
  | none => false
def State.clmemBytes (s : State) (wid : Nat) (w : Workgroup) : Nat :=
  if s.keepsClmem wid w then (match s.clusterOf w with | some c => c.size | none => 0) else 0

/-- Where the sections of a save record begin: parked accesses, operands, team images, LANE, SPAD, CLMEM, and the engine's or what
follows it. -/
def State.sections (s : State) (wid : Nat) (w : Workgroup) : List Nat :=
  let ts := s.teamsInOrder wid
  let parked := 256
  let operands := alignUp (parked + 64 * (s.parkedOf wid).length) 4096
  let images := alignUp (operands + ((s.parkedOf wid).map fun r => operandBytes r.2).sum) 4096
  let lane := alignUp (images + (ts.map fun t => s.imageSize t.1 t.2).sum) 4096
  let spad := alignUp (lane + s.laneTotal wid w) 4096
  let clmem := alignUp (spad + w.spadSize + ceilDiv (w.spadSize / 16) 8) 4096
  [parked, operands, images, lane, spad, clmem, alignUp (clmem + s.clmemBytes wid w) 4096]

/-- Where a team's image lies among the images of its workgroup, and in the workgroup's record. -/
def State.imageBefore (s : State) (wid tid : Nat) : Nat :=
  (((s.teamsInOrder wid).takeWhile fun t => t.1 != tid).map fun t => s.imageSize t.1 t.2).sum
def State.imageAt (s : State) (wid tid : Nat) (w : Workgroup) : Nat := (s.sections wid w).getD 2 0 + s.imageBefore wid tid

/-- The physical address of a workgroup's record (R344). -/
def State.recordAddr (s : State) (w : Workgroup) : Nat := (s.ctx w.ctx).ctxSave.toNat + w.saveAt

/-- A little-endian number of physical memory. -/
def State.physNat (s : State) (a n : Nat) : Nat := leNat (s.loadBytes (physOf a 0) n)

/-- Where a section of a record lies, as its header has it: parked accesses, operands, team images, LANE, SPAD, CLMEM, engine.  A
restore follows the header. -/
def State.recordSection (s : State) (w : Workgroup) (k : Nat) : Nat := s.physNat (s.recordAddr w + 76 + 4 * k) 4
def State.sectionAt (s : State) (wid : Nat) (w : Workgroup) (k : Nat) : Nat :=
  match w.place with
  | .restoring _ => s.recordSection w k
  | _ => (s.sections wid w).getD k 0

/-- Whether a workgroup's state has its landing in the save record. -/
def Workgroup.inRecord (w : Workgroup) : Bool :=
  match w.place with
  | .saving _ => true
  | .saved => true
  | _ => false

/-- Bytes written in the save area of a context; the save itself has faulted where that is no memory. -/
def State.areaWrite (s : State) (a : Nat) (bs : List Byte) : State :=
  if 2 ^ 48 < a + bs.length then s
  else (s.l1Evict s.l1Cols fun x => decide (a ≤ x) && decide (x < a + bs.length)).storeBytes (physOf a 0) bs

/-- Bytes of a save record, written where they lie. -/
def State.recordWrite (s : State) (w : Workgroup) (off : Nat) (bs : List Byte) : State := s.areaWrite (s.recordAddr w + off) bs

/-- The counter word of the image of a saved or a swapped-out team follows its counters (R59, R345). -/
def State.recount (s : State) (tid : Nat) : State :=
  match tabGet s.teams tid with
  | none => s
  | some t =>
    match tabGet s.wgs t.wg with
    | none => s
    | some w =>
      if w.inRecord then s.recordWrite w (s.imageAt t.wg tid w + 16) (leBytes 4 t.cntWord)
      else if t.swapped then s.areaWrite ((s.ctx w.ctx).ctxSave.toNat + t.imageAt + 16) (leBytes 4 t.cntWord)
      else s

/-! ### The 4 KiB blocks of the memories (R344, R345) -/

/-- The 4 KiB blocks of a workgroup's LANE section, of its SPAD and of its CLMEM, in the order of their transfer. -/
def State.blockCounts (s : State) (wid : Nat) (w : Workgroup) : Nat × Nat × Nat :=
  (ceilDiv (s.laneTotal wid w) 4096, ceilDiv w.spadSize 4096, ceilDiv (s.clmemBytes wid w) 4096)
def State.blocksOf (s : State) (wid : Nat) (w : Workgroup) : Nat :=
  let (a, b, c) := s.blockCounts wid w
  a + b + c

/-- How many blocks of a workgroup's memories have been transferred; `none` while they are in one place. -/
def Workgroup.transferred (w : Workgroup) : Option Nat :=
  match w.place with
  | .moving _ n => some n
  | .saving n => some n
  | .restoring n => some n
  | _ => none

/-- The workgroup whose transfers carry a space of a workgroup, and the block of them that an offset of the space lies in. -/
def State.blockAt (s : State) (wid : Nat) (w : Workgroup) (sp : Space) (off : Nat) : Option (Nat × Workgroup × Nat) :=
  match sp with
  | .spad => some (wid, w, (s.blockCounts wid w).1 + off / 4096)
  | .clmem =>
    ((s.clusterOf w).bind fun c => c.wgs.find? fun k => (tabGet s.wgs k).isSome).bind fun k => (tabGet s.wgs k).map fun v =>
      let (a, b, _) := s.blockCounts k v
      (k, v, a + b + off / 4096)
  | _ => none

/-- Whether the landing of a workgroup's space takes an access at an offset (R345): while its state is in transfer, only in a
block that has been transferred. -/
def State.landed (s : State) (wid : Nat) (sp : Space) (off : Nat) : Bool :=
  match (tabGet s.wgs wid).bind fun w => s.blockAt wid w sp off with
  | some (_, v, b) => (match v.transferred with | some n => decide (b < n) | none => true)
  | none => true

/-- A landing in a saved SPAD or CLMEM goes to its block of the record (R345), an object's update during a restore too, whose block the
restore has still to read. -/
def State.landSpace (s : State) (wid : Nat) (sp : Space) (off : Nat) (bs : List Byte) : State :=
  match (tabGet s.wgs wid).bind fun w => s.blockAt wid w sp off with
  | none => s
  | some (k, v, b) =>
    let open' := match v.place with
      | .saving n => decide (b < n)
      | .saved => true
      | .restoring n => decide (n ≤ b)
      | _ => false
    if open' then s.recordWrite v (s.sectionAt k v (if sp = .spad then 4 else 5) + off) bs else s

/-! ### The way back (R59, R344) -/

/-- An entity as its record gives it (R58): one whose PC or resume word the record gives otherwise resumes there, and at a word of a
clause without a test of its wait fields. -/
def State.loadEntity (s : State) (a : Nat) (e : Entity) : Entity :=
  let e := { e with mask := .ofNat 1024 (s.physNat (a + 4) 128) }
  let pc : Word64 := .ofNat 64 (s.physNat (a + 132) 8)
  let k := s.physNat (a + 140) 4 / 1024 % 16
  if e.resumeAt = (pc, k) then e else { e with pc := pc, word := k, issue := none, hold := none, admitted := decide (k ≠ 0) }

/-- The records of a team's entities from an address on, each followed by those of its deferral slots (R57, R58). -/
def State.loadEntities (s : State) (a : Nat) : List (Nat × Entity) → State × Nat
  | [] => (s, a)
  | x :: xs =>
    let slots := (x.2.slots.zipIdx).map fun y =>
      let r := a + 144 * (y.2 + 1)
      (y.1.1, { y.1.2 with mask := .ofNat 1024 (s.physNat (r + 4) 128), pc := .ofNat 64 (s.physNat (r + 132) 8) })
    let e := { s.loadEntity a x.2 with slots := slots }
    (s.modEnt x.1 fun _ => e).loadEntities (a + 144 * (1 + x.2.slots.length)) xs

/-- A vector register of an image from an address on, by its tag code, and the bytes that it takes (R57). -/
def State.loadVreg (s : State) (a lanes : Nat) : Nat → VReg × Nat
  | 0 => (.uniform (.ofNat 32 (s.physNat a 4)), 4)
  | 1 => (.affine (.ofNat 32 (s.physNat a 4)) (.ofNat 32 (s.physNat (a + 4) 4)), 8)
  | 2 => (.general ((List.range lanes).map fun l => .ofNat 32 (s.physNat (a + 4 * l) 4)), 4 * lanes)
  | _ => (.absent, 0)

/-- The registers of a team from its image's scalars on (R57), each written where the image differs. -/
def State.loadRegs (s : State) (a : Nat) (t : Team) : Team :=
  let words (a n : Nat) : List Word := (List.range n).map fun l => .ofNat 32 (s.physNat (a + 4 * l) 4)
  let t := (List.range 64).foldl (fun t n =>
    let w : Word := .ofNat 32 (s.physNat (a + 4 * n) 4)
    if w = t.sreg n then t else t.setS n w) t
  let a := a + 256
  let t := (List.range 8).foldl (fun t n =>
    let m : BitVec 1024 := .ofNat 1024 (s.physNat (a + n * (t.lanes / 8)) (t.lanes / 8))
    if m = t.preg n then t else t.setP n m) t
  let a := a + t.lanes + 80
  let t := (List.range 16).foldl (fun t n =>
    let b : BufDesc := { base := .ofNat 64 (s.physNat (a + 16 * n) 8), len := .ofNat 32 (s.physNat (a + 16 * n + 8) 4)
                         flags := .ofNat 32 (s.physNat (a + 16 * n + 12) 4) }
    if b = t.breg n then t else { t with b := tabPut t.b n b }) t
  let a := a + 256
  let t := (List.range (operandLimit t.lanes)).foldl (fun t n =>
    let ws := words (a + 4 * t.lanes * n) t.lanes
    if ws = t.oreg n then t else t.setO n ws) t
  let a := a + 4 * t.lanes * operandLimit t.lanes
  let tags := s.physNat a 16
  ((List.range 64).foldl (fun (x : Team × Nat) n =>
    let (r, k) := s.loadVreg x.2 t.lanes (if t.live ≤ n then 3 else tags / 4 ^ n % 4)
    (if r = x.1.vreg n then x.1 else x.1.setV n r, x.2 + k)) (t, a + 16)).1

/-- The loop levels of an image (R57). -/
def State.loadLoops (s : State) (a : Nat) : List LoopLevel :=
  ((List.range 3).filter fun k => s.physNat (a + 24 * k + 4) 4 % 2 == 1).map fun k =>
    { count := .ofNat 32 (s.physNat (a + 24 * k) 4), start := .ofNat 64 (s.physNat (a + 24 * k + 8) 8)
      stop := .ofNat 64 (s.physNat (a + 24 * k + 16) 8) }

/-- A team rebuilt from its image (R59); what R57 gives no place in it stays as it was saved (log 15). -/
def State.loadImage (s : State) (tid a : Nat) : State :=
  let lead := s.imageLead tid
  let (s', regs) := s.loadEntities (if lead.isSome then a + 64 else a + 208) (lead.toList ++ s.imageFrags tid)
  match tabGet s.teams tid with
  | none => s
  | some t =>
    let loops := s.loadLoops (regs + 256 + t.lanes)
    let s' := lead.toList.foldl (fun s x => s.modEnt x.1 fun e => { e with loops := loops }) s'
    s'.modTeam tid fun t =>
      s.loadRegs regs { t with mode := .ofNat 32 (s.physNat (a + 8) 4), flags := .ofNat 32 (s.physNat (a + 12) 4)
                               deadline := t.retired + s.physNat (a + 24) 8 }

end Sys2Proof.Machine
end

