-- ==== Sys2Proof/Machine/Spaces.lean ====
section
/-! DEFINITION. The explicit levels SPAD, CLMEM and STMEM (R91, R93, R103), the geometry of copies (R224, R225), and barrier and
ring objects (R101, R102). -/

namespace Sys2Proof.Machine

/-- The bytes a workgroup reaches in a space and the allocation's current size (R91); a space it does not have has size 0. -/
def State.spaceOf (s : State) (wid : Nat) (sp : Space) : Tab Byte × Nat :=
  match tabGet s.wgs wid with
  | none => ([], 0)
  | some w =>
    match sp with
    | .spad => (w.spad, w.spadSize)
    | .clmem => match w.cluster.bind (tabGet s.clusters) with
      | some c => (c.clmem, c.size)
      | none => ([], 0)
    | .stmem => match tabGet s.grids w.grid with
      | some g => (g.stmem, g.rcd.stmem)
      | none => ([], 0)
    | _ => ([], 0)

/-- The state with the bytes of a workgroup's space changed. -/
def State.modSpace (s : State) (wid : Nat) (sp : Space) (f : Tab Byte → Tab Byte) : State :=
  match tabGet s.wgs wid with
  | none => s
  | some w =>
    match sp with
    | .spad => s.modWg wid fun w => { w with spad := f w.spad }
    | .clmem => match w.cluster with
      | some c => s.modCluster c fun c => { c with clmem := f c.clmem }
      | none => s
    | .stmem => s.modGrid w.grid fun g => { g with stmem := f g.stmem }
    | _ => s

/-- Bytes of a table that reads zero where nothing has been written (R91), and the table with bytes written. -/
def tabBytes (t : Tab Byte) (off n : Nat) : List Byte := (List.range n).map fun i => (tabGet t (off + i)).getD 0
def tabStore (t : Tab Byte) (off : Nat) : List Byte → Tab Byte
  | [] => t
  | b :: bs => tabStore (tabPut t off b) (off + 1) bs

/-- Bytes of a space, and the state with bytes of it written. -/
def State.spaceRead (s : State) (wid : Nat) (sp : Space) (off n : Nat) : List Byte := tabBytes (s.spaceOf wid sp).1 off n
def State.spaceWrite (s : State) (wid : Nat) (sp : Space) (off : Nat) (bs : List Byte) : State :=
  (s.modSpace wid sp fun t => tabStore t off bs).landSpace wid sp off bs

/-- A 32-bit word of a space, and the state with one written. -/
def State.spaceWord (s : State) (wid : Nat) (sp : Space) (off : Nat) : Nat := leNat (s.spaceRead wid sp off 4)
def State.putWord (s : State) (wid : Nat) (sp : Space) (off x : Nat) : State := s.spaceWrite wid sp off (leBytes 4 x)

/-- The space of an object or an atomic. -/
def spOf : Sp → Space
  | .spad => .spad
  | .clmem => .clmem

/-- The resident granules of a space (R103). -/
def State.residents (s : State) (wid : Nat) (sp : Space) : List Nat :=
  match tabGet s.wgs wid with
  | none => []
  | some w =>
    match sp with
    | .spad => w.spadRes
    | .clmem => match w.cluster.bind (tabGet s.clusters) with
      | some c => c.res
      | none => []
    | _ => []

/-- The 16-byte granules of a range. -/
def granules (off len : Nat) : List Nat :=
  if len = 0 then [] else (List.range ((off + len - 1) / 16 - off / 16 + 1)).map (off / 16 + ·)

/-- Whether a range of a space includes a resident granule. -/
def State.anyResident (s : State) (wid : Nat) (sp : Space) (off len : Nat) : Bool :=
  (s.residents wid sp).any fun g => decide (off < 16 * g + 16) && decide (16 * g < off + len)

/-- Whether every granule of a range is resident. -/
def State.allResident (s : State) (wid : Nat) (sp : Space) (off len : Nat) : Bool :=
  let r := s.residents wid sp
  (granules off len).all fun g => r.contains g

/-- The state with the granules of a range resident. -/
def State.reside (s : State) (wid : Nat) (sp : Space) (off len : Nat) : State :=
  let add (r : List Nat) : List Nat := r ++ (granules off len).filter fun g => !r.contains g
  match sp, tabGet s.wgs wid with
  | .spad, _ => s.modWg wid fun w => { w with spadRes := add w.spadRes }
  | .clmem, some w => match w.cluster with
    | some c => s.modCluster c fun c => { c with res := add c.res }
    | none => s
  | _, _ => s

/-! ### Copies as tiles (R224, R225) -/

/-- The space a copy reads, and the space it writes. -/
def CopyFn.srcSpace : CopyFn → Space
  | .g2s | .g2c | .g2t | .gg | .gather | .cred => .global
  | .s2g | .s2c => .spad
  | .c2s => .clmem
  | .x2s => .stmem
def CopyFn.dstSpace : CopyFn → Space
  | .g2s | .c2s | .x2s | .gather => .spad
  | .g2c | .s2c => .clmem
  | .g2t => .stmem
  | .s2g | .gg | .cred => .global

/-- The bytes of a row, W. -/
def Copy.width (c : Copy) : Nat := c.sl * c.len

/-- The bytes of the whole tile. -/
def Copy.bytes (c : Copy) : Nat := c.rows * c.width

/-- Where row `r` starts at the source and at the destination; `stride` is T. -/
def Copy.srcRow (c : Copy) (r : Nat) : Nat := c.src + r * (if c.fn = .s2g then c.width else c.stride)
def Copy.dstRow (c : Copy) (r : Nat) : Nat := c.dst + r * (if c.fn = .s2g then c.stride else c.width)

/-- Whether the copy carries the multicast, the ring or the fill flag. -/
def Copy.mc (c : Copy) : Bool := bitOf c.flags 0
def Copy.ring (c : Copy) : Bool := bitOf c.flags 1
def Copy.fillFlag (c : Copy) : Bool := bitOf c.flags 2

/-- The workgroups whose SPAD a copy writes (R230). -/
def State.copyTargets (s : State) (c : Copy) : List Nat :=
  match c.mc, (tabGet s.wgs c.wg).bind (·.cluster) with
  | true, some k => (s.wgs.filter fun x => x.2.cluster == some k).map (·.1)
  | _, _ => [c.wg]

/-- Whether an accepted copy that has not completed writes a byte of a range of a workgroup's space (R103). -/
def State.copyPending (s : State) (wid : Nat) (sp : Space) (off len : Nat) : Bool :=
  let clus := (tabGet s.wgs wid).bind (·.cluster)
  s.copies.any fun x =>
    let c := x.2
    !c.cancelled && !c.failed && c.fn.dstSpace == sp &&
      (match sp with
       | .spad => (s.copyTargets c).contains wid
       | .clmem => clus.isSome && (tabGet s.wgs c.wg).bind (·.cluster) == clus
       | _ => false) &&
      decide (0 < c.width) && (List.range c.rows).any fun r => decide (c.dstRow r < off + len) && decide (off < c.dstRow r + c.width)

/-! ### Barrier objects (R101) -/

/-- A barrier object's fields. -/
structure Barrier where
  expA : Nat
  arrA : Nat
  expB : Nat
  arrB : Nat
  phase : Bool
  slot : Bool
  ovr : Bool
deriving DecidableEq, Repr

/-- The barrier object at an offset, and the state with one written, bits [31:3] of its last word 0 (log 29). -/
def State.getBar (s : State) (wid : Nat) (sp : Space) (off : Nat) : Barrier :=
  let a := s.spaceWord wid sp off
  let f := s.spaceWord wid sp (off + 12)
  { expA := a % 65536, arrA := a / 65536, expB := s.spaceWord wid sp (off + 4), arrB := s.spaceWord wid sp (off + 8)
    phase := bitOf f 0, slot := bitOf f 1, ovr := bitOf f 2 }
def State.putBar (s : State) (wid : Nat) (sp : Space) (off : Nat) (b : Barrier) : State :=
  let bit (x : Bool) (n : Nat) : Nat := if x then n else 0
  s.spaceWrite wid sp off (wordsBytes [b.expA % 65536 + 65536 * b.arrA, b.expB, b.arrB, bit b.phase 1 + bit b.slot 2 + bit b.ovr 4])

/-- The completion test after an update (R101). -/
def Barrier.test (b : Barrier) : Barrier :=
  if b.expA < b.arrA ∨ b.expB < b.arrB then { b with ovr := true }
  else if b.arrA = b.expA ∧ b.arrB = b.expB ∧ b.ovr = false then { b with phase := !b.phase, arrA := 0, arrB := 0 }
  else b

/-- One arrival, and the completion of a copy of some bytes: a field at its maximum stays there and sets OVR. -/
def Barrier.arrive (b : Barrier) : Barrier :=
  if b.arrA = 65535 then { b with ovr := true } else ({ b with arrA := b.arrA + 1 }).test
def Barrier.count (b : Barrier) (n : Nat) : Barrier :=
  if 4294967295 < b.arrB + n then { b with arrB := 4294967295, ovr := true } else ({ b with arrB := b.arrB + n }).test

/-- The state with a barrier object updated. -/
def State.modBar (s : State) (wid : Nat) (sp : Space) (off : Nat) (f : Barrier → Barrier) : State :=
  s.putBar wid sp off (f (s.getBar wid sp off))

/-- The L1 actions of an ordering effect at an object's scope (R128, R108): only `.clu` and wider need any. -/
def State.objectSync (s : State) (wid : Nat) (sp : Sp) : State :=
  match sp, tabGet s.wgs wid with
  | .clmem, some w => s.l1Sync (coreColumn w.core)
  | _, _ => s

/-- The accesses that an operation of the matrix engine must come after (R125): the acquires not yet performed, which are locally
ordered before the issuing instruction, and what happens before everything the entity does.  A plain store without a fence after it
is not among them (R290; log 31). -/
def State.orderedBefore (s : State) (eid : Nat) : List Nat :=
  s.afterOf eid ++ (s.ops.filter fun x => x.2.ent == eid && (x.2.acq || x.2.lanes.any fun l => l.mtype == 3)).map (·.1)

/-- Whether a store or an atomic on its way writes a byte of a range of a workgroup's space (R103): what makes an object there
waits for it. -/
def State.storePending (s : State) (wid : Nat) (sp : Space) (off len : Nat) : Bool :=
  let clus := (tabGet s.wgs wid).bind (·.cluster)
  let sameSpace (t : Team) : Bool := t.wg == wid || (sp == .clmem && clus.isSome && (s.wgOf t).bind (·.cluster) == clus)
  s.ops.any fun x => x.2.space == sp && x.2.kind != .load && (match tabGet s.teams x.2.team with | some t => sameSpace t | none => false) &&
    x.2.lanes.any fun l => !l.done && decide (l.ptr < off + len) && decide (off < l.ptr + x.2.size)

end Sys2Proof.Machine
end

