-- ==== Sys2Proof/Machine/Access.lean ====
section
/-! DEFINITION. One access instruction: its addresses, its checks in the order of R100, its issue with parking (R104, R338), its
performance in local order (R110, R111), and its completion (R213, R221). -/

namespace Sys2Proof.Machine

/-! ### What an access instruction asks for -/

/-- One lane's access: its pointer or offset, what it stores or combines, and a fill in place of an access (R97). -/
structure LaneReq where
  lane : Nat
  addr : Int
  data : List Byte
  fill : Option (List Byte)

/-- An access instruction. -/
structure Acc where
  kind : OpKind
  acc : AccKind
  space : Space
  size : Nat
  signed : Bool := false
  uniform : Bool := false
  dest : Dest := .none
  alu : Option (AtomicOp × ATy) := none
  acq : Bool := false
  rel : Bool := false
  l2 : Bool := false
  cnt : CntKind

/-- A check of R100: the cause, and for each lane that fails it the two addresses. -/
structure Check where
  cause : Nat
  bad : LaneReq → Option (Int × Nat)

/-- A pointer as 64 bits. -/
def ptrOf (a : Int) : Nat := (a % 18446744073709551616).toNat

/-- The first check that a lane fails, its failing lanes, and the addresses of the lowest (R100, R341). -/
def firstFail (lanes : List LaneReq) : List Check → Option (Nat × List Nat × Int × Nat)
  | [] => none
  | k :: ks =>
    match lanes.filterMap fun r => (k.bad r).map fun a => (r.lane, a) with
    | [] => firstFail lanes ks
    | x :: xs =>
      let low := xs.foldl (fun m y => if y.2.1 < m.2.1 then y else m) x
      some (k.cause, (x :: xs).map (·.1), low.2.1, low.2.2)

/-- A check on the lanes that make an access. -/
def check (cause : Nat) (bad : LaneReq → Bool) : Check :=
  { cause := cause, bad := fun r => if r.fill.isNone && bad r then some (r.addr, 0) else none }

/-! ### The output window (R272) -/

/-- Whether a byte of virtual address lies in the window of an element of a subdomain. -/
def LaunchRec.inWindow (r : LaunchRec) (lo hi : Triple) (va : Nat) : Bool :=
  (List.range (hi.z - lo.z)).any fun k => (List.range (hi.y - lo.y)).any fun j => (List.range (hi.x - lo.x)).any fun i =>
    let l := (lo.x + i) + r.ext.x * ((lo.y + j) + r.ext.y * (lo.z + k))
    decide (((va : Int) - r.wbase - l * r.wstride) % (2 : Int) ^ 57 < r.wbytes)

/-- Whether every byte of a range lies in the window of a team's workgroup; outside a compute phase every byte does. -/
def State.windowOk (s : State) (t : Team) (ptr n : Nat) : Bool :=
  match s.wgOf t, s.gridOf t with
  | some w, some g => !w.phase || (addrRange ptr n).all fun a => g.rcd.inWindow w.lo w.hi (a % 2 ^ 57)
  | _, _ => true

/-- Whether a team's workgroup is in its compute phase (R271). -/
def State.inPhase (s : State) (t : Team) : Bool := match s.wgOf t with | some w => w.phase | none => false

/-! ### Translation and parking -/

/-- The stack, column and partition of a team. -/
def State.stackOf (s : State) (t : Team) : Nat := coreStack (s.coreOf t)
def State.columnOf (s : State) (t : Team) : Nat := coreColumn (s.coreOf t)
def State.partOf (s : State) (t : Team) : Nat := 4 * s.coreOf t + t.part

/-- A team's translation of one access. -/
def State.teamXlate (s : State) (t : Team) (k : AccKind) (ptr n : Nat) : Xlat := s.xlate (s.stackOf t) (s.ctxOf t) k ptr n

/-- The checks of steps 6 and 7 of R100 on the lanes that have a mapping: the pointer form, then PGPR, then TAGF. -/
def State.pageChecks (s : State) (t : Team) (k : AccKind) (n : Nat) : List Check :=
  [ check cPGPR fun r => bitsOf (ptrOf r.addr) 59 57 != 0,
    { cause := cPGPR
      bad := fun r => match r.fill, s.teamXlate t k (ptrOf r.addr) n with
        | none, .fault x a b => if x = cTAGF then none else some (a, b)
        | _, _ => none },
    { cause := cTAGF
      bad := fun r => match r.fill, s.teamXlate t k (ptrOf r.addr) n with
        | none, .fault x a b => if x = cTAGF then some (a, b) else none
        | _, _ => none } ]

/-- A lane's access as it issues. -/
def State.laneAcc (s : State) (t : Team) (a : Acc) (r : LaneReq) : LaneAcc :=
  match r.fill with
  | some f => { lane := r.lane, ptr := ptrOf r.addr, phys := none, mtype := 0, data := [], fill := some f, done := false }
  | none =>
    if a.space = .global then
      match s.teamXlate t a.acc (ptrOf r.addr) a.size with
      | .ok p m => { lane := r.lane, ptr := ptrOf r.addr, phys := some p, mtype := m, data := r.data, fill := none, done := false
                     level := s.leafLevel (s.stackOf t) (s.ctxOf t) (ptrOf r.addr) }
      | _ => { lane := r.lane, ptr := ptrOf r.addr, phys := none, mtype := 0, data := r.data, fill := none, done := false }
    else
      { lane := r.lane, ptr := ptrOf r.addr, phys := some (ptrOf r.addr), mtype := 0, data := r.data, fill := none, done := false }

/-- Whether a lane waits for a mapping. -/
def LaneAcc.parked (l : LaneAcc) : Bool := l.phys.isNone && l.fill.isNone && !l.done

/-- The 64 KiB page of a pointer. -/
def pageOf (ptr : Nat) : Nat := ptr % 2 ^ 57 / 65536

/-- The pages on which lanes of an access park, in the order of their lowest lane (R104). -/
def parkPages (ls : List LaneAcc) : List Nat := ((ls.filter LaneAcc.parked).map fun l => pageOf l.ptr).eraseDups

/-- The bytes of operands that a page's lanes hold in the replay data store (R338). -/
def parkBytes (ls : List LaneAcc) (page : Nat) : Nat :=
  ((ls.filter fun l => l.parked && pageOf l.ptr == page).map fun l => l.data.length).sum

/-- Whether a partition's replay queue and data store take more entries and bytes (R104, R338): never more than 256 of one
instruction (log 31). -/
def State.replayRoom (s : State) (part entries bytes : Nat) : Bool :=
  let mine := s.replay.filter fun x => x.2.part == part
  decide (mine.length < 256) && decide (mine.length + entries ≤ 256) &&
    decide ((mine.map fun x => x.2.bytes).sum + bytes ≤ 131072)

/-- The record of a parked access or slice (R309, R341). -/
def parkRecord (frag : Nat) (lanes : BitVec 1024) (pc : Word64) (word addr : Nat) : FaultInfo :=
  { cause := cPGNP, parked := true, word := word, frag := frag, lanes := lanes, pc := pc, addr1 := addr, resumePc := pc, resume := 1 }

/-- One replay-queue entry is made (R104, R338): its record goes to the fault queue. -/
def State.park (s : State) (eid : Nat) (e : Entity) (t : Team) (op : Nat) (pc : Word64) (word : Nat) (uniform : Bool)
    (ls : List LaneAcc) (page : Nat) : State :=
  let here := ls.filter fun l => l.parked && pageOf l.ptr == page
  let lanes := here.map (·.lane)
  let (id, s) := s.fresh
  let r : ReplayEntry := { op := op, ent := eid, team := e.team, part := s.partOf t, page := page, lanes := lanes,
                           bytes := parkBytes ls page, released := false, fail := false }
  let s := { s with replay := tabPut s.replay id r }
  let named := if uniform then e.mask else maskOf lanes
  let addr := match here with | l :: _ => l.ptr | [] => 0
  (s.fqFault t (parkRecord e.fragCode named pc word addr)).countEvent (s.ctxOf t) 9 1

/-! ### Destinations -/

/-- The registers that an access of some bytes writes or reads from a first one (R211). -/
def regCount (size : Nat) : Nat := if size ≤ 4 then 1 else size / 4

/-- The scoreboard's names of a destination's registers. -/
def Dest.refs (d : Dest) (n : Nat) : List Ref :=
  match d with
  | .none => []
  | .vreg k => (List.range n).map fun i => .v (k + i)
  | .oreg k => (List.range n).map fun i => .o (k + i)
  | .scalar k => [.s k]

/-- A team with a vector register turned to tag G, every lane as it read before (R45). -/
def Team.expand (t : Team) (n : Nat) : Team := t.setV n (.general ((t.vreg n).words absentRaw t.lanes))

/-- A team with one lane of a register written. -/
def Team.laneSetV (t : Team) (n lane : Nat) (w : Word) : Team :=
  t.setV n (.general (((t.vreg n).words absentRaw t.lanes).set lane w))
def Team.laneSetO (t : Team) (n lane : Nat) (w : Word) : Team := t.setO n ((t.oreg n).set lane w)

/-- A team with the words of one lane written to a destination. -/
def Team.writeLane (t : Team) (d : Dest) (lane : Nat) (ws : List Word) : Team :=
  match d with
  | .none => t
  | .vreg k => (ws.zipIdx).foldl (fun t x => t.laneSetV (k + x.2) lane x.1) t
  | .oreg k => (ws.zipIdx).foldl (fun t x => t.laneSetO (k + x.2) lane x.1) t
  | .scalar k => t.setS k (ws.getD 0 0)

/-- A team with a uniform load's words written to the lanes of a mask (R210): tag U where the mask is full. -/
def Team.writeUniform (t : Team) (d : Dest) (mask : BitVec 1024) (ws : List Word) : Team :=
  match d with
  | .vreg k =>
    if mask = fullMask t.lanes then (ws.zipIdx).foldl (fun t x => t.setV (k + x.2) (.uniform x.1)) t
    else (lanesOf mask t.lanes).foldl (fun t l => t.writeLane d l ws) t
  | .scalar k => t.setS k (ws.getD 0 0)
  | _ => (lanesOf mask t.lanes).foldl (fun t l => t.writeLane d l ws) t

/-- The words a load writes from the bytes it read (R211), and from a fill (R97). -/
def loadWords (size : Nat) (signed : Bool) (bs : List Byte) : List Word :=
  if size < 4 then
    [if signed then BitVec.ofInt 32 (intVal (8 * size) (leNat bs)) else BitVec.ofNat 32 (leNat bs)]
  else (List.range (size / 4)).map fun i => BitVec.ofNat 32 (leNat ((bs.drop (4 * i)).take 4))
def fillWords (bs : List Byte) : List Word :=
  (List.range (bs.length / 4)).map fun i => BitVec.ofNat 32 (leNat ((bs.drop (4 * i)).take 4))

/-! ### Issue -/

/-- An access that has passed its checks issues (R213, R217): its operation is in flight, its counter rises, its destination is
pending, and its lanes without a mapping park. -/
def Cur.launchAccess (c : Cur) (s : State) (a : Acc) (reqs : List LaneReq) : State :=
  let ls := reqs.map (s.laneAcc c.t a)
  let s := if a.space = .global then
      ls.foldl (fun s l => if l.phys.isSome then s.touch (s.stackOf c.t) (s.ctxOf c.t) a.acc l.ptr else s) s
    else s
  let (id, s) := s.fresh
  let n := regCount a.size
  let s := s.modTeam c.e.team fun t =>
    let t := match a.dest with
      | .vreg k => if a.uniform && c.e.mask == fullMask t.lanes then t
                   else (List.range n).foldl (fun t i => t.expand (k + i)) t
      | _ => t
    (t.cntPush a.cnt id).addPend id id (a.dest.refs n)
  let op : MemOp := { ent := c.eid, team := c.e.team, kind := a.kind, space := a.space, size := a.size, signed := a.signed,
                      uniform := a.uniform, dest := a.dest, alu := a.alu, acq := a.acq, rel := a.rel, l2 := a.l2, cnt := a.cnt,
                      pc := c.i.pc, word := c.i.next + 1, mask := c.e.mask, lanes := ls, failed := false
                      after := c.e.after.filter fun k => (tabGet s.ops k).isSome, frag := c.e.fragCode }
  let s := { s with ops := tabPut s.ops id op }
  (parkPages ls).foldl (fun s p => s.park c.eid c.e c.t id c.i.pc (c.i.next + 1) a.uniform ls p) s

/-- Whether an access fits the partition's replay queue; a full queue stalls a memory instruction of any kind (R104). -/
def Cur.fits (c : Cur) (s : State) (a : Acc) (reqs : List LaneReq) : Bool :=
  let ls := reqs.map (s.laneAcc c.t a)
  let pages := if a.space = .global then parkPages ls else []
  s.replayRoom (s.partOf c.t) pages.length ((pages.map (parkBytes ls)).sum)

/-- The lanes a fault of an access names: every active lane of a uniform form (R210). -/
def Cur.named (c : Cur) (uniform : Bool) (ls : List Nat) : BitVec 1024 := if uniform then c.e.mask else maskOf ls

/-- Whether the translation of some lane of an access must wait for a port (R385). -/
def State.walksWait (s : State) (t : Team) (a : Acc) (reqs : List LaneReq) : Bool :=
  a.space == .global && reqs.any fun r => r.fill.isNone && s.walkWaits (s.stackOf t) (s.ctxOf t) a.acc (ptrOf r.addr)

/-- An access instruction of `n` words: the counter's room, a port for its walks, the checks in order, the replay queue's room, and the
issue. -/
def Cur.access (c : Cur) (s : State) (a : Acc) (reqs : List LaneReq) (checks : List Check) (n : Nat) : State :=
  if 63 ≤ c.t.cnt a.cnt then c.holdAt s .room
  else if s.walksWait c.t a reqs then c.holdAt s .order
  else
    let pages := if a.space = .global then s.pageChecks c.t a.acc a.size else []
    match firstFail reqs (checks ++ pages) with
    | some (x, ls, a1, a2) =>
      c.raiseWith s { c.fault x (ptrOf a1) with lanes := c.named a.uniform ls, addr2 := a2 }
    | none =>
      if c.fits s a reqs then c.advance (c.launchAccess s a reqs) n else c.holdAt s .replay

/-- A vector access: no lane, no effect (R19); exhaustion where the check at the clause's issue found the grant passed (R44). -/
def Cur.vecAccess (c : Cur) (s : State) (a : Acc) (reqs : List LaneReq) (checks : List Check) (n : Nat) : State :=
  if c.e.mask = 0 then c.advance s n
  else if c.pastGrant then c.exhaust s cXREG
  else c.access s a reqs checks n

/-! ### The issue pipes (R20) -/

/-- The pipe of a class (R20). -/
def pipeX (k : Cls) : Bool := k == .vx

/-- Whether the pipe of a partition is free: no other entity has a clause of it in issue and is not held (R20, R28). -/
def State.pipeFree (s : State) (eid part : Nat) (x : Bool) : Bool :=
  s.ents.all fun y => y.1 == eid || y.2.atBoundary || (match y.2.issue, tabGet s.teams y.2.team with
    | some i, some t => pipeX i.cls != x || s.partOf t != part
    | _, _ => true)

/-! ### Order (R111) -/

/-- Whether two accesses of one agent touch a common byte, or share a sector while one is parked (R111, R104). -/
def laneClash (x y : MemOp) (l m : LaneAcc) : Bool :=
  if x.space ≠ y.space then false
  else match x.space with
    | .global =>
      if x.kind = .flush ∨ y.kind = .flush then
        decide (l.ptr % 2 ^ 57 < m.ptr % 2 ^ 57 + y.size) && decide (m.ptr % 2 ^ 57 < l.ptr % 2 ^ 57 + x.size)
      else match l.phys, m.phys with
        | some p, some q => decide (physAddr p < physAddr q + y.size) && decide (physAddr q < physAddr p + x.size)
        | _, _ => l.ptr % 2 ^ 57 / 16 == m.ptr % 2 ^ 57 / 16
    | .lane => l.lane == m.lane && decide (l.ptr < m.ptr + y.size) && decide (m.ptr < l.ptr + x.size)
    | _ => decide (l.ptr < m.ptr + y.size) && decide (m.ptr < l.ptr + x.size)

/-- Lanes that have still to be performed and have an access to make. -/
def MemOp.waiting (o : MemOp) : List LaneAcc := o.lanes.filter fun l => !l.done && l.fill.isNone

/-- Whether the memory types of two lanes order them (R99): a STRONG page orders against every access, DEVICE pages among
themselves and against STRONG ones; the type of a page that has no mapping yet is open. -/
def typeOrder (l m : LaneAcc) : Bool :=
  l.mtype == 3 || m.mtype == 3 || ((l.parked || decide (2 ≤ l.mtype)) && decide (2 ≤ m.mtype))

/-- Whether an earlier operation of an agent must be performed before a later one (R111, R99). -/
def opBefore (x y : MemOp) : Bool :=
  x.acq || y.rel || (x.waiting.any fun l => y.waiting.any fun m => laneClash x y l m || typeOrder l m)

/-- The operations that a missing mapping holds back: those with a parked lane, and those that must be performed after one. -/
def State.heldByParking (s : State) : List Nat :=
  s.ops.foldl (fun held x =>
    if x.2.lanes.any LaneAcc.parked || s.ops.any (fun y => held.contains y.1 &&
        (y.2.ent == x.2.ent && opBefore y.2 x.2 || x.2.after.contains y.1)) then held ++ [x.1] else held) []

/-- Whether an operation may be performed: no earlier one of its entity must be first, and no access of another path of its team
that happens before it (R119) waits, unless it is a load that may pass it. -/
def State.mayPerform (s : State) (k : Nat) (o : MemOp) : Bool :=
  s.ops.all fun x => !(x.2.ent == o.ent && decide (x.1 < k) && opBefore x.2 o) &&
    !(o.after.contains x.1 && (o.kind != .load || opBefore x.2 o))

/-! ### Performance -/

/-- Whether a lane's access covers a byte of physical memory, and its place in the access. -/
def LaneAcc.covers (l : LaneAcc) (size a : Nat) : Option Nat :=
  match l.phys with
  | some p => if physAddr p ≤ a ∧ a < physAddr p + size then some (a - physAddr p) else none
  | none => none

/-- What a lane of a load performed earlier read at a byte (R110): every lane of the load obtains the same write's value. -/
def MemOp.readBefore (o : MemOp) (a : Nat) : Option Byte :=
  (o.lanes.filterMap fun m => if m.done && m.fill.isNone then (m.covers o.size a).bind (m.data[·]?) else none).head?

/-- Whether a higher lane of a store has written a byte already (R110): the instruction's one write of it stands. -/
def MemOp.wroteAbove (o : MemOp) (l : LaneAcc) (a : Nat) : Bool :=
  o.lanes.any fun m => m.done && m.fill.isNone && decide (l.lane < m.lane) && (m.covers o.size a).isSome

/-- A byte that no L1 serves (R99): what the agent's own column holds dirty of its sector through another page is written back before
the read (R115). -/
def State.uncachedLoad (s : State) (col x : Nat) : Byte × State :=
  let s := s.l1Evict [col] fun a => a / 16 == physAddr x / 16
  (s.loadByte x, s)

/-- The bytes a lane reads, and the state after the read: cached where the page and the policy allow (R89, R99). -/
def State.readLane (s : State) (o : MemOp) (t : Team) (l : LaneAcc) : List Byte × State :=
  match o.space with
  | .global =>
    let p := l.phys.getD 0
    (List.range o.size).foldl (fun x i =>
      let (b, s) := match o.readBefore (physAddr p + i) with
        | some b => (b, x.2)
        | none => if l.mtype = 0 && !o.acq then x.2.cacheLoad (s.columnOf t) (!o.l2) (p + i)
          else x.2.uncachedLoad (s.columnOf t) (p + i)
      (x.1 ++ [b], s)) ([], s)
  | .lane => ((List.range o.size).map fun i => (tabGet t.laneMem (laneKey l.lane (l.ptr + i))).getD 0, s)
  | sp => (s.spaceRead t.wg sp l.ptr o.size, s)

/-- The state after a lane's write (R213): a NORMAL store in the L1, every other at the memory. -/
def State.writeMem (s : State) (o : MemOp) (t : Team) (tid : Nat) (l : LaneAcc) (bs : List Byte) : State :=
  match o.space with
  | .global =>
    let p := l.phys.getD 0
    (bs.zipIdx).foldl (fun s b => if o.wroteAbove l (physAddr p + b.2) then s
      else s.cacheStore (s.columnOf t) (l.mtype == 0 && !o.l2 && !o.rel) (p + b.2) b.1) s
  | .lane => s.modTeam tid fun t =>
      { t with laneMem := (bs.zipIdx).foldl (fun m b => tabPut m (laneKey l.lane (l.ptr + b.2)) b.1) t.laneMem }
  | sp => s.spaceWrite t.wg sp l.ptr bs

/-- One element combined by an atomic (R218 to R220): the new value and the flags; `a` is the operand. -/
def atomicNew (op : AtomicOp) (ty : ATy) (m : Nat) (a : List Byte) : Nat × Word :=
  let w := match ty with | .b64 => 8 | _ => 4
  let x := leNat (a.take w)
  let f (o : FOp2) : Nat × Word :=
    if (numOf fmtF32 x).isAbsent then (m, 0)
    else if (numOf fmtF32 m).isAbsent then passNum fmtF32 x
    else float2 fmtF32 .ne false o m x
  let less := match ty with | .i32 => decide (intVal 32 x < intVal 32 m) | _ => decide (x < m)
  match op with
  | .add => if ty = .f32 then f .add else ((m + x) % 2 ^ (8 * w), 0)
  | .min => if ty = .f32 then f .min else (if less then x else m, 0)
  | .max => if ty = .f32 then f .max else (if less then m else x, 0)
  | .and => (Nat.land m x, 0)
  | .or => (Nat.lor m x, 0)
  | .xor => (Nat.xor m x, 0)
  | .xch => (x, 0)
  | .cas => (if m = x then leNat (a.drop w) else m, 0)
  | .inc => ((m + 1) % 4294967296, 0)
  | .acc =>
    let v := leNat (a.take 4)
    if (numOf fmtF32 v).isAbsent then (m, 0)
    else
      let val := m % 4294967296
      let cnt := if 65535 < m / 4294967296 then 65535 else m / 4294967296
      let (r, fl) := if cnt = 0 then passNum fmtF32 v else float2 fmtF32 .ne false .add val v
      if cnt = 65535 then (r + 4294967296 * 65535, fl ||| flagCSAT) else (r + 4294967296 * (cnt + 1), fl)

/-- The physical ranges of a range of a context's addresses on its present pages: first byte and length (R223). -/
def State.presentRanges (s : State) (stack c ptr n : Nat) : List (Nat × Nat) :=
  let va := ptr % 2 ^ 57
  if n = 0 then []
  else (List.range ((va + n - 1) / 65536 - va / 65536 + 1)).filterMap fun i =>
    let page := va / 65536 + i
    let lo := if va < page * 65536 then page * 65536 else va
    let hi := if va + n < (page + 1) * 65536 then va + n else (page + 1) * 65536
    match s.leafFor stack c .load lo with
    | .leaf e lvl _ => some (leafPa e lvl lo, hi - lo)
    | _ => none

/-- What the translation of every page of a range leaves behind (R335). -/
def State.touchPages (s : State) (stack c ptr n : Nat) : State :=
  let va := ptr % 2 ^ 57
  if n = 0 then s
  else (List.range ((va + n - 1) / 65536 - va / 65536 + 1)).foldl (fun s i =>
    s.touch stack c .load (if i = 0 then va else (va / 65536 + i) * 65536)) s

/-- The effect of `cflush` (R223): the range's dirty bytes are written back and its lines are dropped from every L1. -/
def State.flushRange (s : State) (stack c ptr n : Nat) : State :=
  let rs := s.presentRanges stack c ptr n
  let s := s.touchPages stack c ptr n
  s.l1Evict s.l1Cols fun a => rs.any fun r => decide (r.1 / 64 ≤ a / 64) && decide (a / 64 ≤ (r.1 + r.2 - 1) / 64)

/-- One lane performed: the state, the lane, and the flags that the instruction will raise when it completes (R54, R219). -/
def State.performLane (s : State) (tid : Nat) (o : MemOp) (l : LaneAcc) : State × LaneAcc × Word :=
  let l := { l with done := true }
  match tabGet s.teams tid with
  | none => (s, l, 0)
  | some t =>
    match o.kind with
    | .load =>
      let (ws, s) := match l.fill with
        | some f => ((fillWords f, []), s)
        | none => let (bs, s) := s.readLane o t l; ((loadWords o.size o.signed bs, bs), s)
      let s := s.modTeam tid fun t => if o.uniform then t.writeUniform o.dest o.mask ws.1 else t.writeLane o.dest l.lane ws.1
      (s, { l with data := ws.2 }, 0)
    | .store => (if l.fill.isSome then s else s.writeMem o t tid l l.data, l, 0)
    | .atomic =>
      match o.alu with
      | none => (s, l, 0)
      | some (op, ty) =>
        let s := match o.space with
          | .global => s.l1Evict s.l1Cols fun a => a / 16 == physAddr (l.phys.getD 0) / 16
          | _ => s
        let old := match o.space with
          | .global => s.loadBytes (l.phys.getD 0) o.size
          | sp => s.spaceRead t.wg sp l.ptr o.size
        let (m, fl) := atomicNew op ty (leNat old) l.data
        let s := match o.space with
          | .global => s.storeBytes (l.phys.getD 0) (leBytes o.size m)
          | sp => s.spaceWrite t.wg sp l.ptr (leBytes o.size m)
        (s.modTeam tid fun t => t.writeLane o.dest l.lane (loadWords o.size false old), l, fl)
    | .flush => (s.flushRange (s.stackOf t) (s.ctxOf t) l.ptr o.size, l, 0)

/-- Some lanes performed, in order. -/
def State.performLanes (s : State) (tid : Nat) (o : MemOp) : List LaneAcc → State × List LaneAcc × Word
  | [] => (s, [], 0)
  | l :: ls =>
    let (s, l, f) := s.performLane tid o l
    let (s, ls, g) := s.performLanes tid o ls
    (s, l :: ls, f ||| g)

/-- An operation whose lanes are all performed completes: its counter falls, its registers are written, and its flags are raised
unless it has faulted (R54, R213, R219, R221). -/
def State.completeOp (s : State) (k : Nat) (o : MemOp) : State :=
  let s := { s with ops := tabDel s.ops k }
  ((s.modTeam o.team fun t => ((t.cntDone o.cnt k).clearPend k).raiseFlags (if o.failed then 0 else o.flags)).recount o.team).settle
    o.team

/-- The lanes of an operation that can be performed now: not yet performed, mapped, and where an access can go (R385). -/
def State.readyLanes (s : State) (o : MemOp) : List LaneAcc :=
  o.lanes.filter fun l => !l.done && !l.parked && (o.space != .global || s.reaches (l.phys.getD 0))

/-- The L1 actions that an ordered access needs (R108, R99, R124): before it where it releases, and where it acquires. -/
def State.orderL1 (s : State) (o : MemOp) (on : Bool) : State :=
  match on && (o.space == .global || o.space == .clmem || o.space == .stmem), tabGet s.teams o.team with
  | true, some t => s.l1Sync (s.columnOf t)
  | _, _ => s

/-- Perform every lane of an operation that can be, ascending (R110), and complete it where none is left. -/
def State.performOp (s : State) (k : Nat) : State :=
  match tabGet s.ops k with
  | none => s
  | some o =>
    if !s.mayPerform k o then s
    else
      let strong := o.lanes.any fun l => l.mtype == 3
      let s := s.orderL1 o (o.rel || o.acq || strong)
      let (s, ls, f) := s.performLanes o.team o (s.readyLanes o)
      let o := { o with lanes := o.lanes.map fun l => (ls.find? fun m => m.lane == l.lane).getD l, flags := o.flags ||| f }
      let s := { s with ops := tabPut s.ops k o }
      if o.lanes.all (·.done) then s.completeOp k o else s.settle o.team

end Sys2Proof.Machine
end

