-- ==== Sys2Proof/Machine/LoadStore.lean ====
section
/-! DEFINITION. Loads and stores, opcodes 0x18 to 0x1C, and the scalar and memory-control forms of 0x1F (R208 to R216, R222,
R223, R112). -/

namespace Sys2Proof.Machine

/-- The bytes of a load size, and whether it extends the sign (R211). -/
def ldBytes : LdSz → Nat × Bool
  | .b8s => (1, true)
  | .b8z => (1, false)
  | .b16s => (2, true)
  | .b16z => (2, false)
  | .b32 => (4, false)
  | .b64 => (8, false)
  | .b128 => (16, false)

/-- The bytes of a store size (R211). -/
def stBytes : StSz → Nat
  | .b8 => 1
  | .b16 => 2
  | .b32 => 4
  | .b64 => 8
  | .b128 => 16

/-- The V words of an address (R208, R209): the constant 0.5 has no integer reading (log 16). -/
def Cur.offsets (c : Cur) (v : VOp) : List Word :=
  match v with
  | .const .half => List.replicate c.t.lanes Config.halfOffset
  | _ => c.words .raw v

/-- The uniform-address form (R210): V is the constant 0 or a scalar broadcast. -/
def isUniform : VOp → Bool
  | .const .zero => true
  | .s _ => true
  | _ => false

/-- The offset word of an address (R147). -/
def offInt (off : Option (BitVec 32)) : Int := match off with | some o => o.toInt | none => 0

/-- How many words the instruction has (R141). -/
def wordsOf (off : Option (BitVec 32)) : Nat := if off.isSome then 2 else 1

/-- The lanes that make an access: the active ones, or one for all of them (R210). -/
def Cur.accessLanes (c : Cur) (uniform : Bool) : List Nat :=
  let ls := lanesOf c.e.mask c.t.lanes
  if uniform then ls.take 1 else ls

/-- The destination of a load. -/
def destOf : VOp → Dest
  | .v n => .vreg n.toNat
  | .o n => .oreg n.toNat
  | _ => .none

/-- The words a store writes for a lane (R211): a constant of a b64 store is a 64-bit value. -/
def Cur.storeWords (c : Cur) (size : Nat) (d : VOp) (lane : Nat) : List Word :=
  let word (x : VOp) : Word := (c.words .raw x).getD lane 0
  if size ≤ 4 then [word d]
  else match d with
    | .v _ | .o _ => (List.range (size / 4)).map fun i => word ((List.range i).foldl (fun x _ => vopNext x) d)
    | .s n => let x := c.t.xreg (n.toNat / 2); [x.setWidth 32, (x >>> 32).setWidth 32]
    | .const .negOne => List.replicate (size / 4) 0xFFFFFFFF
    | .const .absent => List.replicate (size / 4) absentRaw
    | _ => word d :: List.replicate (size / 4 - 1) 0

/-- Words as bytes, and the bytes a store of a size takes. -/
def wordBytes (ws : List Word) : List Byte := ws.flatMap fun w => leBytes 4 w.toNat
def Cur.storeData (c : Cur) (size : Nat) (d : VOp) (lane : Nat) : List Byte := (wordBytes (c.storeWords size d lane)).take size

/-- The alignment check (R88). -/
def alignCheck (size : Nat) : Check := check cALGN fun r => r.addr % size != 0

/-- The window check of a store lane (R271). -/
def Cur.windowCheck (c : Cur) (s : State) (size : Nat) : Check := check cWINV fun r => !s.windowOk c.t (ptrOf r.addr) size

/-! ### Global loads and stores (R212, R213) -/

/-- The pointers of a global access (R208). -/
def Cur.globalReqs (c : Cur) (uniform : Bool) (b : Nat) (v : VOp) (off : Int) (data : Nat → List Byte) : List LaneReq :=
  let vs := c.offsets v
  (c.accessLanes uniform).map fun l =>
    { lane := l, addr := (((c.t.xreg b).toNat : Int) + (vs.getD l 0).toNat + off) % 18446744073709551616, data := data l,
      fill := none }

/-- `ldg` (R212, R213). -/
def execLdg (z : LdSz) (o : LdOrd) (p : Pol) (d : VOp) (b : BitVec 4) (v : VOp) (off : Option (BitVec 32)) (s : State) :
    Host.Outcome State Fault Refusal :=
  withCur s fun c =>
    let (n, sg) := ldBytes z
    let u := isUniform v
    c.vecAccess s { kind := .load, acc := .load, space := .global, size := n, signed := sg, uniform := u, dest := destOf d,
                    acq := o == .acq, l2 := p == .l2 || o == .stream, cnt := .ld }
      (c.globalReqs u b.toNat v (offInt off) fun _ => []) [alignCheck n] (wordsOf off)

/-- `stg` (R212, R213). -/
def execStg (z : StSz) (o : StOrd) (p : Pol) (b : BitVec 4) (v : VOp) (off : Option (BitVec 32)) (d : VOp) (s : State) :
    Host.Outcome State Fault Refusal :=
  withCur s fun c =>
    let n := stBytes z
    c.vecAccess s { kind := .store, acc := .store, space := .global, size := n, rel := o == .rel,
                    l2 := p == .l2 || o == .stream, cnt := .st }
      (c.globalReqs false b.toNat v (offInt off) (c.storeData n d)) [alignCheck n, c.windowCheck s n] (wordsOf off)

/-! ### Space loads and stores (R209, R214) -/

/-- The current size of the allocation that a space access reaches (R91, R93). -/
def Cur.spaceSize (c : Cur) (s : State) : Space → Nat
  | .lane => c.t.laneSize
  | sp => (s.spaceOf c.t.wg sp).2

/-- The offsets of a space access (R209). -/
def Cur.spaceReqs (c : Cur) (uniform : Bool) (b : Nat) (v : VOp) (off : Int) (data : Nat → List Byte) : List LaneReq :=
  let vs := c.offsets v
  (c.accessLanes uniform).map fun l =>
    { lane := l, addr := ((c.t.sreg (2 * b)).toNat : Int) + (vs.getD l 0).toNat + off, data := data l, fill := none }

/-- The bounds check of a space access (R209), and the residence check of one that writes (R103). -/
def Cur.boundCheck (c : Cur) (s : State) (sp : Space) (size : Nat) : Check :=
  check cSPBND fun r => decide (r.addr < 0) || decide ((c.spaceSize s sp : Int) < r.addr + size)
def Cur.residenceCheck (c : Cur) (s : State) (sp : Space) (size : Nat) : Check :=
  check cBAROV fun r => s.anyResident c.t.wg sp (ptrOf r.addr) size

/-- A load from an explicit level (R214): `ldlp` is never uniform. -/
def spaceLoad (sp : Space) (z : LdSz) (q : Bool) (d : VOp) (b : BitVec 4) (v : VOp) (off : Option (BitVec 32)) (s : State) :
    Host.Outcome State Fault Refusal :=
  withCur s fun c =>
    let (n, sg) := ldBytes z
    let u := isUniform v && sp != .lane
    c.vecAccess s { kind := .load, acc := .load, space := sp, size := n, signed := sg, uniform := u, dest := destOf d, acq := q,
                    cnt := .ld }
      (c.spaceReqs u b.toNat v (offInt off) fun _ => []) [alignCheck n, c.boundCheck s sp n] (wordsOf off)

/-- A store to an explicit level (R214): one to STMEM is WINV in a compute phase (R93). -/
def spaceStore (sp : Space) (z : StSz) (q : Bool) (b : BitVec 4) (v : VOp) (off : Option (BitVec 32)) (d : VOp) (s : State) :
    Host.Outcome State Fault Refusal :=
  withCur s fun c =>
    let n := stBytes z
    c.vecAccess s { kind := .store, acc := .store, space := sp, size := n, rel := q, cnt := .st }
      (c.spaceReqs false b.toNat v (offInt off) (c.storeData n d))
      [alignCheck n, c.boundCheck s sp n, c.residenceCheck s sp n, check cWINV fun _ => sp == .stmem && s.inPhase c.t] (wordsOf off)

/-- `ldsp` (R214). -/
def execLdsp (z : LdSz) (q : Bool) (d : VOp) (b : BitVec 4) (v : VOp) (off : Option (BitVec 32)) (s : State) :
    Host.Outcome State Fault Refusal := spaceLoad .spad z q d b v off s
/-- `ldcl` (R214). -/
def execLdcl (z : LdSz) (q : Bool) (d : VOp) (b : BitVec 4) (v : VOp) (off : Option (BitVec 32)) (s : State) :
    Host.Outcome State Fault Refusal := spaceLoad .clmem z q d b v off s
/-- `ldst` (R214). -/
def execLdst (z : LdSz) (q : Bool) (d : VOp) (b : BitVec 4) (v : VOp) (off : Option (BitVec 32)) (s : State) :
    Host.Outcome State Fault Refusal := spaceLoad .stmem z q d b v off s
/-- `ldlp` (R214). -/
def execLdlp (z : LdSz) (q : Bool) (d : VOp) (b : BitVec 4) (v : VOp) (off : Option (BitVec 32)) (s : State) :
    Host.Outcome State Fault Refusal := spaceLoad .lane z q d b v off s
/-- `stsp` (R214). -/
def execStsp (z : StSz) (q : Bool) (b : BitVec 4) (v : VOp) (off : Option (BitVec 32)) (d : VOp) (s : State) :
    Host.Outcome State Fault Refusal := spaceStore .spad z q b v off d s
/-- `stcl` (R214). -/
def execStcl (z : StSz) (q : Bool) (b : BitVec 4) (v : VOp) (off : Option (BitVec 32)) (d : VOp) (s : State) :
    Host.Outcome State Fault Refusal := spaceStore .clmem z q b v off d s
/-- `stst` (R214). -/
def execStst (z : StSz) (q : Bool) (b : BitVec 4) (v : VOp) (off : Option (BitVec 32)) (d : VOp) (s : State) :
    Host.Outcome State Fault Refusal := spaceStore .stmem z q b v off d s
/-- `stlp` (R214). -/
def execStlp (z : StSz) (q : Bool) (b : BitVec 4) (v : VOp) (off : Option (BitVec 32)) (d : VOp) (s : State) :
    Host.Outcome State Fault Refusal := spaceStore .lane z q b v off d s

/-! ### Buffer loads and stores (R97, R215) -/

/-- The absent type of a code (R96). -/
def absTOf (n : Nat) : AbsT :=
  match n with
  | 0 => .f32
  | 1 => .f16
  | 2 => .bf16
  | 3 => .e4m3
  | 4 => .e5m2
  | 5 => .i32
  | 6 => .i8
  | _ => .n8

/-- The bytes of a fill (R97): 4, 8 or 16 bytes of absent elements. -/
def fillBytes (t : AbsT) (size : Nat) : List Byte := wordBytes (List.replicate (regCount size) (absentOf t))

/-- The exact offsets of a buffer access (R97). -/
def Cur.bufferReqs (c : Cur) (uniform : Bool) (v : VOp) (off : Int) (data : Nat → List Byte) : List LaneReq :=
  let vs := c.offsets v
  (c.accessLanes uniform).map fun l => { lane := l, addr := ((vs.getD l 0).toNat : Int) + off, data := data l, fill := none }

/-- Whether a lane of a buffer access is out of bounds (R97). -/
def BufDesc.outside (x : BufDesc) (size : Nat) (r : LaneReq) : Bool :=
  decide (r.addr < 0) || decide ((x.len.toNat : Int) < r.addr + size)

/-- The lanes of a buffer access as global accesses (R97): an out-of-bounds load lane is a fill, a dropped store lane is gone. -/
def BufDesc.lanes (x : BufDesc) (size : Nat) (store : Bool) (rs : List LaneReq) : List LaneReq :=
  rs.filterMap fun r =>
    if x.outside size r then
      (if store then none else some { r with fill := some (fillBytes (absTOf (x.flags.toNat / 4 % 8)) size) })
    else some { r with addr := ((x.base.toNat : Int) + r.addr) % 18446744073709551616 }

/-- A buffer access (R97): ALGN, then BNDF on its offsets, then a global access. -/
def Cur.buffer (c : Cur) (s : State) (b : Nat) (store : Bool) (a : Acc) (rs : List LaneReq) (n : Nat) : State :=
  let x := c.t.breg b
  let allowed := x.flags.getLsbD (if store then 1 else 0)
  let bound : Check :=
    { cause := cBNDF
      bad := fun r => if (store && x.flags.getLsbD 5) || (x.outside a.size r && !allowed) then some (r.addr, x.base.toNat)
                      else none }
  match firstFail rs [alignCheck a.size, bound] with
  | some (k, ls, a1, a2) =>
    c.raiseWith s { c.fault k (ptrOf a1) with lanes := c.named a.uniform ls, addr2 := a2 }
  | none =>
    c.vecAccess s a (x.lanes a.size store rs)
      (alignCheck a.size :: if store then [c.windowCheck s a.size] else []) n

/-- `ldb` (R215, R97). -/
def execLdb (z : LdSz) (o : LdOrd) (l : Bool) (d : VOp) (b : BitVec 4) (v : VOp) (off : Option (BitVec 32)) (s : State) :
    Host.Outcome State Fault Refusal :=
  withCur s fun c =>
    let (n, sg) := ldBytes z
    let u := isUniform v
    c.buffer s b.toNat false { kind := .load, acc := .load, space := .global, size := n, signed := sg, uniform := u,
                               dest := destOf d, acq := o == .acq, l2 := l || o == .stream, cnt := .ld }
      (c.bufferReqs u v (offInt off) fun _ => []) (wordsOf off)

/-- `stb` (R215, R97). -/
def execStb (z : StSz) (o : StOrd) (l : Bool) (b : BitVec 4) (v : VOp) (off : Option (BitVec 32)) (d : VOp) (s : State) :
    Host.Outcome State Fault Refusal :=
  withCur s fun c =>
    let n := stBytes z
    c.buffer s b.toNat true { kind := .store, acc := .store, space := .global, size := n, rel := o == .rel,
                              l2 := l || o == .stream, cnt := .st }
      (c.bufferReqs false v (offInt off) (c.storeData n d)) (wordsOf off)

/-! ### Scalar loads and stores (R216) -/

/-- The one access of `sld` and `sst`: its record names the entity's active lanes. -/
def Cur.scalarReq (c : Cur) (a : Nat) (i : BitVec 10) (data : List Byte) : List LaneReq :=
  [{ lane := 0, addr := (((c.t.xreg (a / 2)).toNat : Int) + 4 * i.toInt) % 18446744073709551616, data := data, fill := none }]

/-- What `sld` and `sst` ask for. -/
def sldAcc (d : BitVec 6) : Acc :=
  { kind := .load, acc := .load, space := .global, size := 4, uniform := true, dest := .scalar d.toNat, cnt := .ld }
def sstAcc : Acc := { kind := .store, acc := .store, space := .global, size := 4, uniform := true, cnt := .st }

/-- `sld` (R216). -/
def execSld (d a : BitVec 6) (i : BitVec 10) (s : State) : Host.Outcome State Fault Refusal :=
  withCur s fun c => c.access s (sldAcc d) (c.scalarReq a.toNat i []) [alignCheck 4] 1

/-- `sst` (R216). -/
def execSst (a : BitVec 6) (i : BitVec 10) (d : BitVec 6) (s : State) : Host.Outcome State Fault Refusal :=
  withCur s fun c =>
    c.access s sstAcc (c.scalarReq a.toNat i (leBytes 4 (c.t.sreg d.toNat).toNat)) [alignCheck 4, c.windowCheck s 4] 1

/-! ### Fences, prefetch and flush (R112, R222, R223) -/

/-- Whether a fence of a kind waits for an operation (R112): for every parked one, for every buffered WCOMB store (R124), and for
those its kind orders. -/
def fenceWaits (k : FKind) (o : MemOp) : Bool :=
  (o.lanes.any fun l => l.parked || (!l.done && l.mtype == 1)) ||
    (match k with
     | .acq => o.kind == .load || o.kind == .atomic
     | _ => o.kind != .flush)

/-- The scope code from which a fence acts on the L1 (R89). -/
def wideScope : Scope → Bool
  | .team | .wg => false
  | _ => true

/-- `fence` (R112): the accesses of other paths that happen before its entity's (R119) count as the entity's. -/
def execFence (k : FKind) (x : Scope) (s : State) : Host.Outcome State Fault Refusal :=
  withCur s fun c =>
    if s.ops.any fun o => (o.2.ent == c.eid || c.e.after.contains o.1) && fenceWaits k o.2 then c.holdAt s .fence
    else c.advance (if wideScope x then s.observe c.t else s) 1

/-- `cprf` (R222): a line that would fail a check, or is not cacheable, is not fetched. -/
def execCprf (i : BitVec 10) (a : BitVec 6) (l : Bool) (s : State) : Host.Outcome State Fault Refusal :=
  withCur s fun c =>
    let p := ((((c.t.xreg (a.toNat / 2)).toNat : Int) + 64 * i.toInt) % 18446744073709551616).toNat / 64 * 64
    match s.teamXlate c.t .load p 16, s.xlateAll (s.stackOf c.t) (s.ctxOf c.t) .load p 4 with
    | .ok phys m, .ok _ _ =>
      let s := if l && m = 0 then
          (List.range 4).foldl (fun s j => s.l1Fill (s.columnOf c.t) (phys / 16 + j))
            (s.touch (s.stackOf c.t) (s.ctxOf c.t) .load p)
        else s
      c.advance s 1
    | _, _ => c.advance s 1

/-- `cflush` (R223): a range that passes bits [59:57] is PGPR. -/
def execCflush (a d : BitVec 6) (s : State) : Host.Outcome State Fault Refusal :=
  withCur s fun c =>
    let p := (c.t.xreg (a.toNat / 2)).toNat
    let n := (c.t.sreg d.toNat).toNat
    if 63 ≤ c.t.cnt .st then c.holdAt s .room
    else if bitsOf p 59 57 ≠ 0 ∨ 2 ^ 57 < p % 2 ^ 57 + n then c.raise s cPGPR p
    else if !s.replayRoom (s.partOf c.t) 0 0 then c.holdAt s .replay
    else
      let (id, s) := s.fresh
      let lane : LaneAcc := { lane := 0, ptr := p, phys := some 0, mtype := 0, data := [], fill := none, done := false }
      let op : MemOp := { ent := c.eid, team := c.e.team, kind := .flush, space := .global, size := n, signed := false,
                          uniform := true, dest := .none, alu := none, acq := false, rel := false, l2 := false, cnt := .st,
                          pc := c.i.pc, word := c.i.next + 1, mask := c.e.mask, lanes := [lane], failed := false
                          after := c.e.after.filter fun k => (tabGet s.ops k).isSome, frag := c.e.fragCode }
      c.teamWord { s with ops := tabPut s.ops id op } fun t => t.cntPush .st id

end Sys2Proof.Machine
end

