-- ==== Sys2Proof/Machine/Atomic.lean ====
section
/-! DEFINITION. Atomics, opcodes 0x1D and 0x1E (R217 to R221). -/

namespace Sys2Proof.Machine

/-- The order field of an atomic (R111). -/
def ordAcq : AOrd → Bool
  | .acq | .ar => true
  | _ => false
def ordRel : AOrd → Bool
  | .rel | .ar => true
  | _ => false

/-- The bytes of the location (R217, R220). -/
def atomSize (op : AtomicOp) (ty : ATy) : Nat := if op = .acc ∨ ty = .b64 then 8 else 4

/-- The operand words of a lane (R217): D and the registers after it, or a constant or broadcast as its type supplies it. -/
def Cur.atomWords (c : Cur) (op : AtomicOp) (ty : ATy) (d : VOp) (lane : Nat) : List Word :=
  let word (x : VOp) : Word := (c.words .raw x).getD lane 0
  match d with
  | .v _ | .o _ => (List.range 4).map fun i => word ((List.range i).foldl (fun x _ => vopNext x) d)
  | .s n => if op ≠ .acc ∧ ty = .b64 then let x := c.t.xreg (n.toNat / 2); [x.setWidth 32, (x >>> 32).setWidth 32] else [word d]
  | .const k =>
    if op = .acc ∨ ty = .f32 then [constWord .f32 k]
    else if k = .negOne then [0xFFFFFFFF, 0xFFFFFFFF]
    else [constWord .raw k, 0]
  | .latch _ => [0]

/-- The operand bytes: one element, or the compare value and the new one of `acas`. -/
def Cur.atomData (c : Cur) (op : AtomicOp) (ty : ATy) (d : VOp) (lane : Nat) : List Byte :=
  (wordBytes (c.atomWords op ty d lane)).take (if op = .cas then 2 * atomSize op ty else atomSize op ty)

/-- An atomic that returns values counts in CNTLD, one that does not in CNTST (R217). -/
def returns : VOp → Bool
  | .v _ | .o _ => true
  | _ => false

/-- What an atomic asks for. -/
def atomAcc (op : AtomicOp) (ty : ATy) (o : AOrd) (space : Space) (d : VOp) : Acc :=
  { kind := .atomic, acc := .atomic, space := space, size := atomSize op ty, dest := destOf d, alu := some (op, ty),
    acq := ordAcq o, rel := ordRel o, cnt := if returns d then .ld else .st }

/-- NDET under MODE.DET: f32 `aadd` and `aacc`, before any other check (R37, R221). -/
def Cur.detFault (c : Cur) (op : AtomicOp) (ty : ATy) : Bool := c.det && (op == .acc || (op == .add && ty == .f32))

/-- A global atomic (R217, R221): WINV on every lane in a compute phase. -/
def globalAtomic (op : AtomicOp) (ty : ATy) (o : AOrd) (d : VOp) (b : BitVec 4) (v : VOp) (s : State) :
    Host.Outcome State Fault Refusal :=
  withCur s fun c =>
    if c.e.mask ≠ 0 && c.detFault op ty then c.raise s cNDET 0
    else
      let a := atomAcc op ty o .global d
      c.vecAccess s a (c.globalReqs false b.toNat v 0 (c.atomData op ty d))
        [alignCheck a.size, check cWINV fun _ => s.inPhase c.t] 1

/-- A space atomic (R217, R221): the location is the V offset. -/
def spaceAtomic (op : AtomicOp) (ty : ATy) (o : AOrd) (sp : Sp) (d : VOp) (v : VOp) (s : State) :
    Host.Outcome State Fault Refusal :=
  withCur s fun c =>
    if c.e.mask ≠ 0 && c.detFault op ty then c.raise s cNDET 0
    else
      let a := atomAcc op ty o (spOf sp) d
      c.vecAccess s a (c.spaceReqs false 0 v 0 (c.atomData op ty d))
        [alignCheck a.size, c.boundCheck s (spOf sp) a.size, c.residenceCheck s (spOf sp) a.size] 1

/-- `aadd` (R218). -/
def execAadd (o : AOrd) (t : ATy) (d : VOp) (b : BitVec 4) (v : VOp) (s : State) : Host.Outcome State Fault Refusal :=
  globalAtomic .add t o d b v s

/-- `amin` (R218). -/
def execAmin (o : AOrd) (t : ATy) (d : VOp) (b : BitVec 4) (v : VOp) (s : State) : Host.Outcome State Fault Refusal :=
  globalAtomic .min t o d b v s

/-- `amax` (R218). -/
def execAmax (o : AOrd) (t : ATy) (d : VOp) (b : BitVec 4) (v : VOp) (s : State) : Host.Outcome State Fault Refusal :=
  globalAtomic .max t o d b v s

/-- `aand` (R218). -/
def execAand (o : AOrd) (t : ATy) (d : VOp) (b : BitVec 4) (v : VOp) (s : State) : Host.Outcome State Fault Refusal :=
  globalAtomic .and t o d b v s

/-- `aor` (R218). -/
def execAor (o : AOrd) (t : ATy) (d : VOp) (b : BitVec 4) (v : VOp) (s : State) : Host.Outcome State Fault Refusal :=
  globalAtomic .or t o d b v s

/-- `axor` (R218). -/
def execAxor (o : AOrd) (t : ATy) (d : VOp) (b : BitVec 4) (v : VOp) (s : State) : Host.Outcome State Fault Refusal :=
  globalAtomic .xor t o d b v s

/-- `axch` (R218). -/
def execAxch (o : AOrd) (t : ATy) (d : VOp) (b : BitVec 4) (v : VOp) (s : State) : Host.Outcome State Fault Refusal :=
  globalAtomic .xch t o d b v s

/-- `acas` (R218). -/
def execAcas (o : AOrd) (t : ATy) (d : VOp) (b : BitVec 4) (v : VOp) (s : State) : Host.Outcome State Fault Refusal :=
  globalAtomic .cas t o d b v s

/-- `aacc` (R220). -/
def execAacc (o : AOrd) (d : VOp) (b : BitVec 4) (v : VOp) (s : State) : Host.Outcome State Fault Refusal :=
  globalAtomic .acc .b64 o d b v s

/-- `ainc` (R218). -/
def execAinc (o : AOrd) (n : Bool) (d : VOp) (b : BitVec 4) (v : VOp) (s : State) : Host.Outcome State Fault Refusal :=
  globalAtomic .inc (if n then .n32 else .i32) o d b v s

/-- `aadd.spad` and `.clmem` (R218). -/
def execAaddSpace (o : AOrd) (p : Sp) (t : ATy) (d v : VOp) (s : State) : Host.Outcome State Fault Refusal :=
  spaceAtomic .add t o p d v s

/-- `amin.spad` and `.clmem` (R218). -/
def execAminSpace (o : AOrd) (p : Sp) (t : ATy) (d v : VOp) (s : State) : Host.Outcome State Fault Refusal :=
  spaceAtomic .min t o p d v s

/-- `amax.spad` and `.clmem` (R218). -/
def execAmaxSpace (o : AOrd) (p : Sp) (t : ATy) (d v : VOp) (s : State) : Host.Outcome State Fault Refusal :=
  spaceAtomic .max t o p d v s

/-- `aand.spad` and `.clmem` (R218). -/
def execAandSpace (o : AOrd) (p : Sp) (t : ATy) (d v : VOp) (s : State) : Host.Outcome State Fault Refusal :=
  spaceAtomic .and t o p d v s

/-- `aor.spad` and `.clmem` (R218). -/
def execAorSpace (o : AOrd) (p : Sp) (t : ATy) (d v : VOp) (s : State) : Host.Outcome State Fault Refusal :=
  spaceAtomic .or t o p d v s

/-- `axor.spad` and `.clmem` (R218). -/
def execAxorSpace (o : AOrd) (p : Sp) (t : ATy) (d v : VOp) (s : State) : Host.Outcome State Fault Refusal :=
  spaceAtomic .xor t o p d v s

/-- `axch.spad` and `.clmem` (R218). -/
def execAxchSpace (o : AOrd) (p : Sp) (t : ATy) (d v : VOp) (s : State) : Host.Outcome State Fault Refusal :=
  spaceAtomic .xch t o p d v s

/-- `acas.spad` and `.clmem` (R218). -/
def execAcasSpace (o : AOrd) (p : Sp) (t : ATy) (d v : VOp) (s : State) : Host.Outcome State Fault Refusal :=
  spaceAtomic .cas t o p d v s

/-- `aacc.spad` and `.clmem` (R220). -/
def execAaccSpace (o : AOrd) (p : Sp) (d v : VOp) (s : State) : Host.Outcome State Fault Refusal :=
  spaceAtomic .acc .b64 o p d v s

/-- `ainc.spad` and `.clmem` (R218). -/
def execAincSpace (o : AOrd) (p : Sp) (n : Bool) (d v : VOp) (s : State) : Host.Outcome State Fault Refusal :=
  spaceAtomic .inc (if n then .n32 else .i32) o p d v s

end Sys2Proof.Machine
end

