-- ==== Sys2Proof/Machine/Sync.lean ====
section
/-! DEFINITION. Barriers, rings and the workgroup barrier, opcode 0x17 (R204 to R207, R127, R128). -/

namespace Sys2Proof.Machine

/-- The checks of R204 on an object of `extent` bytes: `count` is a ring's COUNT where the instruction checks one, and `live`
says that its granules must be resident.  The fault and its first address, or none. -/
def State.objectFault (s : State) (wid : Nat) (sp : Space) (off extent : Nat) (count : Option Nat) (live : Bool) :
    Option (Nat × Nat) :=
  let badCount : Bool := match count with | some n => n == 0 || decide (16 < n) | none => false
  if off % 16 ≠ 0 then some (cALGN, off)
  else if badCount then some (cILLOP, 0)
  else if (s.spaceOf wid sp).2 < off + extent then some (cSPBND, off)
  else if live && !s.allResident wid sp off extent then some (cBAROV, off)
  else none

/-- An instruction on an object: its checks, then its effect. -/
def Cur.onObject (c : Cur) (s : State) (sp : Sp) (off extent : Nat) (count : Option Nat) (live : Bool) (f : State → State) :
    State :=
  match s.objectFault c.t.wg (spOf sp) off extent count live with
  | some (x, a) => if x = cILLOP then c.illop s else c.raise s x a
  | none => f s

/-- An effect that is a release (R128): it waits until every earlier access of the entity is performed. -/
def Cur.released (c : Cur) (s : State) (sp : Sp) (f : State → State) : State :=
  if s.settledEnt c.eid then f (s.objectSync c.t.wg sp) else c.holdAt s .order

/-- The space that bit [20] of the word names. -/
def spBit (p : Bool) : Sp := if p then .clmem else .spad

/-- `barinit` (R205, R103): a store already on its way to the granule lands first, since none may change a live object. -/
def execBarinit (p : Bool) (o n b : BitVec 6) (s : State) : Host.Outcome State Fault Refusal :=
  withCur s fun c =>
    let sp := spBit p
    let off := (c.t.sreg o.toNat).toNat
    c.onObject s sp off 16 none false fun s =>
      if s.copyPending c.t.wg (spOf sp) off 16 then c.raise s cBAROV off
      else if s.storePending c.t.wg (spOf sp) off 16 then c.holdAt s .order
      else
        let s := s.putBar c.t.wg (spOf sp) off
          { expA := (c.t.sreg n.toNat).toNat % 65536, arrA := 0, expB := (c.t.sreg b.toNat).toNat, arrB := 0,
            phase := false, slot := false, ovr := false }
        c.advance (s.reside c.t.wg (spOf sp) off 16) 1

/-- `barexp` (R205). -/
def execBarexp (p : Bool) (o b : BitVec 6) (s : State) : Host.Outcome State Fault Refusal :=
  withCur s fun c =>
    let sp := spBit p
    let off := (c.t.sreg o.toNat).toNat
    c.onObject s sp off 16 none true fun s =>
      c.advance (s.modBar c.t.wg (spOf sp) off fun x => ({ x with expB := (c.t.sreg b.toNat).toNat }).test) 1

/-- `bararr` (R205): the phase before the arrival, and one arrival, with release. -/
def execBararr (p : Bool) (t o : BitVec 6) (s : State) : Host.Outcome State Fault Refusal :=
  withCur s fun c =>
    let sp := spBit p
    let off := (c.t.sreg o.toNat).toNat
    c.onObject s sp off 16 none true fun s => c.released s sp fun s =>
      let b := s.getBar c.t.wg (spOf sp) off
      c.teamWord (s.putBar c.t.wg (spOf sp) off b.arrive) fun x => x.setS t.toNat (if b.phase then 1 else 0)

/-- `barwait` (R205): held until the phase differs from the token; it acquires. -/
def execBarwait (p : Bool) (o t : BitVec 6) (s : State) : Host.Outcome State Fault Refusal :=
  withCur s fun c =>
    let sp := spBit p
    let off := (c.t.sreg o.toNat).toNat
    c.onObject s sp off 16 none true fun s =>
      if (s.getBar c.t.wg (spOf sp) off).phase != (c.t.sreg t.toNat).getLsbD 0 then c.advance (s.observe c.t) 1
      else c.holdAt s .barrier

/-- `bartry` (R205): a test without waiting. -/
def execBartry (p : Bool) (r o t : BitVec 6) (s : State) : Host.Outcome State Fault Refusal :=
  withCur s fun c =>
    let sp := spBit p
    let off := (c.t.sreg o.toNat).toNat
    c.onObject s sp off 16 none true fun s =>
      if (s.getBar c.t.wg (spOf sp) off).phase != (c.t.sreg t.toNat).getLsbD 0 then
        c.teamWord (s.observe c.t) fun x => x.setS r.toNat 1
      else c.teamWord s fun x => x.setS r.toNat 0

/-- The slot barriers of a fresh ring (R206). -/
def State.putSlots (s : State) (wid : Nat) (sp : Space) (off slotB : Nat) : Nat → State
  | 0 => s
  | n + 1 =>
    (s.putSlots wid sp off slotB n).putBar wid sp (off + 16 + 16 * n)
      { expA := 0, arrA := 0, expB := slotB, arrB := 0, phase := false, slot := true, ovr := false }

/-- `ringinit` (R206): the checks on the object, then on the data, then the header and the slots. -/
def execRinginit (p : Bool) (o x d : BitVec 6) (s : State) : Host.Outcome State Fault Refusal :=
  withCur s fun c =>
    let sp := spBit p
    let off := (c.t.sreg o.toNat).toNat
    let count := (c.t.sreg x.toNat).toNat
    let slotB := (c.t.sreg (x.toNat + 1)).toNat
    let data := (c.t.sreg d.toNat).toNat
    let extent := 16 + 16 * count
    c.onObject s sp off extent (some count) false fun s =>
      if s.copyPending c.t.wg (spOf sp) off extent then c.raise s cBAROV off
      else if data % 16 ≠ 0 then c.raise s cALGN data
      else if (s.spaceOf c.t.wg (spOf sp)).2 < data + count * slotB then c.raise s cSPBND data
      else if 0 < slotB ∧ data < off + extent ∧ off < data + count * slotB then c.raise s cBAROV off
      else if s.storePending c.t.wg (spOf sp) off extent then c.holdAt s .order
      else
        let s := s.spaceWrite c.t.wg (spOf sp) off (wordsBytes [count, slotB, 0, 0])
        c.advance ((s.putSlots c.t.wg (spOf sp) off slotB count).reside c.t.wg (spOf sp) off extent) 1

/-- `awaitf` (R206): held until the slot of index J is full; it acquires.  Where word +0 of the object lies outside the allocation, as
in CLMEM outside a cluster launch, COUNT reads 0 and the second check of R204 finds it before the third: ILLOP (the spec does not
say what COUNT is there; log 29). -/
def execAwaitf (p : Bool) (i o j : BitVec 6) (s : State) : Host.Outcome State Fault Refusal :=
  withCur s fun c =>
    let sp := spBit p
    let off := (c.t.sreg o.toNat).toNat
    let count := s.spaceWord c.t.wg (spOf sp) off
    let n := (c.t.sreg j.toNat).toNat
    c.onObject s sp off (16 + 16 * count) (some count) true fun s =>
      let k := n % count
      if (s.getBar c.t.wg (spOf sp) (off + 16 + 16 * k)).phase == ((n / count + 1) % 2 == 1) then
        c.teamWord (s.observe c.t) fun t => t.setS i.toNat (BitVec.ofNat 32 k)
      else c.holdAt s .ring

/-- `rels` (R206): one slot released, with release; ILLOP where none is claimed. -/
def execRels (p : Bool) (o : BitVec 6) (s : State) : Host.Outcome State Fault Refusal :=
  withCur s fun c =>
    let sp := spBit p
    let off := (c.t.sreg o.toNat).toNat
    c.onObject s sp off 16 none true fun s =>
      let r := s.spaceWord c.t.wg (spOf sp) (off + 12)
      if r = s.spaceWord c.t.wg (spOf sp) (off + 8) then c.illop s
      else c.released s sp fun s => c.advance (s.putWord c.t.wg (spOf sp) (off + 12) ((r + 1) % 4294967296)) 1

/-- The rendezvous of a workgroup's teams (R207, R273), by `wgbar` or by `commit`: ILLOP in a fragment and where a path is
detached or deferred; it arrives once its entity's accesses are performed, and is held until the rendezvous completes. -/
def Cur.rendezvous (c : Cur) (s : State) (commit : Bool) : State :=
  match c.e.arrived, tabGet s.wgs c.t.wg with
  | some g, some w =>
    if w.rvGen = g then c.holdAt s .workgroup else c.advance (s.modEnt c.eid fun e => { e with arrived := none }) 1
  | _, none => s
  | none, some w =>
    if c.e.isFrag || !(s.kids c.eid).isEmpty || !c.e.slots.isEmpty then c.illop s
    else if !s.settledEnt c.eid then c.holdAt s .arriving
    else
      let s := s.modWg c.t.wg fun w => { w with arrivals := w.arrivals ++ [{ team := c.e.team, commit := commit }] }
      let s := (s.modEnt c.eid fun e => { e with arrived := some w.rvGen }).rendezvousCheck c.t.wg
      match tabGet s.wgs c.t.wg with
      | some w' =>
        if w'.rvGen = w.rvGen then c.holdAt s .workgroup
        else c.advance (s.modEnt c.eid fun e => { e with arrived := none }) 1
      | none => s

/-- `wgbar` (R207). -/
def execWgbar (s : State) : Host.Outcome State Fault Refusal := withCur s fun c => c.rendezvous s false

end Sys2Proof.Machine
end

