-- ==== Sys2Proof/Machine/Copy.lean ====
section
/-! DEFINITION. Collective copies and reductions, opcode 0x20: issue (R224 to R231), cancelling (R234), and `cred` (R232, R323). -/

namespace Sys2Proof.Machine

/-! ### What a copy instruction asks for -/

/-- The space of the object of a copy (R224). -/
def CopyFn.objSpace : CopyFn → Sp
  | .g2c | .s2c => .clmem
  | _ => .spad

/-- The object key (R226): a space, and an offset or no object. -/
def copyKey (sp : Sp) (obj : Option Nat) : Nat :=
  (if sp = .clmem then 1 else 0) + 2 * (match obj with | some o => o + 1 | none => 0)

/-- The slice count that a field names (R225). -/
def State.sliceCount (s : State) (t : Team) (sl : BitVec 4) : Nat :=
  if sl = 0 then (match s.wgOf t with | some w => w.teams | none => 1) else sl.toNat

/-- The value of a base operand: a pair on a global side, a scalar on a space side (R224). -/
def Team.copyBase (t : Team) (sp : Space) (r : BitVec 6) : Nat :=
  if sp = .global then (t.xreg (r.toNat / 2)).toNat else (t.sreg r.toNat).toNat

/-- The collective copy that an instruction would start, from its fields (R224, R225); a gather's pointer table is on the space
side. -/
def Cur.copyAsk (c : Cur) (s : State) (fn : CopyFn) (dst src len : BitVec 6) (sl : BitVec 4) (obj rows stride : BitVec 6)
    (flags : Nat) : Copy :=
  let t := c.t
  let n := s.sliceCount t sl
  let l := (t.sreg len.toNat).toNat
  let off := if obj = 0 then none else some (t.sreg obj.toNat).toNat
  let key := copyKey fn.objSpace off
  let cred := fn == .cred
  { wg := t.wg, key := key, ordinal := (tabGet t.keys key).getD 0, fn := fn, slField := sl.toNat, sl := n, flags := flags, len := l
    rows := if rows = 0 ∨ cred then 1 else (t.sreg rows.toNat).toNat
    stride := if stride = 0 ∨ cred then n * l else (t.sreg stride.toNat).toNat
    src := t.copyBase (if fn = .gather then .spad else fn.srcSpace) src
    dst := t.copyBase fn.dstSpace dst
    obj := off.map fun o => (fn.objSpace, o)
    slot := none
    group := if cred then (t.sreg stride.toNat).toNat else 0
    ety := if cred then (t.sreg rows.toNat).toNat else 0
    credOrd := 0, cred := none, slices := [], cancelled := false, failed := false }

/-- The element size of an absent type of R229. -/
def ftypeBytes (n : Nat) : Nat := [4, 2, 2, 1, 1, 4, 1, 1].getD n 1

/-- The bytes of each row that a copy reads (R229): whole elements within the bound. -/
def Copy.bound (c : Copy) (b ftype : Nat) : Nat :=
  let e := ftypeBytes ftype
  if c.fillFlag then e * ((if c.width < b then c.width else b) / e) else c.width

/-- The pointer of row `r` of a gather (R225). -/
def State.gatherPtr (s : State) (c : Copy) (r : Nat) : Nat := leNat (s.spaceRead c.wg .spad (c.src + 8 * r) 8)

/-- Where a row of the source starts. -/
def State.copySrc (s : State) (c : Copy) (r : Nat) : Nat := if c.fn = .gather then s.gatherPtr c r else c.srcRow r

/-! ### The checks of a slice (R227) -/

/-- The least number of a list, and the first of a list that fails. -/
def leastOf (l : List Nat) : Nat := l.foldl (fun m x => if x < m then x else m) (l.headD 0)

/-- ALGN (R225, R229): the lengths, the bases, the object, and a gather's table and pointers. -/
def State.copyAlign (s : State) (c : Copy) (ftype : Nat) : Option Nat :=
  let addrs := (if c.fn = .gather then (if c.rows = 0 then [] else (List.range c.rows).map (s.gatherPtr c)) else [c.src]) ++
    [c.dst] ++ (match c.obj with | some o => [o.2] | none => [])
  let bad := addrs.filter (fun a => a % 16 ≠ 0) ++ (if c.fn = .gather && c.src % 8 != 0 then [c.src] else [])
  if !bad.isEmpty then some (leastOf bad)
  else if c.len % 16 ≠ 0 ∨ (c.stride % 16 ≠ 0) then some 0
  else if c.fillFlag && c.width % ftypeBytes ftype != 0 then some 0
  else none

/-- The first row of a slice whose range a test rejects, where it starts. -/
def Copy.badRow (c : Copy) (start : Nat → Nat) (i : Nat) (bad : Nat → Bool) : Option Nat :=
  if c.len = 0 then none else ((List.range c.rows).map fun r => start r + i * c.len).find? bad

/-- SPBND (R227): a slice's ranges, a gather's table, a ring's slot, and the object. -/
def State.copyBounds (s : State) (c : Copy) (i slotB : Nat) : Option Nat :=
  let past (sp : Space) (w off : Nat) : Bool := decide ((s.spaceOf w sp).2 < off + c.len)
  let ws := s.copyTargets c
  let src := if c.fn.srcSpace = .global then none else c.badRow c.srcRow i (past c.fn.srcSpace c.wg)
  let table := if c.fn = .gather && decide ((s.spaceOf c.wg .spad).2 < c.src + 8 * c.rows) then some c.src else none
  let dst := if c.fn.dstSpace = .global then none
    else c.badRow c.dstRow i (fun off => ws.any fun w => past c.fn.dstSpace w off)
  let ring := if c.ring && decide (slotB < c.bytes) then some c.dst else none
  let obj := match c.obj with
    | none => none
    | some (sp, o) =>
      let n := if c.ring then 16 + 16 * s.spaceWord c.wg (spOf sp) o else 16
      if ws.any fun w => decide ((s.spaceOf w (spOf sp)).2 < o + n) then some o else none
  (((src.or table).or dst).or ring).or obj

/-- BAROV (R227, R103): a resident granule in the destination, or an object granule that is not resident. -/
def State.copyResident (s : State) (c : Copy) (i : Nat) : Option Nat :=
  let ws := s.copyTargets c
  let dst := match c.fn.dstSpace with
    | .spad => c.badRow c.dstRow i fun off => ws.any fun w => s.anyResident w .spad off c.len
    | .clmem => c.badRow c.dstRow i fun off => s.anyResident c.wg .clmem off c.len
    | _ => none
  let obj := match c.obj with
    | none => none
    | some (sp, o) =>
      let n := if c.ring then 16 + 16 * s.spaceWord c.wg (spOf sp) o else 16
      if ws.all fun w => s.allResident w (spOf sp) o n then none else some o
  dst.or obj

/-- WINV (R227, R271): a global destination outside the window, an STMEM destination, or any `cred`. -/
def State.copyWindow (s : State) (t : Team) (c : Copy) (i : Nat) : Option Nat :=
  if !s.inPhase t then none
  else if c.fn = .cred then some c.dst
  else match c.fn.dstSpace with
    | .stmem => some (c.dst + i * c.len)
    | .global => c.badRow c.dstRow i fun a => !s.windowOk t a c.len
    | _ => none

/-- The reduction-group entry of a `cred` (R323): its Q, its RANK, whether it is valid, and the list of its rank descriptors. -/
structure GroupEntry where
  q : Nat
  rank : Nat
  valid : Bool
  list : Nat

/-- Where the entry of a group lies, and the entry as the device loads it (R397). -/
def State.groupAddr (s : State) (c g : Nat) : Nat := ((s.ctx c).grpBase.toNat + 16 * g) % 2 ^ 64
def State.groupEntry (s : State) (stack c g : Nat) : GroupEntry :=
  let b := s.deviceLoad stack c (s.groupAddr c g) 16
  { q := leNat (b.take 2), rank := leNat ((b.drop 2).take 2), valid := bitOf (leNat ((b.drop 4).take 1)) 0,
    list := leNat (b.drop 8) }

/-- The rank descriptors of a group (R323), read 8 bytes each. -/
def State.groupRanks (s : State) (stack c : Nat) (e : GroupEntry) : List Nat :=
  (List.range e.q).map fun r =>
    match s.xlate stack c .copyRead ((e.list + 8 * r) % 2 ^ 64) 8 with
    | .ok phys _ => leNat (s.loadBytes phys 8) % 16384
    | _ => 0

/-- Whether a rank descriptor names a context of this package (R323). -/
def State.rankHere (s : State) (d c : Nat) : Bool := d % 256 == s.member && d / 256 % 64 == c

/-- GMIS of a `cred` (R232, R323): a group, an element type or a table entry that may not be used. -/
def State.credBad (s : State) (stack c : Nat) (x : Copy) : Bool :=
  if x.fn ≠ .cred then false
  else if decide (63 < x.group) || decide (2 < x.ety) then true
  else match s.xlate stack c .copyRead (s.groupAddr c x.group) 16 with
    | .ok _ _ =>
      let e := s.groupEntry stack c x.group
      !e.valid || e.q == 0 || decide (512 < e.q) || decide (e.q ≤ e.rank)
    | _ => false

/-- Whether every slice of the copy of a key's ordinal has come and gone, so that each index of it is taken (R226). -/
def State.copyEnded (s : State) (want : Copy) : Bool :=
  match tabGet s.wgs want.wg with
  | some w => w.ended.contains (want.key, want.ordinal)
  | none => false

/-- GMIS (R226): a slice that disagrees with its copy's first, an index out of range or taken. -/
def copyMismatch (x : Option Copy) (want : Copy) (i : Nat) : Bool :=
  decide (want.sl ≤ i) || (match x with
    | none => false
    | some y => !(y.fn == want.fn && y.slField == want.slField && y.flags == want.flags && y.len == want.len && y.rows == want.rows &&
        y.stride == want.stride && y.src == want.src && y.dst == want.dst && y.group == want.group && y.ety == want.ety) ||
        y.slices.any fun z => z.index == i)

/-! ### The global side of a slice -/

/-- The reads of its group's table that a `cred` makes (R323): the entry and, where that is present, the rank descriptors. -/
def State.groupPieces (s : State) (stack ctx : Nat) (c : Copy) : List (AccKind × Nat × Nat) :=
  if c.fn ≠ .cred then [] else
    (AccKind.copyRead, s.groupAddr ctx c.group, 16) ::
      (match s.xlate stack ctx .copyRead (s.groupAddr ctx c.group) 16 with
       | .ok _ _ =>
         let e := s.groupEntry stack ctx c.group
         (List.range e.q).map fun r => (AccKind.copyRead, (e.list + 8 * r) % 2 ^ 64, 8)
       | _ => [])

/-- The global accesses of a slice, 16 bytes or fewer each: its reads within the bound, and its writes. -/
def State.copyPieces (s : State) (c : Copy) (i bound : Nat) : List (AccKind × Nat × Nat) :=
  let cols := List.range (c.len / 16)
  let reads := if c.fn.srcSpace ≠ .global then [] else
    (List.range c.rows).flatMap fun r => cols.filterMap fun k =>
      let o := i * c.len + 16 * k
      if o < bound then some (AccKind.copyRead, (s.copySrc c r + o) % 2 ^ 64, if bound < o + 16 then bound - o else 16) else none
  let writes := if c.fn.dstSpace ≠ .global then [] else
    (List.range c.rows).flatMap fun r => cols.map fun k => (AccKind.copyWrite, (c.dstRow r + i * c.len + 16 * k) % 2 ^ 64, 16)
  reads ++ writes

/-- The lowest address of accesses to the given pages, at which a wait that ends under FAIL is told (R330, R341). -/
def lowestAt (pages : List Nat) (ps : List (AccKind × Nat × Nat)) : Nat :=
  let l := (ps.map (·.2.1)).filter fun a => pages.contains (pageOf a)
  l.foldl Nat.min (l.headD 0)

/-- PGPR and then TAGF over the present pages: the cause and its addresses, of the lowest failing address.  An uncorrectable
error (R390: bit 63 of the second address) is met only by the read itself. -/
def State.piecesFail (s : State) (stack ctx : Nat) (met : Bool) (ps : List (AccKind × Nat × Nat)) : Option (Nat × Nat × Nat) :=
  let bad := ps.filterMap fun p => match s.xlate stack ctx p.1 p.2.1 p.2.2 with
    | .fault x a b => if met || decide (b < 2 ^ 63) then some (x, a, b) else none
    | _ => none
  let pick (l : List (Nat × Nat × Nat)) : Option (Nat × Nat × Nat) :=
    l.foldl (fun m x => match m with
      | none => some x
      | some y => if x.2.1 < y.2.1 then some x else some y) none
  (pick (bad.filter fun x => x.1 ≠ cTAGF)).or (pick (bad.filter fun x => x.1 = cTAGF))

/-- Step 7 of R227 at acceptance. -/
def State.copyPages (s : State) (stack ctx : Nat) (ps : List (AccKind × Nat × Nat)) : Option (Nat × Nat × Nat) :=
  s.piecesFail stack ctx false ps

/-- The lowest address on each page without a present mapping (R227, R309). -/
def State.copyAbsent (s : State) (stack ctx : Nat) (ps : List (AccKind × Nat × Nat)) : List Nat :=
  let gone := ps.filterMap fun p => match s.xlate stack ctx p.1 p.2.1 p.2.2 with
    | .absent => some p.2.1
    | _ => none
  ((gone.map pageOf).eraseDups).map fun pg => leastOf (gone.filter fun a => pageOf a == pg)

/-! ### Acceptance (R227, R228, R231) -/

/-- The number and record of the copy that a slice belongs to, if its first slice has been accepted. -/
def State.findCopy (s : State) (want : Copy) : Option (Nat × Copy) :=
  s.copies.find? fun x => x.2.wg == want.wg && x.2.key == want.key && x.2.ordinal == want.ordinal

/-- Whether every slice of a copy has been accepted. -/
def Copy.allCome (c : Copy) : Bool := decide (c.sl ≤ c.slices.length)

/-- A copy of which every slice has come is over: its ordinal on its key has been (R226). -/
def State.endCopy (s : State) (k : Nat) (c : Copy) : State :=
  { s with copies := tabDel s.copies k }.modWg c.wg fun w => { w with ended := (c.key, c.ordinal) :: w.ended }

/-- A copy that was cancelled or has failed goes once every slice of it has come (R228, R234). -/
def State.sweepCopy (s : State) (k : Nat) : State :=
  match tabGet s.copies k with
  | some c => if (c.cancelled || c.failed) && c.allCome then s.endCopy k c else s
  | none => s

/-- The counters of every team that issued a slice of a copy fall (R228). -/
def State.copyCount (s : State) (k : Nat) (c : Copy) : State :=
  ((c.slices.map (·.team)).eraseDups).foldl (fun s t => (s.modTeam t fun t => t.cntDone .cp k).recount t) s

/-- A new collective copy, its ring slot claimed (R206, R231) and, for a `cred`, its ordinal on its group taken (R232). -/
def State.openCopy (s : State) (ctx : Nat) (c : Copy) : Nat × State :=
  let (id, s) := s.fresh
  let s := match c.ring, c.obj with
    | true, some (sp, o) => s.putWord c.wg (spOf sp) (o + 8) ((s.spaceWord c.wg (spOf sp) (o + 8) + 1) % 4294967296)
    | _, _ => s
  if c.fn = .cred then
    let n := (tabGet (s.ctx ctx).creds c.group).getD 0
    let s := s.modCtx ctx fun x => { x with creds := tabPut x.creds c.group (n + 1) }
    (id, { s with copies := tabPut s.copies id { c with credOrd := n } })
  else (id, { s with copies := tabPut s.copies id c })

/-- A slice is accepted (R227): CNTCP rises, the column's L1 is written back (R125), and each missing page gets its record.  What its
issuer has accessed before precedes the copy's accesses (R125, and the example of R235 for a plain store; log 31). -/
def Cur.acceptSlice (c : Cur) (s : State) (id : Nat) (i bound ftype : Nat) (gone : List Nat) : State :=
  let sl : Slice := { team := c.e.team, ent := c.eid, index := i, moved := 0, missing := gone.map pageOf, fail := false
                      frag := c.e.fragCode, after := s.unperformed c.eid, bound := bound, ftype := ftype, pc := c.i.pc, word := c.i.next + 1, mask := c.e.mask }
  match tabGet s.copies id with
  | none => s
  | some x =>
    let s := s.observe c.t
    let s := s.modTeam c.e.team fun t =>
      { (t.cntPush .cp id) with keys := tabPut t.keys x.key ((tabGet t.keys x.key).getD 0 + 1) }
    let x' := { x with slices := x.slices ++ [sl] }
    let s := { s with copies := tabPut s.copies id x' }
    if x.cancelled || x.failed then (s.modTeam c.e.team fun t => t.cntDone .cp id).sweepCopy id
    else gone.foldl (fun s a => s.fqFault c.t (parkRecord c.e.fragCode c.e.mask c.i.pc (c.i.next + 1) a)) s

/-- The slice of a copy instruction (R225 to R231): CNTCP's room, the checks in order, a ring slot where it makes a claim, and
acceptance.  A ring whose header lies outside its allocation has COUNT 0 (log 29). -/
def Cur.copySlice (c : Cur) (s : State) (ask : Copy) (i b ftype : Nat) : State :=
  if 63 ≤ c.t.cnt .cp then c.holdAt s .room
  else
    let ctx := s.ctxOf c.t
    let stack := s.stackOf c.t
    let old := s.findCopy ask
    let hdr (n : Nat) : Nat := match ask.obj with | some (sp, o) => s.spaceWord ask.wg (spOf sp) (o + n) | none => 0
    let count := hdr 0
    let badCount := ask.ring && old.isNone && (count == 0 || decide (16 < count))
    let slot := match old with
      | some x => x.2.slot
      | none => if ask.ring then some (hdr 8 % count) else none
    let want := match slot with
      | some j => { ask with dst := ask.dst + j * hdr 4, slot := slot }
      | none => ask
    let bound := want.bound b ftype
    match s.copyAlign (if badCount then ask else want) ftype with
    | some a => c.raise s cALGN a
    | none =>
      if badCount then c.illop s
      else match s.copyBounds want i (hdr 4) with
        | some a => c.raise s cSPBND a
        | none => match s.copyResident want i with
          | some a => c.raise s cBAROV a
          | none => match s.copyWindow c.t want i with
            | some a => c.raise s cWINV a
            | none =>
              if (s.groupPieces stack ctx want).any (fun p => s.accessWaits stack ctx p.1 p.2.1 p.2.2) ||
                  (s.copyPieces want i bound).any (fun p => s.walkWaits stack ctx p.1 p.2.1) then c.holdAt s .slice
              else if copyMismatch (old.map (·.2)) want i || s.copyEnded want || s.credBad stack ctx want then
                c.raise s cGMIS (match ask.obj with | some o => o.2 | none => 0)
              else
                let table := s.groupPieces stack ctx want
                let ps := s.copyPieces want i bound
                match (s.copyPages stack ctx table).or (s.copyPages stack ctx ps) with
                | some (x, a1, a2) => c.raiseWith s { c.fault x a1 with addr2 := a2 }
                | none =>
                  if old.isNone && want.ring && decide ((hdr 8 + 4294967296 - hdr 12) % 4294967296 = count) then
                    c.holdAt s .slice
                  else if !s.replayRoom (s.partOf c.t) 0 0 then c.holdAt s .replay
                  else
                    let gone := s.copyAbsent stack ctx (table ++ ps)
                    let (id, s) := match old with
                      | some x => (x.1, s)
                      | none => s.openCopy ctx want
                    c.advance (c.acceptSlice s id i bound ftype gone) 2

/-- A copy instruction from its fields (R224, R229). -/
def copyWord (fn : CopyFn) (dst src len : BitVec 6) (sl : BitVec 4) (obj idx rows stride : BitVec 6) (mc ring fill : Bool)
    (s : State) : Host.Outcome State Fault Refusal :=
  withCur s fun c =>
    let flags := (if mc then 1 else 0) + (if ring then 2 else 0) + (if fill then 4 else 0)
    let x := (c.t.sreg (len.toNat + 1)).toNat
    c.copySlice s (c.copyAsk s fn dst src len sl obj rows stride flags) (c.t.sreg idx.toNat).toNat (x % 536870912) (x / 536870912)

/-- `cpy.g2s` (R224). -/
def execCpyG2s (dst src len : BitVec 6) (sl : BitVec 4) (obj idx rows stride : BitVec 6) (mc ring fill : Bool) (s : State) :
    Host.Outcome State Fault Refusal := copyWord .g2s dst src len sl obj idx rows stride mc ring fill s
/-- `cpy.g2c` (R224). -/
def execCpyG2c (dst src len : BitVec 6) (sl : BitVec 4) (obj idx rows stride : BitVec 6) (ring fill : Bool) (s : State) :
    Host.Outcome State Fault Refusal := copyWord .g2c dst src len sl obj idx rows stride false ring fill s
/-- `cpy.g2t` (R224). -/
def execCpyG2t (dst src len : BitVec 6) (sl : BitVec 4) (obj idx rows stride : BitVec 6) (fill : Bool) (s : State) :
    Host.Outcome State Fault Refusal := copyWord .g2t dst src len sl obj idx rows stride false false fill s
/-- `cpy.s2g` (R224). -/
def execCpyS2g (dst src len : BitVec 6) (sl : BitVec 4) (obj idx rows stride : BitVec 6) (s : State) :
    Host.Outcome State Fault Refusal := copyWord .s2g dst src len sl obj idx rows stride false false false s
/-- `cpy.c2s` (R224). -/
def execCpyC2s (dst src len : BitVec 6) (sl : BitVec 4) (obj idx rows stride : BitVec 6) (mc ring : Bool) (s : State) :
    Host.Outcome State Fault Refusal := copyWord .c2s dst src len sl obj idx rows stride mc ring false s
/-- `cpy.s2c` (R224). -/
def execCpyS2c (dst src len : BitVec 6) (sl : BitVec 4) (obj idx rows stride : BitVec 6) (ring : Bool) (s : State) :
    Host.Outcome State Fault Refusal := copyWord .s2c dst src len sl obj idx rows stride false ring false s
/-- `cpym` (R224). -/
def execCpym (dst src len : BitVec 6) (sl : BitVec 4) (obj idx rows stride : BitVec 6) (fill : Bool) (s : State) :
    Host.Outcome State Fault Refusal := copyWord .gg dst src len sl obj idx rows stride false false fill s
/-- `cpyx` (R224). -/
def execCpyx (dst src len : BitVec 6) (sl : BitVec 4) (obj idx rows stride : BitVec 6) (ring : Bool) (s : State) :
    Host.Outcome State Fault Refusal := copyWord .x2s dst src len sl obj idx rows stride false ring false s
/-- `cpyg` (R224, R225). -/
def execCpyg (dst src len : BitVec 6) (sl : BitVec 4) (obj idx rows stride : BitVec 6) (ring fill : Bool) (s : State) :
    Host.Outcome State Fault Refusal := copyWord .gather dst src len sl obj idx rows stride false ring fill s
/-- `cred` (R232). -/
def execCred (dst src len : BitVec 6) (sl : BitVec 4) (obj idx rows stride : BitVec 6) (s : State) :
    Host.Outcome State Fault Refusal := copyWord .cred dst src len sl obj idx rows stride false false false s

/-! ### Cancelling (R234) -/

/-- How many granules a slice has. -/
def Copy.granules (c : Copy) : Nat := c.rows * (c.len / 16)

/-- How many granules of a slice come before its first destination write: a `cred` reads all of its own before (R232). -/
def Copy.lead (c : Copy) : Nat := if c.fn = .cred then c.granules else 0

/-- Whether a slice of a copy has made a destination write. -/
def Copy.begun (c : Copy) : Bool := c.slices.any fun x => decide (c.lead < x.moved)

/-- A reduction whose part of one copy counts as in disagreement, unless it has its result. -/
def Cred.spoil (x : Cred) (k : Nat) : Cred :=
  if x.result.isSome then x
  else { x with parts := x.parts.map fun (p : CredRank) => if p.copy = some k then { p with mismatch := true } else p }

/-- The state with the part of one copy spoilt in its reduction (R233; log 49). -/
def State.spoilCred (s : State) (k : Nat) : State := { s with creds := s.creds.map fun (y : Nat × Cred) => (y.1, y.2.spoil k) }

/-- A copy is cancelled: the counters of its issuers fall, and slices of it still to come are discarded. -/
def State.cancelCopy (s : State) (k : Nat) (c : Copy) : State :=
  (({ s.spoilCred k with copies := tabPut s.copies k { c with cancelled := true } }).copyCount k c).sweepCopy k

/-- `cpycan` (R234). -/
def execCpycan (n : BitVec 6) (cl : Bool) (obj : BitVec 6) (s : State) : Host.Outcome State Fault Refusal :=
  withCur s fun c =>
    let sp := spBit cl
    let off := if obj = 0 then none else some (c.t.sreg obj.toNat).toNat
    let bad := match off with
      | some o => s.objectFault c.t.wg (spOf sp) o 16 none true
      | none => if cl && (s.wgOf c.t).bind (·.cluster) == none then some (cSPBND, 0) else none
    match bad with
    | some (x, a) => c.raise s x a
    | none =>
      let hit := s.copies.filter fun x => x.2.wg == c.t.wg && x.2.key == copyKey sp off && !x.2.cancelled && !x.2.failed &&
        !x.2.begun
      let s := hit.foldl (fun s x => s.cancelCopy x.1 x.2) s
      c.advance (s.modTeam c.e.team fun t => t.setS n.toNat (BitVec.ofNat 32 hit.length)) 2

end Sys2Proof.Machine
end

