-- ==== Sys2Proof/Machine/Trace.lean ====
section
/-! DEFINITION. The trace stream, its markers, and the latency histograms (R376 to R380), and the device's writes at physical
addresses that are not translated (R397). -/

namespace Sys2Proof.Machine

/-- Bytes written at a physical address that is not translated and carries no tag (R397), the lines of it that an L1 holds written
back first. -/
def State.physPut (s : State) (a : Nat) (bytes : List Byte) : State :=
  (s.l1Evict s.l1Cols fun x => decide (a ≤ x) && decide (x < a + bytes.length)).storeBytes (physOf a 0) bytes

/-- The same where the address may be of 2^48 or above, which names no memory. -/
def State.physStore (s : State) (a : Nat) (bytes : List Byte) : Host.Outcome State Fault Refusal :=
  if 2 ^ 48 < a + bytes.length then .fault (.noMemory a) else .next (s.physPut a bytes)

/-- The state of an outcome goes on to a next step. -/
def thenNext (o : Host.Outcome State Fault Refusal) (f : State → Host.Outcome State Fault Refusal) : Host.Outcome State Fault Refusal :=
  match o with
  | .next s => f s
  | .fault x => .fault x
  | .refused x => .refused x

/-! ### The ring (R377, R378) -/

/-- Whether the ring takes some more units: it is enabled, it lies where there is memory (log 34), and they fit. -/
def Trace.room (t : Trace) (units : Nat) : Bool :=
  decide (8 ≤ t.trlog) && decide (t.trlog ≤ 26) && decide (t.base.toNat + 64 * 2 ^ t.trlog ≤ 2 ^ 48) && decide ((t.tail - t.head).toNat + units ≤ 2 ^ t.trlog)

/-- A saturating 16-bit count. -/
def sat16 (n : Nat) : Nat := if n < 65535 then n + 1 else n

/-- The units of a record written from a place of the ring on, and TRTAIL after them. -/
def State.ringUnits (s : State) : List (List Byte) → State
  | [] => s
  | u :: us =>
    let s := s.physPut (s.trace.base.toNat + 64 * (s.trace.tail.toNat % 2 ^ s.trace.trlog)) u
    State.ringUnits { s with trace := { s.trace with tail := s.trace.tail + 1 } } us

/-- A list of bytes in units of 64. -/
def unitsOf (n : Nat) (bs : List Byte) : List (List Byte) := (List.range n).map fun i => (bs.drop (64 * i)).take 64

/-- A record enters the ring, or is lost whole and counted (R378). -/
def State.ringWrite (s : State) (frame : Bool) (units : Nat) (bytes : List Byte) : State :=
  if s.trace.room units then s.ringUnits (unitsOf units bytes)
  else
    let t := s.trace
    { s with trace := if frame then { t with fdrop := sat16 t.fdrop } else { t with mdrop := sat16 t.mdrop } }

/-- Whether a frame is due at this tick (R377). -/
def State.frameDue (s : State) : Bool :=
  s.trace.en && s.time.toNat % 2 ^ s.trace.k == 0 && s.trace.last != s.time.toNat

/-- A frame of the stream (R377): it takes its number, and the figures of every island (log 25). -/
def State.frame (s : State) : State :=
  let t := { s.trace with seq := s.trace.seq + 1, last := s.time.toNat }
  let head := [1 + 256 * t.k + 65536 * 85, t.seq.toNat, s.time.toNat % 4294967296, s.time.toNat / 4294967296,
    t.fdrop + 65536 * t.mdrop]
  let figures := (List.range 1344).map fun i => (Config.islandFigure s.free i).toNat
  State.ringWrite { s with trace := t, free := s.free + 1 } true 85
    (wordsBytes (head ++ List.replicate 11 0 ++ figures))

/-- TRACE_FRAME (R377): every island latches its figures at a tick that is a multiple of the interval. -/
def execTraceFrame (s : State) : Host.Outcome State Fault Refusal := .next (if s.frameDue then s.frame else s)

/-- The bytes of a marker record (R378). -/
def markerBytes (kind code ctx team grid time : Nat) (pc : Nat) : List Byte :=
  wordsBytes ([kind + 65536, code % 65536 + 65536 * (ctx % 64) + 4194304 * (team % 8), grid % 4294967296, 0, time % 4294967296,
    time / 4294967296, pc % 4294967296, pc / 4294967296] ++ List.replicate 8 0)

/-- A marker is written, after the frame that is due at the same tick (R378). -/
def State.marker (s : State) (bytes : List Byte) : State := (if s.frameDue then s.frame else s).ringWrite false 1 bytes

/-- `tmark` (R376, R378): a marker where the stream takes one; it never faults. -/
def execTmark (i : BitVec 16) (s : State) : Host.Outcome State Fault Refusal :=
  withCur s fun c =>
    let grid := match s.gridOf c.t with | some g => g.gridId | none => 0
    c.advance (if s.trace.en && s.trace.mark then
      s.marker (markerBytes 2 i.toNat (s.ctxOf c.t) c.t.teamId grid s.time.toNat c.i.pc.toNat) else s) 1

/-! ### Histograms (R379, R380) -/

/-- A histogram. -/
def State.hist (s : State) (h : Nat) : Histogram := (tabGet s.hists h).getD Histogram.reset
def State.modHist (s : State) (h : Nat) (f : Histogram → Histogram) : State := { s with hists := tabPut s.hists h (f (s.hist h)) }

/-- The bucket of a latency. -/
def bucketOf (n : Nat) : Nat := if Nat.log2 n < 31 then Nat.log2 n else 31

/-- The smallest bucket up to which the counts reach a number. -/
def Histogram.percentile (h : Histogram) : Nat :=
  let n := (h.bkt.map (·.2)).sum
  let want := ceilDiv (n * h.pctl) 256
  let upTo (b : Nat) : Nat := ((h.bkt.filter fun x => decide (x.1 ≤ b)).map (·.2)).sum
  ((List.range 32).find? fun b => decide (want ≤ upTo b)).getD 31

/-- Whether a request of a latency fires the trigger. -/
def Histogram.fires (h : Histogram) (n : Nat) : Bool :=
  h.arm && !h.fired && decide (h.mincnt ≤ (h.bkt.map (·.2)).sum) && decide (h.percentile < bucketOf n)

/-- The stream set or cleared by a trigger (R380, R384): one that starts emits its first frame at the next multiple of the interval. -/
def Trace.enable (t : Trace) (time : Nat) (on : Bool) : Trace :=
  { t with en := on, last := if on && !t.en then time else t.last }

/-- The action of the trigger of an engine.  Of those that set or clear the stream at one FTIME the lower number acts first (R384): where
a higher one has acted already at this tick, its setting stands. -/
def State.triggerAct (s : State) (h act : Nat) : State :=
  let now := s.time.toNat
  let later := s.hists.filter fun x => decide (h < x.1) && x.2.fired && x.2.ftime == now && (x.2.act == 1 || x.2.act == 2)
  match act with
  | 1 | 2 =>
    let t := s.trace.enable now (act == 1)
    { s with trace := later.foldl (fun t x => t.enable now (x.2.act == 1)) t }
  | 3 => (List.range 280).foldl (fun s h => s.modHist h fun x => { x with frozen := true }) s
  | _ => s

/-- A request is counted in its bucket, unless counting has stopped. -/
def Histogram.tally (h : Histogram) (n : Nat) : Histogram :=
  if h.frozen then h
  else
    let x := (tabGet h.bkt (bucketOf n)).getD 0
    { h with bkt := tabPut h.bkt (bucketOf n) (if x < 4294967295 then x + 1 else x) }

/-- An engine's request completes with a latency (R380): the trigger is tested before the request counts. -/
def State.histogramRequest (s : State) (h n : Nat) : State :=
  if 280 ≤ h then s
  else
    let x := s.hist h
    let s :=
      if x.fires n then
        ((s.modHist h fun x =>
          { x with fired := true, flat := if n < 4294967295 then n else 4294967295, ftime := s.time.toNat }).triggerAct h x.act).marker
          (markerBytes 3 h 0 0 0 s.time.toNat 0)
      else s
    s.modHist h fun x => x.tally n

/-- HISTOGRAM_REQUEST (R380). -/
def execHistogramRequest (h : Nat) (n : Nat) (s : State) : Host.Outcome State Fault Refusal := .next (s.histogramRequest h n)

/-- A request that the model itself completes: its latency is of timing alone, so it is a free value (log 25). -/
def State.ownRequest (s : State) (h : Nat) : State :=
  ({ s with free := s.free + 1 }).histogramRequest h (Config.latency s.free)

end Sys2Proof.Machine
end

