-- ==== Sys2Proof/Machine/CopyMove.lean ====
section
/-! DEFINITION. Copies in motion: their granules (R228, R345), completion, failure, and the reductions across packages (R232,
R233, R389). -/

namespace Sys2Proof.Machine

/-! ### Granules -/

/-- The stack and context that a copy is translated for. -/
def State.copyStack (s : State) (c : Copy) : Nat := match tabGet s.wgs c.wg with | some w => coreStack w.core | none => 0
def State.copyCtx (s : State) (c : Copy) : Nat := match tabGet s.wgs c.wg with | some w => w.ctx | none => 0

/-- How many granules a slice moves: a `cred` reads its own, and then writes as many of the result. -/
def Copy.total (c : Copy) : Nat := c.lead + c.granules

/-- The row and the byte in the row of a granule of slice `i`. -/
def Copy.place (c : Copy) (i g : Nat) : Nat × Nat := (g / (c.len / 16), i * c.len + 16 * (g % (c.len / 16)))

/-- The global accesses of one granule (R228): what it reads within the bound, and what it writes. -/
def State.granulePieces (s : State) (c : Copy) (sl : Slice) (g : Nat) : List (AccKind × Nat × Nat) :=
  let (r, o) := c.place sl.index g
  if c.fn = .cred then
    [if g < c.granules then (AccKind.copyRead, (c.src + o) % 2 ^ 64, 16) else (AccKind.copyWrite, (c.dst + o) % 2 ^ 64, 16)]
  else
    (if c.fn.srcSpace = .global && decide (o < sl.bound) then
      [(AccKind.copyRead, (s.copySrc c r + o) % 2 ^ 64, if sl.bound < o + 16 then sl.bound - o else 16)] else []) ++
    (if c.fn.dstSpace = .global then [(AccKind.copyWrite, (c.dstRow r + o) % 2 ^ 64, 16)] else [])

/-- Whether every access of a list translates; the pages that have no mapping; and the first fault. -/
def State.piecesAbsent (s : State) (c : Copy) (ps : List (AccKind × Nat × Nat)) : List Nat :=
  s.copyAbsent (s.copyStack c) (s.copyCtx c) ps
def State.piecesFault (s : State) (c : Copy) (ps : List (AccKind × Nat × Nat)) : Option (Nat × Nat × Nat) :=
  s.piecesFail (s.copyStack c) (s.copyCtx c) true ps

/-- The bytes of a granule: what the source holds within the bound, and the absent code beyond it (R229). -/
def State.granuleBytes (s : State) (c : Copy) (sl : Slice) (r o : Nat) : List Byte :=
  let n := if o + 16 ≤ sl.bound then 16 else if sl.bound ≤ o then 0 else sl.bound - o
  let src := match c.fn.srcSpace with
    | .global =>
      (match s.xlate (s.copyStack c) (s.copyCtx c) .copyRead ((s.copySrc c r + o) % 2 ^ 64) n with
       | .ok phys _ => s.loadBytes phys n
       | _ => [])
    | sp => s.spaceRead c.wg sp (c.srcRow r + o) n
  src ++ (List.range (16 - n)).map fun j =>
    BitVec.ofNat 8 ((absentOf (absTOf sl.ftype)).toNat / 256 ^ ((o + n + j) % 4))

/-- The state with the granule's accesses marked in the page tables (R335). -/
def State.touchPieces (s : State) (c : Copy) (ps : List (AccKind × Nat × Nat)) : State :=
  ps.foldl (fun s p => s.touch (s.copyStack c) (s.copyCtx c) p.1 p.2.1) s

/-- Whether a byte of a strided destination lies in a later row too, which lands there (R235). -/
def Copy.hidden (c : Copy) (r o : Nat) : Bool := c.fn == .s2g && decide (r + 1 < c.rows) && decide (c.stride ≤ o)

/-- The state with the bytes of a granule written (R228, R230). -/
def State.granuleWrite (s : State) (c : Copy) (r o : Nat) (bs : List Byte) : State :=
  match c.fn.dstSpace with
  | .global =>
    (match s.xlate (s.copyStack c) (s.copyCtx c) .copyWrite ((c.dstRow r + o) % 2 ^ 64) 16 with
     | .ok phys _ =>
       if c.hidden r (o + 15) then
         (bs.zipIdx).foldl (fun s b => if c.hidden r (o + b.2) then s else s.storeByte (phys + b.2) b.1) s
       else s.storeBytes phys bs
     | _ => s)
  | .spad => (s.copyTargets c).foldl (fun s w => s.spaceWrite w .spad (c.dstRow r + o) bs) s
  | sp => s.spaceWrite c.wg sp (c.dstRow r + o) bs

/-- Whether the landings of a granule are open (R345). -/
def State.granuleLanded (s : State) (c : Copy) (r o : Nat) : Bool :=
  (match c.fn.srcSpace with
   | .global => if c.fn = .gather then s.landed c.wg .spad (c.src + 8 * r) else true
   | sp => s.landed c.wg sp (c.srcRow r + o)) &&
  (match c.fn.dstSpace with
   | .global | .stmem => true
   | sp => (s.copyTargets c).all fun w => s.landed w sp (c.dstRow r + o))

/-- A slice of a copy changed. -/
def State.modSlice (s : State) (k i : Nat) (f : Slice → Slice) : State :=
  s.modCopy k fun c => { c with slices := c.slices.map fun (x : Slice) => if x.index = i then f x else x }

/-- The slice waits at pages without a mapping (R227): each gets its record once (R309). -/
def State.holdSlice (s : State) (k : Nat) (sl : Slice) (gone : List Nat) : State :=
  let s := s.modSlice k sl.index fun x => { x with missing := x.missing ++ gone.map pageOf }
  match tabGet s.teams sl.team with
  | none => s
  | some t => gone.foldl (fun s a => s.fqFault t (parkRecord sl.frag sl.mask sl.pc sl.word a)) s

/-! ### Reductions (R232, R233) -/

/-- The bytes of an element of a reduction. -/
def credBytes (ety : Nat) : Nat := if ety = 2 then 8 else 4

/-- Whether a rank descriptor names this package. -/
def State.localRank (s : State) (d : Nat) : Bool := d % 256 == s.member

/-- The rank descriptor of a context of this package (R323). -/
def State.ownRank (s : State) (ctx : Nat) : Nat := s.member + 256 * ctx

/-- Whether a context of this package has left the reduction of an ordinal of its group: its `cred` of that ordinal has come
and its copy is over (R232). -/
def State.credPast (s : State) (group ordinal d : Nat) : Bool :=
  s.localRank d && decide (ordinal < (tabGet (s.ctx (d / 256)).creds group).getD 0) &&
    !s.copies.any fun x => x.2.fn == .cred && x.2.group == group && x.2.credOrd == ordinal && s.copyCtx x.2 == d / 256 &&
      !x.2.cancelled && !x.2.failed

/-- Whether a rank that a reduction's table names has left it without a part in it. -/
def State.credLeft (s : State) (x : Cred) (d : Nat) : Bool :=
  !(x.parts.any fun p => p.owner == d) && s.credPast x.group x.ordinal d

/-- The terms of a reduction. -/
def Cred.terms (x : Cred) : CredTerms := { ranks := x.ranks, ety := x.ety, bytes := x.bytes, sl := x.sl }

/-- A `cred` takes its part in its group's reduction (R232): the one of its ordinal whose table names its context, or a rank of
which its own table names, or else a new one.  One whose terms or own descriptor disagree takes it as in disagreement (R233,
R323). -/
def State.joinCred (s : State) (k : Nat) (c : Copy) : State :=
  let ctx := s.copyCtx c
  let stack := s.copyStack c
  let e := s.groupEntry stack ctx c.group
  let ranks := s.groupRanks stack ctx e
  let own := s.ownRank ctx
  let bad := s.credBad stack ctx c || ranks.getD e.rank 16384 != own
  let part (m : Bool) : CredRank := { rank := e.rank, owner := own, copy := some k, blocks := [], mismatch := m }
  match s.creds.find? fun x => x.2.group == c.group && x.2.ordinal == c.credOrd && x.2.result.isNone &&
      !x.2.parts.any (fun p => p.owner == own && p.copy.isSome) &&
      (x.2.ranks.contains own || x.2.parts.any fun p => p.copy.isSome && ranks.contains p.owner) with
  | some (id, x) =>
    let m := bad || x.ranks != ranks || x.ety != c.ety || x.bytes != c.width || x.sl != c.sl
    let others := if m then x.parts else x.parts.filter fun p => p.rank != e.rank
    { s with
      creds := tabPut s.creds id { x with parts := others ++ [part m] }
      copies := tabPut s.copies k { c with cred := some id } }
  | none =>
    let (id, s) := s.fresh
    let x : Cred := { group := c.group, ordinal := c.credOrd, ranks := if s.credBad stack ctx c then [own] else ranks, ety := c.ety
                      bytes := c.width, sl := c.sl, parts := [part bad] }
    { s with creds := tabPut s.creds id x, copies := tabPut s.copies k { c with cred := some id } }

/-- Whether a chorus link carries traffic (R388): enabled, trained and keyed. -/
def State.linkUp (s : State) (l : Nat) : Bool :=
  s.linkEn.getLsbD l && (match tabGet s.links l with | some x => x.trained && x.keyed | none => false)

/-- Whether the path to a package has a link up (R388): one of those that the firmware's table routes it by. -/
def State.pathUp (s : State) (m : Nat) : Bool := (List.range 18).any fun l => (s.routes.getD m 0).getLsbD l && s.linkUp l

/-- The array that a local rank brings: what its slices have read at SRC. -/
def Copy.rankBytes (c : Copy) : List Byte :=
  (List.range c.sl).flatMap fun i => match c.slices.find? fun x => x.index == i with
    | some x => x.data
    | none => []

/-- A count as a cell keeps it (R220): one above 65,535 is taken as 65,535. -/
def capCount (n : Nat) : Nat := if 65535 < n then 65535 else n

/-- Values and counts of a block's elements (R389). -/
def blockElems (ety : Nat) (bs : List Byte) : List (Nat × Nat) :=
  (List.range 16).map fun i =>
    let e := (bs.drop (credBytes ety * i)).take (credBytes ety)
    (leNat (e.take 4), if ety = 2 then capCount (leNat (e.drop 4)) else 0)

/-- Fields laid one after another, the first lowest (log 23). -/
def packBits : List (Nat × Nat) → Nat
  | [] => 0
  | (w, x) :: t => x % 2 ^ w + 2 ^ w * packBits t

/-- The 3-bit code of a value, and the field that follows it (R389). -/
def wireCode (emax v : Nat) : Nat × (Nat × Nat) :=
  let e := bitsOf v 30 23
  if e = 0 ∨ e = 255 ∨ emax < e ∨ 6 < emax - e then (7, (32, v)) else (emax - e, (24, bitsOf v 31 31 + 2 * bitsOf v 22 0))

/-- The wire form of a block of 16 elements (R389): its header, its payload, and the bits it takes. -/
def wireBlock (ety : Nat) (bs : List Byte) : BitVec 16 × Nat × Nat :=
  let es := blockElems ety bs
  let vals := es.map (·.1)
  let coded := (vals.map fun v => bitsOf v 30 23).filter fun e => e ≠ 0 && e ≠ 255
  let emax := coded.foldl Nat.max 0
  let codes := vals.flatMap fun v => let c := wireCode emax v; [(3, c.1), c.2]
  let bits (l : List (Nat × Nat)) : Nat := (l.map (·.1)).sum
  let comp := ety != 1 && decide (bits codes < 512)
  let ceq := ety == 2 && es.all fun e => e.2 == (es.headD (0, 0)).2
  let counts := if ety = 2 then (if ceq then [(16, (es.headD (0, 0)).2)] else es.map fun e => (16, e.2)) else []
  let body := (if comp then codes else vals.map fun v => (32, v)) ++ counts
  (BitVec.ofNat 16 ((if comp then 1 + 2 * emax else 0) + (if ceq then 512 else 0)), packBits body, 16 + bits body)

/-- The values of a compressed block (R389), and the bits that follow them. -/
def unwire (emax : Nat) : Nat → Nat → List Nat × Nat
  | 0, p => ([], p)
  | n + 1, p =>
    let c := p % 8
    let p := p / 8
    if c = 7 then let r := unwire emax n (p / 4294967296); (p % 4294967296 :: r.1, r.2)
    else
      let r := unwire emax n (p / 16777216)
      ((p % 2 * 2147483648 + (emax - c) * 8388608 + p / 2 % 8388608) :: r.1, r.2)

/-- The raw words of a block, and the bits that follow them. -/
def unraw : Nat → Nat → List Nat × Nat
  | 0, p => ([], p)
  | n + 1, p => let r := unraw n (p / 4294967296); (p % 4294967296 :: r.1, r.2)

/-- The bytes of a block, rebuilt exactly (R389). -/
def unwireBlock (ety : Nat) (header : BitVec 16) (payload : Nat) : List Byte :=
  let h := header.toNat
  let (vals, rest) := if bitOf h 0 then unwire (bitsOf h 8 1) 16 payload else unraw 16 payload
  (vals.zipIdx).flatMap fun v =>
    leBytes 4 v.1 ++ (if ety = 2 then leBytes 4 (if bitOf h 9 then rest % 65536 else rest / 65536 ^ v.2 % 65536) else [])

/-- Block `i` of a rank's array: 16 elements, zero past its end. -/
def blockOf (ety : Nat) (bs : List Byte) (i : Nat) : List Byte :=
  let n := 16 * credBytes ety
  let b := (bs.drop (n * i)).take n
  b ++ List.replicate (n - b.length) 0

/-- How many blocks an array takes. -/
def Cred.blocks (x : Cred) : Nat := ceilDiv (x.bytes / credBytes x.ety) 16

/-- The other packages of a reduction to which a path is up. -/
def State.credMembers (s : State) (x : Cred) : List Nat :=
  (((x.ranks.filter fun d => !s.localRank d).map (· % 256)).eraseDups).filter s.pathUp

/-- A local rank's array is sent to every other package of its group (R388, R389). -/
def State.sendRank (s : State) (id : Nat) (x : Cred) (rank : Nat) (c : Copy) : State :=
  let bs := c.rankBytes
  (s.credMembers x).foldl (fun s m =>
    (List.range x.blocks).foldl (fun s i =>
      let (h, p, n) := wireBlock x.ety (blockOf x.ety bs i)
      let b : CredBlock := { cred := id, rank := rank, terms := x.terms, index := i, header := h, payload := p }
      ({ s with sentBlocks := s.sentBlocks ++ [(m, b)] }).countEvent (s.copyCtx c) 0x0F (ceilDiv n 8)) s) s

/-- Two elements combined (R233), the lower rank first, with the flags; the value of a first counted contribution passes (R220). -/
def combine (ety : Nat) (x y : Nat) : Nat × Word :=
  match ety with
  | 0 => float2 fmtF32 .ne false .add x y
  | 1 =>
    if x = 0x80000000 then (y, 0)
    else if y = 0x80000000 then (x, 0)
    else ifmtI32.sat (intVal 32 x + intVal 32 y)
  | _ =>
    let cx := capCount (x / 4294967296)
    let cy := capCount (y / 4294967296)
    if cy = 0 then (x % 4294967296 + 4294967296 * cx, 0)
    else
      let (v, f) := if cx = 0 then passNum fmtF32 (y % 4294967296)
        else float2 fmtF32 .ne false .add (x % 4294967296) (y % 4294967296)
      (v + 4294967296 * capCount (cx + cy), if 65535 < cx + cy then f ||| flagCSAT else f)

/-- One level of the tree (R233): pairs at distance `2^j`. -/
def treeLevel (ety j : Nat) (vs : List Nat) : List Nat × Word :=
  (List.range vs.length).foldl (fun a q =>
    if q % 2 ^ (j + 1) = 0 ∧ q + 2 ^ j < vs.length then
      let (v, f) := combine ety (a.1.getD q 0) (a.1.getD (q + 2 ^ j) 0)
      (a.1.set q v, a.2 ||| f)
    else a) (vs, 0)

/-- The tree of R233 over one element's values by rank, with ABS where nothing was present (R80). -/
def treeSum (ety : Nat) (vs : List Nat) : Nat × Word :=
  let r := (List.range 10).foldl (fun a j => let (v, f) := treeLevel ety j a.1; (v, a.2 ||| f)) (vs, (0 : Word))
  let v := r.1.headD 0
  match ety with
  | 0 => if (numOf fmtF32 v).isAbsent then (v, r.2 ||| flagABS) else (v, r.2)
  | 1 => if v = 0x80000000 then (v, r.2 ||| flagABS) else (v, r.2)
  | _ => if v / 4294967296 = 0 then (0, r.2 ||| flagABS) else (v % 4294967296 + 4294967296 * capCount (v / 4294967296), r.2)

/-- The array of every rank of a reduction, local ones from memory and the others from their blocks. -/
def State.credArrays (s : State) (x : Cred) : List (List Byte) :=
  (List.range x.ranks.length).map fun r =>
    match x.parts.find? fun p => p.rank == r with
    | some p => match p.copy.bind (tabGet s.copies) with
      | some c => c.rankBytes
      | none => ((List.range x.blocks).flatMap fun i => (tabGet p.blocks i).getD []).take x.bytes
    | none => []

/-- The result of a reduction and the flags it raises. -/
def credResult (ety bytes : Nat) (arrays : List (List Byte)) : List Byte × Word :=
  let n := credBytes ety
  (List.range (bytes / n)).foldl (fun a i =>
    let (v, f) := treeSum ety (arrays.map fun b => leNat ((b.drop (n * i)).take n))
    (a.1 ++ leBytes n v, a.2 ||| f)) ([], 0)

/-- The copies of the local ranks that have taken part in a reduction. -/
def Cred.copies (x : Cred) : List Nat := x.parts.filterMap (·.copy)

/-- Whether every slice of a copy has come and has moved every granule; whether every slice of a `cred` has read its own. -/
def Copy.allMoved (c : Copy) : Bool := c.allCome && c.slices.all fun x => decide (c.total ≤ x.moved)
def Copy.allRead (c : Copy) : Bool := c.allCome && c.slices.all fun x => decide (c.granules ≤ x.moved)

/-- Whether every rank's part has arrived; whether every local rank has taken part; and whether the reduction must be
abandoned: ranks disagree, one has left it, or the path to one has no link up (R233, R388). -/
def State.credReady (s : State) (x : Cred) : Bool :=
  (List.range x.ranks.length).all fun r =>
    match x.parts.find? fun p => p.rank == r with
    | some p => (match p.copy with
      | some k => (match tabGet s.copies k with | some c => c.allRead | none => false)
      | none => !s.localRank (x.ranks.getD r 0) && (List.range x.blocks).all fun i => (tabGet p.blocks i).isSome)
    | none => false
def State.credHere (s : State) (x : Cred) : Bool :=
  x.ranks.all fun d => !s.localRank d || s.credLeft x d || x.parts.any fun p => p.owner == d &&
    (match p.copy with
     | some k => (match tabGet s.copies k with | some c => c.allCome | none => true)
     | none => false)
def State.credBroken (s : State) (x : Cred) : Bool :=
  x.result.isNone && (x.parts.any (·.mismatch) || x.ranks.any fun d => s.credLeft x d || !s.localRank d && !s.pathUp (d % 256))

/-- The object of a copy receives its bytes (R228, R230, R231): a slot barrier for a ring, else the object, in every workgroup
that the copy wrote. -/
def State.creditObject (s : State) (c : Copy) : State :=
  match c.obj with
  | none => s
  | some (sp, o) =>
    let off := match c.ring, c.slot with | true, some j => o + 16 + 16 * j | _, _ => o
    (s.copyTargets c).foldl (fun s w => s.modBar w (spOf sp) off fun b => b.count c.bytes) s

/-- The result that a `cred` has to write, if its reduction has one (R233). -/
def State.credResultOf (s : State) (c : Copy) : Option (List Byte × Word) := (c.cred.bind (tabGet s.creds)).bind (·.result)

/-- A reduction of which no local rank has a copy left is over. -/
def State.sweepCred (s : State) (id : Nat) : State :=
  match tabGet s.creds id with
  | some x => if x.copies.any fun k => (tabGet s.copies k).isSome then s else { s with creds := tabDel s.creds id }
  | none => s

/-- What tells the other packages of a reduction that it is abandoned (R233). -/
def State.abandonNotes (s : State) (id : Nat) (x : Cred) : List (Nat × CredBlock) :=
  let b : CredBlock := { cred := id, rank := (x.parts.map (·.rank)).headD 0, terms := x.terms, abandoned := true, index := 0
                         header := 0, payload := 0 }
  (s.credMembers x).map fun m => (m, b)

/-- A copy of an abandoned reduction ends (R233): its counters fall, and its first-slice team gets a deferred GMIS. -/
def State.abandonCopy (s : State) (k : Nat) : State :=
  match tabGet s.copies k with
  | none => s
  | some c =>
    let s := (s.copyCount k c).endCopy k c
    match c.slices.head? with
    | none => s
    | some sl =>
      s.deferFault sl.team { cause := cGMIS, word := sl.word, frag := sl.frag, lanes := sl.mask, pc := sl.pc
                             addr1 := (match c.obj with | some o => o.2 | none => 0), resumePc := sl.pc, resume := 1 }

/-- `cred` is abandoned (R233): no byte is written, every local rank's copy ends, and the other packages are told. -/
def State.credAbandon (s : State) (id : Nat) (x : Cred) : State :=
  let u := x.copies.foldl State.abandonCopy s
  { u with creds := tabDel u.creds id, sentBlocks := u.sentBlocks ++ s.abandonNotes id x }

/-- CRED_COMPLETE (R233): every rank's array has arrived, and the tree's result is there for every local rank to write; or the
reduction is abandoned. -/
def execCredComplete (g : Nat) (s : State) : Host.Outcome State Fault Refusal :=
  .next (match tabGet s.creds g with
    | none => s
    | some x =>
      if s.credBroken x then (if s.credHere x then s.credAbandon g x else s)
      else if x.result.isNone && s.credReady x then
        { s with creds := tabPut s.creds g { x with result := some (credResult x.ety x.bytes (s.credArrays x)) } }
      else s)

/-- CRED_BLOCK (R389): a block of a rank of another package arrives, over a path with a link up (R388, R393).  One whose terms
differ from the reduction's puts it in disagreement (R233). -/
def execCredBlock (x : CredBlock) (s : State) : Host.Outcome State Fault Refusal :=
  .next (match tabGet s.creds x.cred with
    | none => s
    | some r =>
      let d := r.ranks.getD x.rank s.member
      let off := x.abandoned || x.terms != r.terms
      if s.localRank d || !s.pathUp (d % 256) || !off && decide (r.blocks ≤ x.index) || r.result.isSome then s
      else
        let old : CredRank := (r.parts.find? fun p => p.rank == x.rank).getD
          { rank := x.rank, owner := d, copy := none, blocks := [], mismatch := false }
        let new := if off then { old with mismatch := true }
          else { old with blocks := tabPut old.blocks x.index (unwireBlock r.ety x.header x.payload) }
        { s with creds := tabPut s.creds x.cred { r with parts := r.parts.filter (fun p => p.rank != x.rank) ++ [new] } })

/-! ### One granule -/

/-- The accesses that a slice's next step makes: the next granule's; for a `cred` that has not joined, its group's table, and none
while it waits for its result. -/
def State.slicePieces (s : State) (c : Copy) (sl : Slice) : List (AccKind × Nat × Nat) :=
  if c.fn = .cred && c.cred.isNone then s.groupPieces (s.copyStack c) (s.copyCtx c) c
  else if c.lead ≤ sl.moved && c.fn == .cred && (s.credResultOf c).isNone then []
  else if sl.moved < c.total then s.granulePieces c sl sl.moved
  else []

/-- The accesses that a slice has still to make. -/
def State.restPieces (s : State) (c : Copy) (sl : Slice) : List (AccKind × Nat × Nat) :=
  if c.fn = .cred && c.cred.isNone then s.groupPieces (s.copyStack c) (s.copyCtx c) c
  else ((List.range c.total).drop sl.moved).flatMap (s.granulePieces c sl)

/-- Why a slice cannot go on (R228): its wait has ended under FAIL, or a check fails at a page of its next accesses. -/
def State.sliceFault (s : State) (c : Copy) (sl : Slice) : Option (Nat × Nat × Nat) :=
  if sl.fail then some (cPGNP, lowestAt sl.missing (s.restPieces c sl), 0)
  else
    let ps := s.slicePieces c sl
    if ps.any fun p => sl.missing.contains (pageOf p.2.1) then none else s.piecesFault c ps

/-- Whether a copy must still wait for earlier accesses of the entities that issue it (R125). -/
def State.copyWaits (s : State) (c : Copy) : Bool := c.slices.any fun x => x.after.any fun k => (tabGet s.ops k).isSome

/-- The L1 write-backs that the order of a copy behind its issuers requires (R125), before each access of a slice: the slices
accepted so far, some of them after this one began, each have their issuer. -/
def State.observeIssuers (s : State) (c : Copy) : State :=
  c.slices.foldl (fun s x => match tabGet s.teams x.team with | some t => s.observe t | none => s) s

/-- A slice of a `cred` takes one granule of its own array, and after the last of its rank's that array goes to the other
packages (R388); or it writes one granule of the result. -/
def State.credStep (s : State) (k : Nat) (c : Copy) (sl : Slice) : State :=
  let (_, o) := c.place sl.index sl.moved
  if sl.moved < c.granules then
    let bs := match s.xlate (s.copyStack c) (s.copyCtx c) .copyRead ((c.src + o) % 2 ^ 64) 16 with
      | .ok phys _ => s.loadBytes phys 16
      | _ => []
    let s := s.modSlice k sl.index fun x => { x with moved := x.moved + 1, data := x.data ++ bs }
    match tabGet s.copies k, c.cred with
    | some c', some id => (match tabGet s.creds id with
      | some x => (match c'.allRead, x.parts.find? (fun p => p.copy == some k) with
          | true, some p => s.sendRank id x p.rank c'
          | _, _ => s)
      | none => s)
    | _, _ => s
  else
    match s.credResultOf c with
    | none => s
    | some (bytes, _) =>
      let s := match s.xlate (s.copyStack c) (s.copyCtx c) .copyWrite ((c.dst + o) % 2 ^ 64) 16 with
        | .ok phys _ => s.storeBytes phys ((bytes.drop o).take 16)
        | _ => s
      s.modSlice k sl.index fun x => { x with moved := x.moved + 1 }

/-- Whether some access must wait for a port (R385). -/
def State.piecesFar (s : State) (c : Copy) (ps : List (AccKind × Nat × Nat)) : Bool :=
  ps.any fun p => s.accessWaits (s.copyStack c) (s.copyCtx c) p.1 p.2.1 p.2.2

/-- A step of a slice (R228, R345, R379): it waits for what its copy's issuers did before (R125), for its landing, and for its pages;
then one granule is read and written. -/
def State.sliceStep (s : State) (k i : Nat) : State :=
  match tabGet s.copies k with
  | none => s
  | some c =>
    match c.slices.find? fun x => x.index == i with
    | none => s
    | some sl =>
      let (r, o) := c.place i sl.moved
      let ps := s.slicePieces c sl
      let gone := s.piecesAbsent c ps
      if c.cancelled || c.failed || s.copyWaits c || s.piecesFar c ps || (s.sliceFault c sl).isSome then s
      else if !gone.isEmpty then
        let new := (gone.map pageOf).filter fun p => !sl.missing.contains p
        s.holdSlice k sl ((s.piecesAbsent c (s.restPieces c sl)).filter fun a => new.contains (pageOf a))
      else if ps.any (fun p => sl.missing.contains (pageOf p.2.1)) then s
      else if c.fn = .cred && c.cred.isNone then ((s.observeIssuers c).touchPieces c ps).joinCred k c
      else if ps.isEmpty && c.fn == .cred || decide (c.total ≤ sl.moved) || !s.granuleLanded c r o then s
      else
        let s := (s.observeIssuers c).touchPieces c ps
        let s := if c.fn = .cred then s.credStep k c sl
          else (s.granuleWrite c r o (s.granuleBytes c sl r o)).modSlice k i fun x => { x with moved := x.moved + 1 }
        if c.total ≤ sl.moved + 1 then s.ownRequest (s.copyStack c) else s

/-- What completes with a `cred` beside its bytes (R233): its flags in every issuing team, and its reduction after its last copy. -/
def State.credDone (s : State) (c : Copy) : State :=
  match c.cred, s.credResultOf c with
  | some id, some (_, flags) =>
    (((c.slices.map (·.team)).eraseDups).foldl (fun s t => s.modTeam t fun t => t.raiseFlags flags) s).sweepCred id
  | _, _ => s

/-- COPY_COMPLETE (R228): every slice has come and every byte is written; the object receives the bytes, and then CNTCP
falls. -/
def execCopyComplete (c : Nat) (s : State) : Host.Outcome State Fault Refusal :=
  .next (match tabGet s.copies c with
    | none => s
    | some x =>
      if x.cancelled || x.failed || !x.allMoved || (x.fn == .cred && (s.credResultOf x).isNone) then s
      else (((s.endCopy c x).credDone x).creditObject x).copyCount c x)

/-- COPY_FAILURE (R228): a slice that cannot go on ends its whole copy; its team gets the record, deferred and parked. -/
def execCopyFailure (c : Nat) (i : Nat) (s : State) : Host.Outcome State Fault Refusal :=
  .next (match tabGet s.copies c with
    | none => s
    | some x =>
      match x.slices.find? fun y => y.index == i with
      | none => s
      | some sl =>
        match x.cancelled || x.failed || !sl.fail && (s.copyWaits x || s.piecesFar x (s.slicePieces x sl)), s.sliceFault x sl with
        | false, some (cause, a1, a2) =>
          let s := { s.spoilCred c with copies := tabPut s.copies c { x with failed := true } }
          let s := (s.copyCount c x).sweepCopy c
          s.deferFault sl.team { cause := cause, parked := true, word := sl.word, frag := sl.frag, lanes := sl.mask, pc := sl.pc
                                 addr1 := a1, addr2 := a2, resumePc := sl.pc, resume := 1 }
        | _, _ => s)

end Sys2Proof.Machine
end

