-- ==== Sys2Proof/Machine/Engine.lean ====
section
/-! DEFINITION. The matrix engine's data: MOB records and their formats (R70 to R74, R244, R245), stationary planes (R249, R250),
the group rule (R83 to R86, R254), drains and the activation table (R256 to R260). -/

namespace Sys2Proof.Machine

/-! ### Format words (R244, R245) -/

/-- The fields of a format word. -/
def fmtKind (w : Word) : Nat := w.toNat % 16
def fmtPlanes (w : Word) : Nat := if bitsOf w.toNat 6 4 = 0 then 8 else bitsOf w.toNat 6 4
def fmtCentre (w : Word) : Bool := bitOf w.toNat 7
def fmtBlock (w : Word) : Nat := [0, 32, 64, 128].getD (bitsOf w.toNat 9 8) 0
def fmtStrict (w : Word) : Bool := bitOf w.toNat 10
def fmtCount (w : Word) : Nat := w.toNat / 65536

/-- Whether a format word may be reserved (R244). -/
def fmtOk (w : Word) : Bool :=
  let n := w.toNat
  decide (fmtKind w < 11) && (fmtKind w == 8 || bitsOf n 7 4 == 0) && (decide (4 ≤ fmtKind w) && decide (fmtKind w < 10) || bitsOf n 9 8 == 0) &&
    (fmtKind w == 9 || !bitOf n 10) && bitsOf n 15 11 == 0 && fmtCount w != 0

/-- Whether a record is an i32 raw image, is block-scaled, or holds integers. -/
def fmtRaw (w : Word) : Bool := fmtKind w == 10
def fmtScaled (w : Word) : Bool := fmtBlock w != 0
def fmtInt (w : Word) : Bool := decide (6 ≤ fmtKind w) && decide (fmtKind w < 10)

/-- The elements of a row, and the stationary width (R245, R249); a raw image is one element a row. -/
def fmtLen (w : Word) : Nat := if fmtRaw w then 1 else [32, 64, 128, 128].getD (fmtKind w) 256
def fmtWide (w : Word) : Nat := [64, 128].getD (fmtKind w) 256

/-- The bytes of a plane of a bpi record (R71). -/
def bpiPlane (w : Word) : Nat := 64 * ceilDiv (fmtCount w) 2

/-- The bytes of a row, and of a record (R245). -/
def fmtRowBytes (w : Word) : Nat := if fmtRaw w then 4 else if fmtKind w = 9 then 52 else 256
def fmtBytes (w : Word) : Nat :=
  if fmtKind w = 8 then (1 + fmtPlanes w) * bpiPlane w else fmtRowBytes w * fmtCount w

/-- The MOB space a record takes (R245), and the space of the MOB. -/
def fmtSpace (w : Word) : Nat := 256 * ceilDiv (fmtBytes w) 256
def mobBytes : Nat := 4194304

/-- The blocks of a row of a scaled record (R248). -/
def fmtBlocks (w : Word) : Nat := if fmtScaled w then ceilDiv (fmtLen w) (fmtBlock w) else 0

/-- The accumulator type of a format's row of R83: 1 INT32, 2 FP32, 3 FP64. -/
def accType (w : Word) : Nat := if fmtScaled w then 2 else if fmtKind w = 0 then 3 else if fmtInt w then 1 else 2

/-- The group size of a format (R83). -/
def groupSize (w : Word) : Nat := if fmtScaled w then fmtBlock w else [8, 16, 16, 16].getD (fmtKind w) 32

/-- The row of R83 that a format falls in, with its block length: two records pair where these agree (R253). -/
def pairClass (w : Word) : Nat :=
  if fmtScaled w then 10 + fmtBlock w else [0, 1, 2, 2, 3, 3, 4, 4, 4, 4].getD (fmtKind w) 9

/-! ### Elements of a record -/

/-- A byte of a record; a byte that nothing has written is a free value (R246, log 9). -/
def MobRecord.byte (r : MobRecord) (i : Nat) : Byte := (tabGet r.bytes i).getD (Config.freeByte r.fresh i)
def MobRecord.bytesAt (r : MobRecord) (i n : Nat) : List Byte := (List.range n).map fun k => r.byte (i + k)

/-- The record with bytes written. -/
def MobRecord.store (r : MobRecord) (i : Nat) (bs : List Byte) : MobRecord := { r with bytes := tabStore' r.bytes i bs }
where
  /-- Bytes of a table from a place on. -/
  tabStore' (t : Tab Byte) (i : Nat) : List Byte → Tab Byte
    | [] => t
    | b :: bs => tabStore' (tabPut t i b) (i + 1) bs

/-- The integer value of a code of an integer format, absent where its code says so. -/
def intNum (f : IFmt) (c : Nat) : Num := match f.val c with | none => .absent | some i => numOfInt i

/-- An element of a bpi record (R71, R72). -/
def MobRecord.bpi (r : MobRecord) (e : Nat) : Num :=
  let p := bpiPlane r.format
  let k := fmtPlanes r.format
  let bit (plane : Nat) : Bool := (r.byte (plane * p + e / 8)).getLsbD (e % 8)
  if !bit 0 then .absent
  else
    let u := (List.range k).foldl (fun x i => 2 * x + (if bit (1 + i) then 1 else 0)) 0
    let v := intVal k u * 2 ^ (8 - k)
    numOfInt (if fmtCentre r.format && decide (k < 8) then v + 2 ^ (7 - k) else v)

/-- An element of a tern5 record and whether its byte is reserved (R70, R74). -/
def MobRecord.tern (r : MobRecord) (row j : Nat) : Num × Bool :=
  let b := (r.byte (52 * row + j / 5)).toNat
  if b < 243 then
    (match b / 3 ^ (j % 5) % 3 with
     | 0 => (numOfInt 0, false)
     | 1 => (numOfInt 1, false)
     | _ => (numOfInt (-1), false))
  else (.absent, decide (243 < b))

/-- An element of a record by row and place in the row, and whether it comes from a reserved byte. -/
def MobRecord.elem (r : MobRecord) (row j : Nat) : Num × Bool :=
  let code (n : Nat) : Nat := leNat (r.bytesAt (256 * row + n * j) n)
  match fmtKind r.format with
  | 0 => (numOf fmtF64 (code 8), false)
  | 1 => (numOf fmtF32 (code 4), false)
  | 2 => (numOf fmtF16 (code 2), false)
  | 3 => (numOf fmtBf16 (code 2), false)
  | 4 => (numOf fmtE4m3 (code 1), false)
  | 5 => (numOf fmtE5m2 (code 1), false)
  | 6 => (intNum ifmtI8 (code 1), false)
  | 7 => (intNum ifmtN8 (code 1), false)
  | 8 => (r.bpi (256 * row + j), false)
  | _ => r.tern row j

/-- Word `i` of an i32 raw image. -/
def MobRecord.word (r : MobRecord) (i : Nat) : Nat := leNat (r.bytesAt (4 * i) 4)

/-- The scale of a block of a row (R248): an element of the record attached, absent where there is none. -/
def Engine.scale (e : Engine) (r : MobRecord) (row block : Nat) : Num :=
  match r.scales with
  | none => .absent
  | some (m, off) =>
    match tabGet e.recs m with
    | none => .absent
    | some q =>
      let i := off + row * fmtBlocks r.format + block
      (q.elem (i / 128) (i % 128)).1

/-- The elements of a row, those of an absent block absent (R73), and whether one came from a reserved byte. -/
def Engine.row (e : Engine) (r : MobRecord) (row : Nat) : List Num × Bool :=
  let l := fmtLen r.format
  let raw := (List.range l).map fun j => r.elem row j
  let gone (j : Nat) : Bool := fmtScaled r.format && (e.scale r row (j / fmtBlock r.format)).isAbsent
  ((raw.zipIdx).map fun x => if gone x.2 then .absent else x.1.1, raw.any (·.2))

/-- The scales of a row by block. -/
def Engine.rowScales (e : Engine) (r : MobRecord) (row : Nat) : List Num :=
  (List.range (fmtBlocks r.format)).map fun b => e.scale r row b

/-! ### The group rule (R84) -/

/-- The exact sum of the products of present pairs, how many there are, and the flags. -/
def groupProducts (xs ys : List Num) : Num × Nat × Word :=
  (xs.zip ys).foldl (fun a p =>
    if p.1.isAbsent || p.2.isAbsent then a
    else
      let (m, f) := mulNum p.1 p.2
      let (t, g) := addNum .ne a.1 m
      (t, a.2.1 + 1, a.2.2 ||| f ||| g)) (.fin false 0 0, 0, 0)

/-- One group add to a float accumulator: one rounding, an absent value being the identity. -/
def groupAdd (f : FFmt) (acc : Nat) (sum : Num) : Nat × Word :=
  let (t, g) := match numOf f acc with
    | .absent => (sum, (0 : Word))
    | a => addNum .ne a sum
  let (c, h) := roundNum f .ne false t
  (c, g ||| h)

/-- A count grown by some contributions, with CSAT (R82). -/
def countAdd (n k : Nat) : Nat × Word := if 65535 < n + k then (65535, flagCSAT) else (n + k, 0)

/-- The integer of an exact integral sum. -/
def numInt (x : Num) : Int :=
  match x with
  | .fin n m e => (toInteger .tz n m e).1
  | _ => 0

/-- One group of an output element: accumulator code and count before, and after, with the flags. -/
def groupStep (ty : Nat) (sat : Bool) (scales : Option (Num × Num)) (xs ys : List Num) (acc cnt : Nat) : Nat × Nat × Word :=
  let (sum, c, f) := groupProducts xs ys
  if c = 0 then (acc, cnt, 0)
  else
    let (sum, f) := match scales with
      | none => (sum, f)
      | some (a, b) =>
        let (x, g) := mulNum sum a
        let (y, h) := mulNum x b
        (y, f ||| g ||| h)
    let (acc, f) := match ty with
      | 1 =>
        let t := intVal 32 acc + numInt sum
        if sat then let (r, g) := ifmtI32.sat t; (r, f ||| g) else (intCode 32 t, f)
      | 3 => let (r, g) := groupAdd fmtF64 acc sum; (r, f ||| g)
      | _ => let (r, g) := groupAdd fmtF32 acc sum; (r, f ||| g)
    let (cnt, g) := countAdd cnt c
    (acc, cnt, f ||| g)

/-- Every group of an output element, ascending. -/
def groupFold (ty : Nat) (sat : Bool) (g : Nat) (sa sb : List Num) (xs ys : List Num) (acc cnt : Nat) : Nat × Nat × Word :=
  (List.range (ceilDiv xs.length g)).foldl (fun a i =>
    let scales := match sa[i]?, sb[i]? with | some x, some y => some (x, y) | _, _ => none
    let (v, c, f) := groupStep ty sat scales ((xs.drop (g * i)).take g) ((ys.drop (g * i)).take g) a.1 a.2.1
    (v, c, a.2.2 ||| f)) (acc, cnt, 0)

/-! ### Planes (R249, R250) -/

/-- Column `n` of a plane as a band holds it. -/
def Band.column (b : Band) (k n : Nat) : List Num := (List.range k).map fun i => (tabGet b.elems (k * n + i)).getD .absent
def Band.scalesOf (b : Band) (blocks n : Nat) : List Num := (List.range blocks).map fun i => (tabGet b.scales (8 * n + i)).getD .absent

/-- A band of the plane that `mls` loads from a record: its columns are record rows. -/
def Engine.loadBand (e : Engine) (r : MobRecord) (b : Nat) : Band :=
  let k := fmtLen r.format
  let per := fmtWide r.format / 4
  let cols := ((List.range per).map (b * per + ·)).filter fun n => decide (n < fmtCount r.format)
  { format := some r.format
    elems := cols.flatMap fun n => (((e.row r n).1.zipIdx).filter fun x => !x.1.isAbsent).map fun x => (k * n + x.2, x.1)
    scales := cols.flatMap fun n => ((e.rowScales r n).zipIdx).map fun x => (8 * n + x.2, x.1) }

/-- Whether a record of the plane decodes a reserved byte (R74). -/
def Engine.rowsReserved (e : Engine) (r : MobRecord) (first n : Nat) : Bool :=
  (List.range n).any fun i => (e.row r (first + i)).2

/-- The column sum of `mls` (R250): the exact sum of an integer format, the FP32 group sum of a float format. -/
def Engine.columnSum (e : Engine) (r : MobRecord) (n : Nat) : Nat × Word :=
  let ones (xs : List Num) : List Num := xs.map fun _ => numOfInt 1
  let xs := if n < fmtCount r.format then (e.row r n).1 else []
  let present := xs.filter fun x => !x.isAbsent
  if fmtInt r.format then
    if present.isEmpty then (0x80000000, 0) else (intCode 32 (present.map numInt).sum, 0)
  else if present.isEmpty then (0xFF800001, 0)
  else
    let sa := e.rowScales r n
    let (v, _, f) := groupFold 2 false (groupSize r.format) sa (sa.map fun _ => numOfInt 1) xs (ones xs) 0 0
    (v, f)

/-! ### Tiles (R81, R237) -/

/-- The accumulator code of an element, an FP64 one in two value columns; and its count. -/
def Tile.code (t : Tile) (ty m n : Nat) : Nat :=
  let word (c : Nat) : Nat := ((tabGet t.vals (256 * m + c)).getD 0).toNat
  if ty = 3 then word (2 * n) + 4294967296 * word (2 * n + 1) else word n
def Tile.col (ty n : Nat) : Nat := if ty = 3 then 2 * n else n
def Tile.count (t : Tile) (ty m n : Nat) : Nat := (tabGet t.cnts (256 * m + Tile.col ty n)).getD 0
def Tile.rowSum (t : Tile) (m : Nat) : Word := (tabGet t.sums m).getD 0

/-- The tile with an element written. -/
def Tile.put (t : Tile) (ty m n v c : Nat) : Tile :=
  let vals := tabPut t.vals (256 * m + Tile.col ty n) (.ofNat 32 v)
  { t with vals := if ty = 3 then tabPut vals (256 * m + 2 * n + 1) (.ofNat 32 (v / 4294967296)) else vals
           cnts := tabPut t.cnts (256 * m + Tile.col ty n) c }

/-- The bands of an engine's active plane. -/
def Engine.band (e : Engine) (b : Nat) : Band := e.active.getD b .blank

/-- Row `i` of an `mma` (R254): every column whose band is set. -/
def Engine.mmaRow (e : Engine) (r : MobRecord) (row i : Nat) (mshape : BitVec 4) (rowsum sat : Bool) (t : Tile) : Tile × Word :=
  let w := r.format
  let ty := accType w
  let n := fmtWide w
  let (xs, bad) := e.row r row
  let sa := e.rowScales r row
  let cols := (List.range n).filter fun c => mshape.getLsbD (c / (n / 4))
  let (t, f) := cols.foldl (fun (a : Tile × Word) c =>
    let b := e.band (c / (n / 4))
    match b.format with
    | none => a
    | some _ =>
      let (v, k, f) := groupFold ty sat (groupSize w) sa (b.scalesOf (fmtBlocks w) c) xs (b.column (fmtLen w) c)
        (a.1.code ty i c) (a.1.count ty i c)
      (a.1.put ty i c v k, a.2 ||| f)) (t, if bad then flagFMT else 0)
  let add := (xs.map numInt).sum
  (if rowsum then { t with sums := tabPut t.sums i (t.rowSum i + BitVec.ofInt 32 add) } else t, f)

/-! ### The activation table (R259) -/

/-- Whether a code is absent or a NaN in f32. -/
def isAbs32 (c : Nat) : Bool := (numOf fmtF32 c).isAbsent
def isNan32 (c : Nat) : Bool := (numOf fmtF32 c).isNan

/-- The largest integer not above a finite value. -/
def floorNum (x : Num) : Int :=
  match x with
  | .fin n m e => (toInteger .dn n m e).1
  | _ => 0

/-- `Table` of a present f32 value that is no NaN (R259); an infinity has end rules of its own. -/
def ActTable.eval (a : ActTable) (v : Nat) : Nat × Word :=
  let x0 := a.x0.toNat
  let h := a.h.toNat
  let y (i : Nat) : Nat := (a.ys.getD i 0).toNat
  let nan := fmtF32.nan
  let atEnd : Bool := match numOf fmtF32 v with | .inf _ => true | _ => false
  if isAbs32 x0 || isAbs32 h then (fmtF32.absent, 0)
  else
    let (d, f1) := float2 fmtF32 .ne false .sub v x0
    let (t, f2) := float2 fmtF32 .ne false .mul d h
    let seg (i : Nat) (frac : Num) : Nat × Word :=
      if isAbs32 (y i) || isAbs32 (y (i + 1)) then (fmtF32.absent, 0)
      else
        let (s, f3) := float2 fmtF32 .ne false .sub (y (i + 1)) (y i)
        match atEnd, frac with
        | true, .inf n =>
          (match numOf fmtF32 s with
           | .fin _ 0 _ => (if n then y 0 else y 128, f3)
           | .nan _ => (nan, f3)
           | z => ((roundNum fmtF32 .ne false (.inf (n != z.sign))).1, f3))
        | _, _ =>
          let (p, f4) := mulNum frac (numOf fmtF32 s)
          let (q, f5) := roundNum fmtF32 .ne false p
          let (r, f6) := float2 fmtF32 .ne false .add (y i) q
          (r, f3 ||| f4 ||| f5 ||| f6)
    let (r, f) := match numOf fmtF32 t with
      | .nan _ => (nan, (0 : Word))
      | .absent => (fmtF32.absent, 0)
      | .inf true => seg 0 (.inf true)
      | .inf false => seg 127 (.inf false)
      | z =>
        let fl := floorNum z
        let i : Nat := if fl < 0 then 0 else if 127 < fl then 127 else fl.toNat
        seg i (addNum .ne z (numOfInt (-(i : Int)))).1
    (r, f1 ||| f2 ||| f)

/-! ### Drains (R256 to R258, R260) -/

/-- The output formats of a drain (R256): float or integer, and its bytes. -/
def outFloat (o : Nat) : Option FFmt := [some fmtF32, some fmtF16, some fmtBf16, some fmtE4m3, some fmtE5m2].getD o none
def outInt (o : Nat) : IFmt := [ifmtI32, ifmtI8, ifmtN8, ifmtI16].getD (o - 5) ifmtI32
def outBytes (o : Nat) : Nat := [4, 2, 2, 1, 1, 4, 1, 1, 2].getD o 1

/-- An exact value rounded to the nearest integer, ties to even. -/
def nearestInt (x : Num) : Int :=
  match x with
  | .fin n m e => (toInteger .ne n m e).1
  | _ => 0

/-- `Convert` of R258; an absent value gives the absent code (R76). -/
def drainConvert (o : Nat) (sat : Bool) (v : Num) : Nat × Word :=
  match outFloat o with
  | some f => roundNum f .ne sat v
  | none =>
    let f := outInt o
    match v with
    | .absent => (f.absent, 0)
    | .nan _ => (0, flagNV)
    | .inf n => (intCode f.width (if n then f.lo else f.hi), flagSAT ||| flagNV)
    | x => f.sat (nearestInt x)

/-- A value divided by a count in the accumulator's type (R258). -/
def drainNorm (ty c : Nat) (v : Num) : Num × Word :=
  match ty with
  | 1 =>
    let x := numInt v
    let q := x.natAbs / c
    let r := x.natAbs % c
    let up := decide (c < 2 * r) || (decide (2 * r = c) && decide (q % 2 = 1))
    let m := if up then q + 1 else q
    (numOfInt (if x < 0 then -(m : Int) else m), 0)
  | _ =>
    let f := if ty = 3 then fmtF64 else fmtF32
    let (q, g) := divNum v (numOfInt c)
    let (r, h) := roundNum f .ne false q
    (numOf f r, g ||| h)

/-- Requantisation (R258): q plus the output zero point; ±∞ stays, a NaN counts as 0 with NV. -/
def drainQuant (mult : Int) (shift : Nat) (zp : Int) (v : Num) : Num × Word :=
  match v with
  | .absent => (.absent, 0)
  | .nan _ => (numOfInt zp, flagNV)
  | .inf n => (.inf n, 0)
  | .fin n m e => (numOfInt (nearestInt (.fin (n != decide (mult < 0)) (m * mult.natAbs) (e - 31 - shift)) + zp), 0)

/-- The fields of a command word (R256). -/
def cmdBit (w : Word) (i : Nat) : Bool := w.getLsbD i
def cmdOut (w : Word) : Nat := bitsOf w.toNat 12 9
def cmdDst (w : Word) : Nat := bitsOf w.toNat 14 13
def cmdShift (w : Word) : Nat := bitsOf w.toNat 19 15
def cmdZp (w : Word) : Int := intVal 8 (bitsOf w.toNat 27 20)
def cmdRaw (w : Word) : Bool := w.getLsbD 8

/-- The columns of elements of a tile of a type (R256). -/
def tileWidth (ty : Nat) : Nat := if ty = 3 then 128 else 256

/-- One drained element (R258): its code and the flags.  The row sum of ZP is signed (log 35). -/
def drainElem (a : ActTable) (aux : Nat → Nat) (t : Tile) (cmd : Word) (m n : Nat) : Nat × Word :=
  let ty := t.ty
  let e := tileWidth ty
  let o := cmdOut cmd
  let c := t.count ty m n
  let v : Num := match ty with
    | 1 => numOfInt (intVal 32 (t.code ty m n))
    | 3 => numOf fmtF64 (t.code ty m n)
    | _ => numOf fmtF32 (t.code ty m n)
  if c = 0 || v.isAbsent then
    (if cmdBit cmd 7 then 0 else (match outFloat o with | some f => f.absent | none => (outInt o).absent), flagABS)
  else
    let f0 := sigFlag v
    let v := if cmdBit cmd 0 then numOfInt (numInt v - intVal 32 (aux (2 * e + n)) * (t.rowSum m).toInt) else v
    let (v, f1) := if cmdBit cmd 1 then drainNorm ty c v else (v, 0)
    let (v, f2) := if cmdBit cmd 2 then
        (let b := numOf fmtF32 (aux n)
         let (x, g) := if b.isAbsent then (v, (0 : Word)) else addNum .ne v b
         let (r, h) := roundNum fmtF32 .ne false x
         (numOf fmtF32 r, g ||| h)) else (v, 0)
    let (v, f3) := if cmdBit cmd 3 then
        (let (r, g) := roundNum fmtF32 .ne false v
         if isNan32 r then (Num.nan false, g) else
         let (y, h) := a.eval r
         (numOf fmtF32 y, g ||| h)) else (v, 0)
    let (v, f4) := if cmdBit cmd 4 then drainQuant (intVal 32 (aux (e + n))) (cmdShift cmd) (cmdZp cmd) v else (v, 0)
    let (r, f5) := drainConvert o (cmdBit cmd 5) v
    (r, f0 ||| f1 ||| f2 ||| f3 ||| f4 ||| f5)

/-- The RAW image of a tile (R260). -/
def Tile.image (t : Tile) : List Byte :=
  ((List.range 64).flatMap fun m =>
    ((List.range 256).flatMap fun n => leBytes 4 ((tabGet t.vals (256 * m + n)).getD 0).toNat) ++
    ((List.range 256).flatMap fun n => leBytes 2 ((tabGet t.cnts (256 * m + n)).getD 0))) ++
  ((List.range 64).flatMap fun m => leBytes 4 (t.rowSum m).toNat) ++ leBytes 4 t.ty ++ leBytes 12 0

/-- The bytes of a RAW image. -/
def rawBytes : Nat := 98576

/-- The tile of a RAW image (R260), read by byte. -/
def tileOf (byte : Nat → Byte) : Tile :=
  let num (i n : Nat) : Nat := leNat ((List.range n).map fun k => byte (i + k))
  { ty := num 98560 1 % 4
    vals := (List.range 16384).map fun i => (i, .ofNat 32 (num (1536 * (i / 256) + 4 * (i % 256)) 4))
    cnts := (List.range 16384).map fun i => (i, num (1536 * (i / 256) + 1024 + 2 * (i % 256)) 2)
    sums := (List.range 64).map fun i => (i, .ofNat 32 (num (98304 + 4 * i) 4)) }

/-- The bytes that a drain writes, and its flags. -/
def drainBytes (a : ActTable) (aux : Nat → Nat) (t : Tile) (cmd : Word) (rows : Nat) : List Byte × Word :=
  if cmdRaw cmd then (t.image, 0)
  else
    (List.range rows).foldl (fun x m => (List.range (tileWidth t.ty)).foldl (fun x n =>
      let (v, f) := drainElem a aux t cmd m n
      (x.1 ++ leBytes (outBytes (cmdOut cmd)) v, x.2 ||| f)) x) ([], 0)

/-- The tile after a drain with CLR (R258). -/
def Tile.clear (t : Tile) (rows : Nat) : Tile :=
  let keep {α : Type} (x : Tab α) (per : Nat) : Tab α := x.filter fun e => decide (rows * per ≤ e.1)
  { ty := if rows = 64 then 0 else t.ty, vals := keep t.vals 256, cnts := keep t.cnts 256, sums := keep t.sums 1 }

/-! ### Team-wide reductions (R86, R261) -/

/-- The contributions of a lane's word. -/
def redItems (t : RedT) (w : Word) : List Num :=
  match t with
  | .f32 => [numOf fmtF32 w.toNat]
  | .i32 => [intNum ifmtI32 w.toNat]
  | .f16 => [numOf fmtF16 (w.toNat % 65536), numOf fmtF16 (w.toNat / 65536)]
  | .bf16 => [numOf fmtBf16 (w.toNat % 65536), numOf fmtBf16 (w.toNat / 65536)]

/-- The exact sum of contributions added to an accumulator in one rounding; i32 wraps. -/
def redAdd (t : RedT) (acc : Nat) (xs : List Num) : Nat × Word :=
  match t with
  | .i32 => (intCode 32 (intVal 32 acc + (xs.map numInt).sum), 0)
  | _ =>
    let (s, f) := xs.foldl (fun a x => let (r, g) := addNum .ne a.1 x; (r, a.2 ||| g)) (Num.fin false 0 0, (0 : Word))
    let (r, g) := groupAdd fmtF32 acc s
    (r, f ||| g)

/-- What a reduction gives (R261): the sum and count of all, and each active lane's prefix and count, with the flags. -/
def reduceTeam (t : RedT) (vals : List (Nat × Word)) : (Nat × Nat × Word) × List (Nat × Nat × Nat) × Word :=
  let none32 := match t with | .i32 => 0x80000000 | _ => 0xFF800001
  let present (w : Word) : List Num := (redItems t w).filter fun x => !x.isAbsent
  let groups := ((vals.map fun x => x.1 / 16).eraseDups)
  let r := groups.foldl (fun (a : Nat × Nat × Word × List (Nat × Nat × Nat) × Word) g =>
    let ls := vals.filter fun x => x.1 / 16 == g
    let lanes := (List.range ls.length).map fun i =>
      let xs := (ls.take (i + 1)).flatMap fun x => present x.2
      let c := a.2.1 + xs.length
      let (v, f) := if xs.isEmpty then (a.1, (0 : Word)) else redAdd t a.1 xs
      (((ls.getD i (0, 0)).1, if c = 0 then none32 else v, c), if xs.isEmpty then 0 else f)
    let all := ls.flatMap fun x => present x.2
    let (v, f) := if all.isEmpty then (a.1, (0 : Word)) else redAdd t a.1 all
    (v, a.2.1 + all.length, a.2.2.1 ||| f, a.2.2.2.1 ++ lanes.map (·.1), lanes.foldl (fun w x => w ||| x.2) a.2.2.2.2))
    (0, 0, 0, [], 0)
  let abs : Word := if r.2.1 = 0 then flagABS else 0
  ((if r.2.1 = 0 then none32 else r.1, r.2.1, r.2.2.1 ||| abs), r.2.2.2.1, r.2.2.2.2 ||| abs)

end Sys2Proof.Machine
end

