-- ==== Sys2Proof/Machine/EngineIssue.lean ====
section
/-! DEFINITION. Engine instructions at acceptance, opcodes 0x21, 0x22 and 0x26 (R236 to R261): the logical state, the checks, gangs
and the rendezvous, and the reservation table. -/

namespace Sys2Proof.Machine

/-! ### The logical state (R238) -/

/-- What the checks at acceptance see: each reserved record's format and scale record, each tile's type (none while an `mfill`
of it is pending), and the formats of the planes by band. -/
structure Logical where
  recs : Tab (Word × Option (Nat × Nat))
  tiles : Tab (Option Nat)
  active : List (Option Word)
  shadow : List (Option Word)

/-- Whether an entry's effect on the logical state has already been carried out. -/
def EngineEntry.done (x : EngineEntry) : Bool :=
  x.finished || (match x.op with | .mdrain .. => x.started | _ => false)

/-- The logical state after one more accepted operation. -/
def Logical.after (g : Logical) (x : EngineEntry) : Logical :=
  if x.done then g
  else
    match x.op with
    | .mres d w => { g with recs := tabPut g.recs d (w, none) }
    | .mfree d => { g with recs := tabDel g.recs d }
    | .mscl d m off => { g with recs := tabMod g.recs d fun r => (r.1, some (m, off)) }
    | .mls r _ => { g with shadow := List.replicate 4 ((tabGet g.recs r).map (·.1)) }
    | .mswap =>
      let pick (on : Bool) (a b : List (Option Word)) : List (Option Word) :=
        (List.range 4).map fun i => if x.bands.getLsbD i == on then a.getD i none else b.getD i none
      { g with active := pick true g.active g.shadow, shadow := pick true g.shadow g.active }
    | .mma t a .. => { g with tiles := tabPut g.tiles t ((tabGet g.recs a).map fun r => accType r.1) }
    | .mdrain t _ cmd rows _ => if cmdBit cmd 6 && rows == 64 then { g with tiles := tabPut g.tiles t (some 0) } else g
    | .mzero t => { g with tiles := tabPut g.tiles t (some 0) }
    | .mfill t _ => { g with tiles := tabPut g.tiles t none }
    | _ => g

/-- The logical state of an engine. -/
def Engine.logical (e : Engine) : Logical :=
  e.entries.foldl (fun g x => g.after x.2)
    { recs := e.recs.map fun (r : Nat × MobRecord) => (r.1, (r.2.format, r.2.scales))
      tiles := e.tiles.map fun (t : Nat × Tile) => (t.1, some t.2.ty)
      active := e.active.map (·.format), shadow := e.shadow.map (·.format) }

/-- A record's format; a tile's type, `none` while it is not known. -/
def Logical.format (g : Logical) (r : Nat) : Option Word := (tabGet g.recs r).map (·.1)
def Logical.tile (g : Logical) (t : Nat) : Option Nat := (tabGet g.tiles t).getD (some 0)

/-- Whether a scaled record's scales are attached to a bf16 record that holds them, the record then in the slot (R248, log 35). -/
def Logical.scaled (g : Logical) (r : Nat) : Bool :=
  match tabGet g.recs r with
  | some (w, some (m, off)) =>
    (match g.format m with
     | some q => fmtKind q == 3 && decide (off + fmtCount w * fmtBlocks w ≤ fmtCount q * 128)
     | none => false)
  | _ => false

/-! ### Verdicts -/

/-- Whether a record or output format is out of service (R395): formats by FMT of R244. -/
def State.fmtOff (s : State) (kind : Nat) : Bool :=
  match [0, 1, 2, 3, 4, 4, 5, 5, 5, 5].drop kind with
  | b :: _ => !bitOf s.service.fmt b
  | [] => false

/-- The format of a record as a list for that test. -/
def Logical.kind (g : Logical) (r : Nat) : List Nat := ((g.format r).map fmtKind).toList

/-- What the checks of R241 decide: a fault with its addresses, a wait, or acceptance of an operation with the missing pages'
lowest addresses and the registers it leaves pending. -/
inductive Verdict where
  | fault (cause addr1 addr2 : Nat)
  | wait
  | take (op : EngineOp) (missing : List Nat) (refs : List Ref)

/-- A check: a fault where the condition holds, else the rest. -/
def orFault (bad : Bool) (cause addr : Nat) (rest : Verdict) : Verdict := if bad then .fault cause addr 0 else rest

/-- ILLOP where the condition holds. -/
def orIllop (bad : Bool) (rest : Verdict) : Verdict := orFault bad cILLOP 0 rest

/-- Whether a record is an i32 raw image; and its elements. -/
def Logical.raw (g : Logical) (r : Nat) : Bool := match g.format r with | some w => fmtRaw w | none => false
def Logical.elems (g : Logical) (r : Nat) : Nat := match g.format r with | some w => fmtCount w | none => 0

/-- `mres` (R246). -/
def judgeMres (g : Logical) (d : Nat) (w : Word) : Verdict :=
  orIllop ((g.format d).isSome || !fmtOk w)
    (orFault (decide (mobBytes < ((g.recs.map fun r => fmtSpace r.2.1).sum + fmtSpace w))) cSPBND 0 (.take (.mres d w) [] []))

/-- `mfree` (R246). -/
def judgeMfree (g : Logical) (d : Nat) : Verdict := orIllop (g.format d).isNone (.take (.mfree d) [] [])

/-- The accesses of an `mld` from global memory. -/
def mldPieces (base bytes : Nat) : List (AccKind × Nat × Nat) :=
  (List.range (ceilDiv bytes 16)).map fun i =>
    (AccKind.copyRead, (base + 16 * i) % 2 ^ 64, if bytes < 16 * i + 16 then bytes - 16 * i else 16)

/-- `mld` (R247). -/
def judgeMld (s : State) (g : Logical) (stack ctx wid : Nat) (q : MldSrc) (d base p : Nat) (strict : Bool) : Verdict :=
  match g.format d with
  | none => .fault cILLOP 0 0
  | some w =>
    let f := if p = 0 then 0 else p % 65536
    let n := if p = 0 then fmtCount w else p / 65536
    let bytes := if p = 0 then fmtBytes w else n * fmtRowBytes w
    let sp : Space := match q with | .global => .global | .spad => .spad | .clmem => .clmem
    let pieces := if q = .global then mldPieces base bytes else []
    orIllop (p != 0 && (fmtKind w == 8 || fmtKind w == 9))
      (orIllop (p != 0 && fmtRaw w && (f % 4 != 0 || n % 4 != 0))
        (orFault (base % 16 != 0) cALGN base
          (orFault (decide (fmtCount w < f + n)) cSPBND base
            (orFault (q != .global && decide ((s.spaceOf wid sp).2 < base + bytes)) cSPBND base
              (if pieces.any (fun p => s.walkWaits stack ctx p.1 p.2.1) then .wait else match s.copyPages stack ctx pieces with
               | some (x, a, b) => .fault x a b
               | none =>
                 .take (.mld d q base (f * fmtRowBytes w) n bytes (fmtKind w == 9 && (strict || fmtStrict w)))
                   (s.copyAbsent stack ctx pieces) [])))))

/-- `mscl` (R248). -/
def judgeMscl (g : Logical) (d m off : Nat) : Verdict :=
  match g.format d, g.format m with
  | some w, some q =>
    orIllop (fmtKind q != 3 || !fmtScaled w)
      (orFault (decide (fmtCount q * 128 < off + fmtCount w * fmtBlocks w)) cSPBND off (.take (.mscl d m off) [] []))
  | _, _ => .fault cILLOP 0 0

/-- `mls` (R250). -/
def judgeMls (g : Logical) (r : Nat) (sums : Option (Nat × Nat)) : Verdict :=
  match g.format r with
  | none => .fault cILLOP 0 0
  | some w =>
    orIllop (fmtRaw w || decide (fmtWide w < fmtCount w) || fmtScaled w && !g.scaled r)
      (match sums with
       | none => .take (.mls r none) [] []
       | some (c, off) =>
         orIllop (!g.raw c) (orFault (decide (g.elems c < off + fmtWide w)) cSPBND off (.take (.mls r sums) [] [])))

/-- `mma` (R252, R253): the fields of s[R], the record, the pairing, the tile's type, and the options. -/
def judgeMma (g : Logical) (t a r : Nat) (mshape : BitVec 4) (rowsum sat zero : Bool) (prio : Nat) : Verdict :=
  let rows := r % 128
  let first := r / 65536
  if !zero && (g.tile t).isNone then .wait
  else
    match g.format a with
    | none => .fault cILLOP 0 0
    | some w =>
      let pair := g.active.all fun x => match x with | none => true | some q => pairClass q == pairClass w
      let ty := if zero then 0 else (g.tile t).getD 0
      orIllop (rows == 0 || decide (64 < rows) || bitsOf r 15 7 != 0 || fmtRaw w || !pair ||
          ty != 0 && ty != accType w || rowsum && pairClass w != 4 || sat && accType w != 1 || fmtScaled w && !g.scaled a)
        (orFault (decide (fmtCount w < first + rows)) cSPBND first
          (.take (.mma t a first rows mshape rowsum sat zero prio) [] []))

/-- The format a drain to the MOB asks of its record (R257). -/
def outKind (o : Nat) : Nat := [1, 2, 3, 4, 5, 16, 6, 7].getD o 16

/-- `mdrain` (R256, R257). -/
def judgeMdrain (s : State) (g : Logical) (wid t x o rows : Nat) (cmd : Word) : Verdict :=
  match g.tile t with
  | none => .wait
  | some ty =>
    let raw := cmdRaw cmd
    let e := tileWidth ty
    let out := cmdOut cmd
    let dst := cmdDst cmd
    let aux := cmdBit cmd 0 || cmdBit cmd 2 || cmdBit cmd 4
    let bytes := if raw then rawBytes else rows * e * outBytes out
    let toMob := dst == 2
    let recBad := match g.format (o % 16) with
      | none => true
      | some w => if raw then !(fmtRaw w && decide (rawBytes / 4 ≤ fmtCount w)) else fmtKind w != outKind out
    let recShort := match g.format (o % 16) with
      | none => false
      | some w => !raw && decide (fmtCount w * fmtLen w < rows * e)
    let sp : Space := if dst = 0 then .spad else .clmem
    orIllop (bitsOf cmd.toNat 31 28 != 0 || dst == 3 || decide (8 < out) || raw && ((cmd &&& 0xFFFF9EFF) != 0 || rows != 64) ||
        cmdBit cmd 0 && ty != 1 || ty == 0 && !raw || !aux && x != 0 || aux && !g.raw x || toMob && (decide (15 < o) || recBad))
      (orFault (!toMob && o % 16 != 0) cALGN o
        (orFault (aux && decide (g.elems x < 3 * e) || toMob && recShort ||
            !toMob && decide ((s.spaceOf wid sp).2 < o + bytes)) cSPBND o
          (orFault (!toMob && s.anyResident wid sp o bytes) cBAROV o
            (.take (.mdrain t x cmd rows o) [] []))))

/-- `mtab` and `mfill` (R259, R260): a raw image of enough elements. -/
def judgeMtab (g : Logical) (r : Nat) : Verdict := orIllop (!g.raw r || decide (g.elems r < 131)) (.take (.mtab r) [] [])
def judgeMfill (g : Logical) (t r : Nat) : Verdict :=
  orIllop (!g.raw r || decide (g.elems r < rawBytes / 4)) (.take (.mfill t r) [] [])

/-! ### Issue (R238 to R243) -/

/-- The engine of the cluster that a team's core is in. -/
def State.engineOf (s : State) (t : Team) : Nat := coreEngine (s.coreOf t)

/-- Whether a team is in a cluster launch (R236). -/
def State.inCluster (s : State) (t : Team) : Bool := match s.wgOf t with | some w => w.cluster.isSome | none => false

/-- How many entries the reservation table has (R239). -/
def tableSize : Nat := 32

/-- An accepted operation takes its entry (R239): CNTTL rises in every issuing team, their columns are written back (R125), and
each page an `mld` lacks gets its record (R309).  A member of a gang that was held goes on with its clause once it has its pipe (R20). -/
def State.accept (s : State) (g wid prio : Nat) (cs : List Cur) (op : EngineOp) (missing : List Nat) (refs : List Ref)
    (n : Nat) : State :=
  match cs with
  | [] => s
  | c :: _ =>
    let (id, s) := s.fresh
    let x : EngineEntry :=
      { op := op, ent := c.eid, teams := cs.map fun (c : Cur) => c.e.team, wg := wid, prio := prio, started := false, progress := 0
        bands := 0, missing := missing.map pageOf, held := !missing.isEmpty, fail := false, aged := false, finished := false
        flags := 0, after := cs.flatMap fun c => s.orderedBefore c.eid, frag := c.e.fragCode, pc := c.i.pc
        word := c.i.next + 1, mask := c.e.mask, out := [], reserved := none }
    let s := s.modEngine g fun e => { e with entries := tabPut e.entries id x }
    let s := missing.foldl (fun s a => s.fqFault c.t (parkRecord c.e.fragCode c.e.mask c.i.pc (c.i.next + 1) a)) s
    cs.foldl (fun s c =>
      let s := (s.observe c.t).modTeam c.e.team fun t => (t.cntPush .tl id).addPend id id refs
      let s := c.advance (s.modEnt c.eid fun e => { e with arrived := none }) n
      if c.eid == s.cur || s.pipeFree c.eid (s.partOf c.t) (pipeX c.i.cls) then s
      else s.modEnt c.eid fun e => { e with hold := if e.issue.isSome then some .pipe else e.hold }) s

/-- An engine instruction: whether it is ganged, the reference of its rendezvous, its class, how many words it has, whether it
needs ownership, and its checks in a workgroup. -/
structure EngineAsk where
  ganged : Bool := false
  ref : List Nat := []
  prio : Option Nat := none
  words : Nat := 1
  owned : Bool := true
  kinds : Logical → List Nat := fun _ => []
  judge : State → Logical → Nat → Verdict

/-- The priority class of a team's grid. -/
def State.gridPrio (s : State) (t : Team) : Nat := match s.gridOf t with | some g => g.rcd.prio | none => 0

/-- The place of a team in its cluster launch (R242), and whether a place names a team that exists. -/
def State.gangBit (s : State) (t : Team) : Nat := match s.wgOf t with | some w => 8 * w.clusSlot + t.teamId | none => 0
def State.gangBitExists (s : State) (t : Team) (b : Nat) : Bool :=
  s.teams.any fun x => (s.wgOf x.2).bind (·.cluster) == (s.wgOf t).bind (·.cluster) && s.gangBit x.2 == b

/-- Whether an operation of some entities must wait for an entry (R239), or for a counter that would pass 63 (R51). -/
def State.tableFull (s : State) (g : Nat) (cs : List Cur) : Bool :=
  decide (tableSize ≤ (s.engine g).entries.length) || cs.any fun c => match tabGet s.teams c.e.team with
    | some t => decide (63 ≤ t.cnt .tl)
    | none => false

/-- An operation of some entities is judged and accepted, or waits, or faults in every one of them (R241, R243). -/
def State.judged (s : State) (g : Nat) (c : Cur) (cs : List Cur) (q : EngineAsk) (hold : Hold) : State :=
  let e := s.engine g
  let lead := cs.foldl (fun (m : Cur) x => if s.gangBit x.t < s.gangBit m.t then x else m) c
  if s.tableFull g cs then c.holdAt s hold
  else match (if (q.kinds e.logical).any s.fmtOff then Verdict.fault cILLOP 0 0 else q.judge s e.logical lead.t.wg) with
    | .wait => c.holdAt s hold
    | .fault x a b =>
      cs.foldl (fun s c =>
        let s := s.modEnt c.eid fun e => { e with arrived := none }
        if x = cILLOP then c.illop s else c.raiseWith s { c.fault x a with addr2 := b }) s
    | .take op missing refs => s.accept g lead.t.wg (q.prio.getD (s.gridPrio c.t)) (lead :: cs.filter fun x => x.eid != lead.eid) op
        missing refs q.words

/-- Whether an entity stands at the rendezvous of a gang (R243): one that has joined it and has since faulted does not (R262). -/
def State.standsAt (s : State) (k eid : Nat) : Bool :=
  match tabGet s.ents eid with
  | some e => e.hold == some .gang && e.arrived == some k
  | none => false

/-- An engine instruction at issue (R236, R239, R241, R243). -/
def Cur.engineIssue (c : Cur) (s : State) (q : EngineAsk) : State :=
  let g := s.engineOf c.t
  if q.owned && !s.inCluster c.t then c.illop s
  else if 63 ≤ c.t.cnt .tl then c.holdAt s .room
  else
    match q.ganged, c.t.gang with
    | true, some id =>
      if c.e.isFrag then c.illop s
      else
        let k := id.toNat
        let old := ((tabGet (s.engine g).latches k).getD { ref := q.ref, members := [] })
        let here := old.members.filter (s.standsAt k)
        let latch : GangLatch := { ref := if here.isEmpty then q.ref else old.ref, members := here }
        let joined := here.contains c.eid
        if !joined && latch.ref != q.ref then c.raise s cGMIS c.t.gangMap.toNat
        else
          let members := if joined then latch.members else latch.members ++ [c.eid]
          let s := s.modEnt c.eid fun e => { e with arrived := some k }
          if members.length < popCount (c.t.gangMap.setWidth 1024) then
            c.holdAt (s.modEngine g fun e => { e with latches := tabPut e.latches k { latch with members := members } }) .gang
          else
            let s' := s.modEngine g fun e => { e with latches := tabDel e.latches k }
            let cs := members.filterMap s.curOf
            match (if s.tableFull g cs then Verdict.wait else q.judge s (s.engine g).logical c.t.wg) with
            | .wait => c.holdAt (s.modEngine g fun e => { e with latches := tabPut e.latches k { latch with members := members } }) .gang
            | _ => s'.judged g c cs q .gang
    | true, none => s.judged g c [c] q .engine
    | false, _ => s.judged g c [c] q .engine

/-- An engine instruction's meaning from what it asks. -/
def engineWord (f : Cur → State → EngineAsk) (s : State) : Host.Outcome State Fault Refusal :=
  withCur s fun c => c.engineIssue s (f c s)

/-- The reference of a ganged instruction (R243): its words, the scalars it reads, the gang, and for `mma` its MSHAPE. -/
def Cur.gangRef (c : Cur) (n : Nat) (scalars : List Nat) (more : List Nat) : List Nat :=
  ((c.i.words.drop c.i.next).take n).map (·.toNat) ++ scalars ++ [c.t.gangMap.toNat, (c.t.gang.getD 0).toNat] ++ more

/-! ### The instructions -/

/-- `mres` (R246). -/
def execMres (d : BitVec 4) (w : BitVec 32) (s : State) : Host.Outcome State Fault Refusal :=
  engineWord (fun _ _ => { words := 2, kinds := fun _ => [fmtKind w], judge := fun _ g _ => judgeMres g d.toNat w }) s

/-- `mfree` (R246). -/
def execMfree (d : BitVec 4) (s : State) : Host.Outcome State Fault Refusal :=
  engineWord (fun _ _ => { judge := fun _ g _ => judgeMfree g d.toNat }) s

/-- `mld` (R247). -/
def execMld (q : MldSrc) (d : BitVec 4) (sr p : BitVec 5) (s : State) : Host.Outcome State Fault Refusal :=
  engineWord (fun c s =>
    let base := if q = .global then (c.t.xreg (sr.toNat / 2)).toNat else (c.t.sreg sr.toNat).toNat
    { kinds := fun g => g.kind d.toNat
      judge := fun s' g wid => judgeMld s' g (s.stackOf c.t) (s.ctxOf c.t) wid q d.toNat base (c.t.sreg p.toNat).toNat c.strict }) s

/-- `mscl` (R248). -/
def execMscl (d sr : BitVec 4) (o : BitVec 5) (s : State) : Host.Outcome State Fault Refusal :=
  engineWord (fun c _ => { judge := fun _ g _ => judgeMscl g d.toNat sr.toNat (c.t.sreg o.toNat).toNat }) s

/-- `mgang` (R242): it waits while the team has joined a rendezvous that has not completed. -/
def execMgang (b : BitVec 5) (i : BitVec 4) (s : State) : Host.Outcome State Fault Refusal :=
  withCur s fun c =>
    let m := c.t.sreg b.toNat
    let bits := (List.range 32).filter fun k => m.getLsbD k
    if !s.inCluster c.t then c.illop s
    else if (s.entsOf c.e.team).any (fun x => x.2.hold == some .gang && x.2.arrived.isSome && x.1 != c.eid) then c.holdAt s .gang
    else if m = 0 then c.teamWord s fun t => { t with gang := none, gangMap := 0 }
    else if 6 < bits.length || !m.getLsbD (s.gangBit c.t) || !bits.all (s.gangBitExists c.t) then c.raise s cGMIS m.toNat
    else c.teamWord s fun t => { t with gang := some i, gangMap := m }

/-- `mshape` (R249). -/
def execMshape (m : BitVec 4) (s : State) : Host.Outcome State Fault Refusal :=
  withCur s fun c =>
    if !s.inCluster c.t || m == 0 then c.illop s else c.teamWord s fun t => { t with mshape := m }

/-- `mls` (R250). -/
def execMls (r : BitVec 4) (cs : Bool) (k : BitVec 4) (o : BitVec 5) (s : State) : Host.Outcome State Fault Refusal :=
  engineWord (fun c _ =>
    let off := (c.t.sreg o.toNat).toNat
    { ganged := true, ref := c.gangRef 1 (if cs then [off] else []) [], kinds := fun g => g.kind r.toNat
      judge := fun _ g _ => judgeMls g r.toNat (if cs then some (k.toNat, off) else none) }) s

/-- `mswap` (R251). -/
def execMswap (s : State) : Host.Outcome State Fault Refusal :=
  engineWord (fun c _ => { ganged := true, ref := c.gangRef 1 [] [], judge := fun _ _ _ => .take .mswap [] [] }) s

/-- `mma` (R252): F4[3] without a gang is ILLOP (R243). -/
def execMma (t : BitVec 3) (a : BitVec 4) (q : BitVec 5) (p : BitVec 2) (g z sat w : Bool) (s : State) :
    Host.Outcome State Fault Refusal :=
  engineWord (fun c _ =>
    let r := (c.t.sreg q.toNat).toNat
    { ganged := g, ref := c.gangRef 1 [r] [c.t.mshape.toNat], prio := some p.toNat, kinds := fun g => g.kind a.toNat
      judge := fun _ l _ => orIllop (g && c.t.gang.isNone)
        (judgeMma l t.toNat a.toNat r c.t.mshape w sat z p.toNat) }) s

/-- `mdrain` (R256). -/
def execMdrain (t : BitVec 3) (x : BitVec 4) (o : BitVec 5) (n : BitVec 6) (w : BitVec 32) (s : State) :
    Host.Outcome State Fault Refusal :=
  engineWord (fun c _ =>
    let off := (c.t.sreg o.toNat).toNat
    { ganged := true, ref := c.gangRef 2 [off] [], words := 2, kinds := fun _ => if cmdRaw w then [] else [outKind (cmdOut w)]
      judge := fun s' g wid => judgeMdrain s' g wid t.toNat x.toNat off (n.toNat + 1) w }) s

/-- `mtab` (R259). -/
def execMtab (t : BitVec 4) (s : State) : Host.Outcome State Fault Refusal :=
  engineWord (fun c _ => { ganged := true, ref := c.gangRef 1 [] [], judge := fun _ g _ => judgeMtab g t.toNat }) s

/-- `mzero` (R260). -/
def execMzero (t : BitVec 3) (s : State) : Host.Outcome State Fault Refusal :=
  engineWord (fun c _ =>
    { ganged := true, ref := c.gangRef 1 [] [], judge := fun _ _ _ => .take (.mzero t.toNat) [] [] }) s

/-- `mfill` (R260). -/
def execMfill (t : BitVec 3) (r : BitVec 4) (s : State) : Host.Outcome State Fault Refusal :=
  engineWord (fun c _ => { ganged := true, ref := c.gangRef 1 [] [], judge := fun _ g _ => judgeMfill g t.toNat r.toNat }) s

/-- The active lanes' words of a reduction's operand (R261). -/
def Cur.redVals (c : Cur) (t : RedT) (a : VOp) : List (Nat × Word) :=
  let ws := c.words t.constTy a
  (lanesOf c.e.mask c.t.lanes).map fun l => (l, ws.getD l 0)

/-- `mred.add` (R261). -/
def execMredAdd (t : RedT) (d : BitVec 6) (a : VOp) (s : State) : Host.Outcome State Fault Refusal :=
  engineWord (fun c _ =>
    { owned := false
      judge := fun _ _ _ => .take (.mred false t d.toNat (c.redVals t a) c.eid) [] [.s d.toNat, .s (d.toNat + 1)] }) s

/-- `mscan.add` (R261): both results are G and count against the grant (R44). -/
def execMscanAdd (t : RedT) (d : BitVec 6) (a : VOp) (s : State) : Host.Outcome State Fault Refusal :=
  withCur s fun c =>
    if c.pastGrant then c.exhaust s cXREG
    else
      let s' := c.engineIssue s
        { owned := false
          judge := fun _ _ _ => .take (.mred true t d.toNat (c.redVals t a) c.eid) [] [.v d.toNat, .v (d.toNat + 1)] }
      if s'.nextId = s.nextId then s' else s'.modTeam c.e.team fun t => (t.expand d.toNat).expand (d.toNat + 1)

end Sys2Proof.Machine
end

