-- ==== Sys2Proof/Machine/EngineRun.lean ====
section
/-! DEFINITION. The engine at work: dependencies, the arbiter's three paths, the granules of loads and drains, band swaps, rails and
completion (R238 to R240, R247, R251, R254, R258, R345, R358). -/

namespace Sys2Proof.Machine

/-! ### Dependencies (R238) -/

/-- The resources of R238 by number: records 0 to 15, tiles from 16, the shadow plane 24, the active bands from 25, the table 29. -/
def resTile (t : Nat) : Nat := 16 + t
def resShadow : Nat := 24
def resBand (b : Nat) : Nat := 25 + b
def resTable : Nat := 29

/-- The scale record of a record as the entries before one leave it (R248). -/
def Engine.scaleRec (e : Engine) (k d : Nat) : List Nat :=
  let start := ((tabGet e.recs d).bind (·.scales)).map (·.1)
  ((e.entries.filter fun x => decide (x.1 < k) && !x.2.done).foldl (fun m x => match x.2.op with
    | .mscl d' r _ => if d' = d then some r else m
    | .mres d' _ => if d' = d then none else m
    | _ => m) start).toList

/-- Whether a drain goes through the activation table (R258): ACT, and not a raw drain. -/
def cmdActs (cmd : Word) : Bool := cmdBit cmd 3 && !cmdBit cmd 4

/-- The resources an operation reads, and those it writes. -/
def Engine.reads (e : Engine) (k : Nat) (op : EngineOp) : List Nat :=
  match op with
  | .mls r _ => r :: e.scaleRec k r
  | .mma _ a _ _ m .. => a :: e.scaleRec k a ++ ((List.range 4).filter fun b => m.getLsbD b).map resBand
  | .mdrain t x cmd _ _ => resTile t :: (if cmdActs cmd then [resTable] else []) ++ (if cmdBit cmd 0 || cmdBit cmd 2 || cmdBit cmd 4 then [x] else [])
  | .mtab r => [r]
  | .mfill _ r => [r]
  | _ => []
def EngineOp.writes (op : EngineOp) : List Nat :=
  match op with
  | .mres d _ | .mfree d | .mscl d _ _ => [d]
  | .mld d .. => [d]
  | .mls _ c => resShadow :: (c.map (·.1)).toList
  | .mswap => resShadow :: (List.range 4).map resBand
  | .mma t .. => [resTile t]
  | .mdrain t _ cmd _ o => (if cmdBit cmd 6 then [resTile t] else []) ++ (if cmdDst cmd = 2 then [o % 16] else [])
  | .mtab _ => [resTable]
  | .mzero t | .mfill t _ => [resTile t]
  | .mred .. => []

/-- Whether an entry must wait for an earlier one (R238, R251): a pass waits for the band swaps of an `mswap`, and an `mswap`
starts beside earlier passes. -/
def Engine.blocks (e : Engine) (x y : Nat × EngineEntry) : Bool :=
  match x.2.op, y.2.op with
  | .mma .., .mswap => x.2.bands != 15
  | .mswap, .mma .. => false
  | _, _ =>
    let rx := e.reads x.1 x.2.op
    let wx := x.2.op.writes
    let ry := e.reads y.1 y.2.op
    let wy := y.2.op.writes
    wx.any (fun r => ry.contains r || wy.contains r) || rx.any fun r => wy.contains r

/-- The path of an operation (R240). -/
def EngineOp.path (op : EngineOp) : Nat :=
  match op with
  | .mma .. => 0
  | .mdrain .. | .mred .. => 2
  | _ => 1

/-- Whether an entry may be granted (R240): not yet started, or an `mma` with passes left; nothing earlier blocks it, the accesses
before it are performed (R125), and the rails of its bands are on (R358). -/
def State.eligible (s : State) (g k : Nat) (x : EngineEntry) : Bool :=
  let e := s.engine g
  let more := match x.op with
    | .mma _ _ _ rows .. => decide (x.progress < rows)
    | _ => !x.started
  let rails := match x.op with
    | .mma _ _ _ _ m .. => m &&& ~~~e.on == 0
    | _ => true
  more && rails && !x.finished && x.after.all (fun o => (tabGet s.ops o).isNone) &&
    e.entries.all fun y => !(decide (y.1 < k) && e.blocks (k, x) y)

/-- Whether a path is at work on an entry; an `mswap` and a held load leave it free (R262). -/
def Engine.busy (e : Engine) (p : Nat) : Bool :=
  e.entries.any fun y => y.2.op.path == p && y.2.started && !y.2.finished && y.2.missing.isEmpty &&
    (match y.2.op with | .mma .. | .mswap => false | _ => true)

/-- The entry that the arbiter grants on a path (R240). -/
def State.grantee (s : State) (g p : Nat) : Option (Nat × EngineEntry) :=
  let e := s.engine g
  let cands := e.entries.filter fun x => x.2.op.path == p && s.eligible g x.1 x.2
  match cands.find? fun x => x.2.aged with
  | some x => some x
  | none => cands.foldl (fun m x => match m with
    | some y => if y.2.prio < x.2.prio then some x else m
    | none => some x) none

/-! ### What a grant does -/

/-- The entry with its state changed. -/
def State.modEntry (s : State) (g k : Nat) (f : EngineEntry → EngineEntry) : State :=
  s.modEngine g fun e => { e with entries := tabMod e.entries k f }

/-- The entry finished, with flags to raise at completion. -/
def State.finishEntry (s : State) (g k : Nat) (f : Word) : State :=
  s.modEntry g k fun x => { x with finished := true, flags := x.flags ||| f }

/-- A record of an engine, and a tile. -/
def Engine.record (e : Engine) (r : Nat) : MobRecord :=
  (tabGet e.recs r).getD { format := 0, bytes := [], fresh := 0, scales := none }
def Engine.tile (e : Engine) (t : Nat) : Tile := (tabGet e.tiles t).getD Tile.blank
def Engine.putTile (e : Engine) (t : Nat) (x : Tile) : Engine := { e with tiles := tabPut e.tiles t x }
def Engine.putRec (e : Engine) (r : Nat) (x : MobRecord) : Engine := { e with recs := tabPut e.recs r x }

/-- The words of the column sums in their record. -/
def Engine.storeSums (e : Engine) (r : Nat) (c off : Nat) : Engine × Word :=
  let rd := e.record r
  let sums := (List.range (fmtWide rd.format)).map fun n => e.columnSum rd n
  (e.putRec c ((e.record c).store (4 * off) (sums.flatMap fun x => leBytes 4 x.1)), sums.foldl (fun f x => f ||| x.2) 0)

/-- One pass of an `mma` (R240, R254): up to 16 rows from the first not yet done. -/
def Engine.pass (e : Engine) (x : EngineEntry) (t a first rows : Nat) (m : BitVec 4) (rowsum sat zero : Bool) : Tile × Nat × Word :=
  let r := e.record a
  let n := if rows < x.progress + 16 then rows else x.progress + 16
  let start : Tile := if zero && x.progress == 0 then Tile.blank else e.tile t
  let start := { start with ty := accType r.format }
  let (tile, f) := (List.range (n - x.progress)).foldl (fun (b : Tile × Word) i =>
    let row := x.progress + i
    let (t', f) := e.mmaRow r (first + row) row m rowsum sat b.1
    (t', b.2 ||| f)) (start, 0)
  (tile, n, f)

/-- An entry's grant (R240): the operation runs, or starts where its work is done in granules or bands.  Reserved bytes
that a record holds are absents with FMT (R74), never FMTF (log 35). -/
def State.runEntry (s : State) (g k : Nat) (x : EngineEntry) : State :=
  let e := s.engine g
  let s := s.modEntry g k fun x => { x with started := true, aged := false }
  let ctx := match tabGet s.wgs x.wg with | some w => w.ctx | none => 0
  match x.op with
  | .mres d w =>
    let s := s.modEngine g fun e => e.putRec d { format := w, bytes := [], fresh := s.free, scales := none }
    ({ s with free := s.free + 1 }).finishEntry g k 0
  | .mfree d => (s.modEngine g fun e => { e with recs := tabDel e.recs d }).finishEntry g k 0
  | .mld _ _ _ _ _ bytes _ => if bytes = 0 then s.finishEntry g k 0 else s
  | .mscl d r off => (s.modEngine g fun e => { e with recs := tabMod e.recs d fun q => { q with scales := some (r, off) } }).finishEntry g k 0
  | .mls r sums =>
    let rd := e.record r
    let bad : Word := if e.rowsReserved rd 0 (fmtCount rd.format) then flagFMT else 0
    let (e', f) := match sums with
      | some (c, off) => e.storeSums r c off
      | none => (e, 0)
    (s.modEngine g fun e => { e with recs := e'.recs, shadow := (List.range 4).map (Engine.loadBand e' rd) }).finishEntry g k (bad ||| f)
  | .mswap => s
  | .mma t a first rows m rowsum sat zero _ =>
    let (tile, n, f) := e.pass x t a first rows m rowsum sat zero
    let s := (s.modEngine g fun e => e.putTile t tile).modEntry g k fun x =>
      { x with progress := n, flags := x.flags ||| f, finished := decide (rows ≤ n) }
    s.countEvent ctx 0x0D 1
  | .mdrain t a cmd rows o =>
    let tile := e.tile t
    let aux := e.record a
    let (bs, f) := drainBytes e.table (fun i => aux.word i) tile cmd rows
    let s := if cmdBit cmd 6 then s.modEngine g fun e => e.putTile t (tile.clear rows) else s
    if cmdDst cmd = 2 then (s.modEngine g fun e => e.putRec (o % 16) ((e.record (o % 16)).store 0 bs)).finishEntry g k f
    else s.modEntry g k fun x => { x with out := bs, flags := x.flags ||| f }
  | .mtab r =>
    let rd := e.record r
    let w (i : Nat) : Word := .ofNat 32 (rd.word i)
    (s.modEngine g fun e => { e with table := { ys := (List.range 129).map w, x0 := w 129, h := w 130 } }).finishEntry g k 0
  | .mzero t => (s.modEngine g fun e => e.putTile t Tile.blank).finishEntry g k 0
  | .mfill t r => (s.modEngine g fun e => e.putTile t (tileOf (e.record r).byte)).finishEntry g k 0
  | .mred .. => s.finishEntry g k 0

/-- ARBITER_GRANT (R240): a free path grants an entry, or a pass. -/
def execArbiterGrant (g : Nat) (p : Nat) (s : State) : Host.Outcome State Fault Refusal :=
  .next (if (s.engine g).busy p then s
    else match s.grantee g p with
      | some (k, x) => s.runEntry g k x
      | none => s)

/-- ARBITER_AGE_LIMIT (R240): an eligible entry has waited 4,096 engine cycles. -/
def execArbiterAgeLimit (g : Nat) (k : Nat) (s : State) : Host.Outcome State Fault Refusal :=
  .next (match tabGet (s.engine g).entries k with
    | some x => if s.eligible g k x then s.modEntry g k fun x => { x with aged := true } else s
    | none => s)

/-- One band of the two planes exchanged. -/
def Engine.swapBand (e : Engine) (b : Nat) : Engine :=
  { e with active := e.active.set b (e.shadow.getD b .blank), shadow := e.shadow.set b (e.active.getD b .blank) }

/-- MSWAP_BAND_SWAP (R251): bands swap in order, each once every pass accepted before has left it. -/
def execMswapBandSwap (g : Nat) (k : Nat) (b : Nat) (s : State) : Host.Outcome State Fault Refusal :=
  .next (match tabGet (s.engine g).entries k with
    | some x =>
      let earlier := (s.engine g).entries.filter fun y => decide (y.1 < k) && !y.2.finished && y.2.op.path == 0
      if x.op = .mswap ∧ x.started ∧ b < 4 ∧ x.bands.toNat = 2 ^ b - 1 ∧ earlier.isEmpty then
        (s.modEngine g fun e => e.swapBand b).modEntry g k fun x =>
          { x with bands := x.bands ||| (1#4 <<< b), finished := decide (b = 3) }
      else s
    | none => s)

/-! ### Granules of loads and drains (R345) -/

/-- The next access of an `mld` from global memory. -/
def EngineEntry.nextPiece (x : EngineEntry) : Option (AccKind × Nat × Nat) :=
  match x.op with
  | .mld _ .global base _ _ bytes _ => (mldPieces base bytes)[x.progress]?
  | _ => none

/-- The stack and context for which an entry's accesses are translated. -/
def State.entryPlace (s : State) (x : EngineEntry) : Nat × Nat :=
  match tabGet s.wgs x.wg with | some w => (coreStack w.core, w.ctx) | none => (0, 0)

/-- The accesses from global memory that a load has still to make. -/
def EngineEntry.restPieces (x : EngineEntry) : List (AccKind × Nat × Nat) :=
  match x.op with
  | .mld _ .global base _ _ bytes _ => (mldPieces base bytes).drop x.progress
  | _ => []

/-- Why a load cannot go on (R247): its wait has ended under FAIL, or a check fails at its next page. -/
def State.loadFault (s : State) (x : EngineEntry) : Option (Nat × Nat × Nat) :=
  if x.fail then some (cPGNP, lowestAt x.missing x.restPieces, 0)
  else
    let (st, c) := s.entryPlace x
    match x.nextPiece with
    | some (k, a, n) => if x.missing.contains (pageOf a) || s.walkWaits st c k a then none else (match s.xlate st c k a n with
      | .fault x' a b => some (x', a, b)
      | _ => none)
    | none => none

/-- A load waits at a page without a mapping: the page gets its record once (R309), at the address the load has come to, which is the
page's lowest of those to come. -/
def State.holdEntry (s : State) (g k : Nat) (x : EngineEntry) (a : Nat) : State :=
  if x.missing.contains (pageOf a) then s
  else
    let s := s.modEntry g k fun x => { x with missing := x.missing ++ [pageOf a], held := true }
    match tabGet s.teams (x.teams.headD 0) with
    | some t => s.fqFault t (parkRecord x.frag x.mask x.pc x.word a)
    | none => s

/-- Bytes of a load placed in its record; the first reserved byte of a strict load is noted (R247). -/
def State.loadInto (s : State) (g k d at' src : Nat) (strict : Bool) (bs : List Byte) : State :=
  let bad := if strict then ((bs.zipIdx).find? fun b => decide (243 < b.1.toNat)).map fun b => src + b.2 else none
  (s.modEngine g fun e => e.putRec d ((e.record d).store at' bs)).modEntry g k fun x =>
    { x with progress := x.progress + 1, reserved := x.reserved.or bad }

/-- The L1 write-backs that the order of an operation behind its issuers requires (R125), before its first granule. -/
def State.observeTeams (s : State) (x : EngineEntry) : State :=
  if x.progress = 0 then x.teams.foldl (fun s t => match tabGet s.teams t with | some t => s.observe t | none => s) s else s

/-- One granule of an engine's load or drain. -/
def State.engineStep (s : State) (g k : Nat) : State :=
  match tabGet (s.engine g).entries k with
  | none => s
  | some x =>
    if !x.started || x.finished then s
    else match x.op with
      | .mld d src base first _ bytes strict =>
        let i := x.progress
        let n := if bytes < 16 * i + 16 then bytes - 16 * i else 16
        let last := decide (bytes ≤ 16 * i + 16)
        let close (s : State) : State := if last then s.finishEntry g k 0 else s
        (match src with
         | .global =>
           let (st, c) := s.entryPlace x
           let a := (base + 16 * i) % 2 ^ 64
           let s := if (s.loadFault x).isSome then s else s.observeTeams x
           if (s.loadFault x).isSome || s.walkWaits st c .copyRead a then s
           else match s.xlate st c .copyRead a n with
             | .ok phys _ =>
               if x.missing.contains (pageOf a) || !s.reaches phys then s
               else close ((s.touch st c .copyRead a).loadInto g k d (first + 16 * i) a strict (s.loadBytes phys n))
             | _ => s.holdEntry g k x a
         | .spad => if s.landed x.wg .spad (base + 16 * i) then
             close (s.loadInto g k d (first + 16 * i) (base + 16 * i) strict (s.spaceRead x.wg .spad (base + 16 * i) n)) else s
         | .clmem => if s.landed x.wg .clmem (base + 16 * i) then
             close (s.loadInto g k d (first + 16 * i) (base + 16 * i) strict (s.spaceRead x.wg .clmem (base + 16 * i) n)) else s)
      | .mdrain _ _ cmd _ o =>
        let i := x.progress
        let sp : Space := if cmdDst cmd = 0 then .spad else .clmem
        if !s.landed x.wg sp (o + 16 * i) then s
        else
          (s.spaceWrite x.wg sp (o + 16 * i) ((x.out.drop (16 * i)).take 16)).modEntry g k fun x =>
            { x with progress := i + 1, finished := decide (x.out.length ≤ 16 * i + 16) }
      | _ => s

/-- DESTINATION_WRITE (R345): one granule of a copy slice, of an engine's load, or of its drain. -/
def execDestinationWrite (x : WriteSite) (s : State) : Host.Outcome State Fault Refusal :=
  .next (match x with
    | .copy c i => s.sliceStep c i
    | .engine g k => s.engineStep g k)

/-! ### Completion -/

/-- The registers that a team-wide reduction writes (R261). -/
def Team.writeRed (t : Team) (op : EngineOp) : Team :=
  match op with
  | .mred scan ty dst vals _ =>
    let r := reduceTeam ty vals
    if scan then
      ((r.2.1.foldl (fun t x => (t.laneSetV dst x.1 (.ofNat 32 x.2.1)).laneSetV (dst + 1) x.1 (.ofNat 32 x.2.2))
        t).raiseFlags r.2.2)
    else ((t.setS dst (.ofNat 32 r.1.1)).setS (dst + 1) (.ofNat 32 r.1.2.1)).raiseFlags r.1.2.2
  | _ => t

/-- The columns on which teams stand, one for each team. -/
def State.teamColumns (s : State) (ts : List Nat) : List Nat :=
  ts.filterMap fun t => (tabGet s.teams t).map fun t => coreColumn (s.coreOf t)

/-- An entry is freed: flags accrue to every issuer, CNTTL falls, and a reduction's registers are written (R239, R261). -/
def State.freeEntry (s : State) (g k : Nat) (x : EngineEntry) : State :=
  let s := { s.modEngine g fun e => { e with entries := tabDel e.entries k } with charged := tabPut s.charged k (s.teamColumns x.teams) }
  (x.teams.eraseDups).foldl (fun s t =>
    (s.modTeam t fun t => (((t.writeRed x.op).raiseFlags x.flags).cntDone .tl k).clearPend k).recount t) s

/-- ENGINE_OP_COMPLETE (R239, R379). -/
def execEngineOpComplete (g : Nat) (k : Nat) (s : State) : Host.Outcome State Fault Refusal :=
  .next (match tabGet (s.engine g).entries k with
    | some x => if x.finished && x.reserved.isNone then (s.freeEntry g k x).ownRequest (24 + g) else s
    | none => s)

/-- The deferred record of an entry's failure goes to its issuer (R247, R341). -/
def State.failEntry (s : State) (g k : Nat) (x : EngineEntry) (parked : Bool) (cause a1 a2 : Nat) : State :=
  (s.freeEntry g k x).deferFault (x.teams.headD 0)
    { cause := cause, parked := parked, word := x.word, frag := x.frag, lanes := x.mask, pc := x.pc, addr1 := a1, addr2 := a2
      resumePc := x.pc, resume := 1 }

/-- MLD_FAILURE (R247): no further rows are loaded, and the rows loaded stand. -/
def execMldFailure (g : Nat) (k : Nat) (s : State) : Host.Outcome State Fault Refusal :=
  .next (match tabGet (s.engine g).entries k with
    | some x => match x.started || x.fail, s.loadFault x with
      | true, some (c, a, b) => s.failEntry g k x x.held c a b
      | _, _ => s
    | none => s)

/-- MLD_STRICT_FMTF (R247): a strict load has found a reserved byte; its bytes are stored as read. -/
def execMldStrictFmtf (g : Nat) (k : Nat) (s : State) : Host.Outcome State Fault Refusal :=
  .next (match tabGet (s.engine g).entries k with
    | some x => match x.finished, x.reserved, x.op with
      | true, some a, .mld d .. => s.failEntry g k x false cFMTF a d
      | _, _, _ => s
    | none => s)

/-! ### Band rails (R358) -/

/-- Whether an accepted `mma` names a band. -/
def Engine.bandUsed (e : Engine) (b : Nat) : Bool :=
  e.entries.any fun x => match x.2.op with | .mma _ _ _ _ m .. => m.getLsbD b && !x.2.finished | _ => false

/-- BAND_RAIL_WAKE (R358): the rail of a band that an accepted `mma` needs is up. -/
def execBandRailWake (g : Nat) (b : Nat) (s : State) : Host.Outcome State Fault Refusal :=
  .next (let e := s.engine g
    if b < 4 ∧ !e.on.getLsbD b ∧ (e.bandUsed b ∨ !e.gate.getLsbD b) then s.setEngine g { e with on := e.on ||| (1#4 <<< b) } else s)

/-- BAND_RAIL_GATE (R358): an idle band with its GATE bit set powers down. -/
def execBandRailGate (g : Nat) (b : Nat) (s : State) : Host.Outcome State Fault Refusal :=
  .next (let e := s.engine g
    if b < 4 ∧ e.on.getLsbD b ∧ e.gate.getLsbD b ∧ !e.bandUsed b then s.setEngine g { e with on := e.on &&& ~~~(1#4 <<< b) } else s)

end Sys2Proof.Machine
end

