-- ==== Sys2Proof/Decode.lean ====
section
/-! DEFINITION. The decoder of instruction words, total and rejecting by name, and after it the encoder. -/

namespace Sys2Proof

/-- Bits `hi` down to `lo` of a word. -/
def fld (w hi lo : Nat) : Nat := w / 2 ^ lo % 2 ^ (hi - lo + 1)

/-- The code of a `Latch` in an instruction word. -/
def Latch.code : Latch → Nat
  | .a => 0
  | .b => 1
  | .m => 2
  | .f => 3

/-- The `Latch` that a code names, if any. -/
def Latch.ofCode : Nat → Option Latch
  | 0 => some .a
  | 1 => some .b
  | 2 => some .m
  | 3 => some .f
  | _ => none

/-- The code of a `VConst` in an instruction word. -/
def VConst.code : VConst → Nat
  | .zero => 0
  | .one => 1
  | .negOne => 2
  | .half => 3
  | .two => 4
  | .absent => 5
  | .lane => 6

/-- The `VConst` that a code names, if any. -/
def VConst.ofCode : Nat → Option VConst
  | 0 => some .zero
  | 1 => some .one
  | 2 => some .negOne
  | 3 => some .half
  | 4 => some .two
  | 5 => some .absent
  | 6 => some .lane
  | _ => none

/-- The code of a `HalfT` in an instruction word. -/
def HalfT.code : HalfT → Nat
  | .f16 => 0
  | .bf16 => 1

/-- The `HalfT` that a code names, if any. -/
def HalfT.ofCode : Nat → Option HalfT
  | 0 => some .f16
  | 1 => some .bf16
  | _ => none

/-- The code of a `Fp8T` in an instruction word. -/
def Fp8T.code : Fp8T → Nat
  | .e4m3 => 0
  | .e5m2 => 1

/-- The `Fp8T` that a code names, if any. -/
def Fp8T.ofCode : Nat → Option Fp8T
  | 0 => some .e4m3
  | 1 => some .e5m2
  | _ => none

/-- The code of a `RndDir` in an instruction word. -/
def RndDir.code : RndDir → Nat
  | .n => 0
  | .d => 1
  | .u => 2
  | .z => 3

/-- The `RndDir` that a code names, if any. -/
def RndDir.ofCode : Nat → Option RndDir
  | 0 => some .n
  | 1 => some .d
  | 2 => some .u
  | 3 => some .z
  | _ => none

/-- The code of a `ValT` in an instruction word. -/
def ValT.code : ValT → Nat
  | .i32 => 0
  | .i16 => 1
  | .i8 => 2
  | .n8 => 3

/-- The `ValT` that a code names, if any. -/
def ValT.ofCode : Nat → Option ValT
  | 0 => some .i32
  | 1 => some .i16
  | 2 => some .i8
  | 3 => some .n8
  | _ => none

/-- The code of a `Cond` in an instruction word. -/
def Cond.code : Cond → Nat
  | .eq => 0
  | .ne => 1
  | .lt => 2
  | .le => 3
  | .gt => 4
  | .ge => 5
  | .un => 6
  | .abs => 7

/-- The `Cond` that a code names, if any. -/
def Cond.ofCode : Nat → Option Cond
  | 0 => some .eq
  | 1 => some .ne
  | 2 => some .lt
  | 3 => some .le
  | 4 => some .gt
  | 5 => some .ge
  | 6 => some .un
  | 7 => some .abs
  | _ => none

/-- The code of a `AbsT` in an instruction word. -/
def AbsT.code : AbsT → Nat
  | .f32 => 0
  | .f16 => 1
  | .bf16 => 2
  | .e4m3 => 3
  | .e5m2 => 4
  | .i32 => 5
  | .i8 => 6
  | .n8 => 7

/-- The `AbsT` that a code names, if any. -/
def AbsT.ofCode : Nat → Option AbsT
  | 0 => some .f32
  | 1 => some .f16
  | 2 => some .bf16
  | 3 => some .e4m3
  | 4 => some .e5m2
  | 5 => some .i32
  | 6 => some .i8
  | 7 => some .n8
  | _ => none

/-- The code of a `UpT` in an instruction word. -/
def UpT.code : UpT → Nat
  | .f16 => 0
  | .bf16 => 1
  | .e4m3 => 2
  | .e5m2 => 3
  | .i8 => 4
  | .n8 => 5

/-- The `UpT` that a code names, if any. -/
def UpT.ofCode : Nat → Option UpT
  | 0 => some .f16
  | 1 => some .bf16
  | 2 => some .e4m3
  | 3 => some .e5m2
  | 4 => some .i8
  | 5 => some .n8
  | _ => none

/-- The code of a `PlogOp` in an instruction word. -/
def PlogOp.code : PlogOp → Nat
  | .and => 0
  | .or => 1
  | .xor => 2
  | .not => 3

/-- The `PlogOp` that a code names, if any. -/
def PlogOp.ofCode : Nat → Option PlogOp
  | 0 => some .and
  | 1 => some .or
  | 2 => some .xor
  | 3 => some .not
  | _ => none

/-- The code of a `LdSz` in an instruction word. -/
def LdSz.code : LdSz → Nat
  | .b8s => 0
  | .b8z => 1
  | .b16s => 2
  | .b16z => 3
  | .b32 => 4
  | .b64 => 5
  | .b128 => 6

/-- The `LdSz` that a code names, if any. -/
def LdSz.ofCode : Nat → Option LdSz
  | 0 => some .b8s
  | 1 => some .b8z
  | 2 => some .b16s
  | 3 => some .b16z
  | 4 => some .b32
  | 5 => some .b64
  | 6 => some .b128
  | _ => none

/-- The code of a `StSz` in an instruction word. -/
def StSz.code : StSz → Nat
  | .b8 => 0
  | .b16 => 2
  | .b32 => 4
  | .b64 => 5
  | .b128 => 6

/-- The `StSz` that a code names, if any. -/
def StSz.ofCode : Nat → Option StSz
  | 0 => some .b8
  | 2 => some .b16
  | 4 => some .b32
  | 5 => some .b64
  | 6 => some .b128
  | _ => none

/-- The code of a `LdOrd` in an instruction word. -/
def LdOrd.code : LdOrd → Nat
  | .plain => 0
  | .acq => 1
  | .inv => 2
  | .stream => 3

/-- The `LdOrd` that a code names, if any. -/
def LdOrd.ofCode : Nat → Option LdOrd
  | 0 => some .plain
  | 1 => some .acq
  | 2 => some .inv
  | 3 => some .stream
  | _ => none

/-- The code of a `StOrd` in an instruction word. -/
def StOrd.code : StOrd → Nat
  | .plain => 0
  | .rel => 1
  | .stream => 2

/-- The `StOrd` that a code names, if any. -/
def StOrd.ofCode : Nat → Option StOrd
  | 0 => some .plain
  | 1 => some .rel
  | 2 => some .stream
  | _ => none

/-- The code of a `Pol` in an instruction word. -/
def Pol.code : Pol → Nat
  | .normal => 0
  | .l2 => 1
  | .ef => 2
  | .el => 3

/-- The `Pol` that a code names, if any. -/
def Pol.ofCode : Nat → Option Pol
  | 0 => some .normal
  | 1 => some .l2
  | 2 => some .ef
  | 3 => some .el
  | _ => none

/-- The code of a `AOrd` in an instruction word. -/
def AOrd.code : AOrd → Nat
  | .relaxed => 0
  | .acq => 1
  | .rel => 2
  | .ar => 3

/-- The `AOrd` that a code names, if any. -/
def AOrd.ofCode : Nat → Option AOrd
  | 0 => some .relaxed
  | 1 => some .acq
  | 2 => some .rel
  | 3 => some .ar
  | _ => none

/-- The code of a `ATy` in an instruction word. -/
def ATy.code : ATy → Nat
  | .i32 => 0
  | .n32 => 1
  | .f32 => 2
  | .b64 => 3

/-- The `ATy` that a code names, if any. -/
def ATy.ofCode : Nat → Option ATy
  | 0 => some .i32
  | 1 => some .n32
  | 2 => some .f32
  | 3 => some .b64
  | _ => none

/-- The code of a `Sp` in an instruction word. -/
def Sp.code : Sp → Nat
  | .spad => 0
  | .clmem => 1

/-- The `Sp` that a code names, if any. -/
def Sp.ofCode : Nat → Option Sp
  | 0 => some .spad
  | 1 => some .clmem
  | _ => none

/-- The code of a `FKind` in an instruction word. -/
def FKind.code : FKind → Nat
  | .acq => 0
  | .rel => 1
  | .ar => 2

/-- The `FKind` that a code names, if any. -/
def FKind.ofCode : Nat → Option FKind
  | 0 => some .acq
  | 1 => some .rel
  | 2 => some .ar
  | _ => none

/-- The code of a `Scope` in an instruction word. -/
def Scope.code : Scope → Nat
  | .team => 0
  | .wg => 1
  | .clu => 2
  | .stk => 3
  | .pkg => 4
  | .sys => 5

/-- The `Scope` that a code names, if any. -/
def Scope.ofCode : Nat → Option Scope
  | 0 => some .team
  | 1 => some .wg
  | 2 => some .clu
  | 3 => some .stk
  | 4 => some .pkg
  | 5 => some .sys
  | _ => none

/-- The code of a `MldSrc` in an instruction word. -/
def MldSrc.code : MldSrc → Nat
  | .global => 0
  | .spad => 1
  | .clmem => 2

/-- The `MldSrc` that a code names, if any. -/
def MldSrc.ofCode : Nat → Option MldSrc
  | 0 => some .global
  | 1 => some .spad
  | 2 => some .clmem
  | _ => none

/-- The code of a `RedT` in an instruction word. -/
def RedT.code : RedT → Nat
  | .f32 => 0
  | .f16 => 1
  | .bf16 => 2
  | .i32 => 3

/-- The `RedT` that a code names, if any. -/
def RedT.ofCode : Nat → Option RedT
  | 0 => some .f32
  | 1 => some .f16
  | 2 => some .bf16
  | 3 => some .i32
  | _ => none

/-- The 7-bit code of a vector operand (R138). -/
def VOp.code : VOp → Nat
  | .v n => n.toNat
  | .s n => 0x40 + n.toNat
  | .o n => 0x60 + n.toNat
  | .latch l => 0x70 + l.code
  | .const c => 0x78 + c.code

/-- The vector operand that a code names (R138); codes 0x74 to 0x77 and 0x7F name none. -/
def VOp.ofCode (c : Nat) : Option VOp :=
  if c < 0x40 then some (.v (.ofNat 6 c))
  else if c < 0x60 then some (.s (.ofNat 5 (c - 0x40)))
  else if c < 0x70 then some (.o (.ofNat 4 (c - 0x60)))
  else if c < 0x78 then (Latch.ofCode (c - 0x70)).map .latch
  else (VConst.ofCode (c - 0x78)).map .const

/-- The offset word of a format M instruction: present exactly when XW is set (R141). -/
def offOf (w x : Nat) : Option (BitVec 32) := if fld w 18 18 = 1 then some (.ofNat 32 x) else none

/-- The words of a format M instruction with its offset word, if any. -/
def withOff (w : Nat) : Option (BitVec 32) → List Nat
  | none => [w]
  | some o => [w + 262144, o.toNat]

/-! Lean's compiled code has no room for the tags of an inductive of this many constructors, so the functions that build
an instruction are for the kernel alone. -/
noncomputable section


/-- Opcode 0x01 (R142). -/
def decodeOp01 (w : Nat) : Option Instr :=
  match fld w 25 21 with
  | 0 => (VOp.ofCode (fld w 6 0)).bind fun d => (VOp.ofCode (fld w 13 7)).bind fun a => (VOp.ofCode (fld w 20 14)).bind fun b => some (.faddF32 d a b)
  | 1 => (VOp.ofCode (fld w 6 0)).bind fun d => (VOp.ofCode (fld w 13 7)).bind fun a => (VOp.ofCode (fld w 20 14)).bind fun b => some (.fsubF32 d a b)
  | 2 => (VOp.ofCode (fld w 6 0)).bind fun d => (VOp.ofCode (fld w 13 7)).bind fun a => (VOp.ofCode (fld w 20 14)).bind fun b => some (.fmulF32 d a b)
  | 3 => (VOp.ofCode (fld w 6 0)).bind fun d => (VOp.ofCode (fld w 13 7)).bind fun a => (VOp.ofCode (fld w 20 14)).bind fun b => some (.fminF32 d a b)
  | 4 => (VOp.ofCode (fld w 6 0)).bind fun d => (VOp.ofCode (fld w 13 7)).bind fun a => (VOp.ofCode (fld w 20 14)).bind fun b => some (.fmaxF32 d a b)
  | 5 => if fld w 20 14 = 0 then (VOp.ofCode (fld w 6 0)).bind fun d => (VOp.ofCode (fld w 13 7)).bind fun a => some (.fabsF32 d a) else none
  | 6 => if fld w 20 14 = 0 then (VOp.ofCode (fld w 6 0)).bind fun d => (VOp.ofCode (fld w 13 7)).bind fun a => some (.fnegF32 d a) else none
  | 7 => if fld w 20 14 = 0 then (VOp.ofCode (fld w 6 0)).bind fun d => (VOp.ofCode (fld w 13 7)).bind fun a => some (.fsatF32 d a) else none
  | 8 | 9 | 10 | 11 => if fld w 20 14 = 0 then (RndDir.ofCode (fld w 22 21)).bind fun m => (VOp.ofCode (fld w 6 0)).bind fun d => (VOp.ofCode (fld w 13 7)).bind fun a => some (.frndF32 m d a) else none
  | 12 => (VOp.ofCode (fld w 6 0)).bind fun d => (VOp.ofCode (fld w 13 7)).bind fun a => (VOp.ofCode (fld w 20 14)).bind fun b => some (.fdivF32 d a b)
  | 13 => if fld w 20 14 = 0 then (VOp.ofCode (fld w 6 0)).bind fun d => (VOp.ofCode (fld w 13 7)).bind fun a => some (.fsqrtF32 d a) else none
  | _ => none

/-- Opcode 0x02 (R142). -/
def decodeOp02 (w : Nat) : Option Instr :=
  match fld w 25 21 with
  | 0 => (HalfT.ofCode (fld w 26 26)).bind fun t => (VOp.ofCode (fld w 6 0)).bind fun d => (VOp.ofCode (fld w 13 7)).bind fun a => (VOp.ofCode (fld w 20 14)).bind fun b => some (.faddF16Bf16 t d a b)
  | 1 => (HalfT.ofCode (fld w 26 26)).bind fun t => (VOp.ofCode (fld w 6 0)).bind fun d => (VOp.ofCode (fld w 13 7)).bind fun a => (VOp.ofCode (fld w 20 14)).bind fun b => some (.fsubF16Bf16 t d a b)
  | 2 => (HalfT.ofCode (fld w 26 26)).bind fun t => (VOp.ofCode (fld w 6 0)).bind fun d => (VOp.ofCode (fld w 13 7)).bind fun a => (VOp.ofCode (fld w 20 14)).bind fun b => some (.fmulF16Bf16 t d a b)
  | 3 => (HalfT.ofCode (fld w 26 26)).bind fun t => (VOp.ofCode (fld w 6 0)).bind fun d => (VOp.ofCode (fld w 13 7)).bind fun a => (VOp.ofCode (fld w 20 14)).bind fun b => some (.fminF16Bf16 t d a b)
  | 4 => (HalfT.ofCode (fld w 26 26)).bind fun t => (VOp.ofCode (fld w 6 0)).bind fun d => (VOp.ofCode (fld w 13 7)).bind fun a => (VOp.ofCode (fld w 20 14)).bind fun b => some (.fmaxF16Bf16 t d a b)
  | 5 => if fld w 20 14 = 0 then (HalfT.ofCode (fld w 26 26)).bind fun t => (VOp.ofCode (fld w 6 0)).bind fun d => (VOp.ofCode (fld w 13 7)).bind fun a => some (.fabsF16Bf16 t d a) else none
  | 6 => if fld w 20 14 = 0 then (HalfT.ofCode (fld w 26 26)).bind fun t => (VOp.ofCode (fld w 6 0)).bind fun d => (VOp.ofCode (fld w 13 7)).bind fun a => some (.fnegF16Bf16 t d a) else none
  | 7 => if fld w 20 14 = 0 then (HalfT.ofCode (fld w 26 26)).bind fun t => (VOp.ofCode (fld w 6 0)).bind fun d => (VOp.ofCode (fld w 13 7)).bind fun a => some (.fsatF16Bf16 t d a) else none
  | 8 | 9 | 10 | 11 => if fld w 20 14 = 0 then (HalfT.ofCode (fld w 26 26)).bind fun t => (RndDir.ofCode (fld w 22 21)).bind fun m => (VOp.ofCode (fld w 6 0)).bind fun d => (VOp.ofCode (fld w 13 7)).bind fun a => some (.frndF16Bf16 t m d a) else none
  | _ => none

/-- Opcode 0x04 (R142). -/
def decodeOp04 (w : Nat) : Option Instr :=
  match fld w 25 21 with
  | 0 => (VOp.ofCode (fld w 6 0)).bind fun d => (VOp.ofCode (fld w 13 7)).bind fun a => (VOp.ofCode (fld w 20 14)).bind fun b => some (.faddF64 d a b)
  | 1 => (VOp.ofCode (fld w 6 0)).bind fun d => (VOp.ofCode (fld w 13 7)).bind fun a => (VOp.ofCode (fld w 20 14)).bind fun b => some (.fsubF64 d a b)
  | 2 => (VOp.ofCode (fld w 6 0)).bind fun d => (VOp.ofCode (fld w 13 7)).bind fun a => (VOp.ofCode (fld w 20 14)).bind fun b => some (.fmulF64 d a b)
  | 3 => (VOp.ofCode (fld w 6 0)).bind fun d => (VOp.ofCode (fld w 13 7)).bind fun a => (VOp.ofCode (fld w 20 14)).bind fun b => some (.fminF64 d a b)
  | 4 => (VOp.ofCode (fld w 6 0)).bind fun d => (VOp.ofCode (fld w 13 7)).bind fun a => (VOp.ofCode (fld w 20 14)).bind fun b => some (.fmaxF64 d a b)
  | 5 => if fld w 20 14 = 0 then (VOp.ofCode (fld w 6 0)).bind fun d => (VOp.ofCode (fld w 13 7)).bind fun a => some (.fabsF64 d a) else none
  | 6 => if fld w 20 14 = 0 then (VOp.ofCode (fld w 6 0)).bind fun d => (VOp.ofCode (fld w 13 7)).bind fun a => some (.fnegF64 d a) else none
  | 7 => if fld w 20 14 = 0 then (VOp.ofCode (fld w 6 0)).bind fun d => (VOp.ofCode (fld w 13 7)).bind fun a => some (.fsatF64 d a) else none
  | 8 | 9 | 10 | 11 => if fld w 20 14 = 0 then (RndDir.ofCode (fld w 22 21)).bind fun m => (VOp.ofCode (fld w 6 0)).bind fun d => (VOp.ofCode (fld w 13 7)).bind fun a => some (.frndF64 m d a) else none
  | 12 => (VOp.ofCode (fld w 6 0)).bind fun d => (VOp.ofCode (fld w 13 7)).bind fun a => (VOp.ofCode (fld w 20 14)).bind fun b => some (.fdivF64 d a b)
  | 13 => if fld w 20 14 = 0 then (VOp.ofCode (fld w 6 0)).bind fun d => (VOp.ofCode (fld w 13 7)).bind fun a => some (.fsqrtF64 d a) else none
  | _ => none

/-- Opcode 0x05 (R142). -/
def decodeOp05 (w : Nat) : Option Instr :=
  match fld w 25 21 with
  | 0 | 16 => (Fp8T.ofCode (fld w 25 25)).bind fun t => (VOp.ofCode (fld w 6 0)).bind fun d => (VOp.ofCode (fld w 13 7)).bind fun a => (VOp.ofCode (fld w 20 14)).bind fun b => some (.faddFp8 t d a b)
  | 1 | 17 => (Fp8T.ofCode (fld w 25 25)).bind fun t => (VOp.ofCode (fld w 6 0)).bind fun d => (VOp.ofCode (fld w 13 7)).bind fun a => (VOp.ofCode (fld w 20 14)).bind fun b => some (.fsubFp8 t d a b)
  | 2 | 18 => (Fp8T.ofCode (fld w 25 25)).bind fun t => (VOp.ofCode (fld w 6 0)).bind fun d => (VOp.ofCode (fld w 13 7)).bind fun a => (VOp.ofCode (fld w 20 14)).bind fun b => some (.fmulFp8 t d a b)
  | 3 | 19 => (Fp8T.ofCode (fld w 25 25)).bind fun t => (VOp.ofCode (fld w 6 0)).bind fun d => (VOp.ofCode (fld w 13 7)).bind fun a => (VOp.ofCode (fld w 20 14)).bind fun b => some (.fminFp8 t d a b)
  | 4 | 20 => (Fp8T.ofCode (fld w 25 25)).bind fun t => (VOp.ofCode (fld w 6 0)).bind fun d => (VOp.ofCode (fld w 13 7)).bind fun a => (VOp.ofCode (fld w 20 14)).bind fun b => some (.fmaxFp8 t d a b)
  | 5 | 21 => if fld w 20 14 = 0 then (Fp8T.ofCode (fld w 25 25)).bind fun t => (VOp.ofCode (fld w 6 0)).bind fun d => (VOp.ofCode (fld w 13 7)).bind fun a => some (.fabsFp8 t d a) else none
  | 6 | 22 => if fld w 20 14 = 0 then (Fp8T.ofCode (fld w 25 25)).bind fun t => (VOp.ofCode (fld w 6 0)).bind fun d => (VOp.ofCode (fld w 13 7)).bind fun a => some (.fnegFp8 t d a) else none
  | 7 | 23 => if fld w 20 14 = 0 then (Fp8T.ofCode (fld w 25 25)).bind fun t => (VOp.ofCode (fld w 6 0)).bind fun d => (VOp.ofCode (fld w 13 7)).bind fun a => some (.fsatFp8 t d a) else none
  | _ => none

/-- Opcode 0x06 (R142). -/
def decodeOp06 (w : Nat) : Option Instr :=
  match fld w 25 21 with
  | 0 => (VOp.ofCode (fld w 6 0)).bind fun d => (VOp.ofCode (fld w 13 7)).bind fun a => (VOp.ofCode (fld w 20 14)).bind fun b => some (.ffmaF32 d a b)
  | 1 => (VOp.ofCode (fld w 6 0)).bind fun d => (VOp.ofCode (fld w 13 7)).bind fun a => (VOp.ofCode (fld w 20 14)).bind fun b => some (.ffmsF32 d a b)
  | 2 => (VOp.ofCode (fld w 6 0)).bind fun d => (VOp.ofCode (fld w 13 7)).bind fun a => (VOp.ofCode (fld w 20 14)).bind fun b => some (.ffnmaF32 d a b)
  | 3 => (VOp.ofCode (fld w 6 0)).bind fun d => (VOp.ofCode (fld w 13 7)).bind fun a => (VOp.ofCode (fld w 20 14)).bind fun b => some (.ffmaF16 d a b)
  | 4 => (VOp.ofCode (fld w 6 0)).bind fun d => (VOp.ofCode (fld w 13 7)).bind fun a => (VOp.ofCode (fld w 20 14)).bind fun b => some (.ffmaBf16 d a b)
  | 5 => (VOp.ofCode (fld w 6 0)).bind fun d => (VOp.ofCode (fld w 13 7)).bind fun a => (VOp.ofCode (fld w 20 14)).bind fun b => some (.ffmaF64 d a b)
  | 6 => (VOp.ofCode (fld w 6 0)).bind fun d => (VOp.ofCode (fld w 13 7)).bind fun a => (VOp.ofCode (fld w 20 14)).bind fun b => some (.fdot2F16 d a b)
  | 7 => (VOp.ofCode (fld w 6 0)).bind fun d => (VOp.ofCode (fld w 13 7)).bind fun a => (VOp.ofCode (fld w 20 14)).bind fun b => some (.fdot2Bf16 d a b)
  | 8 => (VOp.ofCode (fld w 6 0)).bind fun d => (VOp.ofCode (fld w 13 7)).bind fun a => (VOp.ofCode (fld w 20 14)).bind fun b => some (.fdot4E4m3 d a b)
  | 9 => (VOp.ofCode (fld w 6 0)).bind fun d => (VOp.ofCode (fld w 13 7)).bind fun a => (VOp.ofCode (fld w 20 14)).bind fun b => some (.fdot4E5m2 d a b)
  | 10 => (VOp.ofCode (fld w 6 0)).bind fun d => (VOp.ofCode (fld w 13 7)).bind fun a => (VOp.ofCode (fld w 20 14)).bind fun b => some (.idot4Ii d a b)
  | 11 => (VOp.ofCode (fld w 6 0)).bind fun d => (VOp.ofCode (fld w 13 7)).bind fun a => (VOp.ofCode (fld w 20 14)).bind fun b => some (.idot4In d a b)
  | 12 => (VOp.ofCode (fld w 6 0)).bind fun d => (VOp.ofCode (fld w 13 7)).bind fun a => (VOp.ofCode (fld w 20 14)).bind fun b => some (.idot4Ni d a b)
  | 13 => (VOp.ofCode (fld w 6 0)).bind fun d => (VOp.ofCode (fld w 13 7)).bind fun a => (VOp.ofCode (fld w 20 14)).bind fun b => some (.idot4Nn d a b)
  | _ => none

/-- Opcode 0x07 (R142). -/
def decodeOp07 (w : Nat) : Option Instr :=
  match fld w 25 21 with
  | 0 => (VOp.ofCode (fld w 6 0)).bind fun d => (VOp.ofCode (fld w 13 7)).bind fun a => (VOp.ofCode (fld w 20 14)).bind fun b => some (.iadd d a b)
  | 1 => (VOp.ofCode (fld w 6 0)).bind fun d => (VOp.ofCode (fld w 13 7)).bind fun a => (VOp.ofCode (fld w 20 14)).bind fun b => some (.isub d a b)
  | 2 => (VOp.ofCode (fld w 6 0)).bind fun d => (VOp.ofCode (fld w 13 7)).bind fun a => (VOp.ofCode (fld w 20 14)).bind fun b => some (.imul d a b)
  | 3 => (VOp.ofCode (fld w 6 0)).bind fun d => (VOp.ofCode (fld w 13 7)).bind fun a => (VOp.ofCode (fld w 20 14)).bind fun b => some (.imulhI32 d a b)
  | 4 => (VOp.ofCode (fld w 6 0)).bind fun d => (VOp.ofCode (fld w 13 7)).bind fun a => (VOp.ofCode (fld w 20 14)).bind fun b => some (.imulhN32 d a b)
  | 5 => (VOp.ofCode (fld w 6 0)).bind fun d => (VOp.ofCode (fld w 13 7)).bind fun a => (VOp.ofCode (fld w 20 14)).bind fun b => some (.imad d a b)
  | 6 => (VOp.ofCode (fld w 6 0)).bind fun d => (VOp.ofCode (fld w 13 7)).bind fun a => (VOp.ofCode (fld w 20 14)).bind fun b => some (.iminI32 d a b)
  | 7 => (VOp.ofCode (fld w 6 0)).bind fun d => (VOp.ofCode (fld w 13 7)).bind fun a => (VOp.ofCode (fld w 20 14)).bind fun b => some (.imaxI32 d a b)
  | 8 => (VOp.ofCode (fld w 6 0)).bind fun d => (VOp.ofCode (fld w 13 7)).bind fun a => (VOp.ofCode (fld w 20 14)).bind fun b => some (.iminN32 d a b)
  | 9 => (VOp.ofCode (fld w 6 0)).bind fun d => (VOp.ofCode (fld w 13 7)).bind fun a => (VOp.ofCode (fld w 20 14)).bind fun b => some (.imaxN32 d a b)
  | 10 => if fld w 20 14 = 0 then (VOp.ofCode (fld w 6 0)).bind fun d => (VOp.ofCode (fld w 13 7)).bind fun a => some (.iabs d a) else none
  | 11 => if fld w 20 14 = 0 then (VOp.ofCode (fld w 6 0)).bind fun d => (VOp.ofCode (fld w 13 7)).bind fun a => some (.ineg d a) else none
  | _ => none

/-- Opcode 0x08 (R142). -/
def decodeOp08 (w : Nat) : Option Instr :=
  match fld w 25 21 with
  | 0 | 8 | 16 | 24 => (ValT.ofCode (fld w 25 24)).bind fun t => (VOp.ofCode (fld w 6 0)).bind fun d => (VOp.ofCode (fld w 13 7)).bind fun a => (VOp.ofCode (fld w 20 14)).bind fun b => some (.iaddV t d a b)
  | 1 | 9 | 17 | 25 => (ValT.ofCode (fld w 25 24)).bind fun t => (VOp.ofCode (fld w 6 0)).bind fun d => (VOp.ofCode (fld w 13 7)).bind fun a => (VOp.ofCode (fld w 20 14)).bind fun b => some (.isubV t d a b)
  | 2 | 10 | 18 | 26 => (ValT.ofCode (fld w 25 24)).bind fun t => (VOp.ofCode (fld w 6 0)).bind fun d => (VOp.ofCode (fld w 13 7)).bind fun a => (VOp.ofCode (fld w 20 14)).bind fun b => some (.imulV t d a b)
  | 3 | 11 | 19 | 27 => (ValT.ofCode (fld w 25 24)).bind fun t => (VOp.ofCode (fld w 6 0)).bind fun d => (VOp.ofCode (fld w 13 7)).bind fun a => (VOp.ofCode (fld w 20 14)).bind fun b => some (.iminV t d a b)
  | 4 | 12 | 20 | 28 => (ValT.ofCode (fld w 25 24)).bind fun t => (VOp.ofCode (fld w 6 0)).bind fun d => (VOp.ofCode (fld w 13 7)).bind fun a => (VOp.ofCode (fld w 20 14)).bind fun b => some (.imaxV t d a b)
  | 5 | 13 | 21 | 29 => if fld w 20 14 = 0 then (ValT.ofCode (fld w 25 24)).bind fun t => (VOp.ofCode (fld w 6 0)).bind fun d => (VOp.ofCode (fld w 13 7)).bind fun a => some (.iabsV t d a) else none
  | _ => none

/-- Opcode 0x09 (R142). -/
def decodeOp09 (w : Nat) : Option Instr :=
  match fld w 25 21 with
  | 0 => (VOp.ofCode (fld w 6 0)).bind fun d => (VOp.ofCode (fld w 13 7)).bind fun a => (VOp.ofCode (fld w 20 14)).bind fun b => some (.and d a b)
  | 1 => (VOp.ofCode (fld w 6 0)).bind fun d => (VOp.ofCode (fld w 13 7)).bind fun a => (VOp.ofCode (fld w 20 14)).bind fun b => some (.or d a b)
  | 2 => (VOp.ofCode (fld w 6 0)).bind fun d => (VOp.ofCode (fld w 13 7)).bind fun a => (VOp.ofCode (fld w 20 14)).bind fun b => some (.xor d a b)
  | 3 => if fld w 20 14 = 0 then (VOp.ofCode (fld w 6 0)).bind fun d => (VOp.ofCode (fld w 13 7)).bind fun a => some (.not d a) else none
  | 4 => (VOp.ofCode (fld w 6 0)).bind fun d => (VOp.ofCode (fld w 13 7)).bind fun a => (VOp.ofCode (fld w 20 14)).bind fun b => some (.andn d a b)
  | 5 => (VOp.ofCode (fld w 6 0)).bind fun d => (VOp.ofCode (fld w 13 7)).bind fun a => (VOp.ofCode (fld w 20 14)).bind fun b => some (.shl d a b)
  | 6 => (VOp.ofCode (fld w 6 0)).bind fun d => (VOp.ofCode (fld w 13 7)).bind fun a => (VOp.ofCode (fld w 20 14)).bind fun b => some (.shr d a b)
  | 7 => (VOp.ofCode (fld w 6 0)).bind fun d => (VOp.ofCode (fld w 13 7)).bind fun a => (VOp.ofCode (fld w 20 14)).bind fun b => some (.sar d a b)
  | 8 => (VOp.ofCode (fld w 6 0)).bind fun d => (VOp.ofCode (fld w 13 7)).bind fun a => (VOp.ofCode (fld w 20 14)).bind fun b => some (.bfeI d a b)
  | 9 => (VOp.ofCode (fld w 6 0)).bind fun d => (VOp.ofCode (fld w 13 7)).bind fun a => (VOp.ofCode (fld w 20 14)).bind fun b => some (.bfeN d a b)
  | 10 => (VOp.ofCode (fld w 6 0)).bind fun d => (VOp.ofCode (fld w 13 7)).bind fun a => (VOp.ofCode (fld w 20 14)).bind fun b => some (.bfi d a b)
  | 11 => if fld w 20 14 = 0 then (VOp.ofCode (fld w 6 0)).bind fun d => (VOp.ofCode (fld w 13 7)).bind fun a => some (.popc d a) else none
  | 12 => if fld w 20 14 = 0 then (VOp.ofCode (fld w 6 0)).bind fun d => (VOp.ofCode (fld w 13 7)).bind fun a => some (.clz d a) else none
  | 13 => if fld w 20 14 = 0 then (VOp.ofCode (fld w 6 0)).bind fun d => (VOp.ofCode (fld w 13 7)).bind fun a => some (.brev d a) else none
  | 14 => (VOp.ofCode (fld w 6 0)).bind fun d => (VOp.ofCode (fld w 13 7)).bind fun a => (VOp.ofCode (fld w 20 14)).bind fun b => some (.bperm d a b)
  | _ => none

/-- Opcode 0x0A (R142). -/
def decodeOp0A (w : Nat) : Option Instr :=
  match fld w 25 21 with
  | 0 | 1 | 2 | 3 | 4 | 5 | 6 | 7 => if fld w 6 3 = 0 then (Cond.ofCode (fld w 23 21)).bind fun c => (VOp.ofCode (fld w 13 7)).bind fun a => (VOp.ofCode (fld w 20 14)).bind fun b => some (.fcmp c (.ofNat 3 (fld w 2 0)) a b) else none
  | 8 | 9 | 10 | 11 | 12 | 13 | 14 | 15 => if fld w 6 3 = 0 then (Cond.ofCode (fld w 23 21)).bind fun c => (VOp.ofCode (fld w 13 7)).bind fun a => (VOp.ofCode (fld w 20 14)).bind fun b => some (.icmpI32 c (.ofNat 3 (fld w 2 0)) a b) else none
  | 16 | 17 | 18 | 19 | 20 | 21 | 22 | 23 => if fld w 6 3 = 0 then (Cond.ofCode (fld w 23 21)).bind fun c => (VOp.ofCode (fld w 13 7)).bind fun a => (VOp.ofCode (fld w 20 14)).bind fun b => some (.icmpN32 c (.ofNat 3 (fld w 2 0)) a b) else none
  | 24 | 25 | 26 | 27 | 28 | 29 | 30 | 31 => if fld w 6 3 = 0 ∧ fld w 20 14 = 0 then (AbsT.ofCode (fld w 23 21)).bind fun t => (VOp.ofCode (fld w 13 7)).bind fun a => some (.tabs t (.ofNat 3 (fld w 2 0)) a) else none
  | _ => none

/-- Opcode 0x0B (R142). -/
def decodeOp0B (w : Nat) : Option Instr :=
  match fld w 25 21 with
  | 0 => if fld w 20 14 = 0 then (VOp.ofCode (fld w 6 0)).bind fun d => (VOp.ofCode (fld w 13 7)).bind fun a => some (.cvtF32F16 d a) else none
  | 1 => if fld w 20 14 = 0 then (VOp.ofCode (fld w 6 0)).bind fun d => (VOp.ofCode (fld w 13 7)).bind fun a => some (.cvtF32Bf16 d a) else none
  | 2 => if fld w 20 14 = 0 then (VOp.ofCode (fld w 6 0)).bind fun d => (VOp.ofCode (fld w 13 7)).bind fun a => some (.cvtF32E4m3 d a) else none
  | 3 => if fld w 20 14 = 0 then (VOp.ofCode (fld w 6 0)).bind fun d => (VOp.ofCode (fld w 13 7)).bind fun a => some (.cvtF32E5m2 d a) else none
  | 4 => if fld w 20 14 = 0 then (VOp.ofCode (fld w 6 0)).bind fun d => (VOp.ofCode (fld w 13 7)).bind fun a => some (.cvtF16F32 d a) else none
  | 5 => if fld w 20 14 = 0 then (VOp.ofCode (fld w 6 0)).bind fun d => (VOp.ofCode (fld w 13 7)).bind fun a => some (.cvtBf16F32 d a) else none
  | 6 => if fld w 20 14 = 0 then (VOp.ofCode (fld w 6 0)).bind fun d => (VOp.ofCode (fld w 13 7)).bind fun a => some (.cvtE4m3F32 d a) else none
  | 7 => if fld w 20 14 = 0 then (VOp.ofCode (fld w 6 0)).bind fun d => (VOp.ofCode (fld w 13 7)).bind fun a => some (.cvtE5m2F32 d a) else none
  | 8 => if fld w 20 14 = 0 then (VOp.ofCode (fld w 6 0)).bind fun d => (VOp.ofCode (fld w 13 7)).bind fun a => some (.cvtF64F32 d a) else none
  | 9 => if fld w 20 14 = 0 then (VOp.ofCode (fld w 6 0)).bind fun d => (VOp.ofCode (fld w 13 7)).bind fun a => some (.cvtF32F64 d a) else none
  | 10 => if fld w 20 14 = 0 then (VOp.ofCode (fld w 6 0)).bind fun d => (VOp.ofCode (fld w 13 7)).bind fun a => some (.cvtF32I32 d a) else none
  | 11 => if fld w 20 14 = 0 then (VOp.ofCode (fld w 6 0)).bind fun d => (VOp.ofCode (fld w 13 7)).bind fun a => some (.cvtF32N32 d a) else none
  | 12 => if fld w 20 14 = 0 then (VOp.ofCode (fld w 6 0)).bind fun d => (VOp.ofCode (fld w 13 7)).bind fun a => some (.cvtI32F32 d a) else none
  | 13 => if fld w 20 14 = 0 then (VOp.ofCode (fld w 6 0)).bind fun d => (VOp.ofCode (fld w 13 7)).bind fun a => some (.cvtN32F32 d a) else none
  | 14 => if fld w 20 14 = 0 then (VOp.ofCode (fld w 6 0)).bind fun d => (VOp.ofCode (fld w 13 7)).bind fun a => some (.cvtI32I8 d a) else none
  | 15 => if fld w 20 14 = 0 then (VOp.ofCode (fld w 6 0)).bind fun d => (VOp.ofCode (fld w 13 7)).bind fun a => some (.cvtI32N8 d a) else none
  | 16 => if fld w 20 14 = 0 then (VOp.ofCode (fld w 6 0)).bind fun d => (VOp.ofCode (fld w 13 7)).bind fun a => some (.cvtI8I32 d a) else none
  | 17 => if fld w 20 14 = 0 then (VOp.ofCode (fld w 6 0)).bind fun d => (VOp.ofCode (fld w 13 7)).bind fun a => some (.cvtN8I32 d a) else none
  | 18 => (VOp.ofCode (fld w 6 0)).bind fun d => (VOp.ofCode (fld w 13 7)).bind fun a => (VOp.ofCode (fld w 20 14)).bind fun b => some (.cvtpk d a b)
  | 19 => if fld w 17 16 = 0 then (UpT.ofCode (fld w 20 18)).bind fun t => (VOp.ofCode (fld w 6 0)).bind fun d => (VOp.ofCode (fld w 13 7)).bind fun a => some (.cvtup t (.ofNat 2 (fld w 15 14)) d a) else none
  | 20 => if fld w 20 17 = 15 then (VOp.ofCode (fld w 6 0)).bind fun d => (VOp.ofCode (fld w 13 7)).bind fun a => some (.tunpk d a (.ofNat 3 (fld w 16 14))) else none
  | _ => none

/-- Opcode 0x0C (R142). -/
def decodeOp0C (w : Nat) : Option Instr :=
  match fld w 25 21 with
  | 0 => if fld w 20 14 = 120 then (VOp.ofCode (fld w 6 0)).bind fun d => (VOp.ofCode (fld w 13 7)).bind fun a => some (.frcp d a) else none
  | 1 => if fld w 20 14 = 120 then (VOp.ofCode (fld w 6 0)).bind fun d => (VOp.ofCode (fld w 13 7)).bind fun a => some (.frsq d a) else none
  | 2 => if fld w 20 14 = 120 then (VOp.ofCode (fld w 6 0)).bind fun d => (VOp.ofCode (fld w 13 7)).bind fun a => some (.fexp2 d a) else none
  | 3 => if fld w 20 14 = 120 then (VOp.ofCode (fld w 6 0)).bind fun d => (VOp.ofCode (fld w 13 7)).bind fun a => some (.flog2 d a) else none
  | 4 => if fld w 20 14 = 120 then (VOp.ofCode (fld w 6 0)).bind fun d => (VOp.ofCode (fld w 13 7)).bind fun a => some (.fsin d a) else none
  | 5 => if fld w 20 14 = 120 then (VOp.ofCode (fld w 6 0)).bind fun d => (VOp.ofCode (fld w 13 7)).bind fun a => some (.fcos d a) else none
  | 6 => if fld w 20 14 = 120 then (VOp.ofCode (fld w 6 0)).bind fun d => (VOp.ofCode (fld w 13 7)).bind fun a => some (.ftanh d a) else none
  | 7 => if fld w 20 14 = 120 then (VOp.ofCode (fld w 6 0)).bind fun d => (VOp.ofCode (fld w 13 7)).bind fun a => some (.fsigm d a) else none
  | _ => none

/-- Opcode 0x0D (R142). -/
def decodeOp0D (w : Nat) : Option Instr :=
  match fld w 25 21 with
  | 0 => (VOp.ofCode (fld w 6 0)).bind fun d => (VOp.ofCode (fld w 13 7)).bind fun a => (VOp.ofCode (fld w 20 14)).bind fun b => some (.shfl d a b)
  | 1 => (VOp.ofCode (fld w 6 0)).bind fun d => (VOp.ofCode (fld w 13 7)).bind fun a => (VOp.ofCode (fld w 20 14)).bind fun b => some (.shflup d a b)
  | 2 => (VOp.ofCode (fld w 6 0)).bind fun d => (VOp.ofCode (fld w 13 7)).bind fun a => (VOp.ofCode (fld w 20 14)).bind fun b => some (.shfldn d a b)
  | 3 => (VOp.ofCode (fld w 6 0)).bind fun d => (VOp.ofCode (fld w 13 7)).bind fun a => (VOp.ofCode (fld w 20 14)).bind fun b => some (.shflx d a b)
  | 4 => if fld w 20 14 = 0 then (VOp.ofCode (fld w 6 0)).bind fun d => (VOp.ofCode (fld w 13 7)).bind fun a => some (.bcast d a) else none
  | 5 => if fld w 20 10 = 0 then (VOp.ofCode (fld w 6 0)).bind fun d => some (.ballot d (.ofNat 3 (fld w 9 7))) else none
  | 6 => if fld w 20 10 = 0 then (VOp.ofCode (fld w 6 0)).bind fun d => some (.vany d (.ofNat 3 (fld w 9 7))) else none
  | 7 => if fld w 20 10 = 0 then (VOp.ofCode (fld w 6 0)).bind fun d => some (.vall d (.ofNat 3 (fld w 9 7))) else none
  | 8 => if fld w 20 14 = 0 then (VOp.ofCode (fld w 6 0)).bind fun d => (VOp.ofCode (fld w 13 7)).bind fun a => some (.wredAddF32 d a) else none
  | 9 => if fld w 20 14 = 0 then (VOp.ofCode (fld w 6 0)).bind fun d => (VOp.ofCode (fld w 13 7)).bind fun a => some (.wredMaxF32 d a) else none
  | 10 => if fld w 20 14 = 0 then (VOp.ofCode (fld w 6 0)).bind fun d => (VOp.ofCode (fld w 13 7)).bind fun a => some (.wredAddI32 d a) else none
  | 11 => if fld w 20 14 = 0 then (VOp.ofCode (fld w 6 0)).bind fun d => (VOp.ofCode (fld w 13 7)).bind fun a => some (.wscanAddF32 d a) else none
  | 12 => if fld w 20 14 = 0 then (VOp.ofCode (fld w 6 0)).bind fun d => (VOp.ofCode (fld w 13 7)).bind fun a => some (.wscanAddI32 d a) else none
  | 13 => if fld w 20 7 = 0 then (VOp.ofCode (fld w 6 0)).bind fun d => some (.lanes d) else none
  | _ => none

/-- Opcode 0x0E (R142). -/
def decodeOp0E (w : Nat) : Option Instr :=
  match fld w 25 21 with
  | 0 => if fld w 20 14 = 0 then (VOp.ofCode (fld w 6 0)).bind fun d => (VOp.ofCode (fld w 13 7)).bind fun a => some (.mov d a) else none
  | 1 | 2 | 3 | 4 | 5 | 6 | 7 => (VOp.ofCode (fld w 6 0)).bind fun d => (VOp.ofCode (fld w 13 7)).bind fun a => (VOp.ofCode (fld w 20 14)).bind fun b => some (.sel d (.ofNat 3 (fld w 23 21)) a b)
  | 8 | 9 | 10 | 11 | 12 | 13 | 14 | 15 => if fld w 20 17 = 0 then (AbsT.ofCode (fld w 23 21)).bind fun t => (VOp.ofCode (fld w 6 0)).bind fun d => (VOp.ofCode (fld w 13 7)).bind fun a => some (.toabs t d a (.ofNat 3 (fld w 16 14))) else none
  | 16 | 17 | 18 | 19 | 20 | 21 | 22 | 23 => (AbsT.ofCode (fld w 23 21)).bind fun t => (VOp.ofCode (fld w 6 0)).bind fun d => (VOp.ofCode (fld w 13 7)).bind fun a => (VOp.ofCode (fld w 20 14)).bind fun b => some (.defabs t d a b)
  | 24 | 25 | 26 | 27 => if fld w 6 3 = 0 ∧ fld w 13 10 = 0 ∧ fld w 20 17 = 0 then (PlogOp.ofCode (fld w 22 21)).bind fun o => some (.plog o (.ofNat 3 (fld w 2 0)) (.ofNat 3 (fld w 9 7)) (.ofNat 3 (fld w 16 14))) else none
  | 28 => if fld w 6 6 = 0 ∧ fld w 20 13 = 0 then some (.gtag (.ofNat 6 (fld w 5 0)) (.ofNat 6 (fld w 12 7))) else none
  | 29 => if fld w 20 14 = 0 then (VOp.ofCode (fld w 6 0)).bind fun d => (VOp.ofCode (fld w 13 7)).bind fun a => some (.mkg d a) else none
  | _ => none

/-- Opcode 0x0F (R142). -/
def decodeOp0F (w : Nat) : Option Instr :=
  match fld w 25 23 with
  | 0 => (VOp.ofCode (fld w 6 0)).bind fun d => (VOp.ofCode (fld w 13 7)).bind fun a => some (.iaddi d a (.ofNat 9 (fld w 22 14)))
  | 1 => (VOp.ofCode (fld w 6 0)).bind fun d => (VOp.ofCode (fld w 13 7)).bind fun a => some (.andi d a (.ofNat 9 (fld w 22 14)))
  | 2 => (VOp.ofCode (fld w 6 0)).bind fun d => (VOp.ofCode (fld w 13 7)).bind fun a => some (.ori d a (.ofNat 9 (fld w 22 14)))
  | 3 => (VOp.ofCode (fld w 6 0)).bind fun d => (VOp.ofCode (fld w 13 7)).bind fun a => some (.xori d a (.ofNat 9 (fld w 22 14)))
  | 4 => if fld w 22 19 = 0 then (VOp.ofCode (fld w 6 0)).bind fun d => (VOp.ofCode (fld w 13 7)).bind fun a => some (.shli d a (.ofNat 5 (fld w 18 14))) else none
  | 5 => if fld w 22 19 = 0 then (VOp.ofCode (fld w 6 0)).bind fun d => (VOp.ofCode (fld w 13 7)).bind fun a => some (.shri d a (.ofNat 5 (fld w 18 14))) else none
  | 6 => if fld w 22 19 = 0 then (VOp.ofCode (fld w 6 0)).bind fun d => (VOp.ofCode (fld w 13 7)).bind fun a => some (.sari d a (.ofNat 5 (fld w 18 14))) else none
  | 7 => if fld w 13 7 = 0 then (VOp.ofCode (fld w 6 0)).bind fun d => some (.movi d (.ofNat 9 (fld w 22 14))) else none
  | _ => none

/-- Opcode 0x10 (R142). -/
def decodeOp10 (w : Nat) : Option Instr :=
  match fld w 25 18 with
  | 0 => some (.sadd (.ofNat 6 (fld w 5 0)) (.ofNat 6 (fld w 11 6)) (.ofNat 6 (fld w 17 12)))
  | 1 => some (.ssub (.ofNat 6 (fld w 5 0)) (.ofNat 6 (fld w 11 6)) (.ofNat 6 (fld w 17 12)))
  | 2 => some (.smul (.ofNat 6 (fld w 5 0)) (.ofNat 6 (fld w 11 6)) (.ofNat 6 (fld w 17 12)))
  | 3 => some (.smulhI (.ofNat 6 (fld w 5 0)) (.ofNat 6 (fld w 11 6)) (.ofNat 6 (fld w 17 12)))
  | 4 => some (.smulhN (.ofNat 6 (fld w 5 0)) (.ofNat 6 (fld w 11 6)) (.ofNat 6 (fld w 17 12)))
  | 5 => some (.sminI (.ofNat 6 (fld w 5 0)) (.ofNat 6 (fld w 11 6)) (.ofNat 6 (fld w 17 12)))
  | 6 => some (.smaxI (.ofNat 6 (fld w 5 0)) (.ofNat 6 (fld w 11 6)) (.ofNat 6 (fld w 17 12)))
  | 7 => some (.sminN (.ofNat 6 (fld w 5 0)) (.ofNat 6 (fld w 11 6)) (.ofNat 6 (fld w 17 12)))
  | 8 => some (.smaxN (.ofNat 6 (fld w 5 0)) (.ofNat 6 (fld w 11 6)) (.ofNat 6 (fld w 17 12)))
  | 9 => some (.sand (.ofNat 6 (fld w 5 0)) (.ofNat 6 (fld w 11 6)) (.ofNat 6 (fld w 17 12)))
  | 10 => some (.sor (.ofNat 6 (fld w 5 0)) (.ofNat 6 (fld w 11 6)) (.ofNat 6 (fld w 17 12)))
  | 11 => some (.sxor (.ofNat 6 (fld w 5 0)) (.ofNat 6 (fld w 11 6)) (.ofNat 6 (fld w 17 12)))
  | 12 => some (.sshl (.ofNat 6 (fld w 5 0)) (.ofNat 6 (fld w 11 6)) (.ofNat 6 (fld w 17 12)))
  | 13 => some (.sshr (.ofNat 6 (fld w 5 0)) (.ofNat 6 (fld w 11 6)) (.ofNat 6 (fld w 17 12)))
  | 14 => some (.ssar (.ofNat 6 (fld w 5 0)) (.ofNat 6 (fld w 11 6)) (.ofNat 6 (fld w 17 12)))
  | 15 => some (.sbfeI (.ofNat 6 (fld w 5 0)) (.ofNat 6 (fld w 11 6)) (.ofNat 6 (fld w 17 12)))
  | 16 => some (.sbfeN (.ofNat 6 (fld w 5 0)) (.ofNat 6 (fld w 11 6)) (.ofNat 6 (fld w 17 12)))
  | 17 => some (.sbfi (.ofNat 6 (fld w 5 0)) (.ofNat 6 (fld w 11 6)) (.ofNat 6 (fld w 17 12)))
  | 18 => if fld w 17 12 = 0 then some (.spopc (.ofNat 6 (fld w 5 0)) (.ofNat 6 (fld w 11 6))) else none
  | 19 => if fld w 17 12 = 0 then some (.sclz (.ofNat 6 (fld w 5 0)) (.ofNat 6 (fld w 11 6))) else none
  | 20 => some (.sadd64 (.ofNat 6 (fld w 5 0)) (.ofNat 6 (fld w 11 6)) (.ofNat 6 (fld w 17 12)))
  | 21 => some (.ssub64 (.ofNat 6 (fld w 5 0)) (.ofNat 6 (fld w 11 6)) (.ofNat 6 (fld w 17 12)))
  | 22 => some (.sshl64 (.ofNat 6 (fld w 5 0)) (.ofNat 6 (fld w 11 6)) (.ofNat 6 (fld w 17 12)))
  | 23 => some (.scmpEq (.ofNat 6 (fld w 5 0)) (.ofNat 6 (fld w 11 6)) (.ofNat 6 (fld w 17 12)))
  | 24 => some (.scmpLtI (.ofNat 6 (fld w 5 0)) (.ofNat 6 (fld w 11 6)) (.ofNat 6 (fld w 17 12)))
  | 25 => some (.scmpLtN (.ofNat 6 (fld w 5 0)) (.ofNat 6 (fld w 11 6)) (.ofNat 6 (fld w 17 12)))
  | _ => none

/-- Opcode 0x11 (R142). -/
def decodeOp11 (w : Nat) : Option Instr :=
  match fld w 25 22 with
  | 0 => some (.saddi (.ofNat 6 (fld w 5 0)) (.ofNat 6 (fld w 11 6)) (.ofNat 10 (fld w 21 12)))
  | 1 => some (.sandi (.ofNat 6 (fld w 5 0)) (.ofNat 6 (fld w 11 6)) (.ofNat 10 (fld w 21 12)))
  | 2 => some (.sori (.ofNat 6 (fld w 5 0)) (.ofNat 6 (fld w 11 6)) (.ofNat 10 (fld w 21 12)))
  | 3 => some (.sxori (.ofNat 6 (fld w 5 0)) (.ofNat 6 (fld w 11 6)) (.ofNat 10 (fld w 21 12)))
  | 4 => if fld w 21 17 = 0 then some (.sshli (.ofNat 6 (fld w 5 0)) (.ofNat 6 (fld w 11 6)) (.ofNat 5 (fld w 16 12))) else none
  | 5 => if fld w 21 17 = 0 then some (.sshri (.ofNat 6 (fld w 5 0)) (.ofNat 6 (fld w 11 6)) (.ofNat 5 (fld w 16 12))) else none
  | 6 => if fld w 21 17 = 0 then some (.ssari (.ofNat 6 (fld w 5 0)) (.ofNat 6 (fld w 11 6)) (.ofNat 5 (fld w 16 12))) else none
  | 7 => some (.scmpiLt (.ofNat 6 (fld w 5 0)) (.ofNat 6 (fld w 11 6)) (.ofNat 10 (fld w 21 12)))
  | 8 => if fld w 11 6 = 0 then some (.smovi (.ofNat 6 (fld w 5 0)) (.ofNat 10 (fld w 21 12))) else none
  | _ => none

/-- Opcode 0x12 (R142). -/
def decodeOp12 (w x : Nat) : Option Instr :=
  match fld w 25 18 with
  | 0 => some (.srd (.ofNat 6 (fld w 5 0)) (.ofNat 12 (fld w 17 6)))
  | 1 => some (.swr (.ofNat 12 (fld w 17 6)) (.ofNat 6 (fld w 5 0)))
  | 2 => some (.vtos (.ofNat 6 (fld w 5 0)) (.ofNat 6 (fld w 11 6)) (.ofNat 6 (fld w 17 12)))
  | 3 => if fld w 17 12 = 0 then some (.stov (.ofNat 6 (fld w 5 0)) (.ofNat 6 (fld w 11 6))) else none
  | 4 => if fld w 17 6 = 0 then some (.smovw (.ofNat 6 (fld w 5 0)) (.ofNat 32 (fld x 31 0))) else none
  | 5 => if fld w 5 4 = 0 then some (.bdset (.ofNat 4 (fld w 3 0)) (.ofNat 6 (fld w 11 6)) (.ofNat 6 (fld w 17 12))) else none
  | _ => none

/-- Opcode 0x13 (R142). -/
def decodeOp13 (w : Nat) : Option Instr :=
  some (.slui (.ofNat 6 (fld w 5 0)) (.ofNat 20 (fld w 25 6)))

/-- Opcode 0x14 (R142). -/
def decodeOp14 (w x : Nat) : Option Instr :=
  match fld w 25 22 with
  | 0 => if fld w 21 12 = 0 then some (.bra (.ofNat 12 (fld w 11 0))) else none
  | 1 => if fld w 21 19 = 0 then some (.bpt (.ofNat 3 (fld w 18 16)) (.ofNat 4 (fld w 15 12)) (.ofNat 12 (fld w 11 0))) else none
  | 2 => if fld w 21 19 = 0 then some (.bpf (.ofNat 3 (fld w 18 16)) (.ofNat 4 (fld w 15 12)) (.ofNat 12 (fld w 11 0))) else none
  | 3 => if fld w 15 12 = 0 ∧ fld w 21 19 = 0 then some (.bany (.ofNat 3 (fld w 18 16)) (.ofNat 12 (fld w 11 0))) else none
  | 4 => if fld w 15 12 = 0 ∧ fld w 21 19 = 0 then some (.ball (.ofNat 3 (fld w 18 16)) (.ofNat 12 (fld w 11 0))) else none
  | 5 => if fld w 15 12 = 0 then some (.bnz (.ofNat 6 (fld w 21 16)) (.ofNat 12 (fld w 11 0))) else none
  | 6 => if fld w 15 12 = 0 then some (.bz (.ofNat 6 (fld w 21 16)) (.ofNat 12 (fld w 11 0))) else none
  | 7 => if fld w 21 0 = 0 then some (.jmp (.ofNat 32 (fld x 31 0))) else none
  | _ => none

/-- Opcode 0x15 (R142). -/
def decodeOp15 (w : Nat) : Option Instr :=
  match fld w 25 22 with
  | 0 => if fld w 3 0 = 0 then some (.loop (.ofNat 2 (fld w 5 4)) (.ofNat 6 (fld w 11 6)) (.ofNat 10 (fld w 21 12))) else none
  | 1 => if fld w 1 0 = 0 then some (.loopi (.ofNat 2 (fld w 3 2)) (.ofNat 8 (fld w 11 4)) (.ofNat 10 (fld w 21 12))) else none
  | 2 => if fld w 3 0 = 0 ∧ fld w 21 6 = 0 then some (.lbrk (.ofNat 2 (fld w 5 4))) else none
  | _ => none

/-- Opcode 0x16 (R142). -/
def decodeOp16 (w x : Nat) : Option Instr :=
  match fld w 25 22 with
  | 0 => if fld w 21 0 = 0 then some (.nop) else none
  | 1 => if fld w 21 4 = 0 then some (.rcv (.ofNat 4 (fld w 3 0))) else none
  | 2 => if fld w 21 0 = 0 then some (.call (.ofNat 32 (fld x 31 0))) else none
  | 3 => if fld w 5 0 = 0 ∧ fld w 21 11 = 0 then some (.callr (.ofNat 5 (fld w 10 6))) else none
  | 4 => if fld w 21 0 = 0 then some (.ret) else none
  | 5 => if fld w 5 0 = 0 ∧ fld w 21 11 = 0 then some (.jr (.ofNat 5 (fld w 10 6))) else none
  | 6 => if fld w 11 7 = 0 ∧ fld w 21 16 = 0 then some (.yield (.ofNat 4 (fld w 15 12)) (.ofNat 7 (fld w 6 0))) else none
  | 7 => if fld w 21 12 = 0 then some (.yieldc (.ofNat 3 (fld w 2 0)) (.ofNat 3 (fld w 5 3)) (.ofNat 3 (fld w 8 6)) (.ofNat 3 (fld w 11 9)) (.ofNat 4 (fld x 31 28)) (.ofNat 7 (fld x 27 21)) (.ofNat 21 (fld x 20 0))) else none
  | 8 => if fld w 21 0 = 0 then some (.exit) else none
  | 9 => if fld w 21 16 = 0 then some (.trap (.ofNat 16 (fld w 15 0))) else none
  | 10 => if fld w 21 12 = 0 then some (.wait (.ofNat 3 (fld w 2 0)) (.ofNat 3 (fld w 5 3)) (.ofNat 3 (fld w 8 6)) (.ofNat 3 (fld w 11 9))) else none
  | _ => none

/-- Opcode 0x17 (R142). -/
def decodeOp17 (w : Nat) : Option Instr :=
  match fld w 25 22 with
  | 0 => if fld w 19 18 = 0 ∧ fld w 21 21 = 0 then some (.barinit ((fld w 20 20) == 1) (.ofNat 6 (fld w 11 6)) (.ofNat 6 (fld w 17 12)) (.ofNat 6 (fld w 5 0))) else none
  | 1 => if fld w 5 0 = 0 ∧ fld w 19 18 = 0 ∧ fld w 21 21 = 0 then some (.barexp ((fld w 20 20) == 1) (.ofNat 6 (fld w 11 6)) (.ofNat 6 (fld w 17 12))) else none
  | 2 => if fld w 19 12 = 0 ∧ fld w 21 21 = 0 then some (.bararr ((fld w 20 20) == 1) (.ofNat 6 (fld w 5 0)) (.ofNat 6 (fld w 11 6))) else none
  | 3 => if fld w 5 0 = 0 ∧ fld w 19 18 = 0 ∧ fld w 21 21 = 0 then some (.barwait ((fld w 20 20) == 1) (.ofNat 6 (fld w 11 6)) (.ofNat 6 (fld w 17 12))) else none
  | 4 => if fld w 19 18 = 0 ∧ fld w 21 21 = 0 then some (.bartry ((fld w 20 20) == 1) (.ofNat 6 (fld w 5 0)) (.ofNat 6 (fld w 11 6)) (.ofNat 6 (fld w 17 12))) else none
  | 5 => if fld w 19 18 = 0 ∧ fld w 21 21 = 0 then some (.ringinit ((fld w 20 20) == 1) (.ofNat 6 (fld w 11 6)) (.ofNat 6 (fld w 17 12)) (.ofNat 6 (fld w 5 0))) else none
  | 6 => if fld w 19 18 = 0 ∧ fld w 21 21 = 0 then some (.awaitf ((fld w 20 20) == 1) (.ofNat 6 (fld w 5 0)) (.ofNat 6 (fld w 11 6)) (.ofNat 6 (fld w 17 12))) else none
  | 7 => if fld w 5 0 = 0 ∧ fld w 19 12 = 0 ∧ fld w 21 21 = 0 then some (.rels ((fld w 20 20) == 1) (.ofNat 6 (fld w 11 6))) else none
  | 8 => if fld w 21 0 = 0 then some (.wgbar) else none
  | _ => none

/-- Opcode 0x18 (R142). -/
def decodeOp18 (w x : Nat) : Option Instr :=
  (LdSz.ofCode (fld w 25 23)).bind fun z => (LdOrd.ofCode (fld w 22 21)).bind fun o => (Pol.ofCode (fld w 20 19)).bind fun p => (VOp.ofCode (fld w 6 0)).bind fun d => (VOp.ofCode (fld w 13 7)).bind fun v => some (.ldg z o p d (.ofNat 4 (fld w 17 14)) v (offOf w x))

/-- Opcode 0x19 (R142). -/
def decodeOp19 (w x : Nat) : Option Instr :=
  (StSz.ofCode (fld w 25 23)).bind fun z => (StOrd.ofCode (fld w 22 21)).bind fun o => (Pol.ofCode (fld w 20 19)).bind fun p => (VOp.ofCode (fld w 13 7)).bind fun v => (VOp.ofCode (fld w 6 0)).bind fun d => some (.stg z o p (.ofNat 4 (fld w 17 14)) v (offOf w x) d)

/-- Opcode 0x1A (R142). -/
def decodeOp1A (w x : Nat) : Option Instr :=
  match fld w 22 21 with
  | 0 => if fld w 20 20 = 0 then (LdSz.ofCode (fld w 25 23)).bind fun z => (VOp.ofCode (fld w 6 0)).bind fun d => (VOp.ofCode (fld w 13 7)).bind fun v => some (.ldsp z ((fld w 19 19) == 1) d (.ofNat 4 (fld w 17 14)) v (offOf w x)) else none
  | 1 => if fld w 20 20 = 0 then (LdSz.ofCode (fld w 25 23)).bind fun z => (VOp.ofCode (fld w 6 0)).bind fun d => (VOp.ofCode (fld w 13 7)).bind fun v => some (.ldcl z ((fld w 19 19) == 1) d (.ofNat 4 (fld w 17 14)) v (offOf w x)) else none
  | 2 => if fld w 20 20 = 0 then (LdSz.ofCode (fld w 25 23)).bind fun z => (VOp.ofCode (fld w 6 0)).bind fun d => (VOp.ofCode (fld w 13 7)).bind fun v => some (.ldst z ((fld w 19 19) == 1) d (.ofNat 4 (fld w 17 14)) v (offOf w x)) else none
  | 3 => if fld w 20 20 = 0 then (LdSz.ofCode (fld w 25 23)).bind fun z => (VOp.ofCode (fld w 6 0)).bind fun d => (VOp.ofCode (fld w 13 7)).bind fun v => some (.ldlp z ((fld w 19 19) == 1) d (.ofNat 4 (fld w 17 14)) v (offOf w x)) else none
  | _ => none

/-- Opcode 0x1B (R142). -/
def decodeOp1B (w x : Nat) : Option Instr :=
  match fld w 22 21 with
  | 0 => if fld w 20 20 = 0 then (StSz.ofCode (fld w 25 23)).bind fun z => (VOp.ofCode (fld w 13 7)).bind fun v => (VOp.ofCode (fld w 6 0)).bind fun d => some (.stsp z ((fld w 19 19) == 1) (.ofNat 4 (fld w 17 14)) v (offOf w x) d) else none
  | 1 => if fld w 20 20 = 0 then (StSz.ofCode (fld w 25 23)).bind fun z => (VOp.ofCode (fld w 13 7)).bind fun v => (VOp.ofCode (fld w 6 0)).bind fun d => some (.stcl z ((fld w 19 19) == 1) (.ofNat 4 (fld w 17 14)) v (offOf w x) d) else none
  | 2 => if fld w 20 20 = 0 then (StSz.ofCode (fld w 25 23)).bind fun z => (VOp.ofCode (fld w 13 7)).bind fun v => (VOp.ofCode (fld w 6 0)).bind fun d => some (.stst z ((fld w 19 19) == 1) (.ofNat 4 (fld w 17 14)) v (offOf w x) d) else none
  | 3 => if fld w 20 20 = 0 then (StSz.ofCode (fld w 25 23)).bind fun z => (VOp.ofCode (fld w 13 7)).bind fun v => (VOp.ofCode (fld w 6 0)).bind fun d => some (.stlp z ((fld w 19 19) == 1) (.ofNat 4 (fld w 17 14)) v (offOf w x) d) else none
  | _ => none

/-- Opcode 0x1C (R142). -/
def decodeOp1C (w x : Nat) : Option Instr :=
  match fld w 22 22 with
  | 0 => (LdSz.ofCode (fld w 25 23)).bind fun z => (LdOrd.ofCode (fld w 21 20)).bind fun o => (VOp.ofCode (fld w 6 0)).bind fun d => (VOp.ofCode (fld w 13 7)).bind fun v => some (.ldb z o ((fld w 19 19) == 1) d (.ofNat 4 (fld w 17 14)) v (offOf w x))
  | 1 => (StSz.ofCode (fld w 25 23)).bind fun z => (StOrd.ofCode (fld w 21 20)).bind fun o => (VOp.ofCode (fld w 13 7)).bind fun v => (VOp.ofCode (fld w 6 0)).bind fun d => some (.stb z o ((fld w 19 19) == 1) (.ofNat 4 (fld w 17 14)) v (offOf w x) d)
  | _ => none

/-- Opcode 0x1D (R142). -/
def decodeOp1D (w : Nat) : Option Instr :=
  match fld w 25 22 with
  | 0 => (AOrd.ofCode (fld w 21 20)).bind fun o => (ATy.ofCode (fld w 19 18)).bind fun t => (VOp.ofCode (fld w 6 0)).bind fun d => (VOp.ofCode (fld w 13 7)).bind fun v => some (.aadd o t d (.ofNat 4 (fld w 17 14)) v)
  | 1 => (AOrd.ofCode (fld w 21 20)).bind fun o => (ATy.ofCode (fld w 19 18)).bind fun t => (VOp.ofCode (fld w 6 0)).bind fun d => (VOp.ofCode (fld w 13 7)).bind fun v => some (.amin o t d (.ofNat 4 (fld w 17 14)) v)
  | 2 => (AOrd.ofCode (fld w 21 20)).bind fun o => (ATy.ofCode (fld w 19 18)).bind fun t => (VOp.ofCode (fld w 6 0)).bind fun d => (VOp.ofCode (fld w 13 7)).bind fun v => some (.amax o t d (.ofNat 4 (fld w 17 14)) v)
  | 3 => (AOrd.ofCode (fld w 21 20)).bind fun o => (ATy.ofCode (fld w 19 18)).bind fun t => (VOp.ofCode (fld w 6 0)).bind fun d => (VOp.ofCode (fld w 13 7)).bind fun v => some (.aand o t d (.ofNat 4 (fld w 17 14)) v)
  | 4 => (AOrd.ofCode (fld w 21 20)).bind fun o => (ATy.ofCode (fld w 19 18)).bind fun t => (VOp.ofCode (fld w 6 0)).bind fun d => (VOp.ofCode (fld w 13 7)).bind fun v => some (.aor o t d (.ofNat 4 (fld w 17 14)) v)
  | 5 => (AOrd.ofCode (fld w 21 20)).bind fun o => (ATy.ofCode (fld w 19 18)).bind fun t => (VOp.ofCode (fld w 6 0)).bind fun d => (VOp.ofCode (fld w 13 7)).bind fun v => some (.axor o t d (.ofNat 4 (fld w 17 14)) v)
  | 6 => (AOrd.ofCode (fld w 21 20)).bind fun o => (ATy.ofCode (fld w 19 18)).bind fun t => (VOp.ofCode (fld w 6 0)).bind fun d => (VOp.ofCode (fld w 13 7)).bind fun v => some (.axch o t d (.ofNat 4 (fld w 17 14)) v)
  | 7 => (AOrd.ofCode (fld w 21 20)).bind fun o => (ATy.ofCode (fld w 19 18)).bind fun t => (VOp.ofCode (fld w 6 0)).bind fun d => (VOp.ofCode (fld w 13 7)).bind fun v => some (.acas o t d (.ofNat 4 (fld w 17 14)) v)
  | 8 => if fld w 19 18 = 3 then (AOrd.ofCode (fld w 21 20)).bind fun o => (VOp.ofCode (fld w 6 0)).bind fun d => (VOp.ofCode (fld w 13 7)).bind fun v => some (.aacc o d (.ofNat 4 (fld w 17 14)) v) else none
  | 9 => if fld w 19 19 = 0 then (AOrd.ofCode (fld w 21 20)).bind fun o => (VOp.ofCode (fld w 6 0)).bind fun d => (VOp.ofCode (fld w 13 7)).bind fun v => some (.ainc o ((fld w 18 18) == 1) d (.ofNat 4 (fld w 17 14)) v) else none
  | _ => none

/-- Opcode 0x1E (R142). -/
def decodeOp1E (w : Nat) : Option Instr :=
  match fld w 25 22 with
  | 0 => if fld w 15 14 = 0 then (AOrd.ofCode (fld w 21 20)).bind fun o => (Sp.ofCode (fld w 19 18)).bind fun s => (ATy.ofCode (fld w 17 16)).bind fun t => (VOp.ofCode (fld w 6 0)).bind fun d => (VOp.ofCode (fld w 13 7)).bind fun v => some (.aaddSpace o s t d v) else none
  | 1 => if fld w 15 14 = 0 then (AOrd.ofCode (fld w 21 20)).bind fun o => (Sp.ofCode (fld w 19 18)).bind fun s => (ATy.ofCode (fld w 17 16)).bind fun t => (VOp.ofCode (fld w 6 0)).bind fun d => (VOp.ofCode (fld w 13 7)).bind fun v => some (.aminSpace o s t d v) else none
  | 2 => if fld w 15 14 = 0 then (AOrd.ofCode (fld w 21 20)).bind fun o => (Sp.ofCode (fld w 19 18)).bind fun s => (ATy.ofCode (fld w 17 16)).bind fun t => (VOp.ofCode (fld w 6 0)).bind fun d => (VOp.ofCode (fld w 13 7)).bind fun v => some (.amaxSpace o s t d v) else none
  | 3 => if fld w 15 14 = 0 then (AOrd.ofCode (fld w 21 20)).bind fun o => (Sp.ofCode (fld w 19 18)).bind fun s => (ATy.ofCode (fld w 17 16)).bind fun t => (VOp.ofCode (fld w 6 0)).bind fun d => (VOp.ofCode (fld w 13 7)).bind fun v => some (.aandSpace o s t d v) else none
  | 4 => if fld w 15 14 = 0 then (AOrd.ofCode (fld w 21 20)).bind fun o => (Sp.ofCode (fld w 19 18)).bind fun s => (ATy.ofCode (fld w 17 16)).bind fun t => (VOp.ofCode (fld w 6 0)).bind fun d => (VOp.ofCode (fld w 13 7)).bind fun v => some (.aorSpace o s t d v) else none
  | 5 => if fld w 15 14 = 0 then (AOrd.ofCode (fld w 21 20)).bind fun o => (Sp.ofCode (fld w 19 18)).bind fun s => (ATy.ofCode (fld w 17 16)).bind fun t => (VOp.ofCode (fld w 6 0)).bind fun d => (VOp.ofCode (fld w 13 7)).bind fun v => some (.axorSpace o s t d v) else none
  | 6 => if fld w 15 14 = 0 then (AOrd.ofCode (fld w 21 20)).bind fun o => (Sp.ofCode (fld w 19 18)).bind fun s => (ATy.ofCode (fld w 17 16)).bind fun t => (VOp.ofCode (fld w 6 0)).bind fun d => (VOp.ofCode (fld w 13 7)).bind fun v => some (.axchSpace o s t d v) else none
  | 7 => if fld w 15 14 = 0 then (AOrd.ofCode (fld w 21 20)).bind fun o => (Sp.ofCode (fld w 19 18)).bind fun s => (ATy.ofCode (fld w 17 16)).bind fun t => (VOp.ofCode (fld w 6 0)).bind fun d => (VOp.ofCode (fld w 13 7)).bind fun v => some (.acasSpace o s t d v) else none
  | 8 => if fld w 17 14 = 12 then (AOrd.ofCode (fld w 21 20)).bind fun o => (Sp.ofCode (fld w 19 18)).bind fun s => (VOp.ofCode (fld w 6 0)).bind fun d => (VOp.ofCode (fld w 13 7)).bind fun v => some (.aaccSpace o s d v) else none
  | 9 => if fld w 15 14 = 0 ∧ fld w 17 17 = 0 then (AOrd.ofCode (fld w 21 20)).bind fun o => (Sp.ofCode (fld w 19 18)).bind fun s => (VOp.ofCode (fld w 6 0)).bind fun d => (VOp.ofCode (fld w 13 7)).bind fun v => some (.aincSpace o s ((fld w 16 16) == 1) d v) else none
  | _ => none

/-- Opcode 0x1F (R142). -/
def decodeOp1F (w : Nat) : Option Instr :=
  match fld w 25 22 with
  | 0 => if fld w 11 0 = 0 ∧ fld w 15 15 = 0 ∧ fld w 21 18 = 0 then (FKind.ofCode (fld w 17 16)).bind fun k => (Scope.ofCode (fld w 14 12)).bind fun s => some (.fence k s) else none
  | 1 => if fld w 5 1 = 0 then some (.cprf (.ofNat 10 (fld w 21 12)) (.ofNat 6 (fld w 11 6)) ((fld w 0 0) == 1)) else none
  | 2 => if fld w 21 12 = 0 then some (.cflush (.ofNat 6 (fld w 11 6)) (.ofNat 6 (fld w 5 0))) else none
  | 3 => some (.sld (.ofNat 6 (fld w 5 0)) (.ofNat 6 (fld w 11 6)) (.ofNat 10 (fld w 21 12)))
  | 4 => some (.sst (.ofNat 6 (fld w 11 6)) (.ofNat 10 (fld w 21 12)) (.ofNat 6 (fld w 5 0)))
  | _ => none

/-- Opcode 0x20 (R142). -/
def decodeOp20 (w x : Nat) : Option Instr :=
  match fld w 25 22 with
  | 0 => if fld x 19 16 = 0 ∧ fld x 3 3 = 0 then some (.cpyG2s (.ofNat 6 (fld w 21 16)) (.ofNat 6 (fld w 15 10)) (.ofNat 6 (fld w 9 4)) (.ofNat 4 (fld w 3 0)) (.ofNat 6 (fld x 31 26)) (.ofNat 6 (fld x 25 20)) (.ofNat 6 (fld x 15 10)) (.ofNat 6 (fld x 9 4)) ((fld x 0 0) == 1) ((fld x 1 1) == 1) ((fld x 2 2) == 1)) else none
  | 1 => if fld x 19 16 = 0 ∧ fld x 3 3 = 0 ∧ fld x 0 0 = 0 then some (.cpyG2c (.ofNat 6 (fld w 21 16)) (.ofNat 6 (fld w 15 10)) (.ofNat 6 (fld w 9 4)) (.ofNat 4 (fld w 3 0)) (.ofNat 6 (fld x 31 26)) (.ofNat 6 (fld x 25 20)) (.ofNat 6 (fld x 15 10)) (.ofNat 6 (fld x 9 4)) ((fld x 1 1) == 1) ((fld x 2 2) == 1)) else none
  | 2 => if fld x 19 16 = 0 ∧ fld x 3 3 = 0 ∧ fld x 0 0 = 0 ∧ fld x 1 1 = 0 then some (.cpyG2t (.ofNat 6 (fld w 21 16)) (.ofNat 6 (fld w 15 10)) (.ofNat 6 (fld w 9 4)) (.ofNat 4 (fld w 3 0)) (.ofNat 6 (fld x 31 26)) (.ofNat 6 (fld x 25 20)) (.ofNat 6 (fld x 15 10)) (.ofNat 6 (fld x 9 4)) ((fld x 2 2) == 1)) else none
  | 3 => if fld x 19 16 = 0 ∧ fld x 3 3 = 0 ∧ fld x 0 0 = 0 ∧ fld x 1 1 = 0 ∧ fld x 2 2 = 0 then some (.cpyS2g (.ofNat 6 (fld w 21 16)) (.ofNat 6 (fld w 15 10)) (.ofNat 6 (fld w 9 4)) (.ofNat 4 (fld w 3 0)) (.ofNat 6 (fld x 31 26)) (.ofNat 6 (fld x 25 20)) (.ofNat 6 (fld x 15 10)) (.ofNat 6 (fld x 9 4))) else none
  | 4 => if fld x 19 16 = 0 ∧ fld x 3 3 = 0 ∧ fld x 2 2 = 0 then some (.cpyC2s (.ofNat 6 (fld w 21 16)) (.ofNat 6 (fld w 15 10)) (.ofNat 6 (fld w 9 4)) (.ofNat 4 (fld w 3 0)) (.ofNat 6 (fld x 31 26)) (.ofNat 6 (fld x 25 20)) (.ofNat 6 (fld x 15 10)) (.ofNat 6 (fld x 9 4)) ((fld x 0 0) == 1) ((fld x 1 1) == 1)) else none
  | 5 => if fld x 19 16 = 0 ∧ fld x 3 3 = 0 ∧ fld x 0 0 = 0 ∧ fld x 2 2 = 0 then some (.cpyS2c (.ofNat 6 (fld w 21 16)) (.ofNat 6 (fld w 15 10)) (.ofNat 6 (fld w 9 4)) (.ofNat 4 (fld w 3 0)) (.ofNat 6 (fld x 31 26)) (.ofNat 6 (fld x 25 20)) (.ofNat 6 (fld x 15 10)) (.ofNat 6 (fld x 9 4)) ((fld x 1 1) == 1)) else none
  | 6 => if fld x 19 16 = 0 ∧ fld x 3 3 = 0 ∧ fld x 0 0 = 0 ∧ fld x 1 1 = 0 then some (.cpym (.ofNat 6 (fld w 21 16)) (.ofNat 6 (fld w 15 10)) (.ofNat 6 (fld w 9 4)) (.ofNat 4 (fld w 3 0)) (.ofNat 6 (fld x 31 26)) (.ofNat 6 (fld x 25 20)) (.ofNat 6 (fld x 15 10)) (.ofNat 6 (fld x 9 4)) ((fld x 2 2) == 1)) else none
  | 7 => if fld x 19 16 = 0 ∧ fld x 3 3 = 0 ∧ fld x 0 0 = 0 ∧ fld x 2 2 = 0 then some (.cpyx (.ofNat 6 (fld w 21 16)) (.ofNat 6 (fld w 15 10)) (.ofNat 6 (fld w 9 4)) (.ofNat 4 (fld w 3 0)) (.ofNat 6 (fld x 31 26)) (.ofNat 6 (fld x 25 20)) (.ofNat 6 (fld x 15 10)) (.ofNat 6 (fld x 9 4)) ((fld x 1 1) == 1)) else none
  | 8 => if fld x 19 16 = 0 ∧ fld x 3 3 = 0 ∧ fld x 0 0 = 0 then some (.cpyg (.ofNat 6 (fld w 21 16)) (.ofNat 6 (fld w 15 10)) (.ofNat 6 (fld w 9 4)) (.ofNat 4 (fld w 3 0)) (.ofNat 6 (fld x 31 26)) (.ofNat 6 (fld x 25 20)) (.ofNat 6 (fld x 15 10)) (.ofNat 6 (fld x 9 4)) ((fld x 1 1) == 1) ((fld x 2 2) == 1)) else none
  | 9 => if fld x 19 16 = 0 ∧ fld x 3 3 = 0 ∧ fld x 0 0 = 0 ∧ fld x 1 1 = 0 ∧ fld x 2 2 = 0 then some (.cred (.ofNat 6 (fld w 21 16)) (.ofNat 6 (fld w 15 10)) (.ofNat 6 (fld w 9 4)) (.ofNat 4 (fld w 3 0)) (.ofNat 6 (fld x 31 26)) (.ofNat 6 (fld x 25 20)) (.ofNat 6 (fld x 15 10)) (.ofNat 6 (fld x 9 4))) else none
  | 10 => if fld w 15 1 = 0 ∧ fld x 25 0 = 0 then some (.cpycan (.ofNat 6 (fld w 21 16)) ((fld w 0 0) == 1) (.ofNat 6 (fld x 31 26))) else none
  | _ => none

/-- Opcode 0x21 (R142). -/
def decodeOp21 (w x : Nat) : Option Instr :=
  match fld w 25 22 with
  | 0 => if fld w 16 0 = 0 ∧ fld w 21 21 = 0 then some (.mres (.ofNat 4 (fld w 20 17)) (.ofNat 32 (fld x 31 0))) else none
  | 1 => if fld w 16 0 = 0 ∧ fld w 21 21 = 0 then some (.mfree (.ofNat 4 (fld w 20 17))) else none
  | 2 => if fld w 6 2 = 0 ∧ fld w 21 21 = 0 then (MldSrc.ofCode (fld w 1 0)).bind fun q => some (.mld q (.ofNat 4 (fld w 20 17)) (.ofNat 5 (fld w 16 12)) (.ofNat 5 (fld w 11 7))) else none
  | 3 => if fld w 6 0 = 0 ∧ fld w 16 16 = 0 ∧ fld w 21 21 = 0 then some (.mscl (.ofNat 4 (fld w 20 17)) (.ofNat 4 (fld w 15 12)) (.ofNat 5 (fld w 11 7))) else none
  | _ => none

/-- Opcode 0x22 (R142). -/
def decodeOp22 (w x : Nat) : Option Instr :=
  match fld w 25 22 with
  | 0 => if fld w 6 4 = 0 ∧ fld w 21 12 = 0 then some (.mgang (.ofNat 5 (fld w 11 7)) (.ofNat 4 (fld w 3 0))) else none
  | 1 => if fld w 21 4 = 0 then some (.mshape (.ofNat 4 (fld w 3 0))) else none
  | 2 => if fld w 6 1 = 0 ∧ fld w 16 16 = 0 ∧ fld w 21 21 = 0 then some (.mls (.ofNat 4 (fld w 20 17)) ((fld w 0 0) == 1) (.ofNat 4 (fld w 15 12)) (.ofNat 5 (fld w 11 7))) else none
  | 3 => if fld w 21 0 = 0 then some (.mswap) else none
  | 4 => if fld w 6 6 = 0 ∧ fld w 16 16 = 0 ∧ fld w 21 20 = 0 then some (.mma (.ofNat 3 (fld w 19 17)) (.ofNat 4 (fld w 15 12)) (.ofNat 5 (fld w 11 7)) (.ofNat 2 (fld w 5 4)) ((fld w 3 3) == 1) ((fld w 2 2) == 1) ((fld w 1 1) == 1) ((fld w 0 0) == 1)) else none
  | 5 => if fld w 6 6 = 0 ∧ fld w 16 16 = 0 ∧ fld w 21 20 = 0 then some (.mdrain (.ofNat 3 (fld w 19 17)) (.ofNat 4 (fld w 15 12)) (.ofNat 5 (fld w 11 7)) (.ofNat 6 (fld w 5 0)) (.ofNat 32 (fld x 31 0))) else none
  | 6 => if fld w 11 0 = 0 ∧ fld w 21 16 = 0 then some (.mtab (.ofNat 4 (fld w 15 12))) else none
  | 7 => if fld w 16 0 = 0 ∧ fld w 21 20 = 0 then some (.mzero (.ofNat 3 (fld w 19 17))) else none
  | 8 => if fld w 11 0 = 0 ∧ fld w 16 16 = 0 ∧ fld w 21 20 = 0 then some (.mfill (.ofNat 3 (fld w 19 17)) (.ofNat 4 (fld w 15 12))) else none
  | _ => none

/-- Opcode 0x23 (R142). -/
def decodeOp23 (w : Nat) : Option Instr :=
  match fld w 25 22 with
  | 0 => if fld w 21 18 = 0 then some (.launch (.ofNat 6 (fld w 5 0)) (.ofNat 6 (fld w 11 6)) (.ofNat 6 (fld w 17 12))) else none
  | 1 => if fld w 21 0 = 0 then some (.commit) else none
  | 2 => if fld w 21 12 = 0 then some (.spgrow (.ofNat 6 (fld w 5 0)) (.ofNat 6 (fld w 11 6))) else none
  | 3 => if fld w 21 12 = 0 then some (.lpgrow (.ofNat 6 (fld w 5 0)) (.ofNat 6 (fld w 11 6))) else none
  | 4 => if fld w 21 6 = 0 then some (.qwait (.ofNat 6 (fld w 5 0))) else none
  | 5 => if fld w 5 0 = 0 ∧ fld w 21 12 = 0 then some (.allow (.ofNat 6 (fld w 11 6))) else none
  | _ => none

/-- Opcode 0x24 (R142). -/
def decodeOp24 (w : Nat) : Option Instr :=
  match fld w 25 22 with
  | 0 => if fld w 21 0 = 0 then some (.tret) else none
  | 1 => if fld w 21 12 = 0 then some (.pcsrr (.ofNat 6 (fld w 5 0)) (.ofNat 6 (fld w 11 6))) else none
  | 2 => if fld w 5 0 = 0 ∧ fld w 21 18 = 0 then some (.pcsrw (.ofNat 6 (fld w 11 6)) (.ofNat 6 (fld w 17 12))) else none
  | 3 => if fld w 5 0 = 0 ∧ fld w 21 18 = 0 then some (.tinv (.ofNat 6 (fld w 11 6)) (.ofNat 6 (fld w 17 12))) else none
  | 4 => if fld w 5 0 = 0 ∧ fld w 21 18 = 0 then some (.rqrel (.ofNat 6 (fld w 11 6)) (.ofNat 6 (fld w 17 12))) else none
  | 5 => if fld w 21 6 = 0 then some (.hlt (.ofNat 6 (fld w 5 0))) else none
  | _ => none

/-- Opcode 0x25 (R142). -/
def decodeOp25 (w : Nat) : Option Instr :=
  match fld w 25 22 with
  | 0 => if fld w 21 16 = 0 then some (.brk (.ofNat 16 (fld w 15 0))) else none
  | 1 => if fld w 21 16 = 0 then some (.tmark (.ofNat 16 (fld w 15 0))) else none
  | _ => none

/-- Opcode 0x26 (R142). -/
def decodeOp26 (w : Nat) : Option Instr :=
  match fld w 22 21 with
  | 0 => if fld w 6 6 = 0 ∧ fld w 20 14 = 0 then (RedT.ofCode (fld w 25 23)).bind fun t => (VOp.ofCode (fld w 13 7)).bind fun a => some (.mredAdd t (.ofNat 6 (fld w 5 0)) a) else none
  | 1 => if fld w 6 6 = 0 ∧ fld w 20 14 = 0 then (RedT.ofCode (fld w 25 23)).bind fun t => (VOp.ofCode (fld w 13 7)).bind fun a => some (.mscanAdd t (.ofNat 6 (fld w 5 0)) a) else none
  | _ => none

/-- The instruction whose first word is `w` and whose second word, where it has one, is `x`: the fields read as R136 to
R144 lay them out; none where a field has no meaning. -/
def decodeRaw (w x : Nat) : Option Instr :=
  match fld w 31 26 with
  | 1 => decodeOp01 w
  | 2 => decodeOp02 w
  | 3 => decodeOp02 w
  | 4 => decodeOp04 w
  | 5 => decodeOp05 w
  | 6 => decodeOp06 w
  | 7 => decodeOp07 w
  | 8 => decodeOp08 w
  | 9 => decodeOp09 w
  | 10 => decodeOp0A w
  | 11 => decodeOp0B w
  | 12 => decodeOp0C w
  | 13 => decodeOp0D w
  | 14 => decodeOp0E w
  | 15 => decodeOp0F w
  | 16 => decodeOp10 w
  | 17 => decodeOp11 w
  | 18 => decodeOp12 w x
  | 19 => decodeOp13 w
  | 20 => decodeOp14 w x
  | 21 => decodeOp15 w
  | 22 => decodeOp16 w x
  | 23 => decodeOp17 w
  | 24 => decodeOp18 w x
  | 25 => decodeOp19 w x
  | 26 => decodeOp1A w x
  | 27 => decodeOp1B w x
  | 28 => decodeOp1C w x
  | 29 => decodeOp1D w
  | 30 => decodeOp1E w
  | 31 => decodeOp1F w
  | 32 => decodeOp20 w x
  | 33 => decodeOp21 w x
  | 34 => decodeOp22 w x
  | 35 => decodeOp23 w
  | 36 => decodeOp24 w
  | 37 => decodeOp25 w
  | 38 => decodeOp26 w
  | _ => none

/-- How many words the instruction that begins with a word takes (R141). -/
def instrWords (w : Nat) : Nat :=
  match fld w 31 26 with
  | 0x12 => if fld w 25 18 = 4 then 2 else 1
  | 0x14 => if fld w 25 22 = 7 then 2 else 1
  | 0x16 => if fld w 25 22 = 2 ∨ fld w 25 22 = 7 then 2 else 1
  | 0x18 | 0x19 | 0x1A | 0x1B | 0x1C => if fld w 18 18 = 1 then 2 else 1
  | 0x20 => 2
  | 0x21 => if fld w 25 22 = 0 then 2 else 1
  | 0x22 => if fld w 25 22 = 5 then 2 else 1
  | _ => 1

/-- Why the decoder refuses bits: there are too few of them; the major opcode is unassigned; a function code is
unassigned, an operand code names nothing or a field that must be zero is not; or an operand rule is broken.  The last
three are the ILLOP of R145. -/
inductive DecodeReject where
  | truncated
  | unassignedOpcode (opc : Nat)
  | badField (opc : Nat)
  | badOperand (opc : Nat)
deriving DecidableEq, Repr

/-- The major opcodes that the opcode map assigns (R142). -/
def opcodeAssigned (o : Nat) : Bool := 1 ≤ o && o ≤ 0x26

/-- A little-endian word of four bytes (R4). -/
def wordOfBytes (b0 b1 b2 b3 : Byte) : Nat :=
  b0.toNat + 2 ^ 8 * b1.toNat + 2 ^ 16 * b2.toNat + 2 ^ 24 * b3.toNat

/-- The four bytes of a word, the least significant first (R4). -/
def bytesOfWord (w : Nat) : List Byte :=
  [.ofNat 8 w, .ofNat 8 (w / 2 ^ 8), .ofNat 8 (w / 2 ^ 16), .ofNat 8 (w / 2 ^ 24)]

/-- The words of a byte sequence; bytes after the last whole word are left out. -/
def wordsOfBytes : List Byte → List Nat
  | b0 :: b1 :: b2 :: b3 :: rest => wordOfBytes b0 b1 b2 b3 :: wordsOfBytes rest
  | _ => []

/-- The instruction of a first word and the word after it (which only a two-word instruction reads). -/
def decodePair (w x : Nat) : Except DecodeReject Instr :=
  if opcodeAssigned (fld w 31 26) then
    match decodeRaw w x with
    | none => .error (.badField (fld w 31 26))
    | some i => if i.wellFormed then .ok i else .error (.badOperand (fld w 31 26))
  else .error (.unassignedOpcode (fld w 31 26))

/-- The instruction at the head of a list of words, and the words after it. -/
def decodeWords : List Nat → Except DecodeReject (Instr × List Nat)
  | [] => .error .truncated
  | w :: rest =>
    if instrWords w = 1 then (decodePair w 0).map fun i => (i, rest)
    else
      match rest with
      | [] => .error .truncated
      | x :: rest => (decodePair w x).map fun i => (i, rest)

/-- The instruction that a byte sequence begins with. -/
def decodeBytes (bs : List Byte) : Except DecodeReject Instr := (decodeWords (wordsOfBytes bs)).map (·.1)

/-- What the decoder reads from an instruction whose bits, counted from bit 0 of its first word, are `w`; the bits above
`nbits` are zero. -/
def decodeTableWord (nbits w : Nat) : Option Instr :=
  let w := w % 2 ^ nbits
  match decodeBytes (bytesOfWord (w % 2 ^ 32) ++ bytesOfWord (w / 2 ^ 32 % 2 ^ 32)) with
  | .ok i => some i
  | .error _ => none

end

/-- The words of an instruction, written from the same layouts (R136, R143); a machine step has none. -/
def encode : Instr → List Nat
  | .faddF32 d a b => [0x04000000 + b.code * 16384 + a.code * 128 + d.code]
  | .faddF16Bf16 t d a b => [0x08000000 + t.code * 67108864 + b.code * 16384 + a.code * 128 + d.code]
  | .faddF64 d a b => [0x10000000 + b.code * 16384 + a.code * 128 + d.code]
  | .faddFp8 t d a b => [0x14000000 + t.code * 33554432 + b.code * 16384 + a.code * 128 + d.code]
  | .fsubF32 d a b => [0x04200000 + b.code * 16384 + a.code * 128 + d.code]
  | .fsubF16Bf16 t d a b => [0x08200000 + t.code * 67108864 + b.code * 16384 + a.code * 128 + d.code]
  | .fsubF64 d a b => [0x10200000 + b.code * 16384 + a.code * 128 + d.code]
  | .fsubFp8 t d a b => [0x14200000 + t.code * 33554432 + b.code * 16384 + a.code * 128 + d.code]
  | .fmulF32 d a b => [0x04400000 + b.code * 16384 + a.code * 128 + d.code]
  | .fmulF16Bf16 t d a b => [0x08400000 + t.code * 67108864 + b.code * 16384 + a.code * 128 + d.code]
  | .fmulF64 d a b => [0x10400000 + b.code * 16384 + a.code * 128 + d.code]
  | .fmulFp8 t d a b => [0x14400000 + t.code * 33554432 + b.code * 16384 + a.code * 128 + d.code]
  | .fminF32 d a b => [0x04600000 + b.code * 16384 + a.code * 128 + d.code]
  | .fminF16Bf16 t d a b => [0x08600000 + t.code * 67108864 + b.code * 16384 + a.code * 128 + d.code]
  | .fminF64 d a b => [0x10600000 + b.code * 16384 + a.code * 128 + d.code]
  | .fminFp8 t d a b => [0x14600000 + t.code * 33554432 + b.code * 16384 + a.code * 128 + d.code]
  | .fmaxF32 d a b => [0x04800000 + b.code * 16384 + a.code * 128 + d.code]
  | .fmaxF16Bf16 t d a b => [0x08800000 + t.code * 67108864 + b.code * 16384 + a.code * 128 + d.code]
  | .fmaxF64 d a b => [0x10800000 + b.code * 16384 + a.code * 128 + d.code]
  | .fmaxFp8 t d a b => [0x14800000 + t.code * 33554432 + b.code * 16384 + a.code * 128 + d.code]
  | .fabsF32 d a => [0x04A00000 + a.code * 128 + d.code]
  | .fabsF16Bf16 t d a => [0x08A00000 + t.code * 67108864 + a.code * 128 + d.code]
  | .fabsF64 d a => [0x10A00000 + a.code * 128 + d.code]
  | .fabsFp8 t d a => [0x14A00000 + t.code * 33554432 + a.code * 128 + d.code]
  | .fnegF32 d a => [0x04C00000 + a.code * 128 + d.code]
  | .fnegF16Bf16 t d a => [0x08C00000 + t.code * 67108864 + a.code * 128 + d.code]
  | .fnegF64 d a => [0x10C00000 + a.code * 128 + d.code]
  | .fnegFp8 t d a => [0x14C00000 + t.code * 33554432 + a.code * 128 + d.code]
  | .fsatF32 d a => [0x04E00000 + a.code * 128 + d.code]
  | .fsatF16Bf16 t d a => [0x08E00000 + t.code * 67108864 + a.code * 128 + d.code]
  | .fsatF64 d a => [0x10E00000 + a.code * 128 + d.code]
  | .fsatFp8 t d a => [0x14E00000 + t.code * 33554432 + a.code * 128 + d.code]
  | .frndF32 m d a => [0x05000000 + m.code * 2097152 + a.code * 128 + d.code]
  | .frndF16Bf16 t m d a => [0x09000000 + t.code * 67108864 + m.code * 2097152 + a.code * 128 + d.code]
  | .frndF64 m d a => [0x11000000 + m.code * 2097152 + a.code * 128 + d.code]
  | .fdivF32 d a b => [0x05800000 + b.code * 16384 + a.code * 128 + d.code]
  | .fdivF64 d a b => [0x11800000 + b.code * 16384 + a.code * 128 + d.code]
  | .fsqrtF32 d a => [0x05A00000 + a.code * 128 + d.code]
  | .fsqrtF64 d a => [0x11A00000 + a.code * 128 + d.code]
  | .ffmaF32 d a b => [0x18000000 + b.code * 16384 + a.code * 128 + d.code]
  | .ffmsF32 d a b => [0x18200000 + b.code * 16384 + a.code * 128 + d.code]
  | .ffnmaF32 d a b => [0x18400000 + b.code * 16384 + a.code * 128 + d.code]
  | .ffmaF16 d a b => [0x18600000 + b.code * 16384 + a.code * 128 + d.code]
  | .ffmaBf16 d a b => [0x18800000 + b.code * 16384 + a.code * 128 + d.code]
  | .ffmaF64 d a b => [0x18A00000 + b.code * 16384 + a.code * 128 + d.code]
  | .fdot2F16 d a b => [0x18C00000 + b.code * 16384 + a.code * 128 + d.code]
  | .fdot2Bf16 d a b => [0x18E00000 + b.code * 16384 + a.code * 128 + d.code]
  | .fdot4E4m3 d a b => [0x19000000 + b.code * 16384 + a.code * 128 + d.code]
  | .fdot4E5m2 d a b => [0x19200000 + b.code * 16384 + a.code * 128 + d.code]
  | .idot4Ii d a b => [0x19400000 + b.code * 16384 + a.code * 128 + d.code]
  | .idot4In d a b => [0x19600000 + b.code * 16384 + a.code * 128 + d.code]
  | .idot4Ni d a b => [0x19800000 + b.code * 16384 + a.code * 128 + d.code]
  | .idot4Nn d a b => [0x19A00000 + b.code * 16384 + a.code * 128 + d.code]
  | .iadd d a b => [0x1C000000 + b.code * 16384 + a.code * 128 + d.code]
  | .isub d a b => [0x1C200000 + b.code * 16384 + a.code * 128 + d.code]
  | .imul d a b => [0x1C400000 + b.code * 16384 + a.code * 128 + d.code]
  | .imulhI32 d a b => [0x1C600000 + b.code * 16384 + a.code * 128 + d.code]
  | .imulhN32 d a b => [0x1C800000 + b.code * 16384 + a.code * 128 + d.code]
  | .imad d a b => [0x1CA00000 + b.code * 16384 + a.code * 128 + d.code]
  | .iminI32 d a b => [0x1CC00000 + b.code * 16384 + a.code * 128 + d.code]
  | .imaxI32 d a b => [0x1CE00000 + b.code * 16384 + a.code * 128 + d.code]
  | .iminN32 d a b => [0x1D000000 + b.code * 16384 + a.code * 128 + d.code]
  | .imaxN32 d a b => [0x1D200000 + b.code * 16384 + a.code * 128 + d.code]
  | .iabs d a => [0x1D400000 + a.code * 128 + d.code]
  | .ineg d a => [0x1D600000 + a.code * 128 + d.code]
  | .iaddV t d a b => [0x20000000 + t.code * 16777216 + b.code * 16384 + a.code * 128 + d.code]
  | .isubV t d a b => [0x20200000 + t.code * 16777216 + b.code * 16384 + a.code * 128 + d.code]
  | .imulV t d a b => [0x20400000 + t.code * 16777216 + b.code * 16384 + a.code * 128 + d.code]
  | .iminV t d a b => [0x20600000 + t.code * 16777216 + b.code * 16384 + a.code * 128 + d.code]
  | .imaxV t d a b => [0x20800000 + t.code * 16777216 + b.code * 16384 + a.code * 128 + d.code]
  | .iabsV t d a => [0x20A00000 + t.code * 16777216 + a.code * 128 + d.code]
  | .and d a b => [0x24000000 + b.code * 16384 + a.code * 128 + d.code]
  | .or d a b => [0x24200000 + b.code * 16384 + a.code * 128 + d.code]
  | .xor d a b => [0x24400000 + b.code * 16384 + a.code * 128 + d.code]
  | .not d a => [0x24600000 + a.code * 128 + d.code]
  | .andn d a b => [0x24800000 + b.code * 16384 + a.code * 128 + d.code]
  | .shl d a b => [0x24A00000 + b.code * 16384 + a.code * 128 + d.code]
  | .shr d a b => [0x24C00000 + b.code * 16384 + a.code * 128 + d.code]
  | .sar d a b => [0x24E00000 + b.code * 16384 + a.code * 128 + d.code]
  | .bfeI d a b => [0x25000000 + b.code * 16384 + a.code * 128 + d.code]
  | .bfeN d a b => [0x25200000 + b.code * 16384 + a.code * 128 + d.code]
  | .bfi d a b => [0x25400000 + b.code * 16384 + a.code * 128 + d.code]
  | .popc d a => [0x25600000 + a.code * 128 + d.code]
  | .clz d a => [0x25800000 + a.code * 128 + d.code]
  | .brev d a => [0x25A00000 + a.code * 128 + d.code]
  | .bperm d a b => [0x25C00000 + b.code * 16384 + a.code * 128 + d.code]
  | .fcmp c p a b => [0x28000000 + c.code * 2097152 + b.code * 16384 + a.code * 128 + p.toNat]
  | .icmpI32 c p a b => [0x29000000 + c.code * 2097152 + b.code * 16384 + a.code * 128 + p.toNat]
  | .icmpN32 c p a b => [0x2A000000 + c.code * 2097152 + b.code * 16384 + a.code * 128 + p.toNat]
  | .tabs t p a => [0x2B000000 + t.code * 2097152 + a.code * 128 + p.toNat]
  | .cvtF32F16 d a => [0x2C000000 + a.code * 128 + d.code]
  | .cvtF32Bf16 d a => [0x2C200000 + a.code * 128 + d.code]
  | .cvtF32E4m3 d a => [0x2C400000 + a.code * 128 + d.code]
  | .cvtF32E5m2 d a => [0x2C600000 + a.code * 128 + d.code]
  | .cvtF16F32 d a => [0x2C800000 + a.code * 128 + d.code]
  | .cvtBf16F32 d a => [0x2CA00000 + a.code * 128 + d.code]
  | .cvtE4m3F32 d a => [0x2CC00000 + a.code * 128 + d.code]
  | .cvtE5m2F32 d a => [0x2CE00000 + a.code * 128 + d.code]
  | .cvtF64F32 d a => [0x2D000000 + a.code * 128 + d.code]
  | .cvtF32F64 d a => [0x2D200000 + a.code * 128 + d.code]
  | .cvtF32I32 d a => [0x2D400000 + a.code * 128 + d.code]
  | .cvtF32N32 d a => [0x2D600000 + a.code * 128 + d.code]
  | .cvtI32F32 d a => [0x2D800000 + a.code * 128 + d.code]
  | .cvtN32F32 d a => [0x2DA00000 + a.code * 128 + d.code]
  | .cvtI32I8 d a => [0x2DC00000 + a.code * 128 + d.code]
  | .cvtI32N8 d a => [0x2DE00000 + a.code * 128 + d.code]
  | .cvtI8I32 d a => [0x2E000000 + a.code * 128 + d.code]
  | .cvtN8I32 d a => [0x2E200000 + a.code * 128 + d.code]
  | .cvtpk d a b => [0x2E400000 + b.code * 16384 + a.code * 128 + d.code]
  | .cvtup t e d a => [0x2E600000 + t.code * 262144 + e.toNat * 16384 + a.code * 128 + d.code]
  | .tunpk d a k => [0x2E9E0000 + k.toNat * 16384 + a.code * 128 + d.code]
  | .frcp d a => [0x301E0000 + a.code * 128 + d.code]
  | .frsq d a => [0x303E0000 + a.code * 128 + d.code]
  | .fexp2 d a => [0x305E0000 + a.code * 128 + d.code]
  | .flog2 d a => [0x307E0000 + a.code * 128 + d.code]
  | .fsin d a => [0x309E0000 + a.code * 128 + d.code]
  | .fcos d a => [0x30BE0000 + a.code * 128 + d.code]
  | .ftanh d a => [0x30DE0000 + a.code * 128 + d.code]
  | .fsigm d a => [0x30FE0000 + a.code * 128 + d.code]
  | .shfl d a b => [0x34000000 + b.code * 16384 + a.code * 128 + d.code]
  | .shflup d a b => [0x34200000 + b.code * 16384 + a.code * 128 + d.code]
  | .shfldn d a b => [0x34400000 + b.code * 16384 + a.code * 128 + d.code]
  | .shflx d a b => [0x34600000 + b.code * 16384 + a.code * 128 + d.code]
  | .bcast d a => [0x34800000 + a.code * 128 + d.code]
  | .ballot d p => [0x34A00000 + p.toNat * 128 + d.code]
  | .vany d p => [0x34C00000 + p.toNat * 128 + d.code]
  | .vall d p => [0x34E00000 + p.toNat * 128 + d.code]
  | .wredAddF32 d a => [0x35000000 + a.code * 128 + d.code]
  | .wredMaxF32 d a => [0x35200000 + a.code * 128 + d.code]
  | .wredAddI32 d a => [0x35400000 + a.code * 128 + d.code]
  | .wscanAddF32 d a => [0x35600000 + a.code * 128 + d.code]
  | .wscanAddI32 d a => [0x35800000 + a.code * 128 + d.code]
  | .lanes d => [0x35A00000 + d.code]
  | .mov d a => [0x38000000 + a.code * 128 + d.code]
  | .sel d p a b => [0x38000000 + p.toNat * 2097152 + b.code * 16384 + a.code * 128 + d.code]
  | .toabs t d a p => [0x39000000 + t.code * 2097152 + p.toNat * 16384 + a.code * 128 + d.code]
  | .defabs t d a b => [0x3A000000 + t.code * 2097152 + b.code * 16384 + a.code * 128 + d.code]
  | .plog o d a b => [0x3B000000 + o.code * 2097152 + b.toNat * 16384 + a.toNat * 128 + d.toNat]
  | .gtag d a => [0x3B800000 + a.toNat * 128 + d.toNat]
  | .mkg d a => [0x3BA00000 + a.code * 128 + d.code]
  | .iaddi d a i => [0x3C000000 + i.toNat * 16384 + a.code * 128 + d.code]
  | .andi d a i => [0x3C800000 + i.toNat * 16384 + a.code * 128 + d.code]
  | .ori d a i => [0x3D000000 + i.toNat * 16384 + a.code * 128 + d.code]
  | .xori d a i => [0x3D800000 + i.toNat * 16384 + a.code * 128 + d.code]
  | .shli d a n => [0x3E000000 + n.toNat * 16384 + a.code * 128 + d.code]
  | .shri d a n => [0x3E800000 + n.toNat * 16384 + a.code * 128 + d.code]
  | .sari d a n => [0x3F000000 + n.toNat * 16384 + a.code * 128 + d.code]
  | .movi d i => [0x3F800000 + i.toNat * 16384 + d.code]
  | .sadd d a b => [0x40000000 + b.toNat * 4096 + a.toNat * 64 + d.toNat]
  | .ssub d a b => [0x40040000 + b.toNat * 4096 + a.toNat * 64 + d.toNat]
  | .smul d a b => [0x40080000 + b.toNat * 4096 + a.toNat * 64 + d.toNat]
  | .smulhI d a b => [0x400C0000 + b.toNat * 4096 + a.toNat * 64 + d.toNat]
  | .smulhN d a b => [0x40100000 + b.toNat * 4096 + a.toNat * 64 + d.toNat]
  | .sminI d a b => [0x40140000 + b.toNat * 4096 + a.toNat * 64 + d.toNat]
  | .smaxI d a b => [0x40180000 + b.toNat * 4096 + a.toNat * 64 + d.toNat]
  | .sminN d a b => [0x401C0000 + b.toNat * 4096 + a.toNat * 64 + d.toNat]
  | .smaxN d a b => [0x40200000 + b.toNat * 4096 + a.toNat * 64 + d.toNat]
  | .sand d a b => [0x40240000 + b.toNat * 4096 + a.toNat * 64 + d.toNat]
  | .sor d a b => [0x40280000 + b.toNat * 4096 + a.toNat * 64 + d.toNat]
  | .sxor d a b => [0x402C0000 + b.toNat * 4096 + a.toNat * 64 + d.toNat]
  | .sshl d a b => [0x40300000 + b.toNat * 4096 + a.toNat * 64 + d.toNat]
  | .sshr d a b => [0x40340000 + b.toNat * 4096 + a.toNat * 64 + d.toNat]
  | .ssar d a b => [0x40380000 + b.toNat * 4096 + a.toNat * 64 + d.toNat]
  | .sbfeI d a b => [0x403C0000 + b.toNat * 4096 + a.toNat * 64 + d.toNat]
  | .sbfeN d a b => [0x40400000 + b.toNat * 4096 + a.toNat * 64 + d.toNat]
  | .sbfi d a b => [0x40440000 + b.toNat * 4096 + a.toNat * 64 + d.toNat]
  | .spopc d a => [0x40480000 + a.toNat * 64 + d.toNat]
  | .sclz d a => [0x404C0000 + a.toNat * 64 + d.toNat]
  | .sadd64 d a b => [0x40500000 + b.toNat * 4096 + a.toNat * 64 + d.toNat]
  | .ssub64 d a b => [0x40540000 + b.toNat * 4096 + a.toNat * 64 + d.toNat]
  | .sshl64 d a b => [0x40580000 + b.toNat * 4096 + a.toNat * 64 + d.toNat]
  | .scmpEq d a b => [0x405C0000 + b.toNat * 4096 + a.toNat * 64 + d.toNat]
  | .scmpLtI d a b => [0x40600000 + b.toNat * 4096 + a.toNat * 64 + d.toNat]
  | .scmpLtN d a b => [0x40640000 + b.toNat * 4096 + a.toNat * 64 + d.toNat]
  | .saddi d a i => [0x44000000 + i.toNat * 4096 + a.toNat * 64 + d.toNat]
  | .sandi d a i => [0x44400000 + i.toNat * 4096 + a.toNat * 64 + d.toNat]
  | .sori d a i => [0x44800000 + i.toNat * 4096 + a.toNat * 64 + d.toNat]
  | .sxori d a i => [0x44C00000 + i.toNat * 4096 + a.toNat * 64 + d.toNat]
  | .sshli d a n => [0x45000000 + n.toNat * 4096 + a.toNat * 64 + d.toNat]
  | .sshri d a n => [0x45400000 + n.toNat * 4096 + a.toNat * 64 + d.toNat]
  | .ssari d a n => [0x45800000 + n.toNat * 4096 + a.toNat * 64 + d.toNat]
  | .scmpiLt d a i => [0x45C00000 + i.toNat * 4096 + a.toNat * 64 + d.toNat]
  | .smovi d i => [0x46000000 + i.toNat * 4096 + d.toNat]
  | .srd d n => [0x48000000 + n.toNat * 64 + d.toNat]
  | .swr n s => [0x48040000 + n.toNat * 64 + s.toNat]
  | .vtos d a l => [0x48080000 + l.toNat * 4096 + a.toNat * 64 + d.toNat]
  | .stov d s => [0x480C0000 + s.toNat * 64 + d.toNat]
  | .smovw d w => [0x48100000 + d.toNat, w.toNat]
  | .bdset d a c => [0x48140000 + c.toNat * 4096 + a.toNat * 64 + d.toNat]
  | .slui d i => [0x4C000000 + i.toNat * 64 + d.toNat]
  | .bra o => [0x50000000 + o.toNat]
  | .bpt p k o => [0x50400000 + p.toNat * 65536 + k.toNat * 4096 + o.toNat]
  | .bpf p k o => [0x50800000 + p.toNat * 65536 + k.toNat * 4096 + o.toNat]
  | .bany p o => [0x50C00000 + p.toNat * 65536 + o.toNat]
  | .ball p o => [0x51000000 + p.toNat * 65536 + o.toNat]
  | .bnz s o => [0x51400000 + s.toNat * 65536 + o.toNat]
  | .bz s o => [0x51800000 + s.toNat * 65536 + o.toNat]
  | .jmp w => [0x51C00000, w.toNat]
  | .loop v s n => [0x54000000 + n.toNat * 4096 + s.toNat * 64 + v.toNat * 16]
  | .loopi v c n => [0x54400000 + n.toNat * 4096 + c.toNat * 16 + v.toNat * 4]
  | .lbrk v => [0x54800000 + v.toNat * 16]
  | .nop => [0x58000000]
  | .rcv k => [0x58400000 + k.toNat]
  | .call w => [0x58800000, w.toNat]
  | .callr x => [0x58C00000 + x.toNat * 64]
  | .ret => [0x59000000]
  | .jr x => [0x59400000 + x.toNat * 64]
  | .yield d l => [0x59800000 + d.toNat * 4096 + l.toNat]
  | .yieldc l s c t d n o => [0x59C00000 + t.toNat * 512 + c.toNat * 64 + s.toNat * 8 + l.toNat, d.toNat * 268435456 + n.toNat * 2097152 + o.toNat]
  | .exit => [0x5A000000]
  | .trap i => [0x5A400000 + i.toNat]
  | .wait l s c t => [0x5A800000 + t.toNat * 512 + c.toNat * 64 + s.toNat * 8 + l.toNat]
  | .barinit p o n b => [0x5C000000 + p.toNat * 1048576 + n.toNat * 4096 + o.toNat * 64 + b.toNat]
  | .barexp p o b => [0x5C400000 + p.toNat * 1048576 + b.toNat * 4096 + o.toNat * 64]
  | .bararr p t o => [0x5C800000 + p.toNat * 1048576 + o.toNat * 64 + t.toNat]
  | .barwait p o t => [0x5CC00000 + p.toNat * 1048576 + t.toNat * 4096 + o.toNat * 64]
  | .bartry p r o t => [0x5D000000 + p.toNat * 1048576 + t.toNat * 4096 + o.toNat * 64 + r.toNat]
  | .ringinit p o c d => [0x5D400000 + p.toNat * 1048576 + c.toNat * 4096 + o.toNat * 64 + d.toNat]
  | .awaitf p i o j => [0x5D800000 + p.toNat * 1048576 + j.toNat * 4096 + o.toNat * 64 + i.toNat]
  | .rels p o => [0x5DC00000 + p.toNat * 1048576 + o.toNat * 64]
  | .wgbar => [0x5E000000]
  | .ldg z o p d b v off => withOff (0x60000000 + z.code * 8388608 + o.code * 2097152 + p.code * 524288 + b.toNat * 16384 + v.code * 128 + d.code) off
  | .stg z o p b v off d => withOff (0x64000000 + z.code * 8388608 + o.code * 2097152 + p.code * 524288 + b.toNat * 16384 + v.code * 128 + d.code) off
  | .ldsp z q d b v off => withOff (0x68000000 + z.code * 8388608 + q.toNat * 524288 + b.toNat * 16384 + v.code * 128 + d.code) off
  | .ldcl z q d b v off => withOff (0x68200000 + z.code * 8388608 + q.toNat * 524288 + b.toNat * 16384 + v.code * 128 + d.code) off
  | .ldst z q d b v off => withOff (0x68400000 + z.code * 8388608 + q.toNat * 524288 + b.toNat * 16384 + v.code * 128 + d.code) off
  | .ldlp z q d b v off => withOff (0x68600000 + z.code * 8388608 + q.toNat * 524288 + b.toNat * 16384 + v.code * 128 + d.code) off
  | .stsp z q b v off d => withOff (0x6C000000 + z.code * 8388608 + q.toNat * 524288 + b.toNat * 16384 + v.code * 128 + d.code) off
  | .stcl z q b v off d => withOff (0x6C200000 + z.code * 8388608 + q.toNat * 524288 + b.toNat * 16384 + v.code * 128 + d.code) off
  | .stst z q b v off d => withOff (0x6C400000 + z.code * 8388608 + q.toNat * 524288 + b.toNat * 16384 + v.code * 128 + d.code) off
  | .stlp z q b v off d => withOff (0x6C600000 + z.code * 8388608 + q.toNat * 524288 + b.toNat * 16384 + v.code * 128 + d.code) off
  | .ldb z o l d b v off => withOff (0x70000000 + z.code * 8388608 + o.code * 1048576 + l.toNat * 524288 + b.toNat * 16384 + v.code * 128 + d.code) off
  | .stb z o l b v off d => withOff (0x70400000 + z.code * 8388608 + o.code * 1048576 + l.toNat * 524288 + b.toNat * 16384 + v.code * 128 + d.code) off
  | .aadd o t d b v => [0x74000000 + o.code * 1048576 + t.code * 262144 + b.toNat * 16384 + v.code * 128 + d.code]
  | .amin o t d b v => [0x74400000 + o.code * 1048576 + t.code * 262144 + b.toNat * 16384 + v.code * 128 + d.code]
  | .amax o t d b v => [0x74800000 + o.code * 1048576 + t.code * 262144 + b.toNat * 16384 + v.code * 128 + d.code]
  | .aand o t d b v => [0x74C00000 + o.code * 1048576 + t.code * 262144 + b.toNat * 16384 + v.code * 128 + d.code]
  | .aor o t d b v => [0x75000000 + o.code * 1048576 + t.code * 262144 + b.toNat * 16384 + v.code * 128 + d.code]
  | .axor o t d b v => [0x75400000 + o.code * 1048576 + t.code * 262144 + b.toNat * 16384 + v.code * 128 + d.code]
  | .axch o t d b v => [0x75800000 + o.code * 1048576 + t.code * 262144 + b.toNat * 16384 + v.code * 128 + d.code]
  | .acas o t d b v => [0x75C00000 + o.code * 1048576 + t.code * 262144 + b.toNat * 16384 + v.code * 128 + d.code]
  | .aacc o d b v => [0x760C0000 + o.code * 1048576 + b.toNat * 16384 + v.code * 128 + d.code]
  | .ainc o n d b v => [0x76400000 + o.code * 1048576 + n.toNat * 262144 + b.toNat * 16384 + v.code * 128 + d.code]
  | .aaddSpace o s t d v => [0x78000000 + o.code * 1048576 + s.code * 262144 + t.code * 65536 + v.code * 128 + d.code]
  | .aminSpace o s t d v => [0x78400000 + o.code * 1048576 + s.code * 262144 + t.code * 65536 + v.code * 128 + d.code]
  | .amaxSpace o s t d v => [0x78800000 + o.code * 1048576 + s.code * 262144 + t.code * 65536 + v.code * 128 + d.code]
  | .aandSpace o s t d v => [0x78C00000 + o.code * 1048576 + s.code * 262144 + t.code * 65536 + v.code * 128 + d.code]
  | .aorSpace o s t d v => [0x79000000 + o.code * 1048576 + s.code * 262144 + t.code * 65536 + v.code * 128 + d.code]
  | .axorSpace o s t d v => [0x79400000 + o.code * 1048576 + s.code * 262144 + t.code * 65536 + v.code * 128 + d.code]
  | .axchSpace o s t d v => [0x79800000 + o.code * 1048576 + s.code * 262144 + t.code * 65536 + v.code * 128 + d.code]
  | .acasSpace o s t d v => [0x79C00000 + o.code * 1048576 + s.code * 262144 + t.code * 65536 + v.code * 128 + d.code]
  | .aaccSpace o s d v => [0x7A030000 + o.code * 1048576 + s.code * 262144 + v.code * 128 + d.code]
  | .aincSpace o s n d v => [0x7A400000 + o.code * 1048576 + s.code * 262144 + n.toNat * 65536 + v.code * 128 + d.code]
  | .fence k s => [0x7C000000 + k.code * 65536 + s.code * 4096]
  | .cprf i a l => [0x7C400000 + i.toNat * 4096 + a.toNat * 64 + l.toNat]
  | .cflush a d => [0x7C800000 + a.toNat * 64 + d.toNat]
  | .sld d a i => [0x7CC00000 + i.toNat * 4096 + a.toNat * 64 + d.toNat]
  | .sst a i d => [0x7D000000 + i.toNat * 4096 + a.toNat * 64 + d.toNat]
  | .cpyG2s dst src len sl obj idx rows stride mc ring fill => [0x80000000 + dst.toNat * 65536 + src.toNat * 1024 + len.toNat * 16 + sl.toNat, obj.toNat * 67108864 + idx.toNat * 1048576 + rows.toNat * 1024 + stride.toNat * 16 + fill.toNat * 4 + ring.toNat * 2 + mc.toNat]
  | .cpyG2c dst src len sl obj idx rows stride ring fill => [0x80400000 + dst.toNat * 65536 + src.toNat * 1024 + len.toNat * 16 + sl.toNat, obj.toNat * 67108864 + idx.toNat * 1048576 + rows.toNat * 1024 + stride.toNat * 16 + fill.toNat * 4 + ring.toNat * 2]
  | .cpyG2t dst src len sl obj idx rows stride fill => [0x80800000 + dst.toNat * 65536 + src.toNat * 1024 + len.toNat * 16 + sl.toNat, obj.toNat * 67108864 + idx.toNat * 1048576 + rows.toNat * 1024 + stride.toNat * 16 + fill.toNat * 4]
  | .cpyS2g dst src len sl obj idx rows stride => [0x80C00000 + dst.toNat * 65536 + src.toNat * 1024 + len.toNat * 16 + sl.toNat, obj.toNat * 67108864 + idx.toNat * 1048576 + rows.toNat * 1024 + stride.toNat * 16]
  | .cpyC2s dst src len sl obj idx rows stride mc ring => [0x81000000 + dst.toNat * 65536 + src.toNat * 1024 + len.toNat * 16 + sl.toNat, obj.toNat * 67108864 + idx.toNat * 1048576 + rows.toNat * 1024 + stride.toNat * 16 + ring.toNat * 2 + mc.toNat]
  | .cpyS2c dst src len sl obj idx rows stride ring => [0x81400000 + dst.toNat * 65536 + src.toNat * 1024 + len.toNat * 16 + sl.toNat, obj.toNat * 67108864 + idx.toNat * 1048576 + rows.toNat * 1024 + stride.toNat * 16 + ring.toNat * 2]
  | .cpym dst src len sl obj idx rows stride fill => [0x81800000 + dst.toNat * 65536 + src.toNat * 1024 + len.toNat * 16 + sl.toNat, obj.toNat * 67108864 + idx.toNat * 1048576 + rows.toNat * 1024 + stride.toNat * 16 + fill.toNat * 4]
  | .cpyx dst src len sl obj idx rows stride ring => [0x81C00000 + dst.toNat * 65536 + src.toNat * 1024 + len.toNat * 16 + sl.toNat, obj.toNat * 67108864 + idx.toNat * 1048576 + rows.toNat * 1024 + stride.toNat * 16 + ring.toNat * 2]
  | .cpyg dst src len sl obj idx rows stride ring fill => [0x82000000 + dst.toNat * 65536 + src.toNat * 1024 + len.toNat * 16 + sl.toNat, obj.toNat * 67108864 + idx.toNat * 1048576 + rows.toNat * 1024 + stride.toNat * 16 + fill.toNat * 4 + ring.toNat * 2]
  | .cred dst src len sl obj idx rows stride => [0x82400000 + dst.toNat * 65536 + src.toNat * 1024 + len.toNat * 16 + sl.toNat, obj.toNat * 67108864 + idx.toNat * 1048576 + rows.toNat * 1024 + stride.toNat * 16]
  | .cpycan n cl obj => [0x82800000 + n.toNat * 65536 + cl.toNat, obj.toNat * 67108864]
  | .mres d w => [0x84000000 + d.toNat * 131072, w.toNat]
  | .mfree d => [0x84400000 + d.toNat * 131072]
  | .mld q d s p => [0x84800000 + d.toNat * 131072 + s.toNat * 4096 + p.toNat * 128 + q.code]
  | .mscl d s o => [0x84C00000 + d.toNat * 131072 + s.toNat * 4096 + o.toNat * 128]
  | .mgang b i => [0x88000000 + b.toNat * 128 + i.toNat]
  | .mshape m => [0x88400000 + m.toNat]
  | .mls r s c o => [0x88800000 + r.toNat * 131072 + c.toNat * 4096 + o.toNat * 128 + s.toNat]
  | .mswap => [0x88C00000]
  | .mma t a q p g z s w => [0x89000000 + t.toNat * 131072 + a.toNat * 4096 + q.toNat * 128 + p.toNat * 16 + g.toNat * 8 + z.toNat * 4 + s.toNat * 2 + w.toNat]
  | .mdrain t x o n w => [0x89400000 + t.toNat * 131072 + x.toNat * 4096 + o.toNat * 128 + n.toNat, w.toNat]
  | .mtab t => [0x89800000 + t.toNat * 4096]
  | .mzero t => [0x89C00000 + t.toNat * 131072]
  | .mfill t r => [0x8A000000 + t.toNat * 131072 + r.toNat * 4096]
  | .mredAdd t d a => [0x98000000 + t.code * 8388608 + a.code * 128 + d.toNat]
  | .mscanAdd t d a => [0x98200000 + t.code * 8388608 + a.code * 128 + d.toNat]
  | .launch d a q => [0x8C000000 + q.toNat * 4096 + a.toNat * 64 + d.toNat]
  | .commit => [0x8C400000]
  | .spgrow d a => [0x8C800000 + a.toNat * 64 + d.toNat]
  | .lpgrow d a => [0x8CC00000 + a.toNat * 64 + d.toNat]
  | .qwait d => [0x8D000000 + d.toNat]
  | .allow a => [0x8D400000 + a.toNat * 64]
  | .tret => [0x90000000]
  | .pcsrr d a => [0x90400000 + a.toNat * 64 + d.toNat]
  | .pcsrw a b => [0x90800000 + b.toNat * 4096 + a.toNat * 64]
  | .tinv a b => [0x90C00000 + b.toNat * 4096 + a.toNat * 64]
  | .rqrel a b => [0x91000000 + b.toNat * 4096 + a.toNat * 64]
  | .hlt d => [0x91400000 + d.toNat]
  | .brk i => [0x94000000 + i.toNat]
  | .tmark i => [0x94400000 + i.toNat]
  | .clauseIssue _ => []
  | .issueWaitLimit _ => []
  | .ydl _ => []
  | .deferralSwitch _ => []
  | .loadComplete _ => []
  | .storeComplete _ => []
  | .atomicPerform _ => []
  | .replayStallResume _ => []
  | .parkedAccessReplay _ => []
  | .heldSliceIssue _ => []
  | .copyComplete _ => []
  | .copyFailure _ _ => []
  | .credComplete _ => []
  | .engineDeferredAccept _ => []
  | .arbiterGrant _ _ => []
  | .arbiterAgeLimit _ _ => []
  | .mswapBandSwap _ _ _ => []
  | .engineOpComplete _ _ => []
  | .mldFailure _ _ => []
  | .mldStrictFmtf _ _ => []
  | .bandRailWake _ _ => []
  | .bandRailGate _ _ => []
  | .queueRecordConsume _ _ => []
  | .contextChoice _ => []
  | .placement _ _ => []
  | .teamSwapOut _ => []
  | .workgroupRetire _ => []
  | .hang _ => []
  | .sampleTick _ => []
  | .emergencyRelease => []
  | .noticeReceive _ _ => []
  | .migrationStart _ _ => []
  | .migrationArrival _ => []
  | .smLoopPass _ _ => []
  | .smhbTimeout => []
  | .islandTarget _ => []
  | .voltageRampDone _ => []
  | .settleDone _ => []
  | .frequencySwitch _ => []
  | .acq _ => []
  | .rel _ => []
  | .dzHb _ => []
  | .leaseLapse => []
  | .privRegisterWrite _ _ _ => []
  | .create _ _ => []
  | .suspend _ _ => []
  | .resume _ _ => []
  | .tear _ _ => []
  | .preemptionTimeout _ => []
  | .workgroupSave _ => []
  | .contextSaveComplete _ => []
  | .tearComplete _ => []
  | .hostRqrel _ _ _ => []
  | .tagCountWrite _ _ _ => []
  | .granuleTag _ => []
  | .attestationRequest _ _ => []
  | .attestationComplete => []
  | .stop _ _ _ => []
  | .stopSettled _ => []
  | .debugResume _ _ => []
  | .step _ _ => []
  | .stepall _ _ => []
  | .debugEdit _ _ _ => []
  | .debugRevoke _ _ _ => []
  | .traceFrame => []
  | .histogramRequest _ _ => []
  | .clr _ _ => []
  | .hostAccess _ => []
  | .credBlock _ => []
  | .linkKeying _ => []
  | .flitAuthFailure _ => []
  | .patrolScrub _ => []
  | .reset _ => []
  | .descriptorPublish _ => []
  | .destinationWrite _ => []
  | .saveBlockTransfer _ => []
  | .linkLevelRetry _ => []

/-- The rows of the opcode table that are machine steps and have no encoding. -/
def Instr.isStep : Instr → Bool
  | .faddF32 _ _ _ => false
  | .faddF16Bf16 _ _ _ _ => false
  | .faddF64 _ _ _ => false
  | .faddFp8 _ _ _ _ => false
  | .fsubF32 _ _ _ => false
  | .fsubF16Bf16 _ _ _ _ => false
  | .fsubF64 _ _ _ => false
  | .fsubFp8 _ _ _ _ => false
  | .fmulF32 _ _ _ => false
  | .fmulF16Bf16 _ _ _ _ => false
  | .fmulF64 _ _ _ => false
  | .fmulFp8 _ _ _ _ => false
  | .fminF32 _ _ _ => false
  | .fminF16Bf16 _ _ _ _ => false
  | .fminF64 _ _ _ => false
  | .fminFp8 _ _ _ _ => false
  | .fmaxF32 _ _ _ => false
  | .fmaxF16Bf16 _ _ _ _ => false
  | .fmaxF64 _ _ _ => false
  | .fmaxFp8 _ _ _ _ => false
  | .fabsF32 _ _ => false
  | .fabsF16Bf16 _ _ _ => false
  | .fabsF64 _ _ => false
  | .fabsFp8 _ _ _ => false
  | .fnegF32 _ _ => false
  | .fnegF16Bf16 _ _ _ => false
  | .fnegF64 _ _ => false
  | .fnegFp8 _ _ _ => false
  | .fsatF32 _ _ => false
  | .fsatF16Bf16 _ _ _ => false
  | .fsatF64 _ _ => false
  | .fsatFp8 _ _ _ => false
  | .frndF32 _ _ _ => false
  | .frndF16Bf16 _ _ _ _ => false
  | .frndF64 _ _ _ => false
  | .fdivF32 _ _ _ => false
  | .fdivF64 _ _ _ => false
  | .fsqrtF32 _ _ => false
  | .fsqrtF64 _ _ => false
  | .ffmaF32 _ _ _ => false
  | .ffmsF32 _ _ _ => false
  | .ffnmaF32 _ _ _ => false
  | .ffmaF16 _ _ _ => false
  | .ffmaBf16 _ _ _ => false
  | .ffmaF64 _ _ _ => false
  | .fdot2F16 _ _ _ => false
  | .fdot2Bf16 _ _ _ => false
  | .fdot4E4m3 _ _ _ => false
  | .fdot4E5m2 _ _ _ => false
  | .idot4Ii _ _ _ => false
  | .idot4In _ _ _ => false
  | .idot4Ni _ _ _ => false
  | .idot4Nn _ _ _ => false
  | .iadd _ _ _ => false
  | .isub _ _ _ => false
  | .imul _ _ _ => false
  | .imulhI32 _ _ _ => false
  | .imulhN32 _ _ _ => false
  | .imad _ _ _ => false
  | .iminI32 _ _ _ => false
  | .imaxI32 _ _ _ => false
  | .iminN32 _ _ _ => false
  | .imaxN32 _ _ _ => false
  | .iabs _ _ => false
  | .ineg _ _ => false
  | .iaddV _ _ _ _ => false
  | .isubV _ _ _ _ => false
  | .imulV _ _ _ _ => false
  | .iminV _ _ _ _ => false
  | .imaxV _ _ _ _ => false
  | .iabsV _ _ _ => false
  | .and _ _ _ => false
  | .or _ _ _ => false
  | .xor _ _ _ => false
  | .not _ _ => false
  | .andn _ _ _ => false
  | .shl _ _ _ => false
  | .shr _ _ _ => false
  | .sar _ _ _ => false
  | .bfeI _ _ _ => false
  | .bfeN _ _ _ => false
  | .bfi _ _ _ => false
  | .popc _ _ => false
  | .clz _ _ => false
  | .brev _ _ => false
  | .bperm _ _ _ => false
  | .fcmp _ _ _ _ => false
  | .icmpI32 _ _ _ _ => false
  | .icmpN32 _ _ _ _ => false
  | .tabs _ _ _ => false
  | .cvtF32F16 _ _ => false
  | .cvtF32Bf16 _ _ => false
  | .cvtF32E4m3 _ _ => false
  | .cvtF32E5m2 _ _ => false
  | .cvtF16F32 _ _ => false
  | .cvtBf16F32 _ _ => false
  | .cvtE4m3F32 _ _ => false
  | .cvtE5m2F32 _ _ => false
  | .cvtF64F32 _ _ => false
  | .cvtF32F64 _ _ => false
  | .cvtF32I32 _ _ => false
  | .cvtF32N32 _ _ => false
  | .cvtI32F32 _ _ => false
  | .cvtN32F32 _ _ => false
  | .cvtI32I8 _ _ => false
  | .cvtI32N8 _ _ => false
  | .cvtI8I32 _ _ => false
  | .cvtN8I32 _ _ => false
  | .cvtpk _ _ _ => false
  | .cvtup _ _ _ _ => false
  | .tunpk _ _ _ => false
  | .frcp _ _ => false
  | .frsq _ _ => false
  | .fexp2 _ _ => false
  | .flog2 _ _ => false
  | .fsin _ _ => false
  | .fcos _ _ => false
  | .ftanh _ _ => false
  | .fsigm _ _ => false
  | .shfl _ _ _ => false
  | .shflup _ _ _ => false
  | .shfldn _ _ _ => false
  | .shflx _ _ _ => false
  | .bcast _ _ => false
  | .ballot _ _ => false
  | .vany _ _ => false
  | .vall _ _ => false
  | .wredAddF32 _ _ => false
  | .wredMaxF32 _ _ => false
  | .wredAddI32 _ _ => false
  | .wscanAddF32 _ _ => false
  | .wscanAddI32 _ _ => false
  | .lanes _ => false
  | .mov _ _ => false
  | .sel _ _ _ _ => false
  | .toabs _ _ _ _ => false
  | .defabs _ _ _ _ => false
  | .plog _ _ _ _ => false
  | .gtag _ _ => false
  | .mkg _ _ => false
  | .iaddi _ _ _ => false
  | .andi _ _ _ => false
  | .ori _ _ _ => false
  | .xori _ _ _ => false
  | .shli _ _ _ => false
  | .shri _ _ _ => false
  | .sari _ _ _ => false
  | .movi _ _ => false
  | .sadd _ _ _ => false
  | .ssub _ _ _ => false
  | .smul _ _ _ => false
  | .smulhI _ _ _ => false
  | .smulhN _ _ _ => false
  | .sminI _ _ _ => false
  | .smaxI _ _ _ => false
  | .sminN _ _ _ => false
  | .smaxN _ _ _ => false
  | .sand _ _ _ => false
  | .sor _ _ _ => false
  | .sxor _ _ _ => false
  | .sshl _ _ _ => false
  | .sshr _ _ _ => false
  | .ssar _ _ _ => false
  | .sbfeI _ _ _ => false
  | .sbfeN _ _ _ => false
  | .sbfi _ _ _ => false
  | .spopc _ _ => false
  | .sclz _ _ => false
  | .sadd64 _ _ _ => false
  | .ssub64 _ _ _ => false
  | .sshl64 _ _ _ => false
  | .scmpEq _ _ _ => false
  | .scmpLtI _ _ _ => false
  | .scmpLtN _ _ _ => false
  | .saddi _ _ _ => false
  | .sandi _ _ _ => false
  | .sori _ _ _ => false
  | .sxori _ _ _ => false
  | .sshli _ _ _ => false
  | .sshri _ _ _ => false
  | .ssari _ _ _ => false
  | .scmpiLt _ _ _ => false
  | .smovi _ _ => false
  | .srd _ _ => false
  | .swr _ _ => false
  | .vtos _ _ _ => false
  | .stov _ _ => false
  | .smovw _ _ => false
  | .bdset _ _ _ => false
  | .slui _ _ => false
  | .bra _ => false
  | .bpt _ _ _ => false
  | .bpf _ _ _ => false
  | .bany _ _ => false
  | .ball _ _ => false
  | .bnz _ _ => false
  | .bz _ _ => false
  | .jmp _ => false
  | .loop _ _ _ => false
  | .loopi _ _ _ => false
  | .lbrk _ => false
  | .nop => false
  | .rcv _ => false
  | .call _ => false
  | .callr _ => false
  | .ret => false
  | .jr _ => false
  | .yield _ _ => false
  | .yieldc _ _ _ _ _ _ _ => false
  | .exit => false
  | .trap _ => false
  | .wait _ _ _ _ => false
  | .barinit _ _ _ _ => false
  | .barexp _ _ _ => false
  | .bararr _ _ _ => false
  | .barwait _ _ _ => false
  | .bartry _ _ _ _ => false
  | .ringinit _ _ _ _ => false
  | .awaitf _ _ _ _ => false
  | .rels _ _ => false
  | .wgbar => false
  | .ldg _ _ _ _ _ _ _ => false
  | .stg _ _ _ _ _ _ _ => false
  | .ldsp _ _ _ _ _ _ => false
  | .ldcl _ _ _ _ _ _ => false
  | .ldst _ _ _ _ _ _ => false
  | .ldlp _ _ _ _ _ _ => false
  | .stsp _ _ _ _ _ _ => false
  | .stcl _ _ _ _ _ _ => false
  | .stst _ _ _ _ _ _ => false
  | .stlp _ _ _ _ _ _ => false
  | .ldb _ _ _ _ _ _ _ => false
  | .stb _ _ _ _ _ _ _ => false
  | .aadd _ _ _ _ _ => false
  | .amin _ _ _ _ _ => false
  | .amax _ _ _ _ _ => false
  | .aand _ _ _ _ _ => false
  | .aor _ _ _ _ _ => false
  | .axor _ _ _ _ _ => false
  | .axch _ _ _ _ _ => false
  | .acas _ _ _ _ _ => false
  | .aacc _ _ _ _ => false
  | .ainc _ _ _ _ _ => false
  | .aaddSpace _ _ _ _ _ => false
  | .aminSpace _ _ _ _ _ => false
  | .amaxSpace _ _ _ _ _ => false
  | .aandSpace _ _ _ _ _ => false
  | .aorSpace _ _ _ _ _ => false
  | .axorSpace _ _ _ _ _ => false
  | .axchSpace _ _ _ _ _ => false
  | .acasSpace _ _ _ _ _ => false
  | .aaccSpace _ _ _ _ => false
  | .aincSpace _ _ _ _ _ => false
  | .fence _ _ => false
  | .cprf _ _ _ => false
  | .cflush _ _ => false
  | .sld _ _ _ => false
  | .sst _ _ _ => false
  | .cpyG2s _ _ _ _ _ _ _ _ _ _ _ => false
  | .cpyG2c _ _ _ _ _ _ _ _ _ _ => false
  | .cpyG2t _ _ _ _ _ _ _ _ _ => false
  | .cpyS2g _ _ _ _ _ _ _ _ => false
  | .cpyC2s _ _ _ _ _ _ _ _ _ _ => false
  | .cpyS2c _ _ _ _ _ _ _ _ _ => false
  | .cpym _ _ _ _ _ _ _ _ _ => false
  | .cpyx _ _ _ _ _ _ _ _ _ => false
  | .cpyg _ _ _ _ _ _ _ _ _ _ => false
  | .cred _ _ _ _ _ _ _ _ => false
  | .cpycan _ _ _ => false
  | .mres _ _ => false
  | .mfree _ => false
  | .mld _ _ _ _ => false
  | .mscl _ _ _ => false
  | .mgang _ _ => false
  | .mshape _ => false
  | .mls _ _ _ _ => false
  | .mswap => false
  | .mma _ _ _ _ _ _ _ _ => false
  | .mdrain _ _ _ _ _ => false
  | .mtab _ => false
  | .mzero _ => false
  | .mfill _ _ => false
  | .mredAdd _ _ _ => false
  | .mscanAdd _ _ _ => false
  | .launch _ _ _ => false
  | .commit => false
  | .spgrow _ _ => false
  | .lpgrow _ _ => false
  | .qwait _ => false
  | .allow _ => false
  | .tret => false
  | .pcsrr _ _ => false
  | .pcsrw _ _ => false
  | .tinv _ _ => false
  | .rqrel _ _ => false
  | .hlt _ => false
  | .brk _ => false
  | .tmark _ => false
  | .clauseIssue _ => true
  | .issueWaitLimit _ => true
  | .ydl _ => true
  | .deferralSwitch _ => true
  | .loadComplete _ => true
  | .storeComplete _ => true
  | .atomicPerform _ => true
  | .replayStallResume _ => true
  | .parkedAccessReplay _ => true
  | .heldSliceIssue _ => true
  | .copyComplete _ => true
  | .copyFailure _ _ => true
  | .credComplete _ => true
  | .engineDeferredAccept _ => true
  | .arbiterGrant _ _ => true
  | .arbiterAgeLimit _ _ => true
  | .mswapBandSwap _ _ _ => true
  | .engineOpComplete _ _ => true
  | .mldFailure _ _ => true
  | .mldStrictFmtf _ _ => true
  | .bandRailWake _ _ => true
  | .bandRailGate _ _ => true
  | .queueRecordConsume _ _ => true
  | .contextChoice _ => true
  | .placement _ _ => true
  | .teamSwapOut _ => true
  | .workgroupRetire _ => true
  | .hang _ => true
  | .sampleTick _ => true
  | .emergencyRelease => true
  | .noticeReceive _ _ => true
  | .migrationStart _ _ => true
  | .migrationArrival _ => true
  | .smLoopPass _ _ => true
  | .smhbTimeout => true
  | .islandTarget _ => true
  | .voltageRampDone _ => true
  | .settleDone _ => true
  | .frequencySwitch _ => true
  | .acq _ => true
  | .rel _ => true
  | .dzHb _ => true
  | .leaseLapse => true
  | .privRegisterWrite _ _ _ => true
  | .create _ _ => true
  | .suspend _ _ => true
  | .resume _ _ => true
  | .tear _ _ => true
  | .preemptionTimeout _ => true
  | .workgroupSave _ => true
  | .contextSaveComplete _ => true
  | .tearComplete _ => true
  | .hostRqrel _ _ _ => true
  | .tagCountWrite _ _ _ => true
  | .granuleTag _ => true
  | .attestationRequest _ _ => true
  | .attestationComplete => true
  | .stop _ _ _ => true
  | .stopSettled _ => true
  | .debugResume _ _ => true
  | .step _ _ => true
  | .stepall _ _ => true
  | .debugEdit _ _ _ => true
  | .debugRevoke _ _ _ => true
  | .traceFrame => true
  | .histogramRequest _ _ => true
  | .clr _ _ => true
  | .hostAccess _ => true
  | .credBlock _ => true
  | .linkKeying _ => true
  | .flitAuthFailure _ => true
  | .patrolScrub _ => true
  | .reset _ => true
  | .descriptorPublish _ => true
  | .destinationWrite _ => true
  | .saveBlockTransfer _ => true
  | .linkLevelRetry _ => true

end Sys2Proof
end

