-- ==== Sys2Proof/Machine/Info.lean ====
section
/-! DEFINITION. What each instruction reads and writes, as the decoder and the scoreboard see it (R18, R21, R42, R47, R135, R145). -/

namespace Sys2Proof.Machine

/-- The registers of a pair that a field names by its even index, or by its number: `x0` is `s0` alone (R40, R137). -/
def xRefs (k : Nat) : List Ref := if k = 0 then [.s 0] else [.s (2 * k), .s (2 * k + 1)]
def pairRefs (n : BitVec 6) : List Ref := xRefs (n.toNat / 2)

/-- The registers of a vector operand of `n` words (R138, R139). -/
def vopRefs (n : Nat) : VOp → List Ref
  | .v k => (List.range n).map fun i => .v (k.toNat + i)
  | .o k => (List.range n).map fun i => .o (k.toNat + i)
  | .s k => if n = 1 then [.s k.toNat] else xRefs (k.toNat / 2)
  | _ => []

/-- The latch that a vector operand names. -/
def vopLatch : VOp → List Latch
  | .latch l => [l]
  | _ => []

/-- What an instruction uses: the registers and latches it reads, the registers it writes, and its vector result. -/
structure Uses where
  reads : List Ref
  latches : List Latch
  writes : List Ref
  res : Option VRes
  types : List ConstTy := []

/-- An instruction that names no register, and one that names registers alone. -/
def Uses.none : Uses := { reads := [], latches := [], writes := [], res := Option.none }
def Uses.regs (rs ws : List Ref) : Uses := { Uses.none with reads := rs, writes := ws }

/-- More registers read. -/
def Uses.also (u : Uses) (rs : List Ref) : Uses := { u with reads := u.reads ++ rs }

/-- The element types that the instruction's word names (R395). -/
def Uses.typed (u : Uses) (ts : List ConstTy) : Uses := { u with types := ts }

/-- The FMT bit of an element type (R394); the types without one are never out of service. -/
def fmtBit : ConstTy → Option Nat
  | .f64 => some 0
  | .f32 => some 1
  | .f16 => some 2
  | .bf16 => some 3
  | .e4m3 | .e5m2 => some 4
  | .i8 | .n8 => some 5
  | .i32 | .n32 | .i16 | .raw => Option.none

/-- A vector result of 32 bits. -/
def Uses.vec (l : Latch) (rule : TagRule) (d : VOp) (srcs : List VOp) : Uses :=
  { reads := srcs.flatMap (vopRefs 1), latches := srcs.flatMap vopLatch, writes := vopRefs 1 d, res := some (res32 l rule d srcs) }

/-- A vector result in a pair, of pairs; of a 32-bit operand; and a 32-bit result of a pair (R139, R172). -/
def Uses.vec64 (d : VOp) (srcs : List VOp) : Uses :=
  { reads := srcs.flatMap (vopRefs 2), latches := [], writes := vopRefs 2 d, res := some (res64 d srcs) }
def Uses.widen (d a : VOp) : Uses :=
  { reads := vopRefs 1 a, latches := vopLatch a, writes := vopRefs 2 d, res := some { res64 d [] with srcs := [a] } }
def Uses.narrow (d a : VOp) : Uses :=
  { reads := vopRefs 2 a, latches := [], writes := vopRefs 1 d, res := some (res32 .f .plain d [a, vopNext a]) }

/-- A compare (R169). -/
def Uses.cmp (p : BitVec 3) (srcs : List VOp) : Uses :=
  { reads := srcs.flatMap (vopRefs 1), latches := srcs.flatMap vopLatch, writes := [.p p.toNat], res := Option.none }

/-- An engine reduction (R261); the destinations of a scan count against the grant. -/
def Uses.red (a : VOp) (ws : List Ref) : Uses := { reads := vopRefs 1 a, latches := vopLatch a, writes := ws, res := Option.none }
def Uses.scan (a : VOp) (d : BitVec 6) : Uses :=
  { Uses.red a [.v d.toNat, .v (d.toNat + 1)] with
    res := some { dst := [.v d, .v (d + 1)], latch := Option.none, rule := .alwaysG, srcs := [] } }

/-- The registers of an access as a result that counts against the grant (R44): tag U for a uniform load under a full mask, or G. -/
def accessRes (n : Nat) (rule : TagRule) : VOp → Option VRes
  | .v k => some { dst := (List.range n).map fun i => .v (k + BitVec.ofNat 6 i), latch := Option.none, rule := rule, srcs := [] }
  | _ => Option.none

/-- The tag rule of a load (R42, R210): a uniform address keeps tag U. -/
def loadRule (v : VOp) : TagRule := if isUniform v then .keep else .alwaysG

/-- A load, a store and an atomic of so many registers (R211, R217). -/
def Uses.load (n : Nat) (rule : TagRule) (base : List Ref) (v d : VOp) : Uses :=
  { reads := base ++ vopRefs 1 v, latches := vopLatch v, writes := vopRefs n d, res := accessRes n rule d }
def Uses.store (n : Nat) (base : List Ref) (v d : VOp) : Uses :=
  { reads := base ++ vopRefs 1 v ++ vopRefs n d, latches := vopLatch v ++ vopLatch d, writes := [], res := Option.none }
def Uses.atomic (n w : Nat) (base : List Ref) (v d : VOp) : Uses :=
  { reads := base ++ vopRefs 1 v ++ vopRefs n d, latches := vopLatch v ++ vopLatch d
    writes := if returns d then vopRefs w d else [], res := accessRes w .alwaysG d }

/-- The registers of an atomic's element (R217). -/
def tyRegs : ATy → Nat
  | .b64 => 2
  | _ => 1

/-- What each instruction uses; a machine step names no register. -/
def uses : Instr → Uses
  | .faddF32 d a b => (Uses.vec .a .plain d [a, b]).typed [.f32]
  | .faddF16Bf16 t d a b => (Uses.vec .a .plain d [a, b]).typed [t.constTy]
  | .faddF64 d a b => (Uses.vec64 d [a, b]).typed [.f64]
  | .faddFp8 t d a b => (Uses.vec .a .plain d [a, b]).typed [t.constTy]
  | .fsubF32 d a b => (Uses.vec .a .plain d [a, b]).typed [.f32]
  | .fsubF16Bf16 t d a b => (Uses.vec .a .plain d [a, b]).typed [t.constTy]
  | .fsubF64 d a b => (Uses.vec64 d [a, b]).typed [.f64]
  | .fsubFp8 t d a b => (Uses.vec .a .plain d [a, b]).typed [t.constTy]
  | .fmulF32 d a b => (Uses.vec .a .plain d [a, b]).typed [.f32]
  | .fmulF16Bf16 t d a b => (Uses.vec .a .plain d [a, b]).typed [t.constTy]
  | .fmulF64 d a b => (Uses.vec64 d [a, b]).typed [.f64]
  | .fmulFp8 t d a b => (Uses.vec .a .plain d [a, b]).typed [t.constTy]
  | .fminF32 d a b => (Uses.vec .a .plain d [a, b]).typed [.f32]
  | .fminF16Bf16 t d a b => (Uses.vec .a .plain d [a, b]).typed [t.constTy]
  | .fminF64 d a b => (Uses.vec64 d [a, b]).typed [.f64]
  | .fminFp8 t d a b => (Uses.vec .a .plain d [a, b]).typed [t.constTy]
  | .fmaxF32 d a b => (Uses.vec .a .plain d [a, b]).typed [.f32]
  | .fmaxF16Bf16 t d a b => (Uses.vec .a .plain d [a, b]).typed [t.constTy]
  | .fmaxF64 d a b => (Uses.vec64 d [a, b]).typed [.f64]
  | .fmaxFp8 t d a b => (Uses.vec .a .plain d [a, b]).typed [t.constTy]
  | .fabsF32 d a => (Uses.vec .a .plain d [a]).typed [.f32]
  | .fabsF16Bf16 t d a => (Uses.vec .a .plain d [a]).typed [t.constTy]
  | .fabsF64 d a => (Uses.vec64 d [a]).typed [.f64]
  | .fabsFp8 t d a => (Uses.vec .a .plain d [a]).typed [t.constTy]
  | .fnegF32 d a => (Uses.vec .a .plain d [a]).typed [.f32]
  | .fnegF16Bf16 t d a => (Uses.vec .a .plain d [a]).typed [t.constTy]
  | .fnegF64 d a => (Uses.vec64 d [a]).typed [.f64]
  | .fnegFp8 t d a => (Uses.vec .a .plain d [a]).typed [t.constTy]
  | .fsatF32 d a => (Uses.vec .a .plain d [a]).typed [.f32]
  | .fsatF16Bf16 t d a => (Uses.vec .a .plain d [a]).typed [t.constTy]
  | .fsatF64 d a => (Uses.vec64 d [a]).typed [.f64]
  | .fsatFp8 t d a => (Uses.vec .a .plain d [a]).typed [t.constTy]
  | .frndF32 _ d a => (Uses.vec .a .plain d [a]).typed [.f32]
  | .frndF16Bf16 t _ d a => (Uses.vec .a .plain d [a]).typed [t.constTy]
  | .frndF64 _ d a => (Uses.vec64 d [a]).typed [.f64]
  | .fdivF32 d a b => (Uses.vec .a .plain d [a, b]).typed [.f32]
  | .fdivF64 d a b => (Uses.vec64 d [a, b]).typed [.f64]
  | .fsqrtF32 d a => (Uses.vec .a .plain d [a]).typed [.f32]
  | .fsqrtF64 d a => (Uses.vec64 d [a]).typed [.f64]
  | .ffmaF32 d a b => (Uses.vec .a .plain d [a, b, d]).typed [.f32]
  | .ffmsF32 d a b => (Uses.vec .a .plain d [a, b, d]).typed [.f32]
  | .ffnmaF32 d a b => (Uses.vec .a .plain d [a, b, d]).typed [.f32]
  | .ffmaF16 d a b => (Uses.vec .a .plain d [a, b, d]).typed [.f16]
  | .ffmaBf16 d a b => (Uses.vec .a .plain d [a, b, d]).typed [.bf16]
  | .ffmaF64 d a b => (Uses.vec64 d [a, b, d]).typed [.f64]
  | .fdot2F16 d a b => (Uses.vec .a .plain d [a, b, d]).typed [.f16]
  | .fdot2Bf16 d a b => (Uses.vec .a .plain d [a, b, d]).typed [.bf16]
  | .fdot4E4m3 d a b => (Uses.vec .a .plain d [a, b, d]).typed [.e4m3]
  | .fdot4E5m2 d a b => (Uses.vec .a .plain d [a, b, d]).typed [.e5m2]
  | .idot4Ii d a b => (Uses.vec .a .plain d [a, b, d]).typed [.i8]
  | .idot4In d a b => (Uses.vec .a .plain d [a, b, d]).typed [.i8, .n8]
  | .idot4Ni d a b => (Uses.vec .a .plain d [a, b, d]).typed [.n8, .i8]
  | .idot4Nn d a b => (Uses.vec .a .plain d [a, b, d]).typed [.n8]
  | .iadd d a b => .vec .b .sum d [a, b]
  | .isub d a b => .vec .b .sum d [a, b]
  | .imul d a b => .vec .b .product d [a, b]
  | .imulhI32 d a b => .vec .b .plain d [a, b]
  | .imulhN32 d a b => .vec .b .plain d [a, b]
  | .imad d a b => .vec .b .plain d [a, b, d]
  | .iminI32 d a b => .vec .b .plain d [a, b]
  | .imaxI32 d a b => .vec .b .plain d [a, b]
  | .iminN32 d a b => .vec .b .plain d [a, b]
  | .imaxN32 d a b => .vec .b .plain d [a, b]
  | .iabs d a => .vec .b .plain d [a]
  | .ineg d a => .vec .b .affine d [a]
  | .iaddV t d a b => (Uses.vec .b .plain d [a, b]).typed [t.constTy]
  | .isubV t d a b => (Uses.vec .b .plain d [a, b]).typed [t.constTy]
  | .imulV t d a b => (Uses.vec .b .plain d [a, b]).typed [t.constTy]
  | .iminV t d a b => (Uses.vec .b .plain d [a, b]).typed [t.constTy]
  | .imaxV t d a b => (Uses.vec .b .plain d [a, b]).typed [t.constTy]
  | .iabsV t d a => (Uses.vec .b .plain d [a]).typed [t.constTy]
  | .and d a b => .vec .b .plain d [a, b]
  | .or d a b => .vec .b .plain d [a, b]
  | .xor d a b => .vec .b .plain d [a, b]
  | .not d a => .vec .b .plain d [a]
  | .andn d a b => .vec .b .plain d [a, b]
  | .shl d a b => .vec .b .plain d [a, b]
  | .shr d a b => .vec .b .plain d [a, b]
  | .sar d a b => .vec .b .plain d [a, b]
  | .bfeI d a b => .vec .b .plain d [a, b]
  | .bfeN d a b => .vec .b .plain d [a, b]
  | .bfi d a b => .vec .b .plain d [a, b, d]
  | .popc d a => .vec .b .plain d [a]
  | .clz d a => .vec .b .plain d [a]
  | .brev d a => .vec .b .plain d [a]
  | .bperm d a b => .vec .b .plain d [a, b]
  | .fcmp _ p a b => (Uses.cmp p [a, b]).typed [.f32]
  | .icmpI32 _ p a b => .cmp p [a, b]
  | .icmpN32 _ p a b => .cmp p [a, b]
  | .tabs t p a => (Uses.cmp p [a]).typed [t.constTy]
  | .cvtF32F16 d a => (Uses.vec .f .plain d [a]).typed [.f16, .f32]
  | .cvtF32Bf16 d a => (Uses.vec .f .plain d [a]).typed [.bf16, .f32]
  | .cvtF32E4m3 d a => (Uses.vec .f .plain d [a]).typed [.e4m3, .f32]
  | .cvtF32E5m2 d a => (Uses.vec .f .plain d [a]).typed [.e5m2, .f32]
  | .cvtF16F32 d a => (Uses.vec .f .plain d [a]).typed [.f32, .f16]
  | .cvtBf16F32 d a => (Uses.vec .f .plain d [a]).typed [.f32, .bf16]
  | .cvtE4m3F32 d a => (Uses.vec .f .plain d [a]).typed [.f32, .e4m3]
  | .cvtE5m2F32 d a => (Uses.vec .f .plain d [a]).typed [.f32, .e5m2]
  | .cvtF64F32 d a => (Uses.widen d a).typed [.f32, .f64]
  | .cvtF32F64 d a => (Uses.narrow d a).typed [.f64, .f32]
  | .cvtF32I32 d a => (Uses.vec .f .plain d [a]).typed [.f32]
  | .cvtF32N32 d a => (Uses.vec .f .plain d [a]).typed [.f32]
  | .cvtI32F32 d a => (Uses.vec .f .plain d [a]).typed [.f32]
  | .cvtN32F32 d a => (Uses.vec .f .plain d [a]).typed [.f32]
  | .cvtI32I8 d a => (Uses.vec .f .plain d [a]).typed [.i8]
  | .cvtI32N8 d a => (Uses.vec .f .plain d [a]).typed [.n8]
  | .cvtI8I32 d a => (Uses.vec .f .plain d [a]).typed [.i8]
  | .cvtN8I32 d a => (Uses.vec .f .plain d [a]).typed [.n8]
  | .cvtpk d a b => (Uses.vec .f .plain d [a, b]).typed [.f32, .f16]
  | .cvtup t _ d a => (Uses.vec .f .plain d [a]).typed [t.constTy, (if t = .i8 ∨ t = .n8 then .i32 else .f32)]
  | .tunpk d a _ => (Uses.vec .f .plain d [a]).typed [.n8]
  | .frcp d a => (Uses.vec .f .plain d [a]).typed [.f32]
  | .frsq d a => (Uses.vec .f .plain d [a]).typed [.f32]
  | .fexp2 d a => (Uses.vec .f .plain d [a]).typed [.f32]
  | .flog2 d a => (Uses.vec .f .plain d [a]).typed [.f32]
  | .fsin d a => (Uses.vec .f .plain d [a]).typed [.f32]
  | .fcos d a => (Uses.vec .f .plain d [a]).typed [.f32]
  | .ftanh d a => (Uses.vec .f .plain d [a]).typed [.f32]
  | .fsigm d a => (Uses.vec .f .plain d [a]).typed [.f32]
  | .shfl d a b => .vec .m .alwaysG d [a, b]
  | .shflup d a b => .vec .m .alwaysG d [a, b]
  | .shfldn d a b => .vec .m .alwaysG d [a, b]
  | .shflx d a b => .vec .m .alwaysG d [a, b]
  | .bcast d a => .vec .m .alwaysG d [a]
  | .ballot d p => (Uses.vec .m .alwaysG d []).also [.p p.toNat]
  | .vany d p => (Uses.vec .m .alwaysG d []).also [.p p.toNat]
  | .vall d p => (Uses.vec .m .alwaysG d []).also [.p p.toNat]
  | .wredAddF32 d a => (Uses.vec .m .alwaysG d [a]).typed [.f32]
  | .wredMaxF32 d a => (Uses.vec .m .alwaysG d [a]).typed [.f32]
  | .wredAddI32 d a => .vec .m .alwaysG d [a]
  | .wscanAddF32 d a => (Uses.vec .m .alwaysG d [a]).typed [.f32]
  | .wscanAddI32 d a => .vec .m .alwaysG d [a]
  | .lanes d => .vec .m .alwaysG d []
  | .mov d a => .vec .b .keep d [a]
  | .sel d p a b => (Uses.vec .b .alwaysG d [a, b]).also [.p p.toNat]
  | .toabs t d a p => ((Uses.vec .b .alwaysG d [a]).also [.p p.toNat]).typed [t.constTy]
  | .defabs t d a b => (Uses.vec .b .plain d [a, b]).typed [t.constTy]
  | .plog _ d a b => .regs [.p a.toNat, .p b.toNat] [.p d.toNat]
  | .gtag d a => .regs [.v a.toNat] [.s d.toNat]
  | .mkg d a => .vec .b .alwaysG d [a]
  | .iaddi d a _ => .vec .b .affine d [a]
  | .andi d a _ => .vec .b .plain d [a]
  | .ori d a _ => .vec .b .plain d [a]
  | .xori d a _ => .vec .b .plain d [a]
  | .shli d a _ => .vec .b .affine d [a]
  | .shri d a _ => .vec .b .plain d [a]
  | .sari d a _ => .vec .b .plain d [a]
  | .movi d _ => .vec .b .plain d []
  | .sadd d a b => .regs [.s a.toNat, .s b.toNat] [.s d.toNat]
  | .ssub d a b => .regs [.s a.toNat, .s b.toNat] [.s d.toNat]
  | .smul d a b => .regs [.s a.toNat, .s b.toNat] [.s d.toNat]
  | .smulhI d a b => .regs [.s a.toNat, .s b.toNat] [.s d.toNat]
  | .smulhN d a b => .regs [.s a.toNat, .s b.toNat] [.s d.toNat]
  | .sminI d a b => .regs [.s a.toNat, .s b.toNat] [.s d.toNat]
  | .smaxI d a b => .regs [.s a.toNat, .s b.toNat] [.s d.toNat]
  | .sminN d a b => .regs [.s a.toNat, .s b.toNat] [.s d.toNat]
  | .smaxN d a b => .regs [.s a.toNat, .s b.toNat] [.s d.toNat]
  | .sand d a b => .regs [.s a.toNat, .s b.toNat] [.s d.toNat]
  | .sor d a b => .regs [.s a.toNat, .s b.toNat] [.s d.toNat]
  | .sxor d a b => .regs [.s a.toNat, .s b.toNat] [.s d.toNat]
  | .sshl d a b => .regs [.s a.toNat, .s b.toNat] [.s d.toNat]
  | .sshr d a b => .regs [.s a.toNat, .s b.toNat] [.s d.toNat]
  | .ssar d a b => .regs [.s a.toNat, .s b.toNat] [.s d.toNat]
  | .sbfeI d a b => .regs [.s a.toNat, .s b.toNat] [.s d.toNat]
  | .sbfeN d a b => .regs [.s a.toNat, .s b.toNat] [.s d.toNat]
  | .sbfi d a b => .regs [.s a.toNat, .s b.toNat, .s d.toNat] [.s d.toNat]
  | .spopc d a => .regs [.s a.toNat] [.s d.toNat]
  | .sclz d a => .regs [.s a.toNat] [.s d.toNat]
  | .sadd64 d a b => .regs (pairRefs a ++ pairRefs b) (pairRefs d)
  | .ssub64 d a b => .regs (pairRefs a ++ pairRefs b) (pairRefs d)
  | .sshl64 d a b => .regs (pairRefs a ++ [.s b.toNat]) (pairRefs d)
  | .scmpEq d a b => .regs [.s a.toNat, .s b.toNat] [.s d.toNat]
  | .scmpLtI d a b => .regs [.s a.toNat, .s b.toNat] [.s d.toNat]
  | .scmpLtN d a b => .regs [.s a.toNat, .s b.toNat] [.s d.toNat]
  | .saddi d a _ => .regs [.s a.toNat] [.s d.toNat]
  | .sandi d a _ => .regs [.s a.toNat] [.s d.toNat]
  | .sori d a _ => .regs [.s a.toNat] [.s d.toNat]
  | .sxori d a _ => .regs [.s a.toNat] [.s d.toNat]
  | .sshli d a _ => .regs [.s a.toNat] [.s d.toNat]
  | .sshri d a _ => .regs [.s a.toNat] [.s d.toNat]
  | .ssari d a _ => .regs [.s a.toNat] [.s d.toNat]
  | .scmpiLt d a _ => .regs [.s a.toNat] [.s d.toNat]
  | .smovi d _ => .regs [] [.s d.toNat]
  | .srd d _ => .regs [] [.s d.toNat]
  | .swr _ s => .regs [.s s.toNat] []
  | .vtos d a l => .regs [.v a.toNat, .s l.toNat] [.s d.toNat]
  | .stov d s => (Uses.vec .m .plain (.v d) []).also [.s s.toNat]
  | .smovw d _ => .regs [] [.s d.toNat]
  | .bdset d a c => .regs (pairRefs a ++ [.s c.toNat, .s (c.toNat + 1)]) [.b d.toNat]
  | .slui d _ => .regs [] [.s d.toNat]
  | .bra _ => .none
  | .bpt p _ _ => .regs [.p p.toNat] []
  | .bpf p _ _ => .regs [.p p.toNat] []
  | .bany p _ => .regs [.p p.toNat] []
  | .ball p _ => .regs [.p p.toNat] []
  | .bnz s _ => .regs [.s s.toNat] []
  | .bz s _ => .regs [.s s.toNat] []
  | .jmp _ => .none
  | .loop _ s _ => .regs [.s s.toNat] []
  | .loopi _ _ _ => .none
  | .lbrk _ => .none
  | .nop => .none
  | .rcv _ => .none
  | .call _ => .none
  | .callr x => .regs (xRefs x.toNat) []
  | .ret => .none
  | .jr x => .regs (xRefs x.toNat) []
  | .yield _ _ => .none
  | .yieldc _ _ _ _ _ _ _ => .none
  | .exit => .none
  | .trap _ => .none
  | .wait _ _ _ _ => .none
  | .barinit _ o n b => .regs [.s o.toNat, .s n.toNat, .s b.toNat] []
  | .barexp _ o b => .regs [.s o.toNat, .s b.toNat] []
  | .bararr _ t o => .regs [.s o.toNat] [.s t.toNat]
  | .barwait _ o t => .regs [.s o.toNat, .s t.toNat] []
  | .bartry _ r o t => .regs [.s o.toNat, .s t.toNat] [.s r.toNat]
  | .ringinit _ o c d => .regs [.s o.toNat, .s d.toNat, .s c.toNat, .s (c.toNat + 1)] []
  | .awaitf _ i o j => .regs [.s o.toNat, .s j.toNat] [.s i.toNat]
  | .rels _ o => .regs [.s o.toNat] []
  | .wgbar => .none
  | .ldg z _ _ d b v _ => .load (regCount (ldBytes z).1) (loadRule v) (xRefs b.toNat) v d
  | .stg z _ _ b v _ d => .store (regCount (stBytes z)) (xRefs b.toNat) v d
  | .ldsp z _ d b v _ => .load (regCount (ldBytes z).1) (loadRule v) (xRefs b.toNat) v d
  | .ldcl z _ d b v _ => .load (regCount (ldBytes z).1) (loadRule v) (xRefs b.toNat) v d
  | .ldst z _ d b v _ => .load (regCount (ldBytes z).1) (loadRule v) (xRefs b.toNat) v d
  | .ldlp z _ d b v _ => .load (regCount (ldBytes z).1) .alwaysG (xRefs b.toNat) v d
  | .stsp z _ b v _ d => .store (regCount (stBytes z)) (xRefs b.toNat) v d
  | .stcl z _ b v _ d => .store (regCount (stBytes z)) (xRefs b.toNat) v d
  | .stst z _ b v _ d => .store (regCount (stBytes z)) (xRefs b.toNat) v d
  | .stlp z _ b v _ d => .store (regCount (stBytes z)) (xRefs b.toNat) v d
  | .ldb z _ _ d b v _ => .load (regCount (ldBytes z).1) (loadRule v) [.b b.toNat] v d
  | .stb z _ _ b v _ d => .store (regCount (stBytes z)) [.b b.toNat] v d
  | .aadd _ t d b v => (Uses.atomic (tyRegs t) (tyRegs t) (xRefs b.toNat) v d).typed [(if t = .f32 then .f32 else .i32)]
  | .amin _ t d b v => (Uses.atomic (tyRegs t) (tyRegs t) (xRefs b.toNat) v d).typed [(if t = .f32 then .f32 else .i32)]
  | .amax _ t d b v => (Uses.atomic (tyRegs t) (tyRegs t) (xRefs b.toNat) v d).typed [(if t = .f32 then .f32 else .i32)]
  | .aand _ t d b v => .atomic (tyRegs t) (tyRegs t) (xRefs b.toNat) v d
  | .aor _ t d b v => .atomic (tyRegs t) (tyRegs t) (xRefs b.toNat) v d
  | .axor _ t d b v => .atomic (tyRegs t) (tyRegs t) (xRefs b.toNat) v d
  | .axch _ t d b v => (Uses.atomic (tyRegs t) (tyRegs t) (xRefs b.toNat) v d).typed [(if t = .f32 then .f32 else .i32)]
  | .acas _ t d b v => .atomic (2 * tyRegs t) (tyRegs t) (xRefs b.toNat) v d
  | .aacc _ d b v => (Uses.atomic 2 2 (xRefs b.toNat) v d).typed [.f32]
  | .ainc _ _ d b v => .atomic 1 1 (xRefs b.toNat) v d
  | .aaddSpace _ _ t d v => (Uses.atomic (tyRegs t) (tyRegs t) [] v d).typed [(if t = .f32 then .f32 else .i32)]
  | .aminSpace _ _ t d v => (Uses.atomic (tyRegs t) (tyRegs t) [] v d).typed [(if t = .f32 then .f32 else .i32)]
  | .amaxSpace _ _ t d v => (Uses.atomic (tyRegs t) (tyRegs t) [] v d).typed [(if t = .f32 then .f32 else .i32)]
  | .aandSpace _ _ t d v => .atomic (tyRegs t) (tyRegs t) [] v d
  | .aorSpace _ _ t d v => .atomic (tyRegs t) (tyRegs t) [] v d
  | .axorSpace _ _ t d v => .atomic (tyRegs t) (tyRegs t) [] v d
  | .axchSpace _ _ t d v => (Uses.atomic (tyRegs t) (tyRegs t) [] v d).typed [(if t = .f32 then .f32 else .i32)]
  | .acasSpace _ _ t d v => .atomic (2 * tyRegs t) (tyRegs t) [] v d
  | .aaccSpace _ _ d v => (Uses.atomic 2 2 [] v d).typed [.f32]
  | .aincSpace _ _ _ d v => .atomic 1 1 [] v d
  | .fence _ _ => .none
  | .cprf _ a _ => .regs (pairRefs a) []
  | .cflush a d => .regs (pairRefs a ++ [.s d.toNat]) []
  | .sld d a _ => .regs (pairRefs a) [.s d.toNat]
  | .sst a _ d => .regs (pairRefs a ++ [.s d.toNat]) []
  | .cpyG2s dst src len _ obj idx rows stride _ _ fill => .regs ([.s dst.toNat] ++ pairRefs src ++ (if fill then pairRefs len else [.s len.toNat]) ++ [.s obj.toNat, .s idx.toNat, .s rows.toNat, .s stride.toNat]) []
  | .cpyG2c dst src len _ obj idx rows stride _ fill => .regs ([.s dst.toNat] ++ pairRefs src ++ (if fill then pairRefs len else [.s len.toNat]) ++ [.s obj.toNat, .s idx.toNat, .s rows.toNat, .s stride.toNat]) []
  | .cpyG2t dst src len _ obj idx rows stride fill => .regs ([.s dst.toNat] ++ pairRefs src ++ (if fill then pairRefs len else [.s len.toNat]) ++ [.s obj.toNat, .s idx.toNat, .s rows.toNat, .s stride.toNat]) []
  | .cpyS2g dst src len _ obj idx rows stride => .regs (pairRefs dst ++ [.s src.toNat] ++ [.s len.toNat] ++ [.s obj.toNat, .s idx.toNat, .s rows.toNat, .s stride.toNat]) []
  | .cpyC2s dst src len _ obj idx rows stride _ _ => .regs ([.s dst.toNat] ++ [.s src.toNat] ++ [.s len.toNat] ++ [.s obj.toNat, .s idx.toNat, .s rows.toNat, .s stride.toNat]) []
  | .cpyS2c dst src len _ obj idx rows stride _ => .regs ([.s dst.toNat] ++ [.s src.toNat] ++ [.s len.toNat] ++ [.s obj.toNat, .s idx.toNat, .s rows.toNat, .s stride.toNat]) []
  | .cpym dst src len _ obj idx rows stride fill => .regs (pairRefs dst ++ pairRefs src ++ (if fill then pairRefs len else [.s len.toNat]) ++ [.s obj.toNat, .s idx.toNat, .s rows.toNat, .s stride.toNat]) []
  | .cpyx dst src len _ obj idx rows stride _ => .regs ([.s dst.toNat] ++ [.s src.toNat] ++ [.s len.toNat] ++ [.s obj.toNat, .s idx.toNat, .s rows.toNat, .s stride.toNat]) []
  | .cpyg dst src len _ obj idx rows stride _ fill => .regs ([.s dst.toNat] ++ [.s src.toNat] ++ (if fill then pairRefs len else [.s len.toNat]) ++ [.s obj.toNat, .s idx.toNat, .s rows.toNat, .s stride.toNat]) []
  | .cred dst src len _ obj idx rows stride => .regs (pairRefs dst ++ pairRefs src ++ [.s len.toNat] ++ [.s obj.toNat, .s idx.toNat, .s rows.toNat, .s stride.toNat]) []
  | .cpycan n _ obj => .regs [.s obj.toNat] [.s n.toNat]
  | .mres _ _ => .none
  | .mfree _ => .none
  | .mld q _ s p => .regs ((if q = .global then xRefs (s.toNat / 2) else [.s s.toNat]) ++ [.s p.toNat]) []
  | .mscl _ _ o => .regs [.s o.toNat] []
  | .mgang b _ => .regs [.s b.toNat] []
  | .mshape _ => .none
  | .mls _ s _ o => .regs (if s then [.s o.toNat] else []) []
  | .mswap => .none
  | .mma _ _ q _ _ _ _ _ => .regs [.s q.toNat] []
  | .mdrain _ _ o _ _ => .regs [.s o.toNat] []
  | .mtab _ => .none
  | .mzero _ => .none
  | .mfill _ _ => .none
  | .mredAdd t d a => (Uses.red a [.s d.toNat, .s (d.toNat + 1)]).typed [t.constTy]
  | .mscanAdd t d a => (Uses.scan a d).typed [t.constTy]
  | .launch d a q => .regs (pairRefs a ++ [.s q.toNat]) [.s d.toNat]
  | .commit => .none
  | .spgrow d a => .regs [.s a.toNat] [.s d.toNat]
  | .lpgrow d a => .regs [.s a.toNat] [.s d.toNat]
  | .qwait d => .regs [] [.s d.toNat]
  | .allow a => .regs (pairRefs a) []
  | .tret => .none
  | .pcsrr d a => .regs [.s a.toNat] [.s d.toNat]
  | .pcsrw a b => .regs [.s a.toNat, .s b.toNat] []
  | .tinv a b => .regs (pairRefs a ++ [.s b.toNat]) []
  | .rqrel a b => .regs (pairRefs a ++ [.s b.toNat]) []
  | .hlt d => .regs (pairRefs d) []
  | .brk _ => .none
  | .tmark _ => .none
  | .clauseIssue _ => .none
  | .issueWaitLimit _ => .none
  | .ydl _ => .none
  | .deferralSwitch _ => .none
  | .loadComplete _ => .none
  | .storeComplete _ => .none
  | .atomicPerform _ => .none
  | .replayStallResume _ => .none
  | .parkedAccessReplay _ => .none
  | .heldSliceIssue _ => .none
  | .copyComplete _ => .none
  | .copyFailure _ _ => .none
  | .credComplete _ => .none
  | .engineDeferredAccept _ => .none
  | .arbiterGrant _ _ => .none
  | .arbiterAgeLimit _ _ => .none
  | .mswapBandSwap _ _ _ => .none
  | .engineOpComplete _ _ => .none
  | .mldFailure _ _ => .none
  | .mldStrictFmtf _ _ => .none
  | .bandRailWake _ _ => .none
  | .bandRailGate _ _ => .none
  | .queueRecordConsume _ _ => .none
  | .contextChoice _ => .none
  | .placement _ _ => .none
  | .teamSwapOut _ => .none
  | .workgroupRetire _ => .none
  | .hang _ => .none
  | .sampleTick _ => .none
  | .emergencyRelease => .none
  | .noticeReceive _ _ => .none
  | .migrationStart _ _ => .none
  | .migrationArrival _ => .none
  | .smLoopPass _ _ => .none
  | .smhbTimeout => .none
  | .islandTarget _ => .none
  | .voltageRampDone _ => .none
  | .settleDone _ => .none
  | .frequencySwitch _ => .none
  | .acq _ => .none
  | .rel _ => .none
  | .dzHb _ => .none
  | .leaseLapse => .none
  | .privRegisterWrite _ _ _ => .none
  | .create _ _ => .none
  | .suspend _ _ => .none
  | .resume _ _ => .none
  | .tear _ _ => .none
  | .preemptionTimeout _ => .none
  | .workgroupSave _ => .none
  | .contextSaveComplete _ => .none
  | .tearComplete _ => .none
  | .hostRqrel _ _ _ => .none
  | .tagCountWrite _ _ _ => .none
  | .granuleTag _ => .none
  | .attestationRequest _ _ => .none
  | .attestationComplete => .none
  | .stop _ _ _ => .none
  | .stopSettled _ => .none
  | .debugResume _ _ => .none
  | .step _ _ => .none
  | .stepall _ _ => .none
  | .debugEdit _ _ _ => .none
  | .debugRevoke _ _ _ => .none
  | .traceFrame => .none
  | .histogramRequest _ _ => .none
  | .clr _ _ => .none
  | .hostAccess _ => .none
  | .credBlock _ => .none
  | .linkKeying _ => .none
  | .flitAuthFailure _ => .none
  | .patrolScrub _ => .none
  | .reset _ => .none
  | .descriptorPublish _ => .none
  | .destinationWrite _ => .none
  | .saveBlockTransfer _ => .none
  | .linkLevelRetry _ => .none

end Sys2Proof.Machine
end

