-- ==== Sys2Proof/Machine/Launch.lean ====
section
/-! DEFINITION. Launching, waiting for children, phases and budgets, opcode 0x23 (R263 to R277), and the access of one context's
memory that they share with the grid unit (R397). -/

namespace Sys2Proof.Machine

/-! ### Ranges of a context's memory -/

/-- What the checks of a range give: every granule is present and passes, the lowest address on a page without a mapping, or a
fault. -/
inductive RangeRes where
  | ok
  | absent (addr : Nat)
  | fault (cause addr1 addr2 : Nat)

/-- The granules of a range, as accesses of some kinds. -/
def rangePieces (ks : List AccKind) (ptr n : Nat) : List (AccKind × Nat × Nat) :=
  (List.range (ceilDiv n 16)).flatMap fun i => ks.map fun k => (k, (ptr + 16 * i) % 2 ^ 64, if n < 16 * i + 16 then n - 16 * i else 16)

/-- Whether an access of a range must wait for a port (R385). -/
def State.rangeWaits (s : State) (stack ctx : Nat) (ks : List AccKind) (ptr n : Nat) : Bool :=
  (rangePieces ks ptr n).any fun p => s.accessWaits stack ctx p.1 p.2.1 p.2.2

/-- The checks of a range of a context's memory: PGPR, an uncorrectable error among it (R390), then TAGF, then a missing mapping. -/
def State.rangeCheck (s : State) (stack ctx : Nat) (ks : List AccKind) (ptr n : Nat) : RangeRes :=
  let ps := rangePieces ks ptr n
  match s.piecesFail stack ctx true ps, s.copyAbsent stack ctx ps with
  | some (x, a, b), _ => .fault x a b
  | none, a :: _ => .absent a
  | none, [] => .ok

/-- Bytes stored within one granule at a pointer of a context, every line of it that an L1 holds written back first. -/
def State.devicePut (s : State) (stack c ptr : Nat) (bytes : List Byte) : State :=
  match s.xlate stack c .store ptr bytes.length with
  | .ok phys _ =>
    ((s.touch stack c .store ptr).l1Evict s.l1Cols (fun a => a / 16 == physAddr phys / 16)).storeBytes phys bytes
  | _ => s

/-- An entity waits at its word for a page (R104, R269, R338): an entry of the replay queue without lanes, and the page's record. -/
def State.parkEntity (s : State) (eid : Nat) (e : Entity) (t : Team) (pc : Word64) (word page addr : Nat) : State :=
  let (id, s) := s.fresh
  let r : ReplayEntry := { op := 0, ent := eid, team := e.team, part := s.partOf t, page := page, lanes := [], bytes := 0
                           released := false, fail := false }
  let s := { s with replay := tabPut s.replay id r }
  let s := (s.fqFault t (parkRecord e.fragCode e.mask pc word addr)).countEvent (s.ctxOf t) 9 1
  s.modEnt eid fun e => { e with parkedPc := some page }

/-! ### Launch records (R263, R264) -/

/-- A field of a record. -/
def recField (b : List Byte) (off n : Nat) : Nat := leNat ((b.drop off).take n)

/-- A launch record's fields. -/
def recOf (b : List Byte) : LaunchRec :=
  let w (o : Nat) : Nat := recField b o 4
  { entry := recField b 0 8, param := recField b 8 8, lanes := w 0x10 % 65536, teams := bitsOf (w 0x10) 19 16
    axes := bitsOf (w 0x10) 25 24, prio := bitsOf (w 0x10) 27 26, cluster := bitOf (w 0x10) 28, split := bitOf (w 0x10) 29
    det := bitOf (w 0x10) 30, grant := w 0x14 % 128
    ord := [w 0x18 % 4, w 0x18 / 4 % 4, w 0x18 / 16 % 4].take (w 0x18 / 64 % 4)
    stmem := w 0x1C, ext := ⟨w 0x20, w 0x24, w 0x28⟩, clmem := w 0x2C, grain := ⟨w 0x30, w 0x34, w 0x38⟩
    smallest := ⟨w 0x40, w 0x44, w 0x48⟩, spad := w 0x50, spadMax := w 0x54, lane := w 0x58, laneMax := w 0x5C
    allow := recField b 0x60 8, wbase := recField b 0x68 8, wstride := w 0x70, wbytes := w 0x74 }

/-- Whether a record is valid (R264, also for that of R282: log 36); `link` says that its LINK word is `launch`'s. -/
def recValid (b : List Byte) (link : Bool) : Bool :=
  let r := recOf b
  let w (o : Nat) : Nat := recField b o 4
  let byteCounts := [r.spad, r.spadMax, r.lane, r.laneMax, r.stmem, r.clmem]
  let nord := bitsOf (w 0x18) 7 6
  bitsOf (w 0x10) 23 20 == 0 && bitsOf (w 0x10) 31 31 == 0 && bitsOf (w 0x14) 31 7 == 0 && bitsOf (w 0x18) 31 8 == 0 &&
  w 0x3C == 0 && w 0x4C == 0 && w 0x7C == 0 && (link || w 0x78 == 0) &&
  r.entry % 4 == 0 && decide (32 ≤ r.lanes) && decide (r.lanes ≤ 1024) && r.lanes % 32 == 0 &&
  decide (1 ≤ r.teams) && decide (r.teams ≤ 8) && decide (1 ≤ r.axes) &&
  ((List.range 3).all fun a =>
    if a < r.axes then decide (1 ≤ r.ext.axis a) && decide (r.ext.axis a ≤ 2 ^ 31) && decide (1 ≤ r.grain.axis a) &&
      decide (r.grain.axis a ≤ r.ext.axis a) && decide (1 ≤ r.smallest.axis a) && decide (r.smallest.axis a ≤ r.grain.axis a)
    else r.ext.axis a == 1 && r.grain.axis a == 1 && r.smallest.axis a == 1) &&
  decide (r.grant ≤ 64) && decide (r.grant * r.lanes * 4 ≤ 262144) && decide (r.laneMax * r.lanes ≤ 262144) &&
  decide (r.spad ≤ r.spadMax) && decide (r.spadMax ≤ 8388608) && decide (r.lane ≤ r.laneMax) &&
  byteCounts.all (fun n => n % 256 == 0) && decide (r.stmem ≤ 67108864) && decide (r.clmem ≤ 8388608) &&
  (if r.split then decide (1 ≤ nord) && decide (nord ≤ r.axes) && r.ord.all (fun a => decide (a < r.axes)) && r.ord.Nodup && !r.cluster
   else nord == 0) &&
  (r.clmem == 0 || r.cluster) && r.allow != 0

/-! ### Queue headers (R265) -/

/-- What a queue's header holds. -/
structure QueueHdr where
  rbase : Nat
  tickets : Nat
  en : Bool
  logs : Nat
  head : Nat
  done : Nat
  tail : Nat

/-- Where a queue's header lies; its words as the device loads them; and where record `j` of its ring lies. -/
def State.queueAddr (s : State) (c q : Nat) : Nat := ((s.ctx c).qtBase.toNat + 64 * q) % 2 ^ 64
def State.queueHdr (s : State) (stack c q : Nat) : QueueHdr :=
  let b := s.deviceLoad stack c (s.queueAddr c q) 48
  { rbase := recField b 0 8, tickets := recField b 8 2, en := bitOf (recField b 10 1) 0, logs := recField b 12 1 % 16
    head := recField b 16 4, done := recField b 24 4, tail := recField b 32 4 }
def QueueHdr.slot (h : QueueHdr) (j : Nat) : Nat := (h.rbase + 128 * (j % 2 ^ h.logs)) % 2 ^ 64

/-- Whether a ring has a size (R265). -/
def QueueHdr.sized (h : QueueHdr) : Bool := decide (1 ≤ h.logs) && decide (h.logs ≤ 12)

/-- How many published records a ring holds. -/
def QueueHdr.used (h : QueueHdr) : Nat := (h.tail + 4294967296 - h.head) % 4294967296

/-- The key of a launched record among its context's links. -/
def linkKey (q index : Nat) : Nat := q * 4294967296 + index

/-! ### `launch` (R269) -/

/-- The current word of opcode 0x23 waits: its destination scalar stays pending until it completes (R268). -/
def Cur.holdPending (c : Cur) (s : State) (d : Nat) (h : Hold) : State :=
  if c.t.pend.any (fun p => p.op == c.eid) then c.holdAt s h
  else c.holdAt (s.fresh.2.modTeam c.e.team fun t => t.addPend c.eid s.fresh.1 [.s d]) h

/-- The current word of opcode 0x23 is done with a result. -/
def Cur.doneScalar (c : Cur) (s : State) (d : Nat) (n : Word) : State := c.teamWord s fun t => (t.clearPend c.eid).setS d n

/-- A `launch` whose range is not ready: it faults, or it parks; what follows starts from what the translations leave (R335). -/
def Cur.launchCheck (c : Cur) (s : State) (d : Nat) (ks : List AccKind) (ptr n : Nat) (rest : State → State) : State :=
  if s.rangeWaits (s.stackOf c.t) (s.ctxOf c.t) ks ptr n then c.holdPending s d .order
  else match s.rangeCheck (s.stackOf c.t) (s.ctxOf c.t) ks ptr n with
  | .fault x a b => c.raiseWith s { c.fault x a with addr2 := b }
  | .absent a =>
    if !s.replayRoom (s.partOf c.t) 1 0 then c.holdPending s d .replay
    else c.holdPending (s.parkEntity c.eid c.e c.t c.i.pc (c.i.next + 1) (pageOf a) a) d .record
  | .ok => rest (if ks.contains .load then s.touchRange (s.stackOf c.t) (s.ctxOf c.t) ptr n else s)

/-- The effect of a `launch` whose checks have passed (R269). -/
def Cur.launchWrite (c : Cur) (s : State) (d q depth : Nat) (rcd : List Byte) : State :=
  let ctx := s.ctxOf c.t
  let stack := s.stackOf c.t
  let h := s.queueHdr stack ctx q
  if !h.en || !h.sized then c.doneScalar s d 2
  else if 2 ^ h.logs ≤ h.used then c.doneScalar s d 1
  else
    c.launchCheck s d [.store] (h.slot h.tail) 128 fun s =>
      let (id, s) := s.fresh
      let link := leBytes 4 (Config.linkWord (depth + 1) c.t.wg).toNat
      let s := s.deviceStore stack ctx (h.slot h.tail) (rcd.take 0x78 ++ link ++ rcd.drop 0x7C)
      let s := s.devicePut stack ctx (s.queueAddr ctx q + 32) (leBytes 4 ((h.tail + 1) % 4294967296))
      let s := s.modCtx ctx fun x => { x with links := tabPut x.links (linkKey q h.tail) (id, depth + 1, c.t.wg) }
      c.doneScalar (s.modWg c.t.wg fun w => { w with kids := w.kids ++ [id] }) d 0

/-- `launch` (R269): its checks in order, then the record is published.  It reads the record once every earlier access of its entity is
performed, those before it in program order among them (R111, R120). -/
def execLaunch (d a q : BitVec 6) (s : State) : Host.Outcome State Fault Refusal :=
  withCur s fun c =>
    let ptr := (c.t.xreg (a.toNat / 2)).toNat
    let n := (c.t.sreg q.toNat).toNat
    let depth := match s.gridOf c.t with | some g => g.depth | none => 0
    let ctx := s.ctxOf c.t
    let stack := s.stackOf c.t
    if c.e.parkedPc.isSome then c.holdPending s d.toNat .record
    else if s.inPhase c.t then c.raise s cWINV 0
    else if 10 ≤ depth then c.raise s cLDEPTH 0
    else if 63 < n then c.illop s
    else if ptr % 128 ≠ 0 then c.raise s cALGN ptr
    else if !s.settledEnt c.eid then c.holdPending s d.toNat .order
    else
      c.launchCheck (s.observe c.t) d.toNat [.load] ptr 128 fun s =>
        let rcd := s.deviceLoad stack ctx ptr 128
        if !recValid rcd false then c.illop s
        else c.launchCheck s d.toNat [.load, .store] (s.queueAddr ctx n) 64 fun s => c.launchWrite s d.toNat n depth rcd

/-! ### Phases and budgets -/

/-- `commit` (R273). -/
def execCommit (s : State) : Host.Outcome State Fault Refusal := withCur s fun c => c.rendezvous s true

/-- `spgrow` (R276). -/
def execSpgrow (d a : BitVec 6) (s : State) : Host.Outcome State Fault Refusal :=
  withCur s fun c =>
    let n := (c.t.sreg a.toNat).toNat
    let z := match s.wgOf c.t with | some w => w.spadSize | none => 0
    let m := match s.gridOf c.t with | some g => g.rcd.spadMax | none => 0
    if n % 256 ≠ 0 then c.raise s cALGN n
    else if m < z + n then c.exhaust s cXSPAD
    else c.teamWord (s.modWg c.t.wg fun w => { w with spadSize := z + n }) fun t => t.setS d.toNat (BitVec.ofNat 32 z)

/-- The call area of a team's deepest lane (R195). -/
def Team.callArea (t : Team) (laneMax : Nat) : Nat :=
  (List.range t.lanes).foldl (fun m l =>
    let d := t.depth laneMax l
    let n := if d = 0 then 0 else 8 * (d + 1)
    if m < n then n else m) 0

/-- `lpgrow` (R276). -/
def execLpgrow (d a : BitVec 6) (s : State) : Host.Outcome State Fault Refusal :=
  withCur s fun c =>
    let n := (c.t.sreg a.toNat).toNat
    let z := c.t.laneSize
    if n % 256 ≠ 0 then c.raise s cALGN n
    else if c.laneMax s < z + n + c.t.callArea (c.laneMax s) then c.exhaust s cXLANE
    else c.teamWord s fun t => { t.setS d.toNat (BitVec.ofNat 32 z) with laneSize := z + n }

/-- A child grid has retired: it has been consumed, and it is marked so. -/
def State.kidDone (s : State) (k : Nat) : Bool := match tabGet s.grids k with | some g => g.retired | none => false

/-- How many of a child grid and the grids below it had an entity ended by a fault (R270). -/
def State.kidFaults (s : State) (k : Nat) : Nat :=
  match tabGet s.grids k with | some g => g.below + (if g.faulted then 1 else 0) | none => 0

/-- `qwait` (R270): the children whose `launch` completed before it issued. -/
def execQwait (d : BitVec 6) (s : State) : Host.Outcome State Fault Refusal :=
  withCur s fun c =>
    if c.e.isFrag || !(s.kids c.eid).isEmpty || !c.e.slots.isEmpty then c.illop s
    else
      let since := c.e.arrived.getD s.nextId
      let kids := (match s.wgOf c.t with | some w => w.kids | none => []).filter fun k => decide (k < since)
      if kids.all s.kidDone then
        let n := (kids.map s.kidFaults).sum
        c.doneScalar ((s.observe c.t).modEnt c.eid fun e => { e with arrived := none }) d.toNat (BitVec.ofNat 32 n)
      else c.holdPending (s.modEnt c.eid fun e => { e with arrived := some since }) d.toNat .qwait

/-- `allow` (R277): XALW in the compute phase where too few words remain. -/
def execAllow (a : BitVec 6) (s : State) : Host.Outcome State Fault Refusal :=
  withCur s fun c =>
    match s.wgOf c.t, s.gridOf c.t with
    | some w, some g =>
      if w.phase && decide ((g.rcd.allow : Int) - w.words < (c.t.xreg (a.toNat / 2)).toNat) then c.exhaust s cXALW else c.advance s 1
    | _, _ => c.advance s 1

end Sys2Proof.Machine
end

