-- ==== Sys2Proof/Machine/Issue.lean ====
section
/-! DEFINITION. Clauses: their fetch (R130, R338), the decoder's checks (R131 to R135, R145), the issue rule (R20 to R22, R25) and the
checks made at issue (R18, R44, R176, R216, R277); the yield deadline and the watchdog (R201, R346). -/

namespace Sys2Proof.Machine

/-! ### Words by their opcode map (R132, R133, R142) -/

/-- Whether the opcode map assigns a word's OPC and the function codes of its format (R142). -/
def fnAssigned (w : Nat) : Bool :=
  let fn := fld w 25 21
  let fn8 := fld w 25 18
  let fn4 := fld w 25 22
  let sz := fld w 25 23
  let hint := fld w 22 19
  let stSz : Bool := sz == 0 || sz == 2 || sz == 4 || sz == 5 || sz == 6
  match fld w 31 26 with
  | 0x01 | 0x04 => decide (fn ≤ 13)
  | 0x02 | 0x03 => decide (fn ≤ 11)
  | 0x05 => decide (fn % 16 ≤ 7)
  | 0x06 => decide (fn ≤ 13)
  | 0x07 => decide (fn ≤ 11)
  | 0x08 => decide (fn % 8 ≤ 5)
  | 0x09 => decide (fn ≤ 14)
  | 0x0A | 0x0F | 0x13 => true
  | 0x0B => decide (fn ≤ 20)
  | 0x0C => decide (fn ≤ 7)
  | 0x0D => decide (fn ≤ 13)
  | 0x0E => decide (fn ≤ 29)
  | 0x10 => decide (fn8 ≤ 25)
  | 0x11 => decide (fn4 ≤ 8)
  | 0x12 => decide (fn8 ≤ 5)
  | 0x14 => decide (fn4 ≤ 7)
  | 0x15 => decide (fn4 ≤ 2)
  | 0x16 => decide (fn4 ≤ 10)
  | 0x17 => decide (fn4 ≤ 8)
  | 0x18 => decide (sz ≤ 6)
  | 0x19 => stSz && decide (hint / 4 ≤ 2)
  | 0x1A => decide (sz ≤ 6) && decide (hint % 4 ≤ 1)
  | 0x1B => stSz && decide (hint % 4 ≤ 1)
  | 0x1C => if hint / 8 = 0 then decide (sz ≤ 6) else stSz && decide (hint / 2 % 4 ≤ 2)
  | 0x1D | 0x1E => decide (fn4 ≤ 9)
  | 0x1F => decide (fn4 ≤ 4)
  | 0x20 => decide (fn4 ≤ 10)
  | 0x21 => decide (fn4 ≤ 3)
  | 0x22 => decide (fn4 ≤ 8)
  | 0x23 | 0x24 => decide (fn4 ≤ 5)
  | 0x25 => decide (fn4 ≤ 1)
  | 0x26 => decide (fn < 16) && decide (fn % 4 ≤ 1)
  | _ => false

/-- Whether a class accepts a word (R132). -/
def classAccepts (k : Cls) (w : Nat) : Bool :=
  let o := fld w 31 26
  match k with
  | .vx => decide (1 ≤ o) && decide (o ≤ 0x13) || o == 0x1F && (fld w 25 22 == 3 || fld w 25 22 == 4)
  | .ls => decide (0x18 ≤ o) && decide (o ≤ 0x1F)
  | .en => decide (0x20 ≤ o) && decide (o ≤ 0x22) || o == 0x26
  | .cf => decide (0x14 ≤ o) && decide (o ≤ 0x17) || decide (0x23 ≤ o) && decide (o ≤ 0x25)
  | .mx => true

/-- The terminators (R133). -/
def isTerminator (w : Nat) : Bool :=
  let fn := fld w 25 22
  match fld w 31 26 with
  | 0x14 => true
  | 0x15 => fn == 2
  | 0x16 => decide (2 ≤ fn) && decide (fn ≤ 8)
  | 0x24 => fn == 0
  | _ => false

/-- `loop` and `loopi`, which stand last, and `rcv`, which stands first (R133). -/
def isLoop (w : Nat) : Bool := fld w 31 26 == 0x15 && decide (fld w 25 22 ≤ 1)
def isRcv (w : Nat) : Bool := fld w 31 26 == 0x16 && fld w 25 22 == 1

/-- The cross-lane instructions and the vector instructions of R133. -/
def isCross (w : Nat) : Bool := fld w 31 26 == 0x0D
def isVector (w : Nat) : Bool :=
  let o := fld w 31 26
  decide (1 ≤ o) && decide (o ≤ 0x0F) && !(o == 0x0E && fld w 25 21 == 28) || o == 0x12 && fld w 25 18 == 3

/-- The scalar instructions of R18. -/
def isScalar (w : Nat) : Bool :=
  let o := fld w 31 26
  let fn8 := fld w 25 18
  o == 0x10 || o == 0x11 || o == 0x13 || o == 0x12 && (fn8 ≤ 1 || fn8 == 4 || fn8 == 5) ||
    o == 0x1F && (fld w 25 22 == 3 || fld w 25 22 == 4)

/-! ### The decoder (R145) -/

/-- What the decoder has seen of a clause: latches and registers written, scalars that a vector instruction produced (R18), the
destinations of `vtos` and `sld` (R191, R216), and whether it has met a vector and a cross-lane instruction (R133). -/
structure Seen where
  latches : List Latch
  written : List Ref
  produced : List Ref
  late : List Ref
  vector : Bool
  cross : Bool

/-- What the decoder needs to know of the entity: the class, the operand-file limit (R46), privilege and handler state (R327), and
the formats out of service (R395). -/
structure DecEnv where
  cls : Cls
  oLimit : Nat
  priv : Bool
  handler : Bool
  fmtOff : Nat → Bool

/-- A word's class and placement, as the ILLCL rules of R132 and R133 see it: `last` says that its words end the clause. -/
def placedOk (d : DecEnv) (q : Seen) (first last fits : Bool) (w : Nat) : Bool :=
  classAccepts d.cls w && fits && (!isTerminator w || last) && (!isLoop w || last) && (!isRcv w || first) &&
    (!isVector w || !q.cross) && (!isCross w || !q.vector)

/-- Whether an operand register is within the team's limit (R46). -/
def refOk (d : DecEnv) : Ref → Bool
  | .o n => decide (n < d.oLimit)
  | _ => true

/-- Whether an instruction names a latch in a class without latches (R47). -/
def namesLatch (u : Uses) : Bool :=
  !u.latches.isEmpty || (match u.res with
    | some r => r.dst.any fun x => !(vopLatch x).isEmpty
    | none => false)

/-- The base pair of `sld` and `sst` (R216). -/
def scalarBase : Instr → List Ref
  | .sld _ a _ => pairRefs a
  | .sst a _ _ => pairRefs a
  | _ => []

/-- Whether an instruction is `gtag`. -/
def isGtag : Instr → Bool
  | .gtag _ _ => true
  | _ => false

/-- Whether an instruction is `tunpk`. -/
def isTunpk : Instr → Bool
  | .tunpk _ _ _ => true
  | _ => false

/-- Whether an instruction keeps the operand rules that its clause decides (R18, R46, R47, R135, R176, R191, R216, R395). -/
def clauseRules (d : DecEnv) (q : Seen) (w : Nat) (i : Instr) : Bool :=
  let u := uses i
  let vx : Bool := d.cls == .vx
  (u.reads ++ u.writes).all (refOk d) &&
    (if vx then u.latches.all fun l => q.latches.contains l else !namesLatch u) &&
    !(vx && isScalar w && u.reads.any fun r => q.produced.contains r) &&
    !(vx && u.reads.any fun r => q.late.contains r) &&
    !(vx && (scalarBase i).any fun r => q.written.contains r) &&
    !(isTunpk i && (u.reads.any (fun r => q.written.contains r) || !u.latches.isEmpty)) &&
    !(u.types.filterMap fmtBit).any d.fmtOff

/-- The destinations that no later word of a VX clause may read (R191, R216). -/
def lateRefs (i : Instr) (u : Uses) : List Ref :=
  match i with
  | .vtos _ _ _ => u.writes
  | .sld _ _ _ => u.writes
  | _ => []

/-- What has been seen after an instruction.  A scalar holds a vector instruction's value until a scalar instruction writes it again;
`gtag`, of opcode 0x0E, counts as a vector instruction for this rule of R18, which R133 and R183 leave open (log 30). -/
def Seen.after (q : Seen) (w : Nat) (i : Instr) : Seen :=
  let u := uses i
  { latches := match u.res.bind (·.latch) with
      | some l => l :: q.latches
      | none => q.latches
    written := q.written ++ u.writes
    produced := if fld w 31 26 ≤ 0x0F then q.produced ++ u.writes.filter (fun r => match r with | .s _ => true | _ => false)
      else if isScalar w then q.produced.filter (fun r => !u.writes.contains r) else q.produced
    late := q.late ++ lateRefs i u
    vector := q.vector || isVector w
    cross := q.cross || isCross w }

/-- The privilege rule of opcode 0x24 (R327). -/
def privFault (d : DecEnv) (w : Nat) : Option Nat :=
  if fld w 31 26 ≠ 0x24 then none
  else if fld w 25 22 = 0 then (if d.handler then none else some (if d.priv then cILLOP else cILLPV))
  else if d.priv then none else some cILLPV

/-- The instructions of a clause from word `i` on (R145 step 3), each with its index, or the fault and the word it lies at. -/
noncomputable def decodeFrom (d : DecEnv) : Nat → Seen → Nat → List Word → Except (Nat × Nat) (List (Nat × Instr))
  | 0, _, _, _ => .ok []
  | _, _, _, [] => .ok []
  | fuel + 1, q, i, w :: rest =>
    let w := w.toNat
    let n := instrWords w
    let fits : Bool := decide (n ≤ rest.length + 1)
    if !fnAssigned w then .error (cILLOP, i)
    else if !placedOk d q (i == 1) (n == rest.length + 1) fits w then .error (cILLCL, i)
    else match decodePair w (rest.headD 0).toNat with
      | .error _ => .error (cILLOP, i)
      | .ok ins =>
        if !clauseRules d q w ins then .error (cILLOP, i)
        else match privFault d w with
          | some x => .error (x, i)
          | none => (decodeFrom d fuel (q.after w ins) (i + n) (rest.drop (n - 1))).map fun is => (i, ins) :: is

/-- The class of a header (R131). -/
def clsOf : Nat → Option Cls
  | 0 => some .vx
  | 1 => some .ls
  | 2 => some .en
  | 3 => some .cf
  | 4 => some .mx
  | _ => none

/-- A decoded clause. -/
structure Clause where
  cls : Cls
  header : Nat
  words : List Word
  ins : List (Nat × Instr)

/-- Whether a header's wait fields admit an issue (R131). -/
def Clause.admits (k : Clause) (t : Team) : Bool :=
  t.within (fld k.header 9 7) (fld k.header 12 10) (fld k.header 15 13) (fld k.header 18 16)

/-- Whether the last word that begins an instruction is a terminator. -/
def endsTerm (ws : List Word) (ins : List (Nat × Instr)) : Bool :=
  match ins.getLast? with
  | some (i, _) => isTerminator (ws.getD (i - 1) 0).toNat
  | none => false

/-- The decoder's checks of a fetched clause (R145), and the loop body that a clause may not leave (R198). -/
noncomputable def decodeClause (d : Cls → DecEnv) (loops : List LoopLevel) (pc : Nat) (header : Nat) (ws : List Word) :
    Except (Nat × Nat) Clause :=
  let stop := pc + 4 * (ws.length + 1)
  let crosses : Bool := loops.any fun l => decide (l.start.toNat ≤ pc) && decide (pc < l.stop.toNat) && decide (l.stop.toNat < stop)
  match clsOf (fld header 6 4) with
  | none => .error (cILLCL, 0)
  | some k =>
    if fld header 31 24 ≠ 0xD2 ∨ fld header 3 0 = 0 ∨ fld header 23 20 ≠ 0 ∨ crosses then .error (cILLCL, 0)
    else
      let q : Seen := { latches := [], written := [], produced := [], late := [], vector := false, cross := false }
      match decodeFrom (d k) ws.length q 1 ws with
      | .error x => .error x
      | .ok ins =>
        if (fld header 19 19 == 1) != endsTerm ws ins then .error (cILLCL, 0)
        else .ok { cls := k, header := header, words := ws, ins := ins }

/-! ### The fetch (R98, R335, R338) -/

/-- What a fetch gives: the header and its words, an address on a page without a present mapping, a fault, or nothing yet, while no
port carries it to host memory (R385). -/
inductive Fetched where
  | ok (header : Nat) (words : List Word)
  | waits
  | absent (addr : Nat)
  | fault (cause addr1 addr2 : Nat)

/-- One word of code, translated for a fetch; a word that two pages share is read by its bytes. -/
def State.codeWord (s : State) (stack c a : Nat) : Nat ⊕ Xlat :=
  if s.accessWaits stack c .fetch (a % 2 ^ 64) 4 then .inr (.ok 0 0)
  else match s.xlate stack c .fetch (a % 2 ^ 64) 4 with
    | .ok phys _ => .inl (leNat (s.loadBytes phys 4))
    | r => .inr r

/-- Words of code from an address on; the first that fails decides. -/
def State.codeWords (s : State) (stack c : Nat) : Nat → Nat → List Word → Fetched ⊕ List Word
  | 0, _, acc => .inr acc
  | n + 1, a, acc =>
    match s.codeWord stack c a with
    | .inl w => s.codeWords stack c n (a + 4) (acc ++ [BitVec.ofNat 32 w])
    | .inr (.fault x b1 b2) => .inl (.fault x b1 b2)
    | .inr .absent => .inl (.absent (a % 2 ^ 64))
    | .inr (.ok _ _) => .inl .waits

/-- The clause at an address (R145 step 1). -/
def State.fetchClause (s : State) (stack c a : Nat) : Fetched :=
  match s.codeWords stack c 1 a [] with
  | .inl r => r
  | .inr hs =>
    let h := (hs.headD 0).toNat
    match s.codeWords stack c (fld h 3 0) (a + 4) [] with
    | .inl r => r
    | .inr ws => .ok h ws

/-- The pages of a fetched clause are marked accessed and cached (R335, R336). -/
def State.touchCode (s : State) (stack c a n : Nat) : State :=
  (s.touch stack c .fetch (a % 2 ^ 64)).touch stack c .fetch ((a + 4 * n) % 2 ^ 64)

/-! ### Who may issue (R20 to R22) -/

/-- Whether a fragment of a team holds a loop level that it opened itself: a save of the team waits for it (R199). -/
def State.levelsOpen (s : State) (tid : Nat) : Bool :=
  (s.entsOf tid).any fun x => x.2.isFrag && decide (x.2.inherited < x.2.loops.length)

/-- Waits at which a pre-emption stops an entity (R342). -/
def stopsAt : Hold → Bool
  | .barrier | .ring | .workgroup | .arriving | .gang | .rcv | .merge | .counters | .yieldc | .qwait | .hlt | .replay | .slice => true
  | _ => false

/-- Whether a requested save has stopped an entity (R342). -/
def State.entStopped (s : State) (e : Entity) (t : Team) (w : Workgroup) : Bool :=
  w.place == .stopping && !s.levelsOpen e.team && e.atBoundary &&
    ((match e.hold with | some h => stopsAt h | none => false) || e.parkedPc.isSome || t.offered || e.stopped)

/-- Whether a workgroup's place lets its entities run: not while it moves, is saved or restored, or aborts (R28, R278, R343). -/
def Workgroup.runs (w : Workgroup) : Bool := (w.place == .resident || w.place == .stopping) && !w.aborting

/-- Whether an entity may run at all: its team goes on, its workgroup runs, and no debugger holds it (R201, R341, R370). -/
def State.entRuns (s : State) (e : Entity) (t : Team) : Bool :=
  match s.wgOf t with
  | none => false
  | some w => w.runs && !t.dying && t.ydl.isNone && !t.swapped && !e.stopped && !(e.haltNext && e.handler.isNone) && !s.entStopped e t w &&
      ((s.ctx w.ctx).state == .active || (s.ctx w.ctx).state == .suspending)

/-- What the decoder knows of an entity (R46, R327, R395). -/
def State.decEnv (s : State) (e : Entity) (t : Team) (k : Cls) : DecEnv :=
  { cls := k, oLimit := operandLimit t.lanes, priv := (s.ctx (s.ctxOf t)).priv, handler := e.handler.isSome
    fmtOff := fun b => !bitOf s.service.fmt b }

/-- The clause an entity stands before. -/
noncomputable def State.clauseAt (s : State) (e : Entity) (t : Team) (h : Nat) (ws : List Word) : Except (Nat × Nat) Clause :=
  decodeClause (s.decEnv e t) e.loops e.pc.toNat h ws

/-- The scalar accesses of a clause (R216). -/
def scalarAccesses (k : Clause) : List (CntKind × Nat) :=
  k.ins.filterMap fun x => match x.2 with
    | .sld _ _ _ => some (.ld, x.1)
    | .sst _ _ _ => some (.st, x.1)
    | _ => none

/-- Whether the counters and the replay queue take what a VX clause may issue: it waits whole (R18, R51, R104). -/
def State.vxRoom (s : State) (t : Team) (k : Clause) : Bool :=
  let xs := scalarAccesses k
  let n (q : CntKind) : Nat := (xs.filter fun x => x.1 == q).length
  k.cls != .vx || xs.isEmpty ||
    decide (t.cnt .ld + n .ld ≤ 63) && decide (t.cnt .st + n .st ≤ 63) && s.replayRoom (s.partOf t) xs.length (4 * xs.length)

/-- Whether a decoded clause of an entity is issuable (R21): its waits are met, unless it resumes at a word of it from an image (R58), and
none of its source registers is pending.  A source that the clause itself makes pending holds back the word that reads it (R117). -/
def State.issuable (s : State) (e : Entity) (t : Team) (k : Clause) : Bool :=
  (k.admits t || e.admitted && e.word != 0) && (k.ins.all fun x => (uses x.2).reads.all fun r => !t.isPending r) && s.vxRoom t k

/-- Whether an entity has to switch paths before its next clause (R25): the running path has issued 256 clauses, and the other waits
for no `rcv`. -/
def Entity.switchDue (e : Entity) : Bool :=
  match e.innermost with
  | some (_, sl) => decide (switchLimit ≤ sl.count) && !sl.arrived && e.word == 0
  | none => false

/-- The clause that an entity stands before, where it may issue it now. -/
noncomputable def State.candidateClause (s : State) (e : Entity) : Option Clause :=
  match tabGet s.teams e.team with
  | none => none
  | some t =>
    if e.issue.isSome || e.hold.isSome || e.parkedPc.isSome || e.switchDue || !s.entRuns e t then none
    else match s.fetchClause (s.stackOf t) (s.ctxOf t) e.pc.toNat with
      | .ok h ws => match s.clauseAt e t h ws with
        | .ok k => if s.issuable e t k then some k else none
        | .error _ => none
      | _ => none

/-- Every entity's issue count and ready mark brought up to date (R21, R22): a clause that has become issuable is marked, and one
that has stopped being issuable loses its mark and its count. -/
noncomputable def State.stamp (s : State) : State :=
  let n := s.nextId
  let ents := s.ents.map fun (x : Nat × Entity) =>
    if (s.candidateClause x.2).isSome then (x.1, if x.2.ready = 0 then { x.2 with ready := n } else x.2)
    else (x.1, { x.2 with ready := 0, waits := 0 })
  if ents = s.ents then s else { s with ents := ents, nextId := n + 1 }

/-- The cycles of a core's island in a number of reference ticks from reset on (R347, R353): a frequency code f runs (14 + f) / 4
cycles in 10 ns. -/
def State.cyclesTo (s : State) (core ticks : Nat) : Nat := (14 + (s.island core).fcur) * ticks / 4

/-- The cycles of a core's island in the coming reference tick. -/
def State.islandCycles (s : State) (core : Nat) : Nat := s.cyclesTo core (s.time.toNat + 1) - s.cyclesTo core s.time.toNat

/-- How many of them the column's budget takes from a team's class (R360): the fraction σ of the window's cycles, spread evenly. -/
def State.suppressedCycles (s : State) (t : Team) : Nat :=
  let core := s.coreOf t
  let (a, b) := (s.column (s.columnOf t)).sigma.getD (s.gridPrio t) (0, 1)
  let w := s.cyclesTo core s.time.toNat - s.cyclesTo core s.policy.lastSample
  (w + s.islandCycles core) * a / b - w * a / b

/-- The cycles of the coming tick that count for a team's waits (R22) and its watchdog (R346). -/
def State.countedCycles (s : State) (t : Team) : Nat := s.islandCycles (s.coreOf t) - s.suppressedCycles t

/-- Whether an entity's count reaches 64 in the coming tick (R22). -/
def State.overdue (s : State) (e : Entity) (t : Team) : Bool := decide (64 ≤ e.waits + s.countedCycles t)

/-- Whether an entity goes before another on its pipe (R21, R22). -/
def State.goesBefore (s : State) (a b : Nat × Entity) : Bool :=
  match tabGet s.teams a.2.team, tabGet s.teams b.2.team with
  | some t, some u =>
    let key (x : Entity) (v : Team) : List Nat :=
      let old := s.overdue x v
      [if old then 0 else 1, if old then 0 else 3 - s.gridPrio v, x.ready, v.slot, x.fragCode]
    decide (key a.2 t < key b.2 u)
  | _, _ => false

/-- Whether an entity that is held at a boundary inside its clause may go on with it: the clause, which did not count as in issue, takes
its pipe again (R20, R28). -/
def State.mayGoOn (s : State) (eid : Nat) (e : Entity) (t : Team) : Bool :=
  match e.issue with
  | some i => !e.hold.any Hold.boundary || s.pipeFree eid (s.partOf t) (pipeX i.cls)
  | none => true

/-- Whether an entity's clause is the one its partition's pipe issues next (R21). -/
noncomputable def State.chosen (s : State) (eid : Nat) (e : Entity) (part : Nat) (k : Clause) : Bool :=
  s.pipeFree eid part (pipeX k.cls) && s.ents.all fun y => y.1 == eid || (match tabGet s.teams y.2.team with
    | some t => s.partOf t != part || !s.goesBefore y (eid, e) || (match s.candidateClause y.2 with
      | some q => pipeX q.cls != pipeX k.cls
      | none => true)
    | none => true)

/-! ### The checks at issue -/

/-- The tag of an operand among the tags that the words before it leave (R42, R44). -/
def tagAmong (env : Tab Tag) (t : Team) : VOp → Tag
  | .v n => (tabGet env n.toNat).getD (t.vreg n.toNat).tag
  | .s _ => .u
  | .o _ | .latch _ => .g
  | .const .lane => .a
  | .const _ => .u

/-- A vector result among them: the tags after it, the registers counted as G, and whether the count passes the grant (R44).
A register that turns from G to U, a uniform load's too, counts no longer (log 30). -/
def grantStep (full : Bool) (t : Team) (env : Tab Tag) (held : List Nat) (r : VRes) : Tab Tag × List Nat × Bool :=
  let tag := resultTag full r.rule (r.srcs.map (tagAmong env t))
  let ds := r.dst.filterMap fun d => match d with | .v n => some n.toNat | _ => none
  let env := ds.foldl (fun m n => tabPut m n tag) env
  if tag = .g then
    let new := ds.filter fun n => !held.contains n
    (env, held ++ new, !new.isEmpty && decide (t.grant < held.length + new.length))
  else (env, held.filter fun n => !ds.contains n, false)

/-- A fault at the issue of an entity's clause, at one of its words (R325): the entity resumes at word 1, as after a decode fault and in
a VX clause. -/
def issueFault (e : Entity) (pc : Word64) (cause word : Nat) (lanes : BitVec 1024) : FaultInfo :=
  { cause := cause, word := word, frag := e.fragCode, lanes := lanes, pc := pc, resumePc := pc, resume := 1 }

/-- The same fault where the entity resumes at the first word not completed (R325): where it stood, at the header or at the word at which
its clause resumes. -/
def FaultInfo.asStood (f : FaultInfo) (e : Entity) : FaultInfo := { f with resume := if e.word = 0 then 1 else e.word }

/-- The active lanes whose byte is a reserved TERN5 code (R176). -/
def tunpkBad (e : Entity) (t : Team) (i : Issue) (a : VOp) : List Nat :=
  let ws := (readOp t i .raw a).words 243 t.lanes
  (lanesOf e.mask t.lanes).filter fun l => decide (244 ≤ (ws.getD l 0).toNat % 256)

/-- What the checks at issue find. -/
inductive IssueCheck where
  | pass (claimed : List Nat) (xreg : Option Nat) (gcounts : Tab Nat)
  | exhaust (f : FaultInfo)
  | fault (f : FaultInfo)

/-- The checks of the scalar access at a word of a VX clause (R216, R100). -/
def Cur.scalarCheck (c : Cur) (s : State) (word : Nat) (k : AccKind) (a : BitVec 6) (i : BitVec 10) (checks : List Check) : Option FaultInfo :=
  match firstFail (c.scalarReq a.toNat i []) (checks ++ s.pageChecks c.t k 4) with
  | some (x, _, a1, a2) => some { issueFault c.e c.i.pc x word c.e.mask with addr1 := ptrOf a1, addr2 := a2 }
  | none => none

/-- The faults that an instruction raises at the issue of its clause, the grant apart (R176, R216). -/
def Cur.issueCheck (c : Cur) (s : State) (word : Nat) (i : Instr) : Option FaultInfo :=
  match i with
  | .tunpk _ a _ =>
    let bad := tunpkBad c.e c.t c.i a
    if c.t.mode.getLsbD 4 && !bad.isEmpty then
      some (let f := issueFault c.e c.i.pc cFMTF word (maskOf bad); if c.i.cls = .vx then f else f.asStood c.e)
    else none
  | .sld _ a n => if c.i.cls = .vx then c.scalarCheck s word .load a n [alignCheck 4] else none
  | .sst a n _ => if c.i.cls = .vx then c.scalarCheck s word .store a n [alignCheck 4, c.windowCheck s 4] else none
  | _ => none

/-- The checks of a clause's instructions in order (R18, R44): the grant, and what each raises at issue.  Past the grant a VX clause
does not execute; in any other class the words before the instruction do, and it exhausts.  What `gtag`s will read is noted. -/
def Cur.issueChecks (c : Cur) (s : State) (start : List Nat) : Tab Tag → List Nat → Tab Nat → List (Nat × Instr) → IssueCheck
  | _, held, counts, [] => .pass (held.filter fun n => !start.contains n) none counts
  | env, held, counts, (w, i) :: is =>
    let counts := if isGtag i then tabPut counts w held.length else counts
    let (env', held', past) := match (uses i).res with
      | some r => if c.e.mask = 0 then (env, held, false) else grantStep (c.e.maskFull c.t.lanes) c.t env held r
      | none => (env, held, false)
    if past && c.i.cls == .vx then .exhaust (issueFault c.e c.i.pc cXREG w c.e.mask)
    else if past then .pass (held.filter fun n => !start.contains n) (some w) counts
    else match c.issueCheck s w i with
      | some f => .fault f
      | none => c.issueChecks s start env' held' counts is

/-! ### The issue -/

/-- The innermost deferral slot counts a clause of the running path (R25). -/
def Entity.countClause (e : Entity) : Entity :=
  match e.innermost with
  | some (k, sl) => { e with slots := tabPut e.slots k { sl with count := sl.count + 1 } }
  | none => e

/-- A clause issues: its words are charged (R277), and it is in issue from its resume word on (R328). -/
def Cur.startClause (c : Cur) (s : State) (k : Clause) (claimed : List Nat) (xreg : Option Nat) (gcounts : Tab Nat) : State :=
  let s := s.modWg c.t.wg fun w => if w.phase then { w with words := w.words + k.words.length } else w
  let s := if fld k.header 18 7 = 4095 then s else s.observe c.t
  let s := s.modEnt c.eid fun e =>
    { e.countClause with issue := some { c.i with claimed := claimed, xreg := xreg, gcounts := gcounts }, word := 0, ready := 0, waits := 0, admitted := false }
  { s with cur := c.eid }

/-- The issue of the clause an entity stands before (R18, R44, R145, R277). -/
def State.issueClause (s : State) (eid : Nat) (e : Entity) (t : Team) (k : Clause) : State :=
  let i : Issue := { pc := e.pc, cls := k.cls, words := k.words, next := e.word - 1, mode := t.mode, modeNew := none, latches := []
                     vtos := [], claimed := [] }
  let c : Cur := { eid := eid, e := e, t := t, i := i }
  let past : Bool := match s.wgOf t, s.gridOf t with
    | some w, some g => w.phase && decide (g.rcd.allow < w.words + k.words.length)
    | _, _ => false
  if past then s.exhaust eid e.team
      (let f := issueFault e e.pc cXALW 1 e.mask; if k.cls = .vx then f else f.asStood e)
  else
    let held := s.gRegs e.team t
    let is := k.ins.filter fun x => decide (e.word ≤ x.1)
    match c.issueChecks s held [] held [] is with
    | .exhaust f => s.exhaust eid e.team f
    | .fault f => (s.deliver eid f).settle e.team
    | .pass claimed xreg gcounts => c.startClause s k claimed xreg gcounts

/-- CLAUSE_ISSUE (R21): the clause an entity stands before is fetched, decoded, checked and issued on its pipe.  A resume word at
which no instruction of the clause begins holds none, so it is ILLOP (R136, log 28). -/
noncomputable def execClauseIssue (e : Nat) (s : State) : Host.Outcome State Fault Refusal :=
  .next (match tabGet s.ents e with
    | none => s
    | some x =>
      match tabGet s.teams x.team with
      | none => s
      | some t =>
        if x.issue.isSome || x.hold.isSome || x.parkedPc.isSome || x.switchDue || !s.entRuns x t then s
        else
          let stack := s.stackOf t
          let ctx := s.ctxOf t
          match s.fetchClause stack ctx x.pc.toNat with
          | .waits => s
          | .absent a =>
            if s.replayRoom (s.partOf t) 1 0 then s.parkEntity e x t x.pc 0 (pageOf a) a else s
          | .fault cause a1 a2 =>
            (s.deliver e { (issueFault x x.pc cause 0 x.mask).asStood x with addr1 := a1, addr2 := a2 }).settle x.team
          | .ok h ws =>
            match s.clauseAt x t h ws with
            | .error (cause, word) =>
              let s := s.touchCode stack ctx x.pc.toNat ws.length
              (s.deliver e { issueFault x x.pc cause word x.mask with addr1 := x.pc.toNat }).settle x.team
            | .ok k =>
              if x.word ≠ 0 && !(k.ins.any fun y => y.1 == x.word) then
                let s := s.touchCode stack ctx x.pc.toNat ws.length
                (s.deliver e { issueFault x x.pc cILLOP x.word x.mask with addr1 := x.pc.toNat }).settle x.team
              else if !s.issuable x t k then s
              else
                let s := s.stamp
                match tabGet s.ents e with
                | none => s
                | some x =>
                  if s.chosen e x (s.partOf t) k then (s.touchCode stack ctx x.pc.toNat ws.length).issueClause e x t k
                  else s)

/-- ISSUE_WAIT_LIMIT (R22): an entity whose count has reached 64 issues next on its pipe, ahead of every class. -/
noncomputable def execIssueWaitLimit (e : Nat) (s : State) : Host.Outcome State Fault Refusal :=
  match (tabGet s.ents e).bind fun x => (tabGet s.teams x.team).map fun t => s.overdue x t with
  | some true => execClauseIssue e s
  | _ => .next s

/-- DEFERRAL_SWITCH (R25): the running path has issued 256 clauses since its slot opened or last switched. -/
def execDeferralSwitch (e : Nat) (s : State) : Host.Outcome State Fault Refusal :=
  .next (match tabGet s.ents e with
    | none => s
    | some x =>
      match x.innermost with
      | none => s
      | some (k, sl) =>
        if x.issue.isSome || !x.switchDue || x.hold.isSome || x.parkedPc.isSome then s
        else s.modEnt e fun x => x.exchange k sl x.pc false)

/-- YDL (R201, R341): the fault of the team whose retired words passed its deadline goes to the fault queue, and the team ends. -/
def execYdl (e : Nat) (s : State) : Host.Outcome State Fault Refusal :=
  .next (match tabGet s.teams e with
    | none => s
    | some t =>
      match t.ydl with
      | none => s
      | some f =>
        let s := s.modTeam e fun t => { t with ydl := none, dying := true }
        (((s.fqFault t f).markFaulted t)).settle e)

/-- The limit of the watchdog in counted cycles (R346); 0 counts for none. -/
def State.hangLimit (s : State) : Nat := s.hangLim * 1048576

/-- The entity that a HANG record names (R341): the team's own, or its live fragment of lowest index. -/
def State.hangEntity (s : State) (tid : Nat) : Option Entity :=
  let es := (s.entsOf tid).map (·.2)
  match es.find? fun e => !e.isFrag with
  | some e => some e
  | none => es.foldl (fun m e => match m with
    | some x => if e.entry < x.entry then some e else some x
    | none => some e) none

/-- HANG (R346): a team's watchdog count has reached its limit; the team ends.  A pre-emption in the same cycle comes first (R348). -/
def execHang (t : Nat) (s : State) : Host.Outcome State Fault Refusal :=
  .next (match tabGet s.teams t, s.hangEntity t with
    | some x, some e =>
      let resident : Bool := match s.wgOf x with | some w => w.place == .resident | none => false
      if s.hangLim = 0 || decide (x.hang < s.hangLimit) || x.dying || !resident then s
      else
        let k := match e.issue with | some i => i.next + 1 | none => e.word
        let pc := match e.issue with | some i => i.pc | none => e.pc
        let f : FaultInfo := { cause := cHANG, word := k, frag := e.fragCode, lanes := e.mask, pc := pc, addr1 := x.hang
                               resumePc := pc, resume := 1 }
        (((s.fqFault x f).markFaulted x).modTeam t fun x => { x with dying := true }).settle t
    | _, _ => s)

end Sys2Proof.Machine
end

