-- ==== Sys2Proof/Machine/EvMem.lean ====
section
/-! DEFINITION. Memory operations as they complete, the replay queue and its release, and held words that go on (R104, R105, R111,
R213, R221, R227, R238, R330, R338, R339). -/

namespace Sys2Proof.Machine

/-! ### Completion (R110, R111, R213, R221) -/

/-- An operation of a kind is performed as far as it may be. -/
def State.performKind (s : State) (op : Nat) (k : OpKind → Bool) : State :=
  match tabGet s.ops op with
  | some o => if k o.kind then s.performOp op else s
  | none => s

/-- LOAD_COMPLETE (R213): a load is performed in local order. -/
def execLoadComplete (op : Nat) (s : State) : Host.Outcome State Fault Refusal :=
  .next (s.performKind op fun k => k == .load)

/-- STORE_COMPLETE (R213, R223): a store or a flush is performed in local order. -/
def execStoreComplete (op : Nat) (s : State) : Host.Outcome State Fault Refusal :=
  .next (s.performKind op fun k => k == .store || k == .flush)

/-- ATOMIC_PERFORM (R221): an atomic is performed in local order. -/
def execAtomicPerform (op : Nat) (s : State) : Host.Outcome State Fault Refusal :=
  .next (s.performKind op fun k => k == .atomic)

/-! ### Held words -/

/-- The instruction at which an entity stands inside its clause. -/
noncomputable def Issue.instr (i : Issue) : Option Instr :=
  match i.words.drop i.next with
  | [] => none
  | w :: rest => (decodePair w.toNat (rest.headD 0).toNat).toOption

/-- Whether a source register of an instruction is pending for its entity (R21, R117), by anything but that word itself.  A VX clause
has tested its sources at its issue and executes as a whole (R18). -/
def State.sourcePending (s : State) (eid : Nat) (e : Entity) (i : Instr) : Bool :=
  match tabGet s.teams e.team with
  | some t => !e.issue.any (·.cls == .vx) && (uses i).reads.any fun r => t.pend.any fun p => p.ref == r && p.op != eid
  | none => false

/-- Whether an entity stands still inside its clause, which no hold has stopped, since a source of its next word is pending (R117). -/
noncomputable def State.stalled (s : State) (eid : Nat) (e : Entity) : Bool :=
  e.hold.isNone && (match e.issue.bind (·.instr) with
    | some i => s.sourcePending eid e i
    | none => false)

/-- A copy that may wait for a ring slot, executed again (R206). -/
def retryCopy (i : Instr) (s : State) : Host.Outcome State Fault Refusal :=
  match i with
  | .cpyG2s dst src len sl obj idx rows stride mc ring fill => execCpyG2s dst src len sl obj idx rows stride mc ring fill s
  | .cpyG2c dst src len sl obj idx rows stride ring fill => execCpyG2c dst src len sl obj idx rows stride ring fill s
  | .cpyC2s dst src len sl obj idx rows stride mc ring => execCpyC2s dst src len sl obj idx rows stride mc ring s
  | .cpyS2c dst src len sl obj idx rows stride ring => execCpyS2c dst src len sl obj idx rows stride ring s
  | .cpyx dst src len sl obj idx rows stride ring => execCpyx dst src len sl obj idx rows stride ring s
  | .cpyg dst src len sl obj idx rows stride ring fill => execCpyg dst src len sl obj idx rows stride ring fill s
  | _ => .next s

/-- An engine instruction that waits for an entry, for a record or for its gang, executed again (R238, R239). -/
def retryEngine (i : Instr) (s : State) : Host.Outcome State Fault Refusal :=
  match i with
  | .mres d w => execMres d w s
  | .mfree d => execMfree d s
  | .mld q d r p => execMld q d r p s
  | .mscl d r o => execMscl d r o s
  | .mls r c k o => execMls r c k o s
  | .mswap => execMswap s
  | .mma t a q p g z x w => execMma t a q p g z x w s
  | .mdrain t x o n w => execMdrain t x o n w s
  | .mtab t => execMtab t s
  | .mzero t => execMzero t s
  | .mfill t r => execMfill t r s
  | .mredAdd t d a => execMredAdd t d a s
  | .mscanAdd t d a => execMscanAdd t d a s
  | _ => .next s

/-- An entity that is held for a reason executes its word again. -/
noncomputable def State.retryHeld (s : State) (e : Nat) (h : Hold → Bool) (f : Instr → State → Host.Outcome State Fault Refusal) :
    Host.Outcome State Fault Refusal :=
  match tabGet s.ents e with
  | none => .next s
  | some x =>
    match x.hold, x.issue.bind (·.instr), tabGet s.teams x.team with
    | some k, some i, some t => if h k && s.entRuns x t && s.mayGoOn e x t then f i { s with cur := e } else .next s
    | _, _, _ => .next s

/-- HELD_SLICE_ISSUE (R206, R227): a slice held on a full ring tests it again. -/
noncomputable def execHeldSliceIssue (e : Nat) (s : State) : Host.Outcome State Fault Refusal :=
  s.retryHeld e (fun h => h == .slice) retryCopy

/-- ENGINE_DEFERRED_ACCEPT (R238, R239): a waiting engine instruction is accepted once its entry and its wait allow. -/
noncomputable def execEngineDeferredAccept (e : Nat) (s : State) : Host.Outcome State Fault Refusal :=
  s.retryHeld e (fun h => h == .engine || h == .gang) retryEngine

/-- REPLAY_STALL_RESUME (R104): an entity that a full replay queue stalled goes on once an entry is free. -/
def execReplayStallResume (e : Nat) (s : State) : Host.Outcome State Fault Refusal :=
  .next (match tabGet s.ents e with
    | none => s
    | some x =>
      match tabGet s.teams x.team with
      | none => s
      | some t =>
        if x.hold = some .replay ∧ s.replayRoom (s.partOf t) 1 0 ∧ s.entRuns x t ∧ s.mayGoOn e x t then
          let s := s.modEnt e fun x => { x with hold := none }
          { s with cur := e }
        else s)

/-! ### The release of parked accesses (R105, R330, R339) -/

/-- Whether a page of a context has no present mapping. -/
def State.pageAbsent (s : State) (stack c page : Nat) : Bool :=
  !s.walkWaits stack c .load (page * 65536) && match s.leafFor stack c .load (page * 65536) with
  | .absent => true
  | _ => false

/-- The context and stack of a workgroup. -/
def State.wgPlace (s : State) (w : Nat) : Nat × Nat :=
  match tabGet s.wgs w with
  | some w => (w.ctx, coreStack w.core)
  | none => (64, 0)

/-- The pages a held slice or load still misses after a release, and whether its wait ends so under FAIL: it then ends for good,
whatever is mapped afterwards, at the pages at which it ended (R228, R247). -/
def State.released (s : State) (w c page : Nat) (all fail : Bool) (missing : List Nat) : List Nat × Bool :=
  let (x, stack) := s.wgPlace w
  if x ≠ c then (missing, false)
  else
    let hit (p : Nat) : Bool := all || p == page
    let gone := missing.filter fun p => hit p && s.pageAbsent stack c p
    if fail && !gone.isEmpty then (gone, true) else (missing.filter fun p => !hit p || s.pageAbsent stack c p, false)

/-- `rqrel` and RQCMD (R330): every parked access, held slice and held load of a context on a page, or on any, is released. -/
def State.release (s : State) (c page : Nat) (all fail : Bool) : State :=
  let mine (r : ReplayEntry) : Bool := (all || r.page == page) && (match tabGet s.teams r.team with
    | some t => s.ctxOf t == c
    | none => false)
  let replay := s.replay.map fun (x : Nat × ReplayEntry) =>
    if mine x.2 then (x.1, { x.2 with released := true, fail := x.2.fail || fail }) else x
  let slice (w : Nat) (sl : Slice) : Slice :=
    let (m, f) := s.released w c page all fail sl.missing
    if sl.fail then sl else { sl with missing := m, fail := f }
  let copies := s.copies.map fun (x : Nat × Copy) => (x.1, { x.2 with slices := x.2.slices.map (slice x.2.wg) })
  let entry (x : EngineEntry) : EngineEntry :=
    let (m, f) := s.released x.wg c page all fail x.missing
    if x.fail then x else { x with missing := m, fail := f }
  let engines := s.engines.map fun (x : Nat × Engine) =>
    (x.1, { x.2 with entries := x.2.entries.map fun (y : Nat × EngineEntry) => (y.1, entry y.2) })
  { s with replay := replay, copies := copies, engines := engines }

/-- The lanes of an operation that an entry holds. -/
def MemOp.held (o : MemOp) (r : ReplayEntry) : List LaneAcc := o.lanes.filter fun l => l.parked && r.lanes.contains l.lane

/-- What an access does to its pages. -/
def MemOp.accKind (o : MemOp) : AccKind :=
  match o.kind with
  | .load => .load
  | .store => .store
  | .atomic => .atomic
  | .flush => .load

/-- Whether an entity stands where a fault of a released access can be delivered to it (R105): at a boundary, or waiting at a word of its
clause.  One that goes on comes to such a place. -/
noncomputable def State.stands (s : State) (eid : Nat) : Bool :=
  match tabGet s.ents eid with
  | some e => e.issue.isNone || e.hold.isSome || e.stopped || s.stalled eid e
  | none => true

/-- Whether a team's workgroup is on its core, so that its partition's replay queue serves it (R338): not while it moves, nor between
its save and the end of its restore (R339). -/
def State.onCore (s : State) (t : Team) : Bool :=
  match s.wgOf t with
  | some w => (match w.place with
    | .resident | .stopping | .halting _ => true
    | _ => false)
  | none => false

/-- The point at which an entity that stands would resume (R325): its word, or the word at which its next clause
resumes (R328). -/
def Entity.resumePoint (e : Entity) : Word64 × Nat :=
  match e.issue with
  | some i => (i.pc, i.next + 1)
  | none => (e.pc, if e.word = 0 then 1 else e.word)

/-- The fault of a released access (R105, R339): delivered as any precise fault where its entity has not ended. -/
def State.replayFault (s : State) (eid tid : Nat) (f : FaultInfo) : State :=
  match tabGet s.ents eid, tabGet s.teams tid with
  | some e, some t =>
    if e.team ≠ tid then s
    else if t.dying then (s.errorIrq (s.ctxOf t) f).fqFault t f
    else
      let (pc, k) := e.resumePoint
      (s.deliver eid { f with resumePc := pc, resume := k }).settle tid
  | none, some t => ((s.errorIrq (s.ctxOf t) f).fqFault t f).markFaulted t
  | _, _ => s

/-- A released access goes on or fails: its lanes are translated afresh with every check (R105).  Lanes that fail are done without
effect, and the others, on pages of their own, complete as they would have (R104); the fault waits until its entity stands. -/
noncomputable def State.replayAccess (s : State) (id : Nat) (r : ReplayEntry) (o : MemOp) (t : Team) : State :=
  let ls := o.held r
  let reqs : List LaneReq := ls.map fun l => { lane := l.lane, addr := l.ptr, data := [], fill := none }
  let gone : Bool := ls.any fun l => match s.teamXlate t o.accKind l.ptr o.size with | .absent => true | _ => false
  let drop (s : State) : State := { s with replay := tabDel s.replay id }
  let fail (s : State) (cause : Nat) (lanes : List Nat) (a1 a2 : Nat) : State :=
    let done (l : LaneAcc) : LaneAcc := if r.lanes.contains l.lane && l.parked then { l with done := true } else l
    if !s.stands r.ent then s
    else
      let s := (drop s).modOp r.op fun o => { o with failed := true, lanes := o.lanes.map done }
      let s := s.replayFault r.ent r.team
        { cause := cause, parked := true, word := o.word, frag := o.frag, lanes := if o.uniform then o.mask else maskOf lanes, pc := o.pc
          addr1 := a1, addr2 := a2, resumePc := o.pc, resume := 1 }
      s.performOp r.op
  match firstFail reqs (s.pageChecks t o.accKind o.size) with
  | some (x, lanes, a1, a2) => fail s x lanes (ptrOf a1) a2
  | none =>
    if gone then
      (if r.fail then fail s cPGNP (ls.map (·.lane)) ((ls.map (·.ptr)).foldl Nat.min ((ls.map (·.ptr)).headD 0)) 0
       else { s with replay := tabPut s.replay id { r with released := false } })
    else
      let s := ls.foldl (fun s l => s.touch (s.stackOf t) (s.ctxOf t) o.accKind l.ptr) s
      let land (l : LaneAcc) : LaneAcc :=
        if r.lanes.contains l.lane && l.parked then
          (match s.teamXlate t o.accKind l.ptr o.size with
           | .ok p m => { l with phys := some p, mtype := m, level := s.leafLevel (s.stackOf t) (s.ctxOf t) l.ptr }
           | _ => l)
        else l
      ((drop s).modOp r.op fun o => { o with lanes := o.lanes.map land }).performOp r.op

/-- A released clause fetch, or `launch`, resumes or fails (R339). -/
def State.replayEntity (s : State) (id : Nat) (r : ReplayEntry) (e : Entity) (t : Team) : State :=
  let fetch : Bool := e.issue.isNone
  let a := if pageOf e.pc.toNat = r.page then e.pc.toNat else r.page * 65536
  let go (s : State) : State :=
    ({ s with replay := tabDel s.replay id }).modEnt r.ent fun e => { e with parkedPc := none }
  let at' := if fetch then a else r.page * 65536
  let f : FaultInfo := { cause := cPGNP, parked := true, word := match e.issue with | some i => i.next + 1 | none => 0
                         frag := e.fragCode, lanes := e.mask, pc := match e.issue with | some i => i.pc | none => e.pc, addr1 := at'
                         resumePc := e.pc, resume := 1 }
  match s.teamXlate t (if fetch then .fetch else .load) at' 4 with
  | .absent => if r.fail then (go s).replayFault r.ent r.team f else { s with replay := tabPut s.replay id { r with released := false } }
  | .fault x a1 a2 => if fetch then (go s).replayFault r.ent r.team { f with cause := x, addr1 := a1, addr2 := a2 } else go s
  | .ok _ _ => go s

/-- Whether the translation of an entry's page must wait for a port (R385). -/
def State.replayWaits (s : State) (r : ReplayEntry) (t : Team) : Bool :=
  let k := match tabGet s.ops r.op with | some o => o.accKind | none => .load
  s.walkWaits (s.stackOf t) (s.ctxOf t) k (r.page * 65536)

/-- PARKED_ACCESS_REPLAY (R105, R339): a released entry, oldest first of its queue, is translated afresh, wherever its entity stands. -/
noncomputable def execParkedAccessReplay (r : Nat) (s : State) : Host.Outcome State Fault Refusal :=
  .next (match tabGet s.replay r with
    | none => s
    | some x =>
      let older : Bool := s.replay.any fun y => decide (y.1 < r) && y.2.released && y.2.part == x.part &&
        (tabGet s.teams y.2.team).any fun t => !t.swapped && s.onCore t
      match tabGet s.teams x.team with
      | none => { s with replay := tabDel s.replay r }
      | some t =>
        if !x.released || older || t.swapped || !s.onCore t || s.replayWaits x t then s
        else if x.op = 0 then
          (match tabGet s.ents x.ent with
           | some e => s.replayEntity r x e t
           | none => { s with replay := tabDel s.replay r })
        else match tabGet s.ops x.op with
          | some o => s.replayAccess r x o t
          | none => { s with replay := tabDel s.replay r })

end Sys2Proof.Machine
end

