-- ==== Sys2Proof/Machine/Regs.lean ====
section
/-! DEFINITION. The privileged register space as it reads (R312, R315, R333, R346, R350 to R354, R358, R359, R361, R367, R369, R374,
R375, R377, R379, R381, R388, R392, R394). -/

namespace Sys2Proof.Machine

/-- A bit, or a field, placed at bit `n` of a word. -/
def bitAt (b : Bool) (n : Nat) : Nat := if b then 2 ^ n else 0

/-- The numbers of the per-context blocks (R315, R367). -/
def ctxBase (c : Nat) : Nat := 0x1000 + 64 * c
def ctx2Base (c : Nat) : Nat := 0x2000 + 64 * c
def dbgBase (c : Nat) : Nat := 0x3000 + 64 * c

/-- The numbers of a debug window, of a histogram, and of the call board's arrays (R350, R369, R379). -/
def windowBase (q : Nat) : Nat := 0x40000 + 256 * q
def histBase (h : Nat) : Nat := 0x20000 + 256 * h

/-- A state of a context as it reads (R315). -/
def CtxState.code : CtxState → Nat
  | .free => 0
  | .active => 1
  | .suspending => 2
  | .suspended => 3
  | .tearing => 4

/-- A state of a domain controller as it reads (R353). -/
def IslandState.code : IslandState → Nat
  | .idle => 0
  | .fdown => 1
  | .ramp => 2
  | .settle => 3
  | .fup => 4

/-- The voltage code applied at a tick (R353, R355): a ramp moves 10 mV, two codes, each microsecond. -/
def Island.vnow (i : Island) (time : Nat) : Nat :=
  let d := (time - i.since) / 50
  if i.state = .ramp then
    (if i.vcur < i.goal.1 then Nat.min (i.vcur + d) i.goal.1 else Nat.max (i.vcur - d) i.goal.1)
  else i.vcur

/-- The lowest of an island's caps (R357). -/
def Island.cap (i : Island) : Nat := Nat.min (Nat.min i.localCap i.smhbCap) (Nat.min i.emgCap 38)

/-! ### Debug windows (R369 to R375) -/

/-- The partition of a core number and a partition of it. -/
def windowCore (q : Nat) : Nat := q / 4

/-- Whether a team of a context stands on a partition: it is neither swapped out nor saved. -/
def State.teamOn (s : State) (q c : Nat) (t : Team) : Bool :=
  s.ctxOf t == c && s.partOf t == q && !t.swapped && (match s.wgOf t with | some w => w.place != .saved | none => false)

/-- The entities of a context on a partition (R370). -/
def State.entsOn (s : State) (q c : Nat) : List (Nat × Entity) :=
  s.ents.filter fun x => (tabGet s.teams x.2.team).any (s.teamOn q c)

/-- How many entities of a window's context run a handler with a halt pending (R371). -/
def State.pendN (s : State) (q c : Nat) : Nat := ((s.entsOn q c).filter fun x => x.2.handler.isSome && x.2.haltNext).length

/-- The entity that DSEL names (R369). -/
def State.selected (s : State) (q c sel : Nat) : Option (Nat × Entity) :=
  (s.entsOn q c).find? fun x => match tabGet s.teams x.2.team with
    | some t => if sel < 16 then !x.2.isFrag && t.slot == sel else x.2.isFrag && x.2.entry == sel - 16
    | none => false

/-- An entity coded as DSEL (R369). -/
def Entity.selCode (e : Entity) (t : Team) : Nat := if e.isFrag then 16 + e.entry else t.slot

/-- The header and word at which an entity stands: its own, or those of the clause it is held in. -/
def Entity.at' (e : Entity) : Word64 := match e.issue with | some i => i.pc | none => e.pc

/-- The state word that DADDR selects (R374). -/
def stateWord (e : Entity) (t : Team) (daddr : Nat) : Nat :=
  let n := bitsOf daddr 9 4
  let l := bitsOf daddr 19 10
  match daddr % 16 with
  | 0 => (t.sreg n).toNat
  | 1 => ((t.vreg n).lane absentRaw l).toNat
  | 2 => maskWord (t.preg (n % 8) &&& e.mask) l
  | 3 => e.at'.toNat % 4294967296
  | 4 => e.at'.toNat / 4294967296
  | 5 => maskWord e.mask l
  | 6 => t.mode.toNat
  | 7 => t.flags.toNat
  | _ => 0

/-- The kind of a pending write (R375). -/
def State.pendSrc (s : State) (p : Pend) : Nat :=
  match tabGet s.ops p.op with
  | some o =>
    if o.lanes.any LaneAcc.parked then 1
    else match p.ref, o.kind with
      | .s _, .load => 2
      | _, _ => 0
  | none => if s.engines.any fun g => g.2.entries.any fun x => x.1 == p.op then 3 else 4

/-- The entity that a pending write is made for (R375): its operation's, its engine entry's, or the one that waits. -/
def State.pendEnt (s : State) (p : Pend) : Nat :=
  match tabGet s.ops p.op with
  | some o => o.ent
  | none => (s.engines.findSome? fun g => (tabGet g.2.entries p.op).map (·.ent)).getD p.op

/-- A pending write as DSCB reads it, with the number it was made under; none for a file that DSCB does not name. -/
def State.boardWord (s : State) (t : Team) (p : Pend) : Option (Nat × Nat) :=
  let ent := match tabGet s.ents (s.pendEnt p) with
    | some e => e.selCode t
    | none => t.slot
  let reg := match p.ref with
    | .s n => some (0, n)
    | .v n => some (1, n)
    | .o n => some (2, n)
    | _ => none
  reg.map fun (r : Nat × Nat) => (p.made, 1 + 2 * ent + 64 * r.1 + 256 * r.2 + 16384 * s.pendSrc p)

/-- The scoreboard entries of a context on a partition, as DSCB reads them (R375), in the order in which they were made. -/
def State.boardOf (s : State) (q c : Nat) : List Nat :=
  let all := s.teams.flatMap fun x => if s.teamOn q c x.2 then x.2.pend.filterMap (s.boardWord x.2) else []
  (all.mergeSort fun a b => decide (a.1 ≤ b.1)).map (·.2)

/-- A word of a debug window (R369). -/
def State.windowRead (s : State) (q off : Nat) : Nat :=
  let w := s.window q
  let pend := if w.stopped || w.stopping then s.pendN q w.sctx else 0
  match off with
  | 0x04 => bitAt w.stopped 0 + bitAt w.busy 1 + 4 * (if pend < 15 then pend else 15) + bitAt w.lost 6 + bitAt w.err 7 +
      256 * w.sctx + 65536 * (w.stepn % 256)
  | 0x08 => w.dsel
  | 0x0C => w.daddr.toNat
  | 0x10 => match s.selected q w.sctx w.dsel with
    | some (_, e) => (match tabGet s.teams e.team with
      | some t => if w.stopped then stateWord e t w.daddr.toNat else 0
      | none => 0)
    | none => 0
  | 0x14 => w.dscbi
  | 0x18 => (s.boardOf q w.sctx).getD w.dscbi 0
  | 0x24 => w.bcode + 65536 * w.bent + bitAt w.bval 31
  | 0x28 => pend
  | _ => 0

/-! ### Histograms (R379) -/

/-- A word of a histogram window. -/
def State.histRead (s : State) (h off : Nat) : Nat :=
  let x := s.hist h
  if off < 0x80 then (if off % 4 = 0 then (tabGet x.bkt (off / 4)).getD 0 else 0)
  else match off with
    | 0x80 => x.pctl + 256 * x.act + bitAt x.arm 10 + bitAt x.fired 11 + bitAt x.frozen 12 + 65536 * x.mincnt
    | 0x84 => x.flat
    | _ => 0

/-! ### The call board (R350 to R354, R358, R359, R361, R394) -/

/-- A word of the service descriptor (R394). -/
def Service.word (x : Service) (off : Nat) : Nat :=
  match off with
  | 0x00 => x.svc + 4 * x.boot + 65536 * x.seq
  | 0x04 => x.stk + 256 * x.lyr + 65536 * x.fmax
  | 0x08 => x.fmt
  | 0x0C => x.hbm + bitAt x.half 16
  | 0x10 => x.fwver.toNat
  | _ => 0

/-- A policy or status word (R352, R361). -/
def Policy.word (x : Policy) (off : Nat) : Nat :=
  match off with
  | 0x00 => x.tmig + 65536 * x.tthr
  | 0x04 => 1080 + 65536 * x.migDelta + bitAt x.migEn 31
  | 0x08 => x.migGap
  | 0x0C => x.smax
  | 0x10 => x.smhb
  | 0x14 => bitAt x.emg 0 + bitAt x.emgSrc 1 + 256 * x.emgSeq
  | _ => 0

/-- A word of a column's sample record (R351). -/
def Column.word (x : Column) (off : Nat) : Nat :=
  match off with
  | 0 => x.busy + 256 * x.stall + 65536 * x.seq
  | 4 => x.pwr + 65536 * x.lost
  | 8 => x.temps.getD 0 0 + 65536 * x.temps.getD 1 0
  | 12 => x.temps.getD 2 0 + 65536 * x.temps.getD 3 0
  | _ => 0

/-- A word of an island (R353). -/
def Island.word (x : Island) (time off : Nat) : Nat :=
  match off with
  | 0 => x.vtgt + 256 * x.ftgt
  | 4 => x.vnow time + 256 * x.fcur + 65536 * x.state.code + 1048576 * x.result + bitAt x.pending.isSome 22 +
      bitAt (decide (x.cap < x.ftgt)) 23 + 16777216 * x.cap
  | _ => 0

/-- A word of the call board. -/
def State.boardRead (s : State) (a : Nat) : Nat :=
  if a % 4 ≠ 0 then 0
  else if a < 0x10100 then s.service.word (a - 0x10000)
  else if a < 0x10118 then s.policy.word (a - 0x10100)
  else if 0x10800 ≤ a ∧ a < 0x10C00 then (s.column ((a - 0x10800) / 4)).budget
  else if 0x11000 ≤ a ∧ a < 0x12000 then (s.column ((a - 0x11000) / 16)).word ((a - 0x11000) % 16)
  else if 0x14000 ≤ a ∧ a < 0x14000 + 8 * 1344 then (s.island ((a - 0x14000) / 8)).word s.time.toNat ((a - 0x14000) % 8)
  else if 0x17000 ≤ a ∧ a < 0x17000 + 4 * 1344 then
    let f := Config.fuse ((a - 0x17000) / 4)
    f.1 % 128 + 256 * (f.2 % 128)
  else if 0x18800 ≤ a ∧ a < 0x18C00 then
    let e := s.engine ((a - 0x18800) / 4)
    e.on.toNat + 16 * e.gate.toNat
  else 0

/-! ### Contexts (R315, R333, R367, R381) -/

/-- The CTXCFG word. -/
def Ctx.cfg (x : Ctx) : Nat :=
  bitAt x.priv 0 + 2 * x.port + 4 * x.part + 32 * x.share + bitAt x.trapEn 13 + 16384 * x.tmask

/-- A one-word register of a context's first block. -/
def Ctx.word (x : Ctx) (off : Nat) : Nat :=
  match off with
  | 0x00 => x.cfg
  | 0x08 => x.state.code + bitAt x.err 3
  | 0x0C => x.seed.toNat
  | 0x20 => x.fqLog
  | 0x24 => x.fqHead.toNat
  | 0x28 => x.fqTail.toNat
  | 0x2C => x.fqOvf
  | _ => 0

/-- A two-word register of the first block, by the number of its low word. -/
def Ctx.pair (x : Ctx) (off : Nat) : Option Word64 :=
  match off with
  | 0x10 => some x.qtBase
  | 0x18 => some x.fqBase
  | 0x30 => some x.tvec
  | 0x38 => some (x.tarea ||| BitVec.ofNat 64 x.tslots)
  | _ => none

/-- A one-word and a two-word register of the second block. -/
def Ctx.word2 (x : Ctx) (off : Nat) : Nat :=
  match off with
  | 0x30 => x.kslot
  | 0x34 => x.tag + 16 * x.count
  | _ => 0
def Ctx.pair2 (x : Ctx) (off : Nat) : Option Word64 :=
  match off with
  | 0x00 => some x.grpBase
  | 0x08 => some x.ctxSave
  | 0x10 => some x.rqva
  | 0x20 => some x.root0
  | 0x28 => some x.root1
  | 0x38 => some (BitVec.ofNat 64 x.tagVa)
  | _ => none

/-- A one-word and a two-word register of the debug-and-counter block. -/
def Ctx.word3 (x : Ctx) (off : Nat) : Nat :=
  match off with
  | 0x00 => bitAt x.dbgEn 0 + 2 * x.dbgPort + bitAt x.dbgMod 2
  | 0x04 => x.cen + 16 * x.oie + 256 * x.ovf
  | 0x08 => x.evt.getD 0 0
  | 0x0C => x.evt.getD 1 0
  | 0x10 => x.evt.getD 2 0
  | 0x14 => x.evt.getD 3 0
  | _ => 0
def Ctx.pair3 (x : Ctx) (off : Nat) : Option Word64 :=
  match off with
  | 0x18 => some (BitVec.ofNat 64 (x.counters.getD 0 0))
  | 0x20 => some (BitVec.ofNat 64 (x.counters.getD 1 0))
  | 0x28 => some (BitVec.ofNat 64 (x.counters.getD 2 0))
  | 0x30 => some (BitVec.ofNat 64 (x.counters.getD 3 0))
  | _ => none

/-! ### The space (R312) -/

/-- The LINKUP register (R388). -/
def State.linkUpWord (s : State) : Nat :=
  (List.range 18).foldl (fun a i => match tabGet s.links i with
    | some l => a + bitAt (l.trained && l.keyed) i
    | none => a) 0

/-- A one-word global register (R315, R346, R377, R388, R392). -/
def State.globalWord (s : State) (a : Nat) : Nat :=
  if 0x10 ≤ a ∧ a < 0x30 then (if a % 4 = 0 then s.partStacks ((a - 0x10) / 4) else 0)
  else match a with
    | 0x00 => bitAt s.sem.held 0 + 2 * s.sem.owner + 256 * s.sem.epoch
    | 0x08 => s.sem.dropCount + 65536 * s.sem.dropPort
    | 0x0C => s.sem.dropReg
    | 0x40 => s.preTo.toNat
    | 0x44 => s.hangLim
    | 0x48 => bitAt s.trace.en 0 + 2 * s.trace.k + bitAt s.trace.mark 6
    | 0x4C => s.trace.trlog
    | 0x58 => s.trace.head.toNat
    | 0x5C => s.trace.tail.toNat
    | 0x60 => s.trace.fdrop + 65536 * s.trace.mdrop
    | 0x64 => s.trace.seq.toNat
    | 0x70 => s.member
    | 0x74 => s.linkEn.toNat
    | 0x78 => s.linkUpWord
    | 0xA0 => s.trust.reqCtx
    | 0xA4 => s.trust.status
    | _ => if 0x80 ≤ a ∧ a < 0xA0 ∧ a % 4 = 0 then (s.trust.nonce.getD ((a - 0x80) / 4) 0).toNat else 0

/-- A two-word register of the space, by the number of its low word. -/
def State.privPair (s : State) (a : Nat) : Option Word64 :=
  if a < 0x1000 then (match a with
    | 0x30 => some s.evPend
    | 0x38 => some s.evMask
    | 0x50 => some s.trace.base
    | 0xA8 => some s.trust.addr
    | _ => none)
  else if a < 0x2000 then (s.ctx ((a - 0x1000) / 64)).pair (a % 64)
  else if a < 0x3000 then (s.ctx ((a - 0x2000) / 64)).pair2 (a % 64)
  else if a < 0x4000 then (s.ctx ((a - 0x3000) / 64)).pair3 (a % 64)
  else if 0x20000 ≤ a ∧ a < histBase 280 ∧ a % 256 = 0x88 then some (BitVec.ofNat 64 (s.hist ((a - 0x20000) / 256)).ftime)
  else if 0x40000 ≤ a ∧ a < windowBase 4096 ∧ a % 256 = 0x1C then
    some (BitVec.ofNat 64 (s.window ((a - 0x40000) / 256)).stopTime)
  else none

/-- A one-word register of the space. -/
def State.privWord (s : State) (a : Nat) : Nat :=
  if a < 0x1000 then s.globalWord a
  else if a < 0x2000 then (s.ctx ((a - 0x1000) / 64)).word (a % 64)
  else if a < 0x3000 then (s.ctx ((a - 0x2000) / 64)).word2 (a % 64)
  else if a < 0x4000 then (s.ctx ((a - 0x3000) / 64)).word3 (a % 64)
  else if 0x10000 ≤ a ∧ a < 0x19000 then s.boardRead a
  else if 0x20000 ≤ a ∧ a < histBase 280 then s.histRead ((a - 0x20000) / 256) (a % 256)
  else if 0x40000 ≤ a ∧ a < windowBase 4096 then s.windowRead ((a - 0x40000) / 256) (a % 256)
  else 0

/-- A read of the privileged space (R312, R315): a number that is not listed reads zero. -/
def State.privRead (s : State) (a : Nat) : Word :=
  match s.privPair a with
  | some x => x.setWidth 32
  | none => match (if 4 ≤ a then s.privPair (a - 4) else none) with
    | some x => (x >>> 32).setWidth 32
    | none => BitVec.ofNat 32 (s.privWord a)

end Sys2Proof.Machine
end

