-- ==== Sys2Proof/Machine/Debug.lean ====
section
/-! DEFINITION. Partition debug: the debug right, stops, steps and edits, and `brk` (R367 to R376). -/

namespace Sys2Proof.Machine

/-- Whether a port holds the debug right of a context (R367). -/
def State.debugRight (s : State) (port c : Nat) : Bool := (s.ctx c).dbgEn && (s.ctx c).dbgPort == port

/-- A refused command or edit (R367, R369). -/
def State.debugErr (s : State) (q : Nat) : State := s.modWindow q fun w => { w with err := true }

/-! ### Stop and resume (R370, R371) -/

/-- A halt reaches an entity: one at a boundary stops, and one in issue or in a handler has it pending. -/
def Entity.halt (e : Entity) : Entity :=
  if e.handler.isNone && e.atBoundary then { e with stopped := true, haltNext := false }
  else if e.stopped then e
  else { e with haltNext := true }

/-- A stop, or a step, is over once no entity that must halt is still in issue outside a handler (R370, R373). -/
def State.settleStop (s : State) (q : Nat) : State :=
  let w := s.window q
  let going := (s.entsOn q w.sctx).filter fun x => x.2.haltNext && x.2.handler.isNone
  if (w.stopping || w.busy) && w.retry.isNone && going.all (fun x => x.2.atBoundary) then
    let s := going.foldl (fun s x => s.modEnt x.1 Entity.halt) s
    if w.stopping then s.modWindow q fun w => { w with stopped := true, stopping := false } else s
  else s

/-- A context stops on a partition (R370); while another one is stopped there, that is refused (R369). -/
def State.stopOn (s : State) (q c : Nat) : State :=
  let w := s.window q
  if (w.stopped || w.stopping) && w.sctx != c then s.debugErr q
  else
    let s := (s.entsOn q c).foldl (fun s x => s.modEnt x.1 Entity.halt) s
    if w.stopped then (s.modWindow q fun w => { w with stopping := true }).settleStop q
    else (s.modWindow q fun w => { w with stopping := true, sctx := c, stopTime := s.time.toNat }).settleStop q

/-- The stopped entities of a context on a partition run again, and its pending halts are cancelled (R370). -/
def State.resumeOn (s : State) (q c : Nat) : State :=
  let s := (s.entsOn q c).foldl (fun s x => s.modEnt x.1 fun e => { e with stopped := false, haltNext := false }) s
  if (s.window q).sctx = c then
    s.modWindow q fun w => { w with stopped := false, stopping := false, busy := false, stepping := [], retry := none }
  else s

/-- A debug right is revoked (R368): every stopped entity of the context resumes, on every partition. -/
def State.revoke (s : State) (c : Nat) : State :=
  let ents := s.ents.map fun (x : Nat × Entity) => match tabGet s.teams x.2.team with
    | some t => if s.ctxOf t = c then (x.1, { x.2 with stopped := false, haltNext := false }) else x
    | none => x
  let debug := (s.debug).map fun (x : Nat × DebugWindow) =>
    if x.2.sctx = c then
      (x.1, { x.2 with stopped := false, stopping := false, busy := false, stepping := [], retry := none })
    else x
  { s with ents := ents, debug := debug }

/-! ### Steps (R373) -/

/-- The order of a STEPALL: team slots, then split-table entries. -/
def State.stepOrder (s : State) (q c : Nat) : List Nat :=
  (List.range 32).filterMap fun k => (s.selected q c k).bind fun x => if x.2.stopped then some x.1 else none

/-- Whether an entity's clause left the boundary it stood at: it issued, faulted, or parked at its fetch. -/
def Entity.leftBoundary : Option Entity → Bool
  | none => true
  | some e => e.issue.isSome || e.handler.isSome || e.parkedPc.isSome

/-- Whether a clause of an entity has just exhausted at its issue: its workgroup is to be aborted, or has been (R276). -/
def State.exhaustedBy (s : State) (e : Entity) : Bool :=
  match tabGet s.teams e.team with
  | some t => (match s.wgOf t with | some w => w.aborting | none => true)
  | none => true

/-- The next entity of a step issues its clause, once the one before it has completed; an entity that is not issuable is skipped,
and one held at a word tries that word again. -/
noncomputable def State.stepNext (s : State) (q : Nat) : State :=
  let w := s.window q
  let going := (s.entsOn q w.sctx).any fun x => x.2.haltNext && x.2.handler.isNone
  if !w.busy || w.retry.isSome || going then s
  else match w.stepping with
    | [] => s.modWindow q fun w => { w with busy := false }
    | k :: rest =>
      let skip (s : State) (n : Nat) : State := s.modWindow q fun w => { w with stepping := rest, stepn := w.stepn + n }
      match tabGet s.ents k with
      | none => skip s 0
      | some x =>
        if !x.stopped then skip s 0
        else if x.issue.isSome then
          (skip (s.modEnt k fun x => { x with stopped := false, haltNext := true }) 0).modWindow q fun w => { w with retry := some k }
        else
          let s1 := s.modEnt k fun x => { x with stopped := false }
          match execClauseIssue k s1 with
          | .next s2 =>
            if Entity.leftBoundary (tabGet s2.ents k) || s2.exhaustedBy x then
              let n := match (tabGet s2.ents k).bind (·.issue) with | some _ => 1 | none => 0
              skip (s2.modEnt k fun x => { x with stopped := x.issue.isNone && x.handler.isNone, haltNext := x.issue.isSome || x.handler.isSome }) n
            else if (s1.candidateClause { x with stopped := false }).isSome then s
            else skip s 0
          | _ => skip s 0

/-- A STEP or a STEPALL begins. -/
noncomputable def State.stepStart (s : State) (q : Nat) (es : List Nat) : State :=
  if (s.window q).busy then s.debugErr q
  else (s.modWindow q fun w => { w with busy := !es.isEmpty, stepping := es, stepn := 0 }).stepNext q

/-- STOP_SETTLED (R370, R373): the last clause in issue of a stop has completed, or that of a step; the next one follows. -/
noncomputable def execStopSettled (q : Nat) (s : State) : Host.Outcome State Fault Refusal :=
  .next ((s.settleStop q).stepNext q)

/-! ### Edits (R374) -/

/-- Whether DADDR names a state that there is. -/
def daddrOk (t : Team) (daddr : Nat) : Bool :=
  let n := bitsOf daddr 9 4
  let l := bitsOf daddr 19 10
  decide (daddr < 2 ^ 20) && (match daddr % 16 with
    | 0 => l == 0
    | 1 => decide (l < t.lanes)
    | 2 => decide (n < 8) && decide (32 * l < t.lanes)
    | 5 => n == 0 && decide (32 * l < t.lanes)
    | 3 | 4 | 6 | 7 => n == 0 && l == 0
    | _ => false)

/-- A mask with one of its words replaced. -/
def setMaskWord (m : BitVec 1024) (w v : Nat) : BitVec 1024 :=
  (m &&& ~~~(BitVec.ofNat 1024 4294967295 <<< (32 * w))) ||| (BitVec.ofNat 1024 v <<< (32 * w))

/-- The lanes that a mask edit may set: those of the team that no other entity of it and no deferral slot of this one holds. -/
def State.editLanes (s : State) (eid : Nat) (e : Entity) (t : Team) : BitVec 1024 :=
  let others := (s.entsOf e.team).filter fun x => x.1 != eid
  let taken := others.foldl (fun m x => x.2.slots.foldl (fun m y => m ||| y.2.mask) (m ||| x.2.mask)) 0
  let mine := e.slots.foldl (fun m y => m ||| y.2.mask) 0
  fullMask t.lanes &&& ~~~(taken ||| mine)

/-- An entity moved to an address: it stands before that clause. -/
def Entity.moveTo (e : Entity) (pc : Word64) : Entity := { e with pc := pc, word := 0, issue := none, hold := none }

/-- The state after an edit that breaks no rule; none where one is broken. -/
def State.editWord (s : State) (eid : Nat) (e : Entity) (t : Team) (daddr : Nat) (v : Word) : Option State :=
  let n := bitsOf daddr 9 4
  let l := bitsOf daddr 19 10
  if !daddrOk t daddr then none
  else match daddr % 16 with
    | 0 => some (s.modTeam e.team fun t => t.setS n v)
    | 1 =>
      let held := s.gRegs e.team t
      if !held.contains n && decide (t.grant < held.length + 1) then none
      else some (s.modTeam e.team fun t => (t.expand n).laneSetV n l v)
    | 2 =>
      let old := t.preg n
      let new := setMaskWord (old &&& e.mask) l v.toNat
      some (s.modTeam e.team fun t => t.setP n ((old &&& ~~~e.mask) ||| (new &&& e.mask)))
    | 3 => if v.toNat % 4 ≠ 0 then none
      else some (s.modEnt eid fun e => e.moveTo (BitVec.ofNat 64 (e.at'.toNat / 4294967296 * 4294967296 + v.toNat)))
    | 4 => some (s.modEnt eid fun e => e.moveTo (BitVec.ofNat 64 (e.at'.toNat % 4294967296 + 4294967296 * v.toNat)))
    | 5 =>
      if v.toNat &&& maskWord (s.editLanes eid e t) l ≠ v.toNat then none
      else some (s.modEnt eid fun e => { e with mask := setMaskWord e.mask l v.toNat })
    | 6 => some (s.modTeam e.team fun t => { t with mode := modeWrite v })
    | _ => some (s.modTeam e.team fun t => { t with flags := v &&& 0x1FF#32 })

/-- Whether an edit writes nothing without breaking a rule: one of `s0` or `p0`. -/
def editDiscards (daddr : Nat) : Bool := (daddr % 16 == 0 || daddr % 16 == 2) && bitsOf daddr 9 4 == 0

/-- A write of DDATA (R374). -/
def State.edit (s : State) (port q : Nat) (v : Word) : State :=
  let w := s.window q
  match s.selected q w.sctx w.dsel with
  | none => s.debugErr q
  | some (eid, e) =>
    match tabGet s.teams e.team with
    | none => s.debugErr q
    | some t =>
      if !w.stopped || !s.debugRight port w.sctx then s.debugErr q
      else match s.editWord eid e t w.daddr.toNat v with
        | none => s.debugErr q
        | some s' => if editDiscards w.daddr.toNat then s' else s'.modCtx w.sctx fun x => { x with dbgMod := true }

/-! ### The window (R369) -/

/-- A command of a window. -/
noncomputable def State.debugCommand (s : State) (port q : Nat) (v : Nat) : State :=
  let c := bitsOf v 13 8
  let w := s.window q
  let mine : Bool := w.stopped && w.sctx == c
  if v % 8 = 0 ∨ 4 < v % 8 then s
  else if !s.debugRight port c then s.debugErr q
  else match v % 8 with
    | 1 => s.stopOn q c
    | 2 => s.resumeOn q c
    | 3 => s.stepStart q (if mine then (match s.selected q c w.dsel with
        | some (k, x) => if x.stopped then [k] else []
        | none => []) else [])
    | _ => s.stepStart q (if mine then s.stepOrder q c else [])

/-- A write of a window's word; RO and unlisted numbers ignore it (R6). -/
noncomputable def State.windowWrite (s : State) (port q off : Nat) (v : Word) : State :=
  match off with
  | 0x00 => s.debugCommand port q v.toNat
  | 0x04 => s.modWindow q fun w => { w with lost := w.lost && !v.getLsbD 6, err := w.err && !v.getLsbD 7 }
  | 0x08 => s.modWindow q fun w => { w with dsel := v.toNat % 32 }
  | 0x0C => s.modWindow q fun w => { w with daddr := v }
  | 0x10 => s.edit port q v
  | 0x14 => s.modWindow q fun w => { w with dscbi := v.toNat % 64 }
  | _ => s

/-- A write of a context's DBG word (R367, R368). -/
def State.dbgWrite (s : State) (c : Nat) (v : Word) : State :=
  let x := s.ctx c
  let port := if v.getLsbD 1 then 1 else 0
  let s := if x.dbgEn && (!v.getLsbD 0 || port != x.dbgPort) then s.revoke c else s
  s.modCtx c fun x => { x with dbgEn := v.getLsbD 0, dbgPort := port }

/-! ### `brk` (R376, R384) -/

/-- `brk`: the debugger takes it where the context's debug right is granted and no handler runs; else BRK is a fault. -/
def execBrk (i : BitVec 16) (s : State) : Host.Outcome State Fault Refusal :=
  withCur s fun c =>
    let ctx := s.ctxOf c.t
    if (s.ctx ctx).dbgEn && c.e.handler.isNone then
      let q := s.partOf c.t
      let s := s.modWindow q fun w => { w with bcode := i.toNat, bent := c.e.selCode c.t, bval := true }
      let s := if c.i.words.length ≤ c.i.next + 1 then c.finish s
        else
          let s := match c.i.modeNew with
            | some m => s.modTeam c.e.team fun t => { t with mode := m }
            | none => s
          s.modEnt c.eid fun e => { e with issue := none, hold := none, pc := c.i.pc, word := c.i.next + 2 }
      (s.stopOn q ctx).settle c.e.team
    else c.raiseWith s { c.fault cBRK 0 with code := i.toNat, resume := c.i.next + 2 }

end Sys2Proof.Machine
end

