-- ==== Sys2Proof/Machine/Record.lean ====
section
/-! DEFINITION. The save record of a workgroup (R344; log 15): its parts as a save writes them, and as a restore reads them back. -/

namespace Sys2Proof.Machine

/-! ### The save record (R344) -/

/-- Three numbers of a record. -/
def tripleBytes (t : Triple) : List Byte := leBytes 4 t.x ++ leBytes 4 t.y ++ leBytes 4 t.z

/-- The header of a save record. -/
def State.recordHeader (s : State) (wid : Nat) (w : Workgroup) (total : Nat) : List Byte :=
  let grid := match tabGet s.grids w.grid with | some g => (g.gridId, g.queue, g.rcd.lane) | none => (0, 0, 0)
  padTo 256 (leBytes 4 1 ++ leBytes 4 total ++ tripleBytes w.wgid ++ tripleBytes w.lo ++ tripleBytes w.hi ++ leBytes 4 w.splits ++
    leBytes 4 grid.1 ++ leBytes 4 grid.2.1 ++ leBytes 4 (if w.phase then 1 else 0) ++ leBytes 4 w.words ++ leBytes 4 w.spadSize ++
    leBytes 4 grid.2.2 ++ leBytes 4 w.teams ++ (s.sections wid w).flatMap (leBytes 4))

/-- The state of a parked access in a record: bit 0 where it is released, and bit 1 where that carries FAIL. -/
def ReplayEntry.waitCode (r : ReplayEntry) : Nat := (if r.released then 1 else 0) + (if r.fail then 2 else 0)

/-- One parked access of a record: the fields of R338, its state, and where its operands lie. -/
def State.parkedBytes (s : State) (ctx : Nat) (r : ReplayEntry) (at' : Nat) : List Byte :=
  let (pc, word) := match tabGet s.ops r.op with
    | some o => (o.pc.toNat, o.word)
    | none => match tabGet s.ents r.ent with
      | some e => (e.resumeAt.1.toNat, e.resumeAt.2)
      | none => (0, 0)
  let frag := match tabGet s.ents r.ent with | some e => e.fragCode | none => 0
  let team := match tabGet s.teams r.team with | some t => t.teamId | none => 0
  padTo 64 (leBytes 4 (ctx + 65536 * frag + 16777216 * team) ++ leBytes 4 word ++ leBytes 8 pc ++ leBytes 8 (r.page * 65536) ++
    leBytes 4 r.waitCode ++ leBytes 4 at' ++ leBytes 4 (operandBytes r))

/-- The captured operands of a parked access: its lanes, and what they store or combine. -/
def State.operandSection (s : State) (r : ReplayEntry) : List Byte :=
  let data := match tabGet s.ops r.op with
    | some o => (o.lanes.filter fun l => r.lanes.contains l.lane).flatMap (·.data)
    | none => []
  padTo (operandBytes r) (leBytes 128 (maskOf r.lanes).toNat ++ data)

/-- The parked accesses of a record, each with the place of its operands. -/
def State.parkedSection (s : State) (ctx : Nat) : Nat → List (Nat × ReplayEntry) → List Byte
  | _, [] => []
  | at', r :: rs => s.parkedBytes ctx r.2 at' ++ s.parkedSection ctx (at' + operandBytes r.2) rs

/-- A number as 16 bytes of a record: its kind, its sign, its exponent and its significand (log 15). -/
def Num.image (x : Num) : List Byte :=
  match x with
  | .absent => leBytes 16 0
  | .nan sig => leBytes 16 (if sig then 257 else 1)
  | .inf neg => leBytes 16 (if neg then 258 else 2)
  | .fin neg man exp => leBytes 4 (if neg then 259 else 3) ++ leBytes 4 (exp % 4294967296).toNat ++ leBytes 8 man

/-- A table of numbers in a record: how many it lists, and each with its place. -/
def numTable (t : Tab Num) : List Byte := leBytes 4 t.length ++ t.flatMap fun x => leBytes 4 x.1 ++ x.2.image

/-- A plane in a record: each band's format and what it holds. -/
def planeImage (bs : List Band) : List Byte :=
  bs.flatMap fun b => leBytes 4 (if b.format.isSome then 1 else 0) ++ leBytes 4 (b.format.getD 0).toNat ++ numTable b.elems ++
    numTable b.scales

/-- The slots of the records that are reserved, and where each one's bytes begin in the MOB as a record lays it out: one after the
other. -/
def Engine.slots (e : Engine) : List Nat := (List.range 16).filter fun r => (tabGet e.recs r).isSome
def Engine.mobPlace (e : Engine) (r : Nat) : Nat := ((e.slots.takeWhile (· != r)).map fun k => fmtSpace (e.record k).format).sum

/-- The engine's section (R344; log 15): the RAW images of its tiles, the MOB, the record table, both planes, the activation table,
the latches, and the pending entries by the instructions that made them. -/
def Engine.section' (e : Engine) : List Byte :=
  (List.range 8).flatMap (fun t => (e.tile t).image) ++
  padTo mobBytes (e.slots.flatMap fun r => (List.range (fmtSpace (e.record r).format)).map fun i => (e.record r).byte i) ++
  ((List.range 16).flatMap fun r => match tabGet e.recs r with
    | some x => leBytes 4 x.format.toNat ++ leBytes 4 (e.mobPlace r) ++
        leBytes 4 (match x.scales with | some (q, _) => 1 + 16 * q | none => 0) ++ leBytes 4 ((x.scales.map (·.2)).getD 0)
    | none => leBytes 16 0) ++
  planeImage e.active ++ planeImage e.shadow ++
  (e.table.ys ++ [e.table.x0, e.table.h]).flatMap (fun w => leBytes 4 w.toNat) ++
  ((List.range 16).flatMap fun k => match tabGet e.latches k with
    | some l => leBytes 4 l.members.length ++ leBytes 4 l.ref.length ++ l.ref.flatMap (leBytes 8)
    | none => leBytes 8 0) ++
  (leBytes 4 e.entries.length ++ e.entries.flatMap fun x =>
    leBytes 8 x.2.pc.toNat ++ leBytes 4 x.2.word ++ leBytes 4 x.2.progress ++ leBytes 4 x.2.missing.length ++
      x.2.missing.flatMap fun p => leBytes 8 (p * 65536))

/-- The parts of a workgroup's save record that are written before its LANE, SPAD and CLMEM, which follow block by block (R343
step 4). -/
def State.recordBytesOf (s : State) (wid : Nat) (w : Workgroup) (engine : Option Engine) : List (Nat × List Byte) :=
  let sec := s.sections wid w
  let ps := s.parkedOf wid
  let ts := s.teamsInOrder wid
  let tail := match engine with | some e => e.section' | none => []
  [(0, s.recordHeader wid w (sec.getD 6 0 + tail.length)),
   (256, s.parkedSection w.ctx (sec.getD 1 0) ps),
   (sec.getD 1 0, ps.flatMap fun r => s.operandSection r.2),
   (sec.getD 2 0, ts.flatMap fun t => padTo (s.imageSize t.1 t.2) (s.teamImage t.1 t.2)),
   (sec.getD 6 0, tail)]

/-- The bytes that a record takes, a multiple of 4 KiB. -/
def recordLength (parts : List (Nat × List Byte)) : Nat :=
  alignUp ((parts.map fun p => p.1 + p.2.length).foldl Nat.max 256) 4096

/-! ### The way back (R344) -/

/-- What the header of a record gives back to its workgroup. -/
def State.loadHeader (s : State) (wid : Nat) (w : Workgroup) : State :=
  let n (k : Nat) : Nat := s.physNat (s.recordAddr w + k) 4
  let triple (k : Nat) : Triple := ⟨n k, n (k + 4), n (k + 8)⟩
  s.modWg wid fun w =>
    { w with wgid := triple 8, lo := triple 20, hi := triple 32, splits := n 44, phase := n 56 % 2 == 1
             words := if n 60 = w.words % 4294967296 then w.words else n 60 }

/-- The captured operands of a parked access from an address on, where they differ: a lane that its mask has lost is done without
effect. -/
def State.loadOperands (s : State) (a : Nat) (r : ReplayEntry) : State :=
  let old := s.operandSection r
  if s.loadBytes (physOf a 0) old.length = old then s
  else
    let m : BitVec 1024 := .ofNat 1024 (s.physNat a 128)
    let step (x : List LaneAcc × Nat) (l : LaneAcc) : List LaneAcc × Nat :=
      if r.lanes.contains l.lane then
        (x.1 ++ [{ l with data := s.loadBytes (physOf x.2 0) l.data.length, done := l.done || !m.getLsbD l.lane }], x.2 + l.data.length)
      else (x.1 ++ [l], x.2)
    s.modOp r.op fun o => { o with lanes := (o.lanes.foldl step ([], a + 128)).1 }

/-- A parked access and its operands as a record at an address gives them back (R344): its page, its state, and the word that it
belongs to. -/
def State.loadParked (s : State) (base a id : Nat) (r : ReplayEntry) : State :=
  let at' := s.physNat (a + 28) 4
  let st := s.physNat (a + 24) 4
  let s := s.loadOperands (base + at') r
  let x := { r with page := s.physNat (a + 16) 8 / 65536, released := bitOf st 0, fail := bitOf st 1 }
  let s := { s with replay := tabPut s.replay id x }
  s.modOp r.op fun o => { o with pc := .ofNat 64 (s.physNat (a + 8) 8), word := s.physNat (a + 4) 4 }

/-- The parked accesses of a workgroup as its record gives them back, in their saved order. -/
def State.loadParkedAll (s : State) (wid : Nat) (w : Workgroup) : State :=
  let base := s.recordAddr w
  let at' := base + s.recordSection w 0
  ((s.parkedOf wid).zipIdx).foldl (fun s r => s.loadParked base (at' + 64 * r.2) r.1.1 r.1.2) s

/-- A number of a record (log 15). -/
def State.loadNum (s : State) (a : Nat) : Num :=
  let k := s.physNat a 4
  match k % 256 with
  | 1 => .nan (bitOf k 8)
  | 2 => .inf (bitOf k 8)
  | 3 => .fin (bitOf k 8) (s.physNat (a + 8) 8) (intVal 32 (s.physNat (a + 4) 4))
  | _ => .absent

/-- A table of numbers, a band and a plane of a record, each with the address of what follows it. -/
def State.loadNums (s : State) (a : Nat) : Tab Num × Nat :=
  let n := s.physNat a 4
  ((List.range n).map fun i => (s.physNat (a + 4 + 20 * i) 4, s.loadNum (a + 8 + 20 * i)), a + 4 + 20 * n)
def State.loadBand (s : State) (a : Nat) : Band × Nat :=
  let (es, a1) := s.loadNums (a + 8)
  let (ss, a2) := s.loadNums a1
  ({ format := if s.physNat a 4 = 0 then none else some (.ofNat 32 (s.physNat (a + 4) 4)), elems := es, scales := ss }, a2)
def State.loadPlane (s : State) (a : Nat) : List Band × Nat :=
  (List.range 4).foldl (fun x _ => let (b, a) := s.loadBand x.2; (x.1 ++ [b], a)) ([], a)

/-- A record of the MOB: its line of the record table at an address, and its bytes in the MOB of the section. -/
def State.loadRec (s : State) (mob a : Nat) (old : MobRecord) : Option MobRecord :=
  let f := s.physNat a 4
  let q := s.physNat (a + 8) 4
  if f = 0 then none
  else
    let w : Word := .ofNat 32 f
    let r : MobRecord := { format := w, bytes := [], fresh := old.fresh, scales := if q % 16 = 1 then some (q / 16, s.physNat (a + 12) 4) else none }
    some (r.store 0 (s.loadBytes (physOf (mob + s.physNat (a + 4) 4) 0) (fmtSpace w)))

/-- The latches, each with the address of what follows it. -/
def State.loadLatches (s : State) (a : Nat) (old : Tab GangLatch) : Tab GangLatch × Nat :=
  (List.range 16).foldl (fun x k =>
    let n := s.physNat (x.2 + 4) 4
    let refs := (List.range n).map fun i => s.physNat (x.2 + 8 + 8 * i) 8
    (tabMod x.1 k fun l => { l with ref := refs }, x.2 + 8 + 8 * n)) (old, a)

/-- The pending entries: where each stands, and the pages it misses. -/
def State.loadPending (s : State) (a : Nat) (old : Tab EngineEntry) : Tab EngineEntry :=
  (old.foldl (fun (x : Tab EngineEntry × Nat) e =>
    let n := s.physNat (x.2 + 16) 4
    let new := { e.2 with pc := .ofNat 64 (s.physNat x.2 8), word := s.physNat (x.2 + 8) 4, progress := s.physNat (x.2 + 12) 4
                          missing := (List.range n).map fun i => s.physNat (x.2 + 20 + 8 * i) 8 / 65536 }
    (x.1 ++ [(e.1, new)], x.2 + 20 + 8 * n)) ([], a)).1

/-- An engine as the section of a record at an address gives it back (R344, R260; log 15), where that differs from what was saved. -/
def State.loadEngine (s : State) (a : Nat) (e : Engine) : Engine :=
  let bs := e.section'
  if s.loadBytes (physOf a 0) bs.length = bs then e
  else
    let byte (i : Nat) : Byte := .ofNat 8 (s.physNat i 1)
    let mob := a + 8 * rawBytes
    let recs := mob + mobBytes
    let (act, a1) := s.loadPlane (recs + 256)
    let (sha, a2) := s.loadPlane a1
    let word (k : Nat) : Word := .ofNat 32 (s.physNat (a2 + 4 * k) 4)
    let (latches, a3) := s.loadLatches (a2 + 524) e.latches
    { e with
      tiles := (List.range 8).map fun t => (t, tileOf fun i => byte (a + rawBytes * t + i))
      recs := (List.range 16).filterMap fun r => (s.loadRec mob (recs + 16 * r) (e.record r)).map fun x => (r, x)
      active := act, shadow := sha
      table := { ys := (List.range 129).map word, x0 := word 129, h := word 130 }
      latches := latches
      entries := s.loadPending (a3 + 4) e.entries }

end Sys2Proof.Machine
end

