-- ==== Sys2Proof/Machine/Grid.lean ====
section
/-! DEFINITION. The grid unit: records to grids (R264 to R267), the choice of a context and the draw (R319 to R322), placement
(R326), and retirement (R14, R319). -/

namespace Sys2Proof.Machine

/-! ### Where work can go -/

/-- The core on which a workgroup's resources are held, and the one it moves to, from the choice of the move on; a saved
workgroup holds none (R343, R364). -/
def Workgroup.cores (w : Workgroup) : List Nat :=
  if w.place = .saved then [] else w.core :: w.target.toList

/-- Whether a core is in service (R395). -/
def State.coreInService (s : State) (g : Nat) : Bool := bitOf s.service.stk (coreStack g) && bitOf s.service.lyr (coreLayer g)

/-- The workgroups whose resources a core holds. -/
def State.coreWgs (s : State) (g : Nat) : List (Nat × Workgroup) := s.wgs.filter fun x => x.2.cores.contains g

/-- The live teams of a partition of a core, whose LANE memory it holds (R91), and of them those in a slot: a swapped team holds
none (R14). -/
def State.partAll (s : State) (g p : Nat) : List (Nat × Team) :=
  s.teams.filter fun x => x.2.part == p && s.teamLive x.1 &&
    (match s.wgOf x.2 with | some w => w.cores.contains g | none => false)
def State.partTeams (s : State) (g p : Nat) : List (Nat × Team) := (s.partAll g p).filter fun x => !x.2.swapped

/-- The vector storage and the LANE bytes that a team takes (R43, R92). -/
def State.laneMaxOf (s : State) (t : Team) : Nat := match s.gridOf t with | some g => g.rcd.laneMax | none => 0
def vectorBytes (grant lanes : Nat) : Nat := grant * lanes * 4

/-- Whether a partition takes `slots` more teams of a kind into slots, and the LANE memory of `all` (R13, R43, R92). -/
def State.partTakes (s : State) (g p lanes grant laneMax slots all : Nat) : Bool :=
  let ts := s.partTeams g p
  let v := (ts.map fun x => vectorBytes x.2.grant x.2.lanes).sum
  let l := ((s.partAll g p).map fun x => s.laneMaxOf x.2 * x.2.lanes).sum
  decide (ts.length + slots ≤ 16) && decide (v + slots * vectorBytes grant lanes ≤ 262144) &&
    decide (l + all * (laneMax * lanes) ≤ 262144)

/-- Whether a partition takes a team beside those already placed and some more of the same kind. -/
def State.partFits (s : State) (g p lanes grant laneMax more : Nat) : Bool :=
  s.partTakes g p lanes grant laneMax (more + 1) (more + 1)

/-- The partition of each of `n` teams (R326): the one with the fewest resident teams among those that fit, the lower on a tie. -/
def State.chooseParts (s : State) (g lanes grant laneMax : Nat) : Nat → List Nat → Option (List Nat)
  | 0, acc => some acc
  | n + 1, acc =>
    let more (p : Nat) : Nat := (acc.filter (· == p)).length
    let fit := (List.range 4).filter fun p => s.partFits g p lanes grant laneMax (more p)
    let load (p : Nat) : Nat := (s.partTeams g p).length + more p
    match fit with
    | [] => none
    | p :: ps => s.chooseParts g lanes grant laneMax n (acc ++ [ps.foldl (fun m x => if load x < load m then x else m) p])

/-- Whether a core has room for a workgroup's SPAD (R92). -/
def State.spadFits (s : State) (g spadMax : Nat) : Bool :=
  let used := ((s.coreWgs g).map fun x => match tabGet s.grids x.2.grid with | some r => r.rcd.spadMax | none => 0).sum
  decide (used + spadMax ≤ 8388608)

/-- Whether a core takes a workgroup of a grid, and the partitions of its teams. -/
def State.coreFits (s : State) (r : LaunchRec) (g : Nat) : Option (List Nat) :=
  if s.coreInService g && s.spadFits g r.spadMax then s.chooseParts g r.lanes r.grant r.laneMax r.teams [] else none

/-- The workgroups resident in a column (R326), and the last temperature of a layer of it. -/
def State.columnLoad (s : State) (col : Nat) : Nat := (s.wgs.filter fun x => x.2.cores.any fun g => coreColumn g == col).length
def State.coreTemp (s : State) (g : Nat) : Nat := (s.column (coreColumn g)).temps.getD (coreLayer g) 0

/-- The cores of a context's partition (R318); those of one stack where the grid has its STMEM there (R92). -/
def State.partitionCores (s : State) (c : Nat) : List Nat :=
  (List.range 1024).filter fun g => bitOf (s.partStacks (s.ctx c).part) (coreStack g)

/-- A place that could take a unit (R326): its column or four columns, how many workgroups they hold, its temperature, and its
number. -/
structure Site where
  column : Nat
  load : Nat
  temp : Nat
  num : Nat

/-- The site of a list that has the least of a first key, then of its number. -/
def leastSite (key : Site → Nat) (l : List Site) : Option Site :=
  l.foldl (fun m x => match m with
    | some y => if key x < key y ∨ key x = key y ∧ x.num < y.num then some x else some y
    | none => some x) none

/-- The preferred site (R326): within a column the coolest, and of the columns the one with the fewest workgroups; the number
decides each tie. -/
def bestOf (l : List Site) : Option Nat :=
  let tops := ((l.map Site.column).eraseDups).filterMap fun c => leastSite Site.temp (l.filter fun x => x.column == c)
  (leastSite Site.load tops).map Site.num

/-- Whether a stack may hold the grid's STMEM (R92): it holds it already, or has room. -/
def State.stmemFits (s : State) (r : Grid) (st : Nat) : Bool :=
  match r.rcd.stmem, r.stack with
  | 0, _ => true
  | _, some k => k == st
  | n, none => decide ((((s.grids.filter fun x => x.2.stack == some st && !x.2.retired).map fun x => x.2.rcd.stmem).sum) + n ≤ 67108864)

/-- A core, and an engine's cluster, as sites. -/
def State.coreSite (s : State) (g : Nat) : Site :=
  { column := coreColumn g, load := s.columnLoad (coreColumn g), temp := s.coreTemp g, num := g }
def State.clusterSite (s : State) (e : Nat) : Site :=
  let four := (List.range 4).map (4 * e + ·)
  { column := coreColumn (4 * e) / 4, load := (four.map fun g => s.columnLoad (coreColumn g)).sum
    temp := (four.map s.coreTemp).foldl Nat.max 0, num := e }

/-- Whether an engine has an owner, or a cluster launch on its way to it (R236, R366). -/
def State.engineTaken (s : State) (e : Nat) : Bool :=
  (s.engine e).owner.isSome || s.wgs.any fun w => w.2.cluster.isSome && w.2.cores.any fun g => coreEngine g == e

/-- The core for a workgroup of a grid (R326). -/
def State.chooseCore (s : State) (c : Nat) (r : Grid) : Option Nat :=
  let ok := (s.partitionCores c).filter fun g => s.stmemFits r (coreStack g) && (s.coreFits r.rcd g).isSome
  bestOf (ok.map s.coreSite)

/-- The cluster for a cluster launch of `n` workgroups (R326, R236): an engine without an owner, and room on its first `n` cores. -/
def State.chooseCluster (s : State) (c : Nat) (r : Grid) (n : Nat) : Option Nat :=
  let cores := s.partitionCores c
  let ok := (List.range 256).filter fun e =>
    cores.contains (4 * e) && !s.engineTaken e && s.stmemFits r (coreStack (4 * e)) &&
      (List.range n).all fun i => (s.coreFits r.rcd (4 * e + i)).isSome
  bestOf (ok.map s.clusterSite)

/-! ### Starting a workgroup (R154, R267, R280) -/

/-- The mask that a team starts with (R16). -/
def startMask (lo hi : Triple) (team lanes : Nat) : BitVec 1024 :=
  let n := (hi.x - lo.x) * (hi.y - lo.y) * (hi.z - lo.z)
  fullMask (if n - team * lanes < lanes then n - team * lanes else lanes)

/-- An entity at a team's start. -/
def startEntity (team : Nat) (mask : BitVec 1024) (pc : Word64) : Entity :=
  { team := team, parent := none, entry := 0, token := 0, mask := mask, pc := pc, word := 0, issue := none
    loops := [], inherited := 0, slots := [], handler := none, snap := none, hold := none, arrived := none, waits := 0, ready := 0
    stopped := false, haltNext := false, parkedPc := none }

/-- A team at its start (R39, R154). -/
def startTeam (wg teamId part slot : Nat) (r : LaunchRec) : Team :=
  let t : Team :=
    { wg := wg, teamId := teamId, lanes := r.lanes, part := part, slot := slot, s := [], v := [], o := [], p := [], b := []
      mode := if r.det then 32 else 0, flags := 0, mshape := 15, gang := none, gangMap := 0, live := 64, deadline := 8388608
      retired := 0, grant := r.grant, laneSize := r.lane, laneMem := [], cntLd := [], cntSt := [], cntCp := [], cntTl := []
      pend := [], hang := 0, cyc := 0, keys := [], dying := false, ydl := none, swapped := false, offered := false }
  t.setX 1 (BitVec.ofNat 64 r.param)

/-- The lowest team slot of a partition that no team is in. -/
def State.freeTeamSlot (s : State) (g p : Nat) : Nat := (lowestFree ((s.partTeams g p).map fun x => x.2.slot) 16).getD 0

/-- Whether a debugger has stopped a context on a partition of a core (R370): a team placed there starts stopped. -/
def State.partStopped (s : State) (c core p : Nat) : Bool :=
  let w := s.window (4 * core + p)
  (w.stopped || w.stopping) && w.sctx == c

/-- The teams of a new workgroup, from the list of their partitions. -/
def State.addTeams (s : State) (wg core : Nat) (lo hi : Triple) (r : LaunchRec) : List Nat → Nat → State
  | [], _ => s
  | p :: ps, i =>
    let slot := s.freeTeamSlot core p
    let (tid, s) := s.fresh
    let (eid, s) := s.fresh
    ({ s with teams := tabPut s.teams tid (startTeam wg i p slot r)
              ents := tabPut s.ents eid
                { startEntity tid (startMask lo hi i r.lanes) (BitVec.ofNat 64 r.entry) with
                  stopped := s.partStopped (s.ctxOf (startTeam wg i p slot r)) core p } }).addTeams wg core lo hi r ps (i + 1)

/-- A workgroup of a grid starts on a core. -/
def State.addWg (s : State) (gid : Nat) (r : Grid) (core : Nat) (wgid lo hi : Triple) (splits : Nat) (cluster : Option Nat)
    (slot : Nat) : Nat × State :=
  let (wid, s) := s.fresh
  let w : Workgroup :=
    { ctx := r.ctx, grid := gid, wgid := wgid, lo := lo, hi := hi, splits := splits, cluster := cluster, clusSlot := slot
      core := core, teams := r.rcd.teams, phase := r.rcd.split, words := 0, spad := [], spadSize := r.rcd.spad, spadRes := []
      arrivals := [], rvGen := 0, place := .resident, saveAt := 0, kids := [], aborting := false }
  let parts := (s.coreFits r.rcd core).getD (List.replicate r.rcd.teams 0)
  let s := { s with wgs := tabPut s.wgs wid w }
  let s := s.modGrid gid fun g => { g with stack := if g.rcd.stmem = 0 then none else some (coreStack core) }
  -- what happens before a workgroup starts is not hidden from it by what its column's L1 holds (R120, R121)
  (wid, (s.l1Sync (coreColumn core)).addTeams wid core lo hi r.rcd parts 0)

/-- The blocks of a grid along the axes, and how many workgroups it has (R267). -/
def LaunchRec.blocks (r : LaunchRec) (a : Nat) : Nat := ceilDiv (r.ext.axis a) (r.grain.axis a)
def LaunchRec.total (r : LaunchRec) : Nat := r.blocks 0 * r.blocks 1 * r.blocks 2

/-- The workgroup number and the subdomain of a linear index (R267). -/
def LaunchRec.wgid (r : LaunchRec) (i : Nat) : Triple :=
  ⟨i % r.blocks 0, i / r.blocks 0 % r.blocks 1, i / (r.blocks 0 * r.blocks 1)⟩
def LaunchRec.lo (r : LaunchRec) (w : Triple) : Triple := ⟨w.x * r.grain.x, w.y * r.grain.y, w.z * r.grain.z⟩
def LaunchRec.hi (r : LaunchRec) (w : Triple) : Triple :=
  let m (a b : Nat) : Nat := if a < b then a else b
  ⟨m ((w.x + 1) * r.grain.x) r.ext.x, m ((w.y + 1) * r.grain.y) r.ext.y, m ((w.z + 1) * r.grain.z) r.ext.z⟩

/-- The workgroups of a cluster launch start, the engine's owner with them (R236, R237). -/
def State.addCluster (s : State) (gid : Nat) (r : Grid) (e first count : Nat) : State :=
  let (cid, s) := s.fresh
  let x : Cluster :=
    { ctx := r.ctx, grid := gid, cluster := e, clmem := [], size := r.rcd.clmem, res := [], wgs := [] }
  let s := { s with clusters := tabPut s.clusters cid x }
  let s := s.modEngine e fun x => { Engine.reset with owner := some cid, on := x.on, gate := x.gate, entries := x.entries }
  (List.range count).foldl (fun s i =>
    let w := r.rcd.wgid (first + i)
    let (wid, s) := s.addWg gid r (4 * e + i) w (r.rcd.lo w) (r.rcd.hi w) 0 (some cid) ((first + i) % 4)
    s.modCluster cid fun c => { c with wgs := c.wgs ++ [wid] }) s

/-! ### Records to grids (R266, R397) -/

/-- A fault record that no entity raised (R264, R266, R397): grid number 0, and an address. -/
def State.fqDevice (s : State) (stack c cause addr1 addr2 : Nat) : State :=
  let f : FaultInfo := { cause := cause, word := 0, lanes := 0, pc := 0, addr1 := addr1, addr2 := addr2, resumePc := 0, resume := 0 }
  (s.errorIrq c f).fqWrite stack c (wordsBytes (recordWords s c 0 0 ⟨0, 0, 0⟩ f false))

/-- The record at the head of a queue is consumed (R266): HEAD advances; a record that cannot be read, or is invalid, is
reported and makes no grid. -/
def State.consume (s : State) (stack c q : Nat) : Option Nat × State :=
  let h := s.queueHdr stack c q
  let addr := h.slot h.head
  let key := linkKey q h.head
  let link := tabGet (s.ctx c).links key
  let check := s.rangeCheck stack c [.load] addr 128
  let rcd := s.deviceLoad stack c addr 128
  let s := match check with | .ok => s.touchRange stack c addr 128 | _ => s
  let s := s.devicePut stack c (s.queueAddr c q + 16) (leBytes 4 ((h.head + 1) % 4294967296))
  let s := s.modCtx c fun x => { x with links := tabDel x.links key }
  let drop (s : State) : State := match link with
    | some (id, _, w) => s.modWg w fun w => { w with kids := w.kids.filter (· != id) }
    | none => s
  match check with
  | .fault x _ b => (none, (drop s).fqDevice stack c x addr b)
  | .absent _ => (none, (drop s).fqDevice stack c cPGNP addr 0)
  | .ok =>
    if !recValid rcd link.isSome then (none, (drop s).fqDevice stack c cILLOP addr 0)
    else
      let (id, s) := match link with | some (id, _, _) => (id, s) | none => s.fresh
      let x := s.ctx c
      let g : Grid := { ctx := c, gridId := x.nextGrid, queue := q, depth := match link with | some (_, d, _) => d | none => 1
                        rcd := recOf rcd, parent := link.map fun l => l.2.2, next := 0, faulted := false, below := 0
                        retired := false, stmem := [], stack := none }
      (some id, { s.setCtx c { x with nextGrid := x.nextGrid + 1 } with grids := tabPut s.grids id g })

/-- Whether the grid unit reaches a queue's header (R397). -/
def State.headerRes (s : State) (stack c q : Nat) : RangeRes :=
  match s.rangeCheck stack c [.load] (s.queueAddr c q) 48 with
  | .ok => s.rangeCheck stack c [.store] (s.queueAddr c q + 16) 16
  | r => r

/-- The oldest grid of a queue that has workgroups still to offer. -/
def State.openGrid (s : State) (c q : Nat) : Option (Nat × Grid) :=
  s.grids.find? fun x => x.2.ctx == c && x.2.queue == q && !x.2.retired && decide (x.2.next < x.2.rcd.total)

/-- Whether a queue of a context is eligible for a draw (R266, R319): enabled, and it holds a half, a started grid's workgroup
or a published record. -/
def State.eligibleQueue (s : State) (stack c q : Nat) : Bool :=
  if s.rangeWaits stack c [.load] (s.queueAddr c q) 48 then false
  else match s.headerRes stack c q with
  | .ok =>
    let h := s.queueHdr stack c q
    h.en && (!((tabGet (s.ctx c).queues q).getD Queue.reset).split.isEmpty || (s.openGrid c q).isSome ||
      h.sized && decide (0 < h.used) && !s.rangeWaits stack c [.load] (h.slot h.head) 128)
  | _ => false

/-- A queue header that has become unreachable is reported once (R397). -/
def State.reportQueue (s : State) (stack c q : Nat) : State :=
  let old := (tabGet (s.ctx c).queues q).getD Queue.reset
  let mark (s : State) (b : Bool) : State :=
    if old.reported = b then s else s.modCtx c fun x => { x with queues := tabPut x.queues q { old with reported := b } }
  if s.rangeWaits stack c [.load] (s.queueAddr c q) 48 then s
  else match s.headerRes stack c q with
  | .ok => (mark s false).touchRange stack c (s.queueAddr c q) 48
  | .fault x _ b => if old.reported then s else mark (s.fqDevice stack c x (s.queueAddr c q) b) true
  | .absent _ => if old.reported then s else mark (s.fqDevice stack c cPGNP (s.queueAddr c q) 0) true

/-- The lowest-numbered stack of a partition (R320). -/
def lowStack (mask : Nat) : Nat := ((List.range 8).find? (bitOf mask)).getD 0

/-! ### The draw (R320 to R322) -/

/-- One step of a context's lottery generator (R321). -/
def xorshift (x : Word) : Word :=
  let x := x ^^^ (x <<< 13)
  let x := x ^^^ (x >>> 17)
  x ^^^ (x <<< 5)

/-- The queue that a drawn number falls in (R321). -/
def pickQueue (r : Nat) : List (Nat × Nat) → Option Nat
  | [] => none
  | (q, n) :: rest => if r < n then some q else pickQueue (r - n) rest

/-- The winning queue among eligible queues with their tickets (R321). -/
def winner (x : Word) (qs : List (Nat × Nat)) : Option Nat :=
  let t := (qs.map (·.2)).sum
  if t = 0 then (qs.head?).map (·.1) else pickQueue (x.toNat % t) qs

/-- The next unit of a grid (R322): one workgroup, or one cluster launch. -/
def State.gridUnit (s : State) (gid : Nat) (g : Grid) : PlaceUnit × State :=
  let n := if g.rcd.cluster then (if g.rcd.total - g.next < 4 then g.rcd.total - g.next else 4) else 1
  (.blocks gid g.next n, s.modGrid gid fun g => { g with next := g.next + n })

/-- The unit that a queue yields (R322). -/
def State.takeUnit (s : State) (stack c q : Nat) : Option PlaceUnit × State :=
  let old := (tabGet (s.ctx c).queues q).getD Queue.reset
  match old.split with
  | p :: ps => (some (.half p), s.modCtx c fun x => { x with queues := tabPut x.queues q { old with split := ps } })
  | [] =>
    match s.openGrid c q with
    | some (id, g) => let (u, s) := s.gridUnit id g; (some u, s)
    | none =>
      match s.consume stack c q with
      | (some id, s) => (match tabGet s.grids id with
        | some g => let (u, s) := s.gridUnit id g; (some u, s)
        | none => (none, s))
      | (none, s) => (none, s)

/-- A draw of a context (R321, R322): its queues are tried, its generator steps once, and the winning unit becomes its held unit. -/
def State.draw (s : State) (stack c : Nat) : State :=
  let s := (List.range 64).foldl (fun s q => s.reportQueue stack c q) s
  let qs := (List.range 64).filter (s.eligibleQueue stack c)
  let seed := xorshift (s.ctx c).seed
  let s := s.modCtx c fun x => { x with seed := seed }
  match winner seed (qs.map fun q => (q, (s.queueHdr stack c q).tickets)) with
  | none => s
  | some q =>
    let (u, s) := s.takeUnit stack c q
    s.modCtx c fun x => { x with held := u }

/-- Whether a context may be chosen (R320): ACTIVE, no held unit, nothing saved to restore first (R317), and an eligible queue. -/
def State.candidate (s : State) (stack p c : Nat) : Bool :=
  let x := s.ctx c
  x.state == .active && x.part == p && x.held.isNone && x.savedWgs.isEmpty && (List.range 64).any (s.eligibleQueue stack c)

/-- The visits of contexts that are candidates no more end, and their turns are lost (R320). -/
def State.endVisits (s : State) : State :=
  { s with rrCtx := s.rrCtx.map fun (r : Nat × (Nat × Nat)) =>
      if r.2.2 = 0 || s.candidate (lowStack (s.partStacks r.1)) r.1 r.2.1 then r else (r.1, (r.2.1, 0)) }

/-- The visit of a context ends (R320). -/
def State.endVisit (s : State) (c : Nat) : State :=
  { s with rrCtx := s.rrCtx.map fun (r : Nat × (Nat × Nat)) => if r.2.1 = c then (r.1, (c, 0)) else r }

/-- A context's turns in a visit (R320). -/
def Ctx.turns (x : Ctx) : Nat := if x.share = 0 then 1 else x.share

/-- Weighted round robin (R320): the visit goes on while its context is a candidate and has turns; else the next candidate of the
round, or of the next one. -/
def roundRobin (at' left : Nat) (cands : List Nat) : Option Nat :=
  if 0 < left ∧ cands.contains at' then some at'
  else (cands.find? fun c => decide (at' < c)).or cands.head?

/-- QUEUE_RECORD_CONSUME (R266): a published record of an ACTIVE context's queue is consumed. -/
def execQueueRecordConsume (c : Nat) (q : Nat) (s : State) : Host.Outcome State Fault Refusal :=
  .next (let stack := lowStack (s.partStacks (s.ctx c).part)
    if (s.ctx c).state != .active || decide (63 < q) || s.rangeWaits stack c [.load] (s.queueAddr c q) 48 then s
    else
      let s := s.reportQueue stack c q
      match s.headerRes stack c q with
      | .ok =>
        let h := s.queueHdr stack c q
        if h.en && h.sized && decide (0 < h.used) && !s.rangeWaits stack c [.load] (h.slot h.head) 128 then ((s.consume stack c q).2).endVisits else s
      | _ => s)


/-! ### Placement (R326) -/

/-- A context's held unit is placed where it fits. -/
def State.placeHeld (s : State) (c : Nat) : State :=
  match (s.ctx c).held with
  | none => s
  | some u =>
    let done (s : State) : State := s.modCtx c fun x => { x with held := none }
    match u with
    | .half p =>
      (match tabGet s.grids p.grid with
       | none => done s
       | some g => match s.chooseCore c g with
         | some core => done (s.addWg p.grid g core p.wgid p.lo p.hi p.splits none 0).2
         | none => s)
    | .blocks gid first n =>
      (match tabGet s.grids gid with
       | none => done s
       | some g =>
         if g.rcd.cluster then (match s.chooseCluster c g n with
           | some e => done (s.addCluster gid g e first n)
           | none => s)
         else
           let w := g.rcd.wgid first
           match s.chooseCore c g with
           | some core => done (s.addWg gid g core w (g.rcd.lo w) (g.rcd.hi w) 0 none 0).2
           | none => s)

/-- CONTEXT_CHOICE (R320): the lowest stack of a partition chooses a context, which draws; the unit is placed where it fits, and
a visit ends with the candidacy of its context. -/
def execContextChoice (st : Nat) (s : State) : Host.Outcome State Fault Refusal :=
  .next (match (List.range 8).find? fun p => s.partStacks p != 0 && lowStack (s.partStacks p) == st with
    | none => s
    | some p =>
      let room := (List.range 1024).any fun g => bitOf (s.partStacks p) (coreStack g) && s.coreInService g &&
        (List.range 4).any fun k => decide ((s.partTeams g k).length < 16)
      let cands := (List.range 64).filter (s.candidate st p)
      let (at', left) := (tabGet s.rrCtx p).getD (64, 0)
      match room, roundRobin at' left cands with
      | true, some c =>
        let turns := if 0 < left ∧ c = at' then left - 1 else (s.ctx c).turns - 1
        let s := ((s.draw st c).placeHeld c)
        { s with rrCtx := tabPut s.rrCtx p (c, if s.candidate st p c then turns else 0) }
      | _, _ => s)

/-- Whether the children that a team in `qwait` waits for have retired. -/
def State.qwaitOver (s : State) (tid : Nat) (t : Team) : Bool :=
  (s.entsOf tid).all fun x =>
    let kids := (match s.wgOf t with | some w => w.kids | none => []).filter fun k => decide (k < x.2.arrived.getD s.nextId)
    kids.all s.kidDone

/-- A debugger's stop of a context on a partition holds the entities of a team that arrives there, one in a handler after it (R370,
R371); where there is none, they run. -/
def State.seatStops (s : State) (tid c core p : Nat) : State :=
  let on := s.partStopped c core p
  (s.entsOf tid).foldl (fun s x => s.modEnt x.1 fun e =>
    { e with stopped := on && e.handler.isNone, haltNext := on && e.handler.isSome }) s

/-- The deferral slots of a team's entities count again from 0 after a restore (R25). -/
def State.restartSlots (s : State) (tid : Nat) : State :=
  (s.entsOf tid).foldl (fun s x => s.modEnt x.1 fun e =>
    { e with slots := e.slots.map fun (y : Nat × Slot) => (y.1, { y.2 with count := 0 }) }) s

/-- A team that was swapped out comes back to its partition (R13, R14, R270), rebuilt from its image (R59). -/
def State.swapIn (s : State) (tid : Nat) (t : Team) : State :=
  let g := s.coreOf t
  let c := s.ctxOf t
  let mine (r : ReplayEntry) : Bool := r.team == tid
  let queue := (s.replay.filter fun x => x.2.part == 4 * g + t.part || mine x.2).length
  let frags := ((s.entsOf tid).filter fun e => e.2.isFrag).length
  if t.swapped && s.reaches (physOf ((s.ctx c).ctxSave.toNat + t.imageAt) 0) && s.qwaitOver tid t && s.partTakes g t.part t.lanes t.grant 0 1 0 && decide (queue ≤ 256) && s.entryRoom g t.part frags then
    let slot := s.freeTeamSlot g t.part
    let s := (s.loadImage tid ((s.ctx c).ctxSave.toNat + t.imageAt)).modTeam tid fun t => { t with swapped := false, slot := slot }
    let back (x : Nat × ReplayEntry) : Nat × ReplayEntry := if mine x.2 then (x.1, { x.2 with part := 4 * g + t.part }) else x
    let s := { s with replay := s.replay.map back }
    ((s.reenter tid g).seatStops tid c g t.part).restartSlots tid
  else s

/-- The partitions of a saved workgroup's teams have room on a core (R13, R59). -/
def State.restoreFits (s : State) (wid : Nat) (r : LaunchRec) (g : Nat) : Bool :=
  let ts := (s.teamsOf wid).filter fun x => s.teamLive x.1
  s.coreInService g && s.spadFits g r.spadMax && (List.range 4).all fun p =>
    let mine := ts.filter fun x => x.2.part == p
    let here := mine.filter fun x => !x.2.swapped
    let frags := (here.map fun x => ((s.entsOf x.1).filter fun e => e.2.isFrag).length).sum
    let parked := (s.replay.filter fun x => here.any fun t => t.1 == x.2.team).length
    let queued := (s.replay.filter fun x => x.2.part == 4 * g + p).length
    mine.isEmpty || s.partTakes g p r.lanes r.grant r.laneMax here.length mine.length &&
      s.entryRoom g p frags && decide (queued + parked ≤ 256)

/-- The teams of a workgroup take free slots of a core, and a debugger's stop of their partition holds their entities (R13, R370). -/
def State.seat (s : State) (wid core : Nat) : State :=
  (s.teamsOf wid).foldl (fun s t =>
    let used := ((s.partTeams core t.2.part).filter fun x => x.2.wg != wid || decide (x.1 < t.1)).map fun x => x.2.slot
    if t.2.swapped then s
    else
      (s.modTeam t.1 fun x => { x with slot := (lowestFree used 16).getD x.slot }).seatStops t.1 (s.ctxOf t.2) core t.2.part) s

/-- The state after a workgroup stands on a core: its parked entries are in that core's replay queues, and its column's L1 hides
nothing that the workgroup has seen (R115, R122). -/
def State.standOn (s : State) (wid core : Nat) : State :=
  let s := s.modWg wid fun w => { w with core := core }
  let s := ((s.teamsOf wid).foldl (fun s t => if t.2.swapped then s else s.reenter t.1 core) s).seat wid core
  let s := s.l1Sync (coreColumn core)
  { s with replay := s.replay.map fun (x : Nat × ReplayEntry) => match tabGet s.teams x.2.team with
      | some t => if t.wg = wid then (x.1, { x.2 with part := 4 * core + t.part }) else x
      | none => x }

/-- The engine of a cluster launch that is saved is kept under a number of its own (R343). -/
def savedEngine (cid : Nat) : Nat := 256 + cid

/-- The entries of two reservation tables together. -/
def joinEntries (a b : Tab EngineEntry) : Tab EngineEntry := b.foldl (fun t x => tabPut t x.1 x.2) a

/-- Whether a copy reads or writes a range of the memory that moves with some workgroups (R29, R345). -/
def Copy.readsSpace (c : Copy) (sp : Space) : Bool := c.fn.srcSpace == sp || c.fn == .gather && sp == .spad
def State.copyRanges (s : State) (ws : List Nat) (c : Copy) : Bool :=
  (c.fn.dstSpace == .spad && (s.copyTargets c).any ws.contains) ||
    ws.contains c.wg && (c.readsSpace .spad || c.fn.dstSpace == .clmem || c.readsSpace .clmem)

/-- How many landings a move, a save or a restore redirects (R345, R382): those of the copies with a range or an object in the memory
that moves. -/
def State.landings (s : State) (ws : List Nat) : Nat :=
  (s.copies.filter fun c => !c.2.cancelled && !c.2.failed && (s.copyRanges ws c.2 || ws.contains c.2.wg && c.2.obj.isSome)).length

/-- A saved workgroup stands on a core (R38, R59, R344): its header, its parked accesses and their operands and its teams are as its
record has them, and its blocks are read back from then on. -/
def State.restoreOne (s : State) (wid core : Nat) : State :=
  match tabGet s.wgs wid with
  | none => s
  | some w =>
    let images := s.recordAddr w + s.recordSection w 2
    let places := (s.teamsInOrder wid).map fun t => (t.1, images + s.imageBefore wid t.1)
    let s := (s.loadHeader wid w).loadParkedAll wid w
    let s := places.foldl (fun s t => (s.loadImage t.1 t.2).restartSlots t.1) s
    (s.modWg wid fun w => { w with place := .restoring 0 }).standOn wid core

/-- A saved workgroup, or a saved cluster launch, is placed afresh (R38, R317, R344), on the stack that it keeps (R107). -/
def State.placeSaved (s : State) (c wid : Nat) (w : Workgroup) : State :=
  match tabGet s.grids w.grid with
  | none => s
  | some g =>
    let free (s : State) (ws : List Nat) : State :=
      (s.modCtx c fun x => { x with savedWgs := x.savedWgs.filter fun k => !ws.contains k }).countEvent c 8 (s.landings ws)
    let here (k : Nat) : Bool := (s.partitionCores c).contains k && coreStack k == coreStack w.core
    match w.cluster.bind (tabGet s.clusters), w.cluster with
    | some cl, some cid =>
      let ok := (List.range 256).filter fun e => here (4 * e) && !s.engineTaken e &&
        (cl.wgs.zipIdx).all fun x => s.restoreFits x.1 g.rcd (4 * e + x.2)
      (match bestOf (ok.map s.clusterSite) with
       | none => s
       | some e =>
         let old := s.engine (savedEngine cid)
         let old := match (cl.wgs.filterMap (tabGet s.wgs)).head? with
           | some v => s.loadEngine (s.recordAddr v + s.recordSection v 6) old
           | none => old
         let s := s.modEngine e fun x =>
           { old with owner := some cid, on := x.on, gate := x.gate, entries := joinEntries x.entries old.entries }
         let s := { s with engines := tabDel s.engines (savedEngine cid) }
         let s := s.modCluster cid fun x => { x with cluster := e }
         free ((cl.wgs.zipIdx).foldl (fun s x => s.restoreOne x.1 (4 * e + x.2)) s) cl.wgs)
    | _, _ =>
      let ok := (s.partitionCores c).filter fun k => here k && s.restoreFits wid g.rcd k
      (match bestOf (ok.map s.coreSite) with
       | some core => free (s.restoreOne wid core) [wid]
       | none => s)

/-- PLACEMENT (R326): the held unit of a context (`k` = 0), a saved workgroup at the head of its context's order (R317), or a
team that was swapped out. -/
def execPlacement (c : Nat) (k : Nat) (s : State) : Host.Outcome State Fault Refusal :=
  .next (if (s.ctx c).state != .active then s
    else if k = 0 then (if (s.ctx c).savedWgs.isEmpty then s.placeHeld c else s)
    else match tabGet s.wgs k, tabGet s.teams k with
      | some w, _ =>
        if w.ctx = c ∧ w.place = .saved ∧ (s.ctx c).savedWgs.head? = some k ∧ s.reaches (physOf (s.recordAddr w) 0) then
          s.placeSaved c k w
        else s
      | none, some t => if s.ctxOf t = c then s.swapIn k t else s
      | none, none => s)

/-! ### Retirement (R14, R319) -/

/-- The grids below a workgroup are forgotten, and their faults counted in its own grid (R270). -/
def State.foldKids (s : State) (w : Workgroup) : State :=
  let n := (w.kids.map s.kidFaults).sum
  let s := { s with grids := s.grids.filter fun x => !w.kids.contains x.1 }
  s.modGrid w.grid fun g => { g with below := g.below + n }

/-- A grid whose workgroups have all retired retires (R267, R319): DONE rises by one, and its STMEM is freed. -/
def State.retireGrid (s : State) (gid : Nat) : State :=
  match tabGet s.grids gid with
  | none => s
  | some g =>
    let x := s.ctx g.ctx
    let halves := x.queues.any fun q => q.2.split.any fun p => p.grid == gid
    let held := match x.held with
      | some (.half p) => p.grid == gid
      | some (.blocks k _ _) => k == gid
      | none => false
    let stack := lowStack (s.partStacks x.part)
    if g.retired || decide (g.next < g.rcd.total) || halves || held || s.wgs.any (fun w => w.2.grid == gid) ||
        s.rangeWaits stack g.ctx [.load] (s.queueAddr g.ctx g.queue) 48 then s
    else
      let s := match s.headerRes stack g.ctx g.queue with
        | .ok =>
          let h := s.queueHdr stack g.ctx g.queue
          s.devicePut stack g.ctx (s.queueAddr g.ctx g.queue + 24) (leBytes 4 ((h.done + 1) % 4294967296))
        | _ => s.reportQueue stack g.ctx g.queue
      if g.parent.isSome then s.modGrid gid fun g => { g with retired := true, stmem := [], stack := none }
      else { s with grids := tabDel s.grids gid }

/-- Whether a workgroup may retire (R14, R202): its teams have ended, their operations have completed, and every grid below it
has retired. -/
def State.wgOver (s : State) (wid : Nat) (w : Workgroup) : Bool :=
  (s.teamsOf wid).all (fun t => !s.teamLive t.1 && t.2.cntLd.isEmpty && t.2.cntSt.isEmpty && t.2.cntCp.isEmpty && t.2.cntTl.isEmpty) &&
    w.kids.all s.kidDone && w.place == .resident

/-- WORKGROUP_RETIRE (R14): its allocations are freed, an engine goes with the last workgroup of its cluster launch, and the grid
retires with its last workgroup. -/
def execWorkgroupRetire (w : Nat) (s : State) : Host.Outcome State Fault Refusal :=
  .next (match tabGet s.wgs w with
    | none => s
    | some x =>
      if !s.wgOver w x then s
      else
        let s := (s.foldKids x).l1Sync (coreColumn x.core)
        let s := { s with
          teams := s.teams.filter fun t => t.2.wg != w
          copies := s.copies.filter fun c => c.2.wg != w
          wgs := tabDel s.wgs w }
        let s := match x.cluster with
          | some cid =>
            (match tabGet s.clusters cid with
             | some cl =>
               let rest := cl.wgs.filter fun k => k != w && (tabGet s.wgs k).isSome
               if rest.isEmpty then
                 let s := { s with clusters := tabDel s.clusters cid }
                 s.modEngine cl.cluster fun e => { Engine.reset with on := e.on, gate := e.gate, entries := e.entries }
               else s
             | none => s)
          | none => s
        s.retireGrid x.grid)

end Sys2Proof.Machine
end

