-- ==== Sys2Proof/Machine/Power.lean ====
section
/-! DEFINITION. Islands, samples, column budgets, heat and the emergency (R349 to R363). -/

namespace Sys2Proof.Machine

/-- Every island changed, by its number. -/
def State.mapIslands (s : State) (f : Nat → Island → Island) : State :=
  { s with islands := (List.range 1344).map fun i => (i, f i (s.island i)) }

/-! ### A change of an island (R353 to R357) -/

/-- The floor of an island at a frequency code (R354). -/
def floorOf (i f : Nat) : Nat := (Config.fuse i).1 % 128 + (Config.fuse i).2 % 128 * f / 16

/-- The frequency that an island's goal comes to under its caps (R355, R357). -/
def Island.fgoal (x : Island) : Nat := Nat.min x.goal.2 x.cap

/-- A change towards a goal begins (R355). -/
def Island.begin (x : Island) (time : Nat) (goal : Nat × Nat) : Island :=
  let x := { x with goal := goal, since := time }
  { x with state := if x.fgoal < x.fcur then .fdown else .ramp }

/-- A change ends, and the pending target is taken (R355). -/
def Island.finish (x : Island) (time : Nat) : Island :=
  match x.pending with
  | some g => { x with pending := none }.begin time g
  | none => { x with state := .idle, since := time }

/-- The last step of a change: the frequency rises to the goal where it is not there yet. -/
def Island.rise (x : Island) (time : Nat) : Island :=
  if x.fcur < x.fgoal then { x with state := .fup, since := time } else x.finish time

/-- A cap has changed (R357): the frequency falls at once where it is above, and an idle island climbs where it may. -/
def Island.recap (x : Island) (time : Nat) : Island :=
  if x.cap < x.fcur then { x with fcur := x.cap }
  else if x.state = .idle then x.rise time
  else x

/-- A target write arrives (R354). -/
def Island.target (x : Island) (i time : Nat) (t : IslandTarget) : Island :=
  if 80 < t.vtgt ∨ 38 < t.ftgt then { x with result := 2 }
  else if t.vtgt < floorOf i t.ftgt then { x with result := 1 }
  else
    let x := { x with result := 0, vtgt := t.vtgt, ftgt := t.ftgt }
    if x.state = .idle then x.begin time (t.vtgt, t.ftgt) else { x with pending := some (t.vtgt, t.ftgt) }

/-- The stage manager writes an island's target. -/
def State.islandTarget (s : State) (t : IslandTarget) : State :=
  if t.island < 1344 then s.modIsland t.island fun x => x.target t.island s.time.toNat t else s

/-- ISLAND_TARGET (R354): a target write is checked when it arrives. -/
def execIslandTarget (x : IslandTarget) (s : State) : Host.Outcome State Fault Refusal := .next (s.islandTarget x)

/-- VOLTAGE_RAMP_DONE (R355): the rail has come to the target voltage. -/
def execVoltageRampDone (i : Nat) (s : State) : Host.Outcome State Fault Refusal :=
  .next (let x := s.island i
    if x.state = .ramp ∧ x.vnow s.time.toNat = x.goal.1 then
      s.modIsland i fun x =>
        let y := { x with vcur := x.goal.1 }
        if x.vcur < x.goal.1 then { y with state := .settle, since := s.time.toNat } else y.rise s.time.toNat
    else s)

/-- SETTLE_DONE (R355): 2 µs after a rise of the voltage. -/
def execSettleDone (i : Nat) (s : State) : Host.Outcome State Fault Refusal :=
  .next (let x := s.island i
    if x.state = .settle ∧ x.since + 200 ≤ s.time.toNat then s.modIsland i fun x => x.rise s.time.toNat else s)

/-- FREQUENCY_SWITCH (R355, R356): an island's clock switches, down before the ramp or up after it. -/
def execFrequencySwitch (i : Nat) (s : State) : Host.Outcome State Fault Refusal :=
  .next (let t := s.time.toNat
    match (s.island i).state with
    | .fdown => s.modIsland i fun x => { x with fcur := Nat.min x.fcur x.fgoal, state := .ramp, since := t }
    | .fup => s.modIsland i fun x => { x with fcur := x.fgoal }.finish t
    | _ => s)

/-- SM_LOOP_PASS (R352, R358): a pass of the stage manager writes targets and band permissions, and counts in SMHB. -/
def execSmLoopPass (ts : List IslandTarget) (gs : List BandPermission) (s : State) : Host.Outcome State Fault Refusal :=
  .next (let s := ts.foldl State.islandTarget s
    let s := gs.foldl (fun s g => if g.engine < 256 then s.modEngine g.engine fun e => { e with gate := g.gate } else s) s
    { s with policy := { s.policy with smhb := (s.policy.smhb + 1) % 4294967296, smhbTicks := 0, smhbCapped := false } })

/-- SMHB_TIMEOUT (R352): SMHB has not changed for 10 ms; every island is capped at 0.60 GHz. -/
def execSmhbTimeout (s : State) : Host.Outcome State Fault Refusal :=
  .next (if s.policy.smhbTicks < 1000000 ∨ s.policy.smhbCapped = true then s
    else
      { s with policy := { s.policy with smhbCapped := true } }.mapIslands fun _ x =>
        { x with smhbCap := 10 }.recap s.time.toNat)

/-! ### Budgets (R359, R360) -/

/-- The suppression of each class in turn (R360), as fractions; `m` is what the excess has been multiplied by so that it stays
a whole number. -/
def suppress (smax : Nat) : Nat → Nat → List Nat → List (Nat × Nat)
  | _, _, [] => []
  | m, excess, p :: ps =>
    if p = 0 then (if excess = 0 then (0, 1) else (smax, 8)) :: suppress smax (8 * m) (8 * excess) ps
    else if 8 * excess ≤ smax * (m * p) then (excess, m * p) :: suppress smax (8 * m) 0 ps
    else (smax, 8) :: suppress smax (8 * m) (8 * excess - smax * (m * p)) ps

/-- The suppression fractions of a column (R360): power in units of 10 mW against a budget in units of 0.125 W. -/
def sigmaOf (smax pwr budget : Nat) (classes : List Nat) : List (Nat × Nat) :=
  suppress smax 1 (2 * pwr - 25 * budget) ((List.range 4).map fun k => 2 * classes.getD k 0)

/-! ### Heat (R361 to R363) -/

/-- A column's reading in a sample; one that the sample does not list reads 0 throughout. -/
def sampleReading (x : Sample) (c : Nat) : ColumnReading :=
  (x.columns.find? fun r => r.column == c).getD
    { column := c, temps := [], events := 0, leakage := 0, classPower := [], busy := 0, stall := 0 }

/-- The columns of the teams that issued an engine operation, one for each team (R359): of one in its table, or of one that has
completed in the window. -/
def State.chargedTo (s : State) (op : Nat) : List Nat :=
  match s.engines.findSome? fun g => tabGet g.2.entries op with
  | some x => s.teamColumns x.teams
  | none => (tabGet s.charged op).getD []

/-- A sum of fractions, each a numerator over a denominator. -/
def fracSum (l : List (Nat × Nat)) : Nat × Nat := l.foldl (fun a x => (a.1 * x.2 + x.1 * a.2, a.2 * x.2)) (0, 1)

/-- The estimate of a column's power (R359): the events of its cores and L1 banks, their leakage, and of each engine operation's
energy an equal part for each team of the column that issued it; the parts together are rounded down once. -/
def State.samplePower (s : State) (x : Sample) (c : Nat) : Nat :=
  let r := sampleReading x c
  let parts := x.engines.map fun e => let l := s.chargedTo e.op; (e.energy * l.count c, Nat.max l.length 1)
  let (n, d) := fracSum parts
  r.events + r.leakage + n / d

/-- The temperature that a sample gives for an island, where it gives one (R349, R362). -/
def sampleTemp (x : Sample) (i : Nat) : Option Nat :=
  if i < 1024 then some ((sampleReading x (coreColumn i)).temps.getD (coreLayer i) 0)
  else (x.islands.find? fun y => y.island == i).map (·.temp)

/-- The hottest reading of a sample. -/
def sampleHottest (x : Sample) : Nat :=
  ((x.columns.flatMap (·.temps)) ++ x.islands.map (·.temp)).foldl Nat.max 0

/-- The local throttle of an island (R362). -/
def Island.throttle (x : Island) (tthr t : Nat) : Island :=
  if tthr < t then { x with localCap := x.localCap - 4 }
  else if t + 20 < tthr then { x with localCap := if x.localCap < 38 then x.localCap + 1 else 38 }
  else x

/-- The code of half a clock, at least 0.35 GHz (R363). -/
def halfCode (f : Nat) : Nat := (f - 14) / 2

/-- Every island's clock is halved (R363). -/
def State.halveClocks (s : State) : State :=
  s.mapIslands fun _ x => { x with emgCap := halfCode x.fcur }.recap s.time.toNat

/-- The emergency's caps lift (R357, R363). -/
def State.liftCaps (s : State) : State := s.mapIslands fun _ x => { x with emgCap := 38 }.recap s.time.toNat

/-- The KIND 3 interrupts, to both ports (R386). -/
def State.emergencyIrq (s : State) : State := (s.irq 0 3 0 0).irq 1 3 0 0

/-- A notice sent on every chorus link that carries traffic, but for one (R363, R388). -/
def State.sendNotice (s : State) (but : Option Nat) (n : Notice) : State :=
  (List.range 18).foldl (fun s l =>
    if s.linkUp l && but != some l then
      let x := (tabGet s.links l).getD Link.reset
      { s with links := tabPut s.links l { x with sent := x.sent ++ [n] } }
    else s) s

/-- This package's next notice. -/
def State.originate (s : State) (release : Bool) : State :=
  let n : Notice := { release := release, origin := s.member, seq := s.policy.nextSeq }
  let s := s.sendNotice none n
  { s with policy := { s.policy with nextSeq := (s.policy.nextSeq + 1) % 256 }
           notices := tabPut s.notices s.member n.seq }

/-- The emergency begins where a sensor reads above TEMG and this package has not raised it already (R363). -/
def State.emergency (s : State) (hottest : Nat) : State :=
  if 1080 < hottest ∧ s.policy.emgSrc = false then
    let s := s.halveClocks.originate false
    { s with policy := { s.policy with emg := true, emgSrc := true } }.emergencyIrq
  else s

/-- EMERGENCY_RELEASE (R363): every sensor of the originating package has been cool for 1 ms. -/
def execEmergencyRelease (s : State) : Host.Outcome State Fault Refusal :=
  .next (if s.policy.emg = true ∧ s.policy.emgSrc = true ∧ 100000 ≤ s.policy.coolTicks then
      let s := s.liftCaps.originate true
      { s with policy := { s.policy with emg := false, emgSrc := false } }.emergencyIrq
    else s)

/-- NOTICE_RECEIVE (R363, R388): a notice not yet applied from its origin is applied and forwarded on the other links. -/
def execNoticeReceive (l : Nat) (n : Notice) (s : State) : Host.Outcome State Fault Refusal :=
  .next (if !s.linkUp l || tabGet s.notices n.origin == some n.seq then s
    else
      let s := { s with notices := tabPut s.notices n.origin n.seq, links := tabMod s.links l fun x => { x with failures := 0 } }
      let s := s.sendNotice (some l) n
      let was := s.policy.emg
      if n.release then
        (if s.policy.emgSrc then { s with policy := { s.policy with emgSeq := n.seq } }
         else
           let s := { s.liftCaps with policy := { s.policy with emg := false, emgSeq := n.seq } }
           if was then s.emergencyIrq else s)
      else
        let s := { s.halveClocks with policy := { s.policy with emg := true, emgSeq := n.seq } }
        if was then s else s.emergencyIrq)

/-! ### The sample (R351) -/

/-- Whether a sample is due at this tick. -/
def State.sampleDue (s : State) : Bool :=
  s.time.toNat % 1000 == 0 && s.policy.lastSample != s.time.toNat

/-- A column's record from its reading and its power, and its throttle; a choice of the governor lasts to the next sample (R364). -/
def Column.sample (x : Column) (smax : Nat) (r : ColumnReading) (power : Nat) : Column :=
  { x with busy := r.busy % 256, stall := r.stall % 256, seq := (x.seq + 1) % 65536, pwr := power % 65536
           lost := if x.suppressed < 65535 then x.suppressed else 65535, suppressed := 0
           temps := (List.range 4).map fun y => r.temps.getD y 0 % 65536
           sigma := sigmaOf smax power x.budget r.classPower, chosen := none, deferred := false }

/-- The records of all columns, and the end of the window's charges. -/
def State.sampleColumns (s : State) (x : Sample) : State :=
  { s with charged := [], cols := (List.range 256).map fun c => (c, (s.column c).sample s.policy.smax (sampleReading x c) (s.samplePower x c)) }

/-- Caps after a sample: the local throttle, and the heartbeat's cap where it lifts. -/
def State.sampleCaps (s : State) (x : Sample) : State :=
  s.mapIslands fun i y =>
    let y := match sampleTemp x i with
      | some t => y.throttle s.policy.tthr t
      | none => y
    let y := if s.policy.smhbCapped then y else { y with smhbCap := if y.smhbCap < 38 then y.smhbCap + 1 else 38 }
    y.recap s.time.toNat

/-! ### The writes of the call board (R350, R359 to R361) -/

/-- Whether thermal thresholds are in order (R361). -/
def thermalOk (tmig tthr : Nat) : Bool := decide (tmig < tthr) && decide (tthr < 1080)

/-- A write of the call board by a port; none where it is dropped and logged. -/
def State.boardWrite (s : State) (a : Nat) (v : Word) : Option State :=
  let n := v.toNat
  let p := s.policy
  if a = 0x10100 then
    (if thermalOk (bitsOf n 11 0) (bitsOf n 27 16) then
       some { s with policy := { p with tmig := bitsOf n 11 0, tthr := bitsOf n 27 16 } } else none)
  else if a = 0x10104 then
    (if bitsOf n 23 16 ≠ 0 then some { s with policy := { p with migDelta := bitsOf n 23 16, migEn := v.getLsbD 31 } } else none)
  else if a = 0x10108 then some { s with policy := { p with migGap := n } }
  else if a = 0x1010C then (if n % 8 ≠ 0 then some { s with policy := { p with smax := n % 8 } } else none)
  else if 0x10800 ≤ a ∧ a < 0x10C00 ∧ a % 4 = 0 then
    (if 64 ≤ n % 1024 ∧ n % 1024 ≤ 320 then some (s.modColumn ((a - 0x10800) / 4) fun x => { x with budget := n % 1024 }) else none)
  else if 0x14000 ≤ a ∧ a < 0x14000 + 8 * 1344 ∧ a % 8 = 0 then none
  else if 0x18800 ≤ a ∧ a < 0x18C00 ∧ a % 4 = 0 then none
  else some s

end Sys2Proof.Machine
end

