-- ==== Sys2Proof/Machine/Migrate.lean ====
section
/-! DEFINITION. The migration governor and a move between layers (R27 to R31, R38, R345, R364, R365, R372). -/

namespace Sys2Proof.Machine

/-- The workgroups that move together (R31): those of a cluster launch, or the one. -/
def State.moveSet (s : State) (wid : Nat) : List Nat :=
  match (tabGet s.wgs wid).bind (·.cluster) with
  | some cid => (match tabGet s.clusters cid with | some c => c.wgs.filter fun w => (tabGet s.wgs w).isSome | none => [wid])
  | none => [wid]

/-- The workgroups of a list that there are. -/
def State.wgList (s : State) (ws : List Nat) : List Workgroup := ws.filterMap (tabGet s.wgs)

/-! ### What R28 and R29 ask -/

/-- Whether every entity of some workgroups stands at a boundary (R28). -/
def State.allAtBoundary (s : State) (ws : List Nat) : Bool :=
  s.ents.all fun x => (match tabGet s.teams x.2.team with | some t => !ws.contains t.wg | none => true) || x.2.atBoundary

/-- Whether an engine's entry reads or writes the SPAD or the CLMEM. -/
def EngineOp.inSpace : EngineOp → Bool
  | .mld _ .global _ _ _ _ _ => false
  | .mld .. => true
  | .mdrain _ _ cmd _ _ => cmdDst cmd != 2
  | _ => false

/-- Whether an entry is a reduction over a team, which a move waits for (R262). -/
def EngineOp.isRed : EngineOp → Bool
  | .mred .. => true
  | _ => false

/-- Whether a copy is writing the memory that moves (R29, R382). -/
def State.copyWriting (s : State) (ws : List Nat) : Bool :=
  s.copies.any fun c => !c.2.cancelled && !c.2.failed && c.2.begun &&
    (c.2.fn.dstSpace == .spad && (s.copyTargets c.2).any ws.contains || ws.contains c.2.wg && c.2.fn.dstSpace == .clmem)

/-- What forbids a move (R29, R262, R372): a parked access, a copy or an engine operation at work in the memory that moves, a
reduction, or a stopped entity. -/
def State.moveForbidden (s : State) (ws : List Nat) : Bool :=
  let mine (team : Nat) : Bool := match tabGet s.teams team with | some t => ws.contains t.wg | none => false
  (s.replay.any fun r => mine r.2.team) ||
    (s.copies.any fun c => !c.2.cancelled && !c.2.failed && c.2.begun && s.copyRanges ws c.2) ||
    (s.engines.any fun g => g.2.entries.any fun x => ws.contains x.2.wg &&
      (x.2.op.isRed || x.2.op.inSpace && decide (0 < x.2.progress))) ||
    (s.ents.any fun e => mine e.2.team && (e.2.stopped || e.2.haltNext))

/-! ### The governor's choice (R364) -/

/-- Whether the core at a workgroup's position on a layer takes its teams, fragments, SPAD and LANE. -/
def State.layerFits (s : State) (wid : Nat) (w : Workgroup) (y : Nat) : Bool :=
  match tabGet s.grids w.grid with
  | some g => w.core != coreOnLayer w.core y && s.restoreFits wid g.rcd (coreOnLayer w.core y)
  | none => false

/-- Whether the engine of a cluster launch's position on a layer is free for it. -/
def State.engineFree (s : State) (ws : List Workgroup) (y : Nat) : Bool :=
  ws.all fun w => w.cluster.isNone || !s.engineTaken (coreEngine (coreOnLayer w.core y))

/-- Whether a layer has room for a move. -/
def State.roomOn (s : State) (ws : List Nat) (y : Nat) : Bool :=
  (ws.all fun k => match tabGet s.wgs k with | some x => s.layerFits k x y | none => true) && s.engineFree (s.wgList ws) y

/-- The columns of a move: a cluster launch counts for all four of its columns. -/
def moveColumns (w : Workgroup) : List Nat :=
  if w.cluster.isSome then (List.range 4).map fun i => coreColumn (w.core / 4 * 4 + i) else [coreColumn w.core]

/-- A reading of a move on a layer: the hottest over its columns. -/
def State.moveTemp (s : State) (w : Workgroup) (y : Nat) : Nat :=
  ((moveColumns w).map fun c => (s.column c).temps.getD y 0).foldl Nat.max 0

/-- Whether enough ticks have passed since the last migration of every column of a move. -/
def State.gapPassed (s : State) (w : Workgroup) : Bool :=
  (moveColumns w).all fun c => match (s.column c).moves with
    | m :: _ => decide (m.2 + s.policy.migGap ≤ s.time.toNat)
    | [] => true

/-- The layer that the governor chooses for a workgroup, if any: the coolest that qualifies, the lower on a tie. -/
def State.chooseLayer (s : State) (wid : Nat) (w : Workgroup) : Option Nat :=
  let src := s.moveTemp w (coreLayer w.core)
  let ws := s.moveSet wid
  if !s.policy.migEn || decide (src ≤ s.policy.tmig) || !s.gapPassed w then none
  else
    let ok := (List.range 4).filter fun y => y != coreLayer w.core && bitOf s.service.lyr y &&
      decide (s.moveTemp w y + s.policy.migDelta ≤ src) && s.roomOn ws y
    ok.foldl (fun m y => match m with
      | some z => if s.moveTemp w y < s.moveTemp w z then some y else some z
      | none => some y) none

/-- The governor's choices at a sample (R364), workgroup by workgroup: each column, or the four of a cluster launch, takes one
(log 51). -/
def State.govern (s : State) : State :=
  s.wgs.foldl (fun s x =>
    let w := x.2
    let cs := moveColumns w
    let first := match s.moveSet x.1 with | k :: _ => k == x.1 | [] => false
    if w.place != .resident || w.aborting || !first || cs.any fun c => (s.column c).chosen.isSome then s
    else match s.chooseLayer x.1 w with
      | some y => cs.foldl (fun s c => s.modColumn c fun z => { z with chosen := some (x.1, y) }) s
      | none => s) s

/-- SAMPLE_TICK (R351): every 10 µs all records are written, and hardware reacts to what they say. -/
def execSampleTick (x : Sample) (s : State) : Host.Outcome State Fault Refusal :=
  .next (if !s.sampleDue then s
    else
      let s := (((s.sampleColumns x).sampleCaps x).govern).emergency (sampleHottest x)
      let cool : Bool := s.policy.emgSrc && decide (sampleHottest x < 1000)
      { s with policy := { s.policy with
          lastSample := s.time.toNat
          coolTicks := if cool then s.policy.coolTicks + 1000 else 0 } })

/-! ### A move -/

/-- The state with the place of some workgroups changed. -/
def State.setPlaces (s : State) (ws : List Nat) (p : Residency) : State :=
  ws.foldl (fun s w => s.modWg w fun x => { x with place := p }) s

/-- A chosen move is deferred (R364): it may start until the next sample; a writing copy that defers it is counted once (R382). -/
def State.deferMove (s : State) (wid : Nat) (w : Workgroup) : State :=
  let ws := s.moveSet wid
  let writing := s.copyWriting ws
  let s := s.setPlaces ws .resident
  let c := coreColumn w.core
  if (s.column c).deferred || !writing then s
  else (s.modColumn c fun x => { x with deferred := true }).countEvent w.ctx 7 1

/-- Whether the split tables still take the fragments of some workgroups on the cores that they are to move to: a clause that has
completed since the choice may have detached another (R38, R364). -/
def State.entriesFit (s : State) (ws : List Nat) : Bool :=
  (s.wgList ws).all fun w => match w.target with
    | some g => (List.range 4).all fun p => s.entryRoom g p 0
    | none => true

/-- The start of a move (R28, R29, R31, R345, R365): it counts for its columns, and landings go with it. -/
def State.startMove (s : State) (wid : Nat) (w : Workgroup) (y : Nat) : State :=
  let ws := s.moveSet wid
  let n := s.landings ws
  let s := s.setPlaces ws (.moving y 0)
  let s := (moveColumns w).foldl (fun s c => s.modColumn c fun x => { x with moves := (wid, s.time.toNat) :: x.moves, chosen := none }) s
  (s.countEvent w.ctx 5 1).countEvent w.ctx 8 n

/-- A move that is abandoned for a pre-emption does not count (R365). -/
def State.uncountMove (s : State) (wid : Nat) (w : Workgroup) : State :=
  (moveColumns w).foldl (fun s c => s.modColumn c fun x => { x with moves := x.moves.eraseP fun m => m.1 == wid }) s

/-- MIGRATION_START (R364): the governor's choice at the last sample, or one whose clauses in issue have completed, starts where R29
permits it; a choice for which there is no room any more, fragments that have detached since among what it needs, waits for the next
sample. -/
def execMigrationStart (w : Nat) (y : Nat) (s : State) : Host.Outcome State Fault Refusal :=
  .next (match tabGet s.wgs w with
    | none => s
    | some x =>
      let ws := s.moveSet w
      let go (s : State) : State :=
        if s.moveForbidden ws then s.deferMove w x
        else if s.allAtBoundary ws then s.startMove w x y
        else s.setPlaces ws (.halting y)
      if x.aborting then s
      else if x.place = .halting y then (if s.entriesFit ws then go s else s.setPlaces ws .resident)
      else if x.place = .resident ∧ (s.column (coreColumn x.core)).chosen = some (w, y) ∧ s.roomOn ws y = true then go s
      else s)

/-- The engine of a cluster launch goes with it to another layer (R31); reductions of other teams stay where they are (R261). -/
def State.moveEngine (s : State) (cid old new : Nat) : State :=
  let e := s.engine old
  let mine (x : Nat × EngineEntry) : Bool := (tabGet s.wgs x.2.wg).bind (·.cluster) == some cid
  let s := s.modEngine new fun x => { e with on := x.on, gate := x.gate, entries := joinEntries x.entries (e.entries.filter mine) }
  let s := s.modEngine old fun x =>
    { Engine.reset with on := x.on, gate := x.gate, entries := x.entries.filter fun y => !mine y }
  s.modCluster cid fun c => { c with cluster := new }

/-- MIGRATION_ARRIVAL (R28): the whole state has arrived; the workgroups of the move stand on the new layer. -/
def execMigrationArrival (w : Nat) (s : State) : Host.Outcome State Fault Refusal :=
  .next (match tabGet s.wgs w with
    | none => s
    | some x =>
      match x.place with
      | .moving y _ =>
        let ws := s.moveSet w
        let gone := (ws.filterMap fun k => (tabGet s.wgs k).map fun v => (k, v)).all fun k => match k.2.place with
          | .moving z n => z == y && decide (s.blocksOf k.1 k.2 ≤ n)
          | _ => false
        if !gone then s
        else
          let new := coreOnLayer x.core y
          let s := match x.cluster with
            | some cid => s.moveEngine cid (coreEngine x.core) (coreEngine new)
            | none => s
          ws.foldl (fun s k => match tabGet s.wgs k with
            | some v => (s.modWg k fun v => { v with place := .resident }).standOn k (coreOnLayer v.core y)
            | none => s) s
      | _ => s)

end Sys2Proof.Machine
end

