-- ==== Sys2Proof/Machine/Save.lean ====
section
/-! DEFINITION. Pre-emption and the world switch: the save record, its transfer in blocks, and the return (R38, R317, R342 to R345,
R372, R383; log 15). -/

namespace Sys2Proof.Machine

/-! ### Releases (R339) -/

/-- The states of the parked entries of saved workgroups as a release leaves them in their records (R339). -/
def State.rewriteParked (s : State) (c : Nat) : State :=
  s.wgs.foldl (fun s w =>
    if w.2.ctx = c ∧ w.2.inRecord = true then
      ((s.parkedOf w.1).zipIdx).foldl (fun s r => s.recordWrite w.2 (256 + 64 * r.2 + 24) (leBytes 4 r.1.2.waitCode)) s
    else s) s

/-! ### The save of a workgroup (R343) -/

/-- Whether every lane of an operation is performed, is parked, or waits behind a parked access (R104). -/
def State.quiet (s : State) (k : Nat) (o : MemOp) : Bool :=
  o.lanes.all (fun l => l.done || l.parked) || s.heldByParking.contains k

/-- Whether every entity of a workgroup has stopped for a save, and what it issued has been performed, is parked, or waits behind what is
parked. -/
def State.saveReady (s : State) (wid : Nat) (w : Workgroup) : Bool :=
  w.place == .stopping && !w.aborting &&
    (s.ents.all fun x => match tabGet s.teams x.2.team with
      | some t => t.wg != wid || s.entStopped x.2 t w
      | none => true) &&
    (s.ops.all fun x => match tabGet s.teams x.2.team with
      | some t => t.wg != wid || s.quiet x.1 x.2
      | none => true) &&
    (s.teamsOf wid).all fun t => !t.2.dying && t.2.ydl.isNone

/-- Whether a band swap still waits for passes of an earlier `mma` (R251). -/
def swapsBehind (x y : EngineEntry) : Bool :=
  match x.op, y.op with
  | .mswap, .mma .. => !x.finished
  | _, _ => false

/-- The entries that cannot go on (R343 step 2): loads held on unmapped pages, and what depends on them, the band swaps behind a
held `mma` (R251) among it. -/
def Engine.stuck (e : Engine) : List Nat :=
  e.entries.foldl (fun l x =>
    let held := !x.2.missing.isEmpty && !x.2.finished
    let behind := e.entries.any fun y => decide (y.1 < x.1) && l.contains y.1 && (!x.2.started && e.blocks x y || swapsBehind x.2 y.2)
    if held || behind then l ++ [x.1] else l) []

/-- Whether the engine of a cluster launch has completed what it accepted, but for what unmapped pages hold (R262, R343): an operation
that waits for a parked access (R125) is not among that (log 40). -/
def State.engineQuiet (s : State) (ws : List Nat) : Bool :=
  s.engines.all fun g =>
    let stuck := g.2.stuck
    g.2.entries.all fun x => !ws.contains x.2.wg || stuck.contains x.1

/-- The teams and entities of a workgroup as a save leaves them: dead registers go (R56), the read latches are empty (R53), and a
debugger's stop is released (R372). -/
def State.saveTeams (s : State) (wid : Nat) (w : Workgroup) : State :=
  (s.teamsOf wid).foldl (fun s t =>
    let q := s.partOf t.2
    let lost := (s.entsOf t.1).any fun x => x.2.stopped
    let s := s.modTeam t.1 fun t => { t with v := t.v.filter fun r => decide (r.1 < t.live), offered := false }
    let s := (s.entsOf t.1).foldl (fun s x =>
      s.modEnt x.1 fun e => { e with snap := none, stopped := false, haltNext := false }) s
    if lost && (s.window q).sctx == w.ctx then
      s.modWindow q fun d => { d with lost := true, stopped := false, stopping := false, busy := false, stepping := [], retry := none }
    else s) s

/-- The sections of a record written in order; the bytes of a place that is no memory stop the machine. -/
def State.writeParts (s : State) (base : Nat) : List (Nat × List Byte) → Host.Outcome State Fault Refusal
  | [] => .next s
  | p :: ps => match s.physStore (base + p.1) p.2 with
    | .next s => s.writeParts base ps
    | o => o

/-- One workgroup of a save: its record is laid out and written, its landings are in the record from then on, and it holds no core. -/
def State.saveOne (s : State) (wid : Nat) (engine : Option Engine) : Host.Outcome State Fault Refusal :=
  match tabGet s.wgs wid with
  | none => .next s
  | some w =>
    let s := (s.l1Sync (coreColumn w.core)).saveTeams wid w
    let top := (s.ctx w.ctx).saveTop
    let s := s.modWg wid fun w => { w with place := .saving 0, saveAt := top }
    match tabGet s.wgs wid with
    | none => .next s
    | some w =>
      let parts := s.recordBytesOf wid w engine
      let s := s.modCtx w.ctx fun x => { x with saveTop := top + recordLength parts }
      let mine (r : ReplayEntry) : Bool := match tabGet s.teams r.team with | some t => t.wg == wid | none => false
      let s := { s with replay := s.replay.map fun (x : Nat × ReplayEntry) => if mine x.2 then (x.1, { x.2 with part := 4096 }) else x }
      s.writeParts (s.recordAddr w) parts

/-- The workgroups of a save, one after the other; the engine's section is in the first record. -/
def State.saveAll (s : State) (engine : Option Engine) : List Nat → Host.Outcome State Fault Refusal
  | [] => .next s
  | w :: ws => thenNext (s.saveOne w engine) fun s => s.saveAll none ws

/-- WORKGROUP_SAVE (R343): a workgroup, or a cluster launch with its engine, is saved once all of it has stopped. -/
def execWorkgroupSave (w : Nat) (s : State) : Host.Outcome State Fault Refusal :=
  match tabGet s.wgs w with
  | none => .next s
  | some x =>
    let ws := s.moveSet w
    let ready := ws.all fun k => match tabGet s.wgs k with | some y => s.saveReady k y | none => true
    if !ready || !s.engineQuiet ws then .next s
    else
      let s := s.countEvent x.ctx 8 (s.landings ws)
      match x.cluster with
      | none => s.saveAll none ws
      | some cid =>
        let g := coreEngine x.core
        let e := s.engine g
        let mine (y : Nat × EngineEntry) : Bool := ws.contains y.2.wg
        let saved := { e with entries := e.entries.filter mine }
        let s := s.setEngine (savedEngine cid) saved
        let s := s.modEngine g fun y =>
          { Engine.reset with on := y.on, gate := y.gate, entries := y.entries.filter fun z => !mine z }
        s.saveAll (some saved) ws

/-! ### Blocks (R343, R345) -/

/-- Where the bytes of a block of a workgroup's memories lie in its record, and how many they are: LANE, then SPAD, then CLMEM. -/
def State.blockSpan (s : State) (wid : Nat) (w : Workgroup) (b : Nat) : Nat × Nat :=
  let (l, m, _) := s.blockCounts wid w
  let part (k b total : Nat) : Nat × Nat := (s.sectionAt wid w k + 4096 * b, if total < 4096 * b + 4096 then total - 4096 * b else 4096)
  if b < l then part 3 b (s.laneTotal wid w)
  else if b < l + m then part 4 (b - l) w.spadSize
  else part 5 (b - l - m) (s.clmemBytes wid w)

/-- The LANE bytes of a block: the team and the place of each. -/
def State.laneCells (s : State) (wid : Nat) (w : Workgroup) (b n : Nat) : List (Nat × Nat) :=
  (List.range n).filterMap fun i => laneCellIn (s.wgLaneMax w) (s.teamsInOrder wid) (4096 * b + i)

/-- The bytes of a block as the workgroup's memories hold them. -/
def State.blockBytes (s : State) (wid : Nat) (w : Workgroup) (b : Nat) : List Byte :=
  let (l, m, _) := s.blockCounts wid w
  let n := (s.blockSpan wid w b).2
  if b < l then
    (s.laneCells wid w b n).map fun x => ((tabGet s.teams x.1).bind fun t => tabGet t.laneMem x.2).getD 0
  else if b < l + m then s.spaceRead wid .spad (4096 * (b - l)) n
  else s.spaceRead wid .clmem (4096 * (b - l - m)) n

/-- The state with a block's bytes back from the record (R344), where the memories hold others. -/
def State.loadBlock (s : State) (wid : Nat) (w : Workgroup) (b : Nat) : State :=
  let (l, m, _) := s.blockCounts wid w
  let (off, n) := s.blockSpan wid w b
  let bs := s.loadBytes (physOf (s.recordAddr w + off) 0) n
  if bs = s.blockBytes wid w b then s
  else if b < l then
    ((s.laneCells wid w b n).zip bs).foldl (fun s x =>
      s.modTeam x.1.1 fun t => { t with laneMem := tabPut t.laneMem x.1.2 x.2 }) s
  else if b < l + m then s.modSpace wid .spad fun t => tabStore t (4096 * (b - l)) bs
  else s.modSpace wid .clmem fun t => tabStore t (4096 * (b - l - m)) bs

/-- Where the residence bits of a SPAD lie in its workgroup's record, and how many bytes they take. -/
def State.residenceSpan (s : State) (wid : Nat) (w : Workgroup) : Nat × Nat :=
  (s.sectionAt wid w 4 + w.spadSize, ceilDiv (w.spadSize / 16) 8)

/-- The last block of a save has been written: the residence bits follow, and the workgroup is in its context's order (R317). -/
def State.savedNow (s : State) (wid : Nat) (w : Workgroup) : State :=
  let (off, n) := s.residenceSpan wid w
  let s := s.recordWrite w off (leBytes n (w.spadRes.map fun g => 2 ^ g).sum)
  (s.modWg wid fun w => { w with place := .saved }).modCtx w.ctx fun x => { x with savedWgs := x.savedWgs ++ [wid] }

/-- The last block of a restore is back: the residence bits are as the record has them, and the workgroup goes on. -/
def State.restoredNow (s : State) (wid : Nat) (w : Workgroup) : State :=
  let (off, n) := s.residenceSpan wid w
  let bits := s.physNat (s.recordAddr w + off) n
  let same := leBytes n bits == leBytes n (w.spadRes.map fun g => 2 ^ g).sum
  s.modWg wid fun w => { w with place := .resident
                                spadRes := if same then w.spadRes else (List.range (w.spadSize / 16)).filter (bitOf bits) }

/-- SAVE_BLOCK_TRANSFER (R343, R345): one 4 KiB block has been saved, restored, or moved to the target layer. -/
def execSaveBlockTransfer (w : Nat) (s : State) : Host.Outcome State Fault Refusal :=
  .next (match tabGet s.wgs w with
    | none => s
    | some x =>
      let total := s.blocksOf w x
      let put (s : State) (p : Residency) : State := s.modWg w fun x => { x with place := p }
      match x.place with
      | .saving n =>
        if total ≤ n then s.savedNow w x
        else
          let s := put (s.recordWrite x (s.blockSpan w x n).1 (s.blockBytes w x n)) (.saving (n + 1))
          if total ≤ n + 1 then s.savedNow w x else s
      | .moving y n => if total ≤ n then s else put s (.moving y (n + 1))
      | .restoring n =>
        if !s.reaches (physOf (s.recordAddr x) 0) then s
        else if total ≤ n then s.restoredNow w x
        else
          let s := put (s.loadBlock w x n) (.restoring (n + 1))
          if total ≤ n + 1 then s.restoredNow w x else s
      | _ => s)

/-- PREEMPTION_TIMEOUT (R342): PRETO ticks after the request, every team stops at its next clause boundary. -/
def execPreemptionTimeout (c : Nat) (s : State) : Host.Outcome State Fault Refusal :=
  .next (let x := s.ctx c
    if x.state = .suspending ∧ s.preTo.toNat ≤ x.preTicks then
      { s with teams := s.teams.map fun (t : Nat × Team) => if s.ctxOf t.2 = c then (t.1, { t.2 with offered := true }) else t }
    else s)

/-! ### The world switch (R317) -/

/-- A unit that waits for placement returns to its queue's position (R332). -/
def State.unhold (s : State) (c : Nat) : State :=
  let x := s.ctx c
  let s := s.modCtx c fun x => { x with held := none }
  match x.held with
  | none => s
  | some (.half p) => match tabGet s.grids p.grid with
    | some g => s.modCtx c fun x =>
      let q := (tabGet x.queues g.queue).getD Queue.reset
      { x with queues := tabPut x.queues g.queue { q with split := p :: q.split } }
    | none => s
  | some (.blocks gid first _) => s.modGrid gid fun g => { g with next := first }

/-- The next free offset of a context's save area (R344): 0 where nothing lies in it. -/
def State.saveBase (s : State) (c : Nat) : Nat :=
  if s.wgs.any (fun w => w.2.ctx == c && (w.2.inRecord || (match w.2.place with | .restoring _ => true | _ => false))) ||
      s.teams.any (fun t => t.2.swapped && s.ctxOf t.2 == c) then (s.ctx c).saveTop
  else 0

/-- Whether nothing but what is parked can still write a register of a team (R342): its accesses are performed or held by a missing
mapping, and no reduction of it is under way. -/
def State.teamQuiet (s : State) (tid : Nat) : Bool :=
  (s.ops.all fun x => x.2.team != tid || s.quiet x.1 x.2) &&
    s.engines.all fun g => g.2.entries.all fun x => !(x.2.op.isRed && x.2.teams.contains tid)

/-- TEAM_SWAP_OUT (R14, R56, R342): a team in `qwait` whose children are not placed gives up its slot: its image and its parked
accesses go to the save area, only its LIVE registers are kept, and every entity's read latch is empty (R53). -/
def execTeamSwapOut (t : Nat) (s : State) : Host.Outcome State Fault Refusal :=
  match tabGet s.teams t with
  | none => .next s
  | some x =>
    let es := s.entsOf t
    let resident := match s.wgOf x with | some w => w.place == .resident | none => false
    if x.swapped || es.isEmpty || !resident || !es.all (fun e => e.2.hold == some .qwait) || s.qwaitOver t x || !s.teamQuiet t then .next s
    else
      let c := s.ctxOf x
      let base := s.saveBase c
      let ps := s.replay.filter fun r => r.2.team == t
      let operands := alignUp (64 * ps.length) 4096
      let image := alignUp (operands + (ps.map fun r => operandBytes r.2).sum) 4096
      let s := s.modTeam t fun x => { x with swapped := true, imageAt := base + image, v := x.v.filter fun r => decide (r.1 < x.live) }
      let s := es.foldl (fun s e => s.modEnt e.1 fun e => { e with snap := none }) s
      match tabGet s.teams t with
      | none => .next s
      | some x =>
        let bytes := s.teamImage t x
        let parts := [(0, s.parkedSection c operands ps), (operands, ps.flatMap fun r => s.operandSection r.2), (image, bytes)]
        let out (r : Nat × ReplayEntry) : Nat × ReplayEntry := if r.2.team = t then (r.1, { r.2 with part := 4096 }) else r
        let s := { s.modCtx c fun y => { y with saveTop := base + alignUp (image + bytes.length) 4096 } with replay := s.replay.map out }
        s.writeParts ((s.ctx c).ctxSave.toNat + base) parts

/-- The governor's choices for the workgroups of a context are dropped: a pre-emption abandons the move (R38). -/
def State.dropChoices (s : State) (c : Nat) : State :=
  let ours (k : Nat) : Bool := match tabGet s.wgs k with | some w => w.ctx == c | none => false
  { s with cols := s.cols.map fun (x : Nat × Column) => (x.1, if x.2.chosen.any fun y => ours y.1 then { x.2 with chosen := none } else x.2) }

/-- SUSPEND of an ACTIVE context (R316, R317): draws stop, a visit of the context ends (R320), a move of its workgroups, chosen or under
way, is abandoned and does not count (R365), and they stop for their save where they are (R38). -/
def State.suspend (s : State) (c : Nat) : State :=
  let s := (s.unhold c).dropChoices c
  let s := s.wgs.foldl (fun s w => match w.2.place with
    | .moving _ _ => if w.2.ctx = c then s.uncountMove w.1 w.2 else s
    | _ => s) s
  let s := s.endVisit c
  let stop (w : Workgroup) : Workgroup := match w.place with
    | .saved => w
    | _ => if w.ctx = c then { w with place := .stopping } else w
  let s := { s with wgs := s.wgs.map fun (w : Nat × Workgroup) => (w.1, stop w.2) }
  s.modCtx c fun x => { x with state := .suspending, preTicks := 0, saveTop := s.saveBase c }

/-- A piece of work that waits, as the context save area holds it. -/
def State.pieceBytes (s : State) (p : Piece) : List Byte :=
  leBytes 4 (match tabGet s.grids p.grid with | some g => g.gridId | none => 0) ++ tripleBytes p.wgid ++ tripleBytes p.lo ++ tripleBytes p.hi ++ leBytes 4 p.splits

/-- What the world switch writes beside the workgroups (R317): lottery state, counter session, split lists, grids started but not
fully placed, and the handlers that run, with their slots. -/
def State.contextBytes (s : State) (c : Nat) : List Byte :=
  let x := s.ctx c
  let grids := s.grids.filter fun g => g.2.ctx == c && !g.2.retired && decide (g.2.next < g.2.rcd.total)
  leBytes 4 x.seed.toNat ++ leBytes 4 (x.cen + 16 * x.oie + 256 * x.ovf) ++ x.evt.flatMap (leBytes 4) ++ x.counters.flatMap (leBytes 8) ++
    leBytes 4 x.traps.length ++ x.traps.flatMap (fun t => leBytes 4 t.1 ++ leBytes 4 t.2) ++
    leBytes 4 grids.length ++ grids.flatMap (fun g => leBytes 4 g.2.gridId ++ leBytes 4 g.2.queue ++ leBytes 4 g.2.next) ++
    (List.range 64).flatMap fun q =>
      let l := ((tabGet x.queues q).getD Queue.reset).split
      leBytes 4 l.length ++ l.flatMap s.pieceBytes

/-- CONTEXT_SAVE_COMPLETE (R316, R317): every workgroup of a SUSPENDING context is saved. -/
def execContextSaveComplete (c : Nat) (s : State) : Host.Outcome State Fault Refusal :=
  let x := s.ctx c
  if x.state ≠ .suspending ∨ (s.wgs.all fun w => w.2.ctx != c || w.2.place == .saved) = false then .next s
  else
    thenNext (s.physStore (x.ctxSave.toNat + x.saveTop) (s.contextBytes c)) fun s =>
      .next (s.modCtx c fun x => { x with state := .suspended })

end Sys2Proof.Machine
end

