-- ==== Sys2Proof/Machine/Context.lean ====
section
/-! DEFINITION. The life of a context (R316, R318, R332, R381, R393), granule tags (R337), and attestation (R392). -/

namespace Sys2Proof.Machine

/-! ### CREATE and TEAR (R316) -/

/-- A context's counter session at its reset values (R381). -/
def Ctx.noSession (x : Ctx) : Ctx := { x with cen := 0, oie := 0, ovf := 0, evt := [0, 0, 0, 0], counters := [0, 0, 0, 0] }

/-- A command that the state of a context refuses. -/
def State.refuseCmd (s : State) (c : Nat) : State := s.modCtx c fun x => { x with err := true }

/-- Whether a context may be created on its partition in reduced service (R395). -/
def State.createOk (s : State) (c : Nat) : Bool := s.service.svc != 1 || bitOf (s.partStacks (s.ctx c).part) 0

/-- CREATE of a FREE context: it starts empty, with a fresh key pair where it has a key slot (R393). -/
def State.create (s : State) (c : Nat) : State :=
  let x := s.ctx c
  let (k, s) := if x.kslot = 0 then (0, s) else s.fresh
  s.setCtx c { x.noSession with state := .active, queues := [], traps := [], held := none, nextGrid := 1, savedWgs := [], saveTop := 0
                                keyId := k, preTicks := 0, creds := [], links := [] }

/-- All work of a context ends (R316, R332): nothing of it lands afterwards, and what its columns cache is written back. -/
def State.wipe (s : State) (c : Nat) : State :=
  let ws := (s.wgs.filter fun w => w.2.ctx == c).map (·.1)
  let cols := ((s.wgs.filter fun w => w.2.ctx == c).map fun w => coreColumn w.2.core).eraseDups
  let s := cols.foldl (fun s k => s.l1Sync k) s
  let ts := (s.teams.filter fun t => ws.contains t.2.wg).map (·.1)
  let cls := (s.clusters.filter fun x => x.2.ctx == c).map (·.1)
  let gone := (s.copies.filter fun x => ws.contains x.2.wg).map (·.1)
  let free (e : Engine) : Engine := match e.owner with
    | some o => if cls.contains o then { Engine.reset with on := e.on, gate := e.gate, entries := e.entries } else e
    | none => e
  let rest (e : Engine) : Engine := { e with entries := e.entries.filter fun y => !ws.contains y.2.wg }
  let cred (x : Cred) : Cred := { x with parts := x.parts.filter fun p => match p.copy with | some k => !gone.contains k | none => true }
  let s := { s with
    ents := s.ents.filter fun x => !ts.contains x.2.team
    teams := s.teams.filter fun x => !ws.contains x.2.wg
    wgs := s.wgs.filter fun x => x.2.ctx != c
    clusters := s.clusters.filter fun x => x.2.ctx != c
    grids := s.grids.filter fun x => x.2.ctx != c
    ops := s.ops.filter fun x => !ts.contains x.2.team
    replay := s.replay.filter fun x => !ts.contains x.2.team
    copies := s.copies.filter fun x => !ws.contains x.2.wg
    creds := (s.creds.map fun (x : Nat × Cred) => (x.1, cred x.2)).filter fun x => !x.2.parts.isEmpty
    engines := (s.engines.filter fun (x : Nat × Engine) => decide (x.1 < 256) || !(match x.2.owner with | some o => cls.contains o | none => false)).map
      fun (x : Nat × Engine) => (x.1, rest (free x.2)) }
  s.tlbDrop c 0 true

/-- TEAR of a context (R316, R368, R383): its debug right is revoked, and its session is discarded. -/
def State.tear (s : State) (c : Nat) : State :=
  let s := ((s.revoke c).wipe c).endVisit c
  s.modCtx c fun x =>
    { x.noSession with state := .tearing, dbgEn := false, queues := [], traps := [], held := none, savedWgs := [], links := [], creds := [] }

/-- A command of a context (R316). -/
def State.ctxCommand (s : State) (c cmd : Nat) : State :=
  match cmd, (s.ctx c).state with
  | 1, .free => if s.createOk c then s.create c else s.refuseCmd c
  | 2, .active => s.suspend c
  | 3, .suspended => s.modCtx c fun x => { x with state := .active }
  | 4, .active => s.tear c
  | 4, .suspending => s.tear c
  | 4, .suspended => s.tear c
  | 1, _ => s.refuseCmd c
  | 2, _ => s.refuseCmd c
  | 3, _ => s.refuseCmd c
  | 4, _ => s.refuseCmd c
  | _, _ => s

/-- TEAR_COMPLETE (R316, R367, R393): nothing of the context remains; its keys are gone, and MOD is clear. -/
def execTearComplete (c : Nat) (s : State) : Host.Outcome State Fault Refusal :=
  .next (if (s.ctx c).state = .tearing then s.modCtx c fun x => { x with state := .free, keyId := 0, dbgMod := false } else s)

/-! ### Granule tags (R337) -/

/-- GRANULE_TAG (R337): the next granule is tagged where its page is present, tagged, writable HBM; then the count falls. -/
def execGranuleTag (c : Nat) (s : State) : Host.Outcome State Fault Refusal :=
  .next (let x := s.ctx c
    if x.count = 0 then s
    else
      let stack := lowStack (s.partStacks x.part)
      let va := x.tagVa % 2 ^ 57
      let s := match s.leafFor stack c .load va with
        | .leaf e lvl _ =>
          let pa := leafPa e lvl va
          if bitOf e 5 && bitOf e 3 && inHbm pa then
            let s := s.touch stack c .store va
            { s with tags := if x.tag = 0 then tabDel s.tags (pa / 16) else tabPut s.tags (pa / 16) x.tag }
          else s
        | _ => s
      s.modCtx c fun x => { x with count := x.count - 1, tagVa := (x.tagVa + 16) % 2 ^ 57 })

/-! ### Attestation (R392) -/

/-- The words that the service descriptor's digest covers (R392, R394). -/
def Service.bytes (x : Service) : List Byte := [0x00, 0x04, 0x08, 0x0C, 0x10].flatMap fun o => leBytes 4 (x.word o)

/-- A 32-byte digest (R391, R392). -/
def digest (bs : List Byte) : List Byte := (List.range 32).map (Config.shake256 bs)

/-- The signed part of a report (R392). -/
def State.reportBytes (s : State) (c : Nat) : List Byte :=
  let x := s.ctx c
  leBytes 4 (1 + 256 * c + bitAt x.dbgMod 31) ++ leBytes 4 s.trust.index ++ s.trust.nonce.flatMap (fun w => leBytes 4 w.toNat) ++
    s.trust.measures.flatMap (leBytes 32) ++
    digest (leBytes 4 x.cfg ++ leBytes 8 x.root0.toNat ++ leBytes 8 x.root1.toNat ++ leBytes 8 x.qtBase.toNat) ++
    digest s.service.bytes

/-- A request for a report (R392): refused where the firmware is not verified, and failed once every index is used; while one is
in progress it changes nothing. -/
def State.attest (s : State) (c : Nat) : State :=
  let t := s.trust
  if t.busy then s
  else
    let t := { t with reqCtx := c }
    { s with trust :=
        if t.verdict ≠ 1 then { t with status := 2 }
        else if Config.signatureCount ≤ t.index then { t with status := 3 }
        else { t with status := 0, busy := true } }

/-- ATTESTATION_COMPLETE (R392): the report and its signature are written, and its index is never used again. -/
def execAttestationComplete (s : State) : Host.Outcome State Fault Refusal :=
  if !s.trust.busy then .next s
  else
    let body := s.reportBytes s.trust.reqCtx
    let sig := (List.range Config.signatureBytes).map (Config.xmssSign s.trust.index body)
    thenNext (s.physStore s.trust.addr.toNat (body ++ sig)) fun s =>
      .next { s with trust := { s.trust with status := 1, busy := false, index := s.trust.index + 1 } }

end Sys2Proof.Machine
end

