-- ==== Sys2Proof/Machine/Links.lean ====
section
/-! DEFINITION. Links, the host's accesses, memory errors, reset and the service descriptor (R385, R388, R390, R391, R393 to R395). -/

namespace Sys2Proof.Machine

/-! ### Links (R385, R388, R393) -/

/-- The link of a number: chorus links 0 to 17, then the two Asosh ports. -/
def State.modLink (s : State) (l : Nat) (f : Link → Link) : State :=
  if l < 18 then { s with links := tabPut s.links l (f ((tabGet s.links l).getD Link.reset)) }
  else if l < 20 then { s with ports := tabPut s.ports (l - 18) (f ((tabGet s.ports (l - 18)).getD Link.reset)) }
  else s

/-- What waits for a port goes out, oldest first, as far as the ports carry it (R385). -/
def State.send (s : State) : Outgoing → State
  | .irq p w => s.sendIrq p w
  | .byte x b => s.storeByte x b
  | .put stack c ptr bytes => s.deviceSend stack c ptr bytes
def State.sendWaiting (s : State) : State := s.outbox.foldl State.send { s with outbox := [] }

/-- LINK_KEYING (R393): a session or a link is trained and keyed, and carries traffic, once the device has the key pair of its boot. -/
def execLinkKeying (l : Nat) (s : State) : Host.Outcome State Fault Refusal :=
  .next (if s.trust.kemKey.isEmpty then s
    else (s.modLink l fun x => { x with trained := true, keyed := true, failures := 0 }).sendWaiting)

/-- FLIT_AUTH_FAILURE (R393): the flit is discarded; three in a row take the link down until it is keyed again. -/
def execFlitAuthFailure (l : Nat) (s : State) : Host.Outcome State Fault Refusal :=
  .next (s.modLink l fun x =>
    if 3 ≤ x.failures + 1 then { x with keyed := false, failures := 0 } else { x with failures := x.failures + 1 })

/-- LINK_LEVEL_RETRY (R385, R388): a lost or discarded flit is replayed and arrives; nothing is lost, repeated or reordered. -/
def execLinkLevelRetry (l : Nat) (s : State) : Host.Outcome State Fault Refusal :=
  .next (s.modLink l fun x => { x with retries := x.retries + 1, failures := 0 })

/-! ### The host's accesses (R385) -/

/-- The bytes of an access as far as the end of each granule, with the address of each part. -/
def accessParts (addr : Nat) : Nat → List Byte → List (Nat × List Byte)
  | 0, _ => []
  | fuel + 1, bs =>
    if bs.isEmpty then []
    else
      let n := 16 - addr % 16
      (addr, bs.take n) :: accessParts (addr + n) fuel (bs.drop n)

/-- HOST_ACCESS (R385): translated by the roots of the context that it names and checked as a global access of it; one that fails
a check has no effect, but that a poisoned line sends a KIND 4 interrupt (R390).  A read or an atomic brings what the L1s hold to
memory, and answers the bytes (R387). -/
def execHostAccess (x : HostAccess) (s : State) : Host.Outcome State Fault Refusal :=
  .next (let stack := lowStack (s.partStacks (s.ctx x.ctx).part)
    let k : AccKind := if x.alu.isSome then .atomic else if x.write then .store else .load
    let n := match x.alu with | some (_, .b64) => 8 | some _ => 4 | none => x.bytes.length
    let parts := accessParts (x.addr % 2 ^ 64) n (x.bytes.take n)
    let ok := (x.alu.isNone || decide (n ≤ x.bytes.length) && x.addr % n == 0) && parts.all fun p => match s.xlate stack x.ctx k p.1 p.2.length with
      | .ok _ _ => true
      | _ => false
    let poison := parts.any fun p => match s.xlate stack x.ctx k p.1 p.2.length with
      | .fault _ _ b => decide (2 ^ 63 ≤ b)
      | _ => false
    if !s.portUp x.port || decide (63 < x.ctx) then s
    else if !ok then (if poison then s.irq (s.ctx x.ctx).port 4 x.ctx 0 else s)
    else if x.write && x.alu.isNone then parts.foldl (fun s p => s.devicePut stack x.ctx p.1 p.2) s
    else
      let place (s : State) (a n : Nat) : Nat := match s.xlate stack x.ctx k a n with
        | .ok phys _ => phys
        | _ => 0
      let s := parts.foldl (fun s p => (s.touch stack x.ctx k p.1).l1Evict s.l1Cols
        (fun a => a / 16 == physAddr (place s p.1 p.2.length) / 16)) s
      let old := parts.flatMap fun p => s.loadBytes (place s p.1 p.2.length) p.2.length
      let s := { s with responses := s.responses ++ [(x.port, old)] }
      match x.alu with
      | some (op, ty) => s.storeBytes (place s (x.addr % 2 ^ 64) n) (leBytes n (atomicNew op ty (leNat old) x.bytes).1)
      | none => s)

/-! ### Memory errors (R390) -/

/-- PATROL_SCRUB (R390): a correctable error is corrected and counted on the call board; an uncorrectable one poisons its 64-byte line of HBM. -/
def execPatrolScrub (x : ScrubResult) (s : State) : Host.Outcome State Fault Refusal :=
  .next (if x.uncorrectable && inHbm (64 * x.line) then
      { s with poison := tabPut s.poison x.line (BitVec.ofNat 64 (2 ^ 64 - 1)) }
    else if x.uncorrectable then s else { s with corrected := s.corrected + 1 })

/-! ### Reset and bring-up (R391, R394) -/

/-- A measurement register extended with a digest (R391). -/
def extendMeasure (ms : List Nat) (i : Nat) (bs : List Byte) : List Nat :=
  ms.set i (leNat (digest (leBytes 32 (ms.getD i 0) ++ digest bs)))

/-- Whether the boot ROM accepts a firmware image (R391). -/
def bootVerifies (x : BootInput) : Bool :=
  digest x.key == (List.range 32).map Config.fusedDigest && Config.xmssVerify x.key x.image x.signature

/-- RESET (R391): the machine as it is after reset, but for what outlives one: TIME, the signing index, host memory, and the
events that the outside still has in store.  The boot ROM measures what it starts; after a verified boot the device makes its
ML-KEM key pair and signs the public key once (R393), while the identity key has an index left (R392). -/
def execReset (x : BootInput) (s : State) : Host.Outcome State Fault Refusal :=
  .next (let ok := bootVerifies x
    let r := State.reset
    let measures := if ok then (x.stages.zipIdx.filter fun p => decide (p.2 < 7)).foldl (fun ms p => extendMeasure ms (p.2 + 1) p.1)
        (extendMeasure r.trust.measures 0 x.image)
      else r.trust.measures
    { r with
      time := s.time
      agenda := s.agenda
      mem := s.mem.filter fun c => !inHbm c.1
      trust :=
        if ok && decide (s.trust.index < Config.signatureCount) then
          let key := (List.range Config.kemBytes).map (Config.kemKey s.trust.index)
          { r.trust with
            measures := measures, index := s.trust.index + 1, verdict := 1, kemKey := key
            kemSig := (List.range Config.signatureBytes).map (Config.xmssSign s.trust.index key) }
        else { r.trust with measures := measures, index := s.trust.index, verdict := if ok then 1 else 2 } })

/-- The values that a reduced descriptor has (R394). -/
def Service.reduced (fwver : Word) : Service :=
  { svc := 1, boot := 1, seq := 0, stk := 0x01, lyr := 0x03, fmax := 10, fmt := 0x0A, hbm := 0x0001, half := true, fwver := fwver }

/-- The values that a full descriptor has (R394); an HBM stack that trained to an unsupported option is left out of service (R390). -/
def Service.full (fwver : Word) (hbm : Nat) : Service :=
  { svc := 2, boot := 1, seq := 0, stk := 0xFF, lyr := 0x0F, fmax := 38, fmt := 0x3F, hbm := hbm % 65536, half := false, fwver := fwver }

/-- The islands as reduced service starts them (R394): FTGT 10, VTGT the greater of the floor and 30. -/
def State.startIslands (s : State) : State :=
  s.mapIslands fun i _ =>
    let v := Nat.max (floorOf i 10) 30
    { Island.reset with vtgt := v, ftgt := 10, vcur := v, fcur := 10, goal := (v, 10) }

/-- DESCRIPTOR_PUBLISH (R394): a descriptor is published, SEQ rises once, and both ports are told.  What is in service needs
firmware that the boot ROM has verified, and the first publication is the reduced descriptor, or SVC 0 after a failed boot. -/
def execDescriptorPublish (x : Descriptor) (s : State) : Host.Outcome State Fault Refusal :=
  .next (if s.trust.verdict = 0 ∨ (x.svc ≠ 0 ∧ s.trust.verdict ≠ 1) ∨ 2 < x.svc ∨
      (s.service.boot = 0 ∧ x.svc ≠ (if s.trust.verdict = 1 then 1 else 0)) then s
    else
      let seq := (s.service.seq + 1) % 65536
      let d : Service := match x.svc with
        | 0 => { svc := 0, boot := s.trust.verdict, seq := 0, stk := 0, lyr := 0, fmax := 0, fmt := 0, hbm := 0, half := false
                 fwver := x.fwver }
        | 1 => Service.reduced x.fwver
        | _ => Service.full x.fwver x.hbm
      let s := if x.svc = 1 ∧ s.service.svc = 0 then s.startIslands else s
      ({ s with service := { d with seq := seq } }.irq 0 5 0 0).irq 1 5 0 0)

end Sys2Proof.Machine
end

