-- ==== Sys2Proof/Machine/Scalar.lean ====
section
/-! DEFINITION. The scalar families and the moves between files, opcodes 0x10 to 0x13 (R186 to R191). -/

namespace Sys2Proof.Machine

/-- A scalar instruction of two sources and its old destination (R187). -/
def scalar3 (f : Word → Word → Word → Word) (d a b : BitVec 6) (s : State) : Host.Outcome State Fault Refusal :=
  withCur s fun c => c.teamWord s fun t =>
    t.setS d.toNat (f (t.sreg a.toNat) (t.sreg b.toNat) (t.sreg d.toNat))

/-- A scalar instruction of one source (R187, R188). -/
def scalar1 (f : Word → Word) (d a : BitVec 6) (s : State) : Host.Outcome State Fault Refusal :=
  withCur s fun c => c.teamWord s fun t => t.setS d.toNat (f (t.sreg a.toNat))

/-- A 64-bit scalar instruction (R187): the fields of a pair are even indices (R137). -/
def scalar64 (f : Team → Word64) (d : BitVec 6) (s : State) : Host.Outcome State Fault Refusal :=
  withCur s fun c => c.teamWord s fun t => t.setX (d.toNat / 2) (f t)

/-- 1 where a condition holds, else 0. -/
def truth (b : Bool) : Word := if b then 1 else 0

/-- `sadd` (R187). -/
def execSadd (d a b : BitVec 6) (s : State) : Host.Outcome State Fault Refusal :=
  scalar3 (fun x y _ => x + y) d a b s

/-- `ssub` (R187). -/
def execSsub (d a b : BitVec 6) (s : State) : Host.Outcome State Fault Refusal :=
  scalar3 (fun x y _ => x - y) d a b s

/-- `smul` (R187). -/
def execSmul (d a b : BitVec 6) (s : State) : Host.Outcome State Fault Refusal :=
  scalar3 (fun x y _ => x * y) d a b s

/-- `smulhI` (R187). -/
def execSmulhI (d a b : BitVec 6) (s : State) : Host.Outcome State Fault Refusal :=
  scalar3 (fun x y _ => high (x.toInt * y.toInt)) d a b s

/-- `smulhN` (R187). -/
def execSmulhN (d a b : BitVec 6) (s : State) : Host.Outcome State Fault Refusal :=
  scalar3 (fun x y _ => high ((x.toNat : Int) * y.toNat)) d a b s

/-- `sminI` (R187). -/
def execSminI (d a b : BitVec 6) (s : State) : Host.Outcome State Fault Refusal :=
  scalar3 (fun x y _ => minI x y) d a b s

/-- `smaxI` (R187). -/
def execSmaxI (d a b : BitVec 6) (s : State) : Host.Outcome State Fault Refusal :=
  scalar3 (fun x y _ => maxI x y) d a b s

/-- `sminN` (R187). -/
def execSminN (d a b : BitVec 6) (s : State) : Host.Outcome State Fault Refusal :=
  scalar3 (fun x y _ => minN x y) d a b s

/-- `smaxN` (R187). -/
def execSmaxN (d a b : BitVec 6) (s : State) : Host.Outcome State Fault Refusal :=
  scalar3 (fun x y _ => maxN x y) d a b s

/-- `sand` (R187). -/
def execSand (d a b : BitVec 6) (s : State) : Host.Outcome State Fault Refusal :=
  scalar3 (fun x y _ => x &&& y) d a b s

/-- `sor` (R187). -/
def execSor (d a b : BitVec 6) (s : State) : Host.Outcome State Fault Refusal :=
  scalar3 (fun x y _ => x ||| y) d a b s

/-- `sxor` (R187). -/
def execSxor (d a b : BitVec 6) (s : State) : Host.Outcome State Fault Refusal :=
  scalar3 (fun x y _ => x ^^^ y) d a b s

/-- `sshl` (R187). -/
def execSshl (d a b : BitVec 6) (s : State) : Host.Outcome State Fault Refusal :=
  scalar3 (fun x y _ => shlWord x (shiftCount y)) d a b s

/-- `sshr` (R187). -/
def execSshr (d a b : BitVec 6) (s : State) : Host.Outcome State Fault Refusal :=
  scalar3 (fun x y _ => shrWord x (shiftCount y)) d a b s

/-- `ssar` (R187). -/
def execSsar (d a b : BitVec 6) (s : State) : Host.Outcome State Fault Refusal :=
  scalar3 (fun x y _ => sarWord x (shiftCount y)) d a b s

/-- `sbfeI` (R187). -/
def execSbfeI (d a b : BitVec 6) (s : State) : Host.Outcome State Fault Refusal :=
  scalar3 (fun x y _ => bfeI x y) d a b s

/-- `sbfeN` (R187). -/
def execSbfeN (d a b : BitVec 6) (s : State) : Host.Outcome State Fault Refusal :=
  scalar3 (fun x y _ => bfeN x y) d a b s

/-- `sbfi` (R187). -/
def execSbfi (d a b : BitVec 6) (s : State) : Host.Outcome State Fault Refusal :=
  scalar3 (fun x y z => bfi x y z) d a b s

/-- `spopc` (R187). -/
def execSpopc (d a : BitVec 6) (s : State) : Host.Outcome State Fault Refusal :=
  scalar1 popcWord d a s

/-- `sclz` (R187). -/
def execSclz (d a : BitVec 6) (s : State) : Host.Outcome State Fault Refusal :=
  scalar1 clzWord d a s

/-- `sadd64` (R187). -/
def execSadd64 (d a b : BitVec 6) (s : State) : Host.Outcome State Fault Refusal :=
  scalar64 (fun t => t.xreg (a.toNat / 2) + t.xreg (b.toNat / 2)) d s

/-- `ssub64` (R187). -/
def execSsub64 (d a b : BitVec 6) (s : State) : Host.Outcome State Fault Refusal :=
  scalar64 (fun t => t.xreg (a.toNat / 2) - t.xreg (b.toNat / 2)) d s

/-- `sshl64` (R187). -/
def execSshl64 (d a b : BitVec 6) (s : State) : Host.Outcome State Fault Refusal :=
  scalar64 (fun t =>
    let n := (t.sreg b.toNat).toNat % 128
    if 64 ≤ n then 0 else t.xreg (a.toNat / 2) <<< n) d s

/-- `scmpEq` (R187). -/
def execScmpEq (d a b : BitVec 6) (s : State) : Host.Outcome State Fault Refusal :=
  scalar3 (fun x y _ => truth (x == y)) d a b s

/-- `scmpLtI` (R187). -/
def execScmpLtI (d a b : BitVec 6) (s : State) : Host.Outcome State Fault Refusal :=
  scalar3 (fun x y _ => truth (x.slt y)) d a b s

/-- `scmpLtN` (R187). -/
def execScmpLtN (d a b : BitVec 6) (s : State) : Host.Outcome State Fault Refusal :=
  scalar3 (fun x y _ => truth (x.ult y)) d a b s

/-- `saddi` (R188). -/
def execSaddi (d a : BitVec 6) (i : BitVec 10) (s : State) : Host.Outcome State Fault Refusal :=
  scalar1 (fun x => x + i.signExtend 32) d a s

/-- `sandi` (R188). -/
def execSandi (d a : BitVec 6) (i : BitVec 10) (s : State) : Host.Outcome State Fault Refusal :=
  scalar1 (fun x => x &&& i.signExtend 32) d a s

/-- `sori` (R188). -/
def execSori (d a : BitVec 6) (i : BitVec 10) (s : State) : Host.Outcome State Fault Refusal :=
  scalar1 (fun x => x ||| i.signExtend 32) d a s

/-- `sxori` (R188). -/
def execSxori (d a : BitVec 6) (i : BitVec 10) (s : State) : Host.Outcome State Fault Refusal :=
  scalar1 (fun x => x ^^^ i.signExtend 32) d a s

/-- `sshli` (R188). -/
def execSshli (d a : BitVec 6) (n : BitVec 5) (s : State) : Host.Outcome State Fault Refusal :=
  scalar1 (fun x => shlWord x n.toNat) d a s

/-- `sshri` (R188). -/
def execSshri (d a : BitVec 6) (n : BitVec 5) (s : State) : Host.Outcome State Fault Refusal :=
  scalar1 (fun x => shrWord x n.toNat) d a s

/-- `ssari` (R188). -/
def execSsari (d a : BitVec 6) (n : BitVec 5) (s : State) : Host.Outcome State Fault Refusal :=
  scalar1 (fun x => sarWord x n.toNat) d a s

/-- `scmpi.lt` (R188). -/
def execScmpiLt (d a : BitVec 6) (i : BitVec 10) (s : State) : Host.Outcome State Fault Refusal :=
  scalar1 (fun x => truth (x.slt (i.signExtend 32))) d a s

/-- `smovi` (R188). -/
def execSmovi (d : BitVec 6) (i : BitVec 10) (s : State) : Host.Outcome State Fault Refusal :=
  withCur s fun c => c.teamWord s fun t => t.setS d.toNat (i.signExtend 32)

/-- `slui` (R189). -/
def execSlui (d : BitVec 6) (i : BitVec 20) (s : State) : Host.Outcome State Fault Refusal :=
  withCur s fun c => c.teamWord s fun t => t.setS d.toNat (i ++ 0#12)

/-! ### Special registers (R52 to R55) -/

/-- The words of the compute phase that remain (R52, R277): all ones outside one. -/
def State.allowLeft (s : State) (t : Team) : Word64 :=
  match s.wgOf t, s.gridOf t with
  | some w, some g => if w.phase then BitVec.ofNat 64 (g.rcd.allow - w.words) else BitVec.allOnes 64
  | _, _ => BitVec.allOnes 64

/-- A team's read of a performance counter (R381, R382): a fabric event reads zero in an unprivileged context. -/
def State.teamCounter (s : State) (t : Team) (i : Nat) : Word64 :=
  let x := s.ctx (s.ctxOf t)
  let evt := x.evt.getD i 0
  if (evt == 0x0E || evt == 0x0F) && !x.priv then 0 else BitVec.ofNat 64 (x.counters.getD i 0)

/-- The multi-word registers (R53), by the number of their low word. -/
def State.wideReg (s : State) (t : Team) (n : Nat) : Option Word64 :=
  match n with
  | 0x18 => some (s.allowLeft t)
  | 0x30 => some s.time
  | 0x32 => some (BitVec.ofNat 64 t.cyc)
  | 0x50 => some (s.teamCounter t 0)
  | 0x52 => some (s.teamCounter t 1)
  | 0x54 => some (s.teamCounter t 2)
  | 0x56 => some (s.teamCounter t 3)
  | _ => none

/-- The registers of one word (R52): an unassigned number reads zero. -/
def State.specialReg (s : State) (e : Entity) (t : Team) (n : Nat) : Nat :=
  let w := s.wgOf t
  let g := s.gridOf t
  let fromWg (f : Workgroup → Nat) : Nat := w.elim 0 f
  let fromGrid (f : Grid → Nat) : Nat := g.elim 0 f
  let level (k : Nat) : Nat := (e.loops[k]?).elim 0 fun l => l.count.toNat
  match n with
  | 0x00 => t.teamId
  | 0x01 => t.lanes
  | 0x02 => fromWg (·.teams)
  | 0x03 => fromWg (·.wgid.x)
  | 0x04 => fromWg (·.wgid.y)
  | 0x05 => fromWg (·.wgid.z)
  | 0x08 => fromWg (·.lo.x)
  | 0x09 => fromWg (·.lo.y)
  | 0x0A => fromWg (·.lo.z)
  | 0x0C => fromWg (·.hi.x)
  | 0x0D => fromWg (·.hi.y)
  | 0x0E => fromWg (·.hi.z)
  | 0x10 => fromGrid (·.gridId)
  | 0x11 => fromGrid (·.depth)
  | 0x12 => fromWg (·.splits)
  | 0x13 => fromWg fun w => if w.cluster.isSome then w.clusSlot + 2147483648 else 0
  | 0x14 => s.ctxOf t
  | 0x20 => t.mode.toNat
  | 0x21 => t.flags.toNat
  | 0x22 => t.mshape.toNat
  | 0x23 => match t.gang with | some g => g.toNat + 256 | none => 0
  | 0x40 => level 0
  | 0x41 => level 1
  | 0x42 => level 2
  | 0x48 => t.cnt .ld
  | 0x49 => t.cnt .st
  | 0x4A => t.cnt .cp
  | 0x4B => t.cnt .tl
  | _ => 0

/-- A high word (R53): the entity's snapshot where the last low-word read was of the same register, else the live value. -/
def highWord (e : Entity) (live : Word64) (n : Nat) : Word :=
  match e.snap with
  | some (k, v) => ((if k = n then v else live) >>> 32).setWidth 32
  | none => (live >>> 32).setWidth 32

/-- `srd` (R190, R52, R53): a low-word read keeps the whole value for the high word. -/
def execSrd (d : BitVec 6) (n : BitVec 12) (s : State) : Host.Outcome State Fault Refusal :=
  withCur s fun c =>
    match s.wideReg c.t n.toNat with
    | some v =>
      c.teamWord (s.modEnt c.eid fun e => { e with snap := some (n.toNat, v) }) fun t => t.setS d.toNat (v.setWidth 32)
    | none =>
      match (if n.toNat = 0 then none else s.wideReg c.t (n.toNat - 1)) with
      | some v => c.teamWord s fun t => t.setS d.toNat (highWord c.e v (n.toNat - 1))
      | none => c.teamWord s fun t => t.setS d.toNat (BitVec.ofNat 32 (s.specialReg c.e c.t n.toNat))

/-- `swr` (R190, R54, R55): MODE at the end of the clause, FLAGS at once; any other number is ILLOP. -/
def execSwr (n : BitVec 12) (a : BitVec 6) (s : State) : Host.Outcome State Fault Refusal :=
  withCur s fun c =>
    if n = 0x020 then c.advance (c.modIssue s fun i => { i with modeNew := some (modeWrite (c.t.sreg a.toNat)) }) 1
    else if n = 0x021 then c.teamWord s fun t => { t with flags := flagsWrite t.flags (t.sreg a.toNat) }
    else c.illop s

/-- `vtos` (R191): after the last pass of a VX clause, in order elsewhere; its lane is the scalar value that program order gives
it (R134). -/
def execVtos (d a l : BitVec 6) (s : State) : Host.Outcome State Fault Refusal :=
  withCur s fun c =>
    if c.i.cls == .vx then c.advance (c.modIssue s fun i => { i with vtos := i.vtos ++ [(d, a, c.t.sreg l.toNat)] }) 1
    else c.teamWord s fun t => t.vtosMove d a (t.sreg l.toNat)

/-- `stov` (R190). -/
def execStov (d a : BitVec 6) (s : State) : Host.Outcome State Fault Refusal :=
  withCur s fun c =>
    c.vec s (res32 .m .plain (.v d) []) .raw (.v d) (.raw, .v d) (.raw, .v d) (quiet fun _ _ _ => c.t.sreg a.toNat)

/-- `smovw` (R190). -/
def execSmovw (d : BitVec 6) (w : BitVec 32) (s : State) : Host.Outcome State Fault Refusal :=
  withCur s fun c => c.advance (s.modTeam c.e.team fun t => t.setS d.toNat w) 2

/-- `bdset` (R190): the reserved flag bits are stored as zero. -/
def execBdset (d : BitVec 4) (a b : BitVec 6) (s : State) : Host.Outcome State Fault Refusal :=
  withCur s fun c => c.teamWord s fun t =>
    let x : BufDesc := { base := t.xreg (a.toNat / 2), len := t.sreg b.toNat, flags := t.sreg (b.toNat + 1) &&& 0x3F }
    { t with b := tabPut t.b d.toNat x }

end Sys2Proof.Machine
end

