-- ==== Sys2Proof/Machine/Priv.lean ====
section
/-! DEFINITION. Writes of the privileged space (R313 to R318, R333, R346, R350, R367, R369, R377, R379, R381, R388, R392), and the
machine steps that are such writes. -/

namespace Sys2Proof.Machine

/-! ### Acceptance (R313, R314) -/

/-- A write that is dropped and logged (R313). -/
def State.dropWrite (s : State) (port a : Nat) : State :=
  { s with sem := { s.sem with dropCount := sat16 s.sem.dropCount, dropPort := port, dropReg := a } }

/-- Whether a port holds the semaphore. -/
def State.ownsSem (s : State) (port : Nat) : Bool := s.sem.held && s.sem.owner == port

/-- The context whose own port writes a register without the semaphore, if a number is such a register (R313). -/
def ownRegister (a : Nat) : Option Nat :=
  if 0x1000 ≤ a ∧ a < 0x2000 ∧ (a % 64 = 0x04 ∨ a % 64 = 0x24) then some ((a - 0x1000) / 64)
  else if 0x2000 ≤ a ∧ a < 0x3000 ∧ (a % 64 = 0x10 ∨ a % 64 = 0x14 ∨ a % 64 = 0x18) then some ((a - 0x2000) / 64)
  else none

/-- Whether a write by a port is accepted (R313). -/
def State.privAccepts (s : State) (port a : Nat) : Bool :=
  s.ownsSem port || (match ownRegister a with | some c => (s.ctx c).port == port | none => false)

/-- A write of DZ_SEM (R314): a grant or a renewal, then a release. -/
def State.semWrite (s : State) (port : Nat) (v : Word) : State :=
  let m := s.sem
  let m := if v.getLsbD 2 then
      (if !m.held then { m with held := true, owner := port, epoch := (m.epoch + 1) % 256, lease := 0 }
       else if m.owner = port then { m with lease := 0 } else m)
    else m
  { s with sem := if v.getLsbD 3 && m.held && m.owner == port then { m with held := false } else m }

/-! ### Contexts (R315, R316, R333) -/

/-- A word of a pair replaced: the low one or the high one. -/
def setLo (x : Word64) (v : Word) : Word64 := (x >>> 32).setWidth 32 ++ v
def setHi (x : Word64) (v : Word) : Word64 := v ++ (x.setWidth 32 : Word)
def setHalf (hi : Bool) (x : Word64) (v : Word) : Word64 := if hi then setHi x v else setLo x v

/-- Whether the restricted fields of a context may change (R316). -/
def Ctx.mayChange (x : Ctx) : Bool := x.state == .free || x.state == .suspended

/-- A CTXCFG word (R315). -/
def Ctx.withCfg (x : Ctx) (n : Nat) : Ctx :=
  { x with priv := bitOf n 0, port := bitsOf n 1 1, part := bitsOf n 4 2, share := bitsOf n 12 5, trapEn := bitOf n 13
           tmask := bitsOf n 19 14 }

/-- A write of a word with restricted fields (R316): applied whole where they stay or may change; else dropped. -/
def restricted (x : Ctx) (ok same : Bool) (y : Ctx) : Option Ctx := if ok || same then some y else if x = y then some x else none

/-- A write of a context's first block; none where it is dropped and logged.  The low bits of QTBASE and FQBASE, which are aligned, are
not kept (log 47). -/
def Ctx.write1 (x : Ctx) (off : Nat) (v : Word) : Option Ctx :=
  let n := v.toNat
  match off with
  | 0x00 =>
    let y := x.withCfg n
    restricted x false ((y.priv == x.priv || x.state == .free) && (y.port == x.port && y.part == x.part || x.mayChange)) y
  | 0x08 => some { x with err := x.err && !v.getLsbD 3 }
  | 0x0C => some { x with seed := if v = 0 then 1 else v }
  | 0x10 => restricted x x.mayChange false { x with qtBase := setLo x.qtBase (v &&& 0xFFFFF000) }
  | 0x14 => restricted x x.mayChange false { x with qtBase := setHi x.qtBase v }
  | 0x18 => restricted x x.mayChange false { x with fqBase := setLo x.fqBase (v &&& 0xFFFFFFC0) }
  | 0x1C => restricted x x.mayChange false { x with fqBase := setHi x.fqBase v }
  | 0x20 => some { x with fqLog := n % 16 }
  | 0x24 => some { x with fqHead := v }
  | 0x30 => some { x with tvec := setLo x.tvec v }
  | 0x34 => some { x with tvec := setHi x.tvec v }
  | 0x38 =>
    let y := { x with tslots := n % 128, tarea := setLo x.tarea (v &&& 0xFFFFFF80) }
    restricted x x.mayChange (y.tarea == x.tarea) y
  | 0x3C => restricted x x.mayChange false { x with tarea := setHi x.tarea v }
  | _ => some x

/-- The bits of a translation root (R333). -/
def rootMask : Word64 := 0x0000FFFFFFFFE001

/-- A write of a context's second block but for RQCMD; none where it is dropped and logged. -/
def Ctx.write2 (x : Ctx) (off : Nat) (v : Word) : Option Ctx :=
  match off with
  | 0x00 => restricted x x.mayChange false { x with grpBase := setLo x.grpBase v }
  | 0x04 => restricted x x.mayChange false { x with grpBase := setHi x.grpBase v }
  | 0x08 => some { x with ctxSave := setLo x.ctxSave v }
  | 0x0C => some { x with ctxSave := setHi x.ctxSave v }
  | 0x10 => some { x with rqva := setLo x.rqva v }
  | 0x14 => some { x with rqva := setHi x.rqva v }
  | 0x20 => some { x with root0 := setLo x.root0 v &&& rootMask }
  | 0x24 => some { x with root0 := setHi x.root0 v &&& rootMask }
  | 0x28 => some { x with root1 := setLo x.root1 v &&& rootMask }
  | 0x2C => some { x with root1 := setHi x.root1 v &&& rootMask }
  | 0x30 => restricted x x.mayChange false { x with kslot := v.toNat % 4096 }
  | 0x34 => if x.count = 0 then some { x with tag := v.toNat % 16, count := v.toNat / 16 } else none
  | 0x38 => some { x with tagVa := (setLo (BitVec.ofNat 64 x.tagVa) v &&& 0x01FFFFFFFFFFFFF0).toNat }
  | 0x3C => some { x with tagVa := (setHi (BitVec.ofNat 64 x.tagVa) v &&& 0x01FFFFFFFFFFFFF0).toNat }
  | _ => some x

/-- A write of a counter session's word (R381); none where it is dropped and logged. -/
def Ctx.write3 (x : Ctx) (off : Nat) (v : Word) : Option Ctx :=
  let n := v.toNat
  if off = 0x04 then some { x with cen := n % 16, oie := bitsOf n 7 4, ovf := x.ovf &&& (15 - bitsOf n 11 8) }
  else if 0x08 ≤ off ∧ off < 0x18 ∧ off % 4 = 0 then
    (if n % 256 ≤ 0x10 then some { x with evt := x.evt.set ((off - 0x08) / 4) (n % 256) } else none)
  else if 0x18 ≤ off ∧ off < 0x38 ∧ off % 4 = 0 then
    let i := (off - 0x18) / 8
    let old := BitVec.ofNat 64 (x.counters.getD i 0)
    let new := setHalf (off % 8 == 4) old (if off % 8 = 4 then v &&& 0xFFFF else v)
    some { x with counters := x.counters.set i new.toNat }
  else some x

/-- The release that a write of RQCMD performs (R315, R330): the page is RQVA's, bit 31 is ALL and bit 30 is FAIL. -/
def State.hostRelease (s : State) (c : Nat) (v : Word) : State :=
  (s.release c (pageOf (s.ctx c).rqva.toNat) (v.getLsbD 31) (v.getLsbD 30)).rewriteParked c

/-- A write of a context's blocks; none where it is dropped and logged. -/
def State.ctxWrite (s : State) (block c off : Nat) (v : Word) : Option State :=
  match block, off with
  | 1, 0x04 => some (s.ctxCommand c (v.toNat % 8))
  | 1, _ => ((s.ctx c).write1 off v).map (s.setCtx c)
  | 2, 0x18 => some (s.hostRelease c v)
  | 2, _ => ((s.ctx c).write2 off v).map (s.setCtx c)
  | _, 0x00 => some (s.dbgWrite c v)
  | _, _ => ((s.ctx c).write3 off v).map (s.setCtx c)

/-! ### Global registers -/

/-- Whether a set of stacks is one of the aligned groups of R318. -/
def stackGroup (m : Nat) : Bool :=
  m == 255 || m == 15 || m == 240 || (List.range 4).any (fun i => m == 3 * 4 ^ i) || (List.range 8).any fun i => m == 2 ^ i

/-- Whether PARTp may become a set (R318, R395): no other partition has a stack of it, and no context at work loses one. -/
def State.partOk (s : State) (p m : Nat) : Bool :=
  stackGroup m && ((List.range 8).all fun q => q == p || (s.partStacks q &&& m) == 0) &&
    ((s.partStacks p &&& m) == s.partStacks p || (List.range 64).all fun c => (s.ctx c).part != p ||
      !((s.ctx c).state == .active || (s.ctx c).state == .suspending || (s.ctx c).state == .tearing)) &&
    (s.service.svc != 1 || bitOf m 0)

/-- The trace stream's control word written at a time (R377); none where it is dropped and logged.  A stream that starts emits its first
frame at the next multiple of the interval, so that no frame follows a marker of its own tick (R378). -/
def Trace.control (t : Trace) (time n : Nat) : Option Trace :=
  if 4 ≤ bitsOf n 5 1 ∧ bitsOf n 5 1 ≤ 24 then some { t.enable time (bitOf n 0) with k := bitsOf n 5 1, mark := bitOf n 6 } else none

/-- A write of a global register; none where it is dropped and logged.  The low bits of TRBASE and of the report's address, which are
aligned, are not kept (log 47). -/
def State.globalWrite (s : State) (a : Nat) (v : Word) : Option State :=
  let n := v.toNat
  if 0x10 ≤ a ∧ a < 0x30 ∧ a % 4 = 0 then
    (if s.partOk ((a - 0x10) / 4) (n % 256) then some { s with parts := tabPut s.parts ((a - 0x10) / 4) (n % 256) } else none)
  else if 0x80 ≤ a ∧ a < 0xA0 ∧ a % 4 = 0 then
    some { s with trust := { s.trust with nonce := s.trust.nonce.set ((a - 0x80) / 4) v } }
  else match a with
    | 0x04 => some { s with sem := { s.sem with lease := 0 } }
    | 0x30 => some { s with evPend := s.evPend &&& ~~~(v.setWidth 64) }
    | 0x34 => some { s with evPend := s.evPend &&& ~~~(v.setWidth 64 <<< 32) }
    | 0x38 => some { s with evMask := setLo s.evMask v }
    | 0x3C => some { s with evMask := setHi s.evMask v }
    | 0x40 => some { s with preTo := v }
    | 0x44 => some { s with hangLim := n % 65536 }
    | 0x48 => (s.trace.control s.time.toNat n).map fun t => { s with trace := t }
    | 0x4C => some { s with trace := { s.trace with trlog := n % 32 } }
    | 0x50 => some { s with trace := { s.trace with base := setLo s.trace.base (v &&& 0xFFFFF000) } }
    | 0x54 => some { s with trace := { s.trace with base := setHi s.trace.base v } }
    | 0x58 => some { s with trace := { s.trace with head := v } }
    | 0x70 => if s.ctxs.any (fun x => x.2.state == .active) then none else some { s with member := n % 256 }
    | 0x74 => some { s with linkEn := v.setWidth 18 }
    | 0xA0 => some (s.attest (n % 64))
    | 0xA8 => some { s with trust := { s.trust with addr := setLo s.trust.addr (v &&& 0xFFFFF000) } }
    | 0xAC => some { s with trust := { s.trust with addr := setHi s.trust.addr v } }
    | _ => some s

/-- A write of a histogram's window (R379). -/
def State.histWrite (s : State) (h off : Nat) (v : Word) : State :=
  let n := v.toNat
  if off = 0x80 then
    s.modHist h fun x =>
      let x := { x with pctl := n % 256, act := bitsOf n 9 8, arm := bitOf n 10, fired := x.fired && !bitOf n 11, mincnt := bitsOf n 31 16 }
      if bitOf n 13 then { x with bkt := [], fired := false, frozen := false } else x
  else s

/-! ### The write (R313) -/

/-- An accepted write; none where a rule of its register drops it. -/
noncomputable def State.privApply (s : State) (port a : Nat) (v : Word) : Option State :=
  if a < 0x1000 then s.globalWrite a v
  else if a < 0x2000 then s.ctxWrite 1 ((a - 0x1000) / 64) (a % 64) v
  else if a < 0x3000 then s.ctxWrite 2 ((a - 0x2000) / 64) (a % 64) v
  else if a < 0x4000 then s.ctxWrite 3 ((a - 0x3000) / 64) (a % 64) v
  else if 0x10000 ≤ a ∧ a < 0x19000 then s.boardWrite a v
  else if 0x20000 ≤ a ∧ a < histBase 280 then some (s.histWrite ((a - 0x20000) / 256) (a % 256) v)
  else if 0x40000 ≤ a ∧ a < windowBase 4096 then some (s.windowWrite port ((a - 0x40000) / 256) (a % 256) v)
  else some s

/-- A write of a register of the privileged space by a port (R313). -/
noncomputable def State.privWrite (s : State) (port a : Nat) (v : Word) : State :=
  if a = 0 then s.semWrite port v
  else if s.privAccepts port a then (s.privApply port a v).getD (s.dropWrite port a)
  else s.dropWrite port a

/-- A host's write through its port (R312): the port's session is keyed before it carries any (R393). -/
noncomputable def State.portWrite (s : State) (p a : Nat) (v : Word) : Host.Outcome State Fault Refusal :=
  .next (if s.portUp p then s.privWrite p a v else s)

/-- A request for the semaphore that waits beside another: its port and its word, and the entity whose `pcsrw` it is, or none for the
next event of the agenda. -/
structure SemAsk where
  port : Nat
  word : Word
  ent : Option Nat
deriving DecidableEq, Repr

/-- The request for the semaphore that an event is (R314). -/
def semAsk : Instr → Option SemAsk
  | .acq p => some { port := p, word := 4, ent := none }
  | .privRegisterWrite p a v => if a = 0 && v.getLsbD 2 then some { port := p, word := v, ent := none } else none
  | _ => none

/-- The request for the semaphore that an entity's next word is, where the entity may execute it (R313, R314). -/
noncomputable def State.entAsk (s : State) (eid : Nat) (e : Entity) : Option SemAsk :=
  match e.issue.bind (·.instr), tabGet s.teams e.team with
  | some (.pcsrw a b), some t =>
    if t.sreg a.toNat = 0 && (t.sreg b.toNat).getLsbD 2 && s.entRuns e t && s.mayGoOn eid e t && s.settledEnt eid &&
        !s.sourcePending eid e (.pcsrw a b) then
      some { port := (s.ctx (s.ctxOf t)).port, word := t.sreg b.toNat, ent := some eid }
    else none
  | _, _ => none

/-- The request of the other port that may come with one of port `p` in the same cycle, while the semaphore is free (R314, log 20). -/
noncomputable def State.rivalAsk (s : State) (p : Nat) : Option SemAsk :=
  if s.sem.held then none
  else ((s.agenda.head?.bind semAsk).filter fun r => r.port != p && s.portUp r.port).or
    (s.ents.findSome? fun x => (s.entAsk x.1 x.2).filter fun r => r.port != p)

/-- The state in which a request is done with: its event is gone, or its word has executed. -/
def State.spent (s : State) (r : SemAsk) : State :=
  match r.ent with
  | none => { s with agenda := s.agenda.tail }
  | some k => match s.curOf k with
    | some c => c.advance s 1
    | none => s

/-- A request for the semaphore (R314).  Where the other port's comes in the same cycle, the port numbered EPOCH mod 2 wins, and the
other's write has no effect. -/
noncomputable def State.semRequest (s : State) (p : Nat) (v : Word) : State :=
  match s.rivalAsk p with
  | none => s.semWrite p v
  | some r =>
    let t := { s with free := s.free + 1 }
    if !Config.sameCycle s.free then t.semWrite p v
    else if p = s.sem.epoch % 2 then (t.spent r).semWrite p v
    else (t.spent r).semWrite r.port r.word

/-- A host's request for the semaphore through its port (R312, R314). -/
noncomputable def State.portRequest (s : State) (p : Nat) (v : Word) : Host.Outcome State Fault Refusal :=
  .next (if s.portUp p then s.semRequest p v else s)

/-! ### The machine steps that are writes -/

/-- PRIV_REGISTER_WRITE (R313, R314). -/
noncomputable def execPrivRegisterWrite (p a : Nat) (v : BitVec 32) (s : State) : Host.Outcome State Fault Refusal :=
  if a = 0 ∧ v.getLsbD 2 then s.portRequest p v else s.portWrite p a v

/-- ACQ (R314). -/
noncomputable def execAcq (p : Nat) (s : State) : Host.Outcome State Fault Refusal := s.portRequest p 4

/-- REL (R314). -/
noncomputable def execRel (p : Nat) (s : State) : Host.Outcome State Fault Refusal := s.portWrite p 0 8

/-- DZ_HB (R314). -/
noncomputable def execDzHb (p : Nat) (s : State) : Host.Outcome State Fault Refusal := s.portWrite p 4 0

/-- LEASE_LAPSE (R314): 100 ms without a restart of the lease. -/
def execLeaseLapse (s : State) : Host.Outcome State Fault Refusal :=
  .next (if s.sem.held = true ∧ 10000000 ≤ s.sem.lease then { s with sem := { s.sem with held := false } } else s)

/-- CREATE (R316). -/
noncomputable def execCreate (p c : Nat) (s : State) : Host.Outcome State Fault Refusal := s.portWrite p (ctxBase (c % 64) + 4) 1

/-- SUSPEND (R316, R317). -/
noncomputable def execSuspend (p c : Nat) (s : State) : Host.Outcome State Fault Refusal := s.portWrite p (ctxBase (c % 64) + 4) 2

/-- RESUME (R316, R317). -/
noncomputable def execResume (p c : Nat) (s : State) : Host.Outcome State Fault Refusal := s.portWrite p (ctxBase (c % 64) + 4) 3

/-- TEAR (R316). -/
noncomputable def execTear (p c : Nat) (s : State) : Host.Outcome State Fault Refusal := s.portWrite p (ctxBase (c % 64) + 4) 4

/-- HOST_RQREL (R330): a write of RQCMD. -/
noncomputable def execHostRqrel (p c : Nat) (v : BitVec 32) (s : State) : Host.Outcome State Fault Refusal :=
  s.portWrite p (ctx2Base (c % 64) + 0x18) v

/-- TAG_COUNT_WRITE (R337). -/
noncomputable def execTagCountWrite (p c : Nat) (v : BitVec 32) (s : State) : Host.Outcome State Fault Refusal :=
  s.portWrite p (ctx2Base (c % 64) + 0x34) v

/-- ATTESTATION_REQUEST (R392). -/
noncomputable def execAttestationRequest (p : Nat) (v : BitVec 32) (s : State) : Host.Outcome State Fault Refusal := s.portWrite p 0xA0 v

/-- STOP (R370): the word carries the context. -/
noncomputable def execStop (p q : Nat) (v : BitVec 32) (s : State) : Host.Outcome State Fault Refusal :=
  s.portWrite p (windowBase (q % 4096)) ((v &&& 0x3F00) ||| 1)

/-- DEBUG_RESUME (R370), of the context that is stopped. -/
noncomputable def execDebugResume (p q : Nat) (s : State) : Host.Outcome State Fault Refusal :=
  s.portWrite p (windowBase (q % 4096)) (BitVec.ofNat 32 (2 + 256 * (s.window (q % 4096)).sctx))

/-- STEP (R373), of the context that is stopped. -/
noncomputable def execStep (p q : Nat) (s : State) : Host.Outcome State Fault Refusal :=
  s.portWrite p (windowBase (q % 4096)) (BitVec.ofNat 32 (3 + 256 * (s.window (q % 4096)).sctx))

/-- STEPALL (R373), of the context that is stopped. -/
noncomputable def execStepall (p q : Nat) (s : State) : Host.Outcome State Fault Refusal :=
  s.portWrite p (windowBase (q % 4096)) (BitVec.ofNat 32 (4 + 256 * (s.window (q % 4096)).sctx))

/-- DEBUG_EDIT (R374): a write of DDATA. -/
noncomputable def execDebugEdit (p q : Nat) (v : BitVec 32) (s : State) : Host.Outcome State Fault Refusal :=
  s.portWrite p (windowBase (q % 4096) + 0x10) v

/-- DEBUG_REVOKE (R368): a write of DBG. -/
noncomputable def execDebugRevoke (p c : Nat) (v : BitVec 32) (s : State) : Host.Outcome State Fault Refusal :=
  s.portWrite p (dbgBase (c % 64)) v

/-- CLR (R379): a histogram is cleared; its other fields are written back as they read. -/
noncomputable def execClr (p h : Nat) (s : State) : Host.Outcome State Fault Refusal :=
  let x := s.hist (h % 280)
  s.portWrite p (histBase (h % 280) + 0x80)
    (BitVec.ofNat 32 (x.pctl + 256 * x.act + bitAt x.arm 10 + 8192 + 65536 * x.mincnt))

/-! ### Opcode 0x24 (R327 to R331) -/

/-- The number under which a read of a low word is kept for its high word (R53, R329): apart from the special registers. -/
def privSnap (a : Nat) : Nat := 4294967296 + a

/-- `pcsrr` (R329): a low word keeps the pair for its high word (R53); it waits for every earlier access. -/
def execPcsrr (d a : BitVec 6) (s : State) : Host.Outcome State Fault Refusal :=
  withCur s fun c =>
    let n := (c.t.sreg a.toNat).toNat
    if !s.settledEnt c.eid then c.holdAt s .order
    else
      let s := s.observe c.t
      match s.privPair n with
      | some v => c.teamWord (s.modEnt c.eid fun e => { e with snap := some (privSnap n, v) }) fun t => t.setS d.toNat (v.setWidth 32)
      | none =>
        match (if n < 4 then none else s.privPair (n - 4)) with
        | some v => c.teamWord s fun t => t.setS d.toNat (highWord c.e v (privSnap (n - 4)))
        | none => c.teamWord s fun t => t.setS d.toNat (BitVec.ofNat 32 (s.privWord n))

/-- `pcsrw` (R313, R329): a write by the port of the entity's context, after every earlier access. -/
noncomputable def execPcsrw (a b : BitVec 6) (s : State) : Host.Outcome State Fault Refusal :=
  withCur s fun c =>
    if !s.settledEnt c.eid then c.holdAt s .order
    else
      let s := s.observe c.t
      let port := (s.ctx (s.ctxOf c.t)).port
      let v := c.t.sreg b.toNat
      if c.t.sreg a.toNat = 0 ∧ v.getLsbD 2 then (c.advance s 1).semRequest port v
      else (c.advance s 1).privWrite port (c.t.sreg a.toNat).toNat v

/-- Whether an operation of a context has a lane that was translated by an entry of a page, a large leaf's too, or by any (R336). -/
def State.usesPage (s : State) (ctx page : Nat) (all : Bool) : Bool :=
  s.ops.any fun o => (match tabGet s.teams o.2.team with | some t => s.ctxOf t == ctx | none => false) &&
    o.2.space == .global && o.2.lanes.any fun l => !l.done && l.phys.isSome &&
      (all || pageOf l.ptr / 2 ^ (10 * l.level) == page / 2 ^ (10 * l.level))

/-- Whether stores that are locally ordered before an entity's word, and that no missing mapping holds back, are still to be performed
(R330). -/
def State.storesBefore (s : State) (eid : Nat) : Bool :=
  (s.orderedBefore eid).any fun k => !s.heldByParking.contains k && (match tabGet s.ops k with
    | some o => o.kind != .load
    | none => false)

/-- `tinv` (R330, R336): held until no access translated by an old entry is left, and every store ordered before it is performed; then
no L1 keeps a byte that an old entry's stores left dirty, and no TLB a translation of it. -/
def execTinv (a b : BitVec 6) (s : State) : Host.Outcome State Fault Refusal :=
  withCur s fun c =>
    let w := c.t.sreg b.toNat
    let ctx := w.toNat % 64
    let page := pageOf (c.t.xreg (a.toNat / 2)).toNat
    let all := w.getLsbD 31
    if s.storesBefore c.eid || s.usesPage ctx page all then c.holdAt s .tinv
    else c.advance ((s.l1Cols.foldl State.l1Sync s).tlbDrop ctx page all) 1

/-- `rqrel` (R330): parked accesses, held slices and held loads are released, after every earlier access of the entity but those
that a missing mapping holds back, which the release is for. -/
def execRqrel (a b : BitVec 6) (s : State) : Host.Outcome State Fault Refusal :=
  withCur s fun c =>
    let w := c.t.sreg b.toNat
    if !(s.unperformed c.eid).all s.heldByParking.contains then c.holdAt s .order
    else
      let ctx := w.toNat % 64
      let s := s.observe c.t
      c.advance ((s.release ctx (pageOf (c.t.xreg (a.toNat / 2)).toNat) (w.getLsbD 31) (w.getLsbD 30)).rewriteParked ctx) 1

/-- `hlt` (R331): held until an event that the mask admits is pending. -/
def execHlt (d : BitVec 6) (s : State) : Host.Outcome State Fault Refusal :=
  withCur s fun c =>
    let v := s.evPend &&& s.evMask
    if v = 0 then c.holdAt s .hlt else c.teamWord s fun t => t.setX (d.toNat / 2) v

/-! ### The return from a trap (R328) -/

/-- The header at an address, as far as the code there can be read. -/
def State.headerAt (s : State) (t : Team) (h : Word64) : Option Nat :=
  match s.codeWord (s.stackOf t) (s.ctxOf t) h.toNat with
  | .inl w => some w
  | .inr _ => none

/-- The clause and the word that a trap slot resumes at (R325, R328). -/
def State.slotResume (s : State) (stack ctx i : Nat) : Word64 × Nat :=
  let b := s.deviceLoad stack ctx ((s.ctx ctx).slotAddr i + 64) 32
  (BitVec.ofNat 64 (recField b 0 8), recField b 8 4 % 32)

/-- Whether an earlier store of an entity to a range has still to be performed (R111): a later access to its bytes comes after it. -/
def State.storingTo (s : State) (eid ptr n : Nat) : Bool :=
  s.ops.any fun x => x.2.ent == eid && x.2.space == .global && x.2.kind != .load && x.2.lanes.any fun l => !l.done &&
    decide (l.ptr % 2 ^ 57 < ptr % 2 ^ 57 + n) && decide (ptr % 2 ^ 57 < l.ptr % 2 ^ 57 + x.2.size)

/-- `tret` (R328): the slot's resume point and `s60` to `s63` come back, and the slot is free.  A store of the handler to the slot
comes first (R111). -/
def execTret (s : State) : Host.Outcome State Fault Refusal :=
  withCur s fun c =>
    match c.e.handler with
    | none => c.illop s
    | some i =>
      let ctx := s.ctxOf c.t
      let stack := s.stackOf c.t
      let at' := (s.ctx ctx).slotAddr i + 64
      if s.storingTo c.eid at' 32 || s.rangeWaits stack ctx [.load] at' 32 ||
          s.accessWaits stack ctx .fetch (s.slotResume stack ctx i).1.toNat 4 then c.holdAt s .order
      else match s.rangeCheck stack ctx [.load] at' 32 with
      | .fault x a b => c.raiseWith s { c.fault x a with addr2 := b }
      | .absent a => c.raise s cPGNP a
      | .ok =>
        let s := (s.observe c.t).touchRange (s.stackOf c.t) ctx ((s.ctx ctx).slotAddr i + 64) 32
        let b := s.deviceLoad (s.stackOf c.t) ctx ((s.ctx ctx).slotAddr i + 64) 32
        let (h, k) := s.slotResume stack ctx i
        let n := match s.headerAt c.t h with | some w => fld w 3 0 | none => 15
        let s := s.touch (s.stackOf c.t) ctx .fetch h.toNat
        if k = 0 ∨ n + 1 < k then c.illop s
        else
          let s := s.retireClause c.eid c.e c.i
          let s := s.modTeam c.e.team fun t =>
            (List.range 4).foldl (fun t j => t.setS (60 + j) (BitVec.ofNat 32 (recField b (16 + 4 * j) 4))) t
          let s := s.modCtx ctx fun x => { x with traps := tabDel x.traps i }
          let s := s.modEnt c.eid fun e =>
            { e with handler := none, stopped := e.haltNext, haltNext := false, pc := h, word := k, admitted := false }
          if k = n + 1 then
            (s.modEnt c.eid fun e => { e with word := 0 }).continueAt c.eid c.e.team (h + BitVec.ofNat 64 (4 * (n + 1)))
          else s.settle c.e.team

end Sys2Proof.Machine
end

