-- ==== Sys2Proof/Machine/VMove.lean ====
section
/-! DEFINITION. Compares, predicates, moves, selection and shape, opcodes 0x0A and 0x0E (R169 to R171, R179 to R184). -/

namespace Sys2Proof.Machine

/-- The state with the active lanes of a predicate written (R48, R169), and flags raised; no lane, no effect (R19). -/
def Cur.predWord (c : Cur) (s : State) (p : Nat) (f : Nat → Bool × Word) : State :=
  let ls := lanesOf c.e.mask c.t.lanes
  let set := maskOf (ls.filter fun l => (f l).1)
  let fl := ls.foldl (fun g l => g ||| (f l).2) (0 : Word)
  c.advance (c.raiseAfter (s.modTeam c.e.team fun t => t.setP p ((t.preg p &&& ~~~c.e.mask) ||| set)) fl) 1

/-- A compare of two operands (R169). -/
def compare (ty : ConstTy) (f : Word → Word → Bool × Word) (p : BitVec 3) (a b : VOp) (s : State) :
    Host.Outcome State Fault Refusal :=
  withCur s fun c =>
    let x := c.words ty a
    let y := c.words ty b
    c.predWord s p.toNat fun l => f (x.getD l 0) (y.getD l 0)

/-- `fcmp` (R169, R77). -/
def execFcmp (c : Cond) (p : BitVec 3) (a b : VOp) (s : State) : Host.Outcome State Fault Refusal :=
  compare .f32 (floatCmp c) p a b s

/-- `icmp.i32` (R169). -/
def execIcmpI32 (c : Cond) (p : BitVec 3) (a b : VOp) (s : State) : Host.Outcome State Fault Refusal :=
  compare .i32 (fun x y => (intCmp ifmtI32 c x y, 0)) p a b s

/-- `icmp.n32` (R169). -/
def execIcmpN32 (c : Cond) (p : BitVec 3) (a b : VOp) (s : State) : Host.Outcome State Fault Refusal :=
  compare .n32 (fun x y => (intCmp ifmtN32 c x y, 0)) p a b s

/-- `tabs` (R170). -/
def execTabs (t : AbsT) (p : BitVec 3) (a : VOp) (s : State) : Host.Outcome State Fault Refusal :=
  compare t.constTy (fun x _ => (allAbsent t x, 0)) p a a s

/-- A predicate operation (R171). -/
def plogBit : PlogOp → Bool → Bool → Bool
  | .and, x, y => x && y
  | .or, x, y => x || y
  | .xor, x, y => x != y
  | .not, x, _ => !x

/-- `plog` (R171). -/
def execPlog (o : PlogOp) (d a b : BitVec 3) (s : State) : Host.Outcome State Fault Refusal :=
  withCur s fun c => c.predWord s d.toNat fun l =>
    (plogBit o ((c.t.preg a.toNat).getLsbD l) ((c.t.preg b.toNat).getLsbD l), 0)

/-- A vector word given lane by lane: the active lanes take `f`, the others keep their word (R155). -/
def Cur.laneWrite (c : Cur) (s : State) (r : VRes) (ty : ConstTy) (d : VOp) (f : Nat → Word) (fl : Word) : State :=
  let old := c.words ty d
  c.vecEnd s r [(List.range c.t.lanes).map fun l => if c.e.mask.getLsbD l then f l else old.getD l 0] fl

/-- `mov` (R179): the tag of A under a full mask, the untyped absent register with it. -/
def execMov (d a : VOp) (s : State) : Host.Outcome State Fault Refusal :=
  withCur s fun c => c.vec s (res32 .b .keep d [a]) .raw d (.raw, a) (.raw, a) (quiet fun x _ _ => x)

/-- `sel` (R180): always G. -/
def execSel (d : VOp) (p : BitVec 3) (a b : VOp) (s : State) : Host.Outcome State Fault Refusal :=
  withCur s fun c =>
    let x := c.words .raw a
    let y := c.words .raw b
    c.laneWrite s (res32 .b .alwaysG d [a, b]) .raw d
      (fun l => if (c.t.preg p.toNat).getLsbD l then x.getD l 0 else y.getD l 0) 0

/-- `toabs` (R181): always G. -/
def execToabs (t : AbsT) (d a : VOp) (p : BitVec 3) (s : State) : Host.Outcome State Fault Refusal :=
  withCur s fun c =>
    let x := c.words t.constTy a
    c.laneWrite s (res32 .b .alwaysG d [a]) t.constTy d
      (fun l => if (c.t.preg p.toNat).getLsbD l then absentOf t else x.getD l 0) 0

/-- `defabs` (R182). -/
def execDefabs (t : AbsT) (d a b : VOp) (s : State) : Host.Outcome State Fault Refusal :=
  withCur s fun c => c.vec s (res32 .b .plain d [a, b]) t.constTy d (t.constTy, a) (t.constTy, b)
    (quiet fun x y _ => defAbsent t x y)

/-- `mkg` (R184): D is a G register that holds A in the active lanes. -/
def execMkg (d a : VOp) (s : State) : Host.Outcome State Fault Refusal :=
  withCur s fun c => c.vec s (res32 .b .alwaysG d [a]) .raw d (.raw, a) (.raw, a) (quiet fun x _ _ => x)

/-- A tag's code (R41). -/
def Tag.code : Tag → Nat
  | .u => 0
  | .a => 1
  | .g => 2
  | .x => 3

/-- The team's G count as a `gtag` reads it (R183): what the issue of its clause tracked before it (R44). -/
def Cur.trackedG (c : Cur) : Nat := (tabGet c.i.gcounts (c.i.next + 1)).getD c.t.gCount

/-- `gtag` (R183): it executes although no lane is active. -/
def execGtag (d a : BitVec 6) (s : State) : Host.Outcome State Fault Refusal :=
  withCur s fun c => c.teamWord s fun t =>
    t.setS d.toNat (BitVec.ofNat 32 ((t.vreg a.toNat).tag.code + 256 * c.trackedG + 65536 * t.grant))

end Sys2Proof.Machine
end

