-- ==== Sys2Proof/Machine/VCross.lean ====
section
/-! DEFINITION. Cross-lane operations within a word, opcode 0x0D (R192, R193). -/

namespace Sys2Proof.Machine

/-- The active lanes of the word that holds a lane (R192). -/
def Cur.wordActive (c : Cur) (l : Nat) : List Nat :=
  ((List.range 32).map fun j => l / 32 * 32 + j).filter fun k => c.e.mask.getLsbD k

/-- A shuffle (R192): each active lane takes A of the lane that `pick` names in its word. -/
def shuffle (pick : Nat → Nat → Nat) (d a b : VOp) (s : State) : Host.Outcome State Fault Refusal :=
  withCur s fun c =>
    let x := c.words .raw a
    let y := c.words .raw b
    c.laneWrite s (res32 .m .alwaysG d [a, b]) .raw d
      (fun l => x.getD (l / 32 * 32 + pick (l % 32) ((y.getD l 0).toNat % 32)) 0) 0

/-- A cross-lane instruction of a predicate (R192). -/
def crossPred (f : Cur → Nat → Nat → Nat) (d : VOp) (p : BitVec 3) (s : State) : Host.Outcome State Fault Refusal :=
  withCur s fun c => c.laneWrite s (res32 .m .alwaysG d []) .raw d (fun l => BitVec.ofNat 32 (f c p.toNat l)) 0

/-- The reduction of a list of present f32 values by addition (R193): rounded once to nearest; none gives absent. -/
def wordSum (xs : List Word) : Word × Word :=
  let ns := (xs.map fun x => numOf fmtF32 x.toNat).filter fun n => !n.isAbsent
  if ns.isEmpty then (absentWord .f32, 0)
  else
    let (r, fl) := sumNum .ne ns
    let (k, g) := roundNum fmtF32 .ne false r
    (BitVec.ofNat 32 k, fl ||| g)

/-- The skip-class maximum of a list of f32 values (R193, R161). -/
def wordMax (xs : List Word) : Word × Word :=
  match xs.filter fun x => !(numOf fmtF32 x.toNat).isAbsent with
  | [] => (absentWord .f32, 0)
  | x :: rest =>
    let (k, fl) := rest.foldl (fun (acc, fl) y => let (r, g) := float2 fmtF32 .ne false .max acc y.toNat; (r, fl ||| g)) (passNum fmtF32 x.toNat)
    (BitVec.ofNat 32 k, fl)

/-- The saturated sum of a list of present i32 values (R193). -/
def wordSumI (xs : List Word) : Word × Word :=
  let vs := xs.filterMap fun x => ifmtI32.val x.toNat
  if vs.isEmpty then (absentWord .i32, 0) else coded (ifmtI32.sat vs.sum)

/-- Whether an f32, or an i32, word is present. -/
def presentF32 (x : Word) : Bool := !(numOf fmtF32 x.toNat).isAbsent
def presentI32 (x : Word) : Bool := (ifmtI32.val x.toNat).isSome

/-- The flags of a word reduction: those of its results, and ABS where a word's active lanes hold nothing present (R193). -/
def Cur.reduceFlags (c : Cur) (present : Word → Bool) (x : List Word) (f : Nat → Word × Word) : Word :=
  (lanesOf c.e.mask c.t.lanes).foldl (fun fl l =>
    fl ||| (f l).2 ||| (if (c.wordActive l).any (fun k => present (x.getD k 0)) then 0 else flagABS)) 0

/-- A word reduction, and a word scan (R193). -/
def reduceWord (ty : ConstTy) (present : Word → Bool) (scan : Bool) (f : List Word → Word × Word) (d a : VOp) (s : State) :
    Host.Outcome State Fault Refusal :=
  withCur s fun c =>
    let x := c.words ty a
    let g (l : Nat) : Word × Word := f (((c.wordActive l).filter fun k => !scan || decide (k ≤ l)).map fun k => x.getD k 0)
    c.laneWrite s (res32 .m .alwaysG d [a]) ty d (fun l => (g l).1) (c.reduceFlags present x g)

/-- `shfl` (R192). -/
def execShfl (d a b : VOp) (s : State) : Host.Outcome State Fault Refusal :=
  shuffle (fun _ n => n) d a b s

/-- `shflup` (R192). -/
def execShflup (d a b : VOp) (s : State) : Host.Outcome State Fault Refusal :=
  shuffle (fun bit n => if n ≤ bit then bit - n else bit) d a b s

/-- `shfldn` (R192). -/
def execShfldn (d a b : VOp) (s : State) : Host.Outcome State Fault Refusal :=
  shuffle (fun bit n => if bit + n ≤ 31 then bit + n else bit) d a b s

/-- `shflx` (R192). -/
def execShflx (d a b : VOp) (s : State) : Host.Outcome State Fault Refusal :=
  shuffle (fun bit n => Nat.xor bit n) d a b s

/-- `bcast` (R192). -/
def execBcast (d a : VOp) (s : State) : Host.Outcome State Fault Refusal :=
  withCur s fun c =>
    let x := c.words .raw a
    c.laneWrite s (res32 .m .alwaysG d [a]) .raw d (fun l => x.getD ((c.wordActive l).headD l) 0) 0

/-- `ballot` (R192). -/
def execBallot (d : VOp) (p : BitVec 3) (s : State) : Host.Outcome State Fault Refusal :=
  crossPred (fun c p l => ((c.wordActive l).filter fun k => (c.t.preg p).getLsbD k).foldl (fun x k => x + 2 ^ (k % 32)) 0)
    d p s

/-- `vany` (R192). -/
def execVany (d : VOp) (p : BitVec 3) (s : State) : Host.Outcome State Fault Refusal :=
  crossPred (fun c p l => if (c.wordActive l).any (fun k => (c.t.preg p).getLsbD k) then 1 else 0) d p s

/-- `vall` (R192). -/
def execVall (d : VOp) (p : BitVec 3) (s : State) : Host.Outcome State Fault Refusal :=
  crossPred (fun c p l => if (c.wordActive l).all (fun k => (c.t.preg p).getLsbD k) then 1 else 0) d p s

/-- `wred.add.f32` (R193). -/
def execWredAddF32 (d a : VOp) (s : State) : Host.Outcome State Fault Refusal :=
  reduceWord .f32 presentF32 false wordSum d a s

/-- `wred.max.f32` (R193). -/
def execWredMaxF32 (d a : VOp) (s : State) : Host.Outcome State Fault Refusal :=
  reduceWord .f32 presentF32 false wordMax d a s

/-- `wred.add.i32` (R193). -/
def execWredAddI32 (d a : VOp) (s : State) : Host.Outcome State Fault Refusal :=
  reduceWord .i32 presentI32 false wordSumI d a s

/-- `wscan.add.f32` (R193). -/
def execWscanAddF32 (d a : VOp) (s : State) : Host.Outcome State Fault Refusal :=
  reduceWord .f32 presentF32 true wordSum d a s

/-- `wscan.add.i32` (R193). -/
def execWscanAddI32 (d a : VOp) (s : State) : Host.Outcome State Fault Refusal :=
  reduceWord .i32 presentI32 true wordSumI d a s

/-- `lanes` (R192). -/
def execLanes (d : VOp) (s : State) : Host.Outcome State Fault Refusal :=
  withCur s fun c => c.laneWrite s (res32 .m .alwaysG d []) .raw d (fun l =>
    let act := c.wordActive l
    BitVec.ofNat 32 ((act.filter fun k => decide (k < l)).length + 256 * act.length)) 0

end Sys2Proof.Machine
end

