-- ==== Sys2Proof/Machine/VCvt.lean ====
section
/-! DEFINITION. Conversions and special functions, opcodes 0x0B and 0x0C (R172 to R178). -/

namespace Sys2Proof.Machine

/-- A conversion of one 32-bit lane word (R172).  A lane that is not written of a destination of code 0b11 turns into the absent code of
the destination's type: of the two types of the instruction R41 and R45 name none (log 29). -/
def cvt32 (ti to' : ConstTy) (f : Cur → Nat → Nat × Word) (d a : VOp) (s : State) : Host.Outcome State Fault Refusal :=
  withCur s fun c => c.vec s (res32 .f .plain d [a]) to' d (ti, a) (ti, a) fun x _ _ => coded (f c x.toNat)

/-- `cvt.f32.f16` (R172): exact. -/
def execCvtF32F16 (d a : VOp) (s : State) : Host.Outcome State Fault Refusal :=
  cvt32 .f16 .f32 (fun _ x => floatCvt fmtF16 fmtF32 .ne false (x % 65536)) d a s

/-- `cvt.f32.bf16` (R172): exact. -/
def execCvtF32Bf16 (d a : VOp) (s : State) : Host.Outcome State Fault Refusal :=
  cvt32 .bf16 .f32 (fun _ x => floatCvt fmtBf16 fmtF32 .ne false (x % 65536)) d a s

/-- `cvt.f32.e4m3` (R172): exact. -/
def execCvtF32E4m3 (d a : VOp) (s : State) : Host.Outcome State Fault Refusal :=
  cvt32 .e4m3 .f32 (fun _ x => floatCvt fmtE4m3 fmtF32 .ne false (x % 256)) d a s

/-- `cvt.f32.e5m2` (R172): exact. -/
def execCvtF32E5m2 (d a : VOp) (s : State) : Host.Outcome State Fault Refusal :=
  cvt32 .e5m2 .f32 (fun _ x => floatCvt fmtE5m2 fmtF32 .ne false (x % 256)) d a s

/-- `cvt.f16.f32` (R172). -/
def execCvtF16F32 (d a : VOp) (s : State) : Host.Outcome State Fault Refusal :=
  cvt32 .f32 .f16 (fun c x => floatCvt fmtF32 fmtF16 c.rm c.sat x) d a s

/-- `cvt.bf16.f32` (R172). -/
def execCvtBf16F32 (d a : VOp) (s : State) : Host.Outcome State Fault Refusal :=
  cvt32 .f32 .bf16 (fun c x => floatCvt fmtF32 fmtBf16 c.rm c.sat x) d a s

/-- `cvt.e4m3.f32` (R172). -/
def execCvtE4m3F32 (d a : VOp) (s : State) : Host.Outcome State Fault Refusal :=
  cvt32 .f32 .e4m3 (fun c x => floatCvt fmtF32 fmtE4m3 c.rm c.sat x) d a s

/-- `cvt.e5m2.f32` (R172). -/
def execCvtE5m2F32 (d a : VOp) (s : State) : Host.Outcome State Fault Refusal :=
  cvt32 .f32 .e5m2 (fun c x => floatCvt fmtF32 fmtE5m2 c.rm c.sat x) d a s

/-- `cvt.f64.f32` (R172): a pair, and no latch. -/
def execCvtF64F32 (d a : VOp) (s : State) : Host.Outcome State Fault Refusal :=
  withCur s fun c =>
    let old := c.pairs d
    let src := c.words .f32 a
    let (ws, fl) := lanes3d c.e.mask (elem64 fun x _ _ => floatCvt fmtF32 fmtF64 .ne false x) 0
      (src.map fun w => w.setWidth 64) old old old
    c.vecEnd s { res64 d [] with srcs := [a] }
      [ws.map fun w => w.setWidth 32, ws.map fun (w : Word64) => (w >>> 32).setWidth 32] fl

/-- `cvt.f32.f64` (R172). -/
def execCvtF32F64 (d a : VOp) (s : State) : Host.Outcome State Fault Refusal :=
  withCur s fun c =>
    let old := c.words .f32 d
    let (ws, fl) := lanes3d c.e.mask (elem64 fun x _ _ => floatCvt fmtF64 fmtF32 c.rm c.sat x) 0 (c.pairs a)
      (old.map fun w => w.setWidth 64) (old.map fun w => w.setWidth 64) (old.map fun w => w.setWidth 64)
    c.vecEnd s (res32 .f .plain d [a, vopNext a]) [ws.map fun w => w.setWidth 32] fl

/-- `cvt.f32.i32` (R172). -/
def execCvtF32I32 (d a : VOp) (s : State) : Host.Outcome State Fault Refusal :=
  cvt32 .i32 .f32 (fun c x => fromInt ifmtI32 c.rm x) d a s

/-- `cvt.f32.n32` (R172). -/
def execCvtF32N32 (d a : VOp) (s : State) : Host.Outcome State Fault Refusal :=
  cvt32 .n32 .f32 (fun c x => fromInt ifmtN32 c.rm x) d a s

/-- `cvt.i32.f32` (R173). -/
def execCvtI32F32 (d a : VOp) (s : State) : Host.Outcome State Fault Refusal :=
  cvt32 .f32 .i32 (fun _ x => toInt ifmtI32 x) d a s

/-- `cvt.n32.f32` (R173). -/
def execCvtN32F32 (d a : VOp) (s : State) : Host.Outcome State Fault Refusal :=
  cvt32 .f32 .n32 (fun _ x => toInt ifmtN32 x) d a s

/-- `cvt.i32.i8` (R172). -/
def execCvtI32I8 (d a : VOp) (s : State) : Host.Outcome State Fault Refusal :=
  cvt32 .i8 .i32 (fun _ x => intCvt ifmtI8 ifmtI32 (x % 256)) d a s

/-- `cvt.i32.n8` (R172). -/
def execCvtI32N8 (d a : VOp) (s : State) : Host.Outcome State Fault Refusal :=
  cvt32 .n8 .i32 (fun _ x => intCvt ifmtN8 ifmtI32 (x % 256)) d a s

/-- `cvt.i8.i32` (R172). -/
def execCvtI8I32 (d a : VOp) (s : State) : Host.Outcome State Fault Refusal :=
  cvt32 .i32 .i8 (fun _ x => intCvt ifmtI32 ifmtI8 x) d a s

/-- `cvt.n8.i32` (R172). -/
def execCvtN8I32 (d a : VOp) (s : State) : Host.Outcome State Fault Refusal :=
  cvt32 .i32 .n8 (fun _ x => intCvt ifmtI32 ifmtN8 x) d a s

/-- `cvtpk` (R174). -/
def execCvtpk (d a b : VOp) (s : State) : Host.Outcome State Fault Refusal :=
  withCur s fun c => c.vec s (res32 .f .plain d [a, b]) .f16 d (.f32, a) (.f32, b) fun x y _ =>
    let (lo, f0) := floatCvt fmtF32 fmtF16 c.rm c.sat x.toNat
    let (hi, f1) := floatCvt fmtF32 fmtF16 c.rm c.sat y.toNat
    (BitVec.ofNat 32 (lo + 65536 * hi), f0 ||| f1)

/-- `cvtup` (R175). -/
def execCvtup (t : UpT) (e : BitVec 2) (d a : VOp) (s : State) : Host.Outcome State Fault Refusal :=
  withCur s fun c =>
    c.vec s (res32 .f .plain d [a]) (match t with | .i8 | .n8 => .i32 | _ => .f32) d (t.constTy, a) (t.constTy, a)
      fun x _ _ => coded (upCvt t (x.toNat / 2 ^ ((if t.is16 then 16 else 8) * e.toNat)))

/-- The words `tunpk` reads: an absent operand is the absent TERN5 byte, and a constant its raw integer (log 18). -/
def Cur.ternWords (c : Cur) (a : VOp) : List Word :=
  match a with
  | .const .absent => List.replicate c.t.lanes 243
  | _ => (readOp c.t c.i .raw a).words 243 c.t.lanes

/-- The active lanes whose byte is a reserved TERN5 code (R176). -/
def Cur.reservedLanes (c : Cur) (a : VOp) : List Nat :=
  (lanesOf c.e.mask c.t.lanes).filter fun l => decide (243 < ((c.ternWords a).getD l 0).toNat % 256)

/-- `tunpk` (R176): a reserved byte under STRICT is FMTF, naming its lanes, one too that came after the check at the issue (log 29). -/
def execTunpk (d a : VOp) (k : BitVec 3) (s : State) : Host.Outcome State Fault Refusal :=
  withCur s fun c =>
    let bad := c.reservedLanes a
    if c.strict && !bad.isEmpty then c.raiseWith s { c.fault cFMTF 0 with lanes := maskOf bad }
    else
      let old := c.words .i32 d
      let (ws, fl) := lanes3 c.e.mask (fun x _ _ => tritOf (x.toNat % 256) k.toNat) 0 (c.ternWords a) old old old
      c.vecEnd s (res32 .f .plain d [a]) [ws] fl

/-- `frcp` (R177, R178). -/
def execFrcp (d a : VOp) (s : State) : Host.Outcome State Fault Refusal :=
  withCur s fun c => c.vec s (res32 .f .plain d [a]) .f32 d (.f32, a) (.f32, a) fun x _ _ => special 0 x

/-- `frsq` (R177, R178). -/
def execFrsq (d a : VOp) (s : State) : Host.Outcome State Fault Refusal :=
  withCur s fun c => c.vec s (res32 .f .plain d [a]) .f32 d (.f32, a) (.f32, a) fun x _ _ => special 1 x

/-- `fexp2` (R177, R178). -/
def execFexp2 (d a : VOp) (s : State) : Host.Outcome State Fault Refusal :=
  withCur s fun c => c.vec s (res32 .f .plain d [a]) .f32 d (.f32, a) (.f32, a) fun x _ _ => special 2 x

/-- `flog2` (R177, R178). -/
def execFlog2 (d a : VOp) (s : State) : Host.Outcome State Fault Refusal :=
  withCur s fun c => c.vec s (res32 .f .plain d [a]) .f32 d (.f32, a) (.f32, a) fun x _ _ => special 3 x

/-- `fsin` (R177, R178). -/
def execFsin (d a : VOp) (s : State) : Host.Outcome State Fault Refusal :=
  withCur s fun c => c.vec s (res32 .f .plain d [a]) .f32 d (.f32, a) (.f32, a) fun x _ _ => special 4 x

/-- `fcos` (R177, R178). -/
def execFcos (d a : VOp) (s : State) : Host.Outcome State Fault Refusal :=
  withCur s fun c => c.vec s (res32 .f .plain d [a]) .f32 d (.f32, a) (.f32, a) fun x _ _ => special 5 x

/-- `ftanh` (R177, R178). -/
def execFtanh (d a : VOp) (s : State) : Host.Outcome State Fault Refusal :=
  withCur s fun c => c.vec s (res32 .f .plain d [a]) .f32 d (.f32, a) (.f32, a) fun x _ _ => special 6 x

/-- `fsigm` (R177, R178). -/
def execFsigm (d a : VOp) (s : State) : Host.Outcome State Fault Refusal :=
  withCur s fun c => c.vec s (res32 .f .plain d [a]) .f32 d (.f32, a) (.f32, a) fun x _ _ => special 7 x

end Sys2Proof.Machine
end

