-- ==== Sys2Proof/Machine/VFloat.lean ====
section
/-! DEFINITION. The float families, opcodes 0x01 to 0x06 (R159 to R163). -/

namespace Sys2Proof.Machine

/-! ### Shared forms (R159 to R161) -/

/-- A two-operand instruction on f32, on packed 16-bit elements, on f64 pairs, and on packed FP8 elements. -/
def fbin32 (op : FOp2) (d a b : VOp) (s : State) : Host.Outcome State Fault Refusal :=
  withCur s fun c => c.vec s (res32 .a .plain d [a, b]) .f32 d (.f32, a) (.f32, b) fun x y _ =>
    coded (float2 fmtF32 c.rm false op x.toNat y.toNat)
def fbinHalf (op : FOp2) (t : HalfT) (d a b : VOp) (s : State) : Host.Outcome State Fault Refusal :=
  withCur s fun c => c.vec s (res32 .a .plain d [a, b]) t.constTy d (t.constTy, a) (t.constTy, b)
    (elems 16 fun x y _ => float2 (halfFmt t) c.rm false op x y)
def fbin64 (op : FOp2) (d a b : VOp) (s : State) : Host.Outcome State Fault Refusal :=
  withCur s fun c => c.vec64 s (res64 d [a, b]) d a b (elem64 fun x y _ => float2 fmtF64 c.rm false op x y)
def fbin8 (op : FOp2) (t : Fp8T) (d a b : VOp) (s : State) : Host.Outcome State Fault Refusal :=
  withCur s fun c => c.vec s (res32 .a .plain d [a, b]) t.constTy d (t.constTy, a) (t.constTy, b)
    (elems 8 fun x y _ => float2 (fp8Fmt t) c.rm c.sat op x y)

/-- The same with one operand. -/
def fone32 (op : FOp1) (d a : VOp) (s : State) : Host.Outcome State Fault Refusal :=
  withCur s fun c => c.vec s (res32 .a .plain d [a]) .f32 d (.f32, a) (.f32, a) fun x _ _ =>
    coded (float1 fmtF32 c.rm false op x.toNat)
def foneHalf (op : FOp1) (t : HalfT) (d a : VOp) (s : State) : Host.Outcome State Fault Refusal :=
  withCur s fun c => c.vec s (res32 .a .plain d [a]) t.constTy d (t.constTy, a) (t.constTy, a)
    (elems 16 fun x _ _ => float1 (halfFmt t) c.rm false op x)
def fone64 (op : FOp1) (d a : VOp) (s : State) : Host.Outcome State Fault Refusal :=
  withCur s fun c => c.vec64 s (res64 d [a]) d a a (elem64 fun x _ _ => float1 fmtF64 c.rm false op x)
def fone8 (op : FOp1) (t : Fp8T) (d a : VOp) (s : State) : Host.Outcome State Fault Refusal :=
  withCur s fun c => c.vec s (res32 .a .plain d [a]) t.constTy d (t.constTy, a) (t.constTy, a)
    (elems 8 fun x _ _ => float1 (fp8Fmt t) c.rm c.sat op x)

/-- The fused forms (R163): f32, packed 16-bit, and the dot forms with their f32 addend. -/
def ffused32 (k : FmaKind) (d a b : VOp) (s : State) : Host.Outcome State Fault Refusal :=
  withCur s fun c => c.vec s (res32 .a .plain d [a, b, d]) .f32 d (.f32, a) (.f32, b) fun x y z =>
    coded (fused fmtF32 fmtF32 c.rm k [(x.toNat, y.toNat)] z.toNat)
def ffusedHalf (t : HalfT) (d a b : VOp) (s : State) : Host.Outcome State Fault Refusal :=
  withCur s fun c => c.vec s (res32 .a .plain d [a, b, d]) t.constTy d (t.constTy, a) (t.constTy, b)
    (elems 16 fun x y z => fused (halfFmt t) (halfFmt t) c.rm .plus [(x, y)] z)
def fdot (w : Nat) (f : FFmt) (t : ConstTy) (d a b : VOp) (s : State) : Host.Outcome State Fault Refusal :=
  withCur s fun c => c.vec s (res32 .a .plain d [a, b, d]) .f32 d (t, a) (t, b) fun x y z =>
    coded (fused f fmtF32 c.rm .plus ((elemList w x).zip (elemList w y)) z.toNat)
def fidot (fa fb : IFmt) (ta tb : ConstTy) (d a b : VOp) (s : State) : Host.Outcome State Fault Refusal :=
  withCur s fun c => c.vec s (res32 .a .plain d [a, b, d]) .i32 d (ta, a) (tb, b) (idot4 fa fb)

/-! ### The instructions -/

/-- `fadd.f32` (R160). -/
def execFaddF32 (d a b : VOp) (s : State) : Host.Outcome State Fault Refusal :=
  fbin32 .add d a b s

/-- `fadd.f16` and `fadd.bf16` (R160). -/
def execFaddF16Bf16 (t : HalfT) (d a b : VOp) (s : State) : Host.Outcome State Fault Refusal :=
  fbinHalf .add t d a b s

/-- `fadd.f64` (R160, R139). -/
def execFaddF64 (d a b : VOp) (s : State) : Host.Outcome State Fault Refusal :=
  fbin64 .add d a b s

/-- `fadd.e4m3` and `fadd.e5m2` (R160, R68). -/
def execFaddFp8 (t : Fp8T) (d a b : VOp) (s : State) : Host.Outcome State Fault Refusal :=
  fbin8 .add t d a b s

/-- `fsub.f32` (R160). -/
def execFsubF32 (d a b : VOp) (s : State) : Host.Outcome State Fault Refusal :=
  fbin32 .sub d a b s

/-- `fsub.f16` and `fsub.bf16` (R160). -/
def execFsubF16Bf16 (t : HalfT) (d a b : VOp) (s : State) : Host.Outcome State Fault Refusal :=
  fbinHalf .sub t d a b s

/-- `fsub.f64` (R160, R139). -/
def execFsubF64 (d a b : VOp) (s : State) : Host.Outcome State Fault Refusal :=
  fbin64 .sub d a b s

/-- `fsub.e4m3` and `fsub.e5m2` (R160, R68). -/
def execFsubFp8 (t : Fp8T) (d a b : VOp) (s : State) : Host.Outcome State Fault Refusal :=
  fbin8 .sub t d a b s

/-- `fmul.f32` (R160). -/
def execFmulF32 (d a b : VOp) (s : State) : Host.Outcome State Fault Refusal :=
  fbin32 .mul d a b s

/-- `fmul.f16` and `fmul.bf16` (R160). -/
def execFmulF16Bf16 (t : HalfT) (d a b : VOp) (s : State) : Host.Outcome State Fault Refusal :=
  fbinHalf .mul t d a b s

/-- `fmul.f64` (R160, R139). -/
def execFmulF64 (d a b : VOp) (s : State) : Host.Outcome State Fault Refusal :=
  fbin64 .mul d a b s

/-- `fmul.e4m3` and `fmul.e5m2` (R160, R68). -/
def execFmulFp8 (t : Fp8T) (d a b : VOp) (s : State) : Host.Outcome State Fault Refusal :=
  fbin8 .mul t d a b s

/-- `fmin.f32` (R161). -/
def execFminF32 (d a b : VOp) (s : State) : Host.Outcome State Fault Refusal :=
  fbin32 .min d a b s

/-- `fmin.f16` and `fmin.bf16` (R161). -/
def execFminF16Bf16 (t : HalfT) (d a b : VOp) (s : State) : Host.Outcome State Fault Refusal :=
  fbinHalf .min t d a b s

/-- `fmin.f64` (R161, R139). -/
def execFminF64 (d a b : VOp) (s : State) : Host.Outcome State Fault Refusal :=
  fbin64 .min d a b s

/-- `fmin.e4m3` and `fmin.e5m2` (R161, R68). -/
def execFminFp8 (t : Fp8T) (d a b : VOp) (s : State) : Host.Outcome State Fault Refusal :=
  fbin8 .min t d a b s

/-- `fmax.f32` (R161). -/
def execFmaxF32 (d a b : VOp) (s : State) : Host.Outcome State Fault Refusal :=
  fbin32 .max d a b s

/-- `fmax.f16` and `fmax.bf16` (R161). -/
def execFmaxF16Bf16 (t : HalfT) (d a b : VOp) (s : State) : Host.Outcome State Fault Refusal :=
  fbinHalf .max t d a b s

/-- `fmax.f64` (R161, R139). -/
def execFmaxF64 (d a b : VOp) (s : State) : Host.Outcome State Fault Refusal :=
  fbin64 .max d a b s

/-- `fmax.e4m3` and `fmax.e5m2` (R161, R68). -/
def execFmaxFp8 (t : Fp8T) (d a b : VOp) (s : State) : Host.Outcome State Fault Refusal :=
  fbin8 .max t d a b s

/-- `fabs.f32` (R161). -/
def execFabsF32 (d a : VOp) (s : State) : Host.Outcome State Fault Refusal :=
  fone32 .abs d a s

/-- `fabs.f16` and `fabs.bf16` (R161). -/
def execFabsF16Bf16 (t : HalfT) (d a : VOp) (s : State) : Host.Outcome State Fault Refusal :=
  foneHalf .abs t d a s

/-- `fabs.f64` (R161, R139). -/
def execFabsF64 (d a : VOp) (s : State) : Host.Outcome State Fault Refusal :=
  fone64 .abs d a s

/-- `fabs.e4m3` and `fabs.e5m2` (R161, R68). -/
def execFabsFp8 (t : Fp8T) (d a : VOp) (s : State) : Host.Outcome State Fault Refusal :=
  fone8 .abs t d a s

/-- `fneg.f32` (R161). -/
def execFnegF32 (d a : VOp) (s : State) : Host.Outcome State Fault Refusal :=
  fone32 .neg d a s

/-- `fneg.f16` and `fneg.bf16` (R161). -/
def execFnegF16Bf16 (t : HalfT) (d a : VOp) (s : State) : Host.Outcome State Fault Refusal :=
  foneHalf .neg t d a s

/-- `fneg.f64` (R161, R139). -/
def execFnegF64 (d a : VOp) (s : State) : Host.Outcome State Fault Refusal :=
  fone64 .neg d a s

/-- `fneg.e4m3` and `fneg.e5m2` (R161, R68). -/
def execFnegFp8 (t : Fp8T) (d a : VOp) (s : State) : Host.Outcome State Fault Refusal :=
  fone8 .neg t d a s

/-- `fsat.f32` (R161). -/
def execFsatF32 (d a : VOp) (s : State) : Host.Outcome State Fault Refusal :=
  fone32 .sat d a s

/-- `fsat.f16` and `fsat.bf16` (R161). -/
def execFsatF16Bf16 (t : HalfT) (d a : VOp) (s : State) : Host.Outcome State Fault Refusal :=
  foneHalf .sat t d a s

/-- `fsat.f64` (R161, R139). -/
def execFsatF64 (d a : VOp) (s : State) : Host.Outcome State Fault Refusal :=
  fone64 .sat d a s

/-- `fsat.e4m3` and `fsat.e5m2` (R161, R68). -/
def execFsatFp8 (t : Fp8T) (d a : VOp) (s : State) : Host.Outcome State Fault Refusal :=
  fone8 .sat t d a s

/-- `frnd.n`, `.d`, `.u` and `.z` of f32 (R161). -/
def execFrndF32 (m : RndDir) (d a : VOp) (s : State) : Host.Outcome State Fault Refusal :=
  fone32 (.rnd m) d a s

/-- `frnd` of f16 and bf16 (R161). -/
def execFrndF16Bf16 (t : HalfT) (m : RndDir) (d a : VOp) (s : State) : Host.Outcome State Fault Refusal :=
  foneHalf (.rnd m) t d a s

/-- `frnd` of f64 (R161). -/
def execFrndF64 (m : RndDir) (d a : VOp) (s : State) : Host.Outcome State Fault Refusal :=
  fone64 (.rnd m) d a s

/-- `fdiv.f32` (R160). -/
def execFdivF32 (d a b : VOp) (s : State) : Host.Outcome State Fault Refusal :=
  fbin32 .div d a b s

/-- `fdiv.f64` (R160). -/
def execFdivF64 (d a b : VOp) (s : State) : Host.Outcome State Fault Refusal :=
  fbin64 .div d a b s

/-- `fsqrt.f32` (R160). -/
def execFsqrtF32 (d a : VOp) (s : State) : Host.Outcome State Fault Refusal :=
  fone32 .sqrt d a s

/-- `fsqrt.f64` (R160). -/
def execFsqrtF64 (d a : VOp) (s : State) : Host.Outcome State Fault Refusal :=
  fone64 .sqrt d a s

/-- `ffma.f32`: a×b + d rounded once (R163). -/
def execFfmaF32 (d a b : VOp) (s : State) : Host.Outcome State Fault Refusal :=
  ffused32 .plus d a b s

/-- `ffms.f32`: a×b − d rounded once (R163). -/
def execFfmsF32 (d a b : VOp) (s : State) : Host.Outcome State Fault Refusal :=
  ffused32 .minus d a b s

/-- `ffnma.f32`: d − a×b rounded once (R163). -/
def execFfnmaF32 (d a b : VOp) (s : State) : Host.Outcome State Fault Refusal :=
  ffused32 .from d a b s

/-- `ffma.f16` (R163). -/
def execFfmaF16 (d a b : VOp) (s : State) : Host.Outcome State Fault Refusal :=
  ffusedHalf .f16 d a b s

/-- `ffma.bf16` (R163). -/
def execFfmaBf16 (d a b : VOp) (s : State) : Host.Outcome State Fault Refusal :=
  ffusedHalf .bf16 d a b s

/-- `ffma.f64` (R163): no latch. -/
def execFfmaF64 (d a b : VOp) (s : State) : Host.Outcome State Fault Refusal :=
  withCur s fun c => c.vec64 s (res64 d [a, b, d]) d a b
    (elem64 fun x y z => fused fmtF64 fmtF64 c.rm .plus [(x, y)] z)

/-- `fdot2.f16` (R163). -/
def execFdot2F16 (d a b : VOp) (s : State) : Host.Outcome State Fault Refusal :=
  fdot 16 fmtF16 .f16 d a b s

/-- `fdot2.bf16` (R163). -/
def execFdot2Bf16 (d a b : VOp) (s : State) : Host.Outcome State Fault Refusal :=
  fdot 16 fmtBf16 .bf16 d a b s

/-- `fdot4.e4m3` (R163). -/
def execFdot4E4m3 (d a b : VOp) (s : State) : Host.Outcome State Fault Refusal :=
  fdot 8 fmtE4m3 .e4m3 d a b s

/-- `fdot4.e5m2` (R163). -/
def execFdot4E5m2 (d a b : VOp) (s : State) : Host.Outcome State Fault Refusal :=
  fdot 8 fmtE5m2 .e5m2 d a b s

/-- `idot4.ii` (R163). -/
def execIdot4Ii (d a b : VOp) (s : State) : Host.Outcome State Fault Refusal :=
  fidot ifmtI8 ifmtI8 .i8 .i8 d a b s

/-- `idot4.in` (R163). -/
def execIdot4In (d a b : VOp) (s : State) : Host.Outcome State Fault Refusal :=
  fidot ifmtI8 ifmtN8 .i8 .n8 d a b s

/-- `idot4.ni` (R163). -/
def execIdot4Ni (d a b : VOp) (s : State) : Host.Outcome State Fault Refusal :=
  fidot ifmtN8 ifmtI8 .n8 .i8 d a b s

/-- `idot4.nn` (R163). -/
def execIdot4Nn (d a b : VOp) (s : State) : Host.Outcome State Fault Refusal :=
  fidot ifmtN8 ifmtN8 .n8 .n8 d a b s

end Sys2Proof.Machine
end

