-- ==== Sys2Proof/Machine/VInt.lean ====
section
/-! DEFINITION. The integer, bit and immediate families, opcodes 0x07, 0x08, 0x09 and 0x0F (R164 to R168, R185). -/

namespace Sys2Proof.Machine

/-- A raw instruction on 32-bit words (R164, R166): no element is absent and no flag is raised. -/
def raw3 (rule : TagRule) (srcs : List VOp) (f : Word → Word → Word → Word) (d a b : VOp) (s : State) :
    Host.Outcome State Fault Refusal :=
  withCur s fun c => c.vec s (res32 .b rule d srcs) .raw d (.raw, a) (.raw, b) (quiet f)

/-- A value-integer instruction (R165). -/
def valOp (op : VIOp) (t : ValT) (d a b : VOp) (srcs : List VOp) (s : State) : Host.Outcome State Fault Refusal :=
  withCur s fun c => c.vec s (res32 .b .plain d srcs) t.constTy d (t.constTy, a) (t.constTy, b)
    (elems (valFmt t).width fun x y _ => valueInt (valFmt t) op x y)

/-- An instruction with an immediate in place of its second operand (R185). -/
def rawImm (rule : TagRule) (f : Word → Word) (d a : VOp) (s : State) : Host.Outcome State Fault Refusal :=
  withCur s fun c => c.vec s (res32 .b rule d [a]) .raw d (.raw, a) (.raw, a) (quiet fun x _ _ => f x)

/-- `iadd` (R164): A with U or A gives A (R42). -/
def execIadd (d a b : VOp) (s : State) : Host.Outcome State Fault Refusal :=
  raw3 .sum [a, b] (fun x y _ => x + y) d a b s

/-- `isub` (R164). -/
def execIsub (d a b : VOp) (s : State) : Host.Outcome State Fault Refusal :=
  raw3 .sum [a, b] (fun x y _ => x - y) d a b s

/-- `imul` (R164): A by U gives A (R42). -/
def execImul (d a b : VOp) (s : State) : Host.Outcome State Fault Refusal :=
  raw3 .product [a, b] (fun x y _ => x * y) d a b s

/-- `imulh.i32` (R164). -/
def execImulhI32 (d a b : VOp) (s : State) : Host.Outcome State Fault Refusal :=
  raw3 .plain [a, b] (fun x y _ => high (x.toInt * y.toInt)) d a b s

/-- `imulh.n32` (R164). -/
def execImulhN32 (d a b : VOp) (s : State) : Host.Outcome State Fault Refusal :=
  raw3 .plain [a, b] (fun x y _ => high ((x.toNat : Int) * y.toNat)) d a b s

/-- `imad` (R164). -/
def execImad (d a b : VOp) (s : State) : Host.Outcome State Fault Refusal :=
  raw3 .plain [a, b, d] (fun x y z => x * y + z) d a b s

/-- `imin.i32` (R164). -/
def execIminI32 (d a b : VOp) (s : State) : Host.Outcome State Fault Refusal :=
  raw3 .plain [a, b] (fun x y _ => minI x y) d a b s

/-- `imax.i32` (R164). -/
def execImaxI32 (d a b : VOp) (s : State) : Host.Outcome State Fault Refusal :=
  raw3 .plain [a, b] (fun x y _ => maxI x y) d a b s

/-- `imin.n32` (R164). -/
def execIminN32 (d a b : VOp) (s : State) : Host.Outcome State Fault Refusal :=
  raw3 .plain [a, b] (fun x y _ => minN x y) d a b s

/-- `imax.n32` (R164). -/
def execImaxN32 (d a b : VOp) (s : State) : Host.Outcome State Fault Refusal :=
  raw3 .plain [a, b] (fun x y _ => maxN x y) d a b s

/-- `iabs` (R164): 0x8000_0000 stays. -/
def execIabs (d a : VOp) (s : State) : Host.Outcome State Fault Refusal :=
  raw3 .plain [a] (fun x _ _ => absI x) d a a s

/-- `ineg` (R164). -/
def execIneg (d a : VOp) (s : State) : Host.Outcome State Fault Refusal :=
  raw3 .affine [a] (fun x _ _ => -x) d a a s

/-- `iadd.v` (R165). -/
def execIaddV (t : ValT) (d a b : VOp) (s : State) : Host.Outcome State Fault Refusal :=
  valOp .add t d a b [a, b] s

/-- `isub.v` (R165). -/
def execIsubV (t : ValT) (d a b : VOp) (s : State) : Host.Outcome State Fault Refusal :=
  valOp .sub t d a b [a, b] s

/-- `imul.v` (R165). -/
def execImulV (t : ValT) (d a b : VOp) (s : State) : Host.Outcome State Fault Refusal :=
  valOp .mul t d a b [a, b] s

/-- `imin.v` (R165). -/
def execIminV (t : ValT) (d a b : VOp) (s : State) : Host.Outcome State Fault Refusal :=
  valOp .min t d a b [a, b] s

/-- `imax.v` (R165). -/
def execImaxV (t : ValT) (d a b : VOp) (s : State) : Host.Outcome State Fault Refusal :=
  valOp .max t d a b [a, b] s

/-- `iabs.v` (R165). -/
def execIabsV (t : ValT) (d a : VOp) (s : State) : Host.Outcome State Fault Refusal :=
  valOp .abs t d a a [a] s

/-- `and` (R166). -/
def execAnd (d a b : VOp) (s : State) : Host.Outcome State Fault Refusal :=
  raw3 .plain [a, b] (fun x y _ => x &&& y) d a b s

/-- `or` (R166). -/
def execOr (d a b : VOp) (s : State) : Host.Outcome State Fault Refusal :=
  raw3 .plain [a, b] (fun x y _ => x ||| y) d a b s

/-- `xor` (R166). -/
def execXor (d a b : VOp) (s : State) : Host.Outcome State Fault Refusal :=
  raw3 .plain [a, b] (fun x y _ => x ^^^ y) d a b s

/-- `andn` (R166). -/
def execAndn (d a b : VOp) (s : State) : Host.Outcome State Fault Refusal :=
  raw3 .plain [a, b] (fun x y _ => x &&& ~~~y) d a b s

/-- `shl` (R166). -/
def execShl (d a b : VOp) (s : State) : Host.Outcome State Fault Refusal :=
  raw3 .plain [a, b] (fun x y _ => shlWord x (shiftCount y)) d a b s

/-- `shr` (R166). -/
def execShr (d a b : VOp) (s : State) : Host.Outcome State Fault Refusal :=
  raw3 .plain [a, b] (fun x y _ => shrWord x (shiftCount y)) d a b s

/-- `sar` (R166). -/
def execSar (d a b : VOp) (s : State) : Host.Outcome State Fault Refusal :=
  raw3 .plain [a, b] (fun x y _ => sarWord x (shiftCount y)) d a b s

/-- `not` (R166). -/
def execNot (d a : VOp) (s : State) : Host.Outcome State Fault Refusal :=
  raw3 .plain [a] (fun x _ _ => ~~~x) d a a s

/-- `bfe.i` (R167). -/
def execBfeI (d a b : VOp) (s : State) : Host.Outcome State Fault Refusal :=
  raw3 .plain [a, b] (fun x y _ => bfeI x y) d a b s

/-- `bfe.n` (R167). -/
def execBfeN (d a b : VOp) (s : State) : Host.Outcome State Fault Refusal :=
  raw3 .plain [a, b] (fun x y _ => bfeN x y) d a b s

/-- `bfi` (R167). -/
def execBfi (d a b : VOp) (s : State) : Host.Outcome State Fault Refusal :=
  raw3 .plain [a, b, d] (fun x y z => bfi x y z) d a b s

/-- `popc` (R166). -/
def execPopc (d a : VOp) (s : State) : Host.Outcome State Fault Refusal :=
  raw3 .plain [a] (fun x _ _ => popcWord x) d a a s

/-- `clz` (R166). -/
def execClz (d a : VOp) (s : State) : Host.Outcome State Fault Refusal :=
  raw3 .plain [a] (fun x _ _ => clzWord x) d a a s

/-- `brev` (R166). -/
def execBrev (d a : VOp) (s : State) : Host.Outcome State Fault Refusal :=
  raw3 .plain [a] (fun x _ _ => brevWord x) d a a s

/-- `bperm` (R168). -/
def execBperm (d a b : VOp) (s : State) : Host.Outcome State Fault Refusal :=
  raw3 .plain [a, b] (fun x y _ => bpermWord x y) d a b s

/-- `iaddi` (R185): A stays A. -/
def execIaddi (d a : VOp) (i : BitVec 9) (s : State) : Host.Outcome State Fault Refusal :=
  rawImm .affine (fun x => x + i.signExtend 32) d a s

/-- `andi` (R185). -/
def execAndi (d a : VOp) (i : BitVec 9) (s : State) : Host.Outcome State Fault Refusal :=
  rawImm .plain (fun x => x &&& i.signExtend 32) d a s

/-- `ori` (R185). -/
def execOri (d a : VOp) (i : BitVec 9) (s : State) : Host.Outcome State Fault Refusal :=
  rawImm .plain (fun x => x ||| i.signExtend 32) d a s

/-- `xori` (R185). -/
def execXori (d a : VOp) (i : BitVec 9) (s : State) : Host.Outcome State Fault Refusal :=
  rawImm .plain (fun x => x ^^^ i.signExtend 32) d a s

/-- `shli` (R185). -/
def execShli (d a : VOp) (n : BitVec 5) (s : State) : Host.Outcome State Fault Refusal :=
  rawImm .affine (fun x => shlWord x n.toNat) d a s

/-- `shri` (R185). -/
def execShri (d a : VOp) (n : BitVec 5) (s : State) : Host.Outcome State Fault Refusal :=
  rawImm .plain (fun x => shrWord x n.toNat) d a s

/-- `sari` (R185). -/
def execSari (d a : VOp) (n : BitVec 5) (s : State) : Host.Outcome State Fault Refusal :=
  rawImm .plain (fun x => sarWord x n.toNat) d a s

/-- `movi` (R185): tag U under a full mask. -/
def execMovi (d : VOp) (i : BitVec 9) (s : State) : Host.Outcome State Fault Refusal :=
  withCur s fun c => c.vec s (res32 .b .plain d []) .raw d (.raw, d) (.raw, d) (quiet fun _ _ _ => i.signExtend 32)

end Sys2Proof.Machine
end

