-- ==== Sys2Proof/Machine/Dispatch.lean ====
section
/-! DEFINITION. What each instruction does: one arm a constructor of `Instr`, one direct call of its meaning. -/

namespace Sys2Proof.Machine
open Sys2Proof

open Sys2Proof in /-- The meaning of an instruction. -/ noncomputable
def exec (i : Instr) (s : State) : Host.Outcome State Fault Refusal :=
  match i with
  | .faddF32 d a b => Sys2Proof.Machine.execFaddF32 d a b s
  | .faddF16Bf16 t d a b => Sys2Proof.Machine.execFaddF16Bf16 t d a b s
  | .faddF64 d a b => Sys2Proof.Machine.execFaddF64 d a b s
  | .faddFp8 t d a b => Sys2Proof.Machine.execFaddFp8 t d a b s
  | .fsubF32 d a b => Sys2Proof.Machine.execFsubF32 d a b s
  | .fsubF16Bf16 t d a b => Sys2Proof.Machine.execFsubF16Bf16 t d a b s
  | .fsubF64 d a b => Sys2Proof.Machine.execFsubF64 d a b s
  | .fsubFp8 t d a b => Sys2Proof.Machine.execFsubFp8 t d a b s
  | .fmulF32 d a b => Sys2Proof.Machine.execFmulF32 d a b s
  | .fmulF16Bf16 t d a b => Sys2Proof.Machine.execFmulF16Bf16 t d a b s
  | .fmulF64 d a b => Sys2Proof.Machine.execFmulF64 d a b s
  | .fmulFp8 t d a b => Sys2Proof.Machine.execFmulFp8 t d a b s
  | .fminF32 d a b => Sys2Proof.Machine.execFminF32 d a b s
  | .fminF16Bf16 t d a b => Sys2Proof.Machine.execFminF16Bf16 t d a b s
  | .fminF64 d a b => Sys2Proof.Machine.execFminF64 d a b s
  | .fminFp8 t d a b => Sys2Proof.Machine.execFminFp8 t d a b s
  | .fmaxF32 d a b => Sys2Proof.Machine.execFmaxF32 d a b s
  | .fmaxF16Bf16 t d a b => Sys2Proof.Machine.execFmaxF16Bf16 t d a b s
  | .fmaxF64 d a b => Sys2Proof.Machine.execFmaxF64 d a b s
  | .fmaxFp8 t d a b => Sys2Proof.Machine.execFmaxFp8 t d a b s
  | .fabsF32 d a => Sys2Proof.Machine.execFabsF32 d a s
  | .fabsF16Bf16 t d a => Sys2Proof.Machine.execFabsF16Bf16 t d a s
  | .fabsF64 d a => Sys2Proof.Machine.execFabsF64 d a s
  | .fabsFp8 t d a => Sys2Proof.Machine.execFabsFp8 t d a s
  | .fnegF32 d a => Sys2Proof.Machine.execFnegF32 d a s
  | .fnegF16Bf16 t d a => Sys2Proof.Machine.execFnegF16Bf16 t d a s
  | .fnegF64 d a => Sys2Proof.Machine.execFnegF64 d a s
  | .fnegFp8 t d a => Sys2Proof.Machine.execFnegFp8 t d a s
  | .fsatF32 d a => Sys2Proof.Machine.execFsatF32 d a s
  | .fsatF16Bf16 t d a => Sys2Proof.Machine.execFsatF16Bf16 t d a s
  | .fsatF64 d a => Sys2Proof.Machine.execFsatF64 d a s
  | .fsatFp8 t d a => Sys2Proof.Machine.execFsatFp8 t d a s
  | .frndF32 m d a => Sys2Proof.Machine.execFrndF32 m d a s
  | .frndF16Bf16 t m d a => Sys2Proof.Machine.execFrndF16Bf16 t m d a s
  | .frndF64 m d a => Sys2Proof.Machine.execFrndF64 m d a s
  | .fdivF32 d a b => Sys2Proof.Machine.execFdivF32 d a b s
  | .fdivF64 d a b => Sys2Proof.Machine.execFdivF64 d a b s
  | .fsqrtF32 d a => Sys2Proof.Machine.execFsqrtF32 d a s
  | .fsqrtF64 d a => Sys2Proof.Machine.execFsqrtF64 d a s
  | .ffmaF32 d a b => Sys2Proof.Machine.execFfmaF32 d a b s
  | .ffmsF32 d a b => Sys2Proof.Machine.execFfmsF32 d a b s
  | .ffnmaF32 d a b => Sys2Proof.Machine.execFfnmaF32 d a b s
  | .ffmaF16 d a b => Sys2Proof.Machine.execFfmaF16 d a b s
  | .ffmaBf16 d a b => Sys2Proof.Machine.execFfmaBf16 d a b s
  | .ffmaF64 d a b => Sys2Proof.Machine.execFfmaF64 d a b s
  | .fdot2F16 d a b => Sys2Proof.Machine.execFdot2F16 d a b s
  | .fdot2Bf16 d a b => Sys2Proof.Machine.execFdot2Bf16 d a b s
  | .fdot4E4m3 d a b => Sys2Proof.Machine.execFdot4E4m3 d a b s
  | .fdot4E5m2 d a b => Sys2Proof.Machine.execFdot4E5m2 d a b s
  | .idot4Ii d a b => Sys2Proof.Machine.execIdot4Ii d a b s
  | .idot4In d a b => Sys2Proof.Machine.execIdot4In d a b s
  | .idot4Ni d a b => Sys2Proof.Machine.execIdot4Ni d a b s
  | .idot4Nn d a b => Sys2Proof.Machine.execIdot4Nn d a b s
  | .iadd d a b => Sys2Proof.Machine.execIadd d a b s
  | .isub d a b => Sys2Proof.Machine.execIsub d a b s
  | .imul d a b => Sys2Proof.Machine.execImul d a b s
  | .imulhI32 d a b => Sys2Proof.Machine.execImulhI32 d a b s
  | .imulhN32 d a b => Sys2Proof.Machine.execImulhN32 d a b s
  | .imad d a b => Sys2Proof.Machine.execImad d a b s
  | .iminI32 d a b => Sys2Proof.Machine.execIminI32 d a b s
  | .imaxI32 d a b => Sys2Proof.Machine.execImaxI32 d a b s
  | .iminN32 d a b => Sys2Proof.Machine.execIminN32 d a b s
  | .imaxN32 d a b => Sys2Proof.Machine.execImaxN32 d a b s
  | .iabs d a => Sys2Proof.Machine.execIabs d a s
  | .ineg d a => Sys2Proof.Machine.execIneg d a s
  | .iaddV t d a b => Sys2Proof.Machine.execIaddV t d a b s
  | .isubV t d a b => Sys2Proof.Machine.execIsubV t d a b s
  | .imulV t d a b => Sys2Proof.Machine.execImulV t d a b s
  | .iminV t d a b => Sys2Proof.Machine.execIminV t d a b s
  | .imaxV t d a b => Sys2Proof.Machine.execImaxV t d a b s
  | .iabsV t d a => Sys2Proof.Machine.execIabsV t d a s
  | .and d a b => Sys2Proof.Machine.execAnd d a b s
  | .or d a b => Sys2Proof.Machine.execOr d a b s
  | .xor d a b => Sys2Proof.Machine.execXor d a b s
  | .not d a => Sys2Proof.Machine.execNot d a s
  | .andn d a b => Sys2Proof.Machine.execAndn d a b s
  | .shl d a b => Sys2Proof.Machine.execShl d a b s
  | .shr d a b => Sys2Proof.Machine.execShr d a b s
  | .sar d a b => Sys2Proof.Machine.execSar d a b s
  | .bfeI d a b => Sys2Proof.Machine.execBfeI d a b s
  | .bfeN d a b => Sys2Proof.Machine.execBfeN d a b s
  | .bfi d a b => Sys2Proof.Machine.execBfi d a b s
  | .popc d a => Sys2Proof.Machine.execPopc d a s
  | .clz d a => Sys2Proof.Machine.execClz d a s
  | .brev d a => Sys2Proof.Machine.execBrev d a s
  | .bperm d a b => Sys2Proof.Machine.execBperm d a b s
  | .fcmp c p a b => Sys2Proof.Machine.execFcmp c p a b s
  | .icmpI32 c p a b => Sys2Proof.Machine.execIcmpI32 c p a b s
  | .icmpN32 c p a b => Sys2Proof.Machine.execIcmpN32 c p a b s
  | .tabs t p a => Sys2Proof.Machine.execTabs t p a s
  | .cvtF32F16 d a => Sys2Proof.Machine.execCvtF32F16 d a s
  | .cvtF32Bf16 d a => Sys2Proof.Machine.execCvtF32Bf16 d a s
  | .cvtF32E4m3 d a => Sys2Proof.Machine.execCvtF32E4m3 d a s
  | .cvtF32E5m2 d a => Sys2Proof.Machine.execCvtF32E5m2 d a s
  | .cvtF16F32 d a => Sys2Proof.Machine.execCvtF16F32 d a s
  | .cvtBf16F32 d a => Sys2Proof.Machine.execCvtBf16F32 d a s
  | .cvtE4m3F32 d a => Sys2Proof.Machine.execCvtE4m3F32 d a s
  | .cvtE5m2F32 d a => Sys2Proof.Machine.execCvtE5m2F32 d a s
  | .cvtF64F32 d a => Sys2Proof.Machine.execCvtF64F32 d a s
  | .cvtF32F64 d a => Sys2Proof.Machine.execCvtF32F64 d a s
  | .cvtF32I32 d a => Sys2Proof.Machine.execCvtF32I32 d a s
  | .cvtF32N32 d a => Sys2Proof.Machine.execCvtF32N32 d a s
  | .cvtI32F32 d a => Sys2Proof.Machine.execCvtI32F32 d a s
  | .cvtN32F32 d a => Sys2Proof.Machine.execCvtN32F32 d a s
  | .cvtI32I8 d a => Sys2Proof.Machine.execCvtI32I8 d a s
  | .cvtI32N8 d a => Sys2Proof.Machine.execCvtI32N8 d a s
  | .cvtI8I32 d a => Sys2Proof.Machine.execCvtI8I32 d a s
  | .cvtN8I32 d a => Sys2Proof.Machine.execCvtN8I32 d a s
  | .cvtpk d a b => Sys2Proof.Machine.execCvtpk d a b s
  | .cvtup t e d a => Sys2Proof.Machine.execCvtup t e d a s
  | .tunpk d a k => Sys2Proof.Machine.execTunpk d a k s
  | .frcp d a => Sys2Proof.Machine.execFrcp d a s
  | .frsq d a => Sys2Proof.Machine.execFrsq d a s
  | .fexp2 d a => Sys2Proof.Machine.execFexp2 d a s
  | .flog2 d a => Sys2Proof.Machine.execFlog2 d a s
  | .fsin d a => Sys2Proof.Machine.execFsin d a s
  | .fcos d a => Sys2Proof.Machine.execFcos d a s
  | .ftanh d a => Sys2Proof.Machine.execFtanh d a s
  | .fsigm d a => Sys2Proof.Machine.execFsigm d a s
  | .shfl d a b => Sys2Proof.Machine.execShfl d a b s
  | .shflup d a b => Sys2Proof.Machine.execShflup d a b s
  | .shfldn d a b => Sys2Proof.Machine.execShfldn d a b s
  | .shflx d a b => Sys2Proof.Machine.execShflx d a b s
  | .bcast d a => Sys2Proof.Machine.execBcast d a s
  | .ballot d p => Sys2Proof.Machine.execBallot d p s
  | .vany d p => Sys2Proof.Machine.execVany d p s
  | .vall d p => Sys2Proof.Machine.execVall d p s
  | .wredAddF32 d a => Sys2Proof.Machine.execWredAddF32 d a s
  | .wredMaxF32 d a => Sys2Proof.Machine.execWredMaxF32 d a s
  | .wredAddI32 d a => Sys2Proof.Machine.execWredAddI32 d a s
  | .wscanAddF32 d a => Sys2Proof.Machine.execWscanAddF32 d a s
  | .wscanAddI32 d a => Sys2Proof.Machine.execWscanAddI32 d a s
  | .lanes d => Sys2Proof.Machine.execLanes d s
  | .mov d a => Sys2Proof.Machine.execMov d a s
  | .sel d p a b => Sys2Proof.Machine.execSel d p a b s
  | .toabs t d a p => Sys2Proof.Machine.execToabs t d a p s
  | .defabs t d a b => Sys2Proof.Machine.execDefabs t d a b s
  | .plog o d a b => Sys2Proof.Machine.execPlog o d a b s
  | .gtag d a => Sys2Proof.Machine.execGtag d a s
  | .mkg d a => Sys2Proof.Machine.execMkg d a s
  | .iaddi d a iv => Sys2Proof.Machine.execIaddi d a iv s
  | .andi d a iv => Sys2Proof.Machine.execAndi d a iv s
  | .ori d a iv => Sys2Proof.Machine.execOri d a iv s
  | .xori d a iv => Sys2Proof.Machine.execXori d a iv s
  | .shli d a n => Sys2Proof.Machine.execShli d a n s
  | .shri d a n => Sys2Proof.Machine.execShri d a n s
  | .sari d a n => Sys2Proof.Machine.execSari d a n s
  | .movi d iv => Sys2Proof.Machine.execMovi d iv s
  | .sadd d a b => Sys2Proof.Machine.execSadd d a b s
  | .ssub d a b => Sys2Proof.Machine.execSsub d a b s
  | .smul d a b => Sys2Proof.Machine.execSmul d a b s
  | .smulhI d a b => Sys2Proof.Machine.execSmulhI d a b s
  | .smulhN d a b => Sys2Proof.Machine.execSmulhN d a b s
  | .sminI d a b => Sys2Proof.Machine.execSminI d a b s
  | .smaxI d a b => Sys2Proof.Machine.execSmaxI d a b s
  | .sminN d a b => Sys2Proof.Machine.execSminN d a b s
  | .smaxN d a b => Sys2Proof.Machine.execSmaxN d a b s
  | .sand d a b => Sys2Proof.Machine.execSand d a b s
  | .sor d a b => Sys2Proof.Machine.execSor d a b s
  | .sxor d a b => Sys2Proof.Machine.execSxor d a b s
  | .sshl d a b => Sys2Proof.Machine.execSshl d a b s
  | .sshr d a b => Sys2Proof.Machine.execSshr d a b s
  | .ssar d a b => Sys2Proof.Machine.execSsar d a b s
  | .sbfeI d a b => Sys2Proof.Machine.execSbfeI d a b s
  | .sbfeN d a b => Sys2Proof.Machine.execSbfeN d a b s
  | .sbfi d a b => Sys2Proof.Machine.execSbfi d a b s
  | .spopc d a => Sys2Proof.Machine.execSpopc d a s
  | .sclz d a => Sys2Proof.Machine.execSclz d a s
  | .sadd64 d a b => Sys2Proof.Machine.execSadd64 d a b s
  | .ssub64 d a b => Sys2Proof.Machine.execSsub64 d a b s
  | .sshl64 d a b => Sys2Proof.Machine.execSshl64 d a b s
  | .scmpEq d a b => Sys2Proof.Machine.execScmpEq d a b s
  | .scmpLtI d a b => Sys2Proof.Machine.execScmpLtI d a b s
  | .scmpLtN d a b => Sys2Proof.Machine.execScmpLtN d a b s
  | .saddi d a iv => Sys2Proof.Machine.execSaddi d a iv s
  | .sandi d a iv => Sys2Proof.Machine.execSandi d a iv s
  | .sori d a iv => Sys2Proof.Machine.execSori d a iv s
  | .sxori d a iv => Sys2Proof.Machine.execSxori d a iv s
  | .sshli d a n => Sys2Proof.Machine.execSshli d a n s
  | .sshri d a n => Sys2Proof.Machine.execSshri d a n s
  | .ssari d a n => Sys2Proof.Machine.execSsari d a n s
  | .scmpiLt d a iv => Sys2Proof.Machine.execScmpiLt d a iv s
  | .smovi d iv => Sys2Proof.Machine.execSmovi d iv s
  | .srd d n => Sys2Proof.Machine.execSrd d n s
  | .swr n sv => Sys2Proof.Machine.execSwr n sv s
  | .vtos d a l => Sys2Proof.Machine.execVtos d a l s
  | .stov d sv => Sys2Proof.Machine.execStov d sv s
  | .smovw d w => Sys2Proof.Machine.execSmovw d w s
  | .bdset d a c => Sys2Proof.Machine.execBdset d a c s
  | .slui d iv => Sys2Proof.Machine.execSlui d iv s
  | .bra o => Sys2Proof.Machine.execBra o s
  | .bpt p k o => Sys2Proof.Machine.execBpt p k o s
  | .bpf p k o => Sys2Proof.Machine.execBpf p k o s
  | .bany p o => Sys2Proof.Machine.execBany p o s
  | .ball p o => Sys2Proof.Machine.execBall p o s
  | .bnz sv o => Sys2Proof.Machine.execBnz sv o s
  | .bz sv o => Sys2Proof.Machine.execBz sv o s
  | .jmp w => Sys2Proof.Machine.execJmp w s
  | .loop v sv n => Sys2Proof.Machine.execLoop v sv n s
  | .loopi v c n => Sys2Proof.Machine.execLoopi v c n s
  | .lbrk v => Sys2Proof.Machine.execLbrk v s
  | .nop => Sys2Proof.Machine.execNop s
  | .rcv k => Sys2Proof.Machine.execRcv k s
  | .call w => Sys2Proof.Machine.execCall w s
  | .callr x => Sys2Proof.Machine.execCallr x s
  | .ret => Sys2Proof.Machine.execRet s
  | .jr x => Sys2Proof.Machine.execJr x s
  | .yield d l => Sys2Proof.Machine.execYield d l s
  | .yieldc l sv c t d n o => Sys2Proof.Machine.execYieldc l sv c t d n o s
  | .exit => Sys2Proof.Machine.execExit s
  | .trap iv => Sys2Proof.Machine.execTrap iv s
  | .wait l sv c t => Sys2Proof.Machine.execWait l sv c t s
  | .barinit p o n b => Sys2Proof.Machine.execBarinit p o n b s
  | .barexp p o b => Sys2Proof.Machine.execBarexp p o b s
  | .bararr p t o => Sys2Proof.Machine.execBararr p t o s
  | .barwait p o t => Sys2Proof.Machine.execBarwait p o t s
  | .bartry p r o t => Sys2Proof.Machine.execBartry p r o t s
  | .ringinit p o c d => Sys2Proof.Machine.execRinginit p o c d s
  | .awaitf p iv o j => Sys2Proof.Machine.execAwaitf p iv o j s
  | .rels p o => Sys2Proof.Machine.execRels p o s
  | .wgbar => Sys2Proof.Machine.execWgbar s
  | .ldg z o p d b v off => Sys2Proof.Machine.execLdg z o p d b v off s
  | .stg z o p b v off d => Sys2Proof.Machine.execStg z o p b v off d s
  | .ldsp z q d b v off => Sys2Proof.Machine.execLdsp z q d b v off s
  | .ldcl z q d b v off => Sys2Proof.Machine.execLdcl z q d b v off s
  | .ldst z q d b v off => Sys2Proof.Machine.execLdst z q d b v off s
  | .ldlp z q d b v off => Sys2Proof.Machine.execLdlp z q d b v off s
  | .stsp z q b v off d => Sys2Proof.Machine.execStsp z q b v off d s
  | .stcl z q b v off d => Sys2Proof.Machine.execStcl z q b v off d s
  | .stst z q b v off d => Sys2Proof.Machine.execStst z q b v off d s
  | .stlp z q b v off d => Sys2Proof.Machine.execStlp z q b v off d s
  | .ldb z o l d b v off => Sys2Proof.Machine.execLdb z o l d b v off s
  | .stb z o l b v off d => Sys2Proof.Machine.execStb z o l b v off d s
  | .aadd o t d b v => Sys2Proof.Machine.execAadd o t d b v s
  | .amin o t d b v => Sys2Proof.Machine.execAmin o t d b v s
  | .amax o t d b v => Sys2Proof.Machine.execAmax o t d b v s
  | .aand o t d b v => Sys2Proof.Machine.execAand o t d b v s
  | .aor o t d b v => Sys2Proof.Machine.execAor o t d b v s
  | .axor o t d b v => Sys2Proof.Machine.execAxor o t d b v s
  | .axch o t d b v => Sys2Proof.Machine.execAxch o t d b v s
  | .acas o t d b v => Sys2Proof.Machine.execAcas o t d b v s
  | .aacc o d b v => Sys2Proof.Machine.execAacc o d b v s
  | .ainc o n d b v => Sys2Proof.Machine.execAinc o n d b v s
  | .aaddSpace o sv t d v => Sys2Proof.Machine.execAaddSpace o sv t d v s
  | .aminSpace o sv t d v => Sys2Proof.Machine.execAminSpace o sv t d v s
  | .amaxSpace o sv t d v => Sys2Proof.Machine.execAmaxSpace o sv t d v s
  | .aandSpace o sv t d v => Sys2Proof.Machine.execAandSpace o sv t d v s
  | .aorSpace o sv t d v => Sys2Proof.Machine.execAorSpace o sv t d v s
  | .axorSpace o sv t d v => Sys2Proof.Machine.execAxorSpace o sv t d v s
  | .axchSpace o sv t d v => Sys2Proof.Machine.execAxchSpace o sv t d v s
  | .acasSpace o sv t d v => Sys2Proof.Machine.execAcasSpace o sv t d v s
  | .aaccSpace o sv d v => Sys2Proof.Machine.execAaccSpace o sv d v s
  | .aincSpace o sv n d v => Sys2Proof.Machine.execAincSpace o sv n d v s
  | .fence k sv => Sys2Proof.Machine.execFence k sv s
  | .cprf iv a l => Sys2Proof.Machine.execCprf iv a l s
  | .cflush a d => Sys2Proof.Machine.execCflush a d s
  | .sld d a iv => Sys2Proof.Machine.execSld d a iv s
  | .sst a iv d => Sys2Proof.Machine.execSst a iv d s
  | .cpyG2s dst src len sl obj idx rows stride mc ring fill => Sys2Proof.Machine.execCpyG2s dst src len sl obj idx rows stride mc ring fill s
  | .cpyG2c dst src len sl obj idx rows stride ring fill => Sys2Proof.Machine.execCpyG2c dst src len sl obj idx rows stride ring fill s
  | .cpyG2t dst src len sl obj idx rows stride fill => Sys2Proof.Machine.execCpyG2t dst src len sl obj idx rows stride fill s
  | .cpyS2g dst src len sl obj idx rows stride => Sys2Proof.Machine.execCpyS2g dst src len sl obj idx rows stride s
  | .cpyC2s dst src len sl obj idx rows stride mc ring => Sys2Proof.Machine.execCpyC2s dst src len sl obj idx rows stride mc ring s
  | .cpyS2c dst src len sl obj idx rows stride ring => Sys2Proof.Machine.execCpyS2c dst src len sl obj idx rows stride ring s
  | .cpym dst src len sl obj idx rows stride fill => Sys2Proof.Machine.execCpym dst src len sl obj idx rows stride fill s
  | .cpyx dst src len sl obj idx rows stride ring => Sys2Proof.Machine.execCpyx dst src len sl obj idx rows stride ring s
  | .cpyg dst src len sl obj idx rows stride ring fill => Sys2Proof.Machine.execCpyg dst src len sl obj idx rows stride ring fill s
  | .cred dst src len sl obj idx rows stride => Sys2Proof.Machine.execCred dst src len sl obj idx rows stride s
  | .cpycan n cl obj => Sys2Proof.Machine.execCpycan n cl obj s
  | .mres d w => Sys2Proof.Machine.execMres d w s
  | .mfree d => Sys2Proof.Machine.execMfree d s
  | .mld q d sv p => Sys2Proof.Machine.execMld q d sv p s
  | .mscl d sv o => Sys2Proof.Machine.execMscl d sv o s
  | .mgang b iv => Sys2Proof.Machine.execMgang b iv s
  | .mshape m => Sys2Proof.Machine.execMshape m s
  | .mls r sv c o => Sys2Proof.Machine.execMls r sv c o s
  | .mswap => Sys2Proof.Machine.execMswap s
  | .mma t a q p g z sv w => Sys2Proof.Machine.execMma t a q p g z sv w s
  | .mdrain t x o n w => Sys2Proof.Machine.execMdrain t x o n w s
  | .mtab t => Sys2Proof.Machine.execMtab t s
  | .mzero t => Sys2Proof.Machine.execMzero t s
  | .mfill t r => Sys2Proof.Machine.execMfill t r s
  | .mredAdd t d a => Sys2Proof.Machine.execMredAdd t d a s
  | .mscanAdd t d a => Sys2Proof.Machine.execMscanAdd t d a s
  | .launch d a q => Sys2Proof.Machine.execLaunch d a q s
  | .commit => Sys2Proof.Machine.execCommit s
  | .spgrow d a => Sys2Proof.Machine.execSpgrow d a s
  | .lpgrow d a => Sys2Proof.Machine.execLpgrow d a s
  | .qwait d => Sys2Proof.Machine.execQwait d s
  | .allow a => Sys2Proof.Machine.execAllow a s
  | .tret => Sys2Proof.Machine.execTret s
  | .pcsrr d a => Sys2Proof.Machine.execPcsrr d a s
  | .pcsrw a b => Sys2Proof.Machine.execPcsrw a b s
  | .tinv a b => Sys2Proof.Machine.execTinv a b s
  | .rqrel a b => Sys2Proof.Machine.execRqrel a b s
  | .hlt d => Sys2Proof.Machine.execHlt d s
  | .brk iv => Sys2Proof.Machine.execBrk iv s
  | .tmark iv => Sys2Proof.Machine.execTmark iv s
  | .clauseIssue e => Sys2Proof.Machine.execClauseIssue e s
  | .issueWaitLimit e => Sys2Proof.Machine.execIssueWaitLimit e s
  | .ydl e => Sys2Proof.Machine.execYdl e s
  | .deferralSwitch e => Sys2Proof.Machine.execDeferralSwitch e s
  | .loadComplete op => Sys2Proof.Machine.execLoadComplete op s
  | .storeComplete op => Sys2Proof.Machine.execStoreComplete op s
  | .atomicPerform op => Sys2Proof.Machine.execAtomicPerform op s
  | .replayStallResume e => Sys2Proof.Machine.execReplayStallResume e s
  | .parkedAccessReplay r => Sys2Proof.Machine.execParkedAccessReplay r s
  | .heldSliceIssue e => Sys2Proof.Machine.execHeldSliceIssue e s
  | .copyComplete c => Sys2Proof.Machine.execCopyComplete c s
  | .copyFailure c iv => Sys2Proof.Machine.execCopyFailure c iv s
  | .credComplete g => Sys2Proof.Machine.execCredComplete g s
  | .engineDeferredAccept e => Sys2Proof.Machine.execEngineDeferredAccept e s
  | .arbiterGrant g p => Sys2Proof.Machine.execArbiterGrant g p s
  | .arbiterAgeLimit g k => Sys2Proof.Machine.execArbiterAgeLimit g k s
  | .mswapBandSwap g k b => Sys2Proof.Machine.execMswapBandSwap g k b s
  | .engineOpComplete g k => Sys2Proof.Machine.execEngineOpComplete g k s
  | .mldFailure g k => Sys2Proof.Machine.execMldFailure g k s
  | .mldStrictFmtf g k => Sys2Proof.Machine.execMldStrictFmtf g k s
  | .bandRailWake g b => Sys2Proof.Machine.execBandRailWake g b s
  | .bandRailGate g b => Sys2Proof.Machine.execBandRailGate g b s
  | .queueRecordConsume c q => Sys2Proof.Machine.execQueueRecordConsume c q s
  | .contextChoice st => Sys2Proof.Machine.execContextChoice st s
  | .placement c k => Sys2Proof.Machine.execPlacement c k s
  | .teamSwapOut t => Sys2Proof.Machine.execTeamSwapOut t s
  | .workgroupRetire w => Sys2Proof.Machine.execWorkgroupRetire w s
  | .hang t => Sys2Proof.Machine.execHang t s
  | .sampleTick x => Sys2Proof.Machine.execSampleTick x s
  | .emergencyRelease => Sys2Proof.Machine.execEmergencyRelease s
  | .noticeReceive l n => Sys2Proof.Machine.execNoticeReceive l n s
  | .migrationStart w y => Sys2Proof.Machine.execMigrationStart w y s
  | .migrationArrival w => Sys2Proof.Machine.execMigrationArrival w s
  | .smLoopPass ts gs => Sys2Proof.Machine.execSmLoopPass ts gs s
  | .smhbTimeout => Sys2Proof.Machine.execSmhbTimeout s
  | .islandTarget x => Sys2Proof.Machine.execIslandTarget x s
  | .voltageRampDone iv => Sys2Proof.Machine.execVoltageRampDone iv s
  | .settleDone iv => Sys2Proof.Machine.execSettleDone iv s
  | .frequencySwitch iv => Sys2Proof.Machine.execFrequencySwitch iv s
  | .acq p => Sys2Proof.Machine.execAcq p s
  | .rel p => Sys2Proof.Machine.execRel p s
  | .dzHb p => Sys2Proof.Machine.execDzHb p s
  | .leaseLapse => Sys2Proof.Machine.execLeaseLapse s
  | .privRegisterWrite p a v => Sys2Proof.Machine.execPrivRegisterWrite p a v s
  | .create p c => Sys2Proof.Machine.execCreate p c s
  | .suspend p c => Sys2Proof.Machine.execSuspend p c s
  | .resume p c => Sys2Proof.Machine.execResume p c s
  | .tear p c => Sys2Proof.Machine.execTear p c s
  | .preemptionTimeout c => Sys2Proof.Machine.execPreemptionTimeout c s
  | .workgroupSave w => Sys2Proof.Machine.execWorkgroupSave w s
  | .contextSaveComplete c => Sys2Proof.Machine.execContextSaveComplete c s
  | .tearComplete c => Sys2Proof.Machine.execTearComplete c s
  | .hostRqrel p c v => Sys2Proof.Machine.execHostRqrel p c v s
  | .tagCountWrite p c v => Sys2Proof.Machine.execTagCountWrite p c v s
  | .granuleTag c => Sys2Proof.Machine.execGranuleTag c s
  | .attestationRequest p v => Sys2Proof.Machine.execAttestationRequest p v s
  | .attestationComplete => Sys2Proof.Machine.execAttestationComplete s
  | .stop p q v => Sys2Proof.Machine.execStop p q v s
  | .stopSettled q => Sys2Proof.Machine.execStopSettled q s
  | .debugResume p q => Sys2Proof.Machine.execDebugResume p q s
  | .step p q => Sys2Proof.Machine.execStep p q s
  | .stepall p q => Sys2Proof.Machine.execStepall p q s
  | .debugEdit p q v => Sys2Proof.Machine.execDebugEdit p q v s
  | .debugRevoke p c v => Sys2Proof.Machine.execDebugRevoke p c v s
  | .traceFrame => Sys2Proof.Machine.execTraceFrame s
  | .histogramRequest h n => Sys2Proof.Machine.execHistogramRequest h n s
  | .clr p h => Sys2Proof.Machine.execClr p h s
  | .hostAccess x => Sys2Proof.Machine.execHostAccess x s
  | .credBlock x => Sys2Proof.Machine.execCredBlock x s
  | .linkKeying l => Sys2Proof.Machine.execLinkKeying l s
  | .flitAuthFailure l => Sys2Proof.Machine.execFlitAuthFailure l s
  | .patrolScrub x => Sys2Proof.Machine.execPatrolScrub x s
  | .reset x => Sys2Proof.Machine.execReset x s
  | .descriptorPublish x => Sys2Proof.Machine.execDescriptorPublish x s
  | .destinationWrite x => Sys2Proof.Machine.execDestinationWrite x s
  | .saveBlockTransfer w => Sys2Proof.Machine.execSaveBlockTransfer w s
  | .linkLevelRetry l => Sys2Proof.Machine.execLinkLevelRetry l s

end Sys2Proof.Machine
end

