-- ==== Sys2Proof/Machine/Sched.lean ====
section
/-! DEFINITION. What the machine does when nothing is in issue: the reference tick (R314, R342, R346, R347, R352, R382), the rotation over
everything that may happen next (log 5), and the placing of one word to run (log 4). -/

namespace Sys2Proof.Machine

/-! ### The reference tick -/

/-- Whether a team's CYC counts: it is on a core, and neither moves, nor is saved, nor is halted (R347). -/
def State.cycles (s : State) (tid : Nat) (t : Team) : Bool :=
  (match s.wgOf t with
   | some w => (match w.place with
     | .resident => true
     | .halting _ => true
     | .stopping => true
     | _ => false)
   | none => false) && !t.swapped && s.teamLive tid && !(s.entsOf tid).all fun x => x.2.stopped

/-- Whether what an entity waits for can be its accesses, copies or engine operations (R346): its next clause is not issuable, a source
of its next word is pending, or it is held at a word by anything but a barrier, a ring slot, a rendezvous or an `rcv`. -/
noncomputable def State.awaitsAccess (s : State) (eid : Nat) (e : Entity) : Bool :=
  match e.hold with
  | none => e.issue.isNone && e.ready == 0 || s.stalled eid e
  | some h => !([Hold.barrier, .ring, .workgroup, .gang, .rcv, .merge].contains h)

/-- Whether an entity of a team waits on a parked access, a held copy slice, a held `mld`, `qwait` or `hlt` (R346, log 27). -/
noncomputable def State.waitsOutside (s : State) (tid : Nat) : Bool :=
  let waits (e : Nat) : Bool := match tabGet s.ents e with | some x => s.awaitsAccess e x | none => false
  (s.replay.any fun r => r.2.team == tid && waits r.2.ent) ||
    (s.copies.any fun c => c.2.slices.any fun x => x.team == tid && !x.missing.isEmpty && waits x.ent) ||
    (s.engines.any fun g => g.2.entries.any fun x => x.2.teams.contains tid && !x.2.missing.isEmpty &&
      (s.entsOf tid).any fun y => s.awaitsAccess y.1 y.2) ||
    (s.entsOf tid).any fun x => x.2.hold == some .qwait || x.2.hold == some .hlt || x.2.parkedPc.isSome

/-- The cycles that the watchdog of a team counts (R346): none while the team is pre-empted, and those suppressed by the budget do not
count. -/
noncomputable def State.hangCycles (s : State) (tid : Nat) (t : Team) : Nat :=
  let resident := match s.wgOf t with | some w => w.place == .resident | none => false
  if !resident || s.waitsOutside tid then 0 else s.countedCycles t

/-- The clocks of every team (R346, R347). -/
noncomputable def State.tickTeams (s : State) : State :=
  { s with teams := s.teams.map fun (x : Nat × Team) =>
      if s.cycles x.1 x.2 then
        (x.1, { x.2 with cyc := x.2.cyc + s.islandCycles (s.coreOf x.2), hang := x.2.hang + s.hangCycles x.1 x.2 })
      else x }

/-- The counts of the entities whose clause is issuable (R22). -/
def State.tickWaits (s : State) : State :=
  { s with ents := s.ents.map fun (x : Nat × Entity) =>
      match tabGet s.teams x.2.team with
      | some t => if x.2.ready = 0 then x else (x.1, { x.2 with waits := x.2.waits + s.countedCycles t })
      | none => x }

/-- The cores, contexts and cycles of the entities whose issue a budget suppresses in the coming tick (R360). -/
def State.throttled (s : State) : List (Nat × Nat × Nat) :=
  s.ents.filterMap fun x => match tabGet s.teams x.2.team with
    | some t => if x.2.ready = 0 || s.suppressedCycles t == 0 then none else some (s.coreOf t, s.ctxOf t, s.suppressedCycles t)
    | none => none

/-- The suppressed cycles of a tick (R351, R360, R382): on a core, those of the class that loses most, for the column and for each
context (log 26). -/
def State.tickThrottle (s : State) : State :=
  let ts := s.throttled
  let most (p : Nat × Nat × Nat → Bool) : Nat := ((ts.filter p).map (·.2.2)).foldl Nat.max 0
  let cores := (ts.map (·.1)).eraseDups
  let s := cores.foldl (fun s g =>
    s.modColumn (coreColumn g) fun x => { x with suppressed := x.suppressed + most fun y => y.1 == g }) s
  ((ts.map fun y => (y.1, y.2.1)).eraseDups).foldl (fun s k =>
    s.countEvent k.2 4 (most fun y => y.1 == k.1 && y.2.1 == k.2)) s

/-- The workgroups in a pause of a migration, one for each move (R382). -/
def State.paused (s : State) : List Workgroup :=
  (s.wgs.map (·.2)).filter fun w => (match w.place with | .moving _ _ => true | _ => false) && (w.cluster.isNone || w.core % 4 == 0)

/-- The counter sessions in a tick (R382): the ticks of pauses, and the events that depend on timing alone. -/
def State.tickEvents (s : State) : State :=
  let s := s.paused.foldl (fun s w => s.countEvent w.ctx 6 1) s
  let s := s.ctxs.foldl (fun s x =>
    [0x03, 0x0B, 0x0C, 0x0E].foldl (fun s e => s.countEvent x.1 e (Config.eventFigure s.free x.1 e)) s) s
  { s with free := s.free + 1 }

/-- The counts of ticks that the rules measure (R314, R342, R352). -/
def State.tickCounts (s : State) : State :=
  let s := { s with sem := { s.sem with lease := s.sem.lease + 1 }, policy := { s.policy with smhbTicks := s.policy.smhbTicks + 1 } }
  { s with ctxs := s.ctxs.map fun (x : Nat × Ctx) =>
      if x.2.state = .suspending then (x.1, { x.2 with preTicks := x.2.preTicks + 1 }) else x }

/-- One reference tick passes. -/
noncomputable def State.tick (s : State) : State :=
  let s := s.stamp
  let s := (((((s.tickThrottle).tickWaits).tickTeams).tickEvents).tickCounts).endVisits
  { s with time := s.time + 1 }

/-! ### The word in issue -/

/-- The instruction at which an entity stands in its clause in issue, where it goes on with it (R20, R370). -/
noncomputable def Entity.nextWord (e : Entity) : Option Instr :=
  if e.hold.isSome || e.stopped then none else e.issue.bind (·.instr)

/-- The instruction that the current entity executes: none while a source of it is pending. -/
noncomputable def State.curWord (s : State) : Option Instr :=
  match tabGet s.ents s.cur with
  | none => none
  | some e => e.nextWord.filter fun i => !s.sourcePending s.cur e i

/-! ### The rotation (log 5) -/

/-- Something that may happen next: a row of the table, an entity's word, or the next try of a held word that a debugger steps. -/
inductive Try where
  | row (i : Instr)
  | word (e : Nat)
  | step (q e : Nat)

/-- An entity's word, in issue or held, executed once none of its sources is pending and its clause has its pipe. -/
noncomputable def State.runWord (s : State) (k : Nat) : Host.Outcome State Fault Refusal :=
  match tabGet s.ents k with
  | none => .next s
  | some e => match e.issue.bind (·.instr), tabGet s.teams e.team with
    | some i, some t => if s.sourcePending k e i || !s.mayGoOn k e t then .next s else exec i { s with cur := k }
    | _, _ => .next s

/-- What a try does. -/
noncomputable def State.attempt (s : State) : Try → Host.Outcome State Fault Refusal
  | .row i => exec i s
  | .word e => s.runWord e
  | .step q e => thenNext (s.runWord e) fun s => .next (s.modWindow q fun w => { w with retry := none })

/-- The try's outcome where it changes anything but which entity is the current one. -/
noncomputable def State.effective (s : State) (t : Try) : Option (Host.Outcome State Fault Refusal) :=
  match s.attempt t with
  | .next s' => if { s' with cur := s.cur } = s then none else some (.next s')
  | o => some o

/-- The words of entities that have a clause in issue, and those that are held and may go on (R306): where the wait is a boundary,
the entity must still run; every other wait is inside a clause, which goes on to its end (R28, R278). -/
def State.wordTries (s : State) : List Try :=
  s.ents.filterMap fun x => if x.2.issue.isSome && x.2.hold.isNone && !x.2.stopped then some (.word x.1) else none
def State.heldTries (s : State) : List Try :=
  s.ents.filterMap fun x => match tabGet s.teams x.2.team with
    | some t => if x.2.issue.isSome && x.2.hold.isSome && (s.entRuns x.2 t || !x.2.atBoundary && !x.2.stopped) then some (.word x.1) else none
    | none => none

/-- The clauses that entities stand before. -/
noncomputable def State.issueTries (s : State) : List Try := s.ents.filterMap fun x => if x.2.issue.isNone then some (.row (.clauseIssue x.1)) else none

/-- Memory operations, and the replay queues. -/
noncomputable def State.opTries (s : State) : List Try :=
  s.ops.map fun x => .row (match x.2.kind with
    | .load => .loadComplete x.1
    | .atomic => .atomicPerform x.1
    | _ => .storeComplete x.1)
noncomputable def State.replayTries (s : State) : List Try := s.replay.map fun x => .row (.parkedAccessReplay x.1)

/-- Copies and reductions. -/
noncomputable def State.copyTries (s : State) : List Try :=
  s.copies.flatMap (fun x => x.2.slices.flatMap (fun y => [.row (.destinationWrite (.copy x.1 y.index)), .row (.copyFailure x.1 y.index)]) ++
    [.row (.copyComplete x.1)]) ++
  s.creds.map fun x => .row (.credComplete x.1)

/-- The matrix engines. -/
noncomputable def State.engineTries (s : State) : List Try :=
  (s.engines.filter fun g => decide (g.1 < 256)).flatMap fun g =>
    (List.range 8).map (fun p => .row (.arbiterGrant g.1 p)) ++
    g.2.entries.flatMap (fun x => (List.range 4).map (fun b => .row (.mswapBandSwap g.1 x.1 b)) ++
      [.row (.destinationWrite (.engine g.1 x.1)), .row (.engineOpComplete g.1 x.1), .row (.mldFailure g.1 x.1),
       .row (.mldStrictFmtf g.1 x.1)]) ++
    (List.range 4).flatMap fun b => [.row (.bandRailWake g.1 b), .row (.bandRailGate g.1 b)]

/-- The grid unit: placement, restores, retirement, and draws; a swap-out only while some unit waits for a place (R14). -/
noncomputable def State.gridTries (s : State) : List Try :=
  s.ctxs.flatMap (fun x => (0 :: x.2.savedWgs).map fun k => .row (.placement x.1 k)) ++
  s.teams.filterMap (fun x => if x.2.swapped then some (.row (.placement (s.ctxOf x.2) x.1)) else none) ++
  s.wgs.map (fun x => .row (.workgroupRetire x.1)) ++
  (List.range 8).map (fun st => .row (.contextChoice st)) ++
  (if s.ctxs.any fun x => x.2.held.isSome then s.teams.map fun x => .row (.teamSwapOut x.1) else [])

/-- Debug windows. -/
noncomputable def State.debugTries (s : State) : List Try :=
  (s.debug).filterMap (fun x => x.2.retry.map fun e => .step x.1 e) ++
  (s.debug).filterMap fun x => if x.2.stopping || x.2.busy then some (.row (.stopSettled x.1)) else none

/-- Saves, restores, moves, and what contexts still have to do. -/
noncomputable def State.saveTries (s : State) : List Try :=
  s.ctxs.flatMap (fun x => [.row (.preemptionTimeout x.1), .row (.contextSaveComplete x.1), .row (.tearComplete x.1), .row (.granuleTag x.1)]) ++
  s.wgs.flatMap fun x => [.row (.workgroupSave x.1), .row (.saveBlockTransfer x.1), .row (.migrationArrival x.1)] ++
    (List.range 4).map fun y => .row (.migrationStart x.1 y)

/-- The clauses whose entities' counts reach 64 in the coming tick (R22), and what their pipes wait for. -/
noncomputable def State.overdueTries (s : State) : List Try :=
  let es := s.ents.filter fun x => match tabGet s.teams x.2.team with
    | some t => x.2.issue.isNone && s.overdue x.2 t
    | none => false
  if es.isEmpty then [] else es.map (fun x => .row (.issueWaitLimit x.1)) ++ s.wordTries ++ s.opTries

/-- What follows from counts and from time. -/
noncomputable def State.timedTries (s : State) : List Try :=
  [.row .traceFrame, .row (.sampleTick (Config.sample s.time.toNat)), .row .leaseLapse, .row .smhbTimeout, .row .emergencyRelease, .row .attestationComplete] ++
  s.teams.flatMap (fun x => [.row (.ydl x.1), .row (.hang x.1)]) ++
  s.ents.map (fun x => .row (.deferralSwitch x.1)) ++
  s.islands.flatMap fun x => if x.2.state = .idle then []
    else [.row (.voltageRampDone x.1), .row (.settleDone x.1), .row (.frequencySwitch x.1)]

/-- The kinds of things that may happen, in the order in which their turns come. -/
noncomputable def State.tries (s : State) : List (List Try) :=
  [s.wordTries, s.issueTries, s.opTries, s.replayTries, s.heldTries, s.copyTries, s.engineTries, s.gridTries, s.debugTries,
   s.saveTries, s.timedTries ++ s.overdueTries]

/-- The place of what time and counts bring among them: it comes last, and the tick follows once none of it is left. -/
def dueKind : Nat := 10

/-- The first try of a list that changes anything. -/
noncomputable def State.firstOf (s : State) : List Try → Option (Host.Outcome State Fault Refusal)
  | [] => none
  | t :: ts => match s.effective t with
    | some o => some o
    | none => s.firstOf ts

/-- A list from a place on, and round. -/
def fromPlace {α : Type} (n : Nat) (l : List α) : List α := l.drop (n % l.length) ++ l.take (n % l.length)

/-- The machine's next step by turns: from the turn's kind on, the first kind that has something to do; and a tick once every round,
when all that is due before it has happened.  Within a kind the first place moves on with every tick, so that nothing is passed over for good. -/
noncomputable def State.rotate (s : State) : Nat → Nat → Host.Outcome State Fault Refusal
  | 0, _ => .next { s.tick with turn := 0 }
  | fuel + 1, k =>
    match s.tries[k]? with
    | none => .next { s.tick with turn := 0 }
    | some ts => match s.firstOf (fromPlace s.time.toNat ts) with
      | some o => thenNext o fun s => .next { s with turn := if k = dueKind then k else k + 1 }
      | none => s.rotate fuel (k + 1)

/-- What happens when no event waits and the current entity has no word to execute. -/
noncomputable def State.idleStep (s : State) : Host.Outcome State Fault Refusal := s.rotate 12 s.turn

/-! ### A word placed to run (log 4) -/

/-- The launch record of the grid that a placed word runs in: 32 lanes, one team, a cluster launch. -/
def placedRecord : LaunchRec :=
  { entry := 0, param := 0, lanes := 32, teams := 1, axes := 1, prio := 0, cluster := true, split := false, det := false
    grant := 64, ord := [], stmem := 256, ext := ⟨32, 1, 1⟩, clmem := 256, grain := ⟨32, 1, 1⟩, smallest := ⟨32, 1, 1⟩, spad := 256
    spadMax := 256, lane := 256, laneMax := 256, allow := 1000000, wbase := 0, wstride := 0, wbytes := 0 }

/-- The clause that a placed word is: it and a zero word in a clause of class MX, which takes every instruction. -/
def placedClause (w : Nat) : Issue :=
  { pc := 0, cls := .mx, words := [BitVec.ofNat 32 w, BitVec.ofNat 32 (w / 4294967296)], next := 0, mode := 0, modeNew := none
    latches := [], vtos := [], claimed := [] }

/-- The state in which a word is the next to execute: full service, context 0 ACTIVE and privileged, one cluster launch of one
workgroup with one team on core 0, and the word in issue. -/
def State.placeWord (s : State) (w : Nat) : State :=
  let n := s.nextId
  let grid : Grid :=
    { ctx := 0, gridId := 0, queue := 0, depth := 1, rcd := placedRecord, parent := none, next := 1, faulted := false, below := 0
      retired := false, stmem := [], stack := some 0 }
  let wg : Workgroup :=
    { ctx := 0, grid := n, wgid := ⟨0, 0, 0⟩, lo := ⟨0, 0, 0⟩, hi := ⟨32, 1, 1⟩, splits := 0, cluster := some (n + 2), clusSlot := 0
      core := 0, teams := 1, phase := false, words := 0, spad := [], spadSize := 256, spadRes := [], arrivals := [], rvGen := 0
      place := .resident, saveAt := 0, kids := [], aborting := false }
  let clus : Cluster := { ctx := 0, grid := n, cluster := 0, clmem := [], size := 256, res := [], wgs := [n + 1] }
  let ent := { startEntity (n + 3) (fullMask 32) 0 with issue := some (placedClause w) }
  { s with
    service := { svc := 2, boot := 1, seq := 2, stk := 0xFF, lyr := 0x0F, fmax := 38, fmt := 0x3F, hbm := 0xFFFF, half := false, fwver := 0 }
    ctxs := tabPut s.ctxs 0 { s.ctx 0 with state := .active, priv := true }
    grids := tabPut s.grids n grid
    wgs := tabPut s.wgs (n + 1) wg
    clusters := tabPut s.clusters (n + 2) clus
    engines := tabPut s.engines 0 { Engine.reset with owner := some (n + 2) }
    teams := tabPut s.teams (n + 3) (startTeam (n + 1) 0 0 0 placedRecord)
    ents := tabPut s.ents (n + 4) ent
    cur := n + 4
    agenda := []
    nextId := n + 5 }

end Sys2Proof.Machine
end

