-- ==== Sys2Proof/Machine/Step.lean ====
section
/-! DEFINITION. One step of the machine, and the state in which a given word is the next to execute. -/

namespace Sys2Proof.Machine

/-- One step (log 5): the next event that the outside has in store; else the word that the current entity has in issue; else what
the rotation gives. -/
noncomputable def step (s : State) : Host.Outcome State Fault Refusal :=
  match s.agenda with
  | i :: rest => exec i { s with agenda := rest }
  | [] => match s.curWord with
    | some i => exec i s
    | none => s.idleStep

/-- The state in which an instruction whose bits are `w` is the next that `step` runs (log 4).  It lies in the clause in issue, where
CLAUSE_ISSUE puts the words that it fetches; a second word counts on from bit 32. -/
def State.withFetchWord (s : State) (_nbits w : Nat) : State := s.placeWord w

end Sys2Proof.Machine
end

