-- ==== Sys2Proof/Laws/Encoding.lean ====
section
/-! SUPPORT. Laws of the encoding: every code names what it stands for, and a code is within its field. -/

namespace Sys2Proof

@[simp] theorem Latch.ofCode_code (x : Latch) : Latch.ofCode x.code = some x := by cases x <;> rfl
theorem Latch.code_lt (x : Latch) : x.code < 4 := by cases x <;> decide
@[simp] theorem VConst.ofCode_code (x : VConst) : VConst.ofCode x.code = some x := by cases x <;> rfl
theorem VConst.code_lt (x : VConst) : x.code < 7 := by cases x <;> decide
@[simp] theorem HalfT.ofCode_code (x : HalfT) : HalfT.ofCode x.code = some x := by cases x <;> rfl
theorem HalfT.code_lt (x : HalfT) : x.code < 2 := by cases x <;> decide
@[simp] theorem Fp8T.ofCode_code (x : Fp8T) : Fp8T.ofCode x.code = some x := by cases x <;> rfl
theorem Fp8T.code_lt (x : Fp8T) : x.code < 2 := by cases x <;> decide
@[simp] theorem RndDir.ofCode_code (x : RndDir) : RndDir.ofCode x.code = some x := by cases x <;> rfl
theorem RndDir.code_lt (x : RndDir) : x.code < 4 := by cases x <;> decide
@[simp] theorem ValT.ofCode_code (x : ValT) : ValT.ofCode x.code = some x := by cases x <;> rfl
theorem ValT.code_lt (x : ValT) : x.code < 4 := by cases x <;> decide
@[simp] theorem Cond.ofCode_code (x : Cond) : Cond.ofCode x.code = some x := by cases x <;> rfl
theorem Cond.code_lt (x : Cond) : x.code < 8 := by cases x <;> decide
@[simp] theorem AbsT.ofCode_code (x : AbsT) : AbsT.ofCode x.code = some x := by cases x <;> rfl
theorem AbsT.code_lt (x : AbsT) : x.code < 8 := by cases x <;> decide
@[simp] theorem UpT.ofCode_code (x : UpT) : UpT.ofCode x.code = some x := by cases x <;> rfl
theorem UpT.code_lt (x : UpT) : x.code < 8 := by cases x <;> decide
@[simp] theorem PlogOp.ofCode_code (x : PlogOp) : PlogOp.ofCode x.code = some x := by cases x <;> rfl
theorem PlogOp.code_lt (x : PlogOp) : x.code < 4 := by cases x <;> decide
@[simp] theorem LdSz.ofCode_code (x : LdSz) : LdSz.ofCode x.code = some x := by cases x <;> rfl
theorem LdSz.code_lt (x : LdSz) : x.code < 8 := by cases x <;> decide
@[simp] theorem StSz.ofCode_code (x : StSz) : StSz.ofCode x.code = some x := by cases x <;> rfl
theorem StSz.code_lt (x : StSz) : x.code < 8 := by cases x <;> decide
@[simp] theorem LdOrd.ofCode_code (x : LdOrd) : LdOrd.ofCode x.code = some x := by cases x <;> rfl
theorem LdOrd.code_lt (x : LdOrd) : x.code < 4 := by cases x <;> decide
@[simp] theorem StOrd.ofCode_code (x : StOrd) : StOrd.ofCode x.code = some x := by cases x <;> rfl
theorem StOrd.code_lt (x : StOrd) : x.code < 4 := by cases x <;> decide
@[simp] theorem Pol.ofCode_code (x : Pol) : Pol.ofCode x.code = some x := by cases x <;> rfl
theorem Pol.code_lt (x : Pol) : x.code < 4 := by cases x <;> decide
@[simp] theorem AOrd.ofCode_code (x : AOrd) : AOrd.ofCode x.code = some x := by cases x <;> rfl
theorem AOrd.code_lt (x : AOrd) : x.code < 4 := by cases x <;> decide
@[simp] theorem ATy.ofCode_code (x : ATy) : ATy.ofCode x.code = some x := by cases x <;> rfl
theorem ATy.code_lt (x : ATy) : x.code < 4 := by cases x <;> decide
@[simp] theorem Sp.ofCode_code (x : Sp) : Sp.ofCode x.code = some x := by cases x <;> rfl
theorem Sp.code_lt (x : Sp) : x.code < 4 := by cases x <;> decide
@[simp] theorem FKind.ofCode_code (x : FKind) : FKind.ofCode x.code = some x := by cases x <;> rfl
theorem FKind.code_lt (x : FKind) : x.code < 4 := by cases x <;> decide
@[simp] theorem Scope.ofCode_code (x : Scope) : Scope.ofCode x.code = some x := by cases x <;> rfl
theorem Scope.code_lt (x : Scope) : x.code < 8 := by cases x <;> decide
@[simp] theorem MldSrc.ofCode_code (x : MldSrc) : MldSrc.ofCode x.code = some x := by cases x <;> rfl
theorem MldSrc.code_lt (x : MldSrc) : x.code < 4 := by cases x <;> decide
@[simp] theorem RedT.ofCode_code (x : RedT) : RedT.ofCode x.code = some x := by cases x <;> rfl
theorem RedT.code_lt (x : RedT) : x.code < 8 := by cases x <;> decide

theorem VOp.code_lt (x : VOp) : x.code < 128 := by
  cases x with
  | v n => have := n.isLt; simp only [VOp.code]; omega
  | s n => have := n.isLt; simp only [VOp.code]; omega
  | o n => have := n.isLt; simp only [VOp.code]; omega
  | latch l => have := l.code_lt; simp only [VOp.code]; omega
  | const c => have := c.code_lt; simp only [VOp.code]; omega

@[simp] theorem VOp.ofCode_code (x : VOp) : VOp.ofCode x.code = some x := by
  cases x with
  | v n =>
    have := n.isLt
    have h : (VOp.v n).code = n.toNat := rfl
    rw [VOp.ofCode, h, if_pos (by omega), BitVec.ofNat_toNat, BitVec.setWidth_eq]
  | s n =>
    have := n.isLt
    have h : (VOp.s n).code = 64 + n.toNat := rfl
    rw [VOp.ofCode, h, if_neg (by omega), if_pos (by omega), Nat.add_sub_cancel_left, BitVec.ofNat_toNat, BitVec.setWidth_eq]
  | o n =>
    have := n.isLt
    have h : (VOp.o n).code = 96 + n.toNat := rfl
    rw [VOp.ofCode, h, if_neg (by omega), if_neg (by omega), if_pos (by omega), Nat.add_sub_cancel_left, BitVec.ofNat_toNat,
      BitVec.setWidth_eq]
  | latch l =>
    have := l.code_lt
    have h : (VOp.latch l).code = 112 + l.code := rfl
    rw [VOp.ofCode, h, if_neg (by omega), if_neg (by omega), if_neg (by omega), if_pos (by omega), Nat.add_sub_cancel_left,
      Latch.ofCode_code]
    rfl
  | const c =>
    have := c.code_lt
    have h : (VOp.const c).code = 120 + c.code := rfl
    rw [VOp.ofCode, h, if_neg (by omega), if_neg (by omega), if_neg (by omega), if_neg (by omega), Nat.add_sub_cancel_left,
      VConst.ofCode_code]
    rfl

@[simp] theorem ofNat_toNat_self {n : Nat} (x : BitVec n) : BitVec.ofNat n x.toNat = x := by simp

@[simp] theorem toNat_beq_one (b : Bool) : (b.toNat == 1) = b := by cases b <;> rfl

end Sys2Proof
end

