-- ==== Sys2Proof/Laws/PerInstr.lean ====
section
/-! SUPPORT. The encoding of each instruction: how many words it has, that they are words, and that the decoder reads it back from them
(R136 to R144), one lemma a constructor. -/

namespace Sys2Proof.Laws.Encoding

/-- A well-formed instruction that is no step of the machine has the words that its first word asks for, and they decode to it. -/
def Statement (i : Instr) : Prop :=
  i.wellFormed = true → i.isStep = false →
    (encode i).length = instrWords ((encode i).getD 0 0) ∧ (∀ w ∈ encode i, w < 4294967296) ∧
      decodePair ((encode i).getD 0 0) ((encode i).getD 1 0) = .ok i

/-- A word put together from fields, the lowest first: each is its width and its value. -/
def packs : List (Nat × Nat) → Nat
  | [] => 0
  | (n, v) :: fs => v + 2 ^ n * packs fs

/-- Every field's value is within its width. -/
def Fits : List (Nat × Nat) → Prop
  | [] => True
  | (n, v) :: fs => v < 2 ^ n ∧ Fits fs

/-- The width of some fields together. -/
def widths (fs : List (Nat × Nat)) : Nat := (fs.map (·.1)).sum

theorem packs_lt (fs : List (Nat × Nat)) (h : Fits fs) : packs fs < 2 ^ widths fs := by
  induction fs with
  | nil => simp [packs, widths]
  | cons p fs ih =>
    obtain ⟨n, v⟩ := p
    have h1 := ih h.2
    have h2 : v < 2 ^ n := h.1
    simp only [packs, widths, List.map_cons, List.sum_cons, Nat.pow_add] at h1 ⊢
    calc v + 2 ^ n * packs fs < 2 ^ n + 2 ^ n * packs fs := by omega
      _ = 2 ^ n * (packs fs + 1) := by ring
      _ ≤ _ := Nat.mul_le_mul_left _ h1

theorem packs_lt32 (fs : List (Nat × Nat)) (h : Fits fs) (hw : widths fs = 32) : packs fs < 4294967296 := by
  have := packs_lt fs h
  rw [hw] at this
  exact this

/-- The field at a place of a word is the value put there. -/
theorem fld_packs (fs : List (Nat × Nat)) (h : Fits fs) (i n v : Nat) (hi : fs[i]? = some (n + 1, v)) :
    fld (packs fs) (widths (fs.take i) + n) (widths (fs.take i)) = v := by
  induction i generalizing fs with
  | zero =>
    cases fs with
    | nil => simp at hi
    | cons p fs =>
      simp only [List.getElem?_cons_zero, Option.some.injEq] at hi
      subst hi
      have : v < 2 ^ (n + 1) := h.1
      simp [fld, packs, widths, Nat.mod_eq_of_lt this]
  | succ i ih =>
    cases fs with
    | nil => simp at hi
    | cons p fs =>
      obtain ⟨m, u⟩ := p
      have hu : u < 2 ^ m := h.1
      have h1 := ih fs h.2 (by simpa using hi)
      simp only [fld, packs, widths, List.take_succ_cons, List.map_cons, List.sum_cons] at h1 ⊢
      rw [Nat.pow_add, ← Nat.div_div_eq_div_mul, Nat.add_mul_div_left _ _ (Nat.two_pow_pos m), Nat.div_eq_of_lt hu, Nat.zero_add]
      rw [show m + (List.map (fun x => x.1) (List.take i fs)).sum + n - (m + (List.map (fun x => x.1) (List.take i fs)).sum) + 1 =
        (List.map (fun x => x.1) (List.take i fs)).sum + n - (List.map (fun x => x.1) (List.take i fs)).sum + 1 by omega]
      exact h1

/-- A field within a field. -/
theorem fld_within {w v a b : Nat} (h : fld w a b = v) (hi lo : Nat) (h1 : b ≤ lo) (h2 : lo ≤ hi) (h3 : hi ≤ a) :
    fld w hi lo = v / 2 ^ (lo - b) % 2 ^ (hi - lo + 1) := by
  subst h
  simp only [fld]
  apply Nat.eq_of_testBit_eq
  intro j
  simp only [Nat.testBit_mod_two_pow, Nat.testBit_div_two_pow]
  by_cases hj : j < hi - lo + 1
  · have : j + (lo - b) < a - b + 1 := by omega
    rw [show j + (lo - b) + b = j + lo by omega]
    simp [hj, this]
  · simp [hj]

theorem decodePair_of_raw {i : Instr} {w x k : Nat} (h0 : fld w 31 26 = k) (hk : opcodeAssigned k = true) (hd : decodeRaw w x = some i)
    (h : i.wellFormed = true) : decodePair w x = .ok i := by
  simp only [decodePair, h0, hk, if_true, hd, h]

/-- A word of some fields, each of which reads as the value put into it. -/
theorem word_of (fs : List (Nat × Nat)) (h : Fits fs) (hw : widths fs = 32) : ∃ w, w = packs fs ∧ w < 4294967296 ∧
    ∀ i n v, fs[i]? = some (n + 1, v) → fld w (widths (fs.take i) + n) (widths (fs.take i)) = v :=
  ⟨_, rfl, packs_lt32 fs h hw, fun i n v => fld_packs fs h i n v⟩

theorem oneWord {i : Instr} {u w k : Nat} (he : encode i = [u]) (hu : u = w) (hw : w < 4294967296) (h0 : fld w 31 26 = k)
    (hk : opcodeAssigned k = true) (hn : instrWords w = 1) (hd : i.wellFormed = true → decodeRaw w 0 = some i) : Statement i := by
  subst hu
  intro h _
  rw [he]
  exact ⟨hn.symm, by simpa using hw, decodePair_of_raw h0 hk (hd h) h⟩

theorem twoWords {i : Instr} {u y w x k : Nat} (he : encode i = [u, y]) (hu : u = w) (hy : y = x) (hw : w < 4294967296) (hx : x < 4294967296)
    (h0 : fld w 31 26 = k) (hk : opcodeAssigned k = true) (hn : instrWords w = 2) (hd : i.wellFormed = true → decodeRaw w x = some i) :
    Statement i := by
  subst hu hy
  intro h _
  rw [he]
  exact ⟨hn.symm, by simpa using ⟨hw, hx⟩, decodePair_of_raw h0 hk (hd h) h⟩

theorem faddF32 (d : VOp) (a : VOp) (b : VOp) : Statement (.faddF32 d a b) := by
  obtain ⟨wd, ep, el, ef⟩ := word_of [(7, d.code), (7, a.code), (7, b.code), (5, 0), (6, 1)]
    ⟨d.code_lt, a.code_lt, b.code_lt, by decide, by decide, trivial⟩ rfl
  have e0 : fld wd 31 26 = 1 := ef 4 5 _ rfl
  have e1 : fld wd 25 21 = 0 := ef 3 4 _ rfl
  have e2 : fld wd 6 0 = d.code := ef 0 6 _ rfl
  have e3 : fld wd 13 7 = a.code := ef 1 6 _ rfl
  have e4 : fld wd 20 14 = b.code := ef 2 6 _ rfl
  refine oneWord rfl (by rw [ep]; simp only [packs]; omega) el e0 rfl ?_ fun h => ?_
  · simp [instrWords, e0]
  · simp [decodeRaw, decodeOp01, e0, e1, e2, e3, e4]

theorem faddF16Bf16 (t : HalfT) (d : VOp) (a : VOp) (b : VOp) : Statement (.faddF16Bf16 t d a b) := by
  obtain ⟨wd, ep, el, ef⟩ := word_of [(7, d.code), (7, a.code), (7, b.code), (5, 0), (6, 2 + t.code)]
    ⟨d.code_lt, a.code_lt, b.code_lt, by decide, by have := t.code_lt; omega, trivial⟩ rfl
  have e0 : fld wd 31 26 = 2 + t.code := ef 4 5 _ rfl
  have e1 : fld wd 25 21 = 0 := ef 3 4 _ rfl
  have e2 := fld_within e0 26 26 (by decide) (by decide) (by decide)
  have e3 : fld wd 6 0 = d.code := ef 0 6 _ rfl
  have e4 : fld wd 13 7 = a.code := ef 1 6 _ rfl
  have e5 : fld wd 20 14 = b.code := ef 2 6 _ rfl
  refine oneWord rfl (by rw [ep]; simp only [packs]; omega) el e0 (by cases t <;> rfl) ?_ fun h => ?_
  · cases t <;> simp [instrWords, e0, HalfT.code]
  · cases t <;> simp [decodeRaw, decodeOp02, e0, e1, e2, e3, e4, e5, HalfT.code, HalfT.ofCode]

theorem faddF64 (d : VOp) (a : VOp) (b : VOp) : Statement (.faddF64 d a b) := by
  obtain ⟨wd, ep, el, ef⟩ := word_of [(7, d.code), (7, a.code), (7, b.code), (5, 0), (6, 4)]
    ⟨d.code_lt, a.code_lt, b.code_lt, by decide, by decide, trivial⟩ rfl
  have e0 : fld wd 31 26 = 4 := ef 4 5 _ rfl
  have e1 : fld wd 25 21 = 0 := ef 3 4 _ rfl
  have e2 : fld wd 6 0 = d.code := ef 0 6 _ rfl
  have e3 : fld wd 13 7 = a.code := ef 1 6 _ rfl
  have e4 : fld wd 20 14 = b.code := ef 2 6 _ rfl
  refine oneWord rfl (by rw [ep]; simp only [packs]; omega) el e0 rfl ?_ fun h => ?_
  · simp [instrWords, e0]
  · simp [decodeRaw, decodeOp04, e0, e1, e2, e3, e4]

theorem faddFp8 (t : Fp8T) (d : VOp) (a : VOp) (b : VOp) : Statement (.faddFp8 t d a b) := by
  obtain ⟨wd, ep, el, ef⟩ := word_of [(7, d.code), (7, a.code), (7, b.code), (5, t.code * 16), (6, 5)]
    ⟨d.code_lt, a.code_lt, b.code_lt, by have := t.code_lt; omega, by decide, trivial⟩ rfl
  have e0 : fld wd 31 26 = 5 := ef 4 5 _ rfl
  have e1 : fld wd 25 21 = t.code * 16 := ef 3 4 _ rfl
  have e2 := fld_within e1 25 25 (by decide) (by decide) (by decide)
  have e3 : fld wd 6 0 = d.code := ef 0 6 _ rfl
  have e4 : fld wd 13 7 = a.code := ef 1 6 _ rfl
  have e5 : fld wd 20 14 = b.code := ef 2 6 _ rfl
  refine oneWord rfl (by rw [ep]; simp only [packs]; omega) el e0 rfl ?_ fun h => ?_
  · simp [instrWords, e0]
  · cases t <;> simp [decodeRaw, decodeOp05, e0, e1, e2, e3, e4, e5, Fp8T.code, Fp8T.ofCode]

theorem fsubF32 (d : VOp) (a : VOp) (b : VOp) : Statement (.fsubF32 d a b) := by
  obtain ⟨wd, ep, el, ef⟩ := word_of [(7, d.code), (7, a.code), (7, b.code), (5, 1), (6, 1)]
    ⟨d.code_lt, a.code_lt, b.code_lt, by decide, by decide, trivial⟩ rfl
  have e0 : fld wd 31 26 = 1 := ef 4 5 _ rfl
  have e1 : fld wd 25 21 = 1 := ef 3 4 _ rfl
  have e2 : fld wd 6 0 = d.code := ef 0 6 _ rfl
  have e3 : fld wd 13 7 = a.code := ef 1 6 _ rfl
  have e4 : fld wd 20 14 = b.code := ef 2 6 _ rfl
  refine oneWord rfl (by rw [ep]; simp only [packs]; omega) el e0 rfl ?_ fun h => ?_
  · simp [instrWords, e0]
  · simp [decodeRaw, decodeOp01, e0, e1, e2, e3, e4]

theorem fsubF16Bf16 (t : HalfT) (d : VOp) (a : VOp) (b : VOp) : Statement (.fsubF16Bf16 t d a b) := by
  obtain ⟨wd, ep, el, ef⟩ := word_of [(7, d.code), (7, a.code), (7, b.code), (5, 1), (6, 2 + t.code)]
    ⟨d.code_lt, a.code_lt, b.code_lt, by decide, by have := t.code_lt; omega, trivial⟩ rfl
  have e0 : fld wd 31 26 = 2 + t.code := ef 4 5 _ rfl
  have e1 : fld wd 25 21 = 1 := ef 3 4 _ rfl
  have e2 := fld_within e0 26 26 (by decide) (by decide) (by decide)
  have e3 : fld wd 6 0 = d.code := ef 0 6 _ rfl
  have e4 : fld wd 13 7 = a.code := ef 1 6 _ rfl
  have e5 : fld wd 20 14 = b.code := ef 2 6 _ rfl
  refine oneWord rfl (by rw [ep]; simp only [packs]; omega) el e0 (by cases t <;> rfl) ?_ fun h => ?_
  · cases t <;> simp [instrWords, e0, HalfT.code]
  · cases t <;> simp [decodeRaw, decodeOp02, e0, e1, e2, e3, e4, e5, HalfT.code, HalfT.ofCode]

theorem fsubF64 (d : VOp) (a : VOp) (b : VOp) : Statement (.fsubF64 d a b) := by
  obtain ⟨wd, ep, el, ef⟩ := word_of [(7, d.code), (7, a.code), (7, b.code), (5, 1), (6, 4)]
    ⟨d.code_lt, a.code_lt, b.code_lt, by decide, by decide, trivial⟩ rfl
  have e0 : fld wd 31 26 = 4 := ef 4 5 _ rfl
  have e1 : fld wd 25 21 = 1 := ef 3 4 _ rfl
  have e2 : fld wd 6 0 = d.code := ef 0 6 _ rfl
  have e3 : fld wd 13 7 = a.code := ef 1 6 _ rfl
  have e4 : fld wd 20 14 = b.code := ef 2 6 _ rfl
  refine oneWord rfl (by rw [ep]; simp only [packs]; omega) el e0 rfl ?_ fun h => ?_
  · simp [instrWords, e0]
  · simp [decodeRaw, decodeOp04, e0, e1, e2, e3, e4]

theorem fsubFp8 (t : Fp8T) (d : VOp) (a : VOp) (b : VOp) : Statement (.fsubFp8 t d a b) := by
  obtain ⟨wd, ep, el, ef⟩ := word_of [(7, d.code), (7, a.code), (7, b.code), (5, 1 + t.code * 16), (6, 5)]
    ⟨d.code_lt, a.code_lt, b.code_lt, by have := t.code_lt; omega, by decide, trivial⟩ rfl
  have e0 : fld wd 31 26 = 5 := ef 4 5 _ rfl
  have e1 : fld wd 25 21 = 1 + t.code * 16 := ef 3 4 _ rfl
  have e2 := fld_within e1 25 25 (by decide) (by decide) (by decide)
  have e3 : fld wd 6 0 = d.code := ef 0 6 _ rfl
  have e4 : fld wd 13 7 = a.code := ef 1 6 _ rfl
  have e5 : fld wd 20 14 = b.code := ef 2 6 _ rfl
  refine oneWord rfl (by rw [ep]; simp only [packs]; omega) el e0 rfl ?_ fun h => ?_
  · simp [instrWords, e0]
  · cases t <;> simp [decodeRaw, decodeOp05, e0, e1, e2, e3, e4, e5, Fp8T.code, Fp8T.ofCode]

theorem fmulF32 (d : VOp) (a : VOp) (b : VOp) : Statement (.fmulF32 d a b) := by
  obtain ⟨wd, ep, el, ef⟩ := word_of [(7, d.code), (7, a.code), (7, b.code), (5, 2), (6, 1)]
    ⟨d.code_lt, a.code_lt, b.code_lt, by decide, by decide, trivial⟩ rfl
  have e0 : fld wd 31 26 = 1 := ef 4 5 _ rfl
  have e1 : fld wd 25 21 = 2 := ef 3 4 _ rfl
  have e2 : fld wd 6 0 = d.code := ef 0 6 _ rfl
  have e3 : fld wd 13 7 = a.code := ef 1 6 _ rfl
  have e4 : fld wd 20 14 = b.code := ef 2 6 _ rfl
  refine oneWord rfl (by rw [ep]; simp only [packs]; omega) el e0 rfl ?_ fun h => ?_
  · simp [instrWords, e0]
  · simp [decodeRaw, decodeOp01, e0, e1, e2, e3, e4]

theorem fmulF16Bf16 (t : HalfT) (d : VOp) (a : VOp) (b : VOp) : Statement (.fmulF16Bf16 t d a b) := by
  obtain ⟨wd, ep, el, ef⟩ := word_of [(7, d.code), (7, a.code), (7, b.code), (5, 2), (6, 2 + t.code)]
    ⟨d.code_lt, a.code_lt, b.code_lt, by decide, by have := t.code_lt; omega, trivial⟩ rfl
  have e0 : fld wd 31 26 = 2 + t.code := ef 4 5 _ rfl
  have e1 : fld wd 25 21 = 2 := ef 3 4 _ rfl
  have e2 := fld_within e0 26 26 (by decide) (by decide) (by decide)
  have e3 : fld wd 6 0 = d.code := ef 0 6 _ rfl
  have e4 : fld wd 13 7 = a.code := ef 1 6 _ rfl
  have e5 : fld wd 20 14 = b.code := ef 2 6 _ rfl
  refine oneWord rfl (by rw [ep]; simp only [packs]; omega) el e0 (by cases t <;> rfl) ?_ fun h => ?_
  · cases t <;> simp [instrWords, e0, HalfT.code]
  · cases t <;> simp [decodeRaw, decodeOp02, e0, e1, e2, e3, e4, e5, HalfT.code, HalfT.ofCode]

theorem fmulF64 (d : VOp) (a : VOp) (b : VOp) : Statement (.fmulF64 d a b) := by
  obtain ⟨wd, ep, el, ef⟩ := word_of [(7, d.code), (7, a.code), (7, b.code), (5, 2), (6, 4)]
    ⟨d.code_lt, a.code_lt, b.code_lt, by decide, by decide, trivial⟩ rfl
  have e0 : fld wd 31 26 = 4 := ef 4 5 _ rfl
  have e1 : fld wd 25 21 = 2 := ef 3 4 _ rfl
  have e2 : fld wd 6 0 = d.code := ef 0 6 _ rfl
  have e3 : fld wd 13 7 = a.code := ef 1 6 _ rfl
  have e4 : fld wd 20 14 = b.code := ef 2 6 _ rfl
  refine oneWord rfl (by rw [ep]; simp only [packs]; omega) el e0 rfl ?_ fun h => ?_
  · simp [instrWords, e0]
  · simp [decodeRaw, decodeOp04, e0, e1, e2, e3, e4]

theorem fmulFp8 (t : Fp8T) (d : VOp) (a : VOp) (b : VOp) : Statement (.fmulFp8 t d a b) := by
  obtain ⟨wd, ep, el, ef⟩ := word_of [(7, d.code), (7, a.code), (7, b.code), (5, 2 + t.code * 16), (6, 5)]
    ⟨d.code_lt, a.code_lt, b.code_lt, by have := t.code_lt; omega, by decide, trivial⟩ rfl
  have e0 : fld wd 31 26 = 5 := ef 4 5 _ rfl
  have e1 : fld wd 25 21 = 2 + t.code * 16 := ef 3 4 _ rfl
  have e2 := fld_within e1 25 25 (by decide) (by decide) (by decide)
  have e3 : fld wd 6 0 = d.code := ef 0 6 _ rfl
  have e4 : fld wd 13 7 = a.code := ef 1 6 _ rfl
  have e5 : fld wd 20 14 = b.code := ef 2 6 _ rfl
  refine oneWord rfl (by rw [ep]; simp only [packs]; omega) el e0 rfl ?_ fun h => ?_
  · simp [instrWords, e0]
  · cases t <;> simp [decodeRaw, decodeOp05, e0, e1, e2, e3, e4, e5, Fp8T.code, Fp8T.ofCode]

theorem fminF32 (d : VOp) (a : VOp) (b : VOp) : Statement (.fminF32 d a b) := by
  obtain ⟨wd, ep, el, ef⟩ := word_of [(7, d.code), (7, a.code), (7, b.code), (5, 3), (6, 1)]
    ⟨d.code_lt, a.code_lt, b.code_lt, by decide, by decide, trivial⟩ rfl
  have e0 : fld wd 31 26 = 1 := ef 4 5 _ rfl
  have e1 : fld wd 25 21 = 3 := ef 3 4 _ rfl
  have e2 : fld wd 6 0 = d.code := ef 0 6 _ rfl
  have e3 : fld wd 13 7 = a.code := ef 1 6 _ rfl
  have e4 : fld wd 20 14 = b.code := ef 2 6 _ rfl
  refine oneWord rfl (by rw [ep]; simp only [packs]; omega) el e0 rfl ?_ fun h => ?_
  · simp [instrWords, e0]
  · simp [decodeRaw, decodeOp01, e0, e1, e2, e3, e4]

theorem fminF16Bf16 (t : HalfT) (d : VOp) (a : VOp) (b : VOp) : Statement (.fminF16Bf16 t d a b) := by
  obtain ⟨wd, ep, el, ef⟩ := word_of [(7, d.code), (7, a.code), (7, b.code), (5, 3), (6, 2 + t.code)]
    ⟨d.code_lt, a.code_lt, b.code_lt, by decide, by have := t.code_lt; omega, trivial⟩ rfl
  have e0 : fld wd 31 26 = 2 + t.code := ef 4 5 _ rfl
  have e1 : fld wd 25 21 = 3 := ef 3 4 _ rfl
  have e2 := fld_within e0 26 26 (by decide) (by decide) (by decide)
  have e3 : fld wd 6 0 = d.code := ef 0 6 _ rfl
  have e4 : fld wd 13 7 = a.code := ef 1 6 _ rfl
  have e5 : fld wd 20 14 = b.code := ef 2 6 _ rfl
  refine oneWord rfl (by rw [ep]; simp only [packs]; omega) el e0 (by cases t <;> rfl) ?_ fun h => ?_
  · cases t <;> simp [instrWords, e0, HalfT.code]
  · cases t <;> simp [decodeRaw, decodeOp02, e0, e1, e2, e3, e4, e5, HalfT.code, HalfT.ofCode]

theorem fminF64 (d : VOp) (a : VOp) (b : VOp) : Statement (.fminF64 d a b) := by
  obtain ⟨wd, ep, el, ef⟩ := word_of [(7, d.code), (7, a.code), (7, b.code), (5, 3), (6, 4)]
    ⟨d.code_lt, a.code_lt, b.code_lt, by decide, by decide, trivial⟩ rfl
  have e0 : fld wd 31 26 = 4 := ef 4 5 _ rfl
  have e1 : fld wd 25 21 = 3 := ef 3 4 _ rfl
  have e2 : fld wd 6 0 = d.code := ef 0 6 _ rfl
  have e3 : fld wd 13 7 = a.code := ef 1 6 _ rfl
  have e4 : fld wd 20 14 = b.code := ef 2 6 _ rfl
  refine oneWord rfl (by rw [ep]; simp only [packs]; omega) el e0 rfl ?_ fun h => ?_
  · simp [instrWords, e0]
  · simp [decodeRaw, decodeOp04, e0, e1, e2, e3, e4]

theorem fminFp8 (t : Fp8T) (d : VOp) (a : VOp) (b : VOp) : Statement (.fminFp8 t d a b) := by
  obtain ⟨wd, ep, el, ef⟩ := word_of [(7, d.code), (7, a.code), (7, b.code), (5, 3 + t.code * 16), (6, 5)]
    ⟨d.code_lt, a.code_lt, b.code_lt, by have := t.code_lt; omega, by decide, trivial⟩ rfl
  have e0 : fld wd 31 26 = 5 := ef 4 5 _ rfl
  have e1 : fld wd 25 21 = 3 + t.code * 16 := ef 3 4 _ rfl
  have e2 := fld_within e1 25 25 (by decide) (by decide) (by decide)
  have e3 : fld wd 6 0 = d.code := ef 0 6 _ rfl
  have e4 : fld wd 13 7 = a.code := ef 1 6 _ rfl
  have e5 : fld wd 20 14 = b.code := ef 2 6 _ rfl
  refine oneWord rfl (by rw [ep]; simp only [packs]; omega) el e0 rfl ?_ fun h => ?_
  · simp [instrWords, e0]
  · cases t <;> simp [decodeRaw, decodeOp05, e0, e1, e2, e3, e4, e5, Fp8T.code, Fp8T.ofCode]

theorem fmaxF32 (d : VOp) (a : VOp) (b : VOp) : Statement (.fmaxF32 d a b) := by
  obtain ⟨wd, ep, el, ef⟩ := word_of [(7, d.code), (7, a.code), (7, b.code), (5, 4), (6, 1)]
    ⟨d.code_lt, a.code_lt, b.code_lt, by decide, by decide, trivial⟩ rfl
  have e0 : fld wd 31 26 = 1 := ef 4 5 _ rfl
  have e1 : fld wd 25 21 = 4 := ef 3 4 _ rfl
  have e2 : fld wd 6 0 = d.code := ef 0 6 _ rfl
  have e3 : fld wd 13 7 = a.code := ef 1 6 _ rfl
  have e4 : fld wd 20 14 = b.code := ef 2 6 _ rfl
  refine oneWord rfl (by rw [ep]; simp only [packs]; omega) el e0 rfl ?_ fun h => ?_
  · simp [instrWords, e0]
  · simp [decodeRaw, decodeOp01, e0, e1, e2, e3, e4]

theorem fmaxF16Bf16 (t : HalfT) (d : VOp) (a : VOp) (b : VOp) : Statement (.fmaxF16Bf16 t d a b) := by
  obtain ⟨wd, ep, el, ef⟩ := word_of [(7, d.code), (7, a.code), (7, b.code), (5, 4), (6, 2 + t.code)]
    ⟨d.code_lt, a.code_lt, b.code_lt, by decide, by have := t.code_lt; omega, trivial⟩ rfl
  have e0 : fld wd 31 26 = 2 + t.code := ef 4 5 _ rfl
  have e1 : fld wd 25 21 = 4 := ef 3 4 _ rfl
  have e2 := fld_within e0 26 26 (by decide) (by decide) (by decide)
  have e3 : fld wd 6 0 = d.code := ef 0 6 _ rfl
  have e4 : fld wd 13 7 = a.code := ef 1 6 _ rfl
  have e5 : fld wd 20 14 = b.code := ef 2 6 _ rfl
  refine oneWord rfl (by rw [ep]; simp only [packs]; omega) el e0 (by cases t <;> rfl) ?_ fun h => ?_
  · cases t <;> simp [instrWords, e0, HalfT.code]
  · cases t <;> simp [decodeRaw, decodeOp02, e0, e1, e2, e3, e4, e5, HalfT.code, HalfT.ofCode]

theorem fmaxF64 (d : VOp) (a : VOp) (b : VOp) : Statement (.fmaxF64 d a b) := by
  obtain ⟨wd, ep, el, ef⟩ := word_of [(7, d.code), (7, a.code), (7, b.code), (5, 4), (6, 4)]
    ⟨d.code_lt, a.code_lt, b.code_lt, by decide, by decide, trivial⟩ rfl
  have e0 : fld wd 31 26 = 4 := ef 4 5 _ rfl
  have e1 : fld wd 25 21 = 4 := ef 3 4 _ rfl
  have e2 : fld wd 6 0 = d.code := ef 0 6 _ rfl
  have e3 : fld wd 13 7 = a.code := ef 1 6 _ rfl
  have e4 : fld wd 20 14 = b.code := ef 2 6 _ rfl
  refine oneWord rfl (by rw [ep]; simp only [packs]; omega) el e0 rfl ?_ fun h => ?_
  · simp [instrWords, e0]
  · simp [decodeRaw, decodeOp04, e0, e1, e2, e3, e4]

theorem fmaxFp8 (t : Fp8T) (d : VOp) (a : VOp) (b : VOp) : Statement (.fmaxFp8 t d a b) := by
  obtain ⟨wd, ep, el, ef⟩ := word_of [(7, d.code), (7, a.code), (7, b.code), (5, 4 + t.code * 16), (6, 5)]
    ⟨d.code_lt, a.code_lt, b.code_lt, by have := t.code_lt; omega, by decide, trivial⟩ rfl
  have e0 : fld wd 31 26 = 5 := ef 4 5 _ rfl
  have e1 : fld wd 25 21 = 4 + t.code * 16 := ef 3 4 _ rfl
  have e2 := fld_within e1 25 25 (by decide) (by decide) (by decide)
  have e3 : fld wd 6 0 = d.code := ef 0 6 _ rfl
  have e4 : fld wd 13 7 = a.code := ef 1 6 _ rfl
  have e5 : fld wd 20 14 = b.code := ef 2 6 _ rfl
  refine oneWord rfl (by rw [ep]; simp only [packs]; omega) el e0 rfl ?_ fun h => ?_
  · simp [instrWords, e0]
  · cases t <;> simp [decodeRaw, decodeOp05, e0, e1, e2, e3, e4, e5, Fp8T.code, Fp8T.ofCode]

theorem fabsF32 (d : VOp) (a : VOp) : Statement (.fabsF32 d a) := by
  obtain ⟨wd, ep, el, ef⟩ := word_of [(7, d.code), (7, a.code), (7, 0), (5, 5), (6, 1)]
    ⟨d.code_lt, a.code_lt, by decide, by decide, by decide, trivial⟩ rfl
  have e0 : fld wd 31 26 = 1 := ef 4 5 _ rfl
  have e1 : fld wd 25 21 = 5 := ef 3 4 _ rfl
  have e2 : fld wd 20 14 = 0 := ef 2 6 _ rfl
  have e3 : fld wd 6 0 = d.code := ef 0 6 _ rfl
  have e4 : fld wd 13 7 = a.code := ef 1 6 _ rfl
  refine oneWord rfl (by rw [ep]; simp only [packs]; omega) el e0 rfl ?_ fun h => ?_
  · simp [instrWords, e0]
  · simp [decodeRaw, decodeOp01, e0, e1, e2, e3, e4]

theorem fabsF16Bf16 (t : HalfT) (d : VOp) (a : VOp) : Statement (.fabsF16Bf16 t d a) := by
  obtain ⟨wd, ep, el, ef⟩ := word_of [(7, d.code), (7, a.code), (7, 0), (5, 5), (6, 2 + t.code)]
    ⟨d.code_lt, a.code_lt, by decide, by decide, by have := t.code_lt; omega, trivial⟩ rfl
  have e0 : fld wd 31 26 = 2 + t.code := ef 4 5 _ rfl
  have e1 : fld wd 25 21 = 5 := ef 3 4 _ rfl
  have e2 : fld wd 20 14 = 0 := ef 2 6 _ rfl
  have e3 := fld_within e0 26 26 (by decide) (by decide) (by decide)
  have e4 : fld wd 6 0 = d.code := ef 0 6 _ rfl
  have e5 : fld wd 13 7 = a.code := ef 1 6 _ rfl
  refine oneWord rfl (by rw [ep]; simp only [packs]; omega) el e0 (by cases t <;> rfl) ?_ fun h => ?_
  · cases t <;> simp [instrWords, e0, HalfT.code]
  · cases t <;> simp [decodeRaw, decodeOp02, e0, e1, e2, e3, e4, e5, HalfT.code, HalfT.ofCode]

theorem fabsF64 (d : VOp) (a : VOp) : Statement (.fabsF64 d a) := by
  obtain ⟨wd, ep, el, ef⟩ := word_of [(7, d.code), (7, a.code), (7, 0), (5, 5), (6, 4)]
    ⟨d.code_lt, a.code_lt, by decide, by decide, by decide, trivial⟩ rfl
  have e0 : fld wd 31 26 = 4 := ef 4 5 _ rfl
  have e1 : fld wd 25 21 = 5 := ef 3 4 _ rfl
  have e2 : fld wd 20 14 = 0 := ef 2 6 _ rfl
  have e3 : fld wd 6 0 = d.code := ef 0 6 _ rfl
  have e4 : fld wd 13 7 = a.code := ef 1 6 _ rfl
  refine oneWord rfl (by rw [ep]; simp only [packs]; omega) el e0 rfl ?_ fun h => ?_
  · simp [instrWords, e0]
  · simp [decodeRaw, decodeOp04, e0, e1, e2, e3, e4]

theorem fabsFp8 (t : Fp8T) (d : VOp) (a : VOp) : Statement (.fabsFp8 t d a) := by
  obtain ⟨wd, ep, el, ef⟩ := word_of [(7, d.code), (7, a.code), (7, 0), (5, 5 + t.code * 16), (6, 5)]
    ⟨d.code_lt, a.code_lt, by decide, by have := t.code_lt; omega, by decide, trivial⟩ rfl
  have e0 : fld wd 31 26 = 5 := ef 4 5 _ rfl
  have e1 : fld wd 25 21 = 5 + t.code * 16 := ef 3 4 _ rfl
  have e2 : fld wd 20 14 = 0 := ef 2 6 _ rfl
  have e3 := fld_within e1 25 25 (by decide) (by decide) (by decide)
  have e4 : fld wd 6 0 = d.code := ef 0 6 _ rfl
  have e5 : fld wd 13 7 = a.code := ef 1 6 _ rfl
  refine oneWord rfl (by rw [ep]; simp only [packs]; omega) el e0 rfl ?_ fun h => ?_
  · simp [instrWords, e0]
  · cases t <;> simp [decodeRaw, decodeOp05, e0, e1, e2, e3, e4, e5, Fp8T.code, Fp8T.ofCode]

theorem fnegF32 (d : VOp) (a : VOp) : Statement (.fnegF32 d a) := by
  obtain ⟨wd, ep, el, ef⟩ := word_of [(7, d.code), (7, a.code), (7, 0), (5, 6), (6, 1)]
    ⟨d.code_lt, a.code_lt, by decide, by decide, by decide, trivial⟩ rfl
  have e0 : fld wd 31 26 = 1 := ef 4 5 _ rfl
  have e1 : fld wd 25 21 = 6 := ef 3 4 _ rfl
  have e2 : fld wd 20 14 = 0 := ef 2 6 _ rfl
  have e3 : fld wd 6 0 = d.code := ef 0 6 _ rfl
  have e4 : fld wd 13 7 = a.code := ef 1 6 _ rfl
  refine oneWord rfl (by rw [ep]; simp only [packs]; omega) el e0 rfl ?_ fun h => ?_
  · simp [instrWords, e0]
  · simp [decodeRaw, decodeOp01, e0, e1, e2, e3, e4]

theorem fnegF16Bf16 (t : HalfT) (d : VOp) (a : VOp) : Statement (.fnegF16Bf16 t d a) := by
  obtain ⟨wd, ep, el, ef⟩ := word_of [(7, d.code), (7, a.code), (7, 0), (5, 6), (6, 2 + t.code)]
    ⟨d.code_lt, a.code_lt, by decide, by decide, by have := t.code_lt; omega, trivial⟩ rfl
  have e0 : fld wd 31 26 = 2 + t.code := ef 4 5 _ rfl
  have e1 : fld wd 25 21 = 6 := ef 3 4 _ rfl
  have e2 : fld wd 20 14 = 0 := ef 2 6 _ rfl
  have e3 := fld_within e0 26 26 (by decide) (by decide) (by decide)
  have e4 : fld wd 6 0 = d.code := ef 0 6 _ rfl
  have e5 : fld wd 13 7 = a.code := ef 1 6 _ rfl
  refine oneWord rfl (by rw [ep]; simp only [packs]; omega) el e0 (by cases t <;> rfl) ?_ fun h => ?_
  · cases t <;> simp [instrWords, e0, HalfT.code]
  · cases t <;> simp [decodeRaw, decodeOp02, e0, e1, e2, e3, e4, e5, HalfT.code, HalfT.ofCode]

theorem fnegF64 (d : VOp) (a : VOp) : Statement (.fnegF64 d a) := by
  obtain ⟨wd, ep, el, ef⟩ := word_of [(7, d.code), (7, a.code), (7, 0), (5, 6), (6, 4)]
    ⟨d.code_lt, a.code_lt, by decide, by decide, by decide, trivial⟩ rfl
  have e0 : fld wd 31 26 = 4 := ef 4 5 _ rfl
  have e1 : fld wd 25 21 = 6 := ef 3 4 _ rfl
  have e2 : fld wd 20 14 = 0 := ef 2 6 _ rfl
  have e3 : fld wd 6 0 = d.code := ef 0 6 _ rfl
  have e4 : fld wd 13 7 = a.code := ef 1 6 _ rfl
  refine oneWord rfl (by rw [ep]; simp only [packs]; omega) el e0 rfl ?_ fun h => ?_
  · simp [instrWords, e0]
  · simp [decodeRaw, decodeOp04, e0, e1, e2, e3, e4]

theorem fnegFp8 (t : Fp8T) (d : VOp) (a : VOp) : Statement (.fnegFp8 t d a) := by
  obtain ⟨wd, ep, el, ef⟩ := word_of [(7, d.code), (7, a.code), (7, 0), (5, 6 + t.code * 16), (6, 5)]
    ⟨d.code_lt, a.code_lt, by decide, by have := t.code_lt; omega, by decide, trivial⟩ rfl
  have e0 : fld wd 31 26 = 5 := ef 4 5 _ rfl
  have e1 : fld wd 25 21 = 6 + t.code * 16 := ef 3 4 _ rfl
  have e2 : fld wd 20 14 = 0 := ef 2 6 _ rfl
  have e3 := fld_within e1 25 25 (by decide) (by decide) (by decide)
  have e4 : fld wd 6 0 = d.code := ef 0 6 _ rfl
  have e5 : fld wd 13 7 = a.code := ef 1 6 _ rfl
  refine oneWord rfl (by rw [ep]; simp only [packs]; omega) el e0 rfl ?_ fun h => ?_
  · simp [instrWords, e0]
  · cases t <;> simp [decodeRaw, decodeOp05, e0, e1, e2, e3, e4, e5, Fp8T.code, Fp8T.ofCode]

theorem fsatF32 (d : VOp) (a : VOp) : Statement (.fsatF32 d a) := by
  obtain ⟨wd, ep, el, ef⟩ := word_of [(7, d.code), (7, a.code), (7, 0), (5, 7), (6, 1)]
    ⟨d.code_lt, a.code_lt, by decide, by decide, by decide, trivial⟩ rfl
  have e0 : fld wd 31 26 = 1 := ef 4 5 _ rfl
  have e1 : fld wd 25 21 = 7 := ef 3 4 _ rfl
  have e2 : fld wd 20 14 = 0 := ef 2 6 _ rfl
  have e3 : fld wd 6 0 = d.code := ef 0 6 _ rfl
  have e4 : fld wd 13 7 = a.code := ef 1 6 _ rfl
  refine oneWord rfl (by rw [ep]; simp only [packs]; omega) el e0 rfl ?_ fun h => ?_
  · simp [instrWords, e0]
  · simp [decodeRaw, decodeOp01, e0, e1, e2, e3, e4]

theorem fsatF16Bf16 (t : HalfT) (d : VOp) (a : VOp) : Statement (.fsatF16Bf16 t d a) := by
  obtain ⟨wd, ep, el, ef⟩ := word_of [(7, d.code), (7, a.code), (7, 0), (5, 7), (6, 2 + t.code)]
    ⟨d.code_lt, a.code_lt, by decide, by decide, by have := t.code_lt; omega, trivial⟩ rfl
  have e0 : fld wd 31 26 = 2 + t.code := ef 4 5 _ rfl
  have e1 : fld wd 25 21 = 7 := ef 3 4 _ rfl
  have e2 : fld wd 20 14 = 0 := ef 2 6 _ rfl
  have e3 := fld_within e0 26 26 (by decide) (by decide) (by decide)
  have e4 : fld wd 6 0 = d.code := ef 0 6 _ rfl
  have e5 : fld wd 13 7 = a.code := ef 1 6 _ rfl
  refine oneWord rfl (by rw [ep]; simp only [packs]; omega) el e0 (by cases t <;> rfl) ?_ fun h => ?_
  · cases t <;> simp [instrWords, e0, HalfT.code]
  · cases t <;> simp [decodeRaw, decodeOp02, e0, e1, e2, e3, e4, e5, HalfT.code, HalfT.ofCode]

theorem fsatF64 (d : VOp) (a : VOp) : Statement (.fsatF64 d a) := by
  obtain ⟨wd, ep, el, ef⟩ := word_of [(7, d.code), (7, a.code), (7, 0), (5, 7), (6, 4)]
    ⟨d.code_lt, a.code_lt, by decide, by decide, by decide, trivial⟩ rfl
  have e0 : fld wd 31 26 = 4 := ef 4 5 _ rfl
  have e1 : fld wd 25 21 = 7 := ef 3 4 _ rfl
  have e2 : fld wd 20 14 = 0 := ef 2 6 _ rfl
  have e3 : fld wd 6 0 = d.code := ef 0 6 _ rfl
  have e4 : fld wd 13 7 = a.code := ef 1 6 _ rfl
  refine oneWord rfl (by rw [ep]; simp only [packs]; omega) el e0 rfl ?_ fun h => ?_
  · simp [instrWords, e0]
  · simp [decodeRaw, decodeOp04, e0, e1, e2, e3, e4]

theorem fsatFp8 (t : Fp8T) (d : VOp) (a : VOp) : Statement (.fsatFp8 t d a) := by
  obtain ⟨wd, ep, el, ef⟩ := word_of [(7, d.code), (7, a.code), (7, 0), (5, 7 + t.code * 16), (6, 5)]
    ⟨d.code_lt, a.code_lt, by decide, by have := t.code_lt; omega, by decide, trivial⟩ rfl
  have e0 : fld wd 31 26 = 5 := ef 4 5 _ rfl
  have e1 : fld wd 25 21 = 7 + t.code * 16 := ef 3 4 _ rfl
  have e2 : fld wd 20 14 = 0 := ef 2 6 _ rfl
  have e3 := fld_within e1 25 25 (by decide) (by decide) (by decide)
  have e4 : fld wd 6 0 = d.code := ef 0 6 _ rfl
  have e5 : fld wd 13 7 = a.code := ef 1 6 _ rfl
  refine oneWord rfl (by rw [ep]; simp only [packs]; omega) el e0 rfl ?_ fun h => ?_
  · simp [instrWords, e0]
  · cases t <;> simp [decodeRaw, decodeOp05, e0, e1, e2, e3, e4, e5, Fp8T.code, Fp8T.ofCode]

theorem frndF32 (m : RndDir) (d : VOp) (a : VOp) : Statement (.frndF32 m d a) := by
  obtain ⟨wd, ep, el, ef⟩ := word_of [(7, d.code), (7, a.code), (7, 0), (5, 8 + m.code), (6, 1)]
    ⟨d.code_lt, a.code_lt, by decide, by have := m.code_lt; omega, by decide, trivial⟩ rfl
  have e0 : fld wd 31 26 = 1 := ef 4 5 _ rfl
  have e1 : fld wd 25 21 = 8 + m.code := ef 3 4 _ rfl
  have e2 : fld wd 20 14 = 0 := ef 2 6 _ rfl
  have e3 := fld_within e1 22 21 (by decide) (by decide) (by decide)
  have e4 : fld wd 6 0 = d.code := ef 0 6 _ rfl
  have e5 : fld wd 13 7 = a.code := ef 1 6 _ rfl
  refine oneWord rfl (by rw [ep]; simp only [packs]; omega) el e0 rfl ?_ fun h => ?_
  · simp [instrWords, e0]
  · cases m <;> simp [decodeRaw, decodeOp01, e0, e1, e2, e3, e4, e5, RndDir.code, RndDir.ofCode]

theorem frndF16Bf16 (t : HalfT) (m : RndDir) (d : VOp) (a : VOp) : Statement (.frndF16Bf16 t m d a) := by
  obtain ⟨wd, ep, el, ef⟩ := word_of [(7, d.code), (7, a.code), (7, 0), (5, 8 + m.code), (6, 2 + t.code)]
    ⟨d.code_lt, a.code_lt, by decide, by have := m.code_lt; omega, by have := t.code_lt; omega, trivial⟩ rfl
  have e0 : fld wd 31 26 = 2 + t.code := ef 4 5 _ rfl
  have e1 : fld wd 25 21 = 8 + m.code := ef 3 4 _ rfl
  have e2 : fld wd 20 14 = 0 := ef 2 6 _ rfl
  have e3 := fld_within e0 26 26 (by decide) (by decide) (by decide)
  have e4 := fld_within e1 22 21 (by decide) (by decide) (by decide)
  have e5 : fld wd 6 0 = d.code := ef 0 6 _ rfl
  have e6 : fld wd 13 7 = a.code := ef 1 6 _ rfl
  refine oneWord rfl (by rw [ep]; simp only [packs]; omega) el e0 (by cases m <;> cases t <;> rfl) ?_ fun h => ?_
  · cases m <;> cases t <;> simp [instrWords, e0, HalfT.code]
  · cases m <;> cases t <;> simp [decodeRaw, decodeOp02, e0, e1, e2, e3, e4, e5, e6, HalfT.code, HalfT.ofCode, RndDir.code, RndDir.ofCode]

theorem frndF64 (m : RndDir) (d : VOp) (a : VOp) : Statement (.frndF64 m d a) := by
  obtain ⟨wd, ep, el, ef⟩ := word_of [(7, d.code), (7, a.code), (7, 0), (5, 8 + m.code), (6, 4)]
    ⟨d.code_lt, a.code_lt, by decide, by have := m.code_lt; omega, by decide, trivial⟩ rfl
  have e0 : fld wd 31 26 = 4 := ef 4 5 _ rfl
  have e1 : fld wd 25 21 = 8 + m.code := ef 3 4 _ rfl
  have e2 : fld wd 20 14 = 0 := ef 2 6 _ rfl
  have e3 := fld_within e1 22 21 (by decide) (by decide) (by decide)
  have e4 : fld wd 6 0 = d.code := ef 0 6 _ rfl
  have e5 : fld wd 13 7 = a.code := ef 1 6 _ rfl
  refine oneWord rfl (by rw [ep]; simp only [packs]; omega) el e0 rfl ?_ fun h => ?_
  · simp [instrWords, e0]
  · cases m <;> simp [decodeRaw, decodeOp04, e0, e1, e2, e3, e4, e5, RndDir.code, RndDir.ofCode]

theorem fdivF32 (d : VOp) (a : VOp) (b : VOp) : Statement (.fdivF32 d a b) := by
  obtain ⟨wd, ep, el, ef⟩ := word_of [(7, d.code), (7, a.code), (7, b.code), (5, 12), (6, 1)]
    ⟨d.code_lt, a.code_lt, b.code_lt, by decide, by decide, trivial⟩ rfl
  have e0 : fld wd 31 26 = 1 := ef 4 5 _ rfl
  have e1 : fld wd 25 21 = 12 := ef 3 4 _ rfl
  have e2 : fld wd 6 0 = d.code := ef 0 6 _ rfl
  have e3 : fld wd 13 7 = a.code := ef 1 6 _ rfl
  have e4 : fld wd 20 14 = b.code := ef 2 6 _ rfl
  refine oneWord rfl (by rw [ep]; simp only [packs]; omega) el e0 rfl ?_ fun h => ?_
  · simp [instrWords, e0]
  · simp [decodeRaw, decodeOp01, e0, e1, e2, e3, e4]

theorem fdivF64 (d : VOp) (a : VOp) (b : VOp) : Statement (.fdivF64 d a b) := by
  obtain ⟨wd, ep, el, ef⟩ := word_of [(7, d.code), (7, a.code), (7, b.code), (5, 12), (6, 4)]
    ⟨d.code_lt, a.code_lt, b.code_lt, by decide, by decide, trivial⟩ rfl
  have e0 : fld wd 31 26 = 4 := ef 4 5 _ rfl
  have e1 : fld wd 25 21 = 12 := ef 3 4 _ rfl
  have e2 : fld wd 6 0 = d.code := ef 0 6 _ rfl
  have e3 : fld wd 13 7 = a.code := ef 1 6 _ rfl
  have e4 : fld wd 20 14 = b.code := ef 2 6 _ rfl
  refine oneWord rfl (by rw [ep]; simp only [packs]; omega) el e0 rfl ?_ fun h => ?_
  · simp [instrWords, e0]
  · simp [decodeRaw, decodeOp04, e0, e1, e2, e3, e4]

theorem fsqrtF32 (d : VOp) (a : VOp) : Statement (.fsqrtF32 d a) := by
  obtain ⟨wd, ep, el, ef⟩ := word_of [(7, d.code), (7, a.code), (7, 0), (5, 13), (6, 1)]
    ⟨d.code_lt, a.code_lt, by decide, by decide, by decide, trivial⟩ rfl
  have e0 : fld wd 31 26 = 1 := ef 4 5 _ rfl
  have e1 : fld wd 25 21 = 13 := ef 3 4 _ rfl
  have e2 : fld wd 20 14 = 0 := ef 2 6 _ rfl
  have e3 : fld wd 6 0 = d.code := ef 0 6 _ rfl
  have e4 : fld wd 13 7 = a.code := ef 1 6 _ rfl
  refine oneWord rfl (by rw [ep]; simp only [packs]; omega) el e0 rfl ?_ fun h => ?_
  · simp [instrWords, e0]
  · simp [decodeRaw, decodeOp01, e0, e1, e2, e3, e4]

theorem fsqrtF64 (d : VOp) (a : VOp) : Statement (.fsqrtF64 d a) := by
  obtain ⟨wd, ep, el, ef⟩ := word_of [(7, d.code), (7, a.code), (7, 0), (5, 13), (6, 4)]
    ⟨d.code_lt, a.code_lt, by decide, by decide, by decide, trivial⟩ rfl
  have e0 : fld wd 31 26 = 4 := ef 4 5 _ rfl
  have e1 : fld wd 25 21 = 13 := ef 3 4 _ rfl
  have e2 : fld wd 20 14 = 0 := ef 2 6 _ rfl
  have e3 : fld wd 6 0 = d.code := ef 0 6 _ rfl
  have e4 : fld wd 13 7 = a.code := ef 1 6 _ rfl
  refine oneWord rfl (by rw [ep]; simp only [packs]; omega) el e0 rfl ?_ fun h => ?_
  · simp [instrWords, e0]
  · simp [decodeRaw, decodeOp04, e0, e1, e2, e3, e4]

theorem ffmaF32 (d : VOp) (a : VOp) (b : VOp) : Statement (.ffmaF32 d a b) := by
  obtain ⟨wd, ep, el, ef⟩ := word_of [(7, d.code), (7, a.code), (7, b.code), (5, 0), (6, 6)]
    ⟨d.code_lt, a.code_lt, b.code_lt, by decide, by decide, trivial⟩ rfl
  have e0 : fld wd 31 26 = 6 := ef 4 5 _ rfl
  have e1 : fld wd 25 21 = 0 := ef 3 4 _ rfl
  have e2 : fld wd 6 0 = d.code := ef 0 6 _ rfl
  have e3 : fld wd 13 7 = a.code := ef 1 6 _ rfl
  have e4 : fld wd 20 14 = b.code := ef 2 6 _ rfl
  refine oneWord rfl (by rw [ep]; simp only [packs]; omega) el e0 rfl ?_ fun h => ?_
  · simp [instrWords, e0]
  · simp [decodeRaw, decodeOp06, e0, e1, e2, e3, e4]

theorem ffmsF32 (d : VOp) (a : VOp) (b : VOp) : Statement (.ffmsF32 d a b) := by
  obtain ⟨wd, ep, el, ef⟩ := word_of [(7, d.code), (7, a.code), (7, b.code), (5, 1), (6, 6)]
    ⟨d.code_lt, a.code_lt, b.code_lt, by decide, by decide, trivial⟩ rfl
  have e0 : fld wd 31 26 = 6 := ef 4 5 _ rfl
  have e1 : fld wd 25 21 = 1 := ef 3 4 _ rfl
  have e2 : fld wd 6 0 = d.code := ef 0 6 _ rfl
  have e3 : fld wd 13 7 = a.code := ef 1 6 _ rfl
  have e4 : fld wd 20 14 = b.code := ef 2 6 _ rfl
  refine oneWord rfl (by rw [ep]; simp only [packs]; omega) el e0 rfl ?_ fun h => ?_
  · simp [instrWords, e0]
  · simp [decodeRaw, decodeOp06, e0, e1, e2, e3, e4]

theorem ffnmaF32 (d : VOp) (a : VOp) (b : VOp) : Statement (.ffnmaF32 d a b) := by
  obtain ⟨wd, ep, el, ef⟩ := word_of [(7, d.code), (7, a.code), (7, b.code), (5, 2), (6, 6)]
    ⟨d.code_lt, a.code_lt, b.code_lt, by decide, by decide, trivial⟩ rfl
  have e0 : fld wd 31 26 = 6 := ef 4 5 _ rfl
  have e1 : fld wd 25 21 = 2 := ef 3 4 _ rfl
  have e2 : fld wd 6 0 = d.code := ef 0 6 _ rfl
  have e3 : fld wd 13 7 = a.code := ef 1 6 _ rfl
  have e4 : fld wd 20 14 = b.code := ef 2 6 _ rfl
  refine oneWord rfl (by rw [ep]; simp only [packs]; omega) el e0 rfl ?_ fun h => ?_
  · simp [instrWords, e0]
  · simp [decodeRaw, decodeOp06, e0, e1, e2, e3, e4]

theorem ffmaF16 (d : VOp) (a : VOp) (b : VOp) : Statement (.ffmaF16 d a b) := by
  obtain ⟨wd, ep, el, ef⟩ := word_of [(7, d.code), (7, a.code), (7, b.code), (5, 3), (6, 6)]
    ⟨d.code_lt, a.code_lt, b.code_lt, by decide, by decide, trivial⟩ rfl
  have e0 : fld wd 31 26 = 6 := ef 4 5 _ rfl
  have e1 : fld wd 25 21 = 3 := ef 3 4 _ rfl
  have e2 : fld wd 6 0 = d.code := ef 0 6 _ rfl
  have e3 : fld wd 13 7 = a.code := ef 1 6 _ rfl
  have e4 : fld wd 20 14 = b.code := ef 2 6 _ rfl
  refine oneWord rfl (by rw [ep]; simp only [packs]; omega) el e0 rfl ?_ fun h => ?_
  · simp [instrWords, e0]
  · simp [decodeRaw, decodeOp06, e0, e1, e2, e3, e4]

theorem ffmaBf16 (d : VOp) (a : VOp) (b : VOp) : Statement (.ffmaBf16 d a b) := by
  obtain ⟨wd, ep, el, ef⟩ := word_of [(7, d.code), (7, a.code), (7, b.code), (5, 4), (6, 6)]
    ⟨d.code_lt, a.code_lt, b.code_lt, by decide, by decide, trivial⟩ rfl
  have e0 : fld wd 31 26 = 6 := ef 4 5 _ rfl
  have e1 : fld wd 25 21 = 4 := ef 3 4 _ rfl
  have e2 : fld wd 6 0 = d.code := ef 0 6 _ rfl
  have e3 : fld wd 13 7 = a.code := ef 1 6 _ rfl
  have e4 : fld wd 20 14 = b.code := ef 2 6 _ rfl
  refine oneWord rfl (by rw [ep]; simp only [packs]; omega) el e0 rfl ?_ fun h => ?_
  · simp [instrWords, e0]
  · simp [decodeRaw, decodeOp06, e0, e1, e2, e3, e4]

theorem ffmaF64 (d : VOp) (a : VOp) (b : VOp) : Statement (.ffmaF64 d a b) := by
  obtain ⟨wd, ep, el, ef⟩ := word_of [(7, d.code), (7, a.code), (7, b.code), (5, 5), (6, 6)]
    ⟨d.code_lt, a.code_lt, b.code_lt, by decide, by decide, trivial⟩ rfl
  have e0 : fld wd 31 26 = 6 := ef 4 5 _ rfl
  have e1 : fld wd 25 21 = 5 := ef 3 4 _ rfl
  have e2 : fld wd 6 0 = d.code := ef 0 6 _ rfl
  have e3 : fld wd 13 7 = a.code := ef 1 6 _ rfl
  have e4 : fld wd 20 14 = b.code := ef 2 6 _ rfl
  refine oneWord rfl (by rw [ep]; simp only [packs]; omega) el e0 rfl ?_ fun h => ?_
  · simp [instrWords, e0]
  · simp [decodeRaw, decodeOp06, e0, e1, e2, e3, e4]

theorem fdot2F16 (d : VOp) (a : VOp) (b : VOp) : Statement (.fdot2F16 d a b) := by
  obtain ⟨wd, ep, el, ef⟩ := word_of [(7, d.code), (7, a.code), (7, b.code), (5, 6), (6, 6)]
    ⟨d.code_lt, a.code_lt, b.code_lt, by decide, by decide, trivial⟩ rfl
  have e0 : fld wd 31 26 = 6 := ef 4 5 _ rfl
  have e1 : fld wd 25 21 = 6 := ef 3 4 _ rfl
  have e2 : fld wd 6 0 = d.code := ef 0 6 _ rfl
  have e3 : fld wd 13 7 = a.code := ef 1 6 _ rfl
  have e4 : fld wd 20 14 = b.code := ef 2 6 _ rfl
  refine oneWord rfl (by rw [ep]; simp only [packs]; omega) el e0 rfl ?_ fun h => ?_
  · simp [instrWords, e0]
  · simp [decodeRaw, decodeOp06, e0, e1, e2, e3, e4]

theorem fdot2Bf16 (d : VOp) (a : VOp) (b : VOp) : Statement (.fdot2Bf16 d a b) := by
  obtain ⟨wd, ep, el, ef⟩ := word_of [(7, d.code), (7, a.code), (7, b.code), (5, 7), (6, 6)]
    ⟨d.code_lt, a.code_lt, b.code_lt, by decide, by decide, trivial⟩ rfl
  have e0 : fld wd 31 26 = 6 := ef 4 5 _ rfl
  have e1 : fld wd 25 21 = 7 := ef 3 4 _ rfl
  have e2 : fld wd 6 0 = d.code := ef 0 6 _ rfl
  have e3 : fld wd 13 7 = a.code := ef 1 6 _ rfl
  have e4 : fld wd 20 14 = b.code := ef 2 6 _ rfl
  refine oneWord rfl (by rw [ep]; simp only [packs]; omega) el e0 rfl ?_ fun h => ?_
  · simp [instrWords, e0]
  · simp [decodeRaw, decodeOp06, e0, e1, e2, e3, e4]

theorem fdot4E4m3 (d : VOp) (a : VOp) (b : VOp) : Statement (.fdot4E4m3 d a b) := by
  obtain ⟨wd, ep, el, ef⟩ := word_of [(7, d.code), (7, a.code), (7, b.code), (5, 8), (6, 6)]
    ⟨d.code_lt, a.code_lt, b.code_lt, by decide, by decide, trivial⟩ rfl
  have e0 : fld wd 31 26 = 6 := ef 4 5 _ rfl
  have e1 : fld wd 25 21 = 8 := ef 3 4 _ rfl
  have e2 : fld wd 6 0 = d.code := ef 0 6 _ rfl
  have e3 : fld wd 13 7 = a.code := ef 1 6 _ rfl
  have e4 : fld wd 20 14 = b.code := ef 2 6 _ rfl
  refine oneWord rfl (by rw [ep]; simp only [packs]; omega) el e0 rfl ?_ fun h => ?_
  · simp [instrWords, e0]
  · simp [decodeRaw, decodeOp06, e0, e1, e2, e3, e4]

theorem fdot4E5m2 (d : VOp) (a : VOp) (b : VOp) : Statement (.fdot4E5m2 d a b) := by
  obtain ⟨wd, ep, el, ef⟩ := word_of [(7, d.code), (7, a.code), (7, b.code), (5, 9), (6, 6)]
    ⟨d.code_lt, a.code_lt, b.code_lt, by decide, by decide, trivial⟩ rfl
  have e0 : fld wd 31 26 = 6 := ef 4 5 _ rfl
  have e1 : fld wd 25 21 = 9 := ef 3 4 _ rfl
  have e2 : fld wd 6 0 = d.code := ef 0 6 _ rfl
  have e3 : fld wd 13 7 = a.code := ef 1 6 _ rfl
  have e4 : fld wd 20 14 = b.code := ef 2 6 _ rfl
  refine oneWord rfl (by rw [ep]; simp only [packs]; omega) el e0 rfl ?_ fun h => ?_
  · simp [instrWords, e0]
  · simp [decodeRaw, decodeOp06, e0, e1, e2, e3, e4]

theorem idot4Ii (d : VOp) (a : VOp) (b : VOp) : Statement (.idot4Ii d a b) := by
  obtain ⟨wd, ep, el, ef⟩ := word_of [(7, d.code), (7, a.code), (7, b.code), (5, 10), (6, 6)]
    ⟨d.code_lt, a.code_lt, b.code_lt, by decide, by decide, trivial⟩ rfl
  have e0 : fld wd 31 26 = 6 := ef 4 5 _ rfl
  have e1 : fld wd 25 21 = 10 := ef 3 4 _ rfl
  have e2 : fld wd 6 0 = d.code := ef 0 6 _ rfl
  have e3 : fld wd 13 7 = a.code := ef 1 6 _ rfl
  have e4 : fld wd 20 14 = b.code := ef 2 6 _ rfl
  refine oneWord rfl (by rw [ep]; simp only [packs]; omega) el e0 rfl ?_ fun h => ?_
  · simp [instrWords, e0]
  · simp [decodeRaw, decodeOp06, e0, e1, e2, e3, e4]

theorem idot4In (d : VOp) (a : VOp) (b : VOp) : Statement (.idot4In d a b) := by
  obtain ⟨wd, ep, el, ef⟩ := word_of [(7, d.code), (7, a.code), (7, b.code), (5, 11), (6, 6)]
    ⟨d.code_lt, a.code_lt, b.code_lt, by decide, by decide, trivial⟩ rfl
  have e0 : fld wd 31 26 = 6 := ef 4 5 _ rfl
  have e1 : fld wd 25 21 = 11 := ef 3 4 _ rfl
  have e2 : fld wd 6 0 = d.code := ef 0 6 _ rfl
  have e3 : fld wd 13 7 = a.code := ef 1 6 _ rfl
  have e4 : fld wd 20 14 = b.code := ef 2 6 _ rfl
  refine oneWord rfl (by rw [ep]; simp only [packs]; omega) el e0 rfl ?_ fun h => ?_
  · simp [instrWords, e0]
  · simp [decodeRaw, decodeOp06, e0, e1, e2, e3, e4]

theorem idot4Ni (d : VOp) (a : VOp) (b : VOp) : Statement (.idot4Ni d a b) := by
  obtain ⟨wd, ep, el, ef⟩ := word_of [(7, d.code), (7, a.code), (7, b.code), (5, 12), (6, 6)]
    ⟨d.code_lt, a.code_lt, b.code_lt, by decide, by decide, trivial⟩ rfl
  have e0 : fld wd 31 26 = 6 := ef 4 5 _ rfl
  have e1 : fld wd 25 21 = 12 := ef 3 4 _ rfl
  have e2 : fld wd 6 0 = d.code := ef 0 6 _ rfl
  have e3 : fld wd 13 7 = a.code := ef 1 6 _ rfl
  have e4 : fld wd 20 14 = b.code := ef 2 6 _ rfl
  refine oneWord rfl (by rw [ep]; simp only [packs]; omega) el e0 rfl ?_ fun h => ?_
  · simp [instrWords, e0]
  · simp [decodeRaw, decodeOp06, e0, e1, e2, e3, e4]

theorem idot4Nn (d : VOp) (a : VOp) (b : VOp) : Statement (.idot4Nn d a b) := by
  obtain ⟨wd, ep, el, ef⟩ := word_of [(7, d.code), (7, a.code), (7, b.code), (5, 13), (6, 6)]
    ⟨d.code_lt, a.code_lt, b.code_lt, by decide, by decide, trivial⟩ rfl
  have e0 : fld wd 31 26 = 6 := ef 4 5 _ rfl
  have e1 : fld wd 25 21 = 13 := ef 3 4 _ rfl
  have e2 : fld wd 6 0 = d.code := ef 0 6 _ rfl
  have e3 : fld wd 13 7 = a.code := ef 1 6 _ rfl
  have e4 : fld wd 20 14 = b.code := ef 2 6 _ rfl
  refine oneWord rfl (by rw [ep]; simp only [packs]; omega) el e0 rfl ?_ fun h => ?_
  · simp [instrWords, e0]
  · simp [decodeRaw, decodeOp06, e0, e1, e2, e3, e4]

theorem iadd (d : VOp) (a : VOp) (b : VOp) : Statement (.iadd d a b) := by
  obtain ⟨wd, ep, el, ef⟩ := word_of [(7, d.code), (7, a.code), (7, b.code), (5, 0), (6, 7)]
    ⟨d.code_lt, a.code_lt, b.code_lt, by decide, by decide, trivial⟩ rfl
  have e0 : fld wd 31 26 = 7 := ef 4 5 _ rfl
  have e1 : fld wd 25 21 = 0 := ef 3 4 _ rfl
  have e2 : fld wd 6 0 = d.code := ef 0 6 _ rfl
  have e3 : fld wd 13 7 = a.code := ef 1 6 _ rfl
  have e4 : fld wd 20 14 = b.code := ef 2 6 _ rfl
  refine oneWord rfl (by rw [ep]; simp only [packs]; omega) el e0 rfl ?_ fun h => ?_
  · simp [instrWords, e0]
  · simp [decodeRaw, decodeOp07, e0, e1, e2, e3, e4]

theorem isub (d : VOp) (a : VOp) (b : VOp) : Statement (.isub d a b) := by
  obtain ⟨wd, ep, el, ef⟩ := word_of [(7, d.code), (7, a.code), (7, b.code), (5, 1), (6, 7)]
    ⟨d.code_lt, a.code_lt, b.code_lt, by decide, by decide, trivial⟩ rfl
  have e0 : fld wd 31 26 = 7 := ef 4 5 _ rfl
  have e1 : fld wd 25 21 = 1 := ef 3 4 _ rfl
  have e2 : fld wd 6 0 = d.code := ef 0 6 _ rfl
  have e3 : fld wd 13 7 = a.code := ef 1 6 _ rfl
  have e4 : fld wd 20 14 = b.code := ef 2 6 _ rfl
  refine oneWord rfl (by rw [ep]; simp only [packs]; omega) el e0 rfl ?_ fun h => ?_
  · simp [instrWords, e0]
  · simp [decodeRaw, decodeOp07, e0, e1, e2, e3, e4]

theorem imul (d : VOp) (a : VOp) (b : VOp) : Statement (.imul d a b) := by
  obtain ⟨wd, ep, el, ef⟩ := word_of [(7, d.code), (7, a.code), (7, b.code), (5, 2), (6, 7)]
    ⟨d.code_lt, a.code_lt, b.code_lt, by decide, by decide, trivial⟩ rfl
  have e0 : fld wd 31 26 = 7 := ef 4 5 _ rfl
  have e1 : fld wd 25 21 = 2 := ef 3 4 _ rfl
  have e2 : fld wd 6 0 = d.code := ef 0 6 _ rfl
  have e3 : fld wd 13 7 = a.code := ef 1 6 _ rfl
  have e4 : fld wd 20 14 = b.code := ef 2 6 _ rfl
  refine oneWord rfl (by rw [ep]; simp only [packs]; omega) el e0 rfl ?_ fun h => ?_
  · simp [instrWords, e0]
  · simp [decodeRaw, decodeOp07, e0, e1, e2, e3, e4]

theorem imulhI32 (d : VOp) (a : VOp) (b : VOp) : Statement (.imulhI32 d a b) := by
  obtain ⟨wd, ep, el, ef⟩ := word_of [(7, d.code), (7, a.code), (7, b.code), (5, 3), (6, 7)]
    ⟨d.code_lt, a.code_lt, b.code_lt, by decide, by decide, trivial⟩ rfl
  have e0 : fld wd 31 26 = 7 := ef 4 5 _ rfl
  have e1 : fld wd 25 21 = 3 := ef 3 4 _ rfl
  have e2 : fld wd 6 0 = d.code := ef 0 6 _ rfl
  have e3 : fld wd 13 7 = a.code := ef 1 6 _ rfl
  have e4 : fld wd 20 14 = b.code := ef 2 6 _ rfl
  refine oneWord rfl (by rw [ep]; simp only [packs]; omega) el e0 rfl ?_ fun h => ?_
  · simp [instrWords, e0]
  · simp [decodeRaw, decodeOp07, e0, e1, e2, e3, e4]

theorem imulhN32 (d : VOp) (a : VOp) (b : VOp) : Statement (.imulhN32 d a b) := by
  obtain ⟨wd, ep, el, ef⟩ := word_of [(7, d.code), (7, a.code), (7, b.code), (5, 4), (6, 7)]
    ⟨d.code_lt, a.code_lt, b.code_lt, by decide, by decide, trivial⟩ rfl
  have e0 : fld wd 31 26 = 7 := ef 4 5 _ rfl
  have e1 : fld wd 25 21 = 4 := ef 3 4 _ rfl
  have e2 : fld wd 6 0 = d.code := ef 0 6 _ rfl
  have e3 : fld wd 13 7 = a.code := ef 1 6 _ rfl
  have e4 : fld wd 20 14 = b.code := ef 2 6 _ rfl
  refine oneWord rfl (by rw [ep]; simp only [packs]; omega) el e0 rfl ?_ fun h => ?_
  · simp [instrWords, e0]
  · simp [decodeRaw, decodeOp07, e0, e1, e2, e3, e4]

theorem imad (d : VOp) (a : VOp) (b : VOp) : Statement (.imad d a b) := by
  obtain ⟨wd, ep, el, ef⟩ := word_of [(7, d.code), (7, a.code), (7, b.code), (5, 5), (6, 7)]
    ⟨d.code_lt, a.code_lt, b.code_lt, by decide, by decide, trivial⟩ rfl
  have e0 : fld wd 31 26 = 7 := ef 4 5 _ rfl
  have e1 : fld wd 25 21 = 5 := ef 3 4 _ rfl
  have e2 : fld wd 6 0 = d.code := ef 0 6 _ rfl
  have e3 : fld wd 13 7 = a.code := ef 1 6 _ rfl
  have e4 : fld wd 20 14 = b.code := ef 2 6 _ rfl
  refine oneWord rfl (by rw [ep]; simp only [packs]; omega) el e0 rfl ?_ fun h => ?_
  · simp [instrWords, e0]
  · simp [decodeRaw, decodeOp07, e0, e1, e2, e3, e4]

theorem iminI32 (d : VOp) (a : VOp) (b : VOp) : Statement (.iminI32 d a b) := by
  obtain ⟨wd, ep, el, ef⟩ := word_of [(7, d.code), (7, a.code), (7, b.code), (5, 6), (6, 7)]
    ⟨d.code_lt, a.code_lt, b.code_lt, by decide, by decide, trivial⟩ rfl
  have e0 : fld wd 31 26 = 7 := ef 4 5 _ rfl
  have e1 : fld wd 25 21 = 6 := ef 3 4 _ rfl
  have e2 : fld wd 6 0 = d.code := ef 0 6 _ rfl
  have e3 : fld wd 13 7 = a.code := ef 1 6 _ rfl
  have e4 : fld wd 20 14 = b.code := ef 2 6 _ rfl
  refine oneWord rfl (by rw [ep]; simp only [packs]; omega) el e0 rfl ?_ fun h => ?_
  · simp [instrWords, e0]
  · simp [decodeRaw, decodeOp07, e0, e1, e2, e3, e4]

theorem imaxI32 (d : VOp) (a : VOp) (b : VOp) : Statement (.imaxI32 d a b) := by
  obtain ⟨wd, ep, el, ef⟩ := word_of [(7, d.code), (7, a.code), (7, b.code), (5, 7), (6, 7)]
    ⟨d.code_lt, a.code_lt, b.code_lt, by decide, by decide, trivial⟩ rfl
  have e0 : fld wd 31 26 = 7 := ef 4 5 _ rfl
  have e1 : fld wd 25 21 = 7 := ef 3 4 _ rfl
  have e2 : fld wd 6 0 = d.code := ef 0 6 _ rfl
  have e3 : fld wd 13 7 = a.code := ef 1 6 _ rfl
  have e4 : fld wd 20 14 = b.code := ef 2 6 _ rfl
  refine oneWord rfl (by rw [ep]; simp only [packs]; omega) el e0 rfl ?_ fun h => ?_
  · simp [instrWords, e0]
  · simp [decodeRaw, decodeOp07, e0, e1, e2, e3, e4]

theorem iminN32 (d : VOp) (a : VOp) (b : VOp) : Statement (.iminN32 d a b) := by
  obtain ⟨wd, ep, el, ef⟩ := word_of [(7, d.code), (7, a.code), (7, b.code), (5, 8), (6, 7)]
    ⟨d.code_lt, a.code_lt, b.code_lt, by decide, by decide, trivial⟩ rfl
  have e0 : fld wd 31 26 = 7 := ef 4 5 _ rfl
  have e1 : fld wd 25 21 = 8 := ef 3 4 _ rfl
  have e2 : fld wd 6 0 = d.code := ef 0 6 _ rfl
  have e3 : fld wd 13 7 = a.code := ef 1 6 _ rfl
  have e4 : fld wd 20 14 = b.code := ef 2 6 _ rfl
  refine oneWord rfl (by rw [ep]; simp only [packs]; omega) el e0 rfl ?_ fun h => ?_
  · simp [instrWords, e0]
  · simp [decodeRaw, decodeOp07, e0, e1, e2, e3, e4]

theorem imaxN32 (d : VOp) (a : VOp) (b : VOp) : Statement (.imaxN32 d a b) := by
  obtain ⟨wd, ep, el, ef⟩ := word_of [(7, d.code), (7, a.code), (7, b.code), (5, 9), (6, 7)]
    ⟨d.code_lt, a.code_lt, b.code_lt, by decide, by decide, trivial⟩ rfl
  have e0 : fld wd 31 26 = 7 := ef 4 5 _ rfl
  have e1 : fld wd 25 21 = 9 := ef 3 4 _ rfl
  have e2 : fld wd 6 0 = d.code := ef 0 6 _ rfl
  have e3 : fld wd 13 7 = a.code := ef 1 6 _ rfl
  have e4 : fld wd 20 14 = b.code := ef 2 6 _ rfl
  refine oneWord rfl (by rw [ep]; simp only [packs]; omega) el e0 rfl ?_ fun h => ?_
  · simp [instrWords, e0]
  · simp [decodeRaw, decodeOp07, e0, e1, e2, e3, e4]

theorem iabs (d : VOp) (a : VOp) : Statement (.iabs d a) := by
  obtain ⟨wd, ep, el, ef⟩ := word_of [(7, d.code), (7, a.code), (7, 0), (5, 10), (6, 7)]
    ⟨d.code_lt, a.code_lt, by decide, by decide, by decide, trivial⟩ rfl
  have e0 : fld wd 31 26 = 7 := ef 4 5 _ rfl
  have e1 : fld wd 25 21 = 10 := ef 3 4 _ rfl
  have e2 : fld wd 20 14 = 0 := ef 2 6 _ rfl
  have e3 : fld wd 6 0 = d.code := ef 0 6 _ rfl
  have e4 : fld wd 13 7 = a.code := ef 1 6 _ rfl
  refine oneWord rfl (by rw [ep]; simp only [packs]; omega) el e0 rfl ?_ fun h => ?_
  · simp [instrWords, e0]
  · simp [decodeRaw, decodeOp07, e0, e1, e2, e3, e4]

theorem ineg (d : VOp) (a : VOp) : Statement (.ineg d a) := by
  obtain ⟨wd, ep, el, ef⟩ := word_of [(7, d.code), (7, a.code), (7, 0), (5, 11), (6, 7)]
    ⟨d.code_lt, a.code_lt, by decide, by decide, by decide, trivial⟩ rfl
  have e0 : fld wd 31 26 = 7 := ef 4 5 _ rfl
  have e1 : fld wd 25 21 = 11 := ef 3 4 _ rfl
  have e2 : fld wd 20 14 = 0 := ef 2 6 _ rfl
  have e3 : fld wd 6 0 = d.code := ef 0 6 _ rfl
  have e4 : fld wd 13 7 = a.code := ef 1 6 _ rfl
  refine oneWord rfl (by rw [ep]; simp only [packs]; omega) el e0 rfl ?_ fun h => ?_
  · simp [instrWords, e0]
  · simp [decodeRaw, decodeOp07, e0, e1, e2, e3, e4]

theorem iaddV (t : ValT) (d : VOp) (a : VOp) (b : VOp) : Statement (.iaddV t d a b) := by
  obtain ⟨wd, ep, el, ef⟩ := word_of [(7, d.code), (7, a.code), (7, b.code), (5, t.code * 8), (6, 8)]
    ⟨d.code_lt, a.code_lt, b.code_lt, by have := t.code_lt; omega, by decide, trivial⟩ rfl
  have e0 : fld wd 31 26 = 8 := ef 4 5 _ rfl
  have e1 : fld wd 25 21 = t.code * 8 := ef 3 4 _ rfl
  have e2 := fld_within e1 25 24 (by decide) (by decide) (by decide)
  have e3 : fld wd 6 0 = d.code := ef 0 6 _ rfl
  have e4 : fld wd 13 7 = a.code := ef 1 6 _ rfl
  have e5 : fld wd 20 14 = b.code := ef 2 6 _ rfl
  refine oneWord rfl (by rw [ep]; simp only [packs]; omega) el e0 rfl ?_ fun h => ?_
  · simp [instrWords, e0]
  · cases t <;> simp [decodeRaw, decodeOp08, e0, e1, e2, e3, e4, e5, ValT.code, ValT.ofCode]

theorem isubV (t : ValT) (d : VOp) (a : VOp) (b : VOp) : Statement (.isubV t d a b) := by
  obtain ⟨wd, ep, el, ef⟩ := word_of [(7, d.code), (7, a.code), (7, b.code), (5, 1 + t.code * 8), (6, 8)]
    ⟨d.code_lt, a.code_lt, b.code_lt, by have := t.code_lt; omega, by decide, trivial⟩ rfl
  have e0 : fld wd 31 26 = 8 := ef 4 5 _ rfl
  have e1 : fld wd 25 21 = 1 + t.code * 8 := ef 3 4 _ rfl
  have e2 := fld_within e1 25 24 (by decide) (by decide) (by decide)
  have e3 : fld wd 6 0 = d.code := ef 0 6 _ rfl
  have e4 : fld wd 13 7 = a.code := ef 1 6 _ rfl
  have e5 : fld wd 20 14 = b.code := ef 2 6 _ rfl
  refine oneWord rfl (by rw [ep]; simp only [packs]; omega) el e0 rfl ?_ fun h => ?_
  · simp [instrWords, e0]
  · cases t <;> simp [decodeRaw, decodeOp08, e0, e1, e2, e3, e4, e5, ValT.code, ValT.ofCode]

theorem imulV (t : ValT) (d : VOp) (a : VOp) (b : VOp) : Statement (.imulV t d a b) := by
  obtain ⟨wd, ep, el, ef⟩ := word_of [(7, d.code), (7, a.code), (7, b.code), (5, 2 + t.code * 8), (6, 8)]
    ⟨d.code_lt, a.code_lt, b.code_lt, by have := t.code_lt; omega, by decide, trivial⟩ rfl
  have e0 : fld wd 31 26 = 8 := ef 4 5 _ rfl
  have e1 : fld wd 25 21 = 2 + t.code * 8 := ef 3 4 _ rfl
  have e2 := fld_within e1 25 24 (by decide) (by decide) (by decide)
  have e3 : fld wd 6 0 = d.code := ef 0 6 _ rfl
  have e4 : fld wd 13 7 = a.code := ef 1 6 _ rfl
  have e5 : fld wd 20 14 = b.code := ef 2 6 _ rfl
  refine oneWord rfl (by rw [ep]; simp only [packs]; omega) el e0 rfl ?_ fun h => ?_
  · simp [instrWords, e0]
  · cases t <;> simp [decodeRaw, decodeOp08, e0, e1, e2, e3, e4, e5, ValT.code, ValT.ofCode]

theorem iminV (t : ValT) (d : VOp) (a : VOp) (b : VOp) : Statement (.iminV t d a b) := by
  obtain ⟨wd, ep, el, ef⟩ := word_of [(7, d.code), (7, a.code), (7, b.code), (5, 3 + t.code * 8), (6, 8)]
    ⟨d.code_lt, a.code_lt, b.code_lt, by have := t.code_lt; omega, by decide, trivial⟩ rfl
  have e0 : fld wd 31 26 = 8 := ef 4 5 _ rfl
  have e1 : fld wd 25 21 = 3 + t.code * 8 := ef 3 4 _ rfl
  have e2 := fld_within e1 25 24 (by decide) (by decide) (by decide)
  have e3 : fld wd 6 0 = d.code := ef 0 6 _ rfl
  have e4 : fld wd 13 7 = a.code := ef 1 6 _ rfl
  have e5 : fld wd 20 14 = b.code := ef 2 6 _ rfl
  refine oneWord rfl (by rw [ep]; simp only [packs]; omega) el e0 rfl ?_ fun h => ?_
  · simp [instrWords, e0]
  · cases t <;> simp [decodeRaw, decodeOp08, e0, e1, e2, e3, e4, e5, ValT.code, ValT.ofCode]

theorem imaxV (t : ValT) (d : VOp) (a : VOp) (b : VOp) : Statement (.imaxV t d a b) := by
  obtain ⟨wd, ep, el, ef⟩ := word_of [(7, d.code), (7, a.code), (7, b.code), (5, 4 + t.code * 8), (6, 8)]
    ⟨d.code_lt, a.code_lt, b.code_lt, by have := t.code_lt; omega, by decide, trivial⟩ rfl
  have e0 : fld wd 31 26 = 8 := ef 4 5 _ rfl
  have e1 : fld wd 25 21 = 4 + t.code * 8 := ef 3 4 _ rfl
  have e2 := fld_within e1 25 24 (by decide) (by decide) (by decide)
  have e3 : fld wd 6 0 = d.code := ef 0 6 _ rfl
  have e4 : fld wd 13 7 = a.code := ef 1 6 _ rfl
  have e5 : fld wd 20 14 = b.code := ef 2 6 _ rfl
  refine oneWord rfl (by rw [ep]; simp only [packs]; omega) el e0 rfl ?_ fun h => ?_
  · simp [instrWords, e0]
  · cases t <;> simp [decodeRaw, decodeOp08, e0, e1, e2, e3, e4, e5, ValT.code, ValT.ofCode]

theorem iabsV (t : ValT) (d : VOp) (a : VOp) : Statement (.iabsV t d a) := by
  obtain ⟨wd, ep, el, ef⟩ := word_of [(7, d.code), (7, a.code), (7, 0), (5, 5 + t.code * 8), (6, 8)]
    ⟨d.code_lt, a.code_lt, by decide, by have := t.code_lt; omega, by decide, trivial⟩ rfl
  have e0 : fld wd 31 26 = 8 := ef 4 5 _ rfl
  have e1 : fld wd 25 21 = 5 + t.code * 8 := ef 3 4 _ rfl
  have e2 : fld wd 20 14 = 0 := ef 2 6 _ rfl
  have e3 := fld_within e1 25 24 (by decide) (by decide) (by decide)
  have e4 : fld wd 6 0 = d.code := ef 0 6 _ rfl
  have e5 : fld wd 13 7 = a.code := ef 1 6 _ rfl
  refine oneWord rfl (by rw [ep]; simp only [packs]; omega) el e0 rfl ?_ fun h => ?_
  · simp [instrWords, e0]
  · cases t <;> simp [decodeRaw, decodeOp08, e0, e1, e2, e3, e4, e5, ValT.code, ValT.ofCode]

theorem and (d : VOp) (a : VOp) (b : VOp) : Statement (.and d a b) := by
  obtain ⟨wd, ep, el, ef⟩ := word_of [(7, d.code), (7, a.code), (7, b.code), (5, 0), (6, 9)]
    ⟨d.code_lt, a.code_lt, b.code_lt, by decide, by decide, trivial⟩ rfl
  have e0 : fld wd 31 26 = 9 := ef 4 5 _ rfl
  have e1 : fld wd 25 21 = 0 := ef 3 4 _ rfl
  have e2 : fld wd 6 0 = d.code := ef 0 6 _ rfl
  have e3 : fld wd 13 7 = a.code := ef 1 6 _ rfl
  have e4 : fld wd 20 14 = b.code := ef 2 6 _ rfl
  refine oneWord rfl (by rw [ep]; simp only [packs]; omega) el e0 rfl ?_ fun h => ?_
  · simp [instrWords, e0]
  · simp [decodeRaw, decodeOp09, e0, e1, e2, e3, e4]

theorem or (d : VOp) (a : VOp) (b : VOp) : Statement (.or d a b) := by
  obtain ⟨wd, ep, el, ef⟩ := word_of [(7, d.code), (7, a.code), (7, b.code), (5, 1), (6, 9)]
    ⟨d.code_lt, a.code_lt, b.code_lt, by decide, by decide, trivial⟩ rfl
  have e0 : fld wd 31 26 = 9 := ef 4 5 _ rfl
  have e1 : fld wd 25 21 = 1 := ef 3 4 _ rfl
  have e2 : fld wd 6 0 = d.code := ef 0 6 _ rfl
  have e3 : fld wd 13 7 = a.code := ef 1 6 _ rfl
  have e4 : fld wd 20 14 = b.code := ef 2 6 _ rfl
  refine oneWord rfl (by rw [ep]; simp only [packs]; omega) el e0 rfl ?_ fun h => ?_
  · simp [instrWords, e0]
  · simp [decodeRaw, decodeOp09, e0, e1, e2, e3, e4]

theorem xor (d : VOp) (a : VOp) (b : VOp) : Statement (.xor d a b) := by
  obtain ⟨wd, ep, el, ef⟩ := word_of [(7, d.code), (7, a.code), (7, b.code), (5, 2), (6, 9)]
    ⟨d.code_lt, a.code_lt, b.code_lt, by decide, by decide, trivial⟩ rfl
  have e0 : fld wd 31 26 = 9 := ef 4 5 _ rfl
  have e1 : fld wd 25 21 = 2 := ef 3 4 _ rfl
  have e2 : fld wd 6 0 = d.code := ef 0 6 _ rfl
  have e3 : fld wd 13 7 = a.code := ef 1 6 _ rfl
  have e4 : fld wd 20 14 = b.code := ef 2 6 _ rfl
  refine oneWord rfl (by rw [ep]; simp only [packs]; omega) el e0 rfl ?_ fun h => ?_
  · simp [instrWords, e0]
  · simp [decodeRaw, decodeOp09, e0, e1, e2, e3, e4]

theorem not (d : VOp) (a : VOp) : Statement (.not d a) := by
  obtain ⟨wd, ep, el, ef⟩ := word_of [(7, d.code), (7, a.code), (7, 0), (5, 3), (6, 9)]
    ⟨d.code_lt, a.code_lt, by decide, by decide, by decide, trivial⟩ rfl
  have e0 : fld wd 31 26 = 9 := ef 4 5 _ rfl
  have e1 : fld wd 25 21 = 3 := ef 3 4 _ rfl
  have e2 : fld wd 20 14 = 0 := ef 2 6 _ rfl
  have e3 : fld wd 6 0 = d.code := ef 0 6 _ rfl
  have e4 : fld wd 13 7 = a.code := ef 1 6 _ rfl
  refine oneWord rfl (by rw [ep]; simp only [packs]; omega) el e0 rfl ?_ fun h => ?_
  · simp [instrWords, e0]
  · simp [decodeRaw, decodeOp09, e0, e1, e2, e3, e4]

theorem andn (d : VOp) (a : VOp) (b : VOp) : Statement (.andn d a b) := by
  obtain ⟨wd, ep, el, ef⟩ := word_of [(7, d.code), (7, a.code), (7, b.code), (5, 4), (6, 9)]
    ⟨d.code_lt, a.code_lt, b.code_lt, by decide, by decide, trivial⟩ rfl
  have e0 : fld wd 31 26 = 9 := ef 4 5 _ rfl
  have e1 : fld wd 25 21 = 4 := ef 3 4 _ rfl
  have e2 : fld wd 6 0 = d.code := ef 0 6 _ rfl
  have e3 : fld wd 13 7 = a.code := ef 1 6 _ rfl
  have e4 : fld wd 20 14 = b.code := ef 2 6 _ rfl
  refine oneWord rfl (by rw [ep]; simp only [packs]; omega) el e0 rfl ?_ fun h => ?_
  · simp [instrWords, e0]
  · simp [decodeRaw, decodeOp09, e0, e1, e2, e3, e4]

theorem shl (d : VOp) (a : VOp) (b : VOp) : Statement (.shl d a b) := by
  obtain ⟨wd, ep, el, ef⟩ := word_of [(7, d.code), (7, a.code), (7, b.code), (5, 5), (6, 9)]
    ⟨d.code_lt, a.code_lt, b.code_lt, by decide, by decide, trivial⟩ rfl
  have e0 : fld wd 31 26 = 9 := ef 4 5 _ rfl
  have e1 : fld wd 25 21 = 5 := ef 3 4 _ rfl
  have e2 : fld wd 6 0 = d.code := ef 0 6 _ rfl
  have e3 : fld wd 13 7 = a.code := ef 1 6 _ rfl
  have e4 : fld wd 20 14 = b.code := ef 2 6 _ rfl
  refine oneWord rfl (by rw [ep]; simp only [packs]; omega) el e0 rfl ?_ fun h => ?_
  · simp [instrWords, e0]
  · simp [decodeRaw, decodeOp09, e0, e1, e2, e3, e4]

theorem shr (d : VOp) (a : VOp) (b : VOp) : Statement (.shr d a b) := by
  obtain ⟨wd, ep, el, ef⟩ := word_of [(7, d.code), (7, a.code), (7, b.code), (5, 6), (6, 9)]
    ⟨d.code_lt, a.code_lt, b.code_lt, by decide, by decide, trivial⟩ rfl
  have e0 : fld wd 31 26 = 9 := ef 4 5 _ rfl
  have e1 : fld wd 25 21 = 6 := ef 3 4 _ rfl
  have e2 : fld wd 6 0 = d.code := ef 0 6 _ rfl
  have e3 : fld wd 13 7 = a.code := ef 1 6 _ rfl
  have e4 : fld wd 20 14 = b.code := ef 2 6 _ rfl
  refine oneWord rfl (by rw [ep]; simp only [packs]; omega) el e0 rfl ?_ fun h => ?_
  · simp [instrWords, e0]
  · simp [decodeRaw, decodeOp09, e0, e1, e2, e3, e4]

theorem sar (d : VOp) (a : VOp) (b : VOp) : Statement (.sar d a b) := by
  obtain ⟨wd, ep, el, ef⟩ := word_of [(7, d.code), (7, a.code), (7, b.code), (5, 7), (6, 9)]
    ⟨d.code_lt, a.code_lt, b.code_lt, by decide, by decide, trivial⟩ rfl
  have e0 : fld wd 31 26 = 9 := ef 4 5 _ rfl
  have e1 : fld wd 25 21 = 7 := ef 3 4 _ rfl
  have e2 : fld wd 6 0 = d.code := ef 0 6 _ rfl
  have e3 : fld wd 13 7 = a.code := ef 1 6 _ rfl
  have e4 : fld wd 20 14 = b.code := ef 2 6 _ rfl
  refine oneWord rfl (by rw [ep]; simp only [packs]; omega) el e0 rfl ?_ fun h => ?_
  · simp [instrWords, e0]
  · simp [decodeRaw, decodeOp09, e0, e1, e2, e3, e4]

theorem bfeI (d : VOp) (a : VOp) (b : VOp) : Statement (.bfeI d a b) := by
  obtain ⟨wd, ep, el, ef⟩ := word_of [(7, d.code), (7, a.code), (7, b.code), (5, 8), (6, 9)]
    ⟨d.code_lt, a.code_lt, b.code_lt, by decide, by decide, trivial⟩ rfl
  have e0 : fld wd 31 26 = 9 := ef 4 5 _ rfl
  have e1 : fld wd 25 21 = 8 := ef 3 4 _ rfl
  have e2 : fld wd 6 0 = d.code := ef 0 6 _ rfl
  have e3 : fld wd 13 7 = a.code := ef 1 6 _ rfl
  have e4 : fld wd 20 14 = b.code := ef 2 6 _ rfl
  refine oneWord rfl (by rw [ep]; simp only [packs]; omega) el e0 rfl ?_ fun h => ?_
  · simp [instrWords, e0]
  · simp [decodeRaw, decodeOp09, e0, e1, e2, e3, e4]

theorem bfeN (d : VOp) (a : VOp) (b : VOp) : Statement (.bfeN d a b) := by
  obtain ⟨wd, ep, el, ef⟩ := word_of [(7, d.code), (7, a.code), (7, b.code), (5, 9), (6, 9)]
    ⟨d.code_lt, a.code_lt, b.code_lt, by decide, by decide, trivial⟩ rfl
  have e0 : fld wd 31 26 = 9 := ef 4 5 _ rfl
  have e1 : fld wd 25 21 = 9 := ef 3 4 _ rfl
  have e2 : fld wd 6 0 = d.code := ef 0 6 _ rfl
  have e3 : fld wd 13 7 = a.code := ef 1 6 _ rfl
  have e4 : fld wd 20 14 = b.code := ef 2 6 _ rfl
  refine oneWord rfl (by rw [ep]; simp only [packs]; omega) el e0 rfl ?_ fun h => ?_
  · simp [instrWords, e0]
  · simp [decodeRaw, decodeOp09, e0, e1, e2, e3, e4]

theorem bfi (d : VOp) (a : VOp) (b : VOp) : Statement (.bfi d a b) := by
  obtain ⟨wd, ep, el, ef⟩ := word_of [(7, d.code), (7, a.code), (7, b.code), (5, 10), (6, 9)]
    ⟨d.code_lt, a.code_lt, b.code_lt, by decide, by decide, trivial⟩ rfl
  have e0 : fld wd 31 26 = 9 := ef 4 5 _ rfl
  have e1 : fld wd 25 21 = 10 := ef 3 4 _ rfl
  have e2 : fld wd 6 0 = d.code := ef 0 6 _ rfl
  have e3 : fld wd 13 7 = a.code := ef 1 6 _ rfl
  have e4 : fld wd 20 14 = b.code := ef 2 6 _ rfl
  refine oneWord rfl (by rw [ep]; simp only [packs]; omega) el e0 rfl ?_ fun h => ?_
  · simp [instrWords, e0]
  · simp [decodeRaw, decodeOp09, e0, e1, e2, e3, e4]

theorem popc (d : VOp) (a : VOp) : Statement (.popc d a) := by
  obtain ⟨wd, ep, el, ef⟩ := word_of [(7, d.code), (7, a.code), (7, 0), (5, 11), (6, 9)]
    ⟨d.code_lt, a.code_lt, by decide, by decide, by decide, trivial⟩ rfl
  have e0 : fld wd 31 26 = 9 := ef 4 5 _ rfl
  have e1 : fld wd 25 21 = 11 := ef 3 4 _ rfl
  have e2 : fld wd 20 14 = 0 := ef 2 6 _ rfl
  have e3 : fld wd 6 0 = d.code := ef 0 6 _ rfl
  have e4 : fld wd 13 7 = a.code := ef 1 6 _ rfl
  refine oneWord rfl (by rw [ep]; simp only [packs]; omega) el e0 rfl ?_ fun h => ?_
  · simp [instrWords, e0]
  · simp [decodeRaw, decodeOp09, e0, e1, e2, e3, e4]

theorem clz (d : VOp) (a : VOp) : Statement (.clz d a) := by
  obtain ⟨wd, ep, el, ef⟩ := word_of [(7, d.code), (7, a.code), (7, 0), (5, 12), (6, 9)]
    ⟨d.code_lt, a.code_lt, by decide, by decide, by decide, trivial⟩ rfl
  have e0 : fld wd 31 26 = 9 := ef 4 5 _ rfl
  have e1 : fld wd 25 21 = 12 := ef 3 4 _ rfl
  have e2 : fld wd 20 14 = 0 := ef 2 6 _ rfl
  have e3 : fld wd 6 0 = d.code := ef 0 6 _ rfl
  have e4 : fld wd 13 7 = a.code := ef 1 6 _ rfl
  refine oneWord rfl (by rw [ep]; simp only [packs]; omega) el e0 rfl ?_ fun h => ?_
  · simp [instrWords, e0]
  · simp [decodeRaw, decodeOp09, e0, e1, e2, e3, e4]

theorem brev (d : VOp) (a : VOp) : Statement (.brev d a) := by
  obtain ⟨wd, ep, el, ef⟩ := word_of [(7, d.code), (7, a.code), (7, 0), (5, 13), (6, 9)]
    ⟨d.code_lt, a.code_lt, by decide, by decide, by decide, trivial⟩ rfl
  have e0 : fld wd 31 26 = 9 := ef 4 5 _ rfl
  have e1 : fld wd 25 21 = 13 := ef 3 4 _ rfl
  have e2 : fld wd 20 14 = 0 := ef 2 6 _ rfl
  have e3 : fld wd 6 0 = d.code := ef 0 6 _ rfl
  have e4 : fld wd 13 7 = a.code := ef 1 6 _ rfl
  refine oneWord rfl (by rw [ep]; simp only [packs]; omega) el e0 rfl ?_ fun h => ?_
  · simp [instrWords, e0]
  · simp [decodeRaw, decodeOp09, e0, e1, e2, e3, e4]

theorem bperm (d : VOp) (a : VOp) (b : VOp) : Statement (.bperm d a b) := by
  obtain ⟨wd, ep, el, ef⟩ := word_of [(7, d.code), (7, a.code), (7, b.code), (5, 14), (6, 9)]
    ⟨d.code_lt, a.code_lt, b.code_lt, by decide, by decide, trivial⟩ rfl
  have e0 : fld wd 31 26 = 9 := ef 4 5 _ rfl
  have e1 : fld wd 25 21 = 14 := ef 3 4 _ rfl
  have e2 : fld wd 6 0 = d.code := ef 0 6 _ rfl
  have e3 : fld wd 13 7 = a.code := ef 1 6 _ rfl
  have e4 : fld wd 20 14 = b.code := ef 2 6 _ rfl
  refine oneWord rfl (by rw [ep]; simp only [packs]; omega) el e0 rfl ?_ fun h => ?_
  · simp [instrWords, e0]
  · simp [decodeRaw, decodeOp09, e0, e1, e2, e3, e4]

theorem fcmp (c : Cond) (p : BitVec 3) (a : VOp) (b : VOp) : Statement (.fcmp c p a b) := by
  obtain ⟨wd, ep, el, ef⟩ := word_of [(3, p.toNat), (4, 0), (7, a.code), (7, b.code), (5, c.code), (6, 10)]
    ⟨p.isLt, by decide, a.code_lt, b.code_lt, by have := c.code_lt; omega, by decide, trivial⟩ rfl
  have e0 : fld wd 31 26 = 10 := ef 5 5 _ rfl
  have e1 : fld wd 25 21 = c.code := ef 4 4 _ rfl
  have e2 : fld wd 6 3 = 0 := ef 1 3 _ rfl
  have e3 := fld_within e1 23 21 (by decide) (by decide) (by decide)
  have e4 : fld wd 2 0 = p.toNat := ef 0 2 _ rfl
  have e5 : fld wd 13 7 = a.code := ef 2 6 _ rfl
  have e6 : fld wd 20 14 = b.code := ef 3 6 _ rfl
  refine oneWord rfl (by rw [ep]; simp only [packs]; omega) el e0 rfl ?_ fun h => ?_
  · simp [instrWords, e0]
  · cases c <;> simp [decodeRaw, decodeOp0A, e0, e1, e2, e3, e4, e5, e6, Cond.code, Cond.ofCode]

theorem icmpI32 (c : Cond) (p : BitVec 3) (a : VOp) (b : VOp) : Statement (.icmpI32 c p a b) := by
  obtain ⟨wd, ep, el, ef⟩ := word_of [(3, p.toNat), (4, 0), (7, a.code), (7, b.code), (5, 8 + c.code), (6, 10)]
    ⟨p.isLt, by decide, a.code_lt, b.code_lt, by have := c.code_lt; omega, by decide, trivial⟩ rfl
  have e0 : fld wd 31 26 = 10 := ef 5 5 _ rfl
  have e1 : fld wd 25 21 = 8 + c.code := ef 4 4 _ rfl
  have e2 : fld wd 6 3 = 0 := ef 1 3 _ rfl
  have e3 := fld_within e1 23 21 (by decide) (by decide) (by decide)
  have e4 : fld wd 2 0 = p.toNat := ef 0 2 _ rfl
  have e5 : fld wd 13 7 = a.code := ef 2 6 _ rfl
  have e6 : fld wd 20 14 = b.code := ef 3 6 _ rfl
  refine oneWord rfl (by rw [ep]; simp only [packs]; omega) el e0 rfl ?_ fun h => ?_
  · simp [instrWords, e0]
  · cases c <;> simp [decodeRaw, decodeOp0A, e0, e1, e2, e3, e4, e5, e6, Cond.code, Cond.ofCode]

theorem icmpN32 (c : Cond) (p : BitVec 3) (a : VOp) (b : VOp) : Statement (.icmpN32 c p a b) := by
  obtain ⟨wd, ep, el, ef⟩ := word_of [(3, p.toNat), (4, 0), (7, a.code), (7, b.code), (5, 16 + c.code), (6, 10)]
    ⟨p.isLt, by decide, a.code_lt, b.code_lt, by have := c.code_lt; omega, by decide, trivial⟩ rfl
  have e0 : fld wd 31 26 = 10 := ef 5 5 _ rfl
  have e1 : fld wd 25 21 = 16 + c.code := ef 4 4 _ rfl
  have e2 : fld wd 6 3 = 0 := ef 1 3 _ rfl
  have e3 := fld_within e1 23 21 (by decide) (by decide) (by decide)
  have e4 : fld wd 2 0 = p.toNat := ef 0 2 _ rfl
  have e5 : fld wd 13 7 = a.code := ef 2 6 _ rfl
  have e6 : fld wd 20 14 = b.code := ef 3 6 _ rfl
  refine oneWord rfl (by rw [ep]; simp only [packs]; omega) el e0 rfl ?_ fun h => ?_
  · simp [instrWords, e0]
  · cases c <;> simp [decodeRaw, decodeOp0A, e0, e1, e2, e3, e4, e5, e6, Cond.code, Cond.ofCode]

theorem tabs (t : AbsT) (p : BitVec 3) (a : VOp) : Statement (.tabs t p a) := by
  obtain ⟨wd, ep, el, ef⟩ := word_of [(3, p.toNat), (4, 0), (7, a.code), (7, 0), (5, 24 + t.code), (6, 10)]
    ⟨p.isLt, by decide, a.code_lt, by decide, by have := t.code_lt; omega, by decide, trivial⟩ rfl
  have e0 : fld wd 31 26 = 10 := ef 5 5 _ rfl
  have e1 : fld wd 25 21 = 24 + t.code := ef 4 4 _ rfl
  have e2 : fld wd 6 3 = 0 := ef 1 3 _ rfl
  have e3 : fld wd 20 14 = 0 := ef 3 6 _ rfl
  have e4 := fld_within e1 23 21 (by decide) (by decide) (by decide)
  have e5 : fld wd 2 0 = p.toNat := ef 0 2 _ rfl
  have e6 : fld wd 13 7 = a.code := ef 2 6 _ rfl
  refine oneWord rfl (by rw [ep]; simp only [packs]; omega) el e0 rfl ?_ fun h => ?_
  · simp [instrWords, e0]
  · cases t <;> simp [decodeRaw, decodeOp0A, e0, e1, e2, e3, e4, e5, e6, AbsT.code, AbsT.ofCode]

theorem cvtF32F16 (d : VOp) (a : VOp) : Statement (.cvtF32F16 d a) := by
  obtain ⟨wd, ep, el, ef⟩ := word_of [(7, d.code), (7, a.code), (7, 0), (5, 0), (6, 11)]
    ⟨d.code_lt, a.code_lt, by decide, by decide, by decide, trivial⟩ rfl
  have e0 : fld wd 31 26 = 11 := ef 4 5 _ rfl
  have e1 : fld wd 25 21 = 0 := ef 3 4 _ rfl
  have e2 : fld wd 20 14 = 0 := ef 2 6 _ rfl
  have e3 : fld wd 6 0 = d.code := ef 0 6 _ rfl
  have e4 : fld wd 13 7 = a.code := ef 1 6 _ rfl
  refine oneWord rfl (by rw [ep]; simp only [packs]; omega) el e0 rfl ?_ fun h => ?_
  · simp [instrWords, e0]
  · simp [decodeRaw, decodeOp0B, e0, e1, e2, e3, e4]

theorem cvtF32Bf16 (d : VOp) (a : VOp) : Statement (.cvtF32Bf16 d a) := by
  obtain ⟨wd, ep, el, ef⟩ := word_of [(7, d.code), (7, a.code), (7, 0), (5, 1), (6, 11)]
    ⟨d.code_lt, a.code_lt, by decide, by decide, by decide, trivial⟩ rfl
  have e0 : fld wd 31 26 = 11 := ef 4 5 _ rfl
  have e1 : fld wd 25 21 = 1 := ef 3 4 _ rfl
  have e2 : fld wd 20 14 = 0 := ef 2 6 _ rfl
  have e3 : fld wd 6 0 = d.code := ef 0 6 _ rfl
  have e4 : fld wd 13 7 = a.code := ef 1 6 _ rfl
  refine oneWord rfl (by rw [ep]; simp only [packs]; omega) el e0 rfl ?_ fun h => ?_
  · simp [instrWords, e0]
  · simp [decodeRaw, decodeOp0B, e0, e1, e2, e3, e4]

theorem cvtF32E4m3 (d : VOp) (a : VOp) : Statement (.cvtF32E4m3 d a) := by
  obtain ⟨wd, ep, el, ef⟩ := word_of [(7, d.code), (7, a.code), (7, 0), (5, 2), (6, 11)]
    ⟨d.code_lt, a.code_lt, by decide, by decide, by decide, trivial⟩ rfl
  have e0 : fld wd 31 26 = 11 := ef 4 5 _ rfl
  have e1 : fld wd 25 21 = 2 := ef 3 4 _ rfl
  have e2 : fld wd 20 14 = 0 := ef 2 6 _ rfl
  have e3 : fld wd 6 0 = d.code := ef 0 6 _ rfl
  have e4 : fld wd 13 7 = a.code := ef 1 6 _ rfl
  refine oneWord rfl (by rw [ep]; simp only [packs]; omega) el e0 rfl ?_ fun h => ?_
  · simp [instrWords, e0]
  · simp [decodeRaw, decodeOp0B, e0, e1, e2, e3, e4]

theorem cvtF32E5m2 (d : VOp) (a : VOp) : Statement (.cvtF32E5m2 d a) := by
  obtain ⟨wd, ep, el, ef⟩ := word_of [(7, d.code), (7, a.code), (7, 0), (5, 3), (6, 11)]
    ⟨d.code_lt, a.code_lt, by decide, by decide, by decide, trivial⟩ rfl
  have e0 : fld wd 31 26 = 11 := ef 4 5 _ rfl
  have e1 : fld wd 25 21 = 3 := ef 3 4 _ rfl
  have e2 : fld wd 20 14 = 0 := ef 2 6 _ rfl
  have e3 : fld wd 6 0 = d.code := ef 0 6 _ rfl
  have e4 : fld wd 13 7 = a.code := ef 1 6 _ rfl
  refine oneWord rfl (by rw [ep]; simp only [packs]; omega) el e0 rfl ?_ fun h => ?_
  · simp [instrWords, e0]
  · simp [decodeRaw, decodeOp0B, e0, e1, e2, e3, e4]

theorem cvtF16F32 (d : VOp) (a : VOp) : Statement (.cvtF16F32 d a) := by
  obtain ⟨wd, ep, el, ef⟩ := word_of [(7, d.code), (7, a.code), (7, 0), (5, 4), (6, 11)]
    ⟨d.code_lt, a.code_lt, by decide, by decide, by decide, trivial⟩ rfl
  have e0 : fld wd 31 26 = 11 := ef 4 5 _ rfl
  have e1 : fld wd 25 21 = 4 := ef 3 4 _ rfl
  have e2 : fld wd 20 14 = 0 := ef 2 6 _ rfl
  have e3 : fld wd 6 0 = d.code := ef 0 6 _ rfl
  have e4 : fld wd 13 7 = a.code := ef 1 6 _ rfl
  refine oneWord rfl (by rw [ep]; simp only [packs]; omega) el e0 rfl ?_ fun h => ?_
  · simp [instrWords, e0]
  · simp [decodeRaw, decodeOp0B, e0, e1, e2, e3, e4]

theorem cvtBf16F32 (d : VOp) (a : VOp) : Statement (.cvtBf16F32 d a) := by
  obtain ⟨wd, ep, el, ef⟩ := word_of [(7, d.code), (7, a.code), (7, 0), (5, 5), (6, 11)]
    ⟨d.code_lt, a.code_lt, by decide, by decide, by decide, trivial⟩ rfl
  have e0 : fld wd 31 26 = 11 := ef 4 5 _ rfl
  have e1 : fld wd 25 21 = 5 := ef 3 4 _ rfl
  have e2 : fld wd 20 14 = 0 := ef 2 6 _ rfl
  have e3 : fld wd 6 0 = d.code := ef 0 6 _ rfl
  have e4 : fld wd 13 7 = a.code := ef 1 6 _ rfl
  refine oneWord rfl (by rw [ep]; simp only [packs]; omega) el e0 rfl ?_ fun h => ?_
  · simp [instrWords, e0]
  · simp [decodeRaw, decodeOp0B, e0, e1, e2, e3, e4]

theorem cvtE4m3F32 (d : VOp) (a : VOp) : Statement (.cvtE4m3F32 d a) := by
  obtain ⟨wd, ep, el, ef⟩ := word_of [(7, d.code), (7, a.code), (7, 0), (5, 6), (6, 11)]
    ⟨d.code_lt, a.code_lt, by decide, by decide, by decide, trivial⟩ rfl
  have e0 : fld wd 31 26 = 11 := ef 4 5 _ rfl
  have e1 : fld wd 25 21 = 6 := ef 3 4 _ rfl
  have e2 : fld wd 20 14 = 0 := ef 2 6 _ rfl
  have e3 : fld wd 6 0 = d.code := ef 0 6 _ rfl
  have e4 : fld wd 13 7 = a.code := ef 1 6 _ rfl
  refine oneWord rfl (by rw [ep]; simp only [packs]; omega) el e0 rfl ?_ fun h => ?_
  · simp [instrWords, e0]
  · simp [decodeRaw, decodeOp0B, e0, e1, e2, e3, e4]

theorem cvtE5m2F32 (d : VOp) (a : VOp) : Statement (.cvtE5m2F32 d a) := by
  obtain ⟨wd, ep, el, ef⟩ := word_of [(7, d.code), (7, a.code), (7, 0), (5, 7), (6, 11)]
    ⟨d.code_lt, a.code_lt, by decide, by decide, by decide, trivial⟩ rfl
  have e0 : fld wd 31 26 = 11 := ef 4 5 _ rfl
  have e1 : fld wd 25 21 = 7 := ef 3 4 _ rfl
  have e2 : fld wd 20 14 = 0 := ef 2 6 _ rfl
  have e3 : fld wd 6 0 = d.code := ef 0 6 _ rfl
  have e4 : fld wd 13 7 = a.code := ef 1 6 _ rfl
  refine oneWord rfl (by rw [ep]; simp only [packs]; omega) el e0 rfl ?_ fun h => ?_
  · simp [instrWords, e0]
  · simp [decodeRaw, decodeOp0B, e0, e1, e2, e3, e4]

theorem cvtF64F32 (d : VOp) (a : VOp) : Statement (.cvtF64F32 d a) := by
  obtain ⟨wd, ep, el, ef⟩ := word_of [(7, d.code), (7, a.code), (7, 0), (5, 8), (6, 11)]
    ⟨d.code_lt, a.code_lt, by decide, by decide, by decide, trivial⟩ rfl
  have e0 : fld wd 31 26 = 11 := ef 4 5 _ rfl
  have e1 : fld wd 25 21 = 8 := ef 3 4 _ rfl
  have e2 : fld wd 20 14 = 0 := ef 2 6 _ rfl
  have e3 : fld wd 6 0 = d.code := ef 0 6 _ rfl
  have e4 : fld wd 13 7 = a.code := ef 1 6 _ rfl
  refine oneWord rfl (by rw [ep]; simp only [packs]; omega) el e0 rfl ?_ fun h => ?_
  · simp [instrWords, e0]
  · simp [decodeRaw, decodeOp0B, e0, e1, e2, e3, e4]

theorem cvtF32F64 (d : VOp) (a : VOp) : Statement (.cvtF32F64 d a) := by
  obtain ⟨wd, ep, el, ef⟩ := word_of [(7, d.code), (7, a.code), (7, 0), (5, 9), (6, 11)]
    ⟨d.code_lt, a.code_lt, by decide, by decide, by decide, trivial⟩ rfl
  have e0 : fld wd 31 26 = 11 := ef 4 5 _ rfl
  have e1 : fld wd 25 21 = 9 := ef 3 4 _ rfl
  have e2 : fld wd 20 14 = 0 := ef 2 6 _ rfl
  have e3 : fld wd 6 0 = d.code := ef 0 6 _ rfl
  have e4 : fld wd 13 7 = a.code := ef 1 6 _ rfl
  refine oneWord rfl (by rw [ep]; simp only [packs]; omega) el e0 rfl ?_ fun h => ?_
  · simp [instrWords, e0]
  · simp [decodeRaw, decodeOp0B, e0, e1, e2, e3, e4]

theorem cvtF32I32 (d : VOp) (a : VOp) : Statement (.cvtF32I32 d a) := by
  obtain ⟨wd, ep, el, ef⟩ := word_of [(7, d.code), (7, a.code), (7, 0), (5, 10), (6, 11)]
    ⟨d.code_lt, a.code_lt, by decide, by decide, by decide, trivial⟩ rfl
  have e0 : fld wd 31 26 = 11 := ef 4 5 _ rfl
  have e1 : fld wd 25 21 = 10 := ef 3 4 _ rfl
  have e2 : fld wd 20 14 = 0 := ef 2 6 _ rfl
  have e3 : fld wd 6 0 = d.code := ef 0 6 _ rfl
  have e4 : fld wd 13 7 = a.code := ef 1 6 _ rfl
  refine oneWord rfl (by rw [ep]; simp only [packs]; omega) el e0 rfl ?_ fun h => ?_
  · simp [instrWords, e0]
  · simp [decodeRaw, decodeOp0B, e0, e1, e2, e3, e4]

theorem cvtF32N32 (d : VOp) (a : VOp) : Statement (.cvtF32N32 d a) := by
  obtain ⟨wd, ep, el, ef⟩ := word_of [(7, d.code), (7, a.code), (7, 0), (5, 11), (6, 11)]
    ⟨d.code_lt, a.code_lt, by decide, by decide, by decide, trivial⟩ rfl
  have e0 : fld wd 31 26 = 11 := ef 4 5 _ rfl
  have e1 : fld wd 25 21 = 11 := ef 3 4 _ rfl
  have e2 : fld wd 20 14 = 0 := ef 2 6 _ rfl
  have e3 : fld wd 6 0 = d.code := ef 0 6 _ rfl
  have e4 : fld wd 13 7 = a.code := ef 1 6 _ rfl
  refine oneWord rfl (by rw [ep]; simp only [packs]; omega) el e0 rfl ?_ fun h => ?_
  · simp [instrWords, e0]
  · simp [decodeRaw, decodeOp0B, e0, e1, e2, e3, e4]

theorem cvtI32F32 (d : VOp) (a : VOp) : Statement (.cvtI32F32 d a) := by
  obtain ⟨wd, ep, el, ef⟩ := word_of [(7, d.code), (7, a.code), (7, 0), (5, 12), (6, 11)]
    ⟨d.code_lt, a.code_lt, by decide, by decide, by decide, trivial⟩ rfl
  have e0 : fld wd 31 26 = 11 := ef 4 5 _ rfl
  have e1 : fld wd 25 21 = 12 := ef 3 4 _ rfl
  have e2 : fld wd 20 14 = 0 := ef 2 6 _ rfl
  have e3 : fld wd 6 0 = d.code := ef 0 6 _ rfl
  have e4 : fld wd 13 7 = a.code := ef 1 6 _ rfl
  refine oneWord rfl (by rw [ep]; simp only [packs]; omega) el e0 rfl ?_ fun h => ?_
  · simp [instrWords, e0]
  · simp [decodeRaw, decodeOp0B, e0, e1, e2, e3, e4]

theorem cvtN32F32 (d : VOp) (a : VOp) : Statement (.cvtN32F32 d a) := by
  obtain ⟨wd, ep, el, ef⟩ := word_of [(7, d.code), (7, a.code), (7, 0), (5, 13), (6, 11)]
    ⟨d.code_lt, a.code_lt, by decide, by decide, by decide, trivial⟩ rfl
  have e0 : fld wd 31 26 = 11 := ef 4 5 _ rfl
  have e1 : fld wd 25 21 = 13 := ef 3 4 _ rfl
  have e2 : fld wd 20 14 = 0 := ef 2 6 _ rfl
  have e3 : fld wd 6 0 = d.code := ef 0 6 _ rfl
  have e4 : fld wd 13 7 = a.code := ef 1 6 _ rfl
  refine oneWord rfl (by rw [ep]; simp only [packs]; omega) el e0 rfl ?_ fun h => ?_
  · simp [instrWords, e0]
  · simp [decodeRaw, decodeOp0B, e0, e1, e2, e3, e4]

theorem cvtI32I8 (d : VOp) (a : VOp) : Statement (.cvtI32I8 d a) := by
  obtain ⟨wd, ep, el, ef⟩ := word_of [(7, d.code), (7, a.code), (7, 0), (5, 14), (6, 11)]
    ⟨d.code_lt, a.code_lt, by decide, by decide, by decide, trivial⟩ rfl
  have e0 : fld wd 31 26 = 11 := ef 4 5 _ rfl
  have e1 : fld wd 25 21 = 14 := ef 3 4 _ rfl
  have e2 : fld wd 20 14 = 0 := ef 2 6 _ rfl
  have e3 : fld wd 6 0 = d.code := ef 0 6 _ rfl
  have e4 : fld wd 13 7 = a.code := ef 1 6 _ rfl
  refine oneWord rfl (by rw [ep]; simp only [packs]; omega) el e0 rfl ?_ fun h => ?_
  · simp [instrWords, e0]
  · simp [decodeRaw, decodeOp0B, e0, e1, e2, e3, e4]

theorem cvtI32N8 (d : VOp) (a : VOp) : Statement (.cvtI32N8 d a) := by
  obtain ⟨wd, ep, el, ef⟩ := word_of [(7, d.code), (7, a.code), (7, 0), (5, 15), (6, 11)]
    ⟨d.code_lt, a.code_lt, by decide, by decide, by decide, trivial⟩ rfl
  have e0 : fld wd 31 26 = 11 := ef 4 5 _ rfl
  have e1 : fld wd 25 21 = 15 := ef 3 4 _ rfl
  have e2 : fld wd 20 14 = 0 := ef 2 6 _ rfl
  have e3 : fld wd 6 0 = d.code := ef 0 6 _ rfl
  have e4 : fld wd 13 7 = a.code := ef 1 6 _ rfl
  refine oneWord rfl (by rw [ep]; simp only [packs]; omega) el e0 rfl ?_ fun h => ?_
  · simp [instrWords, e0]
  · simp [decodeRaw, decodeOp0B, e0, e1, e2, e3, e4]

theorem cvtI8I32 (d : VOp) (a : VOp) : Statement (.cvtI8I32 d a) := by
  obtain ⟨wd, ep, el, ef⟩ := word_of [(7, d.code), (7, a.code), (7, 0), (5, 16), (6, 11)]
    ⟨d.code_lt, a.code_lt, by decide, by decide, by decide, trivial⟩ rfl
  have e0 : fld wd 31 26 = 11 := ef 4 5 _ rfl
  have e1 : fld wd 25 21 = 16 := ef 3 4 _ rfl
  have e2 : fld wd 20 14 = 0 := ef 2 6 _ rfl
  have e3 : fld wd 6 0 = d.code := ef 0 6 _ rfl
  have e4 : fld wd 13 7 = a.code := ef 1 6 _ rfl
  refine oneWord rfl (by rw [ep]; simp only [packs]; omega) el e0 rfl ?_ fun h => ?_
  · simp [instrWords, e0]
  · simp [decodeRaw, decodeOp0B, e0, e1, e2, e3, e4]

theorem cvtN8I32 (d : VOp) (a : VOp) : Statement (.cvtN8I32 d a) := by
  obtain ⟨wd, ep, el, ef⟩ := word_of [(7, d.code), (7, a.code), (7, 0), (5, 17), (6, 11)]
    ⟨d.code_lt, a.code_lt, by decide, by decide, by decide, trivial⟩ rfl
  have e0 : fld wd 31 26 = 11 := ef 4 5 _ rfl
  have e1 : fld wd 25 21 = 17 := ef 3 4 _ rfl
  have e2 : fld wd 20 14 = 0 := ef 2 6 _ rfl
  have e3 : fld wd 6 0 = d.code := ef 0 6 _ rfl
  have e4 : fld wd 13 7 = a.code := ef 1 6 _ rfl
  refine oneWord rfl (by rw [ep]; simp only [packs]; omega) el e0 rfl ?_ fun h => ?_
  · simp [instrWords, e0]
  · simp [decodeRaw, decodeOp0B, e0, e1, e2, e3, e4]

theorem cvtpk (d : VOp) (a : VOp) (b : VOp) : Statement (.cvtpk d a b) := by
  obtain ⟨wd, ep, el, ef⟩ := word_of [(7, d.code), (7, a.code), (7, b.code), (5, 18), (6, 11)]
    ⟨d.code_lt, a.code_lt, b.code_lt, by decide, by decide, trivial⟩ rfl
  have e0 : fld wd 31 26 = 11 := ef 4 5 _ rfl
  have e1 : fld wd 25 21 = 18 := ef 3 4 _ rfl
  have e2 : fld wd 6 0 = d.code := ef 0 6 _ rfl
  have e3 : fld wd 13 7 = a.code := ef 1 6 _ rfl
  have e4 : fld wd 20 14 = b.code := ef 2 6 _ rfl
  refine oneWord rfl (by rw [ep]; simp only [packs]; omega) el e0 rfl ?_ fun h => ?_
  · simp [instrWords, e0]
  · simp [decodeRaw, decodeOp0B, e0, e1, e2, e3, e4]

theorem cvtup (t : UpT) (e : BitVec 2) (d : VOp) (a : VOp) : Statement (.cvtup t e d a) := by
  obtain ⟨wd, ep, el, ef⟩ := word_of [(7, d.code), (7, a.code), (2, e.toNat), (2, 0), (3, t.code), (5, 19), (6, 11)]
    ⟨d.code_lt, a.code_lt, e.isLt, by decide, t.code_lt, by decide, by decide, trivial⟩ rfl
  have e0 : fld wd 31 26 = 11 := ef 6 5 _ rfl
  have e1 : fld wd 25 21 = 19 := ef 5 4 _ rfl
  have e2 : fld wd 17 16 = 0 := ef 3 1 _ rfl
  have e3 : fld wd 20 18 = t.code := ef 4 2 _ rfl
  have e4 : fld wd 15 14 = e.toNat := ef 2 1 _ rfl
  have e5 : fld wd 6 0 = d.code := ef 0 6 _ rfl
  have e6 : fld wd 13 7 = a.code := ef 1 6 _ rfl
  refine oneWord rfl (by rw [ep]; simp only [packs]; omega) el e0 rfl ?_ fun h => ?_
  · simp [instrWords, e0]
  · simp [decodeRaw, decodeOp0B, e0, e1, e2, e3, e4, e5, e6]

theorem tunpk (d : VOp) (a : VOp) (k : BitVec 3) : Statement (.tunpk d a k) := by
  obtain ⟨wd, ep, el, ef⟩ := word_of [(7, d.code), (7, a.code), (3, k.toNat), (4, 15), (5, 20), (6, 11)]
    ⟨d.code_lt, a.code_lt, k.isLt, by decide, by decide, by decide, trivial⟩ rfl
  have e0 : fld wd 31 26 = 11 := ef 5 5 _ rfl
  have e1 : fld wd 25 21 = 20 := ef 4 4 _ rfl
  have e2 : fld wd 20 17 = 15 := ef 3 3 _ rfl
  have e3 : fld wd 6 0 = d.code := ef 0 6 _ rfl
  have e4 : fld wd 13 7 = a.code := ef 1 6 _ rfl
  have e5 : fld wd 16 14 = k.toNat := ef 2 2 _ rfl
  refine oneWord rfl (by rw [ep]; simp only [packs]; omega) el e0 rfl ?_ fun h => ?_
  · simp [instrWords, e0]
  · simp [decodeRaw, decodeOp0B, e0, e1, e2, e3, e4, e5]

theorem frcp (d : VOp) (a : VOp) : Statement (.frcp d a) := by
  obtain ⟨wd, ep, el, ef⟩ := word_of [(7, d.code), (7, a.code), (7, 120), (5, 0), (6, 12)]
    ⟨d.code_lt, a.code_lt, by decide, by decide, by decide, trivial⟩ rfl
  have e0 : fld wd 31 26 = 12 := ef 4 5 _ rfl
  have e1 : fld wd 25 21 = 0 := ef 3 4 _ rfl
  have e2 : fld wd 20 14 = 120 := ef 2 6 _ rfl
  have e3 : fld wd 6 0 = d.code := ef 0 6 _ rfl
  have e4 : fld wd 13 7 = a.code := ef 1 6 _ rfl
  refine oneWord rfl (by rw [ep]; simp only [packs]; omega) el e0 rfl ?_ fun h => ?_
  · simp [instrWords, e0]
  · simp [decodeRaw, decodeOp0C, e0, e1, e2, e3, e4]

theorem frsq (d : VOp) (a : VOp) : Statement (.frsq d a) := by
  obtain ⟨wd, ep, el, ef⟩ := word_of [(7, d.code), (7, a.code), (7, 120), (5, 1), (6, 12)]
    ⟨d.code_lt, a.code_lt, by decide, by decide, by decide, trivial⟩ rfl
  have e0 : fld wd 31 26 = 12 := ef 4 5 _ rfl
  have e1 : fld wd 25 21 = 1 := ef 3 4 _ rfl
  have e2 : fld wd 20 14 = 120 := ef 2 6 _ rfl
  have e3 : fld wd 6 0 = d.code := ef 0 6 _ rfl
  have e4 : fld wd 13 7 = a.code := ef 1 6 _ rfl
  refine oneWord rfl (by rw [ep]; simp only [packs]; omega) el e0 rfl ?_ fun h => ?_
  · simp [instrWords, e0]
  · simp [decodeRaw, decodeOp0C, e0, e1, e2, e3, e4]

theorem fexp2 (d : VOp) (a : VOp) : Statement (.fexp2 d a) := by
  obtain ⟨wd, ep, el, ef⟩ := word_of [(7, d.code), (7, a.code), (7, 120), (5, 2), (6, 12)]
    ⟨d.code_lt, a.code_lt, by decide, by decide, by decide, trivial⟩ rfl
  have e0 : fld wd 31 26 = 12 := ef 4 5 _ rfl
  have e1 : fld wd 25 21 = 2 := ef 3 4 _ rfl
  have e2 : fld wd 20 14 = 120 := ef 2 6 _ rfl
  have e3 : fld wd 6 0 = d.code := ef 0 6 _ rfl
  have e4 : fld wd 13 7 = a.code := ef 1 6 _ rfl
  refine oneWord rfl (by rw [ep]; simp only [packs]; omega) el e0 rfl ?_ fun h => ?_
  · simp [instrWords, e0]
  · simp [decodeRaw, decodeOp0C, e0, e1, e2, e3, e4]

theorem flog2 (d : VOp) (a : VOp) : Statement (.flog2 d a) := by
  obtain ⟨wd, ep, el, ef⟩ := word_of [(7, d.code), (7, a.code), (7, 120), (5, 3), (6, 12)]
    ⟨d.code_lt, a.code_lt, by decide, by decide, by decide, trivial⟩ rfl
  have e0 : fld wd 31 26 = 12 := ef 4 5 _ rfl
  have e1 : fld wd 25 21 = 3 := ef 3 4 _ rfl
  have e2 : fld wd 20 14 = 120 := ef 2 6 _ rfl
  have e3 : fld wd 6 0 = d.code := ef 0 6 _ rfl
  have e4 : fld wd 13 7 = a.code := ef 1 6 _ rfl
  refine oneWord rfl (by rw [ep]; simp only [packs]; omega) el e0 rfl ?_ fun h => ?_
  · simp [instrWords, e0]
  · simp [decodeRaw, decodeOp0C, e0, e1, e2, e3, e4]

theorem fsin (d : VOp) (a : VOp) : Statement (.fsin d a) := by
  obtain ⟨wd, ep, el, ef⟩ := word_of [(7, d.code), (7, a.code), (7, 120), (5, 4), (6, 12)]
    ⟨d.code_lt, a.code_lt, by decide, by decide, by decide, trivial⟩ rfl
  have e0 : fld wd 31 26 = 12 := ef 4 5 _ rfl
  have e1 : fld wd 25 21 = 4 := ef 3 4 _ rfl
  have e2 : fld wd 20 14 = 120 := ef 2 6 _ rfl
  have e3 : fld wd 6 0 = d.code := ef 0 6 _ rfl
  have e4 : fld wd 13 7 = a.code := ef 1 6 _ rfl
  refine oneWord rfl (by rw [ep]; simp only [packs]; omega) el e0 rfl ?_ fun h => ?_
  · simp [instrWords, e0]
  · simp [decodeRaw, decodeOp0C, e0, e1, e2, e3, e4]

theorem fcos (d : VOp) (a : VOp) : Statement (.fcos d a) := by
  obtain ⟨wd, ep, el, ef⟩ := word_of [(7, d.code), (7, a.code), (7, 120), (5, 5), (6, 12)]
    ⟨d.code_lt, a.code_lt, by decide, by decide, by decide, trivial⟩ rfl
  have e0 : fld wd 31 26 = 12 := ef 4 5 _ rfl
  have e1 : fld wd 25 21 = 5 := ef 3 4 _ rfl
  have e2 : fld wd 20 14 = 120 := ef 2 6 _ rfl
  have e3 : fld wd 6 0 = d.code := ef 0 6 _ rfl
  have e4 : fld wd 13 7 = a.code := ef 1 6 _ rfl
  refine oneWord rfl (by rw [ep]; simp only [packs]; omega) el e0 rfl ?_ fun h => ?_
  · simp [instrWords, e0]
  · simp [decodeRaw, decodeOp0C, e0, e1, e2, e3, e4]

theorem ftanh (d : VOp) (a : VOp) : Statement (.ftanh d a) := by
  obtain ⟨wd, ep, el, ef⟩ := word_of [(7, d.code), (7, a.code), (7, 120), (5, 6), (6, 12)]
    ⟨d.code_lt, a.code_lt, by decide, by decide, by decide, trivial⟩ rfl
  have e0 : fld wd 31 26 = 12 := ef 4 5 _ rfl
  have e1 : fld wd 25 21 = 6 := ef 3 4 _ rfl
  have e2 : fld wd 20 14 = 120 := ef 2 6 _ rfl
  have e3 : fld wd 6 0 = d.code := ef 0 6 _ rfl
  have e4 : fld wd 13 7 = a.code := ef 1 6 _ rfl
  refine oneWord rfl (by rw [ep]; simp only [packs]; omega) el e0 rfl ?_ fun h => ?_
  · simp [instrWords, e0]
  · simp [decodeRaw, decodeOp0C, e0, e1, e2, e3, e4]

theorem fsigm (d : VOp) (a : VOp) : Statement (.fsigm d a) := by
  obtain ⟨wd, ep, el, ef⟩ := word_of [(7, d.code), (7, a.code), (7, 120), (5, 7), (6, 12)]
    ⟨d.code_lt, a.code_lt, by decide, by decide, by decide, trivial⟩ rfl
  have e0 : fld wd 31 26 = 12 := ef 4 5 _ rfl
  have e1 : fld wd 25 21 = 7 := ef 3 4 _ rfl
  have e2 : fld wd 20 14 = 120 := ef 2 6 _ rfl
  have e3 : fld wd 6 0 = d.code := ef 0 6 _ rfl
  have e4 : fld wd 13 7 = a.code := ef 1 6 _ rfl
  refine oneWord rfl (by rw [ep]; simp only [packs]; omega) el e0 rfl ?_ fun h => ?_
  · simp [instrWords, e0]
  · simp [decodeRaw, decodeOp0C, e0, e1, e2, e3, e4]

theorem shfl (d : VOp) (a : VOp) (b : VOp) : Statement (.shfl d a b) := by
  obtain ⟨wd, ep, el, ef⟩ := word_of [(7, d.code), (7, a.code), (7, b.code), (5, 0), (6, 13)]
    ⟨d.code_lt, a.code_lt, b.code_lt, by decide, by decide, trivial⟩ rfl
  have e0 : fld wd 31 26 = 13 := ef 4 5 _ rfl
  have e1 : fld wd 25 21 = 0 := ef 3 4 _ rfl
  have e2 : fld wd 6 0 = d.code := ef 0 6 _ rfl
  have e3 : fld wd 13 7 = a.code := ef 1 6 _ rfl
  have e4 : fld wd 20 14 = b.code := ef 2 6 _ rfl
  refine oneWord rfl (by rw [ep]; simp only [packs]; omega) el e0 rfl ?_ fun h => ?_
  · simp [instrWords, e0]
  · simp [decodeRaw, decodeOp0D, e0, e1, e2, e3, e4]

theorem shflup (d : VOp) (a : VOp) (b : VOp) : Statement (.shflup d a b) := by
  obtain ⟨wd, ep, el, ef⟩ := word_of [(7, d.code), (7, a.code), (7, b.code), (5, 1), (6, 13)]
    ⟨d.code_lt, a.code_lt, b.code_lt, by decide, by decide, trivial⟩ rfl
  have e0 : fld wd 31 26 = 13 := ef 4 5 _ rfl
  have e1 : fld wd 25 21 = 1 := ef 3 4 _ rfl
  have e2 : fld wd 6 0 = d.code := ef 0 6 _ rfl
  have e3 : fld wd 13 7 = a.code := ef 1 6 _ rfl
  have e4 : fld wd 20 14 = b.code := ef 2 6 _ rfl
  refine oneWord rfl (by rw [ep]; simp only [packs]; omega) el e0 rfl ?_ fun h => ?_
  · simp [instrWords, e0]
  · simp [decodeRaw, decodeOp0D, e0, e1, e2, e3, e4]

theorem shfldn (d : VOp) (a : VOp) (b : VOp) : Statement (.shfldn d a b) := by
  obtain ⟨wd, ep, el, ef⟩ := word_of [(7, d.code), (7, a.code), (7, b.code), (5, 2), (6, 13)]
    ⟨d.code_lt, a.code_lt, b.code_lt, by decide, by decide, trivial⟩ rfl
  have e0 : fld wd 31 26 = 13 := ef 4 5 _ rfl
  have e1 : fld wd 25 21 = 2 := ef 3 4 _ rfl
  have e2 : fld wd 6 0 = d.code := ef 0 6 _ rfl
  have e3 : fld wd 13 7 = a.code := ef 1 6 _ rfl
  have e4 : fld wd 20 14 = b.code := ef 2 6 _ rfl
  refine oneWord rfl (by rw [ep]; simp only [packs]; omega) el e0 rfl ?_ fun h => ?_
  · simp [instrWords, e0]
  · simp [decodeRaw, decodeOp0D, e0, e1, e2, e3, e4]

theorem shflx (d : VOp) (a : VOp) (b : VOp) : Statement (.shflx d a b) := by
  obtain ⟨wd, ep, el, ef⟩ := word_of [(7, d.code), (7, a.code), (7, b.code), (5, 3), (6, 13)]
    ⟨d.code_lt, a.code_lt, b.code_lt, by decide, by decide, trivial⟩ rfl
  have e0 : fld wd 31 26 = 13 := ef 4 5 _ rfl
  have e1 : fld wd 25 21 = 3 := ef 3 4 _ rfl
  have e2 : fld wd 6 0 = d.code := ef 0 6 _ rfl
  have e3 : fld wd 13 7 = a.code := ef 1 6 _ rfl
  have e4 : fld wd 20 14 = b.code := ef 2 6 _ rfl
  refine oneWord rfl (by rw [ep]; simp only [packs]; omega) el e0 rfl ?_ fun h => ?_
  · simp [instrWords, e0]
  · simp [decodeRaw, decodeOp0D, e0, e1, e2, e3, e4]

theorem bcast (d : VOp) (a : VOp) : Statement (.bcast d a) := by
  obtain ⟨wd, ep, el, ef⟩ := word_of [(7, d.code), (7, a.code), (7, 0), (5, 4), (6, 13)]
    ⟨d.code_lt, a.code_lt, by decide, by decide, by decide, trivial⟩ rfl
  have e0 : fld wd 31 26 = 13 := ef 4 5 _ rfl
  have e1 : fld wd 25 21 = 4 := ef 3 4 _ rfl
  have e2 : fld wd 20 14 = 0 := ef 2 6 _ rfl
  have e3 : fld wd 6 0 = d.code := ef 0 6 _ rfl
  have e4 : fld wd 13 7 = a.code := ef 1 6 _ rfl
  refine oneWord rfl (by rw [ep]; simp only [packs]; omega) el e0 rfl ?_ fun h => ?_
  · simp [instrWords, e0]
  · simp [decodeRaw, decodeOp0D, e0, e1, e2, e3, e4]

theorem ballot (d : VOp) (p : BitVec 3) : Statement (.ballot d p) := by
  obtain ⟨wd, ep, el, ef⟩ := word_of [(7, d.code), (3, p.toNat), (11, 0), (5, 5), (6, 13)]
    ⟨d.code_lt, p.isLt, by decide, by decide, by decide, trivial⟩ rfl
  have e0 : fld wd 31 26 = 13 := ef 4 5 _ rfl
  have e1 : fld wd 25 21 = 5 := ef 3 4 _ rfl
  have e2 : fld wd 20 10 = 0 := ef 2 10 _ rfl
  have e3 : fld wd 6 0 = d.code := ef 0 6 _ rfl
  have e4 : fld wd 9 7 = p.toNat := ef 1 2 _ rfl
  refine oneWord rfl (by rw [ep]; simp only [packs]; omega) el e0 rfl ?_ fun h => ?_
  · simp [instrWords, e0]
  · simp [decodeRaw, decodeOp0D, e0, e1, e2, e3, e4]

theorem vany (d : VOp) (p : BitVec 3) : Statement (.vany d p) := by
  obtain ⟨wd, ep, el, ef⟩ := word_of [(7, d.code), (3, p.toNat), (11, 0), (5, 6), (6, 13)]
    ⟨d.code_lt, p.isLt, by decide, by decide, by decide, trivial⟩ rfl
  have e0 : fld wd 31 26 = 13 := ef 4 5 _ rfl
  have e1 : fld wd 25 21 = 6 := ef 3 4 _ rfl
  have e2 : fld wd 20 10 = 0 := ef 2 10 _ rfl
  have e3 : fld wd 6 0 = d.code := ef 0 6 _ rfl
  have e4 : fld wd 9 7 = p.toNat := ef 1 2 _ rfl
  refine oneWord rfl (by rw [ep]; simp only [packs]; omega) el e0 rfl ?_ fun h => ?_
  · simp [instrWords, e0]
  · simp [decodeRaw, decodeOp0D, e0, e1, e2, e3, e4]

theorem vall (d : VOp) (p : BitVec 3) : Statement (.vall d p) := by
  obtain ⟨wd, ep, el, ef⟩ := word_of [(7, d.code), (3, p.toNat), (11, 0), (5, 7), (6, 13)]
    ⟨d.code_lt, p.isLt, by decide, by decide, by decide, trivial⟩ rfl
  have e0 : fld wd 31 26 = 13 := ef 4 5 _ rfl
  have e1 : fld wd 25 21 = 7 := ef 3 4 _ rfl
  have e2 : fld wd 20 10 = 0 := ef 2 10 _ rfl
  have e3 : fld wd 6 0 = d.code := ef 0 6 _ rfl
  have e4 : fld wd 9 7 = p.toNat := ef 1 2 _ rfl
  refine oneWord rfl (by rw [ep]; simp only [packs]; omega) el e0 rfl ?_ fun h => ?_
  · simp [instrWords, e0]
  · simp [decodeRaw, decodeOp0D, e0, e1, e2, e3, e4]

theorem wredAddF32 (d : VOp) (a : VOp) : Statement (.wredAddF32 d a) := by
  obtain ⟨wd, ep, el, ef⟩ := word_of [(7, d.code), (7, a.code), (7, 0), (5, 8), (6, 13)]
    ⟨d.code_lt, a.code_lt, by decide, by decide, by decide, trivial⟩ rfl
  have e0 : fld wd 31 26 = 13 := ef 4 5 _ rfl
  have e1 : fld wd 25 21 = 8 := ef 3 4 _ rfl
  have e2 : fld wd 20 14 = 0 := ef 2 6 _ rfl
  have e3 : fld wd 6 0 = d.code := ef 0 6 _ rfl
  have e4 : fld wd 13 7 = a.code := ef 1 6 _ rfl
  refine oneWord rfl (by rw [ep]; simp only [packs]; omega) el e0 rfl ?_ fun h => ?_
  · simp [instrWords, e0]
  · simp [decodeRaw, decodeOp0D, e0, e1, e2, e3, e4]

theorem wredMaxF32 (d : VOp) (a : VOp) : Statement (.wredMaxF32 d a) := by
  obtain ⟨wd, ep, el, ef⟩ := word_of [(7, d.code), (7, a.code), (7, 0), (5, 9), (6, 13)]
    ⟨d.code_lt, a.code_lt, by decide, by decide, by decide, trivial⟩ rfl
  have e0 : fld wd 31 26 = 13 := ef 4 5 _ rfl
  have e1 : fld wd 25 21 = 9 := ef 3 4 _ rfl
  have e2 : fld wd 20 14 = 0 := ef 2 6 _ rfl
  have e3 : fld wd 6 0 = d.code := ef 0 6 _ rfl
  have e4 : fld wd 13 7 = a.code := ef 1 6 _ rfl
  refine oneWord rfl (by rw [ep]; simp only [packs]; omega) el e0 rfl ?_ fun h => ?_
  · simp [instrWords, e0]
  · simp [decodeRaw, decodeOp0D, e0, e1, e2, e3, e4]

theorem wredAddI32 (d : VOp) (a : VOp) : Statement (.wredAddI32 d a) := by
  obtain ⟨wd, ep, el, ef⟩ := word_of [(7, d.code), (7, a.code), (7, 0), (5, 10), (6, 13)]
    ⟨d.code_lt, a.code_lt, by decide, by decide, by decide, trivial⟩ rfl
  have e0 : fld wd 31 26 = 13 := ef 4 5 _ rfl
  have e1 : fld wd 25 21 = 10 := ef 3 4 _ rfl
  have e2 : fld wd 20 14 = 0 := ef 2 6 _ rfl
  have e3 : fld wd 6 0 = d.code := ef 0 6 _ rfl
  have e4 : fld wd 13 7 = a.code := ef 1 6 _ rfl
  refine oneWord rfl (by rw [ep]; simp only [packs]; omega) el e0 rfl ?_ fun h => ?_
  · simp [instrWords, e0]
  · simp [decodeRaw, decodeOp0D, e0, e1, e2, e3, e4]

theorem wscanAddF32 (d : VOp) (a : VOp) : Statement (.wscanAddF32 d a) := by
  obtain ⟨wd, ep, el, ef⟩ := word_of [(7, d.code), (7, a.code), (7, 0), (5, 11), (6, 13)]
    ⟨d.code_lt, a.code_lt, by decide, by decide, by decide, trivial⟩ rfl
  have e0 : fld wd 31 26 = 13 := ef 4 5 _ rfl
  have e1 : fld wd 25 21 = 11 := ef 3 4 _ rfl
  have e2 : fld wd 20 14 = 0 := ef 2 6 _ rfl
  have e3 : fld wd 6 0 = d.code := ef 0 6 _ rfl
  have e4 : fld wd 13 7 = a.code := ef 1 6 _ rfl
  refine oneWord rfl (by rw [ep]; simp only [packs]; omega) el e0 rfl ?_ fun h => ?_
  · simp [instrWords, e0]
  · simp [decodeRaw, decodeOp0D, e0, e1, e2, e3, e4]

theorem wscanAddI32 (d : VOp) (a : VOp) : Statement (.wscanAddI32 d a) := by
  obtain ⟨wd, ep, el, ef⟩ := word_of [(7, d.code), (7, a.code), (7, 0), (5, 12), (6, 13)]
    ⟨d.code_lt, a.code_lt, by decide, by decide, by decide, trivial⟩ rfl
  have e0 : fld wd 31 26 = 13 := ef 4 5 _ rfl
  have e1 : fld wd 25 21 = 12 := ef 3 4 _ rfl
  have e2 : fld wd 20 14 = 0 := ef 2 6 _ rfl
  have e3 : fld wd 6 0 = d.code := ef 0 6 _ rfl
  have e4 : fld wd 13 7 = a.code := ef 1 6 _ rfl
  refine oneWord rfl (by rw [ep]; simp only [packs]; omega) el e0 rfl ?_ fun h => ?_
  · simp [instrWords, e0]
  · simp [decodeRaw, decodeOp0D, e0, e1, e2, e3, e4]

theorem lanes (d : VOp) : Statement (.lanes d) := by
  obtain ⟨wd, ep, el, ef⟩ := word_of [(7, d.code), (14, 0), (5, 13), (6, 13)]
    ⟨d.code_lt, by decide, by decide, by decide, trivial⟩ rfl
  have e0 : fld wd 31 26 = 13 := ef 3 5 _ rfl
  have e1 : fld wd 25 21 = 13 := ef 2 4 _ rfl
  have e2 : fld wd 20 7 = 0 := ef 1 13 _ rfl
  have e3 : fld wd 6 0 = d.code := ef 0 6 _ rfl
  refine oneWord rfl (by rw [ep]; simp only [packs]; omega) el e0 rfl ?_ fun h => ?_
  · simp [instrWords, e0]
  · simp [decodeRaw, decodeOp0D, e0, e1, e2, e3]

theorem mov (d : VOp) (a : VOp) : Statement (.mov d a) := by
  obtain ⟨wd, ep, el, ef⟩ := word_of [(7, d.code), (7, a.code), (7, 0), (5, 0), (6, 14)]
    ⟨d.code_lt, a.code_lt, by decide, by decide, by decide, trivial⟩ rfl
  have e0 : fld wd 31 26 = 14 := ef 4 5 _ rfl
  have e1 : fld wd 25 21 = 0 := ef 3 4 _ rfl
  have e2 : fld wd 20 14 = 0 := ef 2 6 _ rfl
  have e3 : fld wd 6 0 = d.code := ef 0 6 _ rfl
  have e4 : fld wd 13 7 = a.code := ef 1 6 _ rfl
  refine oneWord rfl (by rw [ep]; simp only [packs]; omega) el e0 rfl ?_ fun h => ?_
  · simp [instrWords, e0]
  · simp [decodeRaw, decodeOp0E, e0, e1, e2, e3, e4]

theorem sel (d : VOp) (p : BitVec 3) (a : VOp) (b : VOp) : Statement (.sel d p a b) := by
  obtain ⟨wd, ep, el, ef⟩ := word_of [(7, d.code), (7, a.code), (7, b.code), (5, p.toNat), (6, 14)]
    ⟨d.code_lt, a.code_lt, b.code_lt, by have := p.isLt; omega, by decide, trivial⟩ rfl
  have e0 : fld wd 31 26 = 14 := ef 4 5 _ rfl
  have e1 : fld wd 25 21 = p.toNat := ef 3 4 _ rfl
  have e2 : fld wd 6 0 = d.code := ef 0 6 _ rfl
  have e3 := fld_within e1 23 21 (by decide) (by decide) (by decide)
  have e4 : fld wd 13 7 = a.code := ef 1 6 _ rfl
  have e5 : fld wd 20 14 = b.code := ef 2 6 _ rfl
  refine oneWord rfl (by rw [ep]; simp only [packs]; omega) el e0 rfl ?_ fun h => ?_
  · simp [instrWords, e0]
  · have hp0 : p.toNat ≠ 0 := by simp only [Instr.wellFormed, Bool.and_eq_true, decide_eq_true_eq] at h; exact h.2
    have key : ∀ q : BitVec 3, q.toNat ≠ 0 → q = 1 ∨ q = 2 ∨ q = 3 ∨ q = 4 ∨ q = 5 ∨ q = 6 ∨ q = 7 := by decide
    rcases key p hp0 with rfl | rfl | rfl | rfl | rfl | rfl | rfl <;> simp [decodeRaw, decodeOp0E, e0, e1, e2, e3, e4, e5]

theorem toabs (t : AbsT) (d : VOp) (a : VOp) (p : BitVec 3) : Statement (.toabs t d a p) := by
  obtain ⟨wd, ep, el, ef⟩ := word_of [(7, d.code), (7, a.code), (3, p.toNat), (4, 0), (5, 8 + t.code), (6, 14)]
    ⟨d.code_lt, a.code_lt, p.isLt, by decide, by have := t.code_lt; omega, by decide, trivial⟩ rfl
  have e0 : fld wd 31 26 = 14 := ef 5 5 _ rfl
  have e1 : fld wd 25 21 = 8 + t.code := ef 4 4 _ rfl
  have e2 : fld wd 20 17 = 0 := ef 3 3 _ rfl
  have e3 := fld_within e1 23 21 (by decide) (by decide) (by decide)
  have e4 : fld wd 6 0 = d.code := ef 0 6 _ rfl
  have e5 : fld wd 13 7 = a.code := ef 1 6 _ rfl
  have e6 : fld wd 16 14 = p.toNat := ef 2 2 _ rfl
  refine oneWord rfl (by rw [ep]; simp only [packs]; omega) el e0 rfl ?_ fun h => ?_
  · simp [instrWords, e0]
  · cases t <;> simp [decodeRaw, decodeOp0E, e0, e1, e2, e3, e4, e5, e6, AbsT.code, AbsT.ofCode]

theorem defabs (t : AbsT) (d : VOp) (a : VOp) (b : VOp) : Statement (.defabs t d a b) := by
  obtain ⟨wd, ep, el, ef⟩ := word_of [(7, d.code), (7, a.code), (7, b.code), (5, 16 + t.code), (6, 14)]
    ⟨d.code_lt, a.code_lt, b.code_lt, by have := t.code_lt; omega, by decide, trivial⟩ rfl
  have e0 : fld wd 31 26 = 14 := ef 4 5 _ rfl
  have e1 : fld wd 25 21 = 16 + t.code := ef 3 4 _ rfl
  have e2 := fld_within e1 23 21 (by decide) (by decide) (by decide)
  have e3 : fld wd 6 0 = d.code := ef 0 6 _ rfl
  have e4 : fld wd 13 7 = a.code := ef 1 6 _ rfl
  have e5 : fld wd 20 14 = b.code := ef 2 6 _ rfl
  refine oneWord rfl (by rw [ep]; simp only [packs]; omega) el e0 rfl ?_ fun h => ?_
  · simp [instrWords, e0]
  · cases t <;> simp [decodeRaw, decodeOp0E, e0, e1, e2, e3, e4, e5, AbsT.code, AbsT.ofCode]

theorem plog (o : PlogOp) (d : BitVec 3) (a : BitVec 3) (b : BitVec 3) : Statement (.plog o d a b) := by
  obtain ⟨wd, ep, el, ef⟩ := word_of [(3, d.toNat), (4, 0), (3, a.toNat), (4, 0), (3, b.toNat), (4, 0), (5, 24 + o.code), (6, 14)]
    ⟨d.isLt, by decide, a.isLt, by decide, b.isLt, by decide, by have := o.code_lt; omega, by decide, trivial⟩ rfl
  have e0 : fld wd 31 26 = 14 := ef 7 5 _ rfl
  have e1 : fld wd 25 21 = 24 + o.code := ef 6 4 _ rfl
  have e2 : fld wd 6 3 = 0 := ef 1 3 _ rfl
  have e3 : fld wd 13 10 = 0 := ef 3 3 _ rfl
  have e4 : fld wd 20 17 = 0 := ef 5 3 _ rfl
  have e5 := fld_within e1 22 21 (by decide) (by decide) (by decide)
  have e6 : fld wd 2 0 = d.toNat := ef 0 2 _ rfl
  have e7 : fld wd 9 7 = a.toNat := ef 2 2 _ rfl
  have e8 : fld wd 16 14 = b.toNat := ef 4 2 _ rfl
  refine oneWord rfl (by rw [ep]; simp only [packs]; omega) el e0 rfl ?_ fun h => ?_
  · simp [instrWords, e0]
  · cases o <;> simp [decodeRaw, decodeOp0E, e0, e1, e2, e3, e4, e5, e6, e7, e8, PlogOp.code, PlogOp.ofCode]

theorem gtag (d : BitVec 6) (a : BitVec 6) : Statement (.gtag d a) := by
  obtain ⟨wd, ep, el, ef⟩ := word_of [(6, d.toNat), (1, 0), (6, a.toNat), (8, 0), (5, 28), (6, 14)]
    ⟨d.isLt, by decide, a.isLt, by decide, by decide, by decide, trivial⟩ rfl
  have e0 : fld wd 31 26 = 14 := ef 5 5 _ rfl
  have e1 : fld wd 25 21 = 28 := ef 4 4 _ rfl
  have e2 : fld wd 6 6 = 0 := ef 1 0 _ rfl
  have e3 : fld wd 20 13 = 0 := ef 3 7 _ rfl
  have e4 : fld wd 5 0 = d.toNat := ef 0 5 _ rfl
  have e5 : fld wd 12 7 = a.toNat := ef 2 5 _ rfl
  refine oneWord rfl (by rw [ep]; simp only [packs]; omega) el e0 rfl ?_ fun h => ?_
  · simp [instrWords, e0]
  · simp [decodeRaw, decodeOp0E, e0, e1, e2, e3, e4, e5]

theorem mkg (d : VOp) (a : VOp) : Statement (.mkg d a) := by
  obtain ⟨wd, ep, el, ef⟩ := word_of [(7, d.code), (7, a.code), (7, 0), (5, 29), (6, 14)]
    ⟨d.code_lt, a.code_lt, by decide, by decide, by decide, trivial⟩ rfl
  have e0 : fld wd 31 26 = 14 := ef 4 5 _ rfl
  have e1 : fld wd 25 21 = 29 := ef 3 4 _ rfl
  have e2 : fld wd 20 14 = 0 := ef 2 6 _ rfl
  have e3 : fld wd 6 0 = d.code := ef 0 6 _ rfl
  have e4 : fld wd 13 7 = a.code := ef 1 6 _ rfl
  refine oneWord rfl (by rw [ep]; simp only [packs]; omega) el e0 rfl ?_ fun h => ?_
  · simp [instrWords, e0]
  · simp [decodeRaw, decodeOp0E, e0, e1, e2, e3, e4]

theorem iaddi (d : VOp) (a : VOp) (i : BitVec 9) : Statement (.iaddi d a i) := by
  obtain ⟨wd, ep, el, ef⟩ := word_of [(7, d.code), (7, a.code), (9, i.toNat), (3, 0), (6, 15)]
    ⟨d.code_lt, a.code_lt, i.isLt, by decide, by decide, trivial⟩ rfl
  have e0 : fld wd 31 26 = 15 := ef 4 5 _ rfl
  have e1 : fld wd 25 23 = 0 := ef 3 2 _ rfl
  have e2 : fld wd 6 0 = d.code := ef 0 6 _ rfl
  have e3 : fld wd 13 7 = a.code := ef 1 6 _ rfl
  have e4 : fld wd 22 14 = i.toNat := ef 2 8 _ rfl
  refine oneWord rfl (by rw [ep]; simp only [packs]; omega) el e0 rfl ?_ fun h => ?_
  · simp [instrWords, e0]
  · simp [decodeRaw, decodeOp0F, e0, e1, e2, e3, e4]

theorem andi (d : VOp) (a : VOp) (i : BitVec 9) : Statement (.andi d a i) := by
  obtain ⟨wd, ep, el, ef⟩ := word_of [(7, d.code), (7, a.code), (9, i.toNat), (3, 1), (6, 15)]
    ⟨d.code_lt, a.code_lt, i.isLt, by decide, by decide, trivial⟩ rfl
  have e0 : fld wd 31 26 = 15 := ef 4 5 _ rfl
  have e1 : fld wd 25 23 = 1 := ef 3 2 _ rfl
  have e2 : fld wd 6 0 = d.code := ef 0 6 _ rfl
  have e3 : fld wd 13 7 = a.code := ef 1 6 _ rfl
  have e4 : fld wd 22 14 = i.toNat := ef 2 8 _ rfl
  refine oneWord rfl (by rw [ep]; simp only [packs]; omega) el e0 rfl ?_ fun h => ?_
  · simp [instrWords, e0]
  · simp [decodeRaw, decodeOp0F, e0, e1, e2, e3, e4]

theorem ori (d : VOp) (a : VOp) (i : BitVec 9) : Statement (.ori d a i) := by
  obtain ⟨wd, ep, el, ef⟩ := word_of [(7, d.code), (7, a.code), (9, i.toNat), (3, 2), (6, 15)]
    ⟨d.code_lt, a.code_lt, i.isLt, by decide, by decide, trivial⟩ rfl
  have e0 : fld wd 31 26 = 15 := ef 4 5 _ rfl
  have e1 : fld wd 25 23 = 2 := ef 3 2 _ rfl
  have e2 : fld wd 6 0 = d.code := ef 0 6 _ rfl
  have e3 : fld wd 13 7 = a.code := ef 1 6 _ rfl
  have e4 : fld wd 22 14 = i.toNat := ef 2 8 _ rfl
  refine oneWord rfl (by rw [ep]; simp only [packs]; omega) el e0 rfl ?_ fun h => ?_
  · simp [instrWords, e0]
  · simp [decodeRaw, decodeOp0F, e0, e1, e2, e3, e4]

theorem xori (d : VOp) (a : VOp) (i : BitVec 9) : Statement (.xori d a i) := by
  obtain ⟨wd, ep, el, ef⟩ := word_of [(7, d.code), (7, a.code), (9, i.toNat), (3, 3), (6, 15)]
    ⟨d.code_lt, a.code_lt, i.isLt, by decide, by decide, trivial⟩ rfl
  have e0 : fld wd 31 26 = 15 := ef 4 5 _ rfl
  have e1 : fld wd 25 23 = 3 := ef 3 2 _ rfl
  have e2 : fld wd 6 0 = d.code := ef 0 6 _ rfl
  have e3 : fld wd 13 7 = a.code := ef 1 6 _ rfl
  have e4 : fld wd 22 14 = i.toNat := ef 2 8 _ rfl
  refine oneWord rfl (by rw [ep]; simp only [packs]; omega) el e0 rfl ?_ fun h => ?_
  · simp [instrWords, e0]
  · simp [decodeRaw, decodeOp0F, e0, e1, e2, e3, e4]

theorem shli (d : VOp) (a : VOp) (n : BitVec 5) : Statement (.shli d a n) := by
  obtain ⟨wd, ep, el, ef⟩ := word_of [(7, d.code), (7, a.code), (5, n.toNat), (4, 0), (3, 4), (6, 15)]
    ⟨d.code_lt, a.code_lt, n.isLt, by decide, by decide, by decide, trivial⟩ rfl
  have e0 : fld wd 31 26 = 15 := ef 5 5 _ rfl
  have e1 : fld wd 25 23 = 4 := ef 4 2 _ rfl
  have e2 : fld wd 22 19 = 0 := ef 3 3 _ rfl
  have e3 : fld wd 6 0 = d.code := ef 0 6 _ rfl
  have e4 : fld wd 13 7 = a.code := ef 1 6 _ rfl
  have e5 : fld wd 18 14 = n.toNat := ef 2 4 _ rfl
  refine oneWord rfl (by rw [ep]; simp only [packs]; omega) el e0 rfl ?_ fun h => ?_
  · simp [instrWords, e0]
  · simp [decodeRaw, decodeOp0F, e0, e1, e2, e3, e4, e5]

theorem shri (d : VOp) (a : VOp) (n : BitVec 5) : Statement (.shri d a n) := by
  obtain ⟨wd, ep, el, ef⟩ := word_of [(7, d.code), (7, a.code), (5, n.toNat), (4, 0), (3, 5), (6, 15)]
    ⟨d.code_lt, a.code_lt, n.isLt, by decide, by decide, by decide, trivial⟩ rfl
  have e0 : fld wd 31 26 = 15 := ef 5 5 _ rfl
  have e1 : fld wd 25 23 = 5 := ef 4 2 _ rfl
  have e2 : fld wd 22 19 = 0 := ef 3 3 _ rfl
  have e3 : fld wd 6 0 = d.code := ef 0 6 _ rfl
  have e4 : fld wd 13 7 = a.code := ef 1 6 _ rfl
  have e5 : fld wd 18 14 = n.toNat := ef 2 4 _ rfl
  refine oneWord rfl (by rw [ep]; simp only [packs]; omega) el e0 rfl ?_ fun h => ?_
  · simp [instrWords, e0]
  · simp [decodeRaw, decodeOp0F, e0, e1, e2, e3, e4, e5]

theorem sari (d : VOp) (a : VOp) (n : BitVec 5) : Statement (.sari d a n) := by
  obtain ⟨wd, ep, el, ef⟩ := word_of [(7, d.code), (7, a.code), (5, n.toNat), (4, 0), (3, 6), (6, 15)]
    ⟨d.code_lt, a.code_lt, n.isLt, by decide, by decide, by decide, trivial⟩ rfl
  have e0 : fld wd 31 26 = 15 := ef 5 5 _ rfl
  have e1 : fld wd 25 23 = 6 := ef 4 2 _ rfl
  have e2 : fld wd 22 19 = 0 := ef 3 3 _ rfl
  have e3 : fld wd 6 0 = d.code := ef 0 6 _ rfl
  have e4 : fld wd 13 7 = a.code := ef 1 6 _ rfl
  have e5 : fld wd 18 14 = n.toNat := ef 2 4 _ rfl
  refine oneWord rfl (by rw [ep]; simp only [packs]; omega) el e0 rfl ?_ fun h => ?_
  · simp [instrWords, e0]
  · simp [decodeRaw, decodeOp0F, e0, e1, e2, e3, e4, e5]

theorem movi (d : VOp) (i : BitVec 9) : Statement (.movi d i) := by
  obtain ⟨wd, ep, el, ef⟩ := word_of [(7, d.code), (7, 0), (9, i.toNat), (3, 7), (6, 15)]
    ⟨d.code_lt, by decide, i.isLt, by decide, by decide, trivial⟩ rfl
  have e0 : fld wd 31 26 = 15 := ef 4 5 _ rfl
  have e1 : fld wd 25 23 = 7 := ef 3 2 _ rfl
  have e2 : fld wd 13 7 = 0 := ef 1 6 _ rfl
  have e3 : fld wd 6 0 = d.code := ef 0 6 _ rfl
  have e4 : fld wd 22 14 = i.toNat := ef 2 8 _ rfl
  refine oneWord rfl (by rw [ep]; simp only [packs]; omega) el e0 rfl ?_ fun h => ?_
  · simp [instrWords, e0]
  · simp [decodeRaw, decodeOp0F, e0, e1, e2, e3, e4]

theorem sadd (d : BitVec 6) (a : BitVec 6) (b : BitVec 6) : Statement (.sadd d a b) := by
  obtain ⟨wd, ep, el, ef⟩ := word_of [(6, d.toNat), (6, a.toNat), (6, b.toNat), (8, 0), (6, 16)]
    ⟨d.isLt, a.isLt, b.isLt, by decide, by decide, trivial⟩ rfl
  have e0 : fld wd 31 26 = 16 := ef 4 5 _ rfl
  have e1 : fld wd 25 18 = 0 := ef 3 7 _ rfl
  have e2 : fld wd 5 0 = d.toNat := ef 0 5 _ rfl
  have e3 : fld wd 11 6 = a.toNat := ef 1 5 _ rfl
  have e4 : fld wd 17 12 = b.toNat := ef 2 5 _ rfl
  refine oneWord rfl (by rw [ep]; simp only [packs]; omega) el e0 rfl ?_ fun h => ?_
  · simp [instrWords, e0]
  · simp [decodeRaw, decodeOp10, e0, e1, e2, e3, e4]

theorem ssub (d : BitVec 6) (a : BitVec 6) (b : BitVec 6) : Statement (.ssub d a b) := by
  obtain ⟨wd, ep, el, ef⟩ := word_of [(6, d.toNat), (6, a.toNat), (6, b.toNat), (8, 1), (6, 16)]
    ⟨d.isLt, a.isLt, b.isLt, by decide, by decide, trivial⟩ rfl
  have e0 : fld wd 31 26 = 16 := ef 4 5 _ rfl
  have e1 : fld wd 25 18 = 1 := ef 3 7 _ rfl
  have e2 : fld wd 5 0 = d.toNat := ef 0 5 _ rfl
  have e3 : fld wd 11 6 = a.toNat := ef 1 5 _ rfl
  have e4 : fld wd 17 12 = b.toNat := ef 2 5 _ rfl
  refine oneWord rfl (by rw [ep]; simp only [packs]; omega) el e0 rfl ?_ fun h => ?_
  · simp [instrWords, e0]
  · simp [decodeRaw, decodeOp10, e0, e1, e2, e3, e4]

theorem smul (d : BitVec 6) (a : BitVec 6) (b : BitVec 6) : Statement (.smul d a b) := by
  obtain ⟨wd, ep, el, ef⟩ := word_of [(6, d.toNat), (6, a.toNat), (6, b.toNat), (8, 2), (6, 16)]
    ⟨d.isLt, a.isLt, b.isLt, by decide, by decide, trivial⟩ rfl
  have e0 : fld wd 31 26 = 16 := ef 4 5 _ rfl
  have e1 : fld wd 25 18 = 2 := ef 3 7 _ rfl
  have e2 : fld wd 5 0 = d.toNat := ef 0 5 _ rfl
  have e3 : fld wd 11 6 = a.toNat := ef 1 5 _ rfl
  have e4 : fld wd 17 12 = b.toNat := ef 2 5 _ rfl
  refine oneWord rfl (by rw [ep]; simp only [packs]; omega) el e0 rfl ?_ fun h => ?_
  · simp [instrWords, e0]
  · simp [decodeRaw, decodeOp10, e0, e1, e2, e3, e4]

theorem smulhI (d : BitVec 6) (a : BitVec 6) (b : BitVec 6) : Statement (.smulhI d a b) := by
  obtain ⟨wd, ep, el, ef⟩ := word_of [(6, d.toNat), (6, a.toNat), (6, b.toNat), (8, 3), (6, 16)]
    ⟨d.isLt, a.isLt, b.isLt, by decide, by decide, trivial⟩ rfl
  have e0 : fld wd 31 26 = 16 := ef 4 5 _ rfl
  have e1 : fld wd 25 18 = 3 := ef 3 7 _ rfl
  have e2 : fld wd 5 0 = d.toNat := ef 0 5 _ rfl
  have e3 : fld wd 11 6 = a.toNat := ef 1 5 _ rfl
  have e4 : fld wd 17 12 = b.toNat := ef 2 5 _ rfl
  refine oneWord rfl (by rw [ep]; simp only [packs]; omega) el e0 rfl ?_ fun h => ?_
  · simp [instrWords, e0]
  · simp [decodeRaw, decodeOp10, e0, e1, e2, e3, e4]

theorem smulhN (d : BitVec 6) (a : BitVec 6) (b : BitVec 6) : Statement (.smulhN d a b) := by
  obtain ⟨wd, ep, el, ef⟩ := word_of [(6, d.toNat), (6, a.toNat), (6, b.toNat), (8, 4), (6, 16)]
    ⟨d.isLt, a.isLt, b.isLt, by decide, by decide, trivial⟩ rfl
  have e0 : fld wd 31 26 = 16 := ef 4 5 _ rfl
  have e1 : fld wd 25 18 = 4 := ef 3 7 _ rfl
  have e2 : fld wd 5 0 = d.toNat := ef 0 5 _ rfl
  have e3 : fld wd 11 6 = a.toNat := ef 1 5 _ rfl
  have e4 : fld wd 17 12 = b.toNat := ef 2 5 _ rfl
  refine oneWord rfl (by rw [ep]; simp only [packs]; omega) el e0 rfl ?_ fun h => ?_
  · simp [instrWords, e0]
  · simp [decodeRaw, decodeOp10, e0, e1, e2, e3, e4]

theorem sminI (d : BitVec 6) (a : BitVec 6) (b : BitVec 6) : Statement (.sminI d a b) := by
  obtain ⟨wd, ep, el, ef⟩ := word_of [(6, d.toNat), (6, a.toNat), (6, b.toNat), (8, 5), (6, 16)]
    ⟨d.isLt, a.isLt, b.isLt, by decide, by decide, trivial⟩ rfl
  have e0 : fld wd 31 26 = 16 := ef 4 5 _ rfl
  have e1 : fld wd 25 18 = 5 := ef 3 7 _ rfl
  have e2 : fld wd 5 0 = d.toNat := ef 0 5 _ rfl
  have e3 : fld wd 11 6 = a.toNat := ef 1 5 _ rfl
  have e4 : fld wd 17 12 = b.toNat := ef 2 5 _ rfl
  refine oneWord rfl (by rw [ep]; simp only [packs]; omega) el e0 rfl ?_ fun h => ?_
  · simp [instrWords, e0]
  · simp [decodeRaw, decodeOp10, e0, e1, e2, e3, e4]

theorem smaxI (d : BitVec 6) (a : BitVec 6) (b : BitVec 6) : Statement (.smaxI d a b) := by
  obtain ⟨wd, ep, el, ef⟩ := word_of [(6, d.toNat), (6, a.toNat), (6, b.toNat), (8, 6), (6, 16)]
    ⟨d.isLt, a.isLt, b.isLt, by decide, by decide, trivial⟩ rfl
  have e0 : fld wd 31 26 = 16 := ef 4 5 _ rfl
  have e1 : fld wd 25 18 = 6 := ef 3 7 _ rfl
  have e2 : fld wd 5 0 = d.toNat := ef 0 5 _ rfl
  have e3 : fld wd 11 6 = a.toNat := ef 1 5 _ rfl
  have e4 : fld wd 17 12 = b.toNat := ef 2 5 _ rfl
  refine oneWord rfl (by rw [ep]; simp only [packs]; omega) el e0 rfl ?_ fun h => ?_
  · simp [instrWords, e0]
  · simp [decodeRaw, decodeOp10, e0, e1, e2, e3, e4]

theorem sminN (d : BitVec 6) (a : BitVec 6) (b : BitVec 6) : Statement (.sminN d a b) := by
  obtain ⟨wd, ep, el, ef⟩ := word_of [(6, d.toNat), (6, a.toNat), (6, b.toNat), (8, 7), (6, 16)]
    ⟨d.isLt, a.isLt, b.isLt, by decide, by decide, trivial⟩ rfl
  have e0 : fld wd 31 26 = 16 := ef 4 5 _ rfl
  have e1 : fld wd 25 18 = 7 := ef 3 7 _ rfl
  have e2 : fld wd 5 0 = d.toNat := ef 0 5 _ rfl
  have e3 : fld wd 11 6 = a.toNat := ef 1 5 _ rfl
  have e4 : fld wd 17 12 = b.toNat := ef 2 5 _ rfl
  refine oneWord rfl (by rw [ep]; simp only [packs]; omega) el e0 rfl ?_ fun h => ?_
  · simp [instrWords, e0]
  · simp [decodeRaw, decodeOp10, e0, e1, e2, e3, e4]

theorem smaxN (d : BitVec 6) (a : BitVec 6) (b : BitVec 6) : Statement (.smaxN d a b) := by
  obtain ⟨wd, ep, el, ef⟩ := word_of [(6, d.toNat), (6, a.toNat), (6, b.toNat), (8, 8), (6, 16)]
    ⟨d.isLt, a.isLt, b.isLt, by decide, by decide, trivial⟩ rfl
  have e0 : fld wd 31 26 = 16 := ef 4 5 _ rfl
  have e1 : fld wd 25 18 = 8 := ef 3 7 _ rfl
  have e2 : fld wd 5 0 = d.toNat := ef 0 5 _ rfl
  have e3 : fld wd 11 6 = a.toNat := ef 1 5 _ rfl
  have e4 : fld wd 17 12 = b.toNat := ef 2 5 _ rfl
  refine oneWord rfl (by rw [ep]; simp only [packs]; omega) el e0 rfl ?_ fun h => ?_
  · simp [instrWords, e0]
  · simp [decodeRaw, decodeOp10, e0, e1, e2, e3, e4]

theorem sand (d : BitVec 6) (a : BitVec 6) (b : BitVec 6) : Statement (.sand d a b) := by
  obtain ⟨wd, ep, el, ef⟩ := word_of [(6, d.toNat), (6, a.toNat), (6, b.toNat), (8, 9), (6, 16)]
    ⟨d.isLt, a.isLt, b.isLt, by decide, by decide, trivial⟩ rfl
  have e0 : fld wd 31 26 = 16 := ef 4 5 _ rfl
  have e1 : fld wd 25 18 = 9 := ef 3 7 _ rfl
  have e2 : fld wd 5 0 = d.toNat := ef 0 5 _ rfl
  have e3 : fld wd 11 6 = a.toNat := ef 1 5 _ rfl
  have e4 : fld wd 17 12 = b.toNat := ef 2 5 _ rfl
  refine oneWord rfl (by rw [ep]; simp only [packs]; omega) el e0 rfl ?_ fun h => ?_
  · simp [instrWords, e0]
  · simp [decodeRaw, decodeOp10, e0, e1, e2, e3, e4]

theorem sor (d : BitVec 6) (a : BitVec 6) (b : BitVec 6) : Statement (.sor d a b) := by
  obtain ⟨wd, ep, el, ef⟩ := word_of [(6, d.toNat), (6, a.toNat), (6, b.toNat), (8, 10), (6, 16)]
    ⟨d.isLt, a.isLt, b.isLt, by decide, by decide, trivial⟩ rfl
  have e0 : fld wd 31 26 = 16 := ef 4 5 _ rfl
  have e1 : fld wd 25 18 = 10 := ef 3 7 _ rfl
  have e2 : fld wd 5 0 = d.toNat := ef 0 5 _ rfl
  have e3 : fld wd 11 6 = a.toNat := ef 1 5 _ rfl
  have e4 : fld wd 17 12 = b.toNat := ef 2 5 _ rfl
  refine oneWord rfl (by rw [ep]; simp only [packs]; omega) el e0 rfl ?_ fun h => ?_
  · simp [instrWords, e0]
  · simp [decodeRaw, decodeOp10, e0, e1, e2, e3, e4]

theorem sxor (d : BitVec 6) (a : BitVec 6) (b : BitVec 6) : Statement (.sxor d a b) := by
  obtain ⟨wd, ep, el, ef⟩ := word_of [(6, d.toNat), (6, a.toNat), (6, b.toNat), (8, 11), (6, 16)]
    ⟨d.isLt, a.isLt, b.isLt, by decide, by decide, trivial⟩ rfl
  have e0 : fld wd 31 26 = 16 := ef 4 5 _ rfl
  have e1 : fld wd 25 18 = 11 := ef 3 7 _ rfl
  have e2 : fld wd 5 0 = d.toNat := ef 0 5 _ rfl
  have e3 : fld wd 11 6 = a.toNat := ef 1 5 _ rfl
  have e4 : fld wd 17 12 = b.toNat := ef 2 5 _ rfl
  refine oneWord rfl (by rw [ep]; simp only [packs]; omega) el e0 rfl ?_ fun h => ?_
  · simp [instrWords, e0]
  · simp [decodeRaw, decodeOp10, e0, e1, e2, e3, e4]

theorem sshl (d : BitVec 6) (a : BitVec 6) (b : BitVec 6) : Statement (.sshl d a b) := by
  obtain ⟨wd, ep, el, ef⟩ := word_of [(6, d.toNat), (6, a.toNat), (6, b.toNat), (8, 12), (6, 16)]
    ⟨d.isLt, a.isLt, b.isLt, by decide, by decide, trivial⟩ rfl
  have e0 : fld wd 31 26 = 16 := ef 4 5 _ rfl
  have e1 : fld wd 25 18 = 12 := ef 3 7 _ rfl
  have e2 : fld wd 5 0 = d.toNat := ef 0 5 _ rfl
  have e3 : fld wd 11 6 = a.toNat := ef 1 5 _ rfl
  have e4 : fld wd 17 12 = b.toNat := ef 2 5 _ rfl
  refine oneWord rfl (by rw [ep]; simp only [packs]; omega) el e0 rfl ?_ fun h => ?_
  · simp [instrWords, e0]
  · simp [decodeRaw, decodeOp10, e0, e1, e2, e3, e4]

theorem sshr (d : BitVec 6) (a : BitVec 6) (b : BitVec 6) : Statement (.sshr d a b) := by
  obtain ⟨wd, ep, el, ef⟩ := word_of [(6, d.toNat), (6, a.toNat), (6, b.toNat), (8, 13), (6, 16)]
    ⟨d.isLt, a.isLt, b.isLt, by decide, by decide, trivial⟩ rfl
  have e0 : fld wd 31 26 = 16 := ef 4 5 _ rfl
  have e1 : fld wd 25 18 = 13 := ef 3 7 _ rfl
  have e2 : fld wd 5 0 = d.toNat := ef 0 5 _ rfl
  have e3 : fld wd 11 6 = a.toNat := ef 1 5 _ rfl
  have e4 : fld wd 17 12 = b.toNat := ef 2 5 _ rfl
  refine oneWord rfl (by rw [ep]; simp only [packs]; omega) el e0 rfl ?_ fun h => ?_
  · simp [instrWords, e0]
  · simp [decodeRaw, decodeOp10, e0, e1, e2, e3, e4]

theorem ssar (d : BitVec 6) (a : BitVec 6) (b : BitVec 6) : Statement (.ssar d a b) := by
  obtain ⟨wd, ep, el, ef⟩ := word_of [(6, d.toNat), (6, a.toNat), (6, b.toNat), (8, 14), (6, 16)]
    ⟨d.isLt, a.isLt, b.isLt, by decide, by decide, trivial⟩ rfl
  have e0 : fld wd 31 26 = 16 := ef 4 5 _ rfl
  have e1 : fld wd 25 18 = 14 := ef 3 7 _ rfl
  have e2 : fld wd 5 0 = d.toNat := ef 0 5 _ rfl
  have e3 : fld wd 11 6 = a.toNat := ef 1 5 _ rfl
  have e4 : fld wd 17 12 = b.toNat := ef 2 5 _ rfl
  refine oneWord rfl (by rw [ep]; simp only [packs]; omega) el e0 rfl ?_ fun h => ?_
  · simp [instrWords, e0]
  · simp [decodeRaw, decodeOp10, e0, e1, e2, e3, e4]

theorem sbfeI (d : BitVec 6) (a : BitVec 6) (b : BitVec 6) : Statement (.sbfeI d a b) := by
  obtain ⟨wd, ep, el, ef⟩ := word_of [(6, d.toNat), (6, a.toNat), (6, b.toNat), (8, 15), (6, 16)]
    ⟨d.isLt, a.isLt, b.isLt, by decide, by decide, trivial⟩ rfl
  have e0 : fld wd 31 26 = 16 := ef 4 5 _ rfl
  have e1 : fld wd 25 18 = 15 := ef 3 7 _ rfl
  have e2 : fld wd 5 0 = d.toNat := ef 0 5 _ rfl
  have e3 : fld wd 11 6 = a.toNat := ef 1 5 _ rfl
  have e4 : fld wd 17 12 = b.toNat := ef 2 5 _ rfl
  refine oneWord rfl (by rw [ep]; simp only [packs]; omega) el e0 rfl ?_ fun h => ?_
  · simp [instrWords, e0]
  · simp [decodeRaw, decodeOp10, e0, e1, e2, e3, e4]

theorem sbfeN (d : BitVec 6) (a : BitVec 6) (b : BitVec 6) : Statement (.sbfeN d a b) := by
  obtain ⟨wd, ep, el, ef⟩ := word_of [(6, d.toNat), (6, a.toNat), (6, b.toNat), (8, 16), (6, 16)]
    ⟨d.isLt, a.isLt, b.isLt, by decide, by decide, trivial⟩ rfl
  have e0 : fld wd 31 26 = 16 := ef 4 5 _ rfl
  have e1 : fld wd 25 18 = 16 := ef 3 7 _ rfl
  have e2 : fld wd 5 0 = d.toNat := ef 0 5 _ rfl
  have e3 : fld wd 11 6 = a.toNat := ef 1 5 _ rfl
  have e4 : fld wd 17 12 = b.toNat := ef 2 5 _ rfl
  refine oneWord rfl (by rw [ep]; simp only [packs]; omega) el e0 rfl ?_ fun h => ?_
  · simp [instrWords, e0]
  · simp [decodeRaw, decodeOp10, e0, e1, e2, e3, e4]

theorem sbfi (d : BitVec 6) (a : BitVec 6) (b : BitVec 6) : Statement (.sbfi d a b) := by
  obtain ⟨wd, ep, el, ef⟩ := word_of [(6, d.toNat), (6, a.toNat), (6, b.toNat), (8, 17), (6, 16)]
    ⟨d.isLt, a.isLt, b.isLt, by decide, by decide, trivial⟩ rfl
  have e0 : fld wd 31 26 = 16 := ef 4 5 _ rfl
  have e1 : fld wd 25 18 = 17 := ef 3 7 _ rfl
  have e2 : fld wd 5 0 = d.toNat := ef 0 5 _ rfl
  have e3 : fld wd 11 6 = a.toNat := ef 1 5 _ rfl
  have e4 : fld wd 17 12 = b.toNat := ef 2 5 _ rfl
  refine oneWord rfl (by rw [ep]; simp only [packs]; omega) el e0 rfl ?_ fun h => ?_
  · simp [instrWords, e0]
  · simp [decodeRaw, decodeOp10, e0, e1, e2, e3, e4]

theorem spopc (d : BitVec 6) (a : BitVec 6) : Statement (.spopc d a) := by
  obtain ⟨wd, ep, el, ef⟩ := word_of [(6, d.toNat), (6, a.toNat), (6, 0), (8, 18), (6, 16)]
    ⟨d.isLt, a.isLt, by decide, by decide, by decide, trivial⟩ rfl
  have e0 : fld wd 31 26 = 16 := ef 4 5 _ rfl
  have e1 : fld wd 25 18 = 18 := ef 3 7 _ rfl
  have e2 : fld wd 17 12 = 0 := ef 2 5 _ rfl
  have e3 : fld wd 5 0 = d.toNat := ef 0 5 _ rfl
  have e4 : fld wd 11 6 = a.toNat := ef 1 5 _ rfl
  refine oneWord rfl (by rw [ep]; simp only [packs]; omega) el e0 rfl ?_ fun h => ?_
  · simp [instrWords, e0]
  · simp [decodeRaw, decodeOp10, e0, e1, e2, e3, e4]

theorem sclz (d : BitVec 6) (a : BitVec 6) : Statement (.sclz d a) := by
  obtain ⟨wd, ep, el, ef⟩ := word_of [(6, d.toNat), (6, a.toNat), (6, 0), (8, 19), (6, 16)]
    ⟨d.isLt, a.isLt, by decide, by decide, by decide, trivial⟩ rfl
  have e0 : fld wd 31 26 = 16 := ef 4 5 _ rfl
  have e1 : fld wd 25 18 = 19 := ef 3 7 _ rfl
  have e2 : fld wd 17 12 = 0 := ef 2 5 _ rfl
  have e3 : fld wd 5 0 = d.toNat := ef 0 5 _ rfl
  have e4 : fld wd 11 6 = a.toNat := ef 1 5 _ rfl
  refine oneWord rfl (by rw [ep]; simp only [packs]; omega) el e0 rfl ?_ fun h => ?_
  · simp [instrWords, e0]
  · simp [decodeRaw, decodeOp10, e0, e1, e2, e3, e4]

theorem sadd64 (d : BitVec 6) (a : BitVec 6) (b : BitVec 6) : Statement (.sadd64 d a b) := by
  obtain ⟨wd, ep, el, ef⟩ := word_of [(6, d.toNat), (6, a.toNat), (6, b.toNat), (8, 20), (6, 16)]
    ⟨d.isLt, a.isLt, b.isLt, by decide, by decide, trivial⟩ rfl
  have e0 : fld wd 31 26 = 16 := ef 4 5 _ rfl
  have e1 : fld wd 25 18 = 20 := ef 3 7 _ rfl
  have e2 : fld wd 5 0 = d.toNat := ef 0 5 _ rfl
  have e3 : fld wd 11 6 = a.toNat := ef 1 5 _ rfl
  have e4 : fld wd 17 12 = b.toNat := ef 2 5 _ rfl
  refine oneWord rfl (by rw [ep]; simp only [packs]; omega) el e0 rfl ?_ fun h => ?_
  · simp [instrWords, e0]
  · simp [decodeRaw, decodeOp10, e0, e1, e2, e3, e4]

theorem ssub64 (d : BitVec 6) (a : BitVec 6) (b : BitVec 6) : Statement (.ssub64 d a b) := by
  obtain ⟨wd, ep, el, ef⟩ := word_of [(6, d.toNat), (6, a.toNat), (6, b.toNat), (8, 21), (6, 16)]
    ⟨d.isLt, a.isLt, b.isLt, by decide, by decide, trivial⟩ rfl
  have e0 : fld wd 31 26 = 16 := ef 4 5 _ rfl
  have e1 : fld wd 25 18 = 21 := ef 3 7 _ rfl
  have e2 : fld wd 5 0 = d.toNat := ef 0 5 _ rfl
  have e3 : fld wd 11 6 = a.toNat := ef 1 5 _ rfl
  have e4 : fld wd 17 12 = b.toNat := ef 2 5 _ rfl
  refine oneWord rfl (by rw [ep]; simp only [packs]; omega) el e0 rfl ?_ fun h => ?_
  · simp [instrWords, e0]
  · simp [decodeRaw, decodeOp10, e0, e1, e2, e3, e4]

theorem sshl64 (d : BitVec 6) (a : BitVec 6) (b : BitVec 6) : Statement (.sshl64 d a b) := by
  obtain ⟨wd, ep, el, ef⟩ := word_of [(6, d.toNat), (6, a.toNat), (6, b.toNat), (8, 22), (6, 16)]
    ⟨d.isLt, a.isLt, b.isLt, by decide, by decide, trivial⟩ rfl
  have e0 : fld wd 31 26 = 16 := ef 4 5 _ rfl
  have e1 : fld wd 25 18 = 22 := ef 3 7 _ rfl
  have e2 : fld wd 5 0 = d.toNat := ef 0 5 _ rfl
  have e3 : fld wd 11 6 = a.toNat := ef 1 5 _ rfl
  have e4 : fld wd 17 12 = b.toNat := ef 2 5 _ rfl
  refine oneWord rfl (by rw [ep]; simp only [packs]; omega) el e0 rfl ?_ fun h => ?_
  · simp [instrWords, e0]
  · simp [decodeRaw, decodeOp10, e0, e1, e2, e3, e4]

theorem scmpEq (d : BitVec 6) (a : BitVec 6) (b : BitVec 6) : Statement (.scmpEq d a b) := by
  obtain ⟨wd, ep, el, ef⟩ := word_of [(6, d.toNat), (6, a.toNat), (6, b.toNat), (8, 23), (6, 16)]
    ⟨d.isLt, a.isLt, b.isLt, by decide, by decide, trivial⟩ rfl
  have e0 : fld wd 31 26 = 16 := ef 4 5 _ rfl
  have e1 : fld wd 25 18 = 23 := ef 3 7 _ rfl
  have e2 : fld wd 5 0 = d.toNat := ef 0 5 _ rfl
  have e3 : fld wd 11 6 = a.toNat := ef 1 5 _ rfl
  have e4 : fld wd 17 12 = b.toNat := ef 2 5 _ rfl
  refine oneWord rfl (by rw [ep]; simp only [packs]; omega) el e0 rfl ?_ fun h => ?_
  · simp [instrWords, e0]
  · simp [decodeRaw, decodeOp10, e0, e1, e2, e3, e4]

theorem scmpLtI (d : BitVec 6) (a : BitVec 6) (b : BitVec 6) : Statement (.scmpLtI d a b) := by
  obtain ⟨wd, ep, el, ef⟩ := word_of [(6, d.toNat), (6, a.toNat), (6, b.toNat), (8, 24), (6, 16)]
    ⟨d.isLt, a.isLt, b.isLt, by decide, by decide, trivial⟩ rfl
  have e0 : fld wd 31 26 = 16 := ef 4 5 _ rfl
  have e1 : fld wd 25 18 = 24 := ef 3 7 _ rfl
  have e2 : fld wd 5 0 = d.toNat := ef 0 5 _ rfl
  have e3 : fld wd 11 6 = a.toNat := ef 1 5 _ rfl
  have e4 : fld wd 17 12 = b.toNat := ef 2 5 _ rfl
  refine oneWord rfl (by rw [ep]; simp only [packs]; omega) el e0 rfl ?_ fun h => ?_
  · simp [instrWords, e0]
  · simp [decodeRaw, decodeOp10, e0, e1, e2, e3, e4]

theorem scmpLtN (d : BitVec 6) (a : BitVec 6) (b : BitVec 6) : Statement (.scmpLtN d a b) := by
  obtain ⟨wd, ep, el, ef⟩ := word_of [(6, d.toNat), (6, a.toNat), (6, b.toNat), (8, 25), (6, 16)]
    ⟨d.isLt, a.isLt, b.isLt, by decide, by decide, trivial⟩ rfl
  have e0 : fld wd 31 26 = 16 := ef 4 5 _ rfl
  have e1 : fld wd 25 18 = 25 := ef 3 7 _ rfl
  have e2 : fld wd 5 0 = d.toNat := ef 0 5 _ rfl
  have e3 : fld wd 11 6 = a.toNat := ef 1 5 _ rfl
  have e4 : fld wd 17 12 = b.toNat := ef 2 5 _ rfl
  refine oneWord rfl (by rw [ep]; simp only [packs]; omega) el e0 rfl ?_ fun h => ?_
  · simp [instrWords, e0]
  · simp [decodeRaw, decodeOp10, e0, e1, e2, e3, e4]

theorem saddi (d : BitVec 6) (a : BitVec 6) (i : BitVec 10) : Statement (.saddi d a i) := by
  obtain ⟨wd, ep, el, ef⟩ := word_of [(6, d.toNat), (6, a.toNat), (10, i.toNat), (4, 0), (6, 17)]
    ⟨d.isLt, a.isLt, i.isLt, by decide, by decide, trivial⟩ rfl
  have e0 : fld wd 31 26 = 17 := ef 4 5 _ rfl
  have e1 : fld wd 25 22 = 0 := ef 3 3 _ rfl
  have e2 : fld wd 5 0 = d.toNat := ef 0 5 _ rfl
  have e3 : fld wd 11 6 = a.toNat := ef 1 5 _ rfl
  have e4 : fld wd 21 12 = i.toNat := ef 2 9 _ rfl
  refine oneWord rfl (by rw [ep]; simp only [packs]; omega) el e0 rfl ?_ fun h => ?_
  · simp [instrWords, e0]
  · simp [decodeRaw, decodeOp11, e0, e1, e2, e3, e4]

theorem sandi (d : BitVec 6) (a : BitVec 6) (i : BitVec 10) : Statement (.sandi d a i) := by
  obtain ⟨wd, ep, el, ef⟩ := word_of [(6, d.toNat), (6, a.toNat), (10, i.toNat), (4, 1), (6, 17)]
    ⟨d.isLt, a.isLt, i.isLt, by decide, by decide, trivial⟩ rfl
  have e0 : fld wd 31 26 = 17 := ef 4 5 _ rfl
  have e1 : fld wd 25 22 = 1 := ef 3 3 _ rfl
  have e2 : fld wd 5 0 = d.toNat := ef 0 5 _ rfl
  have e3 : fld wd 11 6 = a.toNat := ef 1 5 _ rfl
  have e4 : fld wd 21 12 = i.toNat := ef 2 9 _ rfl
  refine oneWord rfl (by rw [ep]; simp only [packs]; omega) el e0 rfl ?_ fun h => ?_
  · simp [instrWords, e0]
  · simp [decodeRaw, decodeOp11, e0, e1, e2, e3, e4]

theorem sori (d : BitVec 6) (a : BitVec 6) (i : BitVec 10) : Statement (.sori d a i) := by
  obtain ⟨wd, ep, el, ef⟩ := word_of [(6, d.toNat), (6, a.toNat), (10, i.toNat), (4, 2), (6, 17)]
    ⟨d.isLt, a.isLt, i.isLt, by decide, by decide, trivial⟩ rfl
  have e0 : fld wd 31 26 = 17 := ef 4 5 _ rfl
  have e1 : fld wd 25 22 = 2 := ef 3 3 _ rfl
  have e2 : fld wd 5 0 = d.toNat := ef 0 5 _ rfl
  have e3 : fld wd 11 6 = a.toNat := ef 1 5 _ rfl
  have e4 : fld wd 21 12 = i.toNat := ef 2 9 _ rfl
  refine oneWord rfl (by rw [ep]; simp only [packs]; omega) el e0 rfl ?_ fun h => ?_
  · simp [instrWords, e0]
  · simp [decodeRaw, decodeOp11, e0, e1, e2, e3, e4]

theorem sxori (d : BitVec 6) (a : BitVec 6) (i : BitVec 10) : Statement (.sxori d a i) := by
  obtain ⟨wd, ep, el, ef⟩ := word_of [(6, d.toNat), (6, a.toNat), (10, i.toNat), (4, 3), (6, 17)]
    ⟨d.isLt, a.isLt, i.isLt, by decide, by decide, trivial⟩ rfl
  have e0 : fld wd 31 26 = 17 := ef 4 5 _ rfl
  have e1 : fld wd 25 22 = 3 := ef 3 3 _ rfl
  have e2 : fld wd 5 0 = d.toNat := ef 0 5 _ rfl
  have e3 : fld wd 11 6 = a.toNat := ef 1 5 _ rfl
  have e4 : fld wd 21 12 = i.toNat := ef 2 9 _ rfl
  refine oneWord rfl (by rw [ep]; simp only [packs]; omega) el e0 rfl ?_ fun h => ?_
  · simp [instrWords, e0]
  · simp [decodeRaw, decodeOp11, e0, e1, e2, e3, e4]

theorem sshli (d : BitVec 6) (a : BitVec 6) (n : BitVec 5) : Statement (.sshli d a n) := by
  obtain ⟨wd, ep, el, ef⟩ := word_of [(6, d.toNat), (6, a.toNat), (5, n.toNat), (5, 0), (4, 4), (6, 17)]
    ⟨d.isLt, a.isLt, n.isLt, by decide, by decide, by decide, trivial⟩ rfl
  have e0 : fld wd 31 26 = 17 := ef 5 5 _ rfl
  have e1 : fld wd 25 22 = 4 := ef 4 3 _ rfl
  have e2 : fld wd 21 17 = 0 := ef 3 4 _ rfl
  have e3 : fld wd 5 0 = d.toNat := ef 0 5 _ rfl
  have e4 : fld wd 11 6 = a.toNat := ef 1 5 _ rfl
  have e5 : fld wd 16 12 = n.toNat := ef 2 4 _ rfl
  refine oneWord rfl (by rw [ep]; simp only [packs]; omega) el e0 rfl ?_ fun h => ?_
  · simp [instrWords, e0]
  · simp [decodeRaw, decodeOp11, e0, e1, e2, e3, e4, e5]

theorem sshri (d : BitVec 6) (a : BitVec 6) (n : BitVec 5) : Statement (.sshri d a n) := by
  obtain ⟨wd, ep, el, ef⟩ := word_of [(6, d.toNat), (6, a.toNat), (5, n.toNat), (5, 0), (4, 5), (6, 17)]
    ⟨d.isLt, a.isLt, n.isLt, by decide, by decide, by decide, trivial⟩ rfl
  have e0 : fld wd 31 26 = 17 := ef 5 5 _ rfl
  have e1 : fld wd 25 22 = 5 := ef 4 3 _ rfl
  have e2 : fld wd 21 17 = 0 := ef 3 4 _ rfl
  have e3 : fld wd 5 0 = d.toNat := ef 0 5 _ rfl
  have e4 : fld wd 11 6 = a.toNat := ef 1 5 _ rfl
  have e5 : fld wd 16 12 = n.toNat := ef 2 4 _ rfl
  refine oneWord rfl (by rw [ep]; simp only [packs]; omega) el e0 rfl ?_ fun h => ?_
  · simp [instrWords, e0]
  · simp [decodeRaw, decodeOp11, e0, e1, e2, e3, e4, e5]

theorem ssari (d : BitVec 6) (a : BitVec 6) (n : BitVec 5) : Statement (.ssari d a n) := by
  obtain ⟨wd, ep, el, ef⟩ := word_of [(6, d.toNat), (6, a.toNat), (5, n.toNat), (5, 0), (4, 6), (6, 17)]
    ⟨d.isLt, a.isLt, n.isLt, by decide, by decide, by decide, trivial⟩ rfl
  have e0 : fld wd 31 26 = 17 := ef 5 5 _ rfl
  have e1 : fld wd 25 22 = 6 := ef 4 3 _ rfl
  have e2 : fld wd 21 17 = 0 := ef 3 4 _ rfl
  have e3 : fld wd 5 0 = d.toNat := ef 0 5 _ rfl
  have e4 : fld wd 11 6 = a.toNat := ef 1 5 _ rfl
  have e5 : fld wd 16 12 = n.toNat := ef 2 4 _ rfl
  refine oneWord rfl (by rw [ep]; simp only [packs]; omega) el e0 rfl ?_ fun h => ?_
  · simp [instrWords, e0]
  · simp [decodeRaw, decodeOp11, e0, e1, e2, e3, e4, e5]

theorem scmpiLt (d : BitVec 6) (a : BitVec 6) (i : BitVec 10) : Statement (.scmpiLt d a i) := by
  obtain ⟨wd, ep, el, ef⟩ := word_of [(6, d.toNat), (6, a.toNat), (10, i.toNat), (4, 7), (6, 17)]
    ⟨d.isLt, a.isLt, i.isLt, by decide, by decide, trivial⟩ rfl
  have e0 : fld wd 31 26 = 17 := ef 4 5 _ rfl
  have e1 : fld wd 25 22 = 7 := ef 3 3 _ rfl
  have e2 : fld wd 5 0 = d.toNat := ef 0 5 _ rfl
  have e3 : fld wd 11 6 = a.toNat := ef 1 5 _ rfl
  have e4 : fld wd 21 12 = i.toNat := ef 2 9 _ rfl
  refine oneWord rfl (by rw [ep]; simp only [packs]; omega) el e0 rfl ?_ fun h => ?_
  · simp [instrWords, e0]
  · simp [decodeRaw, decodeOp11, e0, e1, e2, e3, e4]

theorem smovi (d : BitVec 6) (i : BitVec 10) : Statement (.smovi d i) := by
  obtain ⟨wd, ep, el, ef⟩ := word_of [(6, d.toNat), (6, 0), (10, i.toNat), (4, 8), (6, 17)]
    ⟨d.isLt, by decide, i.isLt, by decide, by decide, trivial⟩ rfl
  have e0 : fld wd 31 26 = 17 := ef 4 5 _ rfl
  have e1 : fld wd 25 22 = 8 := ef 3 3 _ rfl
  have e2 : fld wd 11 6 = 0 := ef 1 5 _ rfl
  have e3 : fld wd 5 0 = d.toNat := ef 0 5 _ rfl
  have e4 : fld wd 21 12 = i.toNat := ef 2 9 _ rfl
  refine oneWord rfl (by rw [ep]; simp only [packs]; omega) el e0 rfl ?_ fun h => ?_
  · simp [instrWords, e0]
  · simp [decodeRaw, decodeOp11, e0, e1, e2, e3, e4]

theorem srd (d : BitVec 6) (n : BitVec 12) : Statement (.srd d n) := by
  obtain ⟨wd, ep, el, ef⟩ := word_of [(6, d.toNat), (12, n.toNat), (8, 0), (6, 18)]
    ⟨d.isLt, n.isLt, by decide, by decide, trivial⟩ rfl
  have e0 : fld wd 31 26 = 18 := ef 3 5 _ rfl
  have e1 : fld wd 25 18 = 0 := ef 2 7 _ rfl
  have e2 : fld wd 5 0 = d.toNat := ef 0 5 _ rfl
  have e3 : fld wd 17 6 = n.toNat := ef 1 11 _ rfl
  refine oneWord rfl (by rw [ep]; simp only [packs]; omega) el e0 rfl ?_ fun h => ?_
  · simp [instrWords, e0, e1]
  · simp [decodeRaw, decodeOp12, e0, e1, e2, e3]

theorem swr (n : BitVec 12) (s : BitVec 6) : Statement (.swr n s) := by
  obtain ⟨wd, ep, el, ef⟩ := word_of [(6, s.toNat), (12, n.toNat), (8, 1), (6, 18)]
    ⟨s.isLt, n.isLt, by decide, by decide, trivial⟩ rfl
  have e0 : fld wd 31 26 = 18 := ef 3 5 _ rfl
  have e1 : fld wd 25 18 = 1 := ef 2 7 _ rfl
  have e2 : fld wd 17 6 = n.toNat := ef 1 11 _ rfl
  have e3 : fld wd 5 0 = s.toNat := ef 0 5 _ rfl
  refine oneWord rfl (by rw [ep]; simp only [packs]; omega) el e0 rfl ?_ fun h => ?_
  · simp [instrWords, e0, e1]
  · simp [decodeRaw, decodeOp12, e0, e1, e2, e3]

theorem vtos (d : BitVec 6) (a : BitVec 6) (l : BitVec 6) : Statement (.vtos d a l) := by
  obtain ⟨wd, ep, el, ef⟩ := word_of [(6, d.toNat), (6, a.toNat), (6, l.toNat), (8, 2), (6, 18)]
    ⟨d.isLt, a.isLt, l.isLt, by decide, by decide, trivial⟩ rfl
  have e0 : fld wd 31 26 = 18 := ef 4 5 _ rfl
  have e1 : fld wd 25 18 = 2 := ef 3 7 _ rfl
  have e2 : fld wd 5 0 = d.toNat := ef 0 5 _ rfl
  have e3 : fld wd 11 6 = a.toNat := ef 1 5 _ rfl
  have e4 : fld wd 17 12 = l.toNat := ef 2 5 _ rfl
  refine oneWord rfl (by rw [ep]; simp only [packs]; omega) el e0 rfl ?_ fun h => ?_
  · simp [instrWords, e0, e1]
  · simp [decodeRaw, decodeOp12, e0, e1, e2, e3, e4]

theorem stov (d : BitVec 6) (s : BitVec 6) : Statement (.stov d s) := by
  obtain ⟨wd, ep, el, ef⟩ := word_of [(6, d.toNat), (6, s.toNat), (6, 0), (8, 3), (6, 18)]
    ⟨d.isLt, s.isLt, by decide, by decide, by decide, trivial⟩ rfl
  have e0 : fld wd 31 26 = 18 := ef 4 5 _ rfl
  have e1 : fld wd 25 18 = 3 := ef 3 7 _ rfl
  have e2 : fld wd 17 12 = 0 := ef 2 5 _ rfl
  have e3 : fld wd 5 0 = d.toNat := ef 0 5 _ rfl
  have e4 : fld wd 11 6 = s.toNat := ef 1 5 _ rfl
  refine oneWord rfl (by rw [ep]; simp only [packs]; omega) el e0 rfl ?_ fun h => ?_
  · simp [instrWords, e0, e1]
  · simp [decodeRaw, decodeOp12, e0, e1, e2, e3, e4]

theorem smovw (d : BitVec 6) (w : BitVec 32) : Statement (.smovw d w) := by
  obtain ⟨wd, ep, el, ef⟩ := word_of [(6, d.toNat), (12, 0), (8, 4), (6, 18)]
    ⟨d.isLt, by decide, by decide, by decide, trivial⟩ rfl
  have e0 : fld wd 31 26 = 18 := ef 3 5 _ rfl
  have e1 : fld wd 25 18 = 4 := ef 2 7 _ rfl
  have e2 : fld wd 17 6 = 0 := ef 1 11 _ rfl
  have e3 : fld wd 5 0 = d.toNat := ef 0 5 _ rfl
  obtain ⟨xd, fp, fl, ff⟩ := word_of [(32, w.toNat)]
    ⟨w.isLt, trivial⟩ rfl
  have f0 : fld xd 31 0 = w.toNat := ff 0 31 _ rfl
  refine twoWords rfl (by rw [ep]; simp only [packs]; omega) (by rw [fp]; simp only [packs]; omega) el fl e0 rfl ?_ fun h => ?_
  · simp [instrWords, e0, e1]
  · simp [decodeRaw, decodeOp12, e0, e1, e2, e3, f0]

theorem bdset (d : BitVec 4) (a : BitVec 6) (c : BitVec 6) : Statement (.bdset d a c) := by
  obtain ⟨wd, ep, el, ef⟩ := word_of [(4, d.toNat), (2, 0), (6, a.toNat), (6, c.toNat), (8, 5), (6, 18)]
    ⟨d.isLt, by decide, a.isLt, c.isLt, by decide, by decide, trivial⟩ rfl
  have e0 : fld wd 31 26 = 18 := ef 5 5 _ rfl
  have e1 : fld wd 25 18 = 5 := ef 4 7 _ rfl
  have e2 : fld wd 5 4 = 0 := ef 1 1 _ rfl
  have e3 : fld wd 3 0 = d.toNat := ef 0 3 _ rfl
  have e4 : fld wd 11 6 = a.toNat := ef 2 5 _ rfl
  have e5 : fld wd 17 12 = c.toNat := ef 3 5 _ rfl
  refine oneWord rfl (by rw [ep]; simp only [packs]; omega) el e0 rfl ?_ fun h => ?_
  · simp [instrWords, e0, e1]
  · simp [decodeRaw, decodeOp12, e0, e1, e2, e3, e4, e5]

theorem slui (d : BitVec 6) (i : BitVec 20) : Statement (.slui d i) := by
  obtain ⟨wd, ep, el, ef⟩ := word_of [(6, d.toNat), (20, i.toNat), (6, 19)]
    ⟨d.isLt, i.isLt, by decide, trivial⟩ rfl
  have e0 : fld wd 31 26 = 19 := ef 2 5 _ rfl
  have e1 : fld wd 5 0 = d.toNat := ef 0 5 _ rfl
  have e2 : fld wd 25 6 = i.toNat := ef 1 19 _ rfl
  refine oneWord rfl (by rw [ep]; simp only [packs]; omega) el e0 rfl ?_ fun h => ?_
  · simp [instrWords, e0]
  · simp [decodeRaw, decodeOp13, e0, e1, e2]

theorem bra (o : BitVec 12) : Statement (.bra o) := by
  obtain ⟨wd, ep, el, ef⟩ := word_of [(12, o.toNat), (10, 0), (4, 0), (6, 20)]
    ⟨o.isLt, by decide, by decide, by decide, trivial⟩ rfl
  have e0 : fld wd 31 26 = 20 := ef 3 5 _ rfl
  have e1 : fld wd 25 22 = 0 := ef 2 3 _ rfl
  have e2 : fld wd 21 12 = 0 := ef 1 9 _ rfl
  have e3 : fld wd 11 0 = o.toNat := ef 0 11 _ rfl
  refine oneWord rfl (by rw [ep]; simp only [packs]; omega) el e0 rfl ?_ fun h => ?_
  · simp [instrWords, e0, e1]
  · simp [decodeRaw, decodeOp14, e0, e1, e2, e3]

theorem bpt (p : BitVec 3) (k : BitVec 4) (o : BitVec 12) : Statement (.bpt p k o) := by
  obtain ⟨wd, ep, el, ef⟩ := word_of [(12, o.toNat), (4, k.toNat), (3, p.toNat), (3, 0), (4, 1), (6, 20)]
    ⟨o.isLt, k.isLt, p.isLt, by decide, by decide, by decide, trivial⟩ rfl
  have e0 : fld wd 31 26 = 20 := ef 5 5 _ rfl
  have e1 : fld wd 25 22 = 1 := ef 4 3 _ rfl
  have e2 : fld wd 21 19 = 0 := ef 3 2 _ rfl
  have e3 : fld wd 18 16 = p.toNat := ef 2 2 _ rfl
  have e4 : fld wd 15 12 = k.toNat := ef 1 3 _ rfl
  have e5 : fld wd 11 0 = o.toNat := ef 0 11 _ rfl
  refine oneWord rfl (by rw [ep]; simp only [packs]; omega) el e0 rfl ?_ fun h => ?_
  · simp [instrWords, e0, e1]
  · simp [decodeRaw, decodeOp14, e0, e1, e2, e3, e4, e5]

theorem bpf (p : BitVec 3) (k : BitVec 4) (o : BitVec 12) : Statement (.bpf p k o) := by
  obtain ⟨wd, ep, el, ef⟩ := word_of [(12, o.toNat), (4, k.toNat), (3, p.toNat), (3, 0), (4, 2), (6, 20)]
    ⟨o.isLt, k.isLt, p.isLt, by decide, by decide, by decide, trivial⟩ rfl
  have e0 : fld wd 31 26 = 20 := ef 5 5 _ rfl
  have e1 : fld wd 25 22 = 2 := ef 4 3 _ rfl
  have e2 : fld wd 21 19 = 0 := ef 3 2 _ rfl
  have e3 : fld wd 18 16 = p.toNat := ef 2 2 _ rfl
  have e4 : fld wd 15 12 = k.toNat := ef 1 3 _ rfl
  have e5 : fld wd 11 0 = o.toNat := ef 0 11 _ rfl
  refine oneWord rfl (by rw [ep]; simp only [packs]; omega) el e0 rfl ?_ fun h => ?_
  · simp [instrWords, e0, e1]
  · simp [decodeRaw, decodeOp14, e0, e1, e2, e3, e4, e5]

theorem bany (p : BitVec 3) (o : BitVec 12) : Statement (.bany p o) := by
  obtain ⟨wd, ep, el, ef⟩ := word_of [(12, o.toNat), (4, 0), (3, p.toNat), (3, 0), (4, 3), (6, 20)]
    ⟨o.isLt, by decide, p.isLt, by decide, by decide, by decide, trivial⟩ rfl
  have e0 : fld wd 31 26 = 20 := ef 5 5 _ rfl
  have e1 : fld wd 25 22 = 3 := ef 4 3 _ rfl
  have e2 : fld wd 15 12 = 0 := ef 1 3 _ rfl
  have e3 : fld wd 21 19 = 0 := ef 3 2 _ rfl
  have e4 : fld wd 18 16 = p.toNat := ef 2 2 _ rfl
  have e5 : fld wd 11 0 = o.toNat := ef 0 11 _ rfl
  refine oneWord rfl (by rw [ep]; simp only [packs]; omega) el e0 rfl ?_ fun h => ?_
  · simp [instrWords, e0, e1]
  · simp [decodeRaw, decodeOp14, e0, e1, e2, e3, e4, e5]

theorem ball (p : BitVec 3) (o : BitVec 12) : Statement (.ball p o) := by
  obtain ⟨wd, ep, el, ef⟩ := word_of [(12, o.toNat), (4, 0), (3, p.toNat), (3, 0), (4, 4), (6, 20)]
    ⟨o.isLt, by decide, p.isLt, by decide, by decide, by decide, trivial⟩ rfl
  have e0 : fld wd 31 26 = 20 := ef 5 5 _ rfl
  have e1 : fld wd 25 22 = 4 := ef 4 3 _ rfl
  have e2 : fld wd 15 12 = 0 := ef 1 3 _ rfl
  have e3 : fld wd 21 19 = 0 := ef 3 2 _ rfl
  have e4 : fld wd 18 16 = p.toNat := ef 2 2 _ rfl
  have e5 : fld wd 11 0 = o.toNat := ef 0 11 _ rfl
  refine oneWord rfl (by rw [ep]; simp only [packs]; omega) el e0 rfl ?_ fun h => ?_
  · simp [instrWords, e0, e1]
  · simp [decodeRaw, decodeOp14, e0, e1, e2, e3, e4, e5]

theorem bnz (s : BitVec 6) (o : BitVec 12) : Statement (.bnz s o) := by
  obtain ⟨wd, ep, el, ef⟩ := word_of [(12, o.toNat), (4, 0), (6, s.toNat), (4, 5), (6, 20)]
    ⟨o.isLt, by decide, s.isLt, by decide, by decide, trivial⟩ rfl
  have e0 : fld wd 31 26 = 20 := ef 4 5 _ rfl
  have e1 : fld wd 25 22 = 5 := ef 3 3 _ rfl
  have e2 : fld wd 15 12 = 0 := ef 1 3 _ rfl
  have e3 : fld wd 21 16 = s.toNat := ef 2 5 _ rfl
  have e4 : fld wd 11 0 = o.toNat := ef 0 11 _ rfl
  refine oneWord rfl (by rw [ep]; simp only [packs]; omega) el e0 rfl ?_ fun h => ?_
  · simp [instrWords, e0, e1]
  · simp [decodeRaw, decodeOp14, e0, e1, e2, e3, e4]

theorem bz (s : BitVec 6) (o : BitVec 12) : Statement (.bz s o) := by
  obtain ⟨wd, ep, el, ef⟩ := word_of [(12, o.toNat), (4, 0), (6, s.toNat), (4, 6), (6, 20)]
    ⟨o.isLt, by decide, s.isLt, by decide, by decide, trivial⟩ rfl
  have e0 : fld wd 31 26 = 20 := ef 4 5 _ rfl
  have e1 : fld wd 25 22 = 6 := ef 3 3 _ rfl
  have e2 : fld wd 15 12 = 0 := ef 1 3 _ rfl
  have e3 : fld wd 21 16 = s.toNat := ef 2 5 _ rfl
  have e4 : fld wd 11 0 = o.toNat := ef 0 11 _ rfl
  refine oneWord rfl (by rw [ep]; simp only [packs]; omega) el e0 rfl ?_ fun h => ?_
  · simp [instrWords, e0, e1]
  · simp [decodeRaw, decodeOp14, e0, e1, e2, e3, e4]

theorem jmp (w : BitVec 32) : Statement (.jmp w) := by
  obtain ⟨wd, ep, el, ef⟩ := word_of [(22, 0), (4, 7), (6, 20)]
    ⟨by decide, by decide, by decide, trivial⟩ rfl
  have e0 : fld wd 31 26 = 20 := ef 2 5 _ rfl
  have e1 : fld wd 25 22 = 7 := ef 1 3 _ rfl
  have e2 : fld wd 21 0 = 0 := ef 0 21 _ rfl
  obtain ⟨xd, fp, fl, ff⟩ := word_of [(32, w.toNat)]
    ⟨w.isLt, trivial⟩ rfl
  have f0 : fld xd 31 0 = w.toNat := ff 0 31 _ rfl
  refine twoWords rfl (by rw [ep]; simp only [packs]; omega) (by rw [fp]; simp only [packs]; omega) el fl e0 rfl ?_ fun h => ?_
  · simp [instrWords, e0, e1]
  · simp [decodeRaw, decodeOp14, e0, e1, e2, f0]

theorem loop (v : BitVec 2) (s : BitVec 6) (n : BitVec 10) : Statement (.loop v s n) := by
  obtain ⟨wd, ep, el, ef⟩ := word_of [(4, 0), (2, v.toNat), (6, s.toNat), (10, n.toNat), (4, 0), (6, 21)]
    ⟨by decide, v.isLt, s.isLt, n.isLt, by decide, by decide, trivial⟩ rfl
  have e0 : fld wd 31 26 = 21 := ef 5 5 _ rfl
  have e1 : fld wd 25 22 = 0 := ef 4 3 _ rfl
  have e2 : fld wd 3 0 = 0 := ef 0 3 _ rfl
  have e3 : fld wd 5 4 = v.toNat := ef 1 1 _ rfl
  have e4 : fld wd 11 6 = s.toNat := ef 2 5 _ rfl
  have e5 : fld wd 21 12 = n.toNat := ef 3 9 _ rfl
  refine oneWord rfl (by rw [ep]; simp only [packs]; omega) el e0 rfl ?_ fun h => ?_
  · simp [instrWords, e0]
  · simp [decodeRaw, decodeOp15, e0, e1, e2, e3, e4, e5]

theorem loopi (v : BitVec 2) (c : BitVec 8) (n : BitVec 10) : Statement (.loopi v c n) := by
  obtain ⟨wd, ep, el, ef⟩ := word_of [(2, 0), (2, v.toNat), (8, c.toNat), (10, n.toNat), (4, 1), (6, 21)]
    ⟨by decide, v.isLt, c.isLt, n.isLt, by decide, by decide, trivial⟩ rfl
  have e0 : fld wd 31 26 = 21 := ef 5 5 _ rfl
  have e1 : fld wd 25 22 = 1 := ef 4 3 _ rfl
  have e2 : fld wd 1 0 = 0 := ef 0 1 _ rfl
  have e3 : fld wd 3 2 = v.toNat := ef 1 1 _ rfl
  have e4 : fld wd 11 4 = c.toNat := ef 2 7 _ rfl
  have e5 : fld wd 21 12 = n.toNat := ef 3 9 _ rfl
  refine oneWord rfl (by rw [ep]; simp only [packs]; omega) el e0 rfl ?_ fun h => ?_
  · simp [instrWords, e0]
  · simp [decodeRaw, decodeOp15, e0, e1, e2, e3, e4, e5]

theorem lbrk (v : BitVec 2) : Statement (.lbrk v) := by
  obtain ⟨wd, ep, el, ef⟩ := word_of [(4, 0), (2, v.toNat), (16, 0), (4, 2), (6, 21)]
    ⟨by decide, v.isLt, by decide, by decide, by decide, trivial⟩ rfl
  have e0 : fld wd 31 26 = 21 := ef 4 5 _ rfl
  have e1 : fld wd 25 22 = 2 := ef 3 3 _ rfl
  have e2 : fld wd 3 0 = 0 := ef 0 3 _ rfl
  have e3 : fld wd 21 6 = 0 := ef 2 15 _ rfl
  have e4 : fld wd 5 4 = v.toNat := ef 1 1 _ rfl
  refine oneWord rfl (by rw [ep]; simp only [packs]; omega) el e0 rfl ?_ fun h => ?_
  · simp [instrWords, e0]
  · simp [decodeRaw, decodeOp15, e0, e1, e2, e3, e4]

theorem nop : Statement (.nop) := by
  obtain ⟨wd, ep, el, ef⟩ := word_of [(22, 0), (4, 0), (6, 22)]
    ⟨by decide, by decide, by decide, trivial⟩ rfl
  have e0 : fld wd 31 26 = 22 := ef 2 5 _ rfl
  have e1 : fld wd 25 22 = 0 := ef 1 3 _ rfl
  have e2 : fld wd 21 0 = 0 := ef 0 21 _ rfl
  refine oneWord rfl (by rw [ep]; simp only [packs]; omega) el e0 rfl ?_ fun h => ?_
  · simp [instrWords, e0, e1]
  · simp [decodeRaw, decodeOp16, e0, e1, e2]

theorem rcv (k : BitVec 4) : Statement (.rcv k) := by
  obtain ⟨wd, ep, el, ef⟩ := word_of [(4, k.toNat), (18, 0), (4, 1), (6, 22)]
    ⟨k.isLt, by decide, by decide, by decide, trivial⟩ rfl
  have e0 : fld wd 31 26 = 22 := ef 3 5 _ rfl
  have e1 : fld wd 25 22 = 1 := ef 2 3 _ rfl
  have e2 : fld wd 21 4 = 0 := ef 1 17 _ rfl
  have e3 : fld wd 3 0 = k.toNat := ef 0 3 _ rfl
  refine oneWord rfl (by rw [ep]; simp only [packs]; omega) el e0 rfl ?_ fun h => ?_
  · simp [instrWords, e0, e1]
  · simp [decodeRaw, decodeOp16, e0, e1, e2, e3]

theorem call (w : BitVec 32) : Statement (.call w) := by
  obtain ⟨wd, ep, el, ef⟩ := word_of [(22, 0), (4, 2), (6, 22)]
    ⟨by decide, by decide, by decide, trivial⟩ rfl
  have e0 : fld wd 31 26 = 22 := ef 2 5 _ rfl
  have e1 : fld wd 25 22 = 2 := ef 1 3 _ rfl
  have e2 : fld wd 21 0 = 0 := ef 0 21 _ rfl
  obtain ⟨xd, fp, fl, ff⟩ := word_of [(32, w.toNat)]
    ⟨w.isLt, trivial⟩ rfl
  have f0 : fld xd 31 0 = w.toNat := ff 0 31 _ rfl
  refine twoWords rfl (by rw [ep]; simp only [packs]; omega) (by rw [fp]; simp only [packs]; omega) el fl e0 rfl ?_ fun h => ?_
  · simp [instrWords, e0, e1]
  · simp [decodeRaw, decodeOp16, e0, e1, e2, f0]

theorem callr (x : BitVec 5) : Statement (.callr x) := by
  obtain ⟨wd, ep, el, ef⟩ := word_of [(6, 0), (5, x.toNat), (11, 0), (4, 3), (6, 22)]
    ⟨by decide, x.isLt, by decide, by decide, by decide, trivial⟩ rfl
  have e0 : fld wd 31 26 = 22 := ef 4 5 _ rfl
  have e1 : fld wd 25 22 = 3 := ef 3 3 _ rfl
  have e2 : fld wd 5 0 = 0 := ef 0 5 _ rfl
  have e3 : fld wd 21 11 = 0 := ef 2 10 _ rfl
  have e4 : fld wd 10 6 = x.toNat := ef 1 4 _ rfl
  refine oneWord rfl (by rw [ep]; simp only [packs]; omega) el e0 rfl ?_ fun h => ?_
  · simp [instrWords, e0, e1]
  · simp [decodeRaw, decodeOp16, e0, e1, e2, e3, e4]

theorem ret : Statement (.ret) := by
  obtain ⟨wd, ep, el, ef⟩ := word_of [(22, 0), (4, 4), (6, 22)]
    ⟨by decide, by decide, by decide, trivial⟩ rfl
  have e0 : fld wd 31 26 = 22 := ef 2 5 _ rfl
  have e1 : fld wd 25 22 = 4 := ef 1 3 _ rfl
  have e2 : fld wd 21 0 = 0 := ef 0 21 _ rfl
  refine oneWord rfl (by rw [ep]; simp only [packs]; omega) el e0 rfl ?_ fun h => ?_
  · simp [instrWords, e0, e1]
  · simp [decodeRaw, decodeOp16, e0, e1, e2]

theorem jr (x : BitVec 5) : Statement (.jr x) := by
  obtain ⟨wd, ep, el, ef⟩ := word_of [(6, 0), (5, x.toNat), (11, 0), (4, 5), (6, 22)]
    ⟨by decide, x.isLt, by decide, by decide, by decide, trivial⟩ rfl
  have e0 : fld wd 31 26 = 22 := ef 4 5 _ rfl
  have e1 : fld wd 25 22 = 5 := ef 3 3 _ rfl
  have e2 : fld wd 5 0 = 0 := ef 0 5 _ rfl
  have e3 : fld wd 21 11 = 0 := ef 2 10 _ rfl
  have e4 : fld wd 10 6 = x.toNat := ef 1 4 _ rfl
  refine oneWord rfl (by rw [ep]; simp only [packs]; omega) el e0 rfl ?_ fun h => ?_
  · simp [instrWords, e0, e1]
  · simp [decodeRaw, decodeOp16, e0, e1, e2, e3, e4]

theorem yield (d : BitVec 4) (l : BitVec 7) : Statement (.yield d l) := by
  obtain ⟨wd, ep, el, ef⟩ := word_of [(7, l.toNat), (5, 0), (4, d.toNat), (6, 0), (4, 6), (6, 22)]
    ⟨l.isLt, by decide, d.isLt, by decide, by decide, by decide, trivial⟩ rfl
  have e0 : fld wd 31 26 = 22 := ef 5 5 _ rfl
  have e1 : fld wd 25 22 = 6 := ef 4 3 _ rfl
  have e2 : fld wd 11 7 = 0 := ef 1 4 _ rfl
  have e3 : fld wd 21 16 = 0 := ef 3 5 _ rfl
  have e4 : fld wd 15 12 = d.toNat := ef 2 3 _ rfl
  have e5 : fld wd 6 0 = l.toNat := ef 0 6 _ rfl
  refine oneWord rfl (by rw [ep]; simp only [packs]; omega) el e0 rfl ?_ fun h => ?_
  · simp [instrWords, e0, e1]
  · simp [decodeRaw, decodeOp16, e0, e1, e2, e3, e4, e5]

theorem yieldc (l : BitVec 3) (s : BitVec 3) (c : BitVec 3) (t : BitVec 3) (d : BitVec 4) (n : BitVec 7) (o : BitVec 21) : Statement (.yieldc l s c t d n o) := by
  obtain ⟨wd, ep, el, ef⟩ := word_of [(3, l.toNat), (3, s.toNat), (3, c.toNat), (3, t.toNat), (10, 0), (4, 7), (6, 22)]
    ⟨l.isLt, s.isLt, c.isLt, t.isLt, by decide, by decide, by decide, trivial⟩ rfl
  have e0 : fld wd 31 26 = 22 := ef 6 5 _ rfl
  have e1 : fld wd 25 22 = 7 := ef 5 3 _ rfl
  have e2 : fld wd 21 12 = 0 := ef 4 9 _ rfl
  have e3 : fld wd 2 0 = l.toNat := ef 0 2 _ rfl
  have e4 : fld wd 5 3 = s.toNat := ef 1 2 _ rfl
  have e5 : fld wd 8 6 = c.toNat := ef 2 2 _ rfl
  have e6 : fld wd 11 9 = t.toNat := ef 3 2 _ rfl
  obtain ⟨xd, fp, fl, ff⟩ := word_of [(21, o.toNat), (7, n.toNat), (4, d.toNat)]
    ⟨o.isLt, n.isLt, d.isLt, trivial⟩ rfl
  have f0 : fld xd 31 28 = d.toNat := ff 2 3 _ rfl
  have f1 : fld xd 27 21 = n.toNat := ff 1 6 _ rfl
  have f2 : fld xd 20 0 = o.toNat := ff 0 20 _ rfl
  refine twoWords rfl (by rw [ep]; simp only [packs]; omega) (by rw [fp]; simp only [packs]; omega) el fl e0 rfl ?_ fun h => ?_
  · simp [instrWords, e0, e1]
  · simp [decodeRaw, decodeOp16, e0, e1, e2, e3, e4, e5, e6, f0, f1, f2]

theorem exit : Statement (.exit) := by
  obtain ⟨wd, ep, el, ef⟩ := word_of [(22, 0), (4, 8), (6, 22)]
    ⟨by decide, by decide, by decide, trivial⟩ rfl
  have e0 : fld wd 31 26 = 22 := ef 2 5 _ rfl
  have e1 : fld wd 25 22 = 8 := ef 1 3 _ rfl
  have e2 : fld wd 21 0 = 0 := ef 0 21 _ rfl
  refine oneWord rfl (by rw [ep]; simp only [packs]; omega) el e0 rfl ?_ fun h => ?_
  · simp [instrWords, e0, e1]
  · simp [decodeRaw, decodeOp16, e0, e1, e2]

theorem trap (i : BitVec 16) : Statement (.trap i) := by
  obtain ⟨wd, ep, el, ef⟩ := word_of [(16, i.toNat), (6, 0), (4, 9), (6, 22)]
    ⟨i.isLt, by decide, by decide, by decide, trivial⟩ rfl
  have e0 : fld wd 31 26 = 22 := ef 3 5 _ rfl
  have e1 : fld wd 25 22 = 9 := ef 2 3 _ rfl
  have e2 : fld wd 21 16 = 0 := ef 1 5 _ rfl
  have e3 : fld wd 15 0 = i.toNat := ef 0 15 _ rfl
  refine oneWord rfl (by rw [ep]; simp only [packs]; omega) el e0 rfl ?_ fun h => ?_
  · simp [instrWords, e0, e1]
  · simp [decodeRaw, decodeOp16, e0, e1, e2, e3]

theorem wait (l : BitVec 3) (s : BitVec 3) (c : BitVec 3) (t : BitVec 3) : Statement (.wait l s c t) := by
  obtain ⟨wd, ep, el, ef⟩ := word_of [(3, l.toNat), (3, s.toNat), (3, c.toNat), (3, t.toNat), (10, 0), (4, 10), (6, 22)]
    ⟨l.isLt, s.isLt, c.isLt, t.isLt, by decide, by decide, by decide, trivial⟩ rfl
  have e0 : fld wd 31 26 = 22 := ef 6 5 _ rfl
  have e1 : fld wd 25 22 = 10 := ef 5 3 _ rfl
  have e2 : fld wd 21 12 = 0 := ef 4 9 _ rfl
  have e3 : fld wd 2 0 = l.toNat := ef 0 2 _ rfl
  have e4 : fld wd 5 3 = s.toNat := ef 1 2 _ rfl
  have e5 : fld wd 8 6 = c.toNat := ef 2 2 _ rfl
  have e6 : fld wd 11 9 = t.toNat := ef 3 2 _ rfl
  refine oneWord rfl (by rw [ep]; simp only [packs]; omega) el e0 rfl ?_ fun h => ?_
  · simp [instrWords, e0, e1]
  · simp [decodeRaw, decodeOp16, e0, e1, e2, e3, e4, e5, e6]

theorem barinit (p : Bool) (o : BitVec 6) (n : BitVec 6) (b : BitVec 6) : Statement (.barinit p o n b) := by
  obtain ⟨wd, ep, el, ef⟩ := word_of [(6, b.toNat), (6, o.toNat), (6, n.toNat), (2, 0), (1, p.toNat), (1, 0), (4, 0), (6, 23)]
    ⟨b.isLt, o.isLt, n.isLt, by decide, p.toNat_lt, by decide, by decide, by decide, trivial⟩ rfl
  have e0 : fld wd 31 26 = 23 := ef 7 5 _ rfl
  have e1 : fld wd 25 22 = 0 := ef 6 3 _ rfl
  have e2 : fld wd 19 18 = 0 := ef 3 1 _ rfl
  have e3 : fld wd 21 21 = 0 := ef 5 0 _ rfl
  have e4 : fld wd 20 20 = p.toNat := ef 4 0 _ rfl
  have e5 : fld wd 11 6 = o.toNat := ef 1 5 _ rfl
  have e6 : fld wd 17 12 = n.toNat := ef 2 5 _ rfl
  have e7 : fld wd 5 0 = b.toNat := ef 0 5 _ rfl
  refine oneWord rfl (by rw [ep]; simp only [packs]; omega) el e0 rfl ?_ fun h => ?_
  · simp [instrWords, e0]
  · simp [decodeRaw, decodeOp17, e0, e1, e2, e3, e4, e5, e6, e7]

theorem barexp (p : Bool) (o : BitVec 6) (b : BitVec 6) : Statement (.barexp p o b) := by
  obtain ⟨wd, ep, el, ef⟩ := word_of [(6, 0), (6, o.toNat), (6, b.toNat), (2, 0), (1, p.toNat), (1, 0), (4, 1), (6, 23)]
    ⟨by decide, o.isLt, b.isLt, by decide, p.toNat_lt, by decide, by decide, by decide, trivial⟩ rfl
  have e0 : fld wd 31 26 = 23 := ef 7 5 _ rfl
  have e1 : fld wd 25 22 = 1 := ef 6 3 _ rfl
  have e2 : fld wd 5 0 = 0 := ef 0 5 _ rfl
  have e3 : fld wd 19 18 = 0 := ef 3 1 _ rfl
  have e4 : fld wd 21 21 = 0 := ef 5 0 _ rfl
  have e5 : fld wd 20 20 = p.toNat := ef 4 0 _ rfl
  have e6 : fld wd 11 6 = o.toNat := ef 1 5 _ rfl
  have e7 : fld wd 17 12 = b.toNat := ef 2 5 _ rfl
  refine oneWord rfl (by rw [ep]; simp only [packs]; omega) el e0 rfl ?_ fun h => ?_
  · simp [instrWords, e0]
  · simp [decodeRaw, decodeOp17, e0, e1, e2, e3, e4, e5, e6, e7]

theorem bararr (p : Bool) (t : BitVec 6) (o : BitVec 6) : Statement (.bararr p t o) := by
  obtain ⟨wd, ep, el, ef⟩ := word_of [(6, t.toNat), (6, o.toNat), (8, 0), (1, p.toNat), (1, 0), (4, 2), (6, 23)]
    ⟨t.isLt, o.isLt, by decide, p.toNat_lt, by decide, by decide, by decide, trivial⟩ rfl
  have e0 : fld wd 31 26 = 23 := ef 6 5 _ rfl
  have e1 : fld wd 25 22 = 2 := ef 5 3 _ rfl
  have e2 : fld wd 19 12 = 0 := ef 2 7 _ rfl
  have e3 : fld wd 21 21 = 0 := ef 4 0 _ rfl
  have e4 : fld wd 20 20 = p.toNat := ef 3 0 _ rfl
  have e5 : fld wd 5 0 = t.toNat := ef 0 5 _ rfl
  have e6 : fld wd 11 6 = o.toNat := ef 1 5 _ rfl
  refine oneWord rfl (by rw [ep]; simp only [packs]; omega) el e0 rfl ?_ fun h => ?_
  · simp [instrWords, e0]
  · simp [decodeRaw, decodeOp17, e0, e1, e2, e3, e4, e5, e6]

theorem barwait (p : Bool) (o : BitVec 6) (t : BitVec 6) : Statement (.barwait p o t) := by
  obtain ⟨wd, ep, el, ef⟩ := word_of [(6, 0), (6, o.toNat), (6, t.toNat), (2, 0), (1, p.toNat), (1, 0), (4, 3), (6, 23)]
    ⟨by decide, o.isLt, t.isLt, by decide, p.toNat_lt, by decide, by decide, by decide, trivial⟩ rfl
  have e0 : fld wd 31 26 = 23 := ef 7 5 _ rfl
  have e1 : fld wd 25 22 = 3 := ef 6 3 _ rfl
  have e2 : fld wd 5 0 = 0 := ef 0 5 _ rfl
  have e3 : fld wd 19 18 = 0 := ef 3 1 _ rfl
  have e4 : fld wd 21 21 = 0 := ef 5 0 _ rfl
  have e5 : fld wd 20 20 = p.toNat := ef 4 0 _ rfl
  have e6 : fld wd 11 6 = o.toNat := ef 1 5 _ rfl
  have e7 : fld wd 17 12 = t.toNat := ef 2 5 _ rfl
  refine oneWord rfl (by rw [ep]; simp only [packs]; omega) el e0 rfl ?_ fun h => ?_
  · simp [instrWords, e0]
  · simp [decodeRaw, decodeOp17, e0, e1, e2, e3, e4, e5, e6, e7]

theorem bartry (p : Bool) (r : BitVec 6) (o : BitVec 6) (t : BitVec 6) : Statement (.bartry p r o t) := by
  obtain ⟨wd, ep, el, ef⟩ := word_of [(6, r.toNat), (6, o.toNat), (6, t.toNat), (2, 0), (1, p.toNat), (1, 0), (4, 4), (6, 23)]
    ⟨r.isLt, o.isLt, t.isLt, by decide, p.toNat_lt, by decide, by decide, by decide, trivial⟩ rfl
  have e0 : fld wd 31 26 = 23 := ef 7 5 _ rfl
  have e1 : fld wd 25 22 = 4 := ef 6 3 _ rfl
  have e2 : fld wd 19 18 = 0 := ef 3 1 _ rfl
  have e3 : fld wd 21 21 = 0 := ef 5 0 _ rfl
  have e4 : fld wd 20 20 = p.toNat := ef 4 0 _ rfl
  have e5 : fld wd 5 0 = r.toNat := ef 0 5 _ rfl
  have e6 : fld wd 11 6 = o.toNat := ef 1 5 _ rfl
  have e7 : fld wd 17 12 = t.toNat := ef 2 5 _ rfl
  refine oneWord rfl (by rw [ep]; simp only [packs]; omega) el e0 rfl ?_ fun h => ?_
  · simp [instrWords, e0]
  · simp [decodeRaw, decodeOp17, e0, e1, e2, e3, e4, e5, e6, e7]

theorem ringinit (p : Bool) (o : BitVec 6) (c : BitVec 6) (d : BitVec 6) : Statement (.ringinit p o c d) := by
  obtain ⟨wd, ep, el, ef⟩ := word_of [(6, d.toNat), (6, o.toNat), (6, c.toNat), (2, 0), (1, p.toNat), (1, 0), (4, 5), (6, 23)]
    ⟨d.isLt, o.isLt, c.isLt, by decide, p.toNat_lt, by decide, by decide, by decide, trivial⟩ rfl
  have e0 : fld wd 31 26 = 23 := ef 7 5 _ rfl
  have e1 : fld wd 25 22 = 5 := ef 6 3 _ rfl
  have e2 : fld wd 19 18 = 0 := ef 3 1 _ rfl
  have e3 : fld wd 21 21 = 0 := ef 5 0 _ rfl
  have e4 : fld wd 20 20 = p.toNat := ef 4 0 _ rfl
  have e5 : fld wd 11 6 = o.toNat := ef 1 5 _ rfl
  have e6 : fld wd 17 12 = c.toNat := ef 2 5 _ rfl
  have e7 : fld wd 5 0 = d.toNat := ef 0 5 _ rfl
  refine oneWord rfl (by rw [ep]; simp only [packs]; omega) el e0 rfl ?_ fun h => ?_
  · simp [instrWords, e0]
  · simp [decodeRaw, decodeOp17, e0, e1, e2, e3, e4, e5, e6, e7]

theorem awaitf (p : Bool) (i : BitVec 6) (o : BitVec 6) (j : BitVec 6) : Statement (.awaitf p i o j) := by
  obtain ⟨wd, ep, el, ef⟩ := word_of [(6, i.toNat), (6, o.toNat), (6, j.toNat), (2, 0), (1, p.toNat), (1, 0), (4, 6), (6, 23)]
    ⟨i.isLt, o.isLt, j.isLt, by decide, p.toNat_lt, by decide, by decide, by decide, trivial⟩ rfl
  have e0 : fld wd 31 26 = 23 := ef 7 5 _ rfl
  have e1 : fld wd 25 22 = 6 := ef 6 3 _ rfl
  have e2 : fld wd 19 18 = 0 := ef 3 1 _ rfl
  have e3 : fld wd 21 21 = 0 := ef 5 0 _ rfl
  have e4 : fld wd 20 20 = p.toNat := ef 4 0 _ rfl
  have e5 : fld wd 5 0 = i.toNat := ef 0 5 _ rfl
  have e6 : fld wd 11 6 = o.toNat := ef 1 5 _ rfl
  have e7 : fld wd 17 12 = j.toNat := ef 2 5 _ rfl
  refine oneWord rfl (by rw [ep]; simp only [packs]; omega) el e0 rfl ?_ fun h => ?_
  · simp [instrWords, e0]
  · simp [decodeRaw, decodeOp17, e0, e1, e2, e3, e4, e5, e6, e7]

theorem rels (p : Bool) (o : BitVec 6) : Statement (.rels p o) := by
  obtain ⟨wd, ep, el, ef⟩ := word_of [(6, 0), (6, o.toNat), (8, 0), (1, p.toNat), (1, 0), (4, 7), (6, 23)]
    ⟨by decide, o.isLt, by decide, p.toNat_lt, by decide, by decide, by decide, trivial⟩ rfl
  have e0 : fld wd 31 26 = 23 := ef 6 5 _ rfl
  have e1 : fld wd 25 22 = 7 := ef 5 3 _ rfl
  have e2 : fld wd 5 0 = 0 := ef 0 5 _ rfl
  have e3 : fld wd 19 12 = 0 := ef 2 7 _ rfl
  have e4 : fld wd 21 21 = 0 := ef 4 0 _ rfl
  have e5 : fld wd 20 20 = p.toNat := ef 3 0 _ rfl
  have e6 : fld wd 11 6 = o.toNat := ef 1 5 _ rfl
  refine oneWord rfl (by rw [ep]; simp only [packs]; omega) el e0 rfl ?_ fun h => ?_
  · simp [instrWords, e0]
  · simp [decodeRaw, decodeOp17, e0, e1, e2, e3, e4, e5, e6]

theorem wgbar : Statement (.wgbar) := by
  obtain ⟨wd, ep, el, ef⟩ := word_of [(22, 0), (4, 8), (6, 23)]
    ⟨by decide, by decide, by decide, trivial⟩ rfl
  have e0 : fld wd 31 26 = 23 := ef 2 5 _ rfl
  have e1 : fld wd 25 22 = 8 := ef 1 3 _ rfl
  have e2 : fld wd 21 0 = 0 := ef 0 21 _ rfl
  refine oneWord rfl (by rw [ep]; simp only [packs]; omega) el e0 rfl ?_ fun h => ?_
  · simp [instrWords, e0]
  · simp [decodeRaw, decodeOp17, e0, e1, e2]

theorem ldg (z : LdSz) (o : LdOrd) (p : Pol) (d : VOp) (b : BitVec 4) (v : VOp) (off : Option (BitVec 32)) : Statement (.ldg z o p d b v off) := by
  cases off with
  | none =>
    obtain ⟨wd, ep, el, ef⟩ := word_of [(7, d.code), (7, v.code), (4, b.toNat), (1, 0), (2, p.code), (2, o.code), (3, z.code), (6, 24)]
      ⟨d.code_lt, v.code_lt, b.isLt, by decide, p.code_lt, o.code_lt, z.code_lt, by decide, trivial⟩ rfl
    have e0 : fld wd 31 26 = 24 := ef 7 5 _ rfl
    have e1 : fld wd 18 18 = 0 := ef 3 0 _ rfl
    have e2 : fld wd 25 23 = z.code := ef 6 2 _ rfl
    have e3 : fld wd 22 21 = o.code := ef 5 1 _ rfl
    have e4 : fld wd 20 19 = p.code := ef 4 1 _ rfl
    have e5 : fld wd 6 0 = d.code := ef 0 6 _ rfl
    have e6 : fld wd 17 14 = b.toNat := ef 2 3 _ rfl
    have e7 : fld wd 13 7 = v.code := ef 1 6 _ rfl
    refine oneWord rfl (by rw [ep]; simp only [packs]; omega) el e0 rfl ?_ fun h => ?_
    · simp [instrWords, e0, e1]
    · simp [decodeRaw, decodeOp18, e0, e1, e2, e3, e4, e5, e6, e7, offOf]
  | some y =>
    obtain ⟨wd, ep, el, ef⟩ := word_of [(7, d.code), (7, v.code), (4, b.toNat), (1, 1), (2, p.code), (2, o.code), (3, z.code), (6, 24)]
      ⟨d.code_lt, v.code_lt, b.isLt, by decide, p.code_lt, o.code_lt, z.code_lt, by decide, trivial⟩ rfl
    have e0 : fld wd 31 26 = 24 := ef 7 5 _ rfl
    have e1 : fld wd 18 18 = 1 := ef 3 0 _ rfl
    have e2 : fld wd 25 23 = z.code := ef 6 2 _ rfl
    have e3 : fld wd 22 21 = o.code := ef 5 1 _ rfl
    have e4 : fld wd 20 19 = p.code := ef 4 1 _ rfl
    have e5 : fld wd 6 0 = d.code := ef 0 6 _ rfl
    have e6 : fld wd 17 14 = b.toNat := ef 2 3 _ rfl
    have e7 : fld wd 13 7 = v.code := ef 1 6 _ rfl
    refine twoWords rfl (by rw [ep]; simp only [packs]; omega) rfl el y.isLt e0 rfl ?_ fun h => ?_
    · simp [instrWords, e0, e1]
    · simp [decodeRaw, decodeOp18, e0, e1, e2, e3, e4, e5, e6, e7, offOf]

theorem stg (z : StSz) (o : StOrd) (p : Pol) (b : BitVec 4) (v : VOp) (off : Option (BitVec 32)) (d : VOp) : Statement (.stg z o p b v off d) := by
  cases off with
  | none =>
    obtain ⟨wd, ep, el, ef⟩ := word_of [(7, d.code), (7, v.code), (4, b.toNat), (1, 0), (2, p.code), (2, o.code), (3, z.code), (6, 25)]
      ⟨d.code_lt, v.code_lt, b.isLt, by decide, p.code_lt, o.code_lt, z.code_lt, by decide, trivial⟩ rfl
    have e0 : fld wd 31 26 = 25 := ef 7 5 _ rfl
    have e1 : fld wd 18 18 = 0 := ef 3 0 _ rfl
    have e2 : fld wd 25 23 = z.code := ef 6 2 _ rfl
    have e3 : fld wd 22 21 = o.code := ef 5 1 _ rfl
    have e4 : fld wd 20 19 = p.code := ef 4 1 _ rfl
    have e5 : fld wd 17 14 = b.toNat := ef 2 3 _ rfl
    have e6 : fld wd 13 7 = v.code := ef 1 6 _ rfl
    have e7 : fld wd 6 0 = d.code := ef 0 6 _ rfl
    refine oneWord rfl (by rw [ep]; simp only [packs]; omega) el e0 rfl ?_ fun h => ?_
    · simp [instrWords, e0, e1]
    · simp [decodeRaw, decodeOp19, e0, e1, e2, e3, e4, e5, e6, e7, offOf]
  | some y =>
    obtain ⟨wd, ep, el, ef⟩ := word_of [(7, d.code), (7, v.code), (4, b.toNat), (1, 1), (2, p.code), (2, o.code), (3, z.code), (6, 25)]
      ⟨d.code_lt, v.code_lt, b.isLt, by decide, p.code_lt, o.code_lt, z.code_lt, by decide, trivial⟩ rfl
    have e0 : fld wd 31 26 = 25 := ef 7 5 _ rfl
    have e1 : fld wd 18 18 = 1 := ef 3 0 _ rfl
    have e2 : fld wd 25 23 = z.code := ef 6 2 _ rfl
    have e3 : fld wd 22 21 = o.code := ef 5 1 _ rfl
    have e4 : fld wd 20 19 = p.code := ef 4 1 _ rfl
    have e5 : fld wd 17 14 = b.toNat := ef 2 3 _ rfl
    have e6 : fld wd 13 7 = v.code := ef 1 6 _ rfl
    have e7 : fld wd 6 0 = d.code := ef 0 6 _ rfl
    refine twoWords rfl (by rw [ep]; simp only [packs]; omega) rfl el y.isLt e0 rfl ?_ fun h => ?_
    · simp [instrWords, e0, e1]
    · simp [decodeRaw, decodeOp19, e0, e1, e2, e3, e4, e5, e6, e7, offOf]

theorem ldsp (z : LdSz) (q : Bool) (d : VOp) (b : BitVec 4) (v : VOp) (off : Option (BitVec 32)) : Statement (.ldsp z q d b v off) := by
  cases off with
  | none =>
    obtain ⟨wd, ep, el, ef⟩ := word_of [(7, d.code), (7, v.code), (4, b.toNat), (1, 0), (1, q.toNat), (1, 0), (2, 0), (3, z.code), (6, 26)]
      ⟨d.code_lt, v.code_lt, b.isLt, by decide, q.toNat_lt, by decide, by decide, z.code_lt, by decide, trivial⟩ rfl
    have e0 : fld wd 31 26 = 26 := ef 8 5 _ rfl
    have e1 : fld wd 22 21 = 0 := ef 6 1 _ rfl
    have e2 : fld wd 18 18 = 0 := ef 3 0 _ rfl
    have e3 : fld wd 20 20 = 0 := ef 5 0 _ rfl
    have e4 : fld wd 25 23 = z.code := ef 7 2 _ rfl
    have e5 : fld wd 19 19 = q.toNat := ef 4 0 _ rfl
    have e6 : fld wd 6 0 = d.code := ef 0 6 _ rfl
    have e7 : fld wd 17 14 = b.toNat := ef 2 3 _ rfl
    have e8 : fld wd 13 7 = v.code := ef 1 6 _ rfl
    refine oneWord rfl (by rw [ep]; simp only [packs]; omega) el e0 rfl ?_ fun h => ?_
    · simp [instrWords, e0, e2]
    · simp [decodeRaw, decodeOp1A, e0, e1, e2, e3, e4, e5, e6, e7, e8, offOf]
  | some y =>
    obtain ⟨wd, ep, el, ef⟩ := word_of [(7, d.code), (7, v.code), (4, b.toNat), (1, 1), (1, q.toNat), (1, 0), (2, 0), (3, z.code), (6, 26)]
      ⟨d.code_lt, v.code_lt, b.isLt, by decide, q.toNat_lt, by decide, by decide, z.code_lt, by decide, trivial⟩ rfl
    have e0 : fld wd 31 26 = 26 := ef 8 5 _ rfl
    have e1 : fld wd 22 21 = 0 := ef 6 1 _ rfl
    have e2 : fld wd 18 18 = 1 := ef 3 0 _ rfl
    have e3 : fld wd 20 20 = 0 := ef 5 0 _ rfl
    have e4 : fld wd 25 23 = z.code := ef 7 2 _ rfl
    have e5 : fld wd 19 19 = q.toNat := ef 4 0 _ rfl
    have e6 : fld wd 6 0 = d.code := ef 0 6 _ rfl
    have e7 : fld wd 17 14 = b.toNat := ef 2 3 _ rfl
    have e8 : fld wd 13 7 = v.code := ef 1 6 _ rfl
    refine twoWords rfl (by rw [ep]; simp only [packs]; omega) rfl el y.isLt e0 rfl ?_ fun h => ?_
    · simp [instrWords, e0, e2]
    · simp [decodeRaw, decodeOp1A, e0, e1, e2, e3, e4, e5, e6, e7, e8, offOf]

theorem ldcl (z : LdSz) (q : Bool) (d : VOp) (b : BitVec 4) (v : VOp) (off : Option (BitVec 32)) : Statement (.ldcl z q d b v off) := by
  cases off with
  | none =>
    obtain ⟨wd, ep, el, ef⟩ := word_of [(7, d.code), (7, v.code), (4, b.toNat), (1, 0), (1, q.toNat), (1, 0), (2, 1), (3, z.code), (6, 26)]
      ⟨d.code_lt, v.code_lt, b.isLt, by decide, q.toNat_lt, by decide, by decide, z.code_lt, by decide, trivial⟩ rfl
    have e0 : fld wd 31 26 = 26 := ef 8 5 _ rfl
    have e1 : fld wd 22 21 = 1 := ef 6 1 _ rfl
    have e2 : fld wd 18 18 = 0 := ef 3 0 _ rfl
    have e3 : fld wd 20 20 = 0 := ef 5 0 _ rfl
    have e4 : fld wd 25 23 = z.code := ef 7 2 _ rfl
    have e5 : fld wd 19 19 = q.toNat := ef 4 0 _ rfl
    have e6 : fld wd 6 0 = d.code := ef 0 6 _ rfl
    have e7 : fld wd 17 14 = b.toNat := ef 2 3 _ rfl
    have e8 : fld wd 13 7 = v.code := ef 1 6 _ rfl
    refine oneWord rfl (by rw [ep]; simp only [packs]; omega) el e0 rfl ?_ fun h => ?_
    · simp [instrWords, e0, e2]
    · simp [decodeRaw, decodeOp1A, e0, e1, e2, e3, e4, e5, e6, e7, e8, offOf]
  | some y =>
    obtain ⟨wd, ep, el, ef⟩ := word_of [(7, d.code), (7, v.code), (4, b.toNat), (1, 1), (1, q.toNat), (1, 0), (2, 1), (3, z.code), (6, 26)]
      ⟨d.code_lt, v.code_lt, b.isLt, by decide, q.toNat_lt, by decide, by decide, z.code_lt, by decide, trivial⟩ rfl
    have e0 : fld wd 31 26 = 26 := ef 8 5 _ rfl
    have e1 : fld wd 22 21 = 1 := ef 6 1 _ rfl
    have e2 : fld wd 18 18 = 1 := ef 3 0 _ rfl
    have e3 : fld wd 20 20 = 0 := ef 5 0 _ rfl
    have e4 : fld wd 25 23 = z.code := ef 7 2 _ rfl
    have e5 : fld wd 19 19 = q.toNat := ef 4 0 _ rfl
    have e6 : fld wd 6 0 = d.code := ef 0 6 _ rfl
    have e7 : fld wd 17 14 = b.toNat := ef 2 3 _ rfl
    have e8 : fld wd 13 7 = v.code := ef 1 6 _ rfl
    refine twoWords rfl (by rw [ep]; simp only [packs]; omega) rfl el y.isLt e0 rfl ?_ fun h => ?_
    · simp [instrWords, e0, e2]
    · simp [decodeRaw, decodeOp1A, e0, e1, e2, e3, e4, e5, e6, e7, e8, offOf]

theorem ldst (z : LdSz) (q : Bool) (d : VOp) (b : BitVec 4) (v : VOp) (off : Option (BitVec 32)) : Statement (.ldst z q d b v off) := by
  cases off with
  | none =>
    obtain ⟨wd, ep, el, ef⟩ := word_of [(7, d.code), (7, v.code), (4, b.toNat), (1, 0), (1, q.toNat), (1, 0), (2, 2), (3, z.code), (6, 26)]
      ⟨d.code_lt, v.code_lt, b.isLt, by decide, q.toNat_lt, by decide, by decide, z.code_lt, by decide, trivial⟩ rfl
    have e0 : fld wd 31 26 = 26 := ef 8 5 _ rfl
    have e1 : fld wd 22 21 = 2 := ef 6 1 _ rfl
    have e2 : fld wd 18 18 = 0 := ef 3 0 _ rfl
    have e3 : fld wd 20 20 = 0 := ef 5 0 _ rfl
    have e4 : fld wd 25 23 = z.code := ef 7 2 _ rfl
    have e5 : fld wd 19 19 = q.toNat := ef 4 0 _ rfl
    have e6 : fld wd 6 0 = d.code := ef 0 6 _ rfl
    have e7 : fld wd 17 14 = b.toNat := ef 2 3 _ rfl
    have e8 : fld wd 13 7 = v.code := ef 1 6 _ rfl
    refine oneWord rfl (by rw [ep]; simp only [packs]; omega) el e0 rfl ?_ fun h => ?_
    · simp [instrWords, e0, e2]
    · simp [decodeRaw, decodeOp1A, e0, e1, e2, e3, e4, e5, e6, e7, e8, offOf]
  | some y =>
    obtain ⟨wd, ep, el, ef⟩ := word_of [(7, d.code), (7, v.code), (4, b.toNat), (1, 1), (1, q.toNat), (1, 0), (2, 2), (3, z.code), (6, 26)]
      ⟨d.code_lt, v.code_lt, b.isLt, by decide, q.toNat_lt, by decide, by decide, z.code_lt, by decide, trivial⟩ rfl
    have e0 : fld wd 31 26 = 26 := ef 8 5 _ rfl
    have e1 : fld wd 22 21 = 2 := ef 6 1 _ rfl
    have e2 : fld wd 18 18 = 1 := ef 3 0 _ rfl
    have e3 : fld wd 20 20 = 0 := ef 5 0 _ rfl
    have e4 : fld wd 25 23 = z.code := ef 7 2 _ rfl
    have e5 : fld wd 19 19 = q.toNat := ef 4 0 _ rfl
    have e6 : fld wd 6 0 = d.code := ef 0 6 _ rfl
    have e7 : fld wd 17 14 = b.toNat := ef 2 3 _ rfl
    have e8 : fld wd 13 7 = v.code := ef 1 6 _ rfl
    refine twoWords rfl (by rw [ep]; simp only [packs]; omega) rfl el y.isLt e0 rfl ?_ fun h => ?_
    · simp [instrWords, e0, e2]
    · simp [decodeRaw, decodeOp1A, e0, e1, e2, e3, e4, e5, e6, e7, e8, offOf]

theorem ldlp (z : LdSz) (q : Bool) (d : VOp) (b : BitVec 4) (v : VOp) (off : Option (BitVec 32)) : Statement (.ldlp z q d b v off) := by
  cases off with
  | none =>
    obtain ⟨wd, ep, el, ef⟩ := word_of [(7, d.code), (7, v.code), (4, b.toNat), (1, 0), (1, q.toNat), (1, 0), (2, 3), (3, z.code), (6, 26)]
      ⟨d.code_lt, v.code_lt, b.isLt, by decide, q.toNat_lt, by decide, by decide, z.code_lt, by decide, trivial⟩ rfl
    have e0 : fld wd 31 26 = 26 := ef 8 5 _ rfl
    have e1 : fld wd 22 21 = 3 := ef 6 1 _ rfl
    have e2 : fld wd 18 18 = 0 := ef 3 0 _ rfl
    have e3 : fld wd 20 20 = 0 := ef 5 0 _ rfl
    have e4 : fld wd 25 23 = z.code := ef 7 2 _ rfl
    have e5 : fld wd 19 19 = q.toNat := ef 4 0 _ rfl
    have e6 : fld wd 6 0 = d.code := ef 0 6 _ rfl
    have e7 : fld wd 17 14 = b.toNat := ef 2 3 _ rfl
    have e8 : fld wd 13 7 = v.code := ef 1 6 _ rfl
    refine oneWord rfl (by rw [ep]; simp only [packs]; omega) el e0 rfl ?_ fun h => ?_
    · simp [instrWords, e0, e2]
    · simp [decodeRaw, decodeOp1A, e0, e1, e2, e3, e4, e5, e6, e7, e8, offOf]
  | some y =>
    obtain ⟨wd, ep, el, ef⟩ := word_of [(7, d.code), (7, v.code), (4, b.toNat), (1, 1), (1, q.toNat), (1, 0), (2, 3), (3, z.code), (6, 26)]
      ⟨d.code_lt, v.code_lt, b.isLt, by decide, q.toNat_lt, by decide, by decide, z.code_lt, by decide, trivial⟩ rfl
    have e0 : fld wd 31 26 = 26 := ef 8 5 _ rfl
    have e1 : fld wd 22 21 = 3 := ef 6 1 _ rfl
    have e2 : fld wd 18 18 = 1 := ef 3 0 _ rfl
    have e3 : fld wd 20 20 = 0 := ef 5 0 _ rfl
    have e4 : fld wd 25 23 = z.code := ef 7 2 _ rfl
    have e5 : fld wd 19 19 = q.toNat := ef 4 0 _ rfl
    have e6 : fld wd 6 0 = d.code := ef 0 6 _ rfl
    have e7 : fld wd 17 14 = b.toNat := ef 2 3 _ rfl
    have e8 : fld wd 13 7 = v.code := ef 1 6 _ rfl
    refine twoWords rfl (by rw [ep]; simp only [packs]; omega) rfl el y.isLt e0 rfl ?_ fun h => ?_
    · simp [instrWords, e0, e2]
    · simp [decodeRaw, decodeOp1A, e0, e1, e2, e3, e4, e5, e6, e7, e8, offOf]

theorem stsp (z : StSz) (q : Bool) (b : BitVec 4) (v : VOp) (off : Option (BitVec 32)) (d : VOp) : Statement (.stsp z q b v off d) := by
  cases off with
  | none =>
    obtain ⟨wd, ep, el, ef⟩ := word_of [(7, d.code), (7, v.code), (4, b.toNat), (1, 0), (1, q.toNat), (1, 0), (2, 0), (3, z.code), (6, 27)]
      ⟨d.code_lt, v.code_lt, b.isLt, by decide, q.toNat_lt, by decide, by decide, z.code_lt, by decide, trivial⟩ rfl
    have e0 : fld wd 31 26 = 27 := ef 8 5 _ rfl
    have e1 : fld wd 22 21 = 0 := ef 6 1 _ rfl
    have e2 : fld wd 18 18 = 0 := ef 3 0 _ rfl
    have e3 : fld wd 20 20 = 0 := ef 5 0 _ rfl
    have e4 : fld wd 25 23 = z.code := ef 7 2 _ rfl
    have e5 : fld wd 19 19 = q.toNat := ef 4 0 _ rfl
    have e6 : fld wd 17 14 = b.toNat := ef 2 3 _ rfl
    have e7 : fld wd 13 7 = v.code := ef 1 6 _ rfl
    have e8 : fld wd 6 0 = d.code := ef 0 6 _ rfl
    refine oneWord rfl (by rw [ep]; simp only [packs]; omega) el e0 rfl ?_ fun h => ?_
    · simp [instrWords, e0, e2]
    · simp [decodeRaw, decodeOp1B, e0, e1, e2, e3, e4, e5, e6, e7, e8, offOf]
  | some y =>
    obtain ⟨wd, ep, el, ef⟩ := word_of [(7, d.code), (7, v.code), (4, b.toNat), (1, 1), (1, q.toNat), (1, 0), (2, 0), (3, z.code), (6, 27)]
      ⟨d.code_lt, v.code_lt, b.isLt, by decide, q.toNat_lt, by decide, by decide, z.code_lt, by decide, trivial⟩ rfl
    have e0 : fld wd 31 26 = 27 := ef 8 5 _ rfl
    have e1 : fld wd 22 21 = 0 := ef 6 1 _ rfl
    have e2 : fld wd 18 18 = 1 := ef 3 0 _ rfl
    have e3 : fld wd 20 20 = 0 := ef 5 0 _ rfl
    have e4 : fld wd 25 23 = z.code := ef 7 2 _ rfl
    have e5 : fld wd 19 19 = q.toNat := ef 4 0 _ rfl
    have e6 : fld wd 17 14 = b.toNat := ef 2 3 _ rfl
    have e7 : fld wd 13 7 = v.code := ef 1 6 _ rfl
    have e8 : fld wd 6 0 = d.code := ef 0 6 _ rfl
    refine twoWords rfl (by rw [ep]; simp only [packs]; omega) rfl el y.isLt e0 rfl ?_ fun h => ?_
    · simp [instrWords, e0, e2]
    · simp [decodeRaw, decodeOp1B, e0, e1, e2, e3, e4, e5, e6, e7, e8, offOf]

theorem stcl (z : StSz) (q : Bool) (b : BitVec 4) (v : VOp) (off : Option (BitVec 32)) (d : VOp) : Statement (.stcl z q b v off d) := by
  cases off with
  | none =>
    obtain ⟨wd, ep, el, ef⟩ := word_of [(7, d.code), (7, v.code), (4, b.toNat), (1, 0), (1, q.toNat), (1, 0), (2, 1), (3, z.code), (6, 27)]
      ⟨d.code_lt, v.code_lt, b.isLt, by decide, q.toNat_lt, by decide, by decide, z.code_lt, by decide, trivial⟩ rfl
    have e0 : fld wd 31 26 = 27 := ef 8 5 _ rfl
    have e1 : fld wd 22 21 = 1 := ef 6 1 _ rfl
    have e2 : fld wd 18 18 = 0 := ef 3 0 _ rfl
    have e3 : fld wd 20 20 = 0 := ef 5 0 _ rfl
    have e4 : fld wd 25 23 = z.code := ef 7 2 _ rfl
    have e5 : fld wd 19 19 = q.toNat := ef 4 0 _ rfl
    have e6 : fld wd 17 14 = b.toNat := ef 2 3 _ rfl
    have e7 : fld wd 13 7 = v.code := ef 1 6 _ rfl
    have e8 : fld wd 6 0 = d.code := ef 0 6 _ rfl
    refine oneWord rfl (by rw [ep]; simp only [packs]; omega) el e0 rfl ?_ fun h => ?_
    · simp [instrWords, e0, e2]
    · simp [decodeRaw, decodeOp1B, e0, e1, e2, e3, e4, e5, e6, e7, e8, offOf]
  | some y =>
    obtain ⟨wd, ep, el, ef⟩ := word_of [(7, d.code), (7, v.code), (4, b.toNat), (1, 1), (1, q.toNat), (1, 0), (2, 1), (3, z.code), (6, 27)]
      ⟨d.code_lt, v.code_lt, b.isLt, by decide, q.toNat_lt, by decide, by decide, z.code_lt, by decide, trivial⟩ rfl
    have e0 : fld wd 31 26 = 27 := ef 8 5 _ rfl
    have e1 : fld wd 22 21 = 1 := ef 6 1 _ rfl
    have e2 : fld wd 18 18 = 1 := ef 3 0 _ rfl
    have e3 : fld wd 20 20 = 0 := ef 5 0 _ rfl
    have e4 : fld wd 25 23 = z.code := ef 7 2 _ rfl
    have e5 : fld wd 19 19 = q.toNat := ef 4 0 _ rfl
    have e6 : fld wd 17 14 = b.toNat := ef 2 3 _ rfl
    have e7 : fld wd 13 7 = v.code := ef 1 6 _ rfl
    have e8 : fld wd 6 0 = d.code := ef 0 6 _ rfl
    refine twoWords rfl (by rw [ep]; simp only [packs]; omega) rfl el y.isLt e0 rfl ?_ fun h => ?_
    · simp [instrWords, e0, e2]
    · simp [decodeRaw, decodeOp1B, e0, e1, e2, e3, e4, e5, e6, e7, e8, offOf]

theorem stst (z : StSz) (q : Bool) (b : BitVec 4) (v : VOp) (off : Option (BitVec 32)) (d : VOp) : Statement (.stst z q b v off d) := by
  cases off with
  | none =>
    obtain ⟨wd, ep, el, ef⟩ := word_of [(7, d.code), (7, v.code), (4, b.toNat), (1, 0), (1, q.toNat), (1, 0), (2, 2), (3, z.code), (6, 27)]
      ⟨d.code_lt, v.code_lt, b.isLt, by decide, q.toNat_lt, by decide, by decide, z.code_lt, by decide, trivial⟩ rfl
    have e0 : fld wd 31 26 = 27 := ef 8 5 _ rfl
    have e1 : fld wd 22 21 = 2 := ef 6 1 _ rfl
    have e2 : fld wd 18 18 = 0 := ef 3 0 _ rfl
    have e3 : fld wd 20 20 = 0 := ef 5 0 _ rfl
    have e4 : fld wd 25 23 = z.code := ef 7 2 _ rfl
    have e5 : fld wd 19 19 = q.toNat := ef 4 0 _ rfl
    have e6 : fld wd 17 14 = b.toNat := ef 2 3 _ rfl
    have e7 : fld wd 13 7 = v.code := ef 1 6 _ rfl
    have e8 : fld wd 6 0 = d.code := ef 0 6 _ rfl
    refine oneWord rfl (by rw [ep]; simp only [packs]; omega) el e0 rfl ?_ fun h => ?_
    · simp [instrWords, e0, e2]
    · simp [decodeRaw, decodeOp1B, e0, e1, e2, e3, e4, e5, e6, e7, e8, offOf]
  | some y =>
    obtain ⟨wd, ep, el, ef⟩ := word_of [(7, d.code), (7, v.code), (4, b.toNat), (1, 1), (1, q.toNat), (1, 0), (2, 2), (3, z.code), (6, 27)]
      ⟨d.code_lt, v.code_lt, b.isLt, by decide, q.toNat_lt, by decide, by decide, z.code_lt, by decide, trivial⟩ rfl
    have e0 : fld wd 31 26 = 27 := ef 8 5 _ rfl
    have e1 : fld wd 22 21 = 2 := ef 6 1 _ rfl
    have e2 : fld wd 18 18 = 1 := ef 3 0 _ rfl
    have e3 : fld wd 20 20 = 0 := ef 5 0 _ rfl
    have e4 : fld wd 25 23 = z.code := ef 7 2 _ rfl
    have e5 : fld wd 19 19 = q.toNat := ef 4 0 _ rfl
    have e6 : fld wd 17 14 = b.toNat := ef 2 3 _ rfl
    have e7 : fld wd 13 7 = v.code := ef 1 6 _ rfl
    have e8 : fld wd 6 0 = d.code := ef 0 6 _ rfl
    refine twoWords rfl (by rw [ep]; simp only [packs]; omega) rfl el y.isLt e0 rfl ?_ fun h => ?_
    · simp [instrWords, e0, e2]
    · simp [decodeRaw, decodeOp1B, e0, e1, e2, e3, e4, e5, e6, e7, e8, offOf]

theorem stlp (z : StSz) (q : Bool) (b : BitVec 4) (v : VOp) (off : Option (BitVec 32)) (d : VOp) : Statement (.stlp z q b v off d) := by
  cases off with
  | none =>
    obtain ⟨wd, ep, el, ef⟩ := word_of [(7, d.code), (7, v.code), (4, b.toNat), (1, 0), (1, q.toNat), (1, 0), (2, 3), (3, z.code), (6, 27)]
      ⟨d.code_lt, v.code_lt, b.isLt, by decide, q.toNat_lt, by decide, by decide, z.code_lt, by decide, trivial⟩ rfl
    have e0 : fld wd 31 26 = 27 := ef 8 5 _ rfl
    have e1 : fld wd 22 21 = 3 := ef 6 1 _ rfl
    have e2 : fld wd 18 18 = 0 := ef 3 0 _ rfl
    have e3 : fld wd 20 20 = 0 := ef 5 0 _ rfl
    have e4 : fld wd 25 23 = z.code := ef 7 2 _ rfl
    have e5 : fld wd 19 19 = q.toNat := ef 4 0 _ rfl
    have e6 : fld wd 17 14 = b.toNat := ef 2 3 _ rfl
    have e7 : fld wd 13 7 = v.code := ef 1 6 _ rfl
    have e8 : fld wd 6 0 = d.code := ef 0 6 _ rfl
    refine oneWord rfl (by rw [ep]; simp only [packs]; omega) el e0 rfl ?_ fun h => ?_
    · simp [instrWords, e0, e2]
    · simp [decodeRaw, decodeOp1B, e0, e1, e2, e3, e4, e5, e6, e7, e8, offOf]
  | some y =>
    obtain ⟨wd, ep, el, ef⟩ := word_of [(7, d.code), (7, v.code), (4, b.toNat), (1, 1), (1, q.toNat), (1, 0), (2, 3), (3, z.code), (6, 27)]
      ⟨d.code_lt, v.code_lt, b.isLt, by decide, q.toNat_lt, by decide, by decide, z.code_lt, by decide, trivial⟩ rfl
    have e0 : fld wd 31 26 = 27 := ef 8 5 _ rfl
    have e1 : fld wd 22 21 = 3 := ef 6 1 _ rfl
    have e2 : fld wd 18 18 = 1 := ef 3 0 _ rfl
    have e3 : fld wd 20 20 = 0 := ef 5 0 _ rfl
    have e4 : fld wd 25 23 = z.code := ef 7 2 _ rfl
    have e5 : fld wd 19 19 = q.toNat := ef 4 0 _ rfl
    have e6 : fld wd 17 14 = b.toNat := ef 2 3 _ rfl
    have e7 : fld wd 13 7 = v.code := ef 1 6 _ rfl
    have e8 : fld wd 6 0 = d.code := ef 0 6 _ rfl
    refine twoWords rfl (by rw [ep]; simp only [packs]; omega) rfl el y.isLt e0 rfl ?_ fun h => ?_
    · simp [instrWords, e0, e2]
    · simp [decodeRaw, decodeOp1B, e0, e1, e2, e3, e4, e5, e6, e7, e8, offOf]

theorem ldb (z : LdSz) (o : LdOrd) (l : Bool) (d : VOp) (b : BitVec 4) (v : VOp) (off : Option (BitVec 32)) : Statement (.ldb z o l d b v off) := by
  cases off with
  | none =>
    obtain ⟨wd, ep, el, ef⟩ := word_of [(7, d.code), (7, v.code), (4, b.toNat), (1, 0), (1, l.toNat), (2, o.code), (1, 0), (3, z.code), (6, 28)]
      ⟨d.code_lt, v.code_lt, b.isLt, by decide, l.toNat_lt, o.code_lt, by decide, z.code_lt, by decide, trivial⟩ rfl
    have e0 : fld wd 31 26 = 28 := ef 8 5 _ rfl
    have e1 : fld wd 22 22 = 0 := ef 6 0 _ rfl
    have e2 : fld wd 18 18 = 0 := ef 3 0 _ rfl
    have e3 : fld wd 25 23 = z.code := ef 7 2 _ rfl
    have e4 : fld wd 21 20 = o.code := ef 5 1 _ rfl
    have e5 : fld wd 19 19 = l.toNat := ef 4 0 _ rfl
    have e6 : fld wd 6 0 = d.code := ef 0 6 _ rfl
    have e7 : fld wd 17 14 = b.toNat := ef 2 3 _ rfl
    have e8 : fld wd 13 7 = v.code := ef 1 6 _ rfl
    refine oneWord rfl (by rw [ep]; simp only [packs]; omega) el e0 rfl ?_ fun h => ?_
    · simp [instrWords, e0, e2]
    · simp [decodeRaw, decodeOp1C, e0, e1, e2, e3, e4, e5, e6, e7, e8, offOf]
  | some y =>
    obtain ⟨wd, ep, el, ef⟩ := word_of [(7, d.code), (7, v.code), (4, b.toNat), (1, 1), (1, l.toNat), (2, o.code), (1, 0), (3, z.code), (6, 28)]
      ⟨d.code_lt, v.code_lt, b.isLt, by decide, l.toNat_lt, o.code_lt, by decide, z.code_lt, by decide, trivial⟩ rfl
    have e0 : fld wd 31 26 = 28 := ef 8 5 _ rfl
    have e1 : fld wd 22 22 = 0 := ef 6 0 _ rfl
    have e2 : fld wd 18 18 = 1 := ef 3 0 _ rfl
    have e3 : fld wd 25 23 = z.code := ef 7 2 _ rfl
    have e4 : fld wd 21 20 = o.code := ef 5 1 _ rfl
    have e5 : fld wd 19 19 = l.toNat := ef 4 0 _ rfl
    have e6 : fld wd 6 0 = d.code := ef 0 6 _ rfl
    have e7 : fld wd 17 14 = b.toNat := ef 2 3 _ rfl
    have e8 : fld wd 13 7 = v.code := ef 1 6 _ rfl
    refine twoWords rfl (by rw [ep]; simp only [packs]; omega) rfl el y.isLt e0 rfl ?_ fun h => ?_
    · simp [instrWords, e0, e2]
    · simp [decodeRaw, decodeOp1C, e0, e1, e2, e3, e4, e5, e6, e7, e8, offOf]

theorem stb (z : StSz) (o : StOrd) (l : Bool) (b : BitVec 4) (v : VOp) (off : Option (BitVec 32)) (d : VOp) : Statement (.stb z o l b v off d) := by
  cases off with
  | none =>
    obtain ⟨wd, ep, el, ef⟩ := word_of [(7, d.code), (7, v.code), (4, b.toNat), (1, 0), (1, l.toNat), (2, o.code), (1, 1), (3, z.code), (6, 28)]
      ⟨d.code_lt, v.code_lt, b.isLt, by decide, l.toNat_lt, o.code_lt, by decide, z.code_lt, by decide, trivial⟩ rfl
    have e0 : fld wd 31 26 = 28 := ef 8 5 _ rfl
    have e1 : fld wd 22 22 = 1 := ef 6 0 _ rfl
    have e2 : fld wd 18 18 = 0 := ef 3 0 _ rfl
    have e3 : fld wd 25 23 = z.code := ef 7 2 _ rfl
    have e4 : fld wd 21 20 = o.code := ef 5 1 _ rfl
    have e5 : fld wd 19 19 = l.toNat := ef 4 0 _ rfl
    have e6 : fld wd 17 14 = b.toNat := ef 2 3 _ rfl
    have e7 : fld wd 13 7 = v.code := ef 1 6 _ rfl
    have e8 : fld wd 6 0 = d.code := ef 0 6 _ rfl
    refine oneWord rfl (by rw [ep]; simp only [packs]; omega) el e0 rfl ?_ fun h => ?_
    · simp [instrWords, e0, e2]
    · simp [decodeRaw, decodeOp1C, e0, e1, e2, e3, e4, e5, e6, e7, e8, offOf]
  | some y =>
    obtain ⟨wd, ep, el, ef⟩ := word_of [(7, d.code), (7, v.code), (4, b.toNat), (1, 1), (1, l.toNat), (2, o.code), (1, 1), (3, z.code), (6, 28)]
      ⟨d.code_lt, v.code_lt, b.isLt, by decide, l.toNat_lt, o.code_lt, by decide, z.code_lt, by decide, trivial⟩ rfl
    have e0 : fld wd 31 26 = 28 := ef 8 5 _ rfl
    have e1 : fld wd 22 22 = 1 := ef 6 0 _ rfl
    have e2 : fld wd 18 18 = 1 := ef 3 0 _ rfl
    have e3 : fld wd 25 23 = z.code := ef 7 2 _ rfl
    have e4 : fld wd 21 20 = o.code := ef 5 1 _ rfl
    have e5 : fld wd 19 19 = l.toNat := ef 4 0 _ rfl
    have e6 : fld wd 17 14 = b.toNat := ef 2 3 _ rfl
    have e7 : fld wd 13 7 = v.code := ef 1 6 _ rfl
    have e8 : fld wd 6 0 = d.code := ef 0 6 _ rfl
    refine twoWords rfl (by rw [ep]; simp only [packs]; omega) rfl el y.isLt e0 rfl ?_ fun h => ?_
    · simp [instrWords, e0, e2]
    · simp [decodeRaw, decodeOp1C, e0, e1, e2, e3, e4, e5, e6, e7, e8, offOf]

theorem aadd (o : AOrd) (t : ATy) (d : VOp) (b : BitVec 4) (v : VOp) : Statement (.aadd o t d b v) := by
  obtain ⟨wd, ep, el, ef⟩ := word_of [(7, d.code), (7, v.code), (4, b.toNat), (2, t.code), (2, o.code), (4, 0), (6, 29)]
    ⟨d.code_lt, v.code_lt, b.isLt, t.code_lt, o.code_lt, by decide, by decide, trivial⟩ rfl
  have e0 : fld wd 31 26 = 29 := ef 6 5 _ rfl
  have e1 : fld wd 25 22 = 0 := ef 5 3 _ rfl
  have e2 : fld wd 21 20 = o.code := ef 4 1 _ rfl
  have e3 : fld wd 19 18 = t.code := ef 3 1 _ rfl
  have e4 : fld wd 6 0 = d.code := ef 0 6 _ rfl
  have e5 : fld wd 17 14 = b.toNat := ef 2 3 _ rfl
  have e6 : fld wd 13 7 = v.code := ef 1 6 _ rfl
  refine oneWord rfl (by rw [ep]; simp only [packs]; omega) el e0 rfl ?_ fun h => ?_
  · simp [instrWords, e0]
  · simp [decodeRaw, decodeOp1D, e0, e1, e2, e3, e4, e5, e6]

theorem amin (o : AOrd) (t : ATy) (d : VOp) (b : BitVec 4) (v : VOp) : Statement (.amin o t d b v) := by
  obtain ⟨wd, ep, el, ef⟩ := word_of [(7, d.code), (7, v.code), (4, b.toNat), (2, t.code), (2, o.code), (4, 1), (6, 29)]
    ⟨d.code_lt, v.code_lt, b.isLt, t.code_lt, o.code_lt, by decide, by decide, trivial⟩ rfl
  have e0 : fld wd 31 26 = 29 := ef 6 5 _ rfl
  have e1 : fld wd 25 22 = 1 := ef 5 3 _ rfl
  have e2 : fld wd 21 20 = o.code := ef 4 1 _ rfl
  have e3 : fld wd 19 18 = t.code := ef 3 1 _ rfl
  have e4 : fld wd 6 0 = d.code := ef 0 6 _ rfl
  have e5 : fld wd 17 14 = b.toNat := ef 2 3 _ rfl
  have e6 : fld wd 13 7 = v.code := ef 1 6 _ rfl
  refine oneWord rfl (by rw [ep]; simp only [packs]; omega) el e0 rfl ?_ fun h => ?_
  · simp [instrWords, e0]
  · simp [decodeRaw, decodeOp1D, e0, e1, e2, e3, e4, e5, e6]

theorem amax (o : AOrd) (t : ATy) (d : VOp) (b : BitVec 4) (v : VOp) : Statement (.amax o t d b v) := by
  obtain ⟨wd, ep, el, ef⟩ := word_of [(7, d.code), (7, v.code), (4, b.toNat), (2, t.code), (2, o.code), (4, 2), (6, 29)]
    ⟨d.code_lt, v.code_lt, b.isLt, t.code_lt, o.code_lt, by decide, by decide, trivial⟩ rfl
  have e0 : fld wd 31 26 = 29 := ef 6 5 _ rfl
  have e1 : fld wd 25 22 = 2 := ef 5 3 _ rfl
  have e2 : fld wd 21 20 = o.code := ef 4 1 _ rfl
  have e3 : fld wd 19 18 = t.code := ef 3 1 _ rfl
  have e4 : fld wd 6 0 = d.code := ef 0 6 _ rfl
  have e5 : fld wd 17 14 = b.toNat := ef 2 3 _ rfl
  have e6 : fld wd 13 7 = v.code := ef 1 6 _ rfl
  refine oneWord rfl (by rw [ep]; simp only [packs]; omega) el e0 rfl ?_ fun h => ?_
  · simp [instrWords, e0]
  · simp [decodeRaw, decodeOp1D, e0, e1, e2, e3, e4, e5, e6]

theorem aand (o : AOrd) (t : ATy) (d : VOp) (b : BitVec 4) (v : VOp) : Statement (.aand o t d b v) := by
  obtain ⟨wd, ep, el, ef⟩ := word_of [(7, d.code), (7, v.code), (4, b.toNat), (2, t.code), (2, o.code), (4, 3), (6, 29)]
    ⟨d.code_lt, v.code_lt, b.isLt, t.code_lt, o.code_lt, by decide, by decide, trivial⟩ rfl
  have e0 : fld wd 31 26 = 29 := ef 6 5 _ rfl
  have e1 : fld wd 25 22 = 3 := ef 5 3 _ rfl
  have e2 : fld wd 21 20 = o.code := ef 4 1 _ rfl
  have e3 : fld wd 19 18 = t.code := ef 3 1 _ rfl
  have e4 : fld wd 6 0 = d.code := ef 0 6 _ rfl
  have e5 : fld wd 17 14 = b.toNat := ef 2 3 _ rfl
  have e6 : fld wd 13 7 = v.code := ef 1 6 _ rfl
  refine oneWord rfl (by rw [ep]; simp only [packs]; omega) el e0 rfl ?_ fun h => ?_
  · simp [instrWords, e0]
  · simp [decodeRaw, decodeOp1D, e0, e1, e2, e3, e4, e5, e6]

theorem aor (o : AOrd) (t : ATy) (d : VOp) (b : BitVec 4) (v : VOp) : Statement (.aor o t d b v) := by
  obtain ⟨wd, ep, el, ef⟩ := word_of [(7, d.code), (7, v.code), (4, b.toNat), (2, t.code), (2, o.code), (4, 4), (6, 29)]
    ⟨d.code_lt, v.code_lt, b.isLt, t.code_lt, o.code_lt, by decide, by decide, trivial⟩ rfl
  have e0 : fld wd 31 26 = 29 := ef 6 5 _ rfl
  have e1 : fld wd 25 22 = 4 := ef 5 3 _ rfl
  have e2 : fld wd 21 20 = o.code := ef 4 1 _ rfl
  have e3 : fld wd 19 18 = t.code := ef 3 1 _ rfl
  have e4 : fld wd 6 0 = d.code := ef 0 6 _ rfl
  have e5 : fld wd 17 14 = b.toNat := ef 2 3 _ rfl
  have e6 : fld wd 13 7 = v.code := ef 1 6 _ rfl
  refine oneWord rfl (by rw [ep]; simp only [packs]; omega) el e0 rfl ?_ fun h => ?_
  · simp [instrWords, e0]
  · simp [decodeRaw, decodeOp1D, e0, e1, e2, e3, e4, e5, e6]

theorem axor (o : AOrd) (t : ATy) (d : VOp) (b : BitVec 4) (v : VOp) : Statement (.axor o t d b v) := by
  obtain ⟨wd, ep, el, ef⟩ := word_of [(7, d.code), (7, v.code), (4, b.toNat), (2, t.code), (2, o.code), (4, 5), (6, 29)]
    ⟨d.code_lt, v.code_lt, b.isLt, t.code_lt, o.code_lt, by decide, by decide, trivial⟩ rfl
  have e0 : fld wd 31 26 = 29 := ef 6 5 _ rfl
  have e1 : fld wd 25 22 = 5 := ef 5 3 _ rfl
  have e2 : fld wd 21 20 = o.code := ef 4 1 _ rfl
  have e3 : fld wd 19 18 = t.code := ef 3 1 _ rfl
  have e4 : fld wd 6 0 = d.code := ef 0 6 _ rfl
  have e5 : fld wd 17 14 = b.toNat := ef 2 3 _ rfl
  have e6 : fld wd 13 7 = v.code := ef 1 6 _ rfl
  refine oneWord rfl (by rw [ep]; simp only [packs]; omega) el e0 rfl ?_ fun h => ?_
  · simp [instrWords, e0]
  · simp [decodeRaw, decodeOp1D, e0, e1, e2, e3, e4, e5, e6]

theorem axch (o : AOrd) (t : ATy) (d : VOp) (b : BitVec 4) (v : VOp) : Statement (.axch o t d b v) := by
  obtain ⟨wd, ep, el, ef⟩ := word_of [(7, d.code), (7, v.code), (4, b.toNat), (2, t.code), (2, o.code), (4, 6), (6, 29)]
    ⟨d.code_lt, v.code_lt, b.isLt, t.code_lt, o.code_lt, by decide, by decide, trivial⟩ rfl
  have e0 : fld wd 31 26 = 29 := ef 6 5 _ rfl
  have e1 : fld wd 25 22 = 6 := ef 5 3 _ rfl
  have e2 : fld wd 21 20 = o.code := ef 4 1 _ rfl
  have e3 : fld wd 19 18 = t.code := ef 3 1 _ rfl
  have e4 : fld wd 6 0 = d.code := ef 0 6 _ rfl
  have e5 : fld wd 17 14 = b.toNat := ef 2 3 _ rfl
  have e6 : fld wd 13 7 = v.code := ef 1 6 _ rfl
  refine oneWord rfl (by rw [ep]; simp only [packs]; omega) el e0 rfl ?_ fun h => ?_
  · simp [instrWords, e0]
  · simp [decodeRaw, decodeOp1D, e0, e1, e2, e3, e4, e5, e6]

theorem acas (o : AOrd) (t : ATy) (d : VOp) (b : BitVec 4) (v : VOp) : Statement (.acas o t d b v) := by
  obtain ⟨wd, ep, el, ef⟩ := word_of [(7, d.code), (7, v.code), (4, b.toNat), (2, t.code), (2, o.code), (4, 7), (6, 29)]
    ⟨d.code_lt, v.code_lt, b.isLt, t.code_lt, o.code_lt, by decide, by decide, trivial⟩ rfl
  have e0 : fld wd 31 26 = 29 := ef 6 5 _ rfl
  have e1 : fld wd 25 22 = 7 := ef 5 3 _ rfl
  have e2 : fld wd 21 20 = o.code := ef 4 1 _ rfl
  have e3 : fld wd 19 18 = t.code := ef 3 1 _ rfl
  have e4 : fld wd 6 0 = d.code := ef 0 6 _ rfl
  have e5 : fld wd 17 14 = b.toNat := ef 2 3 _ rfl
  have e6 : fld wd 13 7 = v.code := ef 1 6 _ rfl
  refine oneWord rfl (by rw [ep]; simp only [packs]; omega) el e0 rfl ?_ fun h => ?_
  · simp [instrWords, e0]
  · simp [decodeRaw, decodeOp1D, e0, e1, e2, e3, e4, e5, e6]

theorem aacc (o : AOrd) (d : VOp) (b : BitVec 4) (v : VOp) : Statement (.aacc o d b v) := by
  obtain ⟨wd, ep, el, ef⟩ := word_of [(7, d.code), (7, v.code), (4, b.toNat), (2, 3), (2, o.code), (4, 8), (6, 29)]
    ⟨d.code_lt, v.code_lt, b.isLt, by decide, o.code_lt, by decide, by decide, trivial⟩ rfl
  have e0 : fld wd 31 26 = 29 := ef 6 5 _ rfl
  have e1 : fld wd 25 22 = 8 := ef 5 3 _ rfl
  have e2 : fld wd 19 18 = 3 := ef 3 1 _ rfl
  have e3 : fld wd 21 20 = o.code := ef 4 1 _ rfl
  have e4 : fld wd 6 0 = d.code := ef 0 6 _ rfl
  have e5 : fld wd 17 14 = b.toNat := ef 2 3 _ rfl
  have e6 : fld wd 13 7 = v.code := ef 1 6 _ rfl
  refine oneWord rfl (by rw [ep]; simp only [packs]; omega) el e0 rfl ?_ fun h => ?_
  · simp [instrWords, e0]
  · simp [decodeRaw, decodeOp1D, e0, e1, e2, e3, e4, e5, e6]

theorem ainc (o : AOrd) (n : Bool) (d : VOp) (b : BitVec 4) (v : VOp) : Statement (.ainc o n d b v) := by
  obtain ⟨wd, ep, el, ef⟩ := word_of [(7, d.code), (7, v.code), (4, b.toNat), (1, n.toNat), (1, 0), (2, o.code), (4, 9), (6, 29)]
    ⟨d.code_lt, v.code_lt, b.isLt, n.toNat_lt, by decide, o.code_lt, by decide, by decide, trivial⟩ rfl
  have e0 : fld wd 31 26 = 29 := ef 7 5 _ rfl
  have e1 : fld wd 25 22 = 9 := ef 6 3 _ rfl
  have e2 : fld wd 19 19 = 0 := ef 4 0 _ rfl
  have e3 : fld wd 21 20 = o.code := ef 5 1 _ rfl
  have e4 : fld wd 18 18 = n.toNat := ef 3 0 _ rfl
  have e5 : fld wd 6 0 = d.code := ef 0 6 _ rfl
  have e6 : fld wd 17 14 = b.toNat := ef 2 3 _ rfl
  have e7 : fld wd 13 7 = v.code := ef 1 6 _ rfl
  refine oneWord rfl (by rw [ep]; simp only [packs]; omega) el e0 rfl ?_ fun h => ?_
  · simp [instrWords, e0]
  · simp [decodeRaw, decodeOp1D, e0, e1, e2, e3, e4, e5, e6, e7]

theorem aaddSpace (o : AOrd) (s : Sp) (t : ATy) (d : VOp) (v : VOp) : Statement (.aaddSpace o s t d v) := by
  obtain ⟨wd, ep, el, ef⟩ := word_of [(7, d.code), (7, v.code), (2, 0), (2, t.code), (2, s.code), (2, o.code), (4, 0), (6, 30)]
    ⟨d.code_lt, v.code_lt, by decide, t.code_lt, s.code_lt, o.code_lt, by decide, by decide, trivial⟩ rfl
  have e0 : fld wd 31 26 = 30 := ef 7 5 _ rfl
  have e1 : fld wd 25 22 = 0 := ef 6 3 _ rfl
  have e2 : fld wd 15 14 = 0 := ef 2 1 _ rfl
  have e3 : fld wd 21 20 = o.code := ef 5 1 _ rfl
  have e4 : fld wd 19 18 = s.code := ef 4 1 _ rfl
  have e5 : fld wd 17 16 = t.code := ef 3 1 _ rfl
  have e6 : fld wd 6 0 = d.code := ef 0 6 _ rfl
  have e7 : fld wd 13 7 = v.code := ef 1 6 _ rfl
  refine oneWord rfl (by rw [ep]; simp only [packs]; omega) el e0 rfl ?_ fun h => ?_
  · simp [instrWords, e0]
  · simp [decodeRaw, decodeOp1E, e0, e1, e2, e3, e4, e5, e6, e7]

theorem aminSpace (o : AOrd) (s : Sp) (t : ATy) (d : VOp) (v : VOp) : Statement (.aminSpace o s t d v) := by
  obtain ⟨wd, ep, el, ef⟩ := word_of [(7, d.code), (7, v.code), (2, 0), (2, t.code), (2, s.code), (2, o.code), (4, 1), (6, 30)]
    ⟨d.code_lt, v.code_lt, by decide, t.code_lt, s.code_lt, o.code_lt, by decide, by decide, trivial⟩ rfl
  have e0 : fld wd 31 26 = 30 := ef 7 5 _ rfl
  have e1 : fld wd 25 22 = 1 := ef 6 3 _ rfl
  have e2 : fld wd 15 14 = 0 := ef 2 1 _ rfl
  have e3 : fld wd 21 20 = o.code := ef 5 1 _ rfl
  have e4 : fld wd 19 18 = s.code := ef 4 1 _ rfl
  have e5 : fld wd 17 16 = t.code := ef 3 1 _ rfl
  have e6 : fld wd 6 0 = d.code := ef 0 6 _ rfl
  have e7 : fld wd 13 7 = v.code := ef 1 6 _ rfl
  refine oneWord rfl (by rw [ep]; simp only [packs]; omega) el e0 rfl ?_ fun h => ?_
  · simp [instrWords, e0]
  · simp [decodeRaw, decodeOp1E, e0, e1, e2, e3, e4, e5, e6, e7]

theorem amaxSpace (o : AOrd) (s : Sp) (t : ATy) (d : VOp) (v : VOp) : Statement (.amaxSpace o s t d v) := by
  obtain ⟨wd, ep, el, ef⟩ := word_of [(7, d.code), (7, v.code), (2, 0), (2, t.code), (2, s.code), (2, o.code), (4, 2), (6, 30)]
    ⟨d.code_lt, v.code_lt, by decide, t.code_lt, s.code_lt, o.code_lt, by decide, by decide, trivial⟩ rfl
  have e0 : fld wd 31 26 = 30 := ef 7 5 _ rfl
  have e1 : fld wd 25 22 = 2 := ef 6 3 _ rfl
  have e2 : fld wd 15 14 = 0 := ef 2 1 _ rfl
  have e3 : fld wd 21 20 = o.code := ef 5 1 _ rfl
  have e4 : fld wd 19 18 = s.code := ef 4 1 _ rfl
  have e5 : fld wd 17 16 = t.code := ef 3 1 _ rfl
  have e6 : fld wd 6 0 = d.code := ef 0 6 _ rfl
  have e7 : fld wd 13 7 = v.code := ef 1 6 _ rfl
  refine oneWord rfl (by rw [ep]; simp only [packs]; omega) el e0 rfl ?_ fun h => ?_
  · simp [instrWords, e0]
  · simp [decodeRaw, decodeOp1E, e0, e1, e2, e3, e4, e5, e6, e7]

theorem aandSpace (o : AOrd) (s : Sp) (t : ATy) (d : VOp) (v : VOp) : Statement (.aandSpace o s t d v) := by
  obtain ⟨wd, ep, el, ef⟩ := word_of [(7, d.code), (7, v.code), (2, 0), (2, t.code), (2, s.code), (2, o.code), (4, 3), (6, 30)]
    ⟨d.code_lt, v.code_lt, by decide, t.code_lt, s.code_lt, o.code_lt, by decide, by decide, trivial⟩ rfl
  have e0 : fld wd 31 26 = 30 := ef 7 5 _ rfl
  have e1 : fld wd 25 22 = 3 := ef 6 3 _ rfl
  have e2 : fld wd 15 14 = 0 := ef 2 1 _ rfl
  have e3 : fld wd 21 20 = o.code := ef 5 1 _ rfl
  have e4 : fld wd 19 18 = s.code := ef 4 1 _ rfl
  have e5 : fld wd 17 16 = t.code := ef 3 1 _ rfl
  have e6 : fld wd 6 0 = d.code := ef 0 6 _ rfl
  have e7 : fld wd 13 7 = v.code := ef 1 6 _ rfl
  refine oneWord rfl (by rw [ep]; simp only [packs]; omega) el e0 rfl ?_ fun h => ?_
  · simp [instrWords, e0]
  · simp [decodeRaw, decodeOp1E, e0, e1, e2, e3, e4, e5, e6, e7]

theorem aorSpace (o : AOrd) (s : Sp) (t : ATy) (d : VOp) (v : VOp) : Statement (.aorSpace o s t d v) := by
  obtain ⟨wd, ep, el, ef⟩ := word_of [(7, d.code), (7, v.code), (2, 0), (2, t.code), (2, s.code), (2, o.code), (4, 4), (6, 30)]
    ⟨d.code_lt, v.code_lt, by decide, t.code_lt, s.code_lt, o.code_lt, by decide, by decide, trivial⟩ rfl
  have e0 : fld wd 31 26 = 30 := ef 7 5 _ rfl
  have e1 : fld wd 25 22 = 4 := ef 6 3 _ rfl
  have e2 : fld wd 15 14 = 0 := ef 2 1 _ rfl
  have e3 : fld wd 21 20 = o.code := ef 5 1 _ rfl
  have e4 : fld wd 19 18 = s.code := ef 4 1 _ rfl
  have e5 : fld wd 17 16 = t.code := ef 3 1 _ rfl
  have e6 : fld wd 6 0 = d.code := ef 0 6 _ rfl
  have e7 : fld wd 13 7 = v.code := ef 1 6 _ rfl
  refine oneWord rfl (by rw [ep]; simp only [packs]; omega) el e0 rfl ?_ fun h => ?_
  · simp [instrWords, e0]
  · simp [decodeRaw, decodeOp1E, e0, e1, e2, e3, e4, e5, e6, e7]

theorem axorSpace (o : AOrd) (s : Sp) (t : ATy) (d : VOp) (v : VOp) : Statement (.axorSpace o s t d v) := by
  obtain ⟨wd, ep, el, ef⟩ := word_of [(7, d.code), (7, v.code), (2, 0), (2, t.code), (2, s.code), (2, o.code), (4, 5), (6, 30)]
    ⟨d.code_lt, v.code_lt, by decide, t.code_lt, s.code_lt, o.code_lt, by decide, by decide, trivial⟩ rfl
  have e0 : fld wd 31 26 = 30 := ef 7 5 _ rfl
  have e1 : fld wd 25 22 = 5 := ef 6 3 _ rfl
  have e2 : fld wd 15 14 = 0 := ef 2 1 _ rfl
  have e3 : fld wd 21 20 = o.code := ef 5 1 _ rfl
  have e4 : fld wd 19 18 = s.code := ef 4 1 _ rfl
  have e5 : fld wd 17 16 = t.code := ef 3 1 _ rfl
  have e6 : fld wd 6 0 = d.code := ef 0 6 _ rfl
  have e7 : fld wd 13 7 = v.code := ef 1 6 _ rfl
  refine oneWord rfl (by rw [ep]; simp only [packs]; omega) el e0 rfl ?_ fun h => ?_
  · simp [instrWords, e0]
  · simp [decodeRaw, decodeOp1E, e0, e1, e2, e3, e4, e5, e6, e7]

theorem axchSpace (o : AOrd) (s : Sp) (t : ATy) (d : VOp) (v : VOp) : Statement (.axchSpace o s t d v) := by
  obtain ⟨wd, ep, el, ef⟩ := word_of [(7, d.code), (7, v.code), (2, 0), (2, t.code), (2, s.code), (2, o.code), (4, 6), (6, 30)]
    ⟨d.code_lt, v.code_lt, by decide, t.code_lt, s.code_lt, o.code_lt, by decide, by decide, trivial⟩ rfl
  have e0 : fld wd 31 26 = 30 := ef 7 5 _ rfl
  have e1 : fld wd 25 22 = 6 := ef 6 3 _ rfl
  have e2 : fld wd 15 14 = 0 := ef 2 1 _ rfl
  have e3 : fld wd 21 20 = o.code := ef 5 1 _ rfl
  have e4 : fld wd 19 18 = s.code := ef 4 1 _ rfl
  have e5 : fld wd 17 16 = t.code := ef 3 1 _ rfl
  have e6 : fld wd 6 0 = d.code := ef 0 6 _ rfl
  have e7 : fld wd 13 7 = v.code := ef 1 6 _ rfl
  refine oneWord rfl (by rw [ep]; simp only [packs]; omega) el e0 rfl ?_ fun h => ?_
  · simp [instrWords, e0]
  · simp [decodeRaw, decodeOp1E, e0, e1, e2, e3, e4, e5, e6, e7]

theorem acasSpace (o : AOrd) (s : Sp) (t : ATy) (d : VOp) (v : VOp) : Statement (.acasSpace o s t d v) := by
  obtain ⟨wd, ep, el, ef⟩ := word_of [(7, d.code), (7, v.code), (2, 0), (2, t.code), (2, s.code), (2, o.code), (4, 7), (6, 30)]
    ⟨d.code_lt, v.code_lt, by decide, t.code_lt, s.code_lt, o.code_lt, by decide, by decide, trivial⟩ rfl
  have e0 : fld wd 31 26 = 30 := ef 7 5 _ rfl
  have e1 : fld wd 25 22 = 7 := ef 6 3 _ rfl
  have e2 : fld wd 15 14 = 0 := ef 2 1 _ rfl
  have e3 : fld wd 21 20 = o.code := ef 5 1 _ rfl
  have e4 : fld wd 19 18 = s.code := ef 4 1 _ rfl
  have e5 : fld wd 17 16 = t.code := ef 3 1 _ rfl
  have e6 : fld wd 6 0 = d.code := ef 0 6 _ rfl
  have e7 : fld wd 13 7 = v.code := ef 1 6 _ rfl
  refine oneWord rfl (by rw [ep]; simp only [packs]; omega) el e0 rfl ?_ fun h => ?_
  · simp [instrWords, e0]
  · simp [decodeRaw, decodeOp1E, e0, e1, e2, e3, e4, e5, e6, e7]

theorem aaccSpace (o : AOrd) (s : Sp) (d : VOp) (v : VOp) : Statement (.aaccSpace o s d v) := by
  obtain ⟨wd, ep, el, ef⟩ := word_of [(7, d.code), (7, v.code), (4, 12), (2, s.code), (2, o.code), (4, 8), (6, 30)]
    ⟨d.code_lt, v.code_lt, by decide, s.code_lt, o.code_lt, by decide, by decide, trivial⟩ rfl
  have e0 : fld wd 31 26 = 30 := ef 6 5 _ rfl
  have e1 : fld wd 25 22 = 8 := ef 5 3 _ rfl
  have e2 : fld wd 17 14 = 12 := ef 2 3 _ rfl
  have e3 : fld wd 21 20 = o.code := ef 4 1 _ rfl
  have e4 : fld wd 19 18 = s.code := ef 3 1 _ rfl
  have e5 : fld wd 6 0 = d.code := ef 0 6 _ rfl
  have e6 : fld wd 13 7 = v.code := ef 1 6 _ rfl
  refine oneWord rfl (by rw [ep]; simp only [packs]; omega) el e0 rfl ?_ fun h => ?_
  · simp [instrWords, e0]
  · simp [decodeRaw, decodeOp1E, e0, e1, e2, e3, e4, e5, e6]

theorem aincSpace (o : AOrd) (s : Sp) (n : Bool) (d : VOp) (v : VOp) : Statement (.aincSpace o s n d v) := by
  obtain ⟨wd, ep, el, ef⟩ := word_of [(7, d.code), (7, v.code), (2, 0), (1, n.toNat), (1, 0), (2, s.code), (2, o.code), (4, 9), (6, 30)]
    ⟨d.code_lt, v.code_lt, by decide, n.toNat_lt, by decide, s.code_lt, o.code_lt, by decide, by decide, trivial⟩ rfl
  have e0 : fld wd 31 26 = 30 := ef 8 5 _ rfl
  have e1 : fld wd 25 22 = 9 := ef 7 3 _ rfl
  have e2 : fld wd 15 14 = 0 := ef 2 1 _ rfl
  have e3 : fld wd 17 17 = 0 := ef 4 0 _ rfl
  have e4 : fld wd 21 20 = o.code := ef 6 1 _ rfl
  have e5 : fld wd 19 18 = s.code := ef 5 1 _ rfl
  have e6 : fld wd 16 16 = n.toNat := ef 3 0 _ rfl
  have e7 : fld wd 6 0 = d.code := ef 0 6 _ rfl
  have e8 : fld wd 13 7 = v.code := ef 1 6 _ rfl
  refine oneWord rfl (by rw [ep]; simp only [packs]; omega) el e0 rfl ?_ fun h => ?_
  · simp [instrWords, e0]
  · simp [decodeRaw, decodeOp1E, e0, e1, e2, e3, e4, e5, e6, e7, e8]

theorem fence (k : FKind) (s : Scope) : Statement (.fence k s) := by
  obtain ⟨wd, ep, el, ef⟩ := word_of [(12, 0), (3, s.code), (1, 0), (2, k.code), (4, 0), (4, 0), (6, 31)]
    ⟨by decide, s.code_lt, by decide, k.code_lt, by decide, by decide, by decide, trivial⟩ rfl
  have e0 : fld wd 31 26 = 31 := ef 6 5 _ rfl
  have e1 : fld wd 25 22 = 0 := ef 5 3 _ rfl
  have e2 : fld wd 11 0 = 0 := ef 0 11 _ rfl
  have e3 : fld wd 15 15 = 0 := ef 2 0 _ rfl
  have e4 : fld wd 21 18 = 0 := ef 4 3 _ rfl
  have e5 : fld wd 17 16 = k.code := ef 3 1 _ rfl
  have e6 : fld wd 14 12 = s.code := ef 1 2 _ rfl
  refine oneWord rfl (by rw [ep]; simp only [packs]; omega) el e0 rfl ?_ fun h => ?_
  · simp [instrWords, e0]
  · simp [decodeRaw, decodeOp1F, e0, e1, e2, e3, e4, e5, e6]

theorem cprf (i : BitVec 10) (a : BitVec 6) (l : Bool) : Statement (.cprf i a l) := by
  obtain ⟨wd, ep, el, ef⟩ := word_of [(1, l.toNat), (5, 0), (6, a.toNat), (10, i.toNat), (4, 1), (6, 31)]
    ⟨l.toNat_lt, by decide, a.isLt, i.isLt, by decide, by decide, trivial⟩ rfl
  have e0 : fld wd 31 26 = 31 := ef 5 5 _ rfl
  have e1 : fld wd 25 22 = 1 := ef 4 3 _ rfl
  have e2 : fld wd 5 1 = 0 := ef 1 4 _ rfl
  have e3 : fld wd 21 12 = i.toNat := ef 3 9 _ rfl
  have e4 : fld wd 11 6 = a.toNat := ef 2 5 _ rfl
  have e5 : fld wd 0 0 = l.toNat := ef 0 0 _ rfl
  refine oneWord rfl (by rw [ep]; simp only [packs]; omega) el e0 rfl ?_ fun h => ?_
  · simp [instrWords, e0]
  · simp [decodeRaw, decodeOp1F, e0, e1, e2, e3, e4, e5]

theorem cflush (a : BitVec 6) (d : BitVec 6) : Statement (.cflush a d) := by
  obtain ⟨wd, ep, el, ef⟩ := word_of [(6, d.toNat), (6, a.toNat), (10, 0), (4, 2), (6, 31)]
    ⟨d.isLt, a.isLt, by decide, by decide, by decide, trivial⟩ rfl
  have e0 : fld wd 31 26 = 31 := ef 4 5 _ rfl
  have e1 : fld wd 25 22 = 2 := ef 3 3 _ rfl
  have e2 : fld wd 21 12 = 0 := ef 2 9 _ rfl
  have e3 : fld wd 11 6 = a.toNat := ef 1 5 _ rfl
  have e4 : fld wd 5 0 = d.toNat := ef 0 5 _ rfl
  refine oneWord rfl (by rw [ep]; simp only [packs]; omega) el e0 rfl ?_ fun h => ?_
  · simp [instrWords, e0]
  · simp [decodeRaw, decodeOp1F, e0, e1, e2, e3, e4]

theorem sld (d : BitVec 6) (a : BitVec 6) (i : BitVec 10) : Statement (.sld d a i) := by
  obtain ⟨wd, ep, el, ef⟩ := word_of [(6, d.toNat), (6, a.toNat), (10, i.toNat), (4, 3), (6, 31)]
    ⟨d.isLt, a.isLt, i.isLt, by decide, by decide, trivial⟩ rfl
  have e0 : fld wd 31 26 = 31 := ef 4 5 _ rfl
  have e1 : fld wd 25 22 = 3 := ef 3 3 _ rfl
  have e2 : fld wd 5 0 = d.toNat := ef 0 5 _ rfl
  have e3 : fld wd 11 6 = a.toNat := ef 1 5 _ rfl
  have e4 : fld wd 21 12 = i.toNat := ef 2 9 _ rfl
  refine oneWord rfl (by rw [ep]; simp only [packs]; omega) el e0 rfl ?_ fun h => ?_
  · simp [instrWords, e0]
  · simp [decodeRaw, decodeOp1F, e0, e1, e2, e3, e4]

theorem sst (a : BitVec 6) (i : BitVec 10) (d : BitVec 6) : Statement (.sst a i d) := by
  obtain ⟨wd, ep, el, ef⟩ := word_of [(6, d.toNat), (6, a.toNat), (10, i.toNat), (4, 4), (6, 31)]
    ⟨d.isLt, a.isLt, i.isLt, by decide, by decide, trivial⟩ rfl
  have e0 : fld wd 31 26 = 31 := ef 4 5 _ rfl
  have e1 : fld wd 25 22 = 4 := ef 3 3 _ rfl
  have e2 : fld wd 11 6 = a.toNat := ef 1 5 _ rfl
  have e3 : fld wd 21 12 = i.toNat := ef 2 9 _ rfl
  have e4 : fld wd 5 0 = d.toNat := ef 0 5 _ rfl
  refine oneWord rfl (by rw [ep]; simp only [packs]; omega) el e0 rfl ?_ fun h => ?_
  · simp [instrWords, e0]
  · simp [decodeRaw, decodeOp1F, e0, e1, e2, e3, e4]

theorem cpyG2s (dst : BitVec 6) (src : BitVec 6) (len : BitVec 6) (sl : BitVec 4) (obj : BitVec 6) (idx : BitVec 6) (rows : BitVec 6) (stride : BitVec 6) (mc : Bool) (ring : Bool) (fill : Bool) : Statement (.cpyG2s dst src len sl obj idx rows stride mc ring fill) := by
  obtain ⟨wd, ep, el, ef⟩ := word_of [(4, sl.toNat), (6, len.toNat), (6, src.toNat), (6, dst.toNat), (4, 0), (6, 32)]
    ⟨sl.isLt, len.isLt, src.isLt, dst.isLt, by decide, by decide, trivial⟩ rfl
  have e0 : fld wd 31 26 = 32 := ef 5 5 _ rfl
  have e1 : fld wd 25 22 = 0 := ef 4 3 _ rfl
  have e2 : fld wd 21 16 = dst.toNat := ef 3 5 _ rfl
  have e3 : fld wd 15 10 = src.toNat := ef 2 5 _ rfl
  have e4 : fld wd 9 4 = len.toNat := ef 1 5 _ rfl
  have e5 : fld wd 3 0 = sl.toNat := ef 0 3 _ rfl
  obtain ⟨xd, fp, fl, ff⟩ := word_of [(1, mc.toNat), (1, ring.toNat), (1, fill.toNat), (1, 0), (6, stride.toNat), (6, rows.toNat), (4, 0), (6, idx.toNat), (6, obj.toNat)]
    ⟨mc.toNat_lt, ring.toNat_lt, fill.toNat_lt, by decide, stride.isLt, rows.isLt, by decide, idx.isLt, obj.isLt, trivial⟩ rfl
  have f0 : fld xd 19 16 = 0 := ff 6 3 _ rfl
  have f1 : fld xd 3 3 = 0 := ff 3 0 _ rfl
  have f2 : fld xd 31 26 = obj.toNat := ff 8 5 _ rfl
  have f3 : fld xd 25 20 = idx.toNat := ff 7 5 _ rfl
  have f4 : fld xd 15 10 = rows.toNat := ff 5 5 _ rfl
  have f5 : fld xd 9 4 = stride.toNat := ff 4 5 _ rfl
  have f6 : fld xd 0 0 = mc.toNat := ff 0 0 _ rfl
  have f7 : fld xd 1 1 = ring.toNat := ff 1 0 _ rfl
  have f8 : fld xd 2 2 = fill.toNat := ff 2 0 _ rfl
  refine twoWords rfl (by rw [ep]; simp only [packs]; omega) (by rw [fp]; simp only [packs]; omega) el fl e0 rfl ?_ fun h => ?_
  · simp [instrWords, e0]
  · simp [decodeRaw, decodeOp20, e0, e1, e2, e3, e4, e5, f0, f1, f2, f3, f4, f5, f6, f7, f8]

theorem cpyG2c (dst : BitVec 6) (src : BitVec 6) (len : BitVec 6) (sl : BitVec 4) (obj : BitVec 6) (idx : BitVec 6) (rows : BitVec 6) (stride : BitVec 6) (ring : Bool) (fill : Bool) : Statement (.cpyG2c dst src len sl obj idx rows stride ring fill) := by
  obtain ⟨wd, ep, el, ef⟩ := word_of [(4, sl.toNat), (6, len.toNat), (6, src.toNat), (6, dst.toNat), (4, 1), (6, 32)]
    ⟨sl.isLt, len.isLt, src.isLt, dst.isLt, by decide, by decide, trivial⟩ rfl
  have e0 : fld wd 31 26 = 32 := ef 5 5 _ rfl
  have e1 : fld wd 25 22 = 1 := ef 4 3 _ rfl
  have e2 : fld wd 21 16 = dst.toNat := ef 3 5 _ rfl
  have e3 : fld wd 15 10 = src.toNat := ef 2 5 _ rfl
  have e4 : fld wd 9 4 = len.toNat := ef 1 5 _ rfl
  have e5 : fld wd 3 0 = sl.toNat := ef 0 3 _ rfl
  obtain ⟨xd, fp, fl, ff⟩ := word_of [(1, 0), (1, ring.toNat), (1, fill.toNat), (1, 0), (6, stride.toNat), (6, rows.toNat), (4, 0), (6, idx.toNat), (6, obj.toNat)]
    ⟨by decide, ring.toNat_lt, fill.toNat_lt, by decide, stride.isLt, rows.isLt, by decide, idx.isLt, obj.isLt, trivial⟩ rfl
  have f0 : fld xd 19 16 = 0 := ff 6 3 _ rfl
  have f1 : fld xd 3 3 = 0 := ff 3 0 _ rfl
  have f2 : fld xd 0 0 = 0 := ff 0 0 _ rfl
  have f3 : fld xd 31 26 = obj.toNat := ff 8 5 _ rfl
  have f4 : fld xd 25 20 = idx.toNat := ff 7 5 _ rfl
  have f5 : fld xd 15 10 = rows.toNat := ff 5 5 _ rfl
  have f6 : fld xd 9 4 = stride.toNat := ff 4 5 _ rfl
  have f7 : fld xd 1 1 = ring.toNat := ff 1 0 _ rfl
  have f8 : fld xd 2 2 = fill.toNat := ff 2 0 _ rfl
  refine twoWords rfl (by rw [ep]; simp only [packs]; omega) (by rw [fp]; simp only [packs]; omega) el fl e0 rfl ?_ fun h => ?_
  · simp [instrWords, e0]
  · simp [decodeRaw, decodeOp20, e0, e1, e2, e3, e4, e5, f0, f1, f2, f3, f4, f5, f6, f7, f8]

theorem cpyG2t (dst : BitVec 6) (src : BitVec 6) (len : BitVec 6) (sl : BitVec 4) (obj : BitVec 6) (idx : BitVec 6) (rows : BitVec 6) (stride : BitVec 6) (fill : Bool) : Statement (.cpyG2t dst src len sl obj idx rows stride fill) := by
  obtain ⟨wd, ep, el, ef⟩ := word_of [(4, sl.toNat), (6, len.toNat), (6, src.toNat), (6, dst.toNat), (4, 2), (6, 32)]
    ⟨sl.isLt, len.isLt, src.isLt, dst.isLt, by decide, by decide, trivial⟩ rfl
  have e0 : fld wd 31 26 = 32 := ef 5 5 _ rfl
  have e1 : fld wd 25 22 = 2 := ef 4 3 _ rfl
  have e2 : fld wd 21 16 = dst.toNat := ef 3 5 _ rfl
  have e3 : fld wd 15 10 = src.toNat := ef 2 5 _ rfl
  have e4 : fld wd 9 4 = len.toNat := ef 1 5 _ rfl
  have e5 : fld wd 3 0 = sl.toNat := ef 0 3 _ rfl
  obtain ⟨xd, fp, fl, ff⟩ := word_of [(2, 0), (1, fill.toNat), (1, 0), (6, stride.toNat), (6, rows.toNat), (4, 0), (6, idx.toNat), (6, obj.toNat)]
    ⟨by decide, fill.toNat_lt, by decide, stride.isLt, rows.isLt, by decide, idx.isLt, obj.isLt, trivial⟩ rfl
  have f0 : fld xd 19 16 = 0 := ff 5 3 _ rfl
  have f1 : fld xd 3 3 = 0 := ff 2 0 _ rfl
  have fg2 : fld xd 1 0 = 0 := ff 0 1 _ rfl
  have f2 := fld_within fg2 0 0 (by decide) (by decide) (by decide)
  have f3 := fld_within fg2 1 1 (by decide) (by decide) (by decide)
  have f4 : fld xd 31 26 = obj.toNat := ff 7 5 _ rfl
  have f5 : fld xd 25 20 = idx.toNat := ff 6 5 _ rfl
  have f6 : fld xd 15 10 = rows.toNat := ff 4 5 _ rfl
  have f7 : fld xd 9 4 = stride.toNat := ff 3 5 _ rfl
  have f8 : fld xd 2 2 = fill.toNat := ff 1 0 _ rfl
  refine twoWords rfl (by rw [ep]; simp only [packs]; omega) (by rw [fp]; simp only [packs]; omega) el fl e0 rfl ?_ fun h => ?_
  · simp [instrWords, e0]
  · simp [decodeRaw, decodeOp20, e0, e1, e2, e3, e4, e5, f0, f1, f2, f3, f4, f5, f6, f7, f8]

theorem cpyS2g (dst : BitVec 6) (src : BitVec 6) (len : BitVec 6) (sl : BitVec 4) (obj : BitVec 6) (idx : BitVec 6) (rows : BitVec 6) (stride : BitVec 6) : Statement (.cpyS2g dst src len sl obj idx rows stride) := by
  obtain ⟨wd, ep, el, ef⟩ := word_of [(4, sl.toNat), (6, len.toNat), (6, src.toNat), (6, dst.toNat), (4, 3), (6, 32)]
    ⟨sl.isLt, len.isLt, src.isLt, dst.isLt, by decide, by decide, trivial⟩ rfl
  have e0 : fld wd 31 26 = 32 := ef 5 5 _ rfl
  have e1 : fld wd 25 22 = 3 := ef 4 3 _ rfl
  have e2 : fld wd 21 16 = dst.toNat := ef 3 5 _ rfl
  have e3 : fld wd 15 10 = src.toNat := ef 2 5 _ rfl
  have e4 : fld wd 9 4 = len.toNat := ef 1 5 _ rfl
  have e5 : fld wd 3 0 = sl.toNat := ef 0 3 _ rfl
  obtain ⟨xd, fp, fl, ff⟩ := word_of [(4, 0), (6, stride.toNat), (6, rows.toNat), (4, 0), (6, idx.toNat), (6, obj.toNat)]
    ⟨by decide, stride.isLt, rows.isLt, by decide, idx.isLt, obj.isLt, trivial⟩ rfl
  have f0 : fld xd 19 16 = 0 := ff 3 3 _ rfl
  have fg1 : fld xd 3 0 = 0 := ff 0 3 _ rfl
  have f1 := fld_within fg1 3 3 (by decide) (by decide) (by decide)
  have f2 := fld_within fg1 0 0 (by decide) (by decide) (by decide)
  have f3 := fld_within fg1 1 1 (by decide) (by decide) (by decide)
  have f4 := fld_within fg1 2 2 (by decide) (by decide) (by decide)
  have f5 : fld xd 31 26 = obj.toNat := ff 5 5 _ rfl
  have f6 : fld xd 25 20 = idx.toNat := ff 4 5 _ rfl
  have f7 : fld xd 15 10 = rows.toNat := ff 2 5 _ rfl
  have f8 : fld xd 9 4 = stride.toNat := ff 1 5 _ rfl
  refine twoWords rfl (by rw [ep]; simp only [packs]; omega) (by rw [fp]; simp only [packs]; omega) el fl e0 rfl ?_ fun h => ?_
  · simp [instrWords, e0]
  · simp [decodeRaw, decodeOp20, e0, e1, e2, e3, e4, e5, f0, f1, f2, f3, f4, f5, f6, f7, f8]

theorem cpyC2s (dst : BitVec 6) (src : BitVec 6) (len : BitVec 6) (sl : BitVec 4) (obj : BitVec 6) (idx : BitVec 6) (rows : BitVec 6) (stride : BitVec 6) (mc : Bool) (ring : Bool) : Statement (.cpyC2s dst src len sl obj idx rows stride mc ring) := by
  obtain ⟨wd, ep, el, ef⟩ := word_of [(4, sl.toNat), (6, len.toNat), (6, src.toNat), (6, dst.toNat), (4, 4), (6, 32)]
    ⟨sl.isLt, len.isLt, src.isLt, dst.isLt, by decide, by decide, trivial⟩ rfl
  have e0 : fld wd 31 26 = 32 := ef 5 5 _ rfl
  have e1 : fld wd 25 22 = 4 := ef 4 3 _ rfl
  have e2 : fld wd 21 16 = dst.toNat := ef 3 5 _ rfl
  have e3 : fld wd 15 10 = src.toNat := ef 2 5 _ rfl
  have e4 : fld wd 9 4 = len.toNat := ef 1 5 _ rfl
  have e5 : fld wd 3 0 = sl.toNat := ef 0 3 _ rfl
  obtain ⟨xd, fp, fl, ff⟩ := word_of [(1, mc.toNat), (1, ring.toNat), (2, 0), (6, stride.toNat), (6, rows.toNat), (4, 0), (6, idx.toNat), (6, obj.toNat)]
    ⟨mc.toNat_lt, ring.toNat_lt, by decide, stride.isLt, rows.isLt, by decide, idx.isLt, obj.isLt, trivial⟩ rfl
  have f0 : fld xd 19 16 = 0 := ff 5 3 _ rfl
  have fg1 : fld xd 3 2 = 0 := ff 2 1 _ rfl
  have f1 := fld_within fg1 3 3 (by decide) (by decide) (by decide)
  have f2 := fld_within fg1 2 2 (by decide) (by decide) (by decide)
  have f3 : fld xd 31 26 = obj.toNat := ff 7 5 _ rfl
  have f4 : fld xd 25 20 = idx.toNat := ff 6 5 _ rfl
  have f5 : fld xd 15 10 = rows.toNat := ff 4 5 _ rfl
  have f6 : fld xd 9 4 = stride.toNat := ff 3 5 _ rfl
  have f7 : fld xd 0 0 = mc.toNat := ff 0 0 _ rfl
  have f8 : fld xd 1 1 = ring.toNat := ff 1 0 _ rfl
  refine twoWords rfl (by rw [ep]; simp only [packs]; omega) (by rw [fp]; simp only [packs]; omega) el fl e0 rfl ?_ fun h => ?_
  · simp [instrWords, e0]
  · simp [decodeRaw, decodeOp20, e0, e1, e2, e3, e4, e5, f0, f1, f2, f3, f4, f5, f6, f7, f8]

theorem cpyS2c (dst : BitVec 6) (src : BitVec 6) (len : BitVec 6) (sl : BitVec 4) (obj : BitVec 6) (idx : BitVec 6) (rows : BitVec 6) (stride : BitVec 6) (ring : Bool) : Statement (.cpyS2c dst src len sl obj idx rows stride ring) := by
  obtain ⟨wd, ep, el, ef⟩ := word_of [(4, sl.toNat), (6, len.toNat), (6, src.toNat), (6, dst.toNat), (4, 5), (6, 32)]
    ⟨sl.isLt, len.isLt, src.isLt, dst.isLt, by decide, by decide, trivial⟩ rfl
  have e0 : fld wd 31 26 = 32 := ef 5 5 _ rfl
  have e1 : fld wd 25 22 = 5 := ef 4 3 _ rfl
  have e2 : fld wd 21 16 = dst.toNat := ef 3 5 _ rfl
  have e3 : fld wd 15 10 = src.toNat := ef 2 5 _ rfl
  have e4 : fld wd 9 4 = len.toNat := ef 1 5 _ rfl
  have e5 : fld wd 3 0 = sl.toNat := ef 0 3 _ rfl
  obtain ⟨xd, fp, fl, ff⟩ := word_of [(1, 0), (1, ring.toNat), (2, 0), (6, stride.toNat), (6, rows.toNat), (4, 0), (6, idx.toNat), (6, obj.toNat)]
    ⟨by decide, ring.toNat_lt, by decide, stride.isLt, rows.isLt, by decide, idx.isLt, obj.isLt, trivial⟩ rfl
  have f0 : fld xd 19 16 = 0 := ff 5 3 _ rfl
  have fg1 : fld xd 3 2 = 0 := ff 2 1 _ rfl
  have f1 := fld_within fg1 3 3 (by decide) (by decide) (by decide)
  have f2 : fld xd 0 0 = 0 := ff 0 0 _ rfl
  have f3 := fld_within fg1 2 2 (by decide) (by decide) (by decide)
  have f4 : fld xd 31 26 = obj.toNat := ff 7 5 _ rfl
  have f5 : fld xd 25 20 = idx.toNat := ff 6 5 _ rfl
  have f6 : fld xd 15 10 = rows.toNat := ff 4 5 _ rfl
  have f7 : fld xd 9 4 = stride.toNat := ff 3 5 _ rfl
  have f8 : fld xd 1 1 = ring.toNat := ff 1 0 _ rfl
  refine twoWords rfl (by rw [ep]; simp only [packs]; omega) (by rw [fp]; simp only [packs]; omega) el fl e0 rfl ?_ fun h => ?_
  · simp [instrWords, e0]
  · simp [decodeRaw, decodeOp20, e0, e1, e2, e3, e4, e5, f0, f1, f2, f3, f4, f5, f6, f7, f8]

theorem cpym (dst : BitVec 6) (src : BitVec 6) (len : BitVec 6) (sl : BitVec 4) (obj : BitVec 6) (idx : BitVec 6) (rows : BitVec 6) (stride : BitVec 6) (fill : Bool) : Statement (.cpym dst src len sl obj idx rows stride fill) := by
  obtain ⟨wd, ep, el, ef⟩ := word_of [(4, sl.toNat), (6, len.toNat), (6, src.toNat), (6, dst.toNat), (4, 6), (6, 32)]
    ⟨sl.isLt, len.isLt, src.isLt, dst.isLt, by decide, by decide, trivial⟩ rfl
  have e0 : fld wd 31 26 = 32 := ef 5 5 _ rfl
  have e1 : fld wd 25 22 = 6 := ef 4 3 _ rfl
  have e2 : fld wd 21 16 = dst.toNat := ef 3 5 _ rfl
  have e3 : fld wd 15 10 = src.toNat := ef 2 5 _ rfl
  have e4 : fld wd 9 4 = len.toNat := ef 1 5 _ rfl
  have e5 : fld wd 3 0 = sl.toNat := ef 0 3 _ rfl
  obtain ⟨xd, fp, fl, ff⟩ := word_of [(2, 0), (1, fill.toNat), (1, 0), (6, stride.toNat), (6, rows.toNat), (4, 0), (6, idx.toNat), (6, obj.toNat)]
    ⟨by decide, fill.toNat_lt, by decide, stride.isLt, rows.isLt, by decide, idx.isLt, obj.isLt, trivial⟩ rfl
  have f0 : fld xd 19 16 = 0 := ff 5 3 _ rfl
  have f1 : fld xd 3 3 = 0 := ff 2 0 _ rfl
  have fg2 : fld xd 1 0 = 0 := ff 0 1 _ rfl
  have f2 := fld_within fg2 0 0 (by decide) (by decide) (by decide)
  have f3 := fld_within fg2 1 1 (by decide) (by decide) (by decide)
  have f4 : fld xd 31 26 = obj.toNat := ff 7 5 _ rfl
  have f5 : fld xd 25 20 = idx.toNat := ff 6 5 _ rfl
  have f6 : fld xd 15 10 = rows.toNat := ff 4 5 _ rfl
  have f7 : fld xd 9 4 = stride.toNat := ff 3 5 _ rfl
  have f8 : fld xd 2 2 = fill.toNat := ff 1 0 _ rfl
  refine twoWords rfl (by rw [ep]; simp only [packs]; omega) (by rw [fp]; simp only [packs]; omega) el fl e0 rfl ?_ fun h => ?_
  · simp [instrWords, e0]
  · simp [decodeRaw, decodeOp20, e0, e1, e2, e3, e4, e5, f0, f1, f2, f3, f4, f5, f6, f7, f8]

theorem cpyx (dst : BitVec 6) (src : BitVec 6) (len : BitVec 6) (sl : BitVec 4) (obj : BitVec 6) (idx : BitVec 6) (rows : BitVec 6) (stride : BitVec 6) (ring : Bool) : Statement (.cpyx dst src len sl obj idx rows stride ring) := by
  obtain ⟨wd, ep, el, ef⟩ := word_of [(4, sl.toNat), (6, len.toNat), (6, src.toNat), (6, dst.toNat), (4, 7), (6, 32)]
    ⟨sl.isLt, len.isLt, src.isLt, dst.isLt, by decide, by decide, trivial⟩ rfl
  have e0 : fld wd 31 26 = 32 := ef 5 5 _ rfl
  have e1 : fld wd 25 22 = 7 := ef 4 3 _ rfl
  have e2 : fld wd 21 16 = dst.toNat := ef 3 5 _ rfl
  have e3 : fld wd 15 10 = src.toNat := ef 2 5 _ rfl
  have e4 : fld wd 9 4 = len.toNat := ef 1 5 _ rfl
  have e5 : fld wd 3 0 = sl.toNat := ef 0 3 _ rfl
  obtain ⟨xd, fp, fl, ff⟩ := word_of [(1, 0), (1, ring.toNat), (2, 0), (6, stride.toNat), (6, rows.toNat), (4, 0), (6, idx.toNat), (6, obj.toNat)]
    ⟨by decide, ring.toNat_lt, by decide, stride.isLt, rows.isLt, by decide, idx.isLt, obj.isLt, trivial⟩ rfl
  have f0 : fld xd 19 16 = 0 := ff 5 3 _ rfl
  have fg1 : fld xd 3 2 = 0 := ff 2 1 _ rfl
  have f1 := fld_within fg1 3 3 (by decide) (by decide) (by decide)
  have f2 : fld xd 0 0 = 0 := ff 0 0 _ rfl
  have f3 := fld_within fg1 2 2 (by decide) (by decide) (by decide)
  have f4 : fld xd 31 26 = obj.toNat := ff 7 5 _ rfl
  have f5 : fld xd 25 20 = idx.toNat := ff 6 5 _ rfl
  have f6 : fld xd 15 10 = rows.toNat := ff 4 5 _ rfl
  have f7 : fld xd 9 4 = stride.toNat := ff 3 5 _ rfl
  have f8 : fld xd 1 1 = ring.toNat := ff 1 0 _ rfl
  refine twoWords rfl (by rw [ep]; simp only [packs]; omega) (by rw [fp]; simp only [packs]; omega) el fl e0 rfl ?_ fun h => ?_
  · simp [instrWords, e0]
  · simp [decodeRaw, decodeOp20, e0, e1, e2, e3, e4, e5, f0, f1, f2, f3, f4, f5, f6, f7, f8]

theorem cpyg (dst : BitVec 6) (src : BitVec 6) (len : BitVec 6) (sl : BitVec 4) (obj : BitVec 6) (idx : BitVec 6) (rows : BitVec 6) (stride : BitVec 6) (ring : Bool) (fill : Bool) : Statement (.cpyg dst src len sl obj idx rows stride ring fill) := by
  obtain ⟨wd, ep, el, ef⟩ := word_of [(4, sl.toNat), (6, len.toNat), (6, src.toNat), (6, dst.toNat), (4, 8), (6, 32)]
    ⟨sl.isLt, len.isLt, src.isLt, dst.isLt, by decide, by decide, trivial⟩ rfl
  have e0 : fld wd 31 26 = 32 := ef 5 5 _ rfl
  have e1 : fld wd 25 22 = 8 := ef 4 3 _ rfl
  have e2 : fld wd 21 16 = dst.toNat := ef 3 5 _ rfl
  have e3 : fld wd 15 10 = src.toNat := ef 2 5 _ rfl
  have e4 : fld wd 9 4 = len.toNat := ef 1 5 _ rfl
  have e5 : fld wd 3 0 = sl.toNat := ef 0 3 _ rfl
  obtain ⟨xd, fp, fl, ff⟩ := word_of [(1, 0), (1, ring.toNat), (1, fill.toNat), (1, 0), (6, stride.toNat), (6, rows.toNat), (4, 0), (6, idx.toNat), (6, obj.toNat)]
    ⟨by decide, ring.toNat_lt, fill.toNat_lt, by decide, stride.isLt, rows.isLt, by decide, idx.isLt, obj.isLt, trivial⟩ rfl
  have f0 : fld xd 19 16 = 0 := ff 6 3 _ rfl
  have f1 : fld xd 3 3 = 0 := ff 3 0 _ rfl
  have f2 : fld xd 0 0 = 0 := ff 0 0 _ rfl
  have f3 : fld xd 31 26 = obj.toNat := ff 8 5 _ rfl
  have f4 : fld xd 25 20 = idx.toNat := ff 7 5 _ rfl
  have f5 : fld xd 15 10 = rows.toNat := ff 5 5 _ rfl
  have f6 : fld xd 9 4 = stride.toNat := ff 4 5 _ rfl
  have f7 : fld xd 1 1 = ring.toNat := ff 1 0 _ rfl
  have f8 : fld xd 2 2 = fill.toNat := ff 2 0 _ rfl
  refine twoWords rfl (by rw [ep]; simp only [packs]; omega) (by rw [fp]; simp only [packs]; omega) el fl e0 rfl ?_ fun h => ?_
  · simp [instrWords, e0]
  · simp [decodeRaw, decodeOp20, e0, e1, e2, e3, e4, e5, f0, f1, f2, f3, f4, f5, f6, f7, f8]

theorem cred (dst : BitVec 6) (src : BitVec 6) (len : BitVec 6) (sl : BitVec 4) (obj : BitVec 6) (idx : BitVec 6) (rows : BitVec 6) (stride : BitVec 6) : Statement (.cred dst src len sl obj idx rows stride) := by
  obtain ⟨wd, ep, el, ef⟩ := word_of [(4, sl.toNat), (6, len.toNat), (6, src.toNat), (6, dst.toNat), (4, 9), (6, 32)]
    ⟨sl.isLt, len.isLt, src.isLt, dst.isLt, by decide, by decide, trivial⟩ rfl
  have e0 : fld wd 31 26 = 32 := ef 5 5 _ rfl
  have e1 : fld wd 25 22 = 9 := ef 4 3 _ rfl
  have e2 : fld wd 21 16 = dst.toNat := ef 3 5 _ rfl
  have e3 : fld wd 15 10 = src.toNat := ef 2 5 _ rfl
  have e4 : fld wd 9 4 = len.toNat := ef 1 5 _ rfl
  have e5 : fld wd 3 0 = sl.toNat := ef 0 3 _ rfl
  obtain ⟨xd, fp, fl, ff⟩ := word_of [(4, 0), (6, stride.toNat), (6, rows.toNat), (4, 0), (6, idx.toNat), (6, obj.toNat)]
    ⟨by decide, stride.isLt, rows.isLt, by decide, idx.isLt, obj.isLt, trivial⟩ rfl
  have f0 : fld xd 19 16 = 0 := ff 3 3 _ rfl
  have fg1 : fld xd 3 0 = 0 := ff 0 3 _ rfl
  have f1 := fld_within fg1 3 3 (by decide) (by decide) (by decide)
  have f2 := fld_within fg1 0 0 (by decide) (by decide) (by decide)
  have f3 := fld_within fg1 1 1 (by decide) (by decide) (by decide)
  have f4 := fld_within fg1 2 2 (by decide) (by decide) (by decide)
  have f5 : fld xd 31 26 = obj.toNat := ff 5 5 _ rfl
  have f6 : fld xd 25 20 = idx.toNat := ff 4 5 _ rfl
  have f7 : fld xd 15 10 = rows.toNat := ff 2 5 _ rfl
  have f8 : fld xd 9 4 = stride.toNat := ff 1 5 _ rfl
  refine twoWords rfl (by rw [ep]; simp only [packs]; omega) (by rw [fp]; simp only [packs]; omega) el fl e0 rfl ?_ fun h => ?_
  · simp [instrWords, e0]
  · simp [decodeRaw, decodeOp20, e0, e1, e2, e3, e4, e5, f0, f1, f2, f3, f4, f5, f6, f7, f8]

theorem cpycan (n : BitVec 6) (cl : Bool) (obj : BitVec 6) : Statement (.cpycan n cl obj) := by
  obtain ⟨wd, ep, el, ef⟩ := word_of [(1, cl.toNat), (15, 0), (6, n.toNat), (4, 10), (6, 32)]
    ⟨cl.toNat_lt, by decide, n.isLt, by decide, by decide, trivial⟩ rfl
  have e0 : fld wd 31 26 = 32 := ef 4 5 _ rfl
  have e1 : fld wd 25 22 = 10 := ef 3 3 _ rfl
  have e2 : fld wd 15 1 = 0 := ef 1 14 _ rfl
  have e3 : fld wd 21 16 = n.toNat := ef 2 5 _ rfl
  have e4 : fld wd 0 0 = cl.toNat := ef 0 0 _ rfl
  obtain ⟨xd, fp, fl, ff⟩ := word_of [(26, 0), (6, obj.toNat)]
    ⟨by decide, obj.isLt, trivial⟩ rfl
  have f0 : fld xd 25 0 = 0 := ff 0 25 _ rfl
  have f1 : fld xd 31 26 = obj.toNat := ff 1 5 _ rfl
  refine twoWords rfl (by rw [ep]; simp only [packs]; omega) (by rw [fp]; simp only [packs]; omega) el fl e0 rfl ?_ fun h => ?_
  · simp [instrWords, e0]
  · simp [decodeRaw, decodeOp20, e0, e1, e2, e3, e4, f0, f1]

theorem mres (d : BitVec 4) (w : BitVec 32) : Statement (.mres d w) := by
  obtain ⟨wd, ep, el, ef⟩ := word_of [(17, 0), (4, d.toNat), (1, 0), (4, 0), (6, 33)]
    ⟨by decide, d.isLt, by decide, by decide, by decide, trivial⟩ rfl
  have e0 : fld wd 31 26 = 33 := ef 4 5 _ rfl
  have e1 : fld wd 25 22 = 0 := ef 3 3 _ rfl
  have e2 : fld wd 16 0 = 0 := ef 0 16 _ rfl
  have e3 : fld wd 21 21 = 0 := ef 2 0 _ rfl
  have e4 : fld wd 20 17 = d.toNat := ef 1 3 _ rfl
  obtain ⟨xd, fp, fl, ff⟩ := word_of [(32, w.toNat)]
    ⟨w.isLt, trivial⟩ rfl
  have f0 : fld xd 31 0 = w.toNat := ff 0 31 _ rfl
  refine twoWords rfl (by rw [ep]; simp only [packs]; omega) (by rw [fp]; simp only [packs]; omega) el fl e0 rfl ?_ fun h => ?_
  · simp [instrWords, e0, e1]
  · simp [decodeRaw, decodeOp21, e0, e1, e2, e3, e4, f0]

theorem mfree (d : BitVec 4) : Statement (.mfree d) := by
  obtain ⟨wd, ep, el, ef⟩ := word_of [(17, 0), (4, d.toNat), (1, 0), (4, 1), (6, 33)]
    ⟨by decide, d.isLt, by decide, by decide, by decide, trivial⟩ rfl
  have e0 : fld wd 31 26 = 33 := ef 4 5 _ rfl
  have e1 : fld wd 25 22 = 1 := ef 3 3 _ rfl
  have e2 : fld wd 16 0 = 0 := ef 0 16 _ rfl
  have e3 : fld wd 21 21 = 0 := ef 2 0 _ rfl
  have e4 : fld wd 20 17 = d.toNat := ef 1 3 _ rfl
  refine oneWord rfl (by rw [ep]; simp only [packs]; omega) el e0 rfl ?_ fun h => ?_
  · simp [instrWords, e0, e1]
  · simp [decodeRaw, decodeOp21, e0, e1, e2, e3, e4]

theorem mld (q : MldSrc) (d : BitVec 4) (s : BitVec 5) (p : BitVec 5) : Statement (.mld q d s p) := by
  obtain ⟨wd, ep, el, ef⟩ := word_of [(2, q.code), (5, 0), (5, p.toNat), (5, s.toNat), (4, d.toNat), (1, 0), (4, 2), (6, 33)]
    ⟨q.code_lt, by decide, p.isLt, s.isLt, d.isLt, by decide, by decide, by decide, trivial⟩ rfl
  have e0 : fld wd 31 26 = 33 := ef 7 5 _ rfl
  have e1 : fld wd 25 22 = 2 := ef 6 3 _ rfl
  have e2 : fld wd 6 2 = 0 := ef 1 4 _ rfl
  have e3 : fld wd 21 21 = 0 := ef 5 0 _ rfl
  have e4 : fld wd 1 0 = q.code := ef 0 1 _ rfl
  have e5 : fld wd 20 17 = d.toNat := ef 4 3 _ rfl
  have e6 : fld wd 16 12 = s.toNat := ef 3 4 _ rfl
  have e7 : fld wd 11 7 = p.toNat := ef 2 4 _ rfl
  refine oneWord rfl (by rw [ep]; simp only [packs]; omega) el e0 rfl ?_ fun h => ?_
  · simp [instrWords, e0, e1]
  · simp [decodeRaw, decodeOp21, e0, e1, e2, e3, e4, e5, e6, e7]

theorem mscl (d : BitVec 4) (s : BitVec 4) (o : BitVec 5) : Statement (.mscl d s o) := by
  obtain ⟨wd, ep, el, ef⟩ := word_of [(7, 0), (5, o.toNat), (4, s.toNat), (1, 0), (4, d.toNat), (1, 0), (4, 3), (6, 33)]
    ⟨by decide, o.isLt, s.isLt, by decide, d.isLt, by decide, by decide, by decide, trivial⟩ rfl
  have e0 : fld wd 31 26 = 33 := ef 7 5 _ rfl
  have e1 : fld wd 25 22 = 3 := ef 6 3 _ rfl
  have e2 : fld wd 6 0 = 0 := ef 0 6 _ rfl
  have e3 : fld wd 16 16 = 0 := ef 3 0 _ rfl
  have e4 : fld wd 21 21 = 0 := ef 5 0 _ rfl
  have e5 : fld wd 20 17 = d.toNat := ef 4 3 _ rfl
  have e6 : fld wd 15 12 = s.toNat := ef 2 3 _ rfl
  have e7 : fld wd 11 7 = o.toNat := ef 1 4 _ rfl
  refine oneWord rfl (by rw [ep]; simp only [packs]; omega) el e0 rfl ?_ fun h => ?_
  · simp [instrWords, e0, e1]
  · simp [decodeRaw, decodeOp21, e0, e1, e2, e3, e4, e5, e6, e7]

theorem mgang (b : BitVec 5) (i : BitVec 4) : Statement (.mgang b i) := by
  obtain ⟨wd, ep, el, ef⟩ := word_of [(4, i.toNat), (3, 0), (5, b.toNat), (10, 0), (4, 0), (6, 34)]
    ⟨i.isLt, by decide, b.isLt, by decide, by decide, by decide, trivial⟩ rfl
  have e0 : fld wd 31 26 = 34 := ef 5 5 _ rfl
  have e1 : fld wd 25 22 = 0 := ef 4 3 _ rfl
  have e2 : fld wd 6 4 = 0 := ef 1 2 _ rfl
  have e3 : fld wd 21 12 = 0 := ef 3 9 _ rfl
  have e4 : fld wd 11 7 = b.toNat := ef 2 4 _ rfl
  have e5 : fld wd 3 0 = i.toNat := ef 0 3 _ rfl
  refine oneWord rfl (by rw [ep]; simp only [packs]; omega) el e0 rfl ?_ fun h => ?_
  · simp [instrWords, e0, e1]
  · simp [decodeRaw, decodeOp22, e0, e1, e2, e3, e4, e5]

theorem mshape (m : BitVec 4) : Statement (.mshape m) := by
  obtain ⟨wd, ep, el, ef⟩ := word_of [(4, m.toNat), (18, 0), (4, 1), (6, 34)]
    ⟨m.isLt, by decide, by decide, by decide, trivial⟩ rfl
  have e0 : fld wd 31 26 = 34 := ef 3 5 _ rfl
  have e1 : fld wd 25 22 = 1 := ef 2 3 _ rfl
  have e2 : fld wd 21 4 = 0 := ef 1 17 _ rfl
  have e3 : fld wd 3 0 = m.toNat := ef 0 3 _ rfl
  refine oneWord rfl (by rw [ep]; simp only [packs]; omega) el e0 rfl ?_ fun h => ?_
  · simp [instrWords, e0, e1]
  · simp [decodeRaw, decodeOp22, e0, e1, e2, e3]

theorem mls (r : BitVec 4) (s : Bool) (c : BitVec 4) (o : BitVec 5) : Statement (.mls r s c o) := by
  obtain ⟨wd, ep, el, ef⟩ := word_of [(1, s.toNat), (6, 0), (5, o.toNat), (4, c.toNat), (1, 0), (4, r.toNat), (1, 0), (4, 2), (6, 34)]
    ⟨s.toNat_lt, by decide, o.isLt, c.isLt, by decide, r.isLt, by decide, by decide, by decide, trivial⟩ rfl
  have e0 : fld wd 31 26 = 34 := ef 8 5 _ rfl
  have e1 : fld wd 25 22 = 2 := ef 7 3 _ rfl
  have e2 : fld wd 6 1 = 0 := ef 1 5 _ rfl
  have e3 : fld wd 16 16 = 0 := ef 4 0 _ rfl
  have e4 : fld wd 21 21 = 0 := ef 6 0 _ rfl
  have e5 : fld wd 20 17 = r.toNat := ef 5 3 _ rfl
  have e6 : fld wd 0 0 = s.toNat := ef 0 0 _ rfl
  have e7 : fld wd 15 12 = c.toNat := ef 3 3 _ rfl
  have e8 : fld wd 11 7 = o.toNat := ef 2 4 _ rfl
  refine oneWord rfl (by rw [ep]; simp only [packs]; omega) el e0 rfl ?_ fun h => ?_
  · simp [instrWords, e0, e1]
  · simp [decodeRaw, decodeOp22, e0, e1, e2, e3, e4, e5, e6, e7, e8]

theorem mswap : Statement (.mswap) := by
  obtain ⟨wd, ep, el, ef⟩ := word_of [(22, 0), (4, 3), (6, 34)]
    ⟨by decide, by decide, by decide, trivial⟩ rfl
  have e0 : fld wd 31 26 = 34 := ef 2 5 _ rfl
  have e1 : fld wd 25 22 = 3 := ef 1 3 _ rfl
  have e2 : fld wd 21 0 = 0 := ef 0 21 _ rfl
  refine oneWord rfl (by rw [ep]; simp only [packs]; omega) el e0 rfl ?_ fun h => ?_
  · simp [instrWords, e0, e1]
  · simp [decodeRaw, decodeOp22, e0, e1, e2]

theorem mma (t : BitVec 3) (a : BitVec 4) (q : BitVec 5) (p : BitVec 2) (g : Bool) (z : Bool) (s : Bool) (w : Bool) : Statement (.mma t a q p g z s w) := by
  obtain ⟨wd, ep, el, ef⟩ := word_of [(1, w.toNat), (1, s.toNat), (1, z.toNat), (1, g.toNat), (2, p.toNat), (1, 0), (5, q.toNat), (4, a.toNat), (1, 0), (3, t.toNat), (2, 0), (4, 4), (6, 34)]
    ⟨w.toNat_lt, s.toNat_lt, z.toNat_lt, g.toNat_lt, p.isLt, by decide, q.isLt, a.isLt, by decide, t.isLt, by decide, by decide, by decide, trivial⟩ rfl
  have e0 : fld wd 31 26 = 34 := ef 12 5 _ rfl
  have e1 : fld wd 25 22 = 4 := ef 11 3 _ rfl
  have e2 : fld wd 6 6 = 0 := ef 5 0 _ rfl
  have e3 : fld wd 16 16 = 0 := ef 8 0 _ rfl
  have e4 : fld wd 21 20 = 0 := ef 10 1 _ rfl
  have e5 : fld wd 19 17 = t.toNat := ef 9 2 _ rfl
  have e6 : fld wd 15 12 = a.toNat := ef 7 3 _ rfl
  have e7 : fld wd 11 7 = q.toNat := ef 6 4 _ rfl
  have e8 : fld wd 5 4 = p.toNat := ef 4 1 _ rfl
  have e9 : fld wd 3 3 = g.toNat := ef 3 0 _ rfl
  have e10 : fld wd 2 2 = z.toNat := ef 2 0 _ rfl
  have e11 : fld wd 1 1 = s.toNat := ef 1 0 _ rfl
  have e12 : fld wd 0 0 = w.toNat := ef 0 0 _ rfl
  refine oneWord rfl (by rw [ep]; simp only [packs]; omega) el e0 rfl ?_ fun h => ?_
  · simp [instrWords, e0, e1]
  · simp [decodeRaw, decodeOp22, e0, e1, e2, e3, e4, e5, e6, e7, e8, e9, e10, e11, e12]

theorem mdrain (t : BitVec 3) (x : BitVec 4) (o : BitVec 5) (n : BitVec 6) (w : BitVec 32) : Statement (.mdrain t x o n w) := by
  obtain ⟨wd, ep, el, ef⟩ := word_of [(6, n.toNat), (1, 0), (5, o.toNat), (4, x.toNat), (1, 0), (3, t.toNat), (2, 0), (4, 5), (6, 34)]
    ⟨n.isLt, by decide, o.isLt, x.isLt, by decide, t.isLt, by decide, by decide, by decide, trivial⟩ rfl
  have e0 : fld wd 31 26 = 34 := ef 8 5 _ rfl
  have e1 : fld wd 25 22 = 5 := ef 7 3 _ rfl
  have e2 : fld wd 6 6 = 0 := ef 1 0 _ rfl
  have e3 : fld wd 16 16 = 0 := ef 4 0 _ rfl
  have e4 : fld wd 21 20 = 0 := ef 6 1 _ rfl
  have e5 : fld wd 19 17 = t.toNat := ef 5 2 _ rfl
  have e6 : fld wd 15 12 = x.toNat := ef 3 3 _ rfl
  have e7 : fld wd 11 7 = o.toNat := ef 2 4 _ rfl
  have e8 : fld wd 5 0 = n.toNat := ef 0 5 _ rfl
  obtain ⟨xd, fp, fl, ff⟩ := word_of [(32, w.toNat)]
    ⟨w.isLt, trivial⟩ rfl
  have f0 : fld xd 31 0 = w.toNat := ff 0 31 _ rfl
  refine twoWords rfl (by rw [ep]; simp only [packs]; omega) (by rw [fp]; simp only [packs]; omega) el fl e0 rfl ?_ fun h => ?_
  · simp [instrWords, e0, e1]
  · simp [decodeRaw, decodeOp22, e0, e1, e2, e3, e4, e5, e6, e7, e8, f0]

theorem mtab (t : BitVec 4) : Statement (.mtab t) := by
  obtain ⟨wd, ep, el, ef⟩ := word_of [(12, 0), (4, t.toNat), (6, 0), (4, 6), (6, 34)]
    ⟨by decide, t.isLt, by decide, by decide, by decide, trivial⟩ rfl
  have e0 : fld wd 31 26 = 34 := ef 4 5 _ rfl
  have e1 : fld wd 25 22 = 6 := ef 3 3 _ rfl
  have e2 : fld wd 11 0 = 0 := ef 0 11 _ rfl
  have e3 : fld wd 21 16 = 0 := ef 2 5 _ rfl
  have e4 : fld wd 15 12 = t.toNat := ef 1 3 _ rfl
  refine oneWord rfl (by rw [ep]; simp only [packs]; omega) el e0 rfl ?_ fun h => ?_
  · simp [instrWords, e0, e1]
  · simp [decodeRaw, decodeOp22, e0, e1, e2, e3, e4]

theorem mzero (t : BitVec 3) : Statement (.mzero t) := by
  obtain ⟨wd, ep, el, ef⟩ := word_of [(17, 0), (3, t.toNat), (2, 0), (4, 7), (6, 34)]
    ⟨by decide, t.isLt, by decide, by decide, by decide, trivial⟩ rfl
  have e0 : fld wd 31 26 = 34 := ef 4 5 _ rfl
  have e1 : fld wd 25 22 = 7 := ef 3 3 _ rfl
  have e2 : fld wd 16 0 = 0 := ef 0 16 _ rfl
  have e3 : fld wd 21 20 = 0 := ef 2 1 _ rfl
  have e4 : fld wd 19 17 = t.toNat := ef 1 2 _ rfl
  refine oneWord rfl (by rw [ep]; simp only [packs]; omega) el e0 rfl ?_ fun h => ?_
  · simp [instrWords, e0, e1]
  · simp [decodeRaw, decodeOp22, e0, e1, e2, e3, e4]

theorem mfill (t : BitVec 3) (r : BitVec 4) : Statement (.mfill t r) := by
  obtain ⟨wd, ep, el, ef⟩ := word_of [(12, 0), (4, r.toNat), (1, 0), (3, t.toNat), (2, 0), (4, 8), (6, 34)]
    ⟨by decide, r.isLt, by decide, t.isLt, by decide, by decide, by decide, trivial⟩ rfl
  have e0 : fld wd 31 26 = 34 := ef 6 5 _ rfl
  have e1 : fld wd 25 22 = 8 := ef 5 3 _ rfl
  have e2 : fld wd 11 0 = 0 := ef 0 11 _ rfl
  have e3 : fld wd 16 16 = 0 := ef 2 0 _ rfl
  have e4 : fld wd 21 20 = 0 := ef 4 1 _ rfl
  have e5 : fld wd 19 17 = t.toNat := ef 3 2 _ rfl
  have e6 : fld wd 15 12 = r.toNat := ef 1 3 _ rfl
  refine oneWord rfl (by rw [ep]; simp only [packs]; omega) el e0 rfl ?_ fun h => ?_
  · simp [instrWords, e0, e1]
  · simp [decodeRaw, decodeOp22, e0, e1, e2, e3, e4, e5, e6]

theorem mredAdd (t : RedT) (d : BitVec 6) (a : VOp) : Statement (.mredAdd t d a) := by
  obtain ⟨wd, ep, el, ef⟩ := word_of [(6, d.toNat), (1, 0), (7, a.code), (7, 0), (2, 0), (3, t.code), (6, 38)]
    ⟨d.isLt, by decide, a.code_lt, by decide, by decide, t.code_lt, by decide, trivial⟩ rfl
  have e0 : fld wd 31 26 = 38 := ef 6 5 _ rfl
  have e1 : fld wd 22 21 = 0 := ef 4 1 _ rfl
  have e2 : fld wd 6 6 = 0 := ef 1 0 _ rfl
  have e3 : fld wd 20 14 = 0 := ef 3 6 _ rfl
  have e4 : fld wd 25 23 = t.code := ef 5 2 _ rfl
  have e5 : fld wd 5 0 = d.toNat := ef 0 5 _ rfl
  have e6 : fld wd 13 7 = a.code := ef 2 6 _ rfl
  refine oneWord rfl (by rw [ep]; simp only [packs]; omega) el e0 rfl ?_ fun h => ?_
  · simp [instrWords, e0]
  · simp [decodeRaw, decodeOp26, e0, e1, e2, e3, e4, e5, e6]

theorem mscanAdd (t : RedT) (d : BitVec 6) (a : VOp) : Statement (.mscanAdd t d a) := by
  obtain ⟨wd, ep, el, ef⟩ := word_of [(6, d.toNat), (1, 0), (7, a.code), (7, 0), (2, 1), (3, t.code), (6, 38)]
    ⟨d.isLt, by decide, a.code_lt, by decide, by decide, t.code_lt, by decide, trivial⟩ rfl
  have e0 : fld wd 31 26 = 38 := ef 6 5 _ rfl
  have e1 : fld wd 22 21 = 1 := ef 4 1 _ rfl
  have e2 : fld wd 6 6 = 0 := ef 1 0 _ rfl
  have e3 : fld wd 20 14 = 0 := ef 3 6 _ rfl
  have e4 : fld wd 25 23 = t.code := ef 5 2 _ rfl
  have e5 : fld wd 5 0 = d.toNat := ef 0 5 _ rfl
  have e6 : fld wd 13 7 = a.code := ef 2 6 _ rfl
  refine oneWord rfl (by rw [ep]; simp only [packs]; omega) el e0 rfl ?_ fun h => ?_
  · simp [instrWords, e0]
  · simp [decodeRaw, decodeOp26, e0, e1, e2, e3, e4, e5, e6]

theorem launch (d : BitVec 6) (a : BitVec 6) (q : BitVec 6) : Statement (.launch d a q) := by
  obtain ⟨wd, ep, el, ef⟩ := word_of [(6, d.toNat), (6, a.toNat), (6, q.toNat), (4, 0), (4, 0), (6, 35)]
    ⟨d.isLt, a.isLt, q.isLt, by decide, by decide, by decide, trivial⟩ rfl
  have e0 : fld wd 31 26 = 35 := ef 5 5 _ rfl
  have e1 : fld wd 25 22 = 0 := ef 4 3 _ rfl
  have e2 : fld wd 21 18 = 0 := ef 3 3 _ rfl
  have e3 : fld wd 5 0 = d.toNat := ef 0 5 _ rfl
  have e4 : fld wd 11 6 = a.toNat := ef 1 5 _ rfl
  have e5 : fld wd 17 12 = q.toNat := ef 2 5 _ rfl
  refine oneWord rfl (by rw [ep]; simp only [packs]; omega) el e0 rfl ?_ fun h => ?_
  · simp [instrWords, e0]
  · simp [decodeRaw, decodeOp23, e0, e1, e2, e3, e4, e5]

theorem commit : Statement (.commit) := by
  obtain ⟨wd, ep, el, ef⟩ := word_of [(22, 0), (4, 1), (6, 35)]
    ⟨by decide, by decide, by decide, trivial⟩ rfl
  have e0 : fld wd 31 26 = 35 := ef 2 5 _ rfl
  have e1 : fld wd 25 22 = 1 := ef 1 3 _ rfl
  have e2 : fld wd 21 0 = 0 := ef 0 21 _ rfl
  refine oneWord rfl (by rw [ep]; simp only [packs]; omega) el e0 rfl ?_ fun h => ?_
  · simp [instrWords, e0]
  · simp [decodeRaw, decodeOp23, e0, e1, e2]

theorem spgrow (d : BitVec 6) (a : BitVec 6) : Statement (.spgrow d a) := by
  obtain ⟨wd, ep, el, ef⟩ := word_of [(6, d.toNat), (6, a.toNat), (10, 0), (4, 2), (6, 35)]
    ⟨d.isLt, a.isLt, by decide, by decide, by decide, trivial⟩ rfl
  have e0 : fld wd 31 26 = 35 := ef 4 5 _ rfl
  have e1 : fld wd 25 22 = 2 := ef 3 3 _ rfl
  have e2 : fld wd 21 12 = 0 := ef 2 9 _ rfl
  have e3 : fld wd 5 0 = d.toNat := ef 0 5 _ rfl
  have e4 : fld wd 11 6 = a.toNat := ef 1 5 _ rfl
  refine oneWord rfl (by rw [ep]; simp only [packs]; omega) el e0 rfl ?_ fun h => ?_
  · simp [instrWords, e0]
  · simp [decodeRaw, decodeOp23, e0, e1, e2, e3, e4]

theorem lpgrow (d : BitVec 6) (a : BitVec 6) : Statement (.lpgrow d a) := by
  obtain ⟨wd, ep, el, ef⟩ := word_of [(6, d.toNat), (6, a.toNat), (10, 0), (4, 3), (6, 35)]
    ⟨d.isLt, a.isLt, by decide, by decide, by decide, trivial⟩ rfl
  have e0 : fld wd 31 26 = 35 := ef 4 5 _ rfl
  have e1 : fld wd 25 22 = 3 := ef 3 3 _ rfl
  have e2 : fld wd 21 12 = 0 := ef 2 9 _ rfl
  have e3 : fld wd 5 0 = d.toNat := ef 0 5 _ rfl
  have e4 : fld wd 11 6 = a.toNat := ef 1 5 _ rfl
  refine oneWord rfl (by rw [ep]; simp only [packs]; omega) el e0 rfl ?_ fun h => ?_
  · simp [instrWords, e0]
  · simp [decodeRaw, decodeOp23, e0, e1, e2, e3, e4]

theorem qwait (d : BitVec 6) : Statement (.qwait d) := by
  obtain ⟨wd, ep, el, ef⟩ := word_of [(6, d.toNat), (16, 0), (4, 4), (6, 35)]
    ⟨d.isLt, by decide, by decide, by decide, trivial⟩ rfl
  have e0 : fld wd 31 26 = 35 := ef 3 5 _ rfl
  have e1 : fld wd 25 22 = 4 := ef 2 3 _ rfl
  have e2 : fld wd 21 6 = 0 := ef 1 15 _ rfl
  have e3 : fld wd 5 0 = d.toNat := ef 0 5 _ rfl
  refine oneWord rfl (by rw [ep]; simp only [packs]; omega) el e0 rfl ?_ fun h => ?_
  · simp [instrWords, e0]
  · simp [decodeRaw, decodeOp23, e0, e1, e2, e3]

theorem allow (a : BitVec 6) : Statement (.allow a) := by
  obtain ⟨wd, ep, el, ef⟩ := word_of [(6, 0), (6, a.toNat), (10, 0), (4, 5), (6, 35)]
    ⟨by decide, a.isLt, by decide, by decide, by decide, trivial⟩ rfl
  have e0 : fld wd 31 26 = 35 := ef 4 5 _ rfl
  have e1 : fld wd 25 22 = 5 := ef 3 3 _ rfl
  have e2 : fld wd 5 0 = 0 := ef 0 5 _ rfl
  have e3 : fld wd 21 12 = 0 := ef 2 9 _ rfl
  have e4 : fld wd 11 6 = a.toNat := ef 1 5 _ rfl
  refine oneWord rfl (by rw [ep]; simp only [packs]; omega) el e0 rfl ?_ fun h => ?_
  · simp [instrWords, e0]
  · simp [decodeRaw, decodeOp23, e0, e1, e2, e3, e4]

theorem tret : Statement (.tret) := by
  obtain ⟨wd, ep, el, ef⟩ := word_of [(22, 0), (4, 0), (6, 36)]
    ⟨by decide, by decide, by decide, trivial⟩ rfl
  have e0 : fld wd 31 26 = 36 := ef 2 5 _ rfl
  have e1 : fld wd 25 22 = 0 := ef 1 3 _ rfl
  have e2 : fld wd 21 0 = 0 := ef 0 21 _ rfl
  refine oneWord rfl (by rw [ep]; simp only [packs]; omega) el e0 rfl ?_ fun h => ?_
  · simp [instrWords, e0]
  · simp [decodeRaw, decodeOp24, e0, e1, e2]

theorem pcsrr (d : BitVec 6) (a : BitVec 6) : Statement (.pcsrr d a) := by
  obtain ⟨wd, ep, el, ef⟩ := word_of [(6, d.toNat), (6, a.toNat), (10, 0), (4, 1), (6, 36)]
    ⟨d.isLt, a.isLt, by decide, by decide, by decide, trivial⟩ rfl
  have e0 : fld wd 31 26 = 36 := ef 4 5 _ rfl
  have e1 : fld wd 25 22 = 1 := ef 3 3 _ rfl
  have e2 : fld wd 21 12 = 0 := ef 2 9 _ rfl
  have e3 : fld wd 5 0 = d.toNat := ef 0 5 _ rfl
  have e4 : fld wd 11 6 = a.toNat := ef 1 5 _ rfl
  refine oneWord rfl (by rw [ep]; simp only [packs]; omega) el e0 rfl ?_ fun h => ?_
  · simp [instrWords, e0]
  · simp [decodeRaw, decodeOp24, e0, e1, e2, e3, e4]

theorem pcsrw (a : BitVec 6) (b : BitVec 6) : Statement (.pcsrw a b) := by
  obtain ⟨wd, ep, el, ef⟩ := word_of [(6, 0), (6, a.toNat), (6, b.toNat), (4, 0), (4, 2), (6, 36)]
    ⟨by decide, a.isLt, b.isLt, by decide, by decide, by decide, trivial⟩ rfl
  have e0 : fld wd 31 26 = 36 := ef 5 5 _ rfl
  have e1 : fld wd 25 22 = 2 := ef 4 3 _ rfl
  have e2 : fld wd 5 0 = 0 := ef 0 5 _ rfl
  have e3 : fld wd 21 18 = 0 := ef 3 3 _ rfl
  have e4 : fld wd 11 6 = a.toNat := ef 1 5 _ rfl
  have e5 : fld wd 17 12 = b.toNat := ef 2 5 _ rfl
  refine oneWord rfl (by rw [ep]; simp only [packs]; omega) el e0 rfl ?_ fun h => ?_
  · simp [instrWords, e0]
  · simp [decodeRaw, decodeOp24, e0, e1, e2, e3, e4, e5]

theorem tinv (a : BitVec 6) (b : BitVec 6) : Statement (.tinv a b) := by
  obtain ⟨wd, ep, el, ef⟩ := word_of [(6, 0), (6, a.toNat), (6, b.toNat), (4, 0), (4, 3), (6, 36)]
    ⟨by decide, a.isLt, b.isLt, by decide, by decide, by decide, trivial⟩ rfl
  have e0 : fld wd 31 26 = 36 := ef 5 5 _ rfl
  have e1 : fld wd 25 22 = 3 := ef 4 3 _ rfl
  have e2 : fld wd 5 0 = 0 := ef 0 5 _ rfl
  have e3 : fld wd 21 18 = 0 := ef 3 3 _ rfl
  have e4 : fld wd 11 6 = a.toNat := ef 1 5 _ rfl
  have e5 : fld wd 17 12 = b.toNat := ef 2 5 _ rfl
  refine oneWord rfl (by rw [ep]; simp only [packs]; omega) el e0 rfl ?_ fun h => ?_
  · simp [instrWords, e0]
  · simp [decodeRaw, decodeOp24, e0, e1, e2, e3, e4, e5]

theorem rqrel (a : BitVec 6) (b : BitVec 6) : Statement (.rqrel a b) := by
  obtain ⟨wd, ep, el, ef⟩ := word_of [(6, 0), (6, a.toNat), (6, b.toNat), (4, 0), (4, 4), (6, 36)]
    ⟨by decide, a.isLt, b.isLt, by decide, by decide, by decide, trivial⟩ rfl
  have e0 : fld wd 31 26 = 36 := ef 5 5 _ rfl
  have e1 : fld wd 25 22 = 4 := ef 4 3 _ rfl
  have e2 : fld wd 5 0 = 0 := ef 0 5 _ rfl
  have e3 : fld wd 21 18 = 0 := ef 3 3 _ rfl
  have e4 : fld wd 11 6 = a.toNat := ef 1 5 _ rfl
  have e5 : fld wd 17 12 = b.toNat := ef 2 5 _ rfl
  refine oneWord rfl (by rw [ep]; simp only [packs]; omega) el e0 rfl ?_ fun h => ?_
  · simp [instrWords, e0]
  · simp [decodeRaw, decodeOp24, e0, e1, e2, e3, e4, e5]

theorem hlt (d : BitVec 6) : Statement (.hlt d) := by
  obtain ⟨wd, ep, el, ef⟩ := word_of [(6, d.toNat), (16, 0), (4, 5), (6, 36)]
    ⟨d.isLt, by decide, by decide, by decide, trivial⟩ rfl
  have e0 : fld wd 31 26 = 36 := ef 3 5 _ rfl
  have e1 : fld wd 25 22 = 5 := ef 2 3 _ rfl
  have e2 : fld wd 21 6 = 0 := ef 1 15 _ rfl
  have e3 : fld wd 5 0 = d.toNat := ef 0 5 _ rfl
  refine oneWord rfl (by rw [ep]; simp only [packs]; omega) el e0 rfl ?_ fun h => ?_
  · simp [instrWords, e0]
  · simp [decodeRaw, decodeOp24, e0, e1, e2, e3]

theorem brk (i : BitVec 16) : Statement (.brk i) := by
  obtain ⟨wd, ep, el, ef⟩ := word_of [(16, i.toNat), (6, 0), (4, 0), (6, 37)]
    ⟨i.isLt, by decide, by decide, by decide, trivial⟩ rfl
  have e0 : fld wd 31 26 = 37 := ef 3 5 _ rfl
  have e1 : fld wd 25 22 = 0 := ef 2 3 _ rfl
  have e2 : fld wd 21 16 = 0 := ef 1 5 _ rfl
  have e3 : fld wd 15 0 = i.toNat := ef 0 15 _ rfl
  refine oneWord rfl (by rw [ep]; simp only [packs]; omega) el e0 rfl ?_ fun h => ?_
  · simp [instrWords, e0]
  · simp [decodeRaw, decodeOp25, e0, e1, e2, e3]

theorem tmark (i : BitVec 16) : Statement (.tmark i) := by
  obtain ⟨wd, ep, el, ef⟩ := word_of [(16, i.toNat), (6, 0), (4, 1), (6, 37)]
    ⟨i.isLt, by decide, by decide, by decide, trivial⟩ rfl
  have e0 : fld wd 31 26 = 37 := ef 3 5 _ rfl
  have e1 : fld wd 25 22 = 1 := ef 2 3 _ rfl
  have e2 : fld wd 21 16 = 0 := ef 1 5 _ rfl
  have e3 : fld wd 15 0 = i.toNat := ef 0 15 _ rfl
  refine oneWord rfl (by rw [ep]; simp only [packs]; omega) el e0 rfl ?_ fun h => ?_
  · simp [instrWords, e0]
  · simp [decodeRaw, decodeOp25, e0, e1, e2, e3]

theorem clauseIssue (e : Nat) : Statement (.clauseIssue e) := fun _ h => nomatch h

theorem issueWaitLimit (e : Nat) : Statement (.issueWaitLimit e) := fun _ h => nomatch h

theorem ydl (e : Nat) : Statement (.ydl e) := fun _ h => nomatch h

theorem deferralSwitch (e : Nat) : Statement (.deferralSwitch e) := fun _ h => nomatch h

theorem loadComplete (op : Nat) : Statement (.loadComplete op) := fun _ h => nomatch h

theorem storeComplete (op : Nat) : Statement (.storeComplete op) := fun _ h => nomatch h

theorem atomicPerform (op : Nat) : Statement (.atomicPerform op) := fun _ h => nomatch h

theorem replayStallResume (e : Nat) : Statement (.replayStallResume e) := fun _ h => nomatch h

theorem parkedAccessReplay (r : Nat) : Statement (.parkedAccessReplay r) := fun _ h => nomatch h

theorem heldSliceIssue (e : Nat) : Statement (.heldSliceIssue e) := fun _ h => nomatch h

theorem copyComplete (c : Nat) : Statement (.copyComplete c) := fun _ h => nomatch h

theorem copyFailure (c : Nat) (i : Nat) : Statement (.copyFailure c i) := fun _ h => nomatch h

theorem credComplete (g : Nat) : Statement (.credComplete g) := fun _ h => nomatch h

theorem engineDeferredAccept (e : Nat) : Statement (.engineDeferredAccept e) := fun _ h => nomatch h

theorem arbiterGrant (g : Nat) (p : Nat) : Statement (.arbiterGrant g p) := fun _ h => nomatch h

theorem arbiterAgeLimit (g : Nat) (k : Nat) : Statement (.arbiterAgeLimit g k) := fun _ h => nomatch h

theorem mswapBandSwap (g : Nat) (k : Nat) (b : Nat) : Statement (.mswapBandSwap g k b) := fun _ h => nomatch h

theorem engineOpComplete (g : Nat) (k : Nat) : Statement (.engineOpComplete g k) := fun _ h => nomatch h

theorem mldFailure (g : Nat) (k : Nat) : Statement (.mldFailure g k) := fun _ h => nomatch h

theorem mldStrictFmtf (g : Nat) (k : Nat) : Statement (.mldStrictFmtf g k) := fun _ h => nomatch h

theorem bandRailWake (g : Nat) (b : Nat) : Statement (.bandRailWake g b) := fun _ h => nomatch h

theorem bandRailGate (g : Nat) (b : Nat) : Statement (.bandRailGate g b) := fun _ h => nomatch h

theorem queueRecordConsume (c : Nat) (q : Nat) : Statement (.queueRecordConsume c q) := fun _ h => nomatch h

theorem contextChoice (st : Nat) : Statement (.contextChoice st) := fun _ h => nomatch h

theorem placement (c : Nat) (k : Nat) : Statement (.placement c k) := fun _ h => nomatch h

theorem teamSwapOut (t : Nat) : Statement (.teamSwapOut t) := fun _ h => nomatch h

theorem workgroupRetire (w : Nat) : Statement (.workgroupRetire w) := fun _ h => nomatch h

theorem hang (t : Nat) : Statement (.hang t) := fun _ h => nomatch h

theorem sampleTick (x : Sample) : Statement (.sampleTick x) := fun _ h => nomatch h

theorem emergencyRelease : Statement (.emergencyRelease) := fun _ h => nomatch h

theorem noticeReceive (l : Nat) (n : Notice) : Statement (.noticeReceive l n) := fun _ h => nomatch h

theorem migrationStart (w : Nat) (y : Nat) : Statement (.migrationStart w y) := fun _ h => nomatch h

theorem migrationArrival (w : Nat) : Statement (.migrationArrival w) := fun _ h => nomatch h

theorem smLoopPass (ts : List IslandTarget) (gs : List BandPermission) : Statement (.smLoopPass ts gs) := fun _ h => nomatch h

theorem smhbTimeout : Statement (.smhbTimeout) := fun _ h => nomatch h

theorem islandTarget (x : IslandTarget) : Statement (.islandTarget x) := fun _ h => nomatch h

theorem voltageRampDone (i : Nat) : Statement (.voltageRampDone i) := fun _ h => nomatch h

theorem settleDone (i : Nat) : Statement (.settleDone i) := fun _ h => nomatch h

theorem frequencySwitch (i : Nat) : Statement (.frequencySwitch i) := fun _ h => nomatch h

theorem acq (p : Nat) : Statement (.acq p) := fun _ h => nomatch h

theorem rel (p : Nat) : Statement (.rel p) := fun _ h => nomatch h

theorem dzHb (p : Nat) : Statement (.dzHb p) := fun _ h => nomatch h

theorem leaseLapse : Statement (.leaseLapse) := fun _ h => nomatch h

theorem privRegisterWrite (p : Nat) (a : Nat) (v : BitVec 32) : Statement (.privRegisterWrite p a v) := fun _ h => nomatch h

theorem create (p : Nat) (c : Nat) : Statement (.create p c) := fun _ h => nomatch h

theorem suspend (p : Nat) (c : Nat) : Statement (.suspend p c) := fun _ h => nomatch h

theorem resume (p : Nat) (c : Nat) : Statement (.resume p c) := fun _ h => nomatch h

theorem tear (p : Nat) (c : Nat) : Statement (.tear p c) := fun _ h => nomatch h

theorem preemptionTimeout (c : Nat) : Statement (.preemptionTimeout c) := fun _ h => nomatch h

theorem workgroupSave (w : Nat) : Statement (.workgroupSave w) := fun _ h => nomatch h

theorem contextSaveComplete (c : Nat) : Statement (.contextSaveComplete c) := fun _ h => nomatch h

theorem tearComplete (c : Nat) : Statement (.tearComplete c) := fun _ h => nomatch h

theorem hostRqrel (p : Nat) (c : Nat) (v : BitVec 32) : Statement (.hostRqrel p c v) := fun _ h => nomatch h

theorem tagCountWrite (p : Nat) (c : Nat) (v : BitVec 32) : Statement (.tagCountWrite p c v) := fun _ h => nomatch h

theorem granuleTag (c : Nat) : Statement (.granuleTag c) := fun _ h => nomatch h

theorem attestationRequest (p : Nat) (v : BitVec 32) : Statement (.attestationRequest p v) := fun _ h => nomatch h

theorem attestationComplete : Statement (.attestationComplete) := fun _ h => nomatch h

theorem stop (p : Nat) (q : Nat) (v : BitVec 32) : Statement (.stop p q v) := fun _ h => nomatch h

theorem stopSettled (q : Nat) : Statement (.stopSettled q) := fun _ h => nomatch h

theorem debugResume (p : Nat) (q : Nat) : Statement (.debugResume p q) := fun _ h => nomatch h

theorem step (p : Nat) (q : Nat) : Statement (.step p q) := fun _ h => nomatch h

theorem stepall (p : Nat) (q : Nat) : Statement (.stepall p q) := fun _ h => nomatch h

theorem debugEdit (p : Nat) (q : Nat) (v : BitVec 32) : Statement (.debugEdit p q v) := fun _ h => nomatch h

theorem debugRevoke (p : Nat) (c : Nat) (v : BitVec 32) : Statement (.debugRevoke p c v) := fun _ h => nomatch h

theorem traceFrame : Statement (.traceFrame) := fun _ h => nomatch h

theorem histogramRequest (h : Nat) (n : Nat) : Statement (.histogramRequest h n) := fun _ h => nomatch h

theorem clr (p : Nat) (h : Nat) : Statement (.clr p h) := fun _ h => nomatch h

theorem hostAccess (x : HostAccess) : Statement (.hostAccess x) := fun _ h => nomatch h

theorem credBlock (x : CredBlock) : Statement (.credBlock x) := fun _ h => nomatch h

theorem linkKeying (l : Nat) : Statement (.linkKeying l) := fun _ h => nomatch h

theorem flitAuthFailure (l : Nat) : Statement (.flitAuthFailure l) := fun _ h => nomatch h

theorem patrolScrub (x : ScrubResult) : Statement (.patrolScrub x) := fun _ h => nomatch h

theorem reset (x : BootInput) : Statement (.reset x) := fun _ h => nomatch h

theorem descriptorPublish (x : Descriptor) : Statement (.descriptorPublish x) := fun _ h => nomatch h

theorem destinationWrite (x : WriteSite) : Statement (.destinationWrite x) := fun _ h => nomatch h

theorem saveBlockTransfer (w : Nat) : Statement (.saveBlockTransfer w) := fun _ h => nomatch h

theorem linkLevelRetry (l : Nat) : Statement (.linkLevelRetry l) := fun _ h => nomatch h

end Sys2Proof.Laws.Encoding
end

