-- ==== Sys2Proof/Safety.lean ====
section
/-! DEFINITION. The words in which claims are made: a run that goes on, an entity that stands at a word of its clause, a word that is
done, and what a step leaves alone. -/

namespace Sys2Proof.Machine

/-- The machine goes on: its next step gives a state. -/
def State.goesOn (s : State) : Prop := ∃ t, step s = .next t

/-- A property that every step keeps. -/
def KeptByStep (inv : State → Prop) : Prop := ∀ s t, inv s → step s = .next t → inv t

/-- The current entity of a state stands at a word of the clause it has in issue: `c` is that entity, its team and that clause. -/
structure Standing (s : State) (c : Cur) : Prop where
  cur : s.cur = c.eid
  ent : tabGet s.ents c.eid = some c.e
  issue : c.e.issue = some c.i
  team : tabGet s.teams c.e.team = some c.t

/-- The current word, of `n` words, is not the last of its clause. -/
def Cur.inside (c : Cur) (n : Nat) : Prop := c.i.next + n < c.i.words.length

/-- The state in which the current word, of `n` words, is done, its team being `t` and its clause `i` after it.  Inside its clause the
entity stands `n` words on and waits for nothing, and everything else is as it was; the last word also ends the clause. -/
def Cur.done (c : Cur) (s : State) (n : Nat) (t : Team) (i : Issue) : State :=
  if c.i.next + n < c.i.words.length then
    { s with teams := tabPut s.teams c.e.team t
             ents := tabPut s.ents c.eid { c.e with hold := none, issue := some { i with next := c.i.next + n } } }
  else
    c.finish { s with teams := tabPut s.teams c.e.team t, ents := tabPut s.ents c.eid { c.e with issue := some i } }

/-- The current word stays to be executed: the entity waits at it, and its team is not about to be ended or aborted. -/
def Cur.waiting (c : Cur) (s : State) (h : Hold) : State := { s with ents := tabPut s.ents c.eid { c.e with hold := some h } }

/-- Nothing is about to happen to a team at its next boundary: no deferred fault ends it and no exhaustion aborts its workgroup. -/
def State.calm (s : State) (tid : Nat) : Prop :=
  ∀ t, tabGet s.teams tid = some t → t.dying = false ∧ ∀ w, tabGet s.wgs t.wg = some w → w.aborting = false

/-- A byte of physical memory. -/
def State.byteAt (s : State) (a : Nat) : Byte := Memory.read s.mem a

/-- Two states agree in everything but teams and entities, and in every team and entity but one. -/
structure OnlyOne (s t : State) (tid eid : Nat) : Prop where
  rest : t = { s with teams := t.teams, ents := t.ents }
  teams : ∀ k, k ≠ tid → tabGet t.teams k = tabGet s.teams k
  ents : ∀ k, k ≠ eid → tabGet t.ents k = tabGet s.ents k

end Sys2Proof.Machine

namespace Sys2Proof.Claims

open Sys2Proof.Machine

/-- The state in which the current word has written one scalar, and one pair. -/
def scalarDone (c : Cur) (s : State) (n : Nat) (d : BitVec 6) (w : Word) : State := c.done s n (c.t.setS d.toNat w) c.i
def pairDone (c : Cur) (s : State) (d : BitVec 6) (w : Word64) : State := c.done s 1 (c.t.setX (d.toNat / 2) w) c.i

/-- Lane `l`'s word of an operand, as an instruction of a type reads it. -/
def lane (c : Cur) (ty : ConstTy) (x : VOp) (l : Nat) : Word := (c.words ty x).getD l 0

/-- The words of a result: an active lane's is `f`, every other keeps its old word (R155). -/
def perLane (c : Cur) (old : List Word) (f : Nat → Word) : List Word :=
  (List.range c.t.lanes).map fun l => if c.e.mask.getLsbD l then f l else old.getD l 0
def perLane64 (c : Cur) (old : List Word64) (f : Nat → Word64) : List Word64 :=
  (List.range c.t.lanes).map fun l => if c.e.mask.getLsbD l then f l else old.getD l 0

/-- The flags of every active lane, together (R79). -/
def flagsOf (c : Cur) (f : Nat → Word) : Word := (lanesOf c.e.mask c.t.lanes).foldl (fun fl l => fl ||| f l) 0

/-- A team with one destination of a vector result written, and a clause with the result's latch (R135). -/
def stored (t : Team) (tag : Tag) (d : VOp) (ws : List Word) : Team :=
  match d with
  | .v n => t.setV n.toNat (tagged tag ws)
  | .o n => t.setO n.toNat ws
  | _ => t
def latched (i : Issue) (l : Option Latch) (ws : List Word) : Issue :=
  match l with
  | some k => if i.cls = .vx then { i with latches := tabPut i.latches (latchNum k) ws } else i
  | none => i

/-- The result tag of an instruction from its rule and its operands (R42). -/
def tagOf (c : Cur) (rule : TagRule) (srcs : List VOp) : Tag :=
  resultTag (c.e.maskFull c.t.lanes) rule (srcs.map fun x => (readOp c.t c.i .raw x).tag)

/-- A team and a clause after the flags of a vector word: raised at once, or with the last of the clause's passes (R18, R54). -/
def raised (c : Cur) (t : Team) (fl : Word) : Team := if c.flagsWait then t else t.raiseFlags fl
def flagged (c : Cur) (i : Issue) (fl : Word) : Issue := if c.flagsWait then { i with flagsLate := i.flagsLate ||| fl } else i

/-- A vector word may write its destinations: some lane is active, and the checks at its clause's issue found the grant not passed at
it (R44). -/
def Room (c : Cur) : Prop := c.e.mask ≠ 0 ∧ c.pastGrant = false

/-- What a vector instruction of one destination does in every case: it writes its result; without an active lane it does nothing
(R19); and without room it is exhaustion of the grant (R44). -/
def VecResult (i : Instr) (d : VOp) (latch : Latch) (rule : TagRule) (srcs : List VOp) (ty : ConstTy)
    (f : Cur → Nat → Word × Word) : Prop :=
  ∀ s c, Standing s c →
    (Room c →
      exec i s = .next (c.done s 1
        (raised c (stored c.t (tagOf c rule srcs) d (perLane c (c.words ty d) fun l => (f c l).1)) (flagsOf c fun l => (f c l).2))
        (flagged c (latched c.i latch (perLane c (c.words ty d) fun l => (f c l).1)) (flagsOf c fun l => (f c l).2)))) ∧
    (c.e.mask = 0 → exec i s = .next (c.done s 1 c.t c.i)) ∧
    (c.e.mask ≠ 0 → ¬ Room c → exec i s = .next (c.exhaust s cXREG))

/-- The same for a 64-bit result in a pair of registers (R139). -/
def VecResult64 (i : Instr) (d : VOp) (srcs : List VOp) (f : Cur → Nat → Word64 × Word) : Prop :=
  ∀ s c, Standing s c →
    (Room c →
      exec i s = .next (c.done s 1
        (raised c
          (stored (stored c.t (tagOf c .plain srcs) d ((perLane64 c (c.pairs d) fun l => (f c l).1).map fun w => w.setWidth 32))
            (tagOf c .plain srcs) (vopNext d) ((perLane64 c (c.pairs d) fun l => (f c l).1).map fun (w : Word64) => (w >>> 32).setWidth 32))
          (flagsOf c fun l => (f c l).2))
        (flagged c c.i (flagsOf c fun l => (f c l).2)))) ∧
    (c.e.mask = 0 → exec i s = .next (c.done s 1 c.t c.i)) ∧
    (c.e.mask ≠ 0 → ¬ Room c → exec i s = .next (c.exhaust s cXREG))

end Sys2Proof.Claims
end

