-- ==== Sys2Proof/Certificates/Slice0/Obligations.lean ====
section
/-! DEFINITION. The statements for the provers, and before each group the tables of instructions and rules that it speaks of. -/

namespace Sys2Proof.Claims

open Sys2Proof.Machine

/-! ### Words given bit by bit -/

/-- The word whose bit `i` is `f i`. -/
def bits (f : Nat → Bool) : Word := (List.range 32).foldl (fun x i => if f i then x ||| (1#32 <<< i) else x) 0

/-- 1 where a condition holds, else 0. -/
def flag (b : Bool) : Word := if b then 1 else 0

/-- Bits [63:32] of the 64-bit product of two words, read as signed and as unsigned integers. -/
def highSigned (a b : Word) : Word := (a.signExtend 64 * b.signExtend 64).extractLsb' 32 32
def highUnsigned (a b : Word) : Word := (a.setWidth 64 * b.setWidth 64).extractLsb' 32 32

/-- The offset b[4:0] of a bit field, and its width b[13:8] cut at bit 31 (R167). -/
def fieldOff (b : Word) : Nat := b.toNat % 32
def fieldLen (b : Word) : Nat := min (b.toNat / 256 % 64) (32 - b.toNat % 32)

/-- R167 bit by bit: the field moved down, the rest zero or the field's top bit; and the field replaced by low bits of `a`. -/
def fieldZero (a b : Word) : Word := bits fun i => decide (i < fieldLen b) && a.getLsbD (fieldOff b + i)
def fieldSign (a b : Word) : Word :=
  bits fun i => decide (0 < fieldLen b) && a.getLsbD (fieldOff b + min i (fieldLen b - 1))
def fieldPut (a b d : Word) : Word :=
  bits fun i => if fieldOff b ≤ i ∧ i < fieldOff b + fieldLen b then a.getLsbD (i - fieldOff b) else d.getLsbD i

/-- The number of 1 bits, of leading 0 bits, and the bits in reverse (R166). -/
def onesOf (a : Word) : Word := BitVec.ofNat 32 ((List.range 32).countP fun i => a.getLsbD i)
def leadingZeros (a : Word) : Word := BitVec.ofNat 32 ((List.range 32).takeWhile fun i => !a.getLsbD (31 - i)).length
def reversed (a : Word) : Word := bits fun i => a.getLsbD (31 - i)

/-- R168 bit by bit: byte `i` of the result is a byte of `a`, eight copies of a byte's top bit, or zero. -/
def bytesPicked (a b : Word) : Word := bits fun n =>
  let sel := b.toNat / 2 ^ (8 * (n / 8)) % 16
  if sel < 4 then a.getLsbD (8 * sel + n % 8) else if sel < 8 then a.getLsbD (8 * (sel - 4) + 7) else false

/-- The shifts of R166, whose count is b[5:0]. -/
def shiftLeft (a b : Word) : Word := a <<< (b.toNat % 64)
def shiftRight (a b : Word) : Word := a >>> (b.toNat % 64)
def shiftArith (a b : Word) : Word := a.sshiftRight (b.toNat % 64)

/-- The smaller and the larger of two words, signed and unsigned. -/
def lessSigned (a b : Word) : Word := if a.slt b then a else b
def moreSigned (a b : Word) : Word := if a.slt b then b else a
def lessUnsigned (a b : Word) : Word := if a.ult b then a else b
def moreUnsigned (a b : Word) : Word := if a.ult b then b else a

/-- What an instruction that writes a predicate does: each active lane's bit is `f`, every other bit stays, and the flags of the
active lanes are raised, at once or with the last pass (R18, R48, R169).  A write of `p0` is discarded. -/
def PredResult (i : Instr) (p : BitVec 3) (f : Cur → Nat → Bool × Word) : Prop :=
  ∀ s c, Standing s c → ∃ m : BitVec 1024,
    exec i s = .next (c.done s 1 (raised c (c.t.setP p.toNat m) (flagsOf c fun l => (f c l).2))
      (flagged c c.i (flagsOf c fun l => (f c l).2))) ∧
    ∀ l, l < c.t.lanes → m.getLsbD l = if c.e.mask.getLsbD l then (f c l).1 else (c.t.preg p.toNat).getLsbD l

/-! ### Scalar instructions -/

/-- The scalar instructions of two sources and what each writes of them and of its destination's old word (R187). -/
def scalarOps : List ((BitVec 6 → BitVec 6 → BitVec 6 → Instr) × (Word → Word → Word → Word)) :=
  [ (.sadd, fun a b _ => a + b), (.ssub, fun a b _ => a - b), (.smul, fun a b _ => a * b),
    (.smulhI, fun a b _ => highSigned a b), (.smulhN, fun a b _ => highUnsigned a b),
    (.sminI, fun a b _ => lessSigned a b), (.smaxI, fun a b _ => moreSigned a b),
    (.sminN, fun a b _ => lessUnsigned a b), (.smaxN, fun a b _ => moreUnsigned a b),
    (.sand, fun a b _ => a &&& b), (.sor, fun a b _ => a ||| b), (.sxor, fun a b _ => a ^^^ b),
    (.sshl, fun a b _ => shiftLeft a b), (.sshr, fun a b _ => shiftRight a b), (.ssar, fun a b _ => shiftArith a b),
    (.sbfeI, fun a b _ => fieldSign a b), (.sbfeN, fun a b _ => fieldZero a b), (.sbfi, fun a b d => fieldPut a b d),
    (.scmpEq, fun a b _ => flag (a == b)), (.scmpLtI, fun a b _ => flag (a.slt b)), (.scmpLtN, fun a b _ => flag (a.ult b)) ]

/-- The scalar instructions of one source, and those with an immediate (R187, R188). -/
def scalarUnary : List ((BitVec 6 → BitVec 6 → Instr) × (Word → Word)) := [(.spopc, onesOf), (.sclz, leadingZeros)]
def scalarImm : List ((BitVec 6 → BitVec 6 → BitVec 10 → Instr) × (Word → Word → Word)) :=
  [ (.saddi, fun a i => a + i), (.sandi, fun a i => a &&& i), (.sori, fun a i => a ||| i), (.sxori, fun a i => a ^^^ i),
    (.scmpiLt, fun a i => flag (a.slt i)) ]
def scalarShiftImm : List ((BitVec 6 → BitVec 6 → BitVec 5 → Instr) × (Word → Nat → Word)) :=
  [(.sshli, fun a n => a <<< n), (.sshri, fun a n => a >>> n), (.ssari, fun a n => a.sshiftRight n)]

/-! ### Vector instructions -/

/-- The raw instructions of two sources: the rule of their tag, whether they read their destination, and the result (R164, R166 to
R168). -/
def rawOps : List ((VOp → VOp → VOp → Instr) × TagRule × Bool × (Word → Word → Word → Word)) :=
  [ (.iadd, .sum, false, fun a b _ => a + b), (.isub, .sum, false, fun a b _ => a - b), (.imul, .product, false, fun a b _ => a * b),
    (.imulhI32, .plain, false, fun a b _ => highSigned a b), (.imulhN32, .plain, false, fun a b _ => highUnsigned a b),
    (.imad, .plain, true, fun a b d => a * b + d),
    (.iminI32, .plain, false, fun a b _ => lessSigned a b), (.imaxI32, .plain, false, fun a b _ => moreSigned a b),
    (.iminN32, .plain, false, fun a b _ => lessUnsigned a b), (.imaxN32, .plain, false, fun a b _ => moreUnsigned a b),
    (.and, .plain, false, fun a b _ => a &&& b), (.or, .plain, false, fun a b _ => a ||| b), (.xor, .plain, false, fun a b _ => a ^^^ b),
    (.andn, .plain, false, fun a b _ => a &&& ~~~b), (.shl, .plain, false, fun a b _ => shiftLeft a b),
    (.shr, .plain, false, fun a b _ => shiftRight a b), (.sar, .plain, false, fun a b _ => shiftArith a b),
    (.bfeI, .plain, false, fun a b _ => fieldSign a b), (.bfeN, .plain, false, fun a b _ => fieldZero a b),
    (.bfi, .plain, true, fun a b d => fieldPut a b d), (.bperm, .plain, false, fun a b _ => bytesPicked a b) ]

/-- The raw instructions of one source, and those with an immediate (R164, R166, R185). -/
def rawUnary : List ((VOp → VOp → Instr) × TagRule × (Word → Word)) :=
  [ (.iabs, .plain, fun a => if a.slt 0 then -a else a), (.ineg, .affine, fun a => -a), (.not, .plain, fun a => ~~~a),
    (.popc, .plain, onesOf), (.clz, .plain, leadingZeros), (.brev, .plain, reversed) ]
def rawImm : List ((VOp → VOp → BitVec 9 → Instr) × TagRule × (Word → Word → Word)) :=
  [ (.iaddi, .affine, fun a i => a + i), (.andi, .plain, fun a i => a &&& i), (.ori, .plain, fun a i => a ||| i),
    (.xori, .plain, fun a i => a ^^^ i) ]
def rawShiftImm : List ((VOp → VOp → BitVec 5 → Instr) × TagRule × (Word → Nat → Word)) :=
  [ (.shli, .affine, fun a n => a <<< n), (.shri, .plain, fun a n => a >>> n), (.sari, .plain, fun a n => a.sshiftRight n) ]

/-- An integer type of values: its element width, its range, and its absent code (R165). -/
def valWidth : ValT → Nat
  | .i32 => 32
  | .i16 => 16
  | .i8 | .n8 => 8
def valLow : ValT → Int
  | .i32 => -2147483647
  | .i16 => -32767
  | .i8 => -127
  | .n8 => 0
def valHigh : ValT → Int
  | .i32 => 2147483647
  | .i16 => 32767
  | .i8 => 127
  | .n8 => 254
def valAbsent : ValT → Nat
  | .i32 => 0x80000000
  | .i16 => 0x8000
  | .i8 => 0x80
  | .n8 => 0xFF

/-- The value of a code, none where it is absent; and a value's code after saturation, with FLAGS.SAT where it was clamped (R9). -/
def valOf (t : ValT) (c : Nat) : Option Int :=
  if c = valAbsent t then none
  else some (if t = .n8 ∨ c < 2 ^ (valWidth t - 1) then (c : Int) else (c : Int) - (2 : Int) ^ valWidth t)
def codeOf (t : ValT) : Option Int → Nat × Word
  | none => (valAbsent t, 0)
  | some x =>
    let y := max (valLow t) (min (valHigh t) x)
    ((if y < 0 then y + (2 : Int) ^ valWidth t else y).toNat, if y = x then 0 else 0x20)

/-- The skip class and the propagate class on values that may be absent (R75, R76). -/
def skipped (f : Int → Int → Int) : Option Int → Option Int → Option Int
  | some x, some y => some (f x y)
  | some x, none => some x
  | none, y => y
def valOps : List ((ValT → VOp → VOp → VOp → Instr) × (Option Int → Option Int → Option Int)) :=
  [ (.iaddV, skipped (· + ·)), (.isubV, fun x y => skipped (· + ·) x (y.map (- ·))),
    (.imulV, fun x y => x.bind fun x => y.map (x * ·)), (.iminV, skipped min), (.imaxV, skipped max) ]

/-- A lane word's elements of a width, each through a function, with the flags of all (R79). -/
def byElement (w : Nat) (f : Nat → Nat → Nat × Word) (a b : Word) : Word × Word :=
  let rs := (List.range (32 / w)).map fun i => f (a.toNat / 2 ^ (w * i) % 2 ^ w) (b.toNat / 2 ^ (w * i) % 2 ^ w)
  (BitVec.ofNat 32 ((rs.zipIdx.map fun r => r.1.1 % 2 ^ w * 2 ^ (w * r.2)).sum), rs.foldl (fun fl r => fl ||| r.2) 0)

/-- The float instructions of two sources that all four formats have, and those of one (R159 to R161). -/
def floatBinary : List (FOp2 × (VOp → VOp → VOp → Instr) × (HalfT → VOp → VOp → VOp → Instr) × (VOp → VOp → VOp → Instr) ×
    (Fp8T → VOp → VOp → VOp → Instr)) :=
  [ (.add, .faddF32, .faddF16Bf16, .faddF64, .faddFp8), (.sub, .fsubF32, .fsubF16Bf16, .fsubF64, .fsubFp8),
    (.mul, .fmulF32, .fmulF16Bf16, .fmulF64, .fmulFp8), (.min, .fminF32, .fminF16Bf16, .fminF64, .fminFp8),
    (.max, .fmaxF32, .fmaxF16Bf16, .fmaxF64, .fmaxFp8) ]
def floatUnary : List (FOp1 × (VOp → VOp → Instr) × (HalfT → VOp → VOp → Instr) × (VOp → VOp → Instr) × (Fp8T → VOp → VOp → Instr)) :=
  [ (.abs, .fabsF32, .fabsF16Bf16, .fabsF64, .fabsFp8), (.neg, .fnegF32, .fnegF16Bf16, .fnegF64, .fnegFp8),
    (.sat, .fsatF32, .fsatF16Bf16, .fsatF64, .fsatFp8) ]

/-- A lane word through a float operation on its elements: one of 32 bits, two of 16 or four of 8. -/
def word32 (p : Nat × Word) : Word × Word := (BitVec.ofNat 32 p.1, p.2)
def word64 (p : Nat × Word) : Word64 × Word := (BitVec.ofNat 64 p.1, p.2)
def by2 (w : Nat) (f : Nat → Nat → Nat × Word) (c : Cur) (ty : ConstTy) (a b : VOp) (l : Nat) : Word × Word :=
  byElement w f (lane c ty a l) (lane c ty b l)

/-- The fused f32 forms, and the dot forms with the format of their elements (R163). -/
def fusedOps : List ((VOp → VOp → VOp → Instr) × FmaKind) := [(.ffmaF32, .plus), (.ffmsF32, .minus), (.ffnmaF32, .from)]
def fusedHalf : List ((VOp → VOp → VOp → Instr) × HalfT) := [(.ffmaF16, .f16), (.ffmaBf16, .bf16)]
def dotOps : List ((VOp → VOp → VOp → Instr) × Nat × FFmt × ConstTy) :=
  [ (.fdot2F16, 16, fmtF16, .f16), (.fdot2Bf16, 16, fmtBf16, .bf16), (.fdot4E4m3, 8, fmtE4m3, .e4m3), (.fdot4E5m2, 8, fmtE5m2, .e5m2) ]
def intDotOps : List ((VOp → VOp → VOp → Instr) × ValT × ValT) :=
  [(.idot4Ii, .i8, .i8), (.idot4In, .i8, .n8), (.idot4Ni, .n8, .i8), (.idot4Nn, .n8, .n8)]

/-- An element of a lane word. -/
def elemAt (w i : Nat) (x : Word) : Nat := x.toNat / 2 ^ (w * i) % 2 ^ w

/-- R163 for the integer dot forms: the present products and the present addend, summed exactly and saturated; without a present
product the destination stays as it is. -/
def intDot (ta tb : ValT) (a b d : Word) : Word × Word :=
  let prods := (List.range 4).filterMap fun i => (valOf ta (elemAt 8 i a)).bind fun x => (valOf tb (elemAt 8 i b)).map fun y => x * y
  if prods = [] then (d, 0)
  else word32 (codeOf .i32 (some (prods.sum + (valOf .i32 d.toNat).getD 0)))

end Sys2Proof.Claims

open Sys2Proof Sys2Proof.Machine Sys2Proof.Claims

/-! ## Words and clauses -/

/-- R141, R54, R155: a word inside its clause moves its entity past it and changes nothing but its team and its clause.  This says
what `Cur.done`, in which the statements below give their next states, leaves in every part of the state. -/
def Sys2Proof.Claims.DoneMovesOnlyItsEntity : Prop :=
  ∀ (s : State) (c : Cur) (n : Nat) (t : Team) (i : Issue), Standing s c → c.inside n →
    let u := c.done s n t i
    OnlyOne s u c.e.team c.eid ∧ tabGet u.teams c.e.team = some t ∧
    (∃ e, tabGet u.ents c.eid = some e ∧ e.issue = some { i with next := c.i.next + n } ∧ e.hold = none ∧ e.mask = c.e.mask ∧
      e.loops = c.e.loops ∧ e.slots = c.e.slots ∧ e.handler = c.e.handler) ∧
    ∀ a, u.byteAt a = s.byteAt a

/-- What a word of an instruction leaves alone inside its clause, where `p` holds: every byte of memory, every other team and entity, every
part of the state beside, and of its own team what `keeps` says of the team before and after. -/
def Sys2Proof.Claims.LeavesAloneWhen (p : Cur → Prop) (i : Instr) (n : Nat) (keeps : Cur → Team → Prop) : Prop :=
  ∀ (s t : State) (c : Cur), Standing s c → c.inside n → p c → exec i s = .next t →
    (∀ x, t.byteAt x = s.byteAt x) ∧ OnlyOne s t c.e.team c.eid ∧ ∃ u, tabGet t.teams c.e.team = some u ∧ keeps c u
def Sys2Proof.Claims.LeavesAlone (i : Instr) (n : Nat) (keeps : Cur → Team → Prop) : Prop := LeavesAloneWhen (fun _ => True) i n keeps

/-- A team has changed in no more than some vector and operand registers and in flags that have risen. -/
def Sys2Proof.Claims.onlyVectors (ds : List VOp) (c : Cur) (u : Team) : Prop :=
  u = { c.t with v := u.v, o := u.o, flags := u.flags } ∧ (∀ n : BitVec 6, VOp.v n ∉ ds → u.vreg n.toNat = c.t.vreg n.toNat) ∧
  (∀ n, VOp.o n ∉ ds → u.oreg n.toNat = c.t.oreg n.toNat) ∧ ∀ b, c.t.flags.getLsbD b = true → u.flags.getLsbD b = true

/-- A team has changed in no more than one predicate, which is not `p0`, and in flags that have risen. -/
def Sys2Proof.Claims.onlyPredicate (p : BitVec 3) (c : Cur) (u : Team) : Prop :=
  u = { c.t with p := u.p, flags := u.flags } ∧ (∀ n : BitVec 3, n ≠ p ∨ n = 0 → u.preg n.toNat = c.t.preg n.toNat) ∧
  ∀ b, c.t.flags.getLsbD b = true → u.flags.getLsbD b = true

/-- The frame of the vector instructions: whatever one of them does in its lanes (the results stated below say what each does), where the
grant was not passed it changes no more of its team than its destination, or its destination pair, and flags; one that writes a predicate
changes that predicate and flags alone; and a `tunpk` without the fault of R176 is one of them. -/
def Sys2Proof.Claims.VectorFrame : Prop :=
  (∀ (i : Instr) (d : VOp) (latch : Latch) (rule : TagRule) (srcs : List VOp) (ty : ConstTy) (f : Cur → Nat → Word × Word),
    VecResult i d latch rule srcs ty f → LeavesAloneWhen (fun c => c.pastGrant = false) i 1 (onlyVectors [d])) ∧
  (∀ (i : Instr) (d : VOp) (srcs : List VOp) (f : Cur → Nat → Word64 × Word),
    VecResult64 i d srcs f → LeavesAloneWhen (fun c => c.pastGrant = false) i 1 (onlyVectors [d, vopNext d])) ∧
  (∀ (i : Instr) (p : BitVec 3) (f : Cur → Nat → Bool × Word), PredResult i p f → LeavesAlone i 1 (onlyPredicate p)) ∧
  ∀ (d a : VOp) (k : BitVec 3), LeavesAloneWhen (fun c => c.pastGrant = false ∧ (c.strict = false ∨ c.reservedLanes a = [])) (.tunpk d a k) 1
    (onlyVectors [d])

/-- R19, R44, R54, R141, R155: a word inside its clause moves its entity past it and changes nothing but its team and its clause; and the frame
of every vector instruction and of those that write a predicate. -/
def Obligations.WordMovesOnlyItsEntity : Prop := Claims.DoneMovesOnlyItsEntity ∧ Claims.VectorFrame

/-- R18, R54, R191, R198, R201, R331: the last word of a clause retires it.  For an entity without loop levels whose team nothing is about to
end: the entity stands at the header after the clause, MODE takes the clause's write, the flags of its later passes are raised, the
words count unless another entity of the team waits in a `yieldc` or a `hlt`, and the watchdog restarts; the waiting `vtos` moves have run, which
the scalars show. -/
def Obligations.LastWordRetiresClause : Prop :=
  ∀ (s : State) (c : Cur) (t : Team) (i : Issue) (n : Nat), Standing s c → ¬ c.inside n → s.calm c.e.team → c.e.loops = [] →
    t.dying = false → t.wg = c.t.wg → i.pc = c.i.pc → i.words = c.i.words →
    ∃ e u, tabGet (c.done s n t i).ents c.eid = some e ∧ tabGet (c.done s n t i).teams c.e.team = some u ∧
      e.pc = c.i.pc + BitVec.ofNat 64 (4 * (c.i.words.length + 1)) ∧ e.issue = none ∧ e.hold = none ∧ e.mask = c.e.mask ∧
      u.mode = i.modeNew.getD t.mode ∧ u.hang = 0 ∧ u.flags = t.flags ||| i.flagsLate ∧ u.v = t.v ∧
      ((∀ x ∈ s.ents, x.2.team = c.e.team → x.1 ≠ c.eid → x.2.hold ≠ some .yieldc ∧ x.2.hold ≠ some .hlt) →
        u.retired = t.retired + c.i.words.length) ∧
      (∀ k x, tabGet s.ents k = some x → x.team = c.e.team → k ≠ c.eid → x.hold = some .yieldc ∨ x.hold = some .hlt → u.retired = t.retired) ∧
      u.s = (i.vtos.foldl (fun t m => t.vtosMove m.1 m.2.1 m.2.2) t).s ∧
      ∀ a, (c.done s n t i).byteAt a = s.byteAt a

/-! ## Scalar instructions -/

/-- R187: every two-source instruction of opcode 0x10 writes its result to its destination, and is done. -/
def Sys2Proof.Claims.ScalarOperations : Prop :=
  ∀ r ∈ scalarOps, ∀ (s : State) (c : Cur) (d a b : BitVec 6), Standing s c →
    exec (r.1 d a b) s = .next (scalarDone c s 1 d (r.2 (c.t.sreg a.toNat) (c.t.sreg b.toNat) (c.t.sreg d.toNat)))

/-- R187, R188, R189, R190: the one-source instructions, those with an immediate (sign-extended, or a shift by 0 to 31), `smovi`,
`slui` and the two-word `smovw`. -/
def Sys2Proof.Claims.ScalarImmediates : Prop :=
  ∀ (s : State) (c : Cur) (d a : BitVec 6), Standing s c →
    (∀ r ∈ scalarUnary, exec (r.1 d a) s = .next (scalarDone c s 1 d (r.2 (c.t.sreg a.toNat)))) ∧
    (∀ r ∈ scalarImm, ∀ i : BitVec 10, exec (r.1 d a i) s = .next (scalarDone c s 1 d (r.2 (c.t.sreg a.toNat) (i.signExtend 32)))) ∧
    (∀ r ∈ scalarShiftImm, ∀ n : BitVec 5, exec (r.1 d a n) s = .next (scalarDone c s 1 d (r.2 (c.t.sreg a.toNat) n.toNat))) ∧
    (∀ i : BitVec 10, exec (.smovi d i) s = .next (scalarDone c s 1 d (i.signExtend 32))) ∧
    (∀ i : BitVec 20, exec (.slui d i) s = .next (scalarDone c s 1 d (i.setWidth 32 * 4096#32))) ∧
    (∀ w : BitVec 32, exec (.smovw d w) s = .next (scalarDone c s 2 d w))

/-- R187, R137, R40: the 64-bit instructions on pairs; a pair is named by its even scalar. -/
def Sys2Proof.Claims.ScalarPairs : Prop :=
  ∀ (s : State) (c : Cur) (d a b : BitVec 6), Standing s c →
    exec (.sadd64 d a b) s = .next (pairDone c s d (c.t.xreg (a.toNat / 2) + c.t.xreg (b.toNat / 2))) ∧
    exec (.ssub64 d a b) s = .next (pairDone c s d (c.t.xreg (a.toNat / 2) - c.t.xreg (b.toNat / 2))) ∧
    exec (.sshl64 d a b) s = .next (pairDone c s d (c.t.xreg (a.toNat / 2) <<< ((c.t.sreg b.toNat).toNat % 128)))

/-- R137, R187, R188, R189, R190: every scalar arithmetic instruction writes its result to its destination, and is done. -/
def Obligations.ScalarResults : Prop := Claims.ScalarOperations ∧ Claims.ScalarImmediates ∧ Claims.ScalarPairs


/-- R40: `s0` reads zero and a write to it is discarded; a pair is its two scalars; `x0` reads zero whatever `s1` holds, and a write
to it is discarded whole; a write to another pair writes both scalars and nothing else. -/
def Obligations.ScalarRegistersBehave : Prop :=
  ∀ (t : Team) (k : Nat) (w : Word) (x : Word64),
    t.sreg 0 = 0 ∧ t.setS 0 w = t ∧ t.xreg 0 = 0 ∧ t.setX 0 x = t ∧
    (k ≠ 0 → t.xreg k = t.sreg (2 * k + 1) ++ t.sreg (2 * k)) ∧
    (k ≠ 0 → (t.setS k w).sreg k = w ∧ ∀ n, n ≠ k → (t.setS k w).sreg n = t.sreg n) ∧
    (k ≠ 0 → (t.setX k x).sreg (2 * k) = x.extractLsb' 0 32 ∧ (t.setX k x).sreg (2 * k + 1) = x.extractLsb' 32 32 ∧
      ∀ n, n ≠ 2 * k → n ≠ 2 * k + 1 → (t.setX k x).sreg n = t.sreg n)

/-- R189: a first word of opcode 0x13 is `slui` with its D6 and its unsigned IMM20, and `slui` writes IMM20 × 2^12. -/
def Obligations.SluiAsTheRuleSays : Prop :=
  ∀ w x : Nat, w < 2 ^ 32 → w / 2 ^ 26 = 0x13 →
    decodePair w x = .ok (.slui (BitVec.ofNat 6 w) (BitVec.ofNat 20 (w / 2 ^ 6))) ∧
    ∀ (s : State) (c : Cur), Standing s c → exec (.slui (BitVec.ofNat 6 w) (BitVec.ofNat 20 (w / 2 ^ 6))) s =
      .next (scalarDone c s 1 (BitVec.ofNat 6 w) (BitVec.ofNat 32 (w / 2 ^ 6 % 2 ^ 20 * 2 ^ 12)))

/-- R52, R53, R190: `srd` of a register of one word, of the low word of a two-word register, whose value the entity keeps, and of a
high word, which gives what the last low read of the same register kept, or where the entity's last low read was of another register, or
it made none, the high word of the live value. -/
def Sys2Proof.Claims.SpecialRegisterReads : Prop :=
  ∀ (s : State) (c : Cur) (d : BitVec 6) (n : BitVec 12), Standing s c →
    (s.wideReg c.t n.toNat = none → (n.toNat = 0 ∨ s.wideReg c.t (n.toNat - 1) = none) →
      exec (.srd d n) s = .next (scalarDone c s 1 d (BitVec.ofNat 32 (s.specialReg c.e c.t n.toNat)))) ∧
    (∀ v, s.wideReg c.t n.toNat = some v → c.inside 1 →
      ∃ t e, exec (.srd d n) s = .next t ∧ tabGet t.teams c.e.team = some (c.t.setS d.toNat (v.setWidth 32)) ∧
        tabGet t.ents c.eid = some e ∧ e.snap = some (n.toNat, v) ∧ e.issue = some { c.i with next := c.i.next + 1 }) ∧
    (∀ v x, s.wideReg c.t n.toNat = none → n.toNat ≠ 0 → s.wideReg c.t (n.toNat - 1) = some v → c.e.snap = some (n.toNat - 1, x) →
      exec (.srd d n) s = .next (scalarDone c s 1 d ((x >>> 32).setWidth 32))) ∧
    (∀ v, s.wideReg c.t n.toNat = none → n.toNat ≠ 0 → s.wideReg c.t (n.toNat - 1) = some v →
      (∀ k x, c.e.snap = some (k, x) → k ≠ n.toNat - 1) →
      exec (.srd d n) s = .next (scalarDone c s 1 d ((v >>> 32).setWidth 32)))

/-- What the special registers of R52 and R53 hold: the team and its lanes, its workgroup's teams, blocks, subdomain and splits, its
grid's number and depth, the cluster slot, the context, MODE and FLAGS, the gang, the loop counts of the valid levels, the
outstanding-operation counters, ALLOW, TIME, CYC and the context's performance counters, of which an unprivileged context reads the fabric
events as zero (R381, R382). -/
def Sys2Proof.Claims.SpecialRegistersHold : Prop :=
  (∀ (s : State) (e : Entity) (t : Team) (w : Workgroup) (g : Grid), s.wgOf t = some w → s.gridOf t = some g →
    s.specialReg e t 0x02 = w.teams ∧
    (s.specialReg e t 0x03 = w.wgid.x ∧ s.specialReg e t 0x04 = w.wgid.y ∧ s.specialReg e t 0x05 = w.wgid.z) ∧
    (s.specialReg e t 0x08 = w.lo.x ∧ s.specialReg e t 0x09 = w.lo.y ∧ s.specialReg e t 0x0A = w.lo.z) ∧
    (s.specialReg e t 0x0C = w.hi.x ∧ s.specialReg e t 0x0D = w.hi.y ∧ s.specialReg e t 0x0E = w.hi.z) ∧
    s.specialReg e t 0x10 = g.gridId ∧ s.specialReg e t 0x11 = g.depth ∧ s.specialReg e t 0x12 = w.splits ∧
    s.specialReg e t 0x13 = (if w.cluster = none then 0 else 2 ^ 31 + w.clusSlot) ∧
    s.wideReg t 0x18 = some (if w.phase = true then BitVec.ofNat 64 (g.rcd.allow - w.words) else BitVec.allOnes 64)) ∧
  (∀ (s : State) (t : Team) (k : Nat), k < 4 →
    let x := s.ctx (s.ctxOf t)
    s.wideReg t (0x50 + 2 * k) = some (if x.priv = false ∧ (x.evt.getD k 0 = 0x0E ∨ x.evt.getD k 0 = 0x0F) then 0
      else BitVec.ofNat 64 (x.counters.getD k 0))) ∧
  ∀ (s : State) (e : Entity) (t : Team),
    (t.gang = none → s.specialReg e t 0x23 = 0) ∧ (∀ g, t.gang = some g → s.specialReg e t 0x23 = 256 + g.toNat) ∧
    (∀ k < 3, e.loops.length ≤ k → s.specialReg e t (0x40 + k) = 0) ∧
    (∀ k l, k < 3 → e.loops[k]? = some l → s.specialReg e t (0x40 + k) = l.count.toNat) ∧
    s.specialReg e t 0x00 = t.teamId ∧ s.specialReg e t 0x01 = t.lanes ∧ s.specialReg e t 0x14 = s.ctxOf t ∧
    s.specialReg e t 0x20 = t.mode.toNat ∧ s.specialReg e t 0x21 = t.flags.toNat ∧ s.specialReg e t 0x22 = t.mshape.toNat ∧
    s.specialReg e t 0x48 = t.cnt .ld ∧ s.specialReg e t 0x49 = t.cnt .st ∧ s.specialReg e t 0x4A = t.cnt .cp ∧
    s.specialReg e t 0x4B = t.cnt .tl ∧ s.wideReg t 0x30 = some s.time ∧ s.wideReg t 0x32 = some (BitVec.ofNat 64 t.cyc) ∧
    s.specialReg e t 0xFFF = 0


/-- R55: a write of FLAGS takes effect at once; a bit written 0 is cleared, a bit written 1 stays, and bits [31:9] read zero. -/
def Sys2Proof.Claims.FlagsWriteClearsWithZero : Prop :=
  ∀ (s : State) (c : Cur) (a : BitVec 6), Standing s c →
    ∃ f : Word, exec (.swr 0x021 a) s = .next (c.done s 1 { c.t with flags := f } c.i) ∧
      ∀ b, b < 32 → f.getLsbD b = (decide (b < 9) && c.t.flags.getLsbD b && (c.t.sreg a.toNat).getLsbD b)

/-- R54, R6: a write of MODE waits for the end of its clause, reserved bits read zero, and RM is unaffected until then. -/
def Sys2Proof.Claims.ModeWriteWaitsForClause : Prop :=
  ∀ (s : State) (c : Cur) (a : BitVec 6), Standing s c →
    ∃ m : Word, exec (.swr 0x020 a) s = .next (c.done s 1 c.t { c.i with modeNew := some m }) ∧
      (∀ b, b < 32 → m.getLsbD b = ((c.t.sreg a.toNat).getLsbD b && decide (b ∈ [0, 1, 2, 4, 5])))

/-- R6, R15, R50, R52 to R55, R190, R277, R381: `srd`, what the special registers hold, and what a write of FLAGS and a write of MODE do. -/
def Obligations.SpecialRegisters : Prop :=
  Claims.SpecialRegisterReads ∧ Claims.SpecialRegistersHold ∧ Claims.FlagsWriteClearsWithZero ∧ Claims.ModeWriteWaitsForClause


/-- R190, R191, R49, R96, R183: `vtos` in program order outside VX clauses and after the last pass in them, from the lane that its scalar names where program order reaches the word
(log 7), `stov`, `bdset` with its
reserved bits cleared, and `gtag`, whose count is the one that the issue of its clause tracked. -/
def Obligations.MovesBetweenFiles : Prop :=
  ∀ (s : State) (c : Cur) (d a b : BitVec 6) (v : BitVec 6), Standing s c →
    (c.i.cls ≠ .vx → exec (.vtos d a b) s = .next (c.done s 1 (c.t.vtosMove d a (c.t.sreg b.toNat)) c.i)) ∧
    (c.i.cls = .vx → exec (.vtos d a b) s = .next (c.done s 1 c.t { c.i with vtos := c.i.vtos ++ [(d, a, c.t.sreg b.toNat)] })) ∧
    (∀ w : Word, (c.t.vtosMove d a w).sreg d.toNat =
      if d = 0 then 0 else if w.toNat < c.t.lanes then (c.t.vreg a.toNat).lane 0xFF800001 w.toNat else 0) ∧
    VecResult (.stov v a) (.v v) .m .plain [] .raw (fun c _ => (c.t.sreg a.toNat, 0)) ∧
    (∀ k : BitVec 4, exec (.bdset k a b) s = .next (c.done s 1
      { c.t with b := tabPut c.t.b k.toNat
                   { base := c.t.xreg (a.toNat / 2), len := c.t.sreg b.toNat
                     flags := bits fun n => decide (n < 6) && (c.t.sreg (b.toNat + 1)).getLsbD n } } c.i)) ∧
    (∀ n, tabGet c.i.gcounts (c.i.next + 1) = some n →
      exec (.gtag d a) s = .next (scalarDone c s 1 d (BitVec.ofNat 32 ((c.t.vreg a.toNat).tag.code + 256 * n + 65536 * c.t.grant))))

/-- A team has changed in no more than some of its scalars. -/
def Sys2Proof.Claims.onlyScalars (ds : List Nat) (c : Cur) (u : Team) : Prop :=
  u = { c.t with s := u.s } ∧ ∀ n, n ∉ ds → u.sreg n = c.t.sreg n

/-- The frame of the scalar instructions (opcodes 0x10 to 0x13): memory, every vector register, predicate, FLAGS, MODE, the counters
and the descriptors stay, and every scalar but the destination, or the destination's pair; a `vtos` of a VX clause changes no register
before the clause's last pass; `swr` changes no register but FLAGS, and `bdset` none but its descriptor. -/
def Obligations.ScalarFrame : Prop :=
  (∀ r ∈ scalarOps, ∀ d a b, LeavesAlone (r.1 d a b) 1 (onlyScalars [d.toNat])) ∧
  (∀ r ∈ scalarUnary, ∀ d a, LeavesAlone (r.1 d a) 1 (onlyScalars [d.toNat])) ∧
  (∀ r ∈ scalarImm, ∀ d a i, LeavesAlone (r.1 d a i) 1 (onlyScalars [d.toNat])) ∧
  (∀ r ∈ scalarShiftImm, ∀ d a n, LeavesAlone (r.1 d a n) 1 (onlyScalars [d.toNat])) ∧
  (∀ d i, LeavesAlone (.smovi d i) 1 (onlyScalars [d.toNat])) ∧ (∀ d i, LeavesAlone (.slui d i) 1 (onlyScalars [d.toNat])) ∧
  (∀ d w, LeavesAlone (.smovw d w) 2 (onlyScalars [d.toNat])) ∧
  (∀ f ∈ [Instr.sadd64, .ssub64, .sshl64], ∀ d a b,
    LeavesAlone (f d a b) 1 (onlyScalars [2 * (d.toNat / 2), 2 * (d.toNat / 2) + 1])) ∧
  (∀ d n, LeavesAlone (.srd d n) 1 (onlyScalars [d.toNat])) ∧ (∀ d a, LeavesAlone (.gtag d a) 1 (onlyScalars [d.toNat])) ∧
  (∀ d a b, LeavesAlone (.vtos d a b) 1 fun c u => onlyScalars [d.toNat] c u ∧ (c.i.cls = .vx → u = c.t)) ∧
  (∀ n ∈ [0x020#12, 0x021#12], ∀ a, LeavesAlone (.swr n a) 1 fun c u => u = { c.t with flags := u.flags }) ∧
  (∀ k a b, LeavesAlone (.bdset k a b) 1 fun c u => u = { c.t with b := u.b } ∧ ∀ n, n ≠ k.toNat → u.breg n = c.t.breg n)

/-! ## Vector instructions -/

/-- R42: the result tag.  A partial mask gives G; under a full mask the rules of the table decide. -/
def Sys2Proof.Claims.ResultTags : Prop :=
  ∀ (rule : TagRule) (tags : List Tag),
    resultTag false rule tags = .g ∧ resultTag true .alwaysG tags = .g ∧
    (∀ t, resultTag true .keep [t] = t) ∧
    ((∀ t ∈ tags, t = .u ∨ t = .x) → rule = .plain ∨ rule = .sum ∨ rule = .product ∨ rule = .affine → resultTag true rule tags = .u) ∧
    (resultTag true .plain [.a] = .g ∧ resultTag true .affine [.a] = .a) ∧
    (∀ y ∈ [Tag.u, .x], resultTag true .sum [.a, y] = .a ∧ resultTag true .sum [y, .a] = .a ∧ resultTag true .product [.a, y] = .a ∧
      resultTag true .product [y, .a] = .a ∧ resultTag true .plain [.a, y] = .g) ∧
    resultTag true .sum [.a, .a] = .a ∧ resultTag true .product [.a, .a] = .g ∧ (.g ∈ tags → rule ≠ .keep → resultTag true rule tags = .g)

/-- R41, R42, R45: an affine result is exact: base and stride are what lanes 0 and 1 hold, and `iadd`, `isub`, `ineg` and `imul` by a
uniform word of affine registers give every lane the word that the lanewise result gives it. -/
def Sys2Proof.Claims.AffineResultsAreExact : Prop :=
  ∀ (b1 s1 b2 s2 u : Word) (n l : Nat), 2 ≤ n → l < n →
    let at' (b st : Word) (l : Nat) : Word := b + BitVec.ofNat 32 l * st
    let reads (f : Nat → Word) : Prop := (tagged .a ((List.range n).map f)).lane 0 l = f l
    reads (fun l => at' b1 s1 l + at' b2 s2 l) ∧ reads (fun l => at' b1 s1 l - at' b2 s2 l) ∧ reads (fun l => at' b1 s1 l + u) ∧
      reads (fun l => at' b1 s1 l * u) ∧ reads (fun l => - at' b1 s1 l)

/-- R41, R42, R45: the tag of a result, and that a result kept as base and stride is exact. -/
def Obligations.TagsAndAffineResults : Prop := Claims.ResultTags ∧ Claims.AffineResultsAreExact


/-- R164, R166, R167, R168: the raw integer, bit and bit-field instructions write, lane by lane and without a flag, what the tables
say. -/
def Obligations.RawIntegerResults : Prop :=
  (∀ r ∈ rawOps, ∀ d a b : VOp, VecResult (r.1 d a b) d .b r.2.1 (if r.2.2.1 then [a, b, d] else [a, b]) .raw
    fun c l => (r.2.2.2 (lane c .raw a l) (lane c .raw b l) (lane c .raw d l), 0)) ∧
  (∀ r ∈ rawUnary, ∀ d a : VOp, VecResult (r.1 d a) d .b r.2.1 [a] .raw fun c l => (r.2.2 (lane c .raw a l), 0)) ∧
  (∀ r ∈ Claims.rawImm, ∀ (d a : VOp) (i : BitVec 9), VecResult (r.1 d a i) d .b r.2.1 [a] .raw
    fun c l => (r.2.2 (lane c .raw a l) (i.signExtend 32), 0)) ∧
  (∀ r ∈ rawShiftImm, ∀ (d a : VOp) (n : BitVec 5), VecResult (r.1 d a n) d .b r.2.1 [a] .raw
    fun c l => (r.2.2 (lane c .raw a l) n.toNat, 0)) ∧
  (∀ (d : VOp) (i : BitVec 9), VecResult (.movi d i) d .b .plain [] .raw fun _ _ => (i.signExtend 32, 0))

/-- R165, R75, R76, R9: the value-integer instructions work element by element with absent codes: the skip class, the propagate
class, saturation with FLAGS.SAT, and no present result that takes the absent code. -/
def Obligations.ValueIntegerResults : Prop :=
  (∀ r ∈ valOps, ∀ (t : ValT) (d a b : VOp), VecResult (r.1 t d a b) d .b .plain [a, b] t.constTy fun c l =>
    byElement (valWidth t) (fun x y => codeOf t (r.2 (valOf t x) (valOf t y))) (lane c t.constTy a l) (lane c t.constTy b l)) ∧
  (∀ (t : ValT) (d a : VOp), VecResult (.iabsV t d a) d .b .plain [a] t.constTy fun c l =>
    byElement (valWidth t) (fun x _ => codeOf t ((valOf t x).map fun v => |v|)) (lane c t.constTy a l) (lane c t.constTy a l)) ∧
  ∀ (t : ValT) (x : Int), (codeOf t (some x)).1 ≠ valAbsent t

/-- R159, R160, R161, R139: the float instructions of two sources, in f32, on packed 16-bit elements, on f64 pairs and on packed FP8
elements, each element by the one operation of its format under the clause's rounding mode. -/
def Sys2Proof.Claims.FloatBinaryResults : Prop :=
  (∀ r ∈ floatBinary, ∀ d a b : VOp,
    VecResult (r.2.1 d a b) d .a .plain [a, b] .f32
      (fun c l => word32 (float2 fmtF32 c.rm false r.1 (lane c .f32 a l).toNat (lane c .f32 b l).toNat)) ∧
    (∀ t, VecResult (r.2.2.1 t d a b) d .a .plain [a, b] t.constTy
      fun c l => by2 16 (float2 (halfFmt t) c.rm false r.1) c t.constTy a b l) ∧
    VecResult64 (r.2.2.2.1 d a b) d [a, vopNext a, b, vopNext b]
      (fun c l => word64 (float2 fmtF64 c.rm false r.1 ((c.pairs a).getD l 0).toNat ((c.pairs b).getD l 0).toNat)) ∧
    ∀ t, VecResult (r.2.2.2.2 t d a b) d .a .plain [a, b] t.constTy
      fun c l => by2 8 (float2 (fp8Fmt t) c.rm c.sat r.1) c t.constTy a b l) ∧
  ∀ d a b : VOp,
    VecResult (.fdivF32 d a b) d .a .plain [a, b] .f32
      (fun c l => word32 (float2 fmtF32 c.rm false .div (lane c .f32 a l).toNat (lane c .f32 b l).toNat)) ∧
    VecResult64 (.fdivF64 d a b) d [a, vopNext a, b, vopNext b]
      (fun c l => word64 (float2 fmtF64 c.rm false .div ((c.pairs a).getD l 0).toNat ((c.pairs b).getD l 0).toNat))

/-- R159 to R161, R139: the float instructions of one source: `fabs`, `fneg`, `fsat`, `frnd` and `fsqrt`. -/
def Sys2Proof.Claims.FloatUnaryResults : Prop :=
  let f32 (i : Instr) (op : FOp1) (d a : VOp) : Prop :=
    VecResult i d .a .plain [a] .f32 fun c l => word32 (float1 fmtF32 c.rm false op (lane c .f32 a l).toNat)
  let half (i : Instr) (t : HalfT) (op : FOp1) (d a : VOp) : Prop :=
    VecResult i d .a .plain [a] t.constTy fun c l => by2 16 (fun x _ => float1 (halfFmt t) c.rm false op x) c t.constTy a a l
  let f64 (i : Instr) (op : FOp1) (d a : VOp) : Prop :=
    VecResult64 i d [a, vopNext a] fun c l => word64 (float1 fmtF64 c.rm false op ((c.pairs a).getD l 0).toNat)
  (∀ r ∈ floatUnary, ∀ d a : VOp, f32 (r.2.1 d a) r.1 d a ∧ (∀ t, half (r.2.2.1 t d a) t r.1 d a) ∧ f64 (r.2.2.2.1 d a) r.1 d a ∧
    ∀ t, VecResult (r.2.2.2.2 t d a) d .a .plain [a] t.constTy
      fun c l => by2 8 (fun x _ => float1 (fp8Fmt t) c.rm c.sat r.1 x) c t.constTy a a l) ∧
  (∀ (m : RndDir) (d a : VOp), f32 (.frndF32 m d a) (.rnd m) d a ∧ (∀ t, half (.frndF16Bf16 t m d a) t (.rnd m) d a) ∧
    f64 (.frndF64 m d a) (.rnd m) d a) ∧
  ∀ d a : VOp, f32 (.fsqrtF32 d a) .sqrt d a ∧ f64 (.fsqrtF64 d a) .sqrt d a

namespace Sys2Proof.Claims

/-- The float formats. -/
def formats : List FFmt := [fmtF32, fmtF64, fmtF16, fmtBf16, fmtE4m3, fmtE5m2]

/-- The value of a finite number. -/
noncomputable def valueOf (neg : Bool) (m : Nat) (e : Int) : ℝ := (if neg then -1 else 1) * m * (2 : ℝ) ^ e

/-- A magnitude rounded to an integer in a mode, for a sign (R65, IEEE 754's four directions). -/
noncomputable def roundInt (rm : Rm) (neg : Bool) (x : ℝ) : Int :=
  match rm with
  | .ne => if x - ⌊x⌋ < 1 / 2 then ⌊x⌋ else if 1 / 2 < x - ⌊x⌋ then ⌊x⌋ + 1 else if ⌊x⌋ % 2 = 0 then ⌊x⌋ else ⌊x⌋ + 1
  | .tz => ⌊x⌋
  | .dn => if neg then ⌈x⌉ else ⌊x⌋
  | .up => if neg then ⌊x⌋ else ⌈x⌉

/-- A magnitude rounded to the precision of a format: to a multiple of 2^q, with q as its exponent asks, or, with `least`, as the
subnormals ask where those are coarser (R63). -/
noncomputable def roundedAt (f : FFmt) (rm : Rm) (neg least : Bool) (v : ℝ) : ℝ :=
  let q : Int := Int.log 2 v - f.mbits
  let q : Int := if least then max q (1 - (f.bias : Int) - f.mbits) else q
  roundInt rm neg (v / (2 : ℝ) ^ q) * (2 : ℝ) ^ q

/-- The magnitude of a finite code of sign 0 (R62, R67). -/
noncomputable def magnitude (f : FFmt) (k : Nat) : ℝ :=
  if k < 2 ^ f.mbits then k * (2 : ℝ) ^ (1 - (f.bias : Int) - f.mbits)
  else ((2 : ℝ) ^ f.mbits + (k % 2 ^ f.mbits : Nat)) * (2 : ℝ) ^ (((k / 2 ^ f.mbits : Nat) : Int) - f.bias - f.mbits)

/-- What replaces an overflowing result (R66): the largest finite value or the infinity of its sign, or E4M3's NaN. -/
def overflowCode (f : FFmt) (rm : Rm) (sat neg : Bool) : Nat :=
  let most := f.maxCode + if neg then 2 ^ (f.width - 1) else 0
  match f.inf with
  | none => if sat then most else f.nan
  | some i =>
    if sat || rm == .tz || (rm == .dn && !neg) || (rm == .up && neg) then most else i + if neg then 2 ^ (f.width - 1) else 0

/-- R63, R65, R66, R68: a result is the correctly rounded code of a real number that is not 0, with its flags: rounded once in the mode;
past the largest finite value it is an overflow, with OF and NX; else NX where it is not exact, and UF beside it where it is tiny after
rounding with an unbounded exponent.  An FP8 result of magnitude 0 is +0. -/
def RoundsTo (f : FFmt) (rm : Rm) (sat : Bool) (x : ℝ) (r : Nat × Word) : Prop :=
  let neg := decide (x < 0)
  let w := roundedAt f rm neg true |x|
  if magnitude f f.maxCode < w then r = (overflowCode f rm sat neg, 0x14)
  else ∃ k ≤ f.maxCode, magnitude f k = w ∧
    r.1 = k + (if neg = true ∧ ¬ (f.fp8 = true ∧ k = 0) then 2 ^ (f.width - 1) else 0) ∧
    r.2 = if w = |x| then 0 else if roundedAt f rm neg false |x| < (2 : ℝ) ^ (1 - (f.bias : Int)) then 0x18 else 0x10

/-- The code of a zero of a sign: FP8 has one zero (R68). -/
def zeroCode (f : FFmt) (neg : Bool) : Nat := if neg = true ∧ f.fp8 = false then 2 ^ (f.width - 1) else 0

/-- R65, R160: `fadd`, `fsub`, `fmul`, `fdiv` and `fsqrt` of finite elements give the exact result rounded once, and the zeros their
signs; 0/0 and the root of a negative number are invalid, and a number over zero is an infinity with DZ. -/
def FiniteArithmeticIsRounded : Prop :=
  ∀ f ∈ formats, ∀ (rm : Rm) (sat : Bool) (a b : Nat) (na nb : Bool) (ma mb : Nat) (ea eb : Int),
    numOf f a = .fin na ma ea → numOf f b = .fin nb mb eb →
    let x := valueOf na ma ea
    let y := valueOf nb mb eb
    (x + y ≠ 0 → RoundsTo f rm sat (x + y) (float2 f rm sat .add a b)) ∧
    (x + y = 0 → float2 f rm sat .add a b = (zeroCode f (if na = nb then na else rm == .dn), 0)) ∧
    (x - y ≠ 0 → RoundsTo f rm sat (x - y) (float2 f rm sat .sub a b)) ∧
    (x - y = 0 → float2 f rm sat .sub a b = (zeroCode f (if na = !nb then na else rm == .dn), 0)) ∧
    (x * y ≠ 0 → RoundsTo f rm sat (x * y) (float2 f rm sat .mul a b)) ∧
    (x * y = 0 → float2 f rm sat .mul a b = (zeroCode f (na != nb), 0)) ∧
    (x ≠ 0 → y ≠ 0 → RoundsTo f rm sat (x / y) (float2 f rm sat .div a b)) ∧
    (x = 0 → y ≠ 0 → float2 f rm sat .div a b = (zeroCode f (na != nb), 0)) ∧
    (x = 0 → y = 0 → float2 f rm sat .div a b = (f.nan, 1)) ∧
    (∀ i, f.inf = some i → x ≠ 0 → y = 0 → float2 f rm sat .div a b = (i + if na = nb then 0 else 2 ^ (f.width - 1), 2)) ∧
    (0 < x → RoundsTo f rm sat (Real.sqrt x) (float1 f rm sat .sqrt a)) ∧
    (x = 0 → float1 f rm sat .sqrt a = (zeroCode f na, 0)) ∧
    (x < 0 → float1 f rm sat .sqrt a = (f.nan, 1))

/-- R64, R160: an element that is a NaN gives the canonical NaN, with NV where one of the elements signals; so do ∞ − ∞, 0 × ∞, ∞/∞ and
the root of −∞, each with NV; an infinity otherwise stays one, without a flag. -/
def NansAndInfinities : Prop :=
  ∀ f ∈ formats, ∀ (rm : Rm) (sat : Bool) (a b : Nat), numOf f a ≠ .absent → numOf f b ≠ .absent →
    let signals : Word := if numOf f a = .nan true ∨ numOf f b = .nan true then 1 else 0
    ((∃ g, numOf f a = .nan g ∨ numOf f b = .nan g) → ∀ op, float2 f rm sat op a b = (f.nan, signals)) ∧
    (∀ i na nb, f.inf = some i → numOf f a = .inf na → numOf f b = .inf nb →
      let code (neg : Bool) : Nat := i + if neg then 2 ^ (f.width - 1) else 0
      float2 f rm sat .add a b = (if na = nb then (code na, 0) else (f.nan, 1)) ∧
      float2 f rm sat .sub a b = (if na = nb then (f.nan, 1) else (code na, 0)) ∧
      float2 f rm sat .mul a b = (code (na != nb), 0) ∧ float2 f rm sat .div a b = (f.nan, 1) ∧
      float1 f rm sat .sqrt a = if na then (f.nan, 1) else (code false, 0)) ∧
    ∀ i na nb mb eb, f.inf = some i → numOf f a = .inf na → numOf f b = .fin nb mb eb →
      let code (neg : Bool) : Nat := i + if neg then 2 ^ (f.width - 1) else 0
      float2 f rm sat .add a b = (code na, 0) ∧ float2 f rm sat .add b a = (code na, 0) ∧
      float2 f rm sat .sub a b = (code na, 0) ∧ float2 f rm sat .sub b a = (code (!na), 0) ∧
      float2 f rm sat .mul a b = (if mb = 0 then (f.nan, 1) else (code (na != nb), 0)) ∧
      float2 f rm sat .div a b = (code (na != nb), 0) ∧ float2 f rm sat .div b a = (zeroCode f (nb != na), 0)

/-- R161: `frnd` of a finite element is the integral value in its direction, whatever the mode and without a flag; `fabs`, `fneg` and
`fsat` on finite elements. -/
def RoundToIntegral : Prop :=
  ∀ f ∈ formats, ∀ (rm : Rm) (sat : Bool) (a : Nat) (n : Bool) (m : Nat) (e : Int), numOf f a = .fin n m e →
    let x := valueOf n m e
    let holds (r : Nat × Word) (v : ℝ) (neg : Bool) : Prop := r.2 = 0 ∧ ∃ m' e', numOf f r.1 = .fin neg m' e' ∧ valueOf neg m' e' = v
    (f.fp8 = false → ∀ d ∈ [(RndDir.n, Rm.ne), (.d, .dn), (.u, .up), (.z, .tz)],
      holds (float1 f rm sat (.rnd d.1) a) ((if n then -1 else 1) * roundInt d.2 n |x|) n) ∧
    holds (float1 f rm sat .abs a) |x| false ∧
    (f.fp8 = false ∨ m ≠ 0 → holds (float1 f rm sat .neg a) (-x) (!n)) ∧
    (f.fp8 = true → m = 0 → float1 f rm sat .neg a = (0, 0)) ∧
    holds (float1 f rm sat .sat a) (max 0 (min 1 x)) false

end Sys2Proof.Claims

/-- R139, R159, R160, R161: the float instructions of one and of two sources; and R63 to R66, R68: the one rounding that they share, what
it gives with which flags, and what NaNs, infinities and zeros give. -/
def Obligations.FloatResults : Prop :=
  Claims.FloatBinaryResults ∧ Claims.FloatUnaryResults ∧ Claims.FiniteArithmeticIsRounded ∧ Claims.NansAndInfinities ∧
    Claims.RoundToIntegral


/-- R162, R163: the fused and dot forms, lane by lane, and the integer dot forms, which sum exactly and saturate. -/
def Sys2Proof.Claims.FusedForms : Prop :=
  (∀ r ∈ fusedOps, ∀ d a b : VOp, VecResult (r.1 d a b) d .a .plain [a, b, d] .f32 fun c l =>
    word32 (fused fmtF32 fmtF32 c.rm r.2 [((lane c .f32 a l).toNat, (lane c .f32 b l).toNat)] (lane c .f32 d l).toNat)) ∧
  (∀ r ∈ fusedHalf, ∀ d a b : VOp, VecResult (r.1 d a b) d .a .plain [a, b, d] r.2.constTy fun c l =>
    let z i := fused (halfFmt r.2) (halfFmt r.2) c.rm .plus [(elemAt 16 i (lane c r.2.constTy a l), elemAt 16 i (lane c r.2.constTy b l))]
      (elemAt 16 i (lane c r.2.constTy d l))
    (BitVec.ofNat 32 ((z 0).1 % 65536 + 65536 * ((z 1).1 % 65536)), (z 0).2 ||| (z 1).2)) ∧
  (∀ d a b : VOp, VecResult64 (.ffmaF64 d a b) d [a, vopNext a, b, vopNext b, d, vopNext d] fun c l =>
    word64 (fused fmtF64 fmtF64 c.rm .plus [(((c.pairs a).getD l 0).toNat, ((c.pairs b).getD l 0).toNat)] ((c.pairs d).getD l 0).toNat)) ∧
  (∀ r ∈ dotOps, ∀ d a b : VOp, VecResult (r.1 d a b) d .a .plain [a, b, d] .f32 fun c l =>
    word32 (fused r.2.2.1 fmtF32 c.rm .plus
      ((List.range (32 / r.2.1)).map fun i => (elemAt r.2.1 i (lane c r.2.2.2 a l), elemAt r.2.1 i (lane c r.2.2.2 b l)))
      (lane c .f32 d l).toNat)) ∧
  (∀ r ∈ intDotOps, ∀ d a b : VOp, VecResult (r.1 d a b) d .a .plain [a, b, d] .i32 fun c l =>
    intDot r.2.1 r.2.2 (lane c r.2.1.constTy a l) (lane c r.2.2.constTy b l) (lane c .i32 d l))

/-- R163, R160, R64: the products whose factors are both present and finite, and a present finite addend, are summed exactly and rounded once;
an exact zero has the sign that all its operands have, and else that of the mode.  Without a present product a form gives its addend unrounded,
which `ffms` negates, and two absents give absent.  A NaN, a product 0 × ∞ and infinities of both signs give the canonical NaN; infinities of
one sign give that infinity. -/
def Sys2Proof.Claims.FusedSumIsRounded : Prop :=
  ∀ fi ∈ formats, ∀ fr ∈ formats, ∀ (rm : Rm) (kind : FmaKind) (ps : List (Nat × Nat)) (c : Nat),
    let present := ps.filter fun p => decide (numOf fi p.1 ≠ .absent) && decide (numOf fi p.2 ≠ .absent)
    let real (z : Machine.Num) : ℝ := match z with | .fin n m e => valueOf n m e | _ => 0
    let finite (z : Machine.Num) : Prop := ∃ n m e, z = .fin n m e
    let z := numOf fr c
    let s := (present.map fun p => real (numOf fi p.1) * real (numOf fi p.2)).sum
    let x := match kind with | .plus => s + real z | .minus => s - real z | .from => real z - s
    let sided (n : Bool) : Bool := n != (kind == .from)
    let signs : List Bool := present.map (fun p => sided ((numOf fi p.1).sign != (numOf fi p.2).sign)) ++
      if z = .absent then [] else [z.sign != (kind == .minus)]
    let infinite (z : Machine.Num) : Prop := ∃ n, z = .inf n
    let zero (z : Machine.Num) : Prop := ∃ n e, z = .fin n 0 e
    let nan (z : Machine.Num) : Prop := ∃ g, z = .nan g
    let infProduct (p : Nat × Nat) (n : Bool) : Prop := p ∈ present ∧ (infinite (numOf fi p.1) ∨ infinite (numOf fi p.2)) ∧
      n = sided ((numOf fi p.1).sign != (numOf fi p.2).sign)
    let inf (n : Bool) : Prop := (∃ p, infProduct p n) ∨ infinite z ∧ n = (z.sign != (kind == .minus))
    let invalid : Prop := ∃ p ∈ present, infinite (numOf fi p.1) ∧ zero (numOf fi p.2) ∨ zero (numOf fi p.1) ∧ infinite (numOf fi p.2)
    let someNan : Prop := nan z ∨ ∃ p ∈ present, nan (numOf fi p.1) ∨ nan (numOf fi p.2)
    ((∀ p ∈ present, finite (numOf fi p.1) ∧ finite (numOf fi p.2)) → (z = .absent ∨ finite z) → present ≠ [] → x ≠ 0 →
      RoundsTo fr rm false x (fused fi fr rm kind ps c)) ∧
    ((∀ p ∈ present, finite (numOf fi p.1) ∧ finite (numOf fi p.2)) → (z = .absent ∨ finite z) → present ≠ [] → x = 0 →
      (kind = .from → present.length = 1) →
      fused fi fr rm kind ps c = (zeroCode fr (if ∀ n ∈ signs, n = true then true else if ∀ n ∈ signs, n = false then false else rm == .dn), 0)) ∧
    (present = [] → z = .absent → fused fi fr rm kind ps c = (fr.absent, 0)) ∧
    (present = [] → finite z ∨ infinite z → kind ≠ .minus → fused fi fr rm kind ps c = (c, 0)) ∧
    (present = [] → kind = .minus → fr.fp8 = false →
      (∀ n m e, z = .fin n m e → ∃ k, fused fi fr rm kind ps c = (k, 0) ∧ numOf fr k = .fin (!n) m e) ∧
      ∀ n, z = .inf n → ∃ k, fused fi fr rm kind ps c = (k, 0) ∧ numOf fr k = .inf (!n)) ∧
    (present = [] → ∀ g, z = .nan g → fused fi fr rm kind ps c = (fr.nan, if g then 1 else 0)) ∧
    (someNan → (fused fi fr rm kind ps c).1 = fr.nan) ∧
    (invalid → (fused fi fr rm kind ps c).1 = fr.nan ∧ (fused fi fr rm kind ps c).2.getLsbD 0 = true) ∧
    (¬ someNan → ¬ invalid → present ≠ [] → inf true → inf false → fused fi fr rm kind ps c = (fr.nan, 1)) ∧
    ∀ i n, fr.inf = some i → ¬ someNan → ¬ invalid → present ≠ [] → inf n → ¬ inf (!n) →
      fused fi fr rm kind ps c = (i + if n then 2 ^ (fr.width - 1) else 0, 0)

/-- R162, R163, R65: the fused and dot forms: every product and the addend go into one exact sum that is rounded once; the integer dot
forms sum exactly and saturate. -/
def Obligations.FusedAndDotResults : Prop := Claims.FusedForms ∧ Claims.FusedSumIsRounded

/-- R75, R76, R160, R161: absent operands.  `fadd`, `fsub`, `fmin` and `fmax` skip one, `fmul` and `fdiv` propagate it, two absent operands
give absent, and no flag comes of it: a present operand that is no NaN comes back as it is, or with its sign turned where it is taken from
absent; a NaN beside an absent operand comes back as the canonical NaN, with NV where it signals. -/
def Obligations.FloatAbsentClasses : Prop :=
  ∀ f ∈ formats, ∀ (rm : Rm) (sat : Bool) (x : Nat),
    (∀ op ∈ [FOp2.add, .sub, .mul, .div, .min, .max], float2 f rm sat op f.absent f.absent = (f.absent, 0)) ∧
    (numOf f x ≠ .absent → (∀ n, numOf f x ≠ .nan n) →
      (∀ op ∈ [FOp2.add, .min, .max], float2 f rm sat op f.absent x = (x, 0) ∧ float2 f rm sat op x f.absent = (x, 0)) ∧
      float2 f rm sat .sub x f.absent = (x, 0)) ∧
    (∀ n m e, numOf f x = .fin n m e → ∃ k, float2 f rm sat .sub f.absent x = (k, 0) ∧
      numOf f k = .fin (if f.fp8 = true ∧ m = 0 then false else !n) m e) ∧
    (∀ n, numOf f x = .inf n → ∃ k, float2 f rm sat .sub f.absent x = (k, 0) ∧ numOf f k = .inf (!n)) ∧
    (∀ g, numOf f x = .nan g → ∀ op ∈ [FOp2.add, .sub, .min, .max],
      float2 f rm sat op f.absent x = (f.nan, if g then 1 else 0) ∧ float2 f rm sat op x f.absent = (f.nan, if g then 1 else 0)) ∧
    (∀ op ∈ [FOp2.mul, .div], float2 f rm sat op f.absent x = (f.absent, 0) ∧ float2 f rm sat op x f.absent = (f.absent, 0)) ∧
    (∀ op, float1 f rm sat op f.absent = (f.absent, 0))

/-! ## Compares, predicates, moves and cross-lane instructions -/

namespace Sys2Proof.Claims

/-- The element width of a type of R170 and its absent code. -/
def absWidth : AbsT → Nat
  | .f32 | .i32 => 32
  | .f16 | .bf16 => 16
  | _ => 8
def absCode : AbsT → Nat
  | .f32 => 0xFF800001
  | .f16 => 0xFC01
  | .bf16 => 0xFF81
  | .e4m3 | .e5m2 | .i8 => 0x80
  | .i32 => 0x80000000
  | .n8 => 0xFF

/-- The conditions of R77 on present numbers that are ordered. -/
def condHolds : Cond → Ordering → Bool
  | .eq, o => o == .eq
  | .ne, o => o != .eq
  | .lt, o => o == .lt
  | .le, o => o != .gt
  | .gt, o => o == .gt
  | .ge, o => o != .lt
  | .un, _ | .abs, _ => false

/-- R77 for integers of values: an absent operand makes only `ne` and `abs` true. -/
def intHolds (k : Cond) : Option Int → Option Int → Bool
  | some x, some y => condHolds k (Ord.compare x y)
  | _, _ => k == .ne || k == .abs

/-- R77 for f32, over the order of present numbers. -/
def floatHolds (k : Cond) (x y : Machine.Num) : Bool :=
  if x.isAbsent || y.isAbsent then k == .ne || k == .abs || (k == .un && (x.isNan || y.isNan))
  else if x.isNan || y.isNan then k == .ne || k == .un
  else condHolds k (if ltNum x y then .lt else if eqNum x y then .eq else .gt)

/-- The lanes of the 32-lane word of a lane, and those of them that are active (R192). -/
def wordOf (l : Nat) : List Nat := (List.range 32).map fun j => l / 32 * 32 + j
def activeOf (c : Cur) (l : Nat) : List Nat := (wordOf l).filter fun k => c.e.mask.getLsbD k

/-- Which lane of its word a shuffle reads, by the lane's own place and b[4:0] (R192). -/
def shuffles : List ((VOp → VOp → VOp → Instr) × (Nat → Nat → Nat)) :=
  [ (.shfl, fun _ n => n), (.shflup, fun bit n => if n ≤ bit then bit - n else bit),
    (.shfldn, fun bit n => if bit + n ≤ 31 then bit + n else bit), (.shflx, fun bit n => bit ^^^ n) ]

/-- The word reductions and scans, with the value of a list of contributions and whether a word is present (R193). -/
def reductions : List ((VOp → VOp → Instr) × Bool × ConstTy × (List Word → Word × Word) × (Word → Bool)) :=
  let present (x : Word) : Bool := !(numOf fmtF32 x.toNat).isAbsent
  let sumI (xs : List Word) : Word × Word :=
    let vs := xs.filterMap fun x => valOf .i32 x.toNat
    word32 (codeOf .i32 (if vs = [] then none else some vs.sum))
  [ (.wredAddF32, false, .f32, wordSum, present), (.wredMaxF32, false, .f32, wordMax, present),
    (.wredAddI32, false, .i32, sumI, fun x => (valOf .i32 x.toNat).isSome), (.wscanAddF32, true, .f32, wordSum, present),
    (.wscanAddI32, true, .i32, sumI, fun x => (valOf .i32 x.toNat).isSome) ]

/-- The conversions of one lane word: the types read and written, and the conversion (R172, R173). -/
def conversions : List ((VOp → VOp → Instr) × ConstTy × ConstTy × (Cur → Nat → Nat × Word)) :=
  [ (.cvtF32F16, .f16, .f32, fun _ x => floatCvt fmtF16 fmtF32 .ne false (x % 65536)),
    (.cvtF32Bf16, .bf16, .f32, fun _ x => floatCvt fmtBf16 fmtF32 .ne false (x % 65536)),
    (.cvtF32E4m3, .e4m3, .f32, fun _ x => floatCvt fmtE4m3 fmtF32 .ne false (x % 256)),
    (.cvtF32E5m2, .e5m2, .f32, fun _ x => floatCvt fmtE5m2 fmtF32 .ne false (x % 256)),
    (.cvtF16F32, .f32, .f16, fun c x => floatCvt fmtF32 fmtF16 c.rm c.sat x),
    (.cvtBf16F32, .f32, .bf16, fun c x => floatCvt fmtF32 fmtBf16 c.rm c.sat x),
    (.cvtE4m3F32, .f32, .e4m3, fun c x => floatCvt fmtF32 fmtE4m3 c.rm c.sat x),
    (.cvtE5m2F32, .f32, .e5m2, fun c x => floatCvt fmtF32 fmtE5m2 c.rm c.sat x),
    (.cvtF32I32, .i32, .f32, fun c x => fromInt ifmtI32 c.rm x), (.cvtF32N32, .n32, .f32, fun c x => fromInt ifmtN32 c.rm x),
    (.cvtI32F32, .f32, .i32, fun _ x => toInt ifmtI32 x), (.cvtN32F32, .f32, .n32, fun _ x => toInt ifmtN32 x),
    (.cvtI32I8, .i8, .i32, fun _ x => codeOf .i32 (valOf .i8 (x % 256))),
    (.cvtI32N8, .n8, .i32, fun _ x => codeOf .i32 (valOf .n8 (x % 256))),
    (.cvtI8I32, .i32, .i8, fun _ x => codeOf .i8 (valOf .i32 x)), (.cvtN8I32, .i32, .n8, fun _ x => codeOf .n8 (valOf .i32 x)) ]

/-- Digit `k` of a TERN5 byte: 0, +1 or −1; absent for byte 243, and absent with FLAGS.FMT for a reserved byte (R70, R176). -/
def tritWord (v k : Nat) : Word × Word :=
  if 243 < v then (0x80000000, 0x100)
  else if v = 243 then (0x80000000, 0)
  else if v / 3 ^ k % 3 = 0 then (0, 0) else if v / 3 ^ k % 3 = 1 then (1, 0) else (0xFFFFFFFF, 0)

/-- The value of a finite number. -/
def rat (neg : Bool) (m : Nat) (e : Int) : ℚ := (if neg then -1 else 1) * m * (2 : ℚ) ^ e

/-- A word is a finite f32 of a value. -/
def IsF32 (w : Word) (v : ℚ) : Prop := ∃ n m e, numOf fmtF32 w.toNat = .fin n m e ∧ rat n m e = v

/-- A unit in the last place of a real number in f32, with subnormals kept (R177). -/
noncomputable def ulp32 (v : ℝ) : ℝ := (2 : ℝ) ^ (max (Int.log 2 |v|) (-126) - 23)

end Sys2Proof.Claims

/-- R169, R77, R170, R171: `fcmp`, `icmp`, `tabs` and `plog` write their predicate's bits in the active lanes; only an f32 compare of
a signalling NaN raises a flag. -/
def Sys2Proof.Claims.PredicateResults : Prop :=
  ∀ (p : BitVec 3) (a b : VOp),
    (∀ k, PredResult (.fcmp k p a b) p fun c l =>
      let x := numOf fmtF32 (lane c .f32 a l).toNat
      let y := numOf fmtF32 (lane c .f32 b l).toNat
      (floatHolds k x y, sigFlag x ||| sigFlag y)) ∧
    (∀ k, PredResult (.icmpI32 k p a b) p fun c l =>
      (intHolds k (valOf .i32 (lane c .i32 a l).toNat) (valOf .i32 (lane c .i32 b l).toNat), 0)) ∧
    (∀ k, PredResult (.icmpN32 k p a b) p fun c l =>
      let v (x : Word) : Option Int := if x = 0xFFFFFFFF then none else some x.toNat
      (intHolds k (v (lane c .n32 a l)) (v (lane c .n32 b l)), 0)) ∧
    (∀ t, PredResult (.tabs t p a) p fun c l =>
      ((List.range (32 / absWidth t)).all fun i => elemAt (absWidth t) i (lane c t.constTy a l) == absCode t, 0)) ∧
    (∀ x y : BitVec 3,
      PredResult (.plog .and p x y) p (fun c l => ((c.t.preg x.toNat).getLsbD l && (c.t.preg y.toNat).getLsbD l, 0)) ∧
      PredResult (.plog .or p x y) p (fun c l => ((c.t.preg x.toNat).getLsbD l || (c.t.preg y.toNat).getLsbD l, 0)) ∧
      PredResult (.plog .xor p x y) p (fun c l => ((c.t.preg x.toNat).getLsbD l ^^ (c.t.preg y.toNat).getLsbD l, 0)) ∧
      PredResult (.plog .not p x y) p (fun c l => (!(c.t.preg x.toNat).getLsbD l, 0)))

/-- R77: between two finite numbers, the order and the equality that compares, `fmin` and `fmax` use are those of their values. -/
def Sys2Proof.Claims.FloatOrderIsNumeric : Prop :=
  ∀ (a b : Bool) (m n : Nat) (d e : Int),
    ltNum (.fin a m d) (.fin b n e) = decide (rat a m d < rat b n e) ∧
    eqNum (.fin a m d) (.fin b n e) = decide (rat a m d = rat b n e)

/-- R161: `fmin` and `fmax` of finite elements give the smaller and the larger of them, unrounded and without a flag, whichever comes
first; −0 is below +0. -/
def Sys2Proof.Claims.MinMaxOrder : Prop :=
  ∀ f ∈ formats, ∀ (rm : Rm) (sat : Bool) (a b : Nat) (na nb : Bool) (ma mb : Nat) (ea eb : Int),
    numOf f a = .fin na ma ea → numOf f b = .fin nb mb eb →
    (rat na ma ea < rat nb mb eb ∨ rat na ma ea = rat nb mb eb ∧ na = true ∧ nb = false) →
      float2 f rm sat .min a b = (a, 0) ∧ float2 f rm sat .min b a = (a, 0) ∧
      float2 f rm sat .max a b = (b, 0) ∧ float2 f rm sat .max b a = (b, 0)

/-- R77, R161, R169, R170, R171: the instructions that write a predicate, the order they compare by, and that of `fmin` and `fmax`. -/
def Obligations.Compares : Prop := Claims.PredicateResults ∧ Claims.FloatOrderIsNumeric ∧ Claims.MinMaxOrder


/-- R180: opcode 0x0E with FN = K from 1 to 7 is `sel`; each active lane receives a where the predicate is set and b elsewhere, its bits
whole; the result is always G, and it goes to the latch `lb`. -/
def Obligations.SelectionCopiesBits : Prop :=
  (∀ (w x : Nat) (i : Instr), w < 2 ^ 32 → w / 2 ^ 26 = 0x0E → 1 ≤ w / 2 ^ 21 % 32 → w / 2 ^ 21 % 32 ≤ 7 → decodePair w x = .ok i →
    ∃ d a b, i = .sel d (BitVec.ofNat 3 (w / 2 ^ 21)) a b) ∧
  ∀ (d a b : VOp) (p : BitVec 3), VecResult (.sel d p a b) d .b .alwaysG [a, b] .raw
    fun c l => (if (c.t.preg p.toNat).getLsbD l then lane c .raw a l else lane c .raw b l, 0)

/-- R179, R181, R182, R184: `mov` keeps the tag of its source, `toabs` and `mkg` are always G, and `defabs` replaces absent elements
by those of B. -/
def Obligations.MoveResults : Prop :=
  ∀ d a b : VOp,
    VecResult (.mov d a) d .b .keep [a] .raw (fun c l => (lane c .raw a l, 0)) ∧
    VecResult (.mkg d a) d .b .alwaysG [a] .raw (fun c l => (lane c .raw a l, 0)) ∧
    (∀ (t : AbsT) (p : BitVec 3), VecResult (.toabs t d a p) d .b .alwaysG [a] t.constTy
      fun c l => (if (c.t.preg p.toNat).getLsbD l then absentWord t.constTy else lane c t.constTy a l, 0)) ∧
    ∀ t : AbsT, VecResult (.defabs t d a b) d .b .plain [a, b] t.constTy
      fun c l => byElement (absWidth t) (fun x y => (if x = absCode t then y else x, 0)) (lane c t.constTy a l) (lane c t.constTy b l)

/-- R192: the shuffles, `bcast`, `ballot`, `vany`, `vall` and `lanes` work within each word of 32 lanes; only active lanes are written,
and only active lanes contribute. -/
def Sys2Proof.Claims.CrossLaneResults : Prop :=
  (∀ r ∈ shuffles, ∀ d a b : VOp, VecResult (r.1 d a b) d .m .alwaysG [a, b] .raw
    fun c l => (lane c .raw a (l / 32 * 32 + r.2 (l % 32) ((lane c .raw b l).toNat % 32)), 0)) ∧
  (∀ d a : VOp, VecResult (.bcast d a) d .m .alwaysG [a] .raw fun c l => (lane c .raw a ((activeOf c l).headD l), 0)) ∧
  (∀ (d : VOp) (p : BitVec 3),
    VecResult (.ballot d p) d .m .alwaysG [] .raw (fun c l =>
      (bits fun j => c.e.mask.getLsbD (l / 32 * 32 + j) && (c.t.preg p.toNat).getLsbD (l / 32 * 32 + j), 0)) ∧
    VecResult (.vany d p) d .m .alwaysG [] .raw (fun c l => (flag ((activeOf c l).any fun k => (c.t.preg p.toNat).getLsbD k), 0)) ∧
    VecResult (.vall d p) d .m .alwaysG [] .raw (fun c l => (flag ((activeOf c l).all fun k => (c.t.preg p.toNat).getLsbD k), 0))) ∧
  ∀ d : VOp, VecResult (.lanes d) d .m .alwaysG [] .raw fun c l =>
    (BitVec.ofNat 32 ((activeOf c l).countP (fun k => decide (k < l)) + 256 * (activeOf c l).length), 0)

/-- R193: the reductions give every active lane the value of the word's present contributions, the scans that of the contributions
up to the lane; FLAGS.ABS is raised where the word's active lanes hold nothing present. -/
def Sys2Proof.Claims.ReductionResults : Prop :=
  ∀ r ∈ reductions, ∀ d a : VOp, VecResult (r.1 d a) d .m .alwaysG [a] r.2.2.1 fun c l =>
    let v := r.2.2.2.1 (((activeOf c l).filter fun k => !r.2.1 || decide (k ≤ l)).map fun k => lane c r.2.2.1 a k)
    (v.1, v.2 ||| if (activeOf c l).any (fun k => r.2.2.2.2 (lane c r.2.2.1 a k)) then 0 else 0x80)

/-- R193, R64, R65: the value of a word's f32 contributions.  The present ones are summed exactly and rounded once to nearest; a NaN among
them, or infinities of both signs, give the canonical NaN; the maximum is one of them that none is above, and a NaN gives the canonical
NaN; NV is raised by signalling NaNs, and by infinities of both signs in a sum. -/
def Sys2Proof.Claims.WordSumAndMaximum : Prop :=
  ∀ xs : List Word,
    let num (x : Word) : Machine.Num := numOf fmtF32 x.toNat
    let ys := xs.filter fun x => decide (num x ≠ .absent)
    let real (x : Word) : ℝ := match num x with | .fin n m e => valueOf n m e | _ => 0
    let finite (x : Word) : Prop := ∃ n m e, num x = .fin n m e
    let infs (n : Bool) : Prop := ∃ x ∈ ys, num x = .inf n
    let signals : Prop := ∃ x ∈ ys, num x = .nan true
    let someNan : Prop := ∃ x ∈ ys, ∃ g, num x = .nan g
    (ys = [] → wordSum xs = (0xFF800001, 0) ∧ wordMax xs = (0xFF800001, 0)) ∧
    (ys ≠ [] → (∀ x ∈ ys, finite x) → (ys.map real).sum ≠ 0 →
      RoundsTo fmtF32 .ne false (ys.map real).sum ((wordSum xs).1.toNat, (wordSum xs).2)) ∧
    (ys ≠ [] → (∀ x ∈ ys, finite x) → (ys.map real).sum = 0 →
      wordSum xs = (if ∀ x ∈ ys, (num x).sign = true then 0x80000000 else 0, 0)) ∧
    (someNan → (wordSum xs).1 = 0x7FC00000 ∧ ((wordSum xs).2 = 1 ↔ signals ∨ infs true ∧ infs false) ∧
      (wordMax xs).1 = 0x7FC00000 ∧ ((wordMax xs).2 = 1 ↔ signals) ∧ ((wordMax xs).2 = 0 ↔ ¬ signals)) ∧
    (¬ someNan → infs true → infs false → wordSum xs = (0x7FC00000, 1)) ∧
    (∀ n, ¬ someNan → infs n → ¬ infs (!n) → wordSum xs = (if n then 0xFF800000 else 0x7F800000, 0)) ∧
    (ys ≠ [] → ¬ someNan → ∃ x ∈ ys, wordMax xs = (x, 0) ∧
      ∀ y ∈ ys, ltNum (num x) (num y) = false ∧ (eqNum (num x) (num y) = true → (num x).sign = true → (num y).sign = true))

/-- R192, R193: the cross-lane instructions and the reductions. -/
def Obligations.LaneExchange : Prop := Claims.CrossLaneResults ∧ Claims.ReductionResults ∧ Claims.WordSumAndMaximum


/-- R172 to R175: the conversions, `cvtpk` and `cvtup`. -/
def Sys2Proof.Claims.ConversionResults : Prop :=
  (∀ r ∈ conversions, ∀ d a : VOp, VecResult (r.1 d a) d .f .plain [a] r.2.2.1
    fun c l => word32 (r.2.2.2 c (lane c r.2.1 a l).toNat)) ∧
  (∀ d a : VOp, VecResult64 (.cvtF64F32 d a) d [a] fun c l => word64 (floatCvt fmtF32 fmtF64 .ne false (lane c .f32 a l).toNat)) ∧
  (∀ d a : VOp, VecResult (.cvtF32F64 d a) d .f .plain [a, vopNext a] .f32
    fun c l => word32 (floatCvt fmtF64 fmtF32 c.rm c.sat ((c.pairs a).getD l 0).toNat)) ∧
  (∀ d a b : VOp, VecResult (.cvtpk d a b) d .f .plain [a, b] .f16 fun c l =>
    let lo := floatCvt fmtF32 fmtF16 c.rm c.sat (lane c .f32 a l).toNat
    let hi := floatCvt fmtF32 fmtF16 c.rm c.sat (lane c .f32 b l).toNat
    (BitVec.ofNat 32 (lo.1 + 65536 * hi.1), lo.2 ||| hi.2)) ∧
  (∀ (t : UpT) (e : BitVec 2) (d a : VOp), VecResult (.cvtup t e d a) d .f .plain [a] (match t with | .i8 | .n8 => .i32 | _ => .f32)
    fun c l => word32 (upCvt t ((lane c t.constTy a l).toNat / 2 ^ ((if t.is16 then 16 else 8) * e.toNat))))

/-- R173: a present source never converts to the absent code, and a NaN gives 0 with NV. -/
def Sys2Proof.Claims.ConversionNeverGivesAbsent : Prop :=
  ∀ f ∈ [ifmtI32, ifmtN32], ∀ x, numOf fmtF32 x ≠ .absent → (toInt f x).1 ≠ f.absent ∧
    (∀ g, numOf fmtF32 x = .nan g → toInt f x = (0, 1))

/-- R173: a number converted to an integer is cut off toward zero, with NX where that changes it; out of the type's range it is the
nearest end of the range with NV and SAT. -/
def Sys2Proof.Claims.ConversionSaturates : Prop :=
  ∀ r ∈ [(ifmtI32, (-2147483647 : Int), (2147483647 : Int)), (ifmtN32, 0, 4294967294)], ∀ x : Nat,
    let code (y : Int) : Nat := (if y < 0 then y + 4294967296 else y).toNat
    (∀ n, numOf fmtF32 x = .inf n → toInt r.1 x = (code (if n then r.2.1 else r.2.2), 0x21)) ∧
    ∀ n m e, numOf fmtF32 x = .fin n m e →
      let v := rat n m e
      let q : Int := if 0 ≤ v then ⌊v⌋ else ⌈v⌉
      let exact : Word := if (q : ℚ) = v then 0 else 0x10
      toInt r.1 x = if q < r.2.1 then (code r.2.1, exact ||| 0x21) else if r.2.2 < q then (code r.2.2, exact ||| 0x21) else (code q, exact)

/-- R172, R175, R63, R64, R66, R68: what a conversion to a float format gives.  A number is rounded once in the mode, a zero keeps its sign but
in FP8, a NaN becomes the canonical NaN, with NV where it signals, an infinity stays one, or is replaced as an overflow in a format without
infinities, and absent stays absent; the conversions that widen are exact; an integer is rounded once; and `cvtup` converts its element as
the conversion of its type does. -/
def Sys2Proof.Claims.ConversionToFloatRounds : Prop :=
  (∀ fi ∈ formats, ∀ fo ∈ formats, ∀ (rm : Rm) (sat : Bool) (x : Nat),
    let r := floatCvt fi fo rm sat x
    (numOf fi x = .absent → r = (fo.absent, 0)) ∧ (∀ g, numOf fi x = .nan g → r = (fo.nan, if g then 1 else 0)) ∧
    (∀ n, numOf fi x = .inf n → r = match fo.inf with
      | some i => (i + (if n then 2 ^ (fo.width - 1) else 0), 0)
      | none => (overflowCode fo rm sat n, 0x14)) ∧
    ∀ n m e, numOf fi x = .fin n m e →
      (valueOf n m e ≠ 0 → RoundsTo fo rm sat (valueOf n m e) r) ∧ (valueOf n m e = 0 → r = (zeroCode fo n, 0))) ∧
  (∀ p ∈ [(fmtF16, fmtF32), (fmtBf16, fmtF32), (fmtE4m3, fmtF32), (fmtE5m2, fmtF32), (fmtF32, fmtF64)], ∀ x n m e,
    numOf p.1 x = .fin n m e → (floatCvt p.1 p.2 .ne false x).2 = 0 ∧
      ∃ m' e', numOf p.2 (floatCvt p.1 p.2 .ne false x).1 = .fin n m' e' ∧ valueOf n m' e' = valueOf n m e) ∧
  (∀ (rm : Rm) (x : Word),
    let signed := valOf .i32 x.toNat
    let unsigned : Option Int := if x = 0xFFFFFFFF then none else some x.toNat
    ∀ p ∈ [(signed, fromInt ifmtI32 rm x.toNat), (unsigned, fromInt ifmtN32 rm x.toNat)],
      (p.1 = none → p.2 = (0xFF800001, 0)) ∧ (p.1 = some 0 → p.2 = (0, 0)) ∧
      ∀ v : Int, p.1 = some v → v ≠ 0 → RoundsTo fmtF32 rm false v p.2) ∧
  ∀ x : Nat,
    upCvt .f16 x = floatCvt fmtF16 fmtF32 .ne false (x % 65536) ∧ upCvt .bf16 x = floatCvt fmtBf16 fmtF32 .ne false (x % 65536) ∧
    upCvt .e4m3 x = floatCvt fmtE4m3 fmtF32 .ne false (x % 256) ∧ upCvt .e5m2 x = floatCvt fmtE5m2 fmtF32 .ne false (x % 256) ∧
    upCvt .i8 x = codeOf .i32 (valOf .i8 (x % 256)) ∧ upCvt .n8 x = codeOf .i32 (valOf .n8 (x % 256))

/-- R172 to R175: the conversions, that they keep absent apart from present, what the value is that each rounds, and how those to integers
cut off and saturate. -/
def Obligations.Conversions : Prop :=
  Claims.ConversionResults ∧ Claims.ConversionNeverGivesAbsent ∧ Claims.ConversionToFloatRounds ∧ Claims.ConversionSaturates


/-- R70, R176: `tunpk` gives digit K of each active lane's TERN5 byte; a reserved byte under STRICT is the fault FMTF of exactly the
lanes that hold one, and otherwise gives absent and FLAGS.FMT. -/
def Obligations.TernaryUnpacking : Prop :=
  ∀ (s : State) (c : Cur) (d a : VOp) (k : BitVec 3), Standing s c →
    let trit (l : Nat) : Word × Word := tritWord (((c.ternWords a).getD l 0).toNat % 256) k.toNat
    let ws := perLane c (c.words .i32 d) fun l => (trit l).1
    let fl := flagsOf c fun l => (trit l).2
    ((c.strict = false ∨ c.reservedLanes a = []) →
      (Room c → exec (.tunpk d a k) s =
        .next (c.done s 1 (raised c (stored c.t (tagOf c .plain [a]) d ws) fl) (flagged c (latched c.i (some .f) ws) fl))) ∧
      (c.e.mask = 0 → exec (.tunpk d a k) s = .next (c.done s 1 c.t c.i)) ∧
      (c.e.mask ≠ 0 → ¬ Room c → exec (.tunpk d a k) s = .next (c.exhaust s cXREG))) ∧
    (c.strict = true → c.reservedLanes a ≠ [] → ∃ f : FaultInfo, exec (.tunpk d a k) s = .next (c.raiseWith s f) ∧ f.cause = cFMTF ∧
      ∀ l, l < c.t.lanes → l < 1024 →
        f.lanes.getLsbD l = (c.e.mask.getLsbD l && decide (243 < ((c.ternWords a).getD l 0).toNat % 256)))

/-- R177, R178: each special function is done in every active lane, absent stays absent, and a NaN gives the canonical NaN, with NV where
it signals. -/
def Sys2Proof.Claims.SpecialFunctionsComplete : Prop :=
  (∀ d a : VOp,
    VecResult (.frcp d a) d .f .plain [a] .f32 (fun c l => special 0 (lane c .f32 a l)) ∧
    VecResult (.frsq d a) d .f .plain [a] .f32 (fun c l => special 1 (lane c .f32 a l)) ∧
    VecResult (.fexp2 d a) d .f .plain [a] .f32 (fun c l => special 2 (lane c .f32 a l)) ∧
    VecResult (.flog2 d a) d .f .plain [a] .f32 (fun c l => special 3 (lane c .f32 a l)) ∧
    VecResult (.fsin d a) d .f .plain [a] .f32 (fun c l => special 4 (lane c .f32 a l)) ∧
    VecResult (.fcos d a) d .f .plain [a] .f32 (fun c l => special 5 (lane c .f32 a l)) ∧
    VecResult (.ftanh d a) d .f .plain [a] .f32 (fun c l => special 6 (lane c .f32 a l)) ∧
    VecResult (.fsigm d a) d .f .plain [a] .f32 (fun c l => special 7 (lane c .f32 a l))) ∧
  (∀ n x, numOf fmtF32 x.toNat = .absent → special n x = (0xFF800001, 0)) ∧
  ∀ n x g, numOf fmtF32 x.toNat = .nan g → special n x = (0x7FC00000, if g then 1 else 0)

/-- R177: the special inputs of the table, which are zeros, infinities and negative numbers, and their flags. -/
def Sys2Proof.Claims.SpecialInputs : Prop :=
  ∀ (x : Word) (n : Bool),
    let minus (w : Word) : Word := if n then w ||| 0x80000000 else w
    (∀ e, numOf fmtF32 x.toNat = .fin n 0 e →
      special 0 x = (minus 0x7F800000, 2) ∧ special 1 x = (minus 0x7F800000, 2) ∧ special 2 x = (0x3F800000, 0) ∧
      special 3 x = (0xFF800000, 2) ∧ special 4 x = (minus 0, 0) ∧ special 5 x = (0x3F800000, 0) ∧ special 6 x = (minus 0, 0) ∧
      special 7 x = (0x3F000000, 0)) ∧
    (numOf fmtF32 x.toNat = .inf n →
      special 0 x = (minus 0, 0) ∧ special 1 x = (if n then (0x7FC00000, 1) else (0, 0)) ∧
      special 2 x = (if n then 0 else 0x7F800000, 0) ∧ special 3 x = (if n then (0x7FC00000, 1) else (0x7F800000, 0)) ∧
      special 4 x = (0x7FC00000, 1) ∧ special 5 x = (0x7FC00000, 1) ∧ special 6 x = (minus 0x3F800000, 0) ∧
      special 7 x = (if n then 0 else 0x3F800000, 0)) ∧
    ∀ m e, numOf fmtF32 x.toNat = .fin true m e → m ≠ 0 → special 1 x = (0x7FC00000, 1) ∧ special 3 x = (0x7FC00000, 1)

/-- R177: what is exact: `frcp` of powers of two, `frsq` of even powers, `fexp2` of integers and `flog2` of powers of two; and `fexp2`
from 128 on, and where its result is tiny. -/
def Sys2Proof.Claims.SpecialExact : Prop :=
  ∀ (x : Word) (n : Bool) (m : Nat) (e : Int), numOf fmtF32 x.toNat = .fin n m e →
    let v := rat n m e
    (∀ k : Int, -127 ≤ k → m ≠ 0 → v = (if n then -1 else 1) * (2 : ℚ) ^ k →
      (special 0 x).2 = 0 ∧ IsF32 (special 0 x).1 ((if n then -1 else 1) * (2 : ℚ) ^ (-k))) ∧
    (∀ k : Int, v = (2 : ℚ) ^ (2 * k) → (special 1 x).2 = 0 ∧ IsF32 (special 1 x).1 ((2 : ℚ) ^ (-k))) ∧
    (∀ k : Int, v = k → -149 ≤ k → k < 128 → (special 2 x).2 = (if k < -126 then 8 else 0) ∧ IsF32 (special 2 x).1 ((2 : ℚ) ^ k)) ∧
    (128 ≤ v → special 2 x = (0x7F800000, 4)) ∧
    (v < 128 → (special 2 x).2 = if v < -126 then 8 else 0) ∧
    ∀ k : Int, v = (2 : ℚ) ^ k → (special 3 x).2 = 0 ∧ IsF32 (special 3 x).1 k

/-- R177, R178, R66: the error bound of `frcp` and `frsq`, against the exact reciprocals: a result differs from them by no more than one
unit in the last place; a reciprocal that reaches 2^128 gives the infinity or the largest finite number of its sign (log 8). -/
def Sys2Proof.Claims.ReciprocalBounds : Prop :=
  ∀ (x : Word) (n : Bool) (m : Nat) (e : Int), numOf fmtF32 x.toNat = .fin n m e → m ≠ 0 →
    let v : ℝ := (valueOf n m e)⁻¹
    let close (w : Word) (y : ℝ) : Prop := ∃ n' m' e', numOf fmtF32 w.toNat = .fin n' m' e' ∧ n' = n ∧ |valueOf n' m' e' - y| ≤ ulp32 y
    (special 0 x).2 = 0 ∧
    (|v| < (2 : ℝ) ^ (128 : Int) → close (special 0 x).1 v) ∧
    ((2 : ℝ) ^ (128 : Int) ≤ |v| → numOf fmtF32 (special 0 x).1.toNat = .inf n ∨
      (special 0 x).1 = if n then 0xFF7FFFFF else 0x7F7FFFFF) ∧
    (n = false → (special 1 x).2 = 0 ∧ close (special 1 x).1 (Real.sqrt v))

/-- R177, R178: the choice among the results that a bound allows.  Whenever some code of a range lies within an error bound of a value
known to a slack, the result is such a code; which one is the free choice of log 8, so nothing here rests on it. -/
def Sys2Proof.Claims.ChoiceKeepsBound : Prop :=
  ∀ (fn : Nat) (x : Word) (a : Approx) (bound : Int × Int) (lo hi : Int), -ordMax - 1 ≤ lo → hi ≤ ordMax →
    let v : ℝ := a.val * (2 : ℝ) ^ a.exp
    let slack : ℝ := approxSlack * (2 : ℝ) ^ a.exp
    let bnd : ℝ := bound.1 * (2 : ℝ) ^ bound.2
    let fits (w : Word) : Prop := lo ≤ codeOrd w.toNat ∧ codeOrd w.toNat ≤ hi ∧ ∃ n m e, numOf fmtF32 w.toNat = .fin n m e ∧
      v + slack - bnd ≤ valueOf n m e ∧ valueOf n m e ≤ v - slack + bnd
    (∃ w, fits w) → fits (chooseSpecial fn x a bound lo hi)

/-- R177, R178: the special functions: that each is done, its special and its exact inputs, the bound of the reciprocals against the
exact values, and the choice of every other result within its bound. -/
def Obligations.SpecialFunctionResults : Prop :=
  Claims.SpecialFunctionsComplete ∧ Claims.SpecialInputs ∧ Claims.SpecialExact ∧ Claims.ReciprocalBounds ∧ Claims.ChoiceKeepsBound
/-! ## Branches, reconvergence, calls, loops, yields and the end of an entity -/

namespace Sys2Proof.Claims

/-- The entity of a state that has left its clause and stands at an address with some loop levels. -/
def StandsAt (t : State) (c : Cur) (a : Word64) (ls : List LoopLevel) : Prop :=
  ∃ e, tabGet t.ents c.eid = some e ∧ e.pc = a ∧ e.issue = none ∧ e.hold = none ∧ e.loops = ls

/-- The levels, outermost first, whose body a target lies in, up to the first that it lies outside of (R198). -/
def levelsAround (a : Word64) (ls : List LoopLevel) : List LoopLevel :=
  ls.takeWhile fun l => decide (l.start.toNat ≤ a.toNat) && decide (a.toNat < l.stop.toNat)

/-- The lanes of a stack slot's frame write of a call (R196): the return address below the call area, and the depth above it. -/
def pushed (c : Cur) (m : Nat) (t : Team) : Team :=
  c.frames.foldl (fun t l => (t.laneWrite l (m - 16 - 8 * c.t.depth m l) 8 c.i.after.toNat).laneWrite l (m - 8) 4 (c.t.depth m l + 1)) t
def popped (c : Cur) (m : Nat) (t : Team) : Team :=
  c.frames.foldl (fun t l => (t.laneWrite l (m - 8 - 8 * c.t.depth m l) 8 0).laneWrite l (m - 8) 4 (c.t.depth m l - 1)) t

/-- The state after the clauses's MODE write has taken effect, as it does at a trap (log 17). -/
def modeTaken (s : State) (c : Cur) : State :=
  match c.i.modeNew with
  | some m => s.modTeam c.e.team fun t => { t with mode := m }
  | none => s

end Sys2Proof.Claims

/-- R194, R19, R140: the uniform branches.  A taken one leaves its clause for header + 4 × offset, an untaken one for the next header;
`bany` needs an active lane, `ball` is taken where there is none. -/
def Sys2Proof.Claims.UniformBranches : Prop :=
  ∀ (s : State) (c : Cur), Standing s c →
    (∀ o : BitVec 12, exec (.bra o) s = .next (c.branch s (c.i.pc + BitVec.ofInt 64 (4 * o.toInt)))) ∧
    (∀ w : BitVec 32, exec (.jmp w) s = .next (c.branch s (c.i.pc + BitVec.ofInt 64 (4 * w.toInt)))) ∧
    (∀ (r : BitVec 6) (o : BitVec 12), exec (.bnz r o) s =
      .next (if c.t.sreg r.toNat ≠ 0 then c.branch s (c.i.pc + BitVec.ofInt 64 (4 * o.toInt)) else c.finish s)) ∧
    (∀ (r : BitVec 6) (o : BitVec 12), exec (.bz r o) s =
      .next (if c.t.sreg r.toNat = 0 then c.branch s (c.i.pc + BitVec.ofInt 64 (4 * o.toInt)) else c.finish s)) ∧
    (∀ (p : BitVec 3) (o : BitVec 12), exec (.bany p o) s =
      .next (if ∃ l, l < 1024 ∧ c.e.mask.getLsbD l = true ∧ (c.t.preg p.toNat).getLsbD l = true
        then c.branch s (c.i.pc + BitVec.ofInt 64 (4 * o.toInt)) else c.finish s)) ∧
    ∀ (p : BitVec 3) (o : BitVec 12), exec (.ball p o) s =
      .next (if ∀ l, l < 1024 → c.e.mask.getLsbD l = true → (c.t.preg p.toNat).getLsbD l = true
        then c.branch s (c.i.pc + BitVec.ofInt 64 (4 * o.toInt)) else c.finish s)

/-- R198, R54: a taken branch ends its clause at its target; it closes the first level whose body the target lies outside of and
every level inside that one, as `bra` and `jmp` do; going to an address as `call` and `ret` do closes none. -/
def Sys2Proof.Claims.BranchesCloseLevels : Prop :=
  ∀ (s : State) (c : Cur) (a : Word64), Standing s c → s.calm c.e.team →
    StandsAt (c.branch s a) c a (levelsAround a c.e.loops) ∧ StandsAt (c.jump s a) c a c.e.loops ∧
    (∀ x, (c.branch s a).byteAt x = s.byteAt x) ∧ ∀ x, (c.jump s a).byteAt x = s.byteAt x

/-- The frame of the uniform branches, taken or not, at a place where no loop level ends: every register file and descriptor, the flags
but for those of the clause's later passes, every other team and entity, what is in flight, and every byte of memory stay. -/
def Sys2Proof.Claims.UniformBranchFrame : Prop :=
  ∀ (s : State) (c : Cur), Standing s c → s.calm c.e.team → (∀ l ∈ c.e.loops, l.stop ≠ c.i.after) →
    ∀ (r : BitVec 6) (p : BitVec 3) (o : BitVec 12) (w : BitVec 32),
      ∀ i ∈ [Instr.bra o, .jmp w, .bnz r o, .bz r o, .bany p o, .ball p o], ∃ t u, exec i s = .next t ∧
        tabGet t.teams c.e.team = some u ∧ u.v = c.t.v ∧ u.o = c.t.o ∧ u.p = c.t.p ∧ u.b = c.t.b ∧ (c.i.vtos = [] → u.s = c.t.s) ∧
        u.flags = c.t.flags ||| c.i.flagsLate ∧ (∀ k, k ≠ c.e.team → tabGet t.teams k = tabGet s.teams k) ∧
        (∀ k, k ≠ c.eid → tabGet t.ents k = tabGet s.ents k) ∧ t.ops = s.ops ∧ t.copies = s.copies ∧ t.wgs = s.wgs ∧
        ∀ a, t.byteAt a = s.byteAt a

/-- R19, R140, R194, R198: the uniform branches, what they leave alone, and what a taken one does to loop levels. -/
def Obligations.Branches : Prop := Claims.UniformBranches ∧ Claims.UniformBranchFrame ∧ Claims.BranchesCloseLevels


/-- R23, R194: a per-lane branch that does not diverge: with no lane taken it falls through, with every active lane taken it goes to
its target. -/
def Sys2Proof.Claims.ConvergedLaneBranches : Prop :=
  ∀ (s : State) (c : Cur) (p : BitVec 3) (k : BitVec 4) (o : BitVec 12), Standing s c →
    (c.e.mask &&& c.t.preg p.toNat = 0 → exec (.bpt p k o) s = .next (c.finish s)) ∧
    (c.e.mask &&& ~~~c.t.preg p.toNat = 0 → exec (.bpf p k o) s = .next (c.finish s)) ∧
    (c.e.mask &&& c.t.preg p.toNat ≠ 0 → c.e.mask &&& ~~~(c.e.mask &&& c.t.preg p.toNat) = 0 →
      exec (.bpt p k o) s = .next (c.branch s (c.i.pc + BitVec.ofInt 64 (4 * o.toInt)))) ∧
    (c.e.mask &&& ~~~c.t.preg p.toNat ≠ 0 → c.e.mask &&& ~~~(c.e.mask &&& ~~~c.t.preg p.toNat) = 0 →
      exec (.bpf p k o) s = .next (c.branch s (c.i.pc + BitVec.ofInt 64 (4 * o.toInt))))

/-- R23: a divergence with a free split-table entry.  The smaller side, the taken one on a tie, becomes a new fragment with the
branch's token, the lowest free entry and this entity as its parent; the entity goes on with the rest. -/
def Sys2Proof.Claims.DivergenceDetachesMinority : Prop :=
  ∀ (s : State) (c : Cur) (p : BitVec 3) (k : BitVec 4) (o : BitVec 12) (n : Nat), Standing s c → s.calm c.e.team →
    ∀ r ∈ [(Instr.bpt p k o, c.t.preg p.toNat), (Instr.bpf p k o, ~~~c.t.preg p.toNat)], tabGet s.ents s.nextId = none →
    s.freeEntryOf (s.coreOf c.t) c.t.part = some n → (∀ l ∈ c.e.loops, l.stop ≠ c.i.after) →
    let taken := c.e.mask &&& r.2
    let falls := c.e.mask &&& ~~~taken
    let away := decide (popCount taken ≤ popCount falls)
    let target := c.i.pc + BitVec.ofInt 64 (4 * o.toInt)
    taken ≠ 0 → falls ≠ 0 →
    ∃ t f e, exec r.1 s = .next t ∧ tabGet t.ents s.nextId = some f ∧ tabGet t.ents c.eid = some e ∧
      f.mask = (if away then taken else falls) ∧ f.pc = (if away then target else c.i.after) ∧ f.token = k.toNat ∧
      f.parent = some c.eid ∧ f.entry = n ∧ f.team = c.e.team ∧ f.issue = none ∧
      e.mask = (if away then falls else taken) ∧ e.pc = (if away then c.i.after else target) ∧ e.issue = none ∧
      e.mask ||| f.mask = c.e.mask ∧ e.mask &&& f.mask = 0

/-- R23, R343, R364: the entry that a new fragment takes is the lowest that no fragment of its partition has, where the table has room beside the
fragments that moves chosen bring; a team that is saved or swapped out has none in it. -/
def Sys2Proof.Claims.EntryIsTheLowestFree : Prop :=
  ∀ (s : State) (core part n : Nat), tabGet s.ents s.nextId = none → (s.freeEntryOf core part = some n ↔
    let has (j : Nat) : Prop := ∃ x ∈ s.ents, s.hasEntry core part x.2 = true ∧ x.2.entry = j
    (s.ents.filter fun x => s.hasEntry core part x.2 || s.bringsEntry core part x.2).length < 16 ∧ n < 16 ∧ ¬ has n ∧ ∀ j < n, has j)

/-- R25, R199: a divergence with no free entry.  The smaller side waits in the branch's deferral slot with its address, uncounted and not yet at
an `rcv`, no entity appears, and the larger side goes on; an occupied slot is ILLOP.  With a free entry or without, a smaller side that falls
through to the end of a level is ILLOP, and a larger one that falls through there follows its entity's levels. -/
def Sys2Proof.Claims.DivergenceWithoutEntry : Prop :=
  ∀ (s : State) (c : Cur) (p : BitVec 3) (k : BitVec 4) (o : BitVec 12), Standing s c → s.calm c.e.team →
    ∀ r ∈ [(Instr.bpt p k o, c.t.preg p.toNat), (Instr.bpf p k o, ~~~c.t.preg p.toNat)],
    let taken := c.e.mask &&& r.2
    let falls := c.e.mask &&& ~~~taken
    let away := decide (popCount taken ≤ popCount falls)
    let target := c.i.pc + BitVec.ofInt 64 (4 * o.toInt)
    let full := s.freeEntryOf (s.coreOf c.t) c.t.part = none
    taken ≠ 0 → falls ≠ 0 →
    (away = false → (∃ l ∈ c.e.loops, l.stop = c.i.after) → exec r.1 s = .next (c.illop s)) ∧
    (full → (tabGet c.e.slots k.toNat).isSome → exec r.1 s = .next (c.illop s)) ∧
    (full → tabGet c.e.slots k.toNat = none → (∀ l ∈ c.e.loops, l.stop ≠ c.i.after) →
      ∃ t e sl, exec r.1 s = .next t ∧ (∀ j, j ≠ c.eid → tabGet t.ents j = tabGet s.ents j) ∧ tabGet t.ents c.eid = some e ∧
        tabGet e.slots k.toNat = some sl ∧ sl.mask = (if away then taken else falls) ∧ sl.pc = (if away then target else c.i.after) ∧
        sl.count = 0 ∧ sl.arrived = false ∧ e.mask = (if away then falls else taken) ∧ e.pc = (if away then c.i.after else target) ∧
        e.issue = none) ∧
    ∀ ls a, away = true → (full → tabGet c.e.slots k.toNat = none) → tabGet s.ents s.nextId = none →
      loopNext (if c.e.isFrag then c.e.inherited else 0) c.e.loops.reverse c.i.after = some (ls, a) →
      ∃ t, exec r.1 s = .next t ∧ StandsAt t c a ls.reverse

/-- R23, R25, R194, R199: the per-lane branches, converged and diverging, with a free entry and without. -/
def Obligations.LaneBranches : Prop :=
  Claims.ConvergedLaneBranches ∧ Claims.DivergenceDetachesMinority ∧ Claims.EntryIsTheLowestFree ∧ Claims.DivergenceWithoutEntry


/-- R24, R50: `rcv` of an entity without a deferral slot on the token.  With nothing to wait for or at it has no effect; while a fragment of
the token runs the entity waits; once all have stopped they merge into it; and a fragment stops at its own token, but is ILLOP there with a
loop level of its own still open. -/
def Sys2Proof.Claims.ReconvergenceAtRcv : Prop :=
  ∀ (s : State) (c : Cur) (k : BitVec 4), Standing s c → s.calm c.e.team → tabGet c.e.slots k.toNat = none →
    let mine := (s.ents.filter fun x => x.2.parent == some c.eid).filter fun x => x.2.token == k.toNat
    (mine = [] → (c.e.parent = none ∨ c.e.token ≠ k.toNat) → exec (.rcv k) s = .next (c.done s 1 c.t c.i)) ∧
    (∀ x ∈ mine, x.2.hold ≠ some .merge → exec (.rcv k) s = .next (c.waiting s .rcv)) ∧
    (c.e.parent = none → c.inside 1 → mine ≠ [] → (∀ x ∈ mine, x.2.hold = some .merge) → tabSorted 0 s.ents = true →
      (∀ x ∈ mine, x.1 ≠ c.eid) →
      ∃ t e, exec (.rcv k) s = .next t ∧ tabGet t.ents c.eid = some e ∧
        e.mask = mine.foldl (fun m x => m ||| x.2.mask) c.e.mask ∧ ∀ x ∈ mine, tabGet t.ents x.1 = none) ∧
    (∀ q, c.e.parent = some q → (tabGet s.ents q).isSome → c.e.token = k.toNat → c.e.loops.length ≤ c.e.inherited → c.e.slots = [] →
      (s.ents.filter fun x => x.2.parent == some c.eid) = [] → exec (.rcv k) s = .next (c.waiting s .merge)) ∧
    (∀ q, c.e.parent = some q → (tabGet s.ents q).isSome → c.e.token = k.toNat → c.e.inherited < c.e.loops.length →
      (∀ x ∈ c.e.slots, x.2.minority = false) → mine = [] → exec (.rcv k) s = .next (c.illop s))

/-- R25: at the `rcv` of a deferral slot whose inactive path has not come, the two paths are exchanged; when it has come, the masks
are joined and the slot is emptied. -/
def Sys2Proof.Claims.DeferredPathsSwitch : Prop :=
  ∀ (s : State) (c : Cur) (k : BitVec 4) (sl : Slot), Standing s c → s.calm c.e.team → tabGet c.e.slots k.toNat = some sl →
    (sl.arrived = false → ∃ t e x, exec (.rcv k) s = .next t ∧ tabGet t.ents c.eid = some e ∧ e.mask = sl.mask ∧ e.pc = sl.pc ∧
      e.issue = none ∧ tabGet e.slots k.toNat = some x ∧ x.mask = c.e.mask ∧ x.pc = c.i.pc ∧ x.arrived = true) ∧
    (sl.arrived = true → c.inside 1 → (c.e.parent = none ∨ c.e.token ≠ k.toNat) → (s.ents.filter fun x => x.2.parent == some c.eid && x.2.token == k.toNat) = [] →
      tabSorted 0 c.e.slots = true →
      ∃ t e, exec (.rcv k) s = .next t ∧ tabGet t.ents c.eid = some e ∧ e.mask = c.e.mask ||| sl.mask ∧
        tabGet e.slots k.toNat = none ∧ e.issue = some { c.i with next := c.i.next + 1 })

/-- R24, R25, R50: `rcv` of fragments and of deferral slots. -/
def Obligations.Reconvergence : Prop := Claims.ReconvergenceAtRcv ∧ Claims.DeferredPathsSwitch


/-- R195, R196, R130: calls and returns.  With room in every frame lane a call stores the address of the next header and one more
depth, and goes to its target; without, it is XLANE.  `ret` takes the one address that the frame lanes hold.  An address that is no
word's is ALGN. -/
def Sys2Proof.Claims.CallsAndReturns : Prop :=
  ∀ (s : State) (c : Cur), Standing s c →
    let m := c.laneMax s
    let room := ∀ l ∈ c.frames, c.t.laneSize + 8 * (c.t.depth m l + 2) ≤ m
    let top (l : Nat) : Nat := c.t.laneRead l (m - 8 - 8 * c.t.depth m l) 8
    (∀ w : BitVec 32, room → exec (.call w) s =
      .next (c.jump (s.modTeam c.e.team (pushed c m)) (c.i.pc + BitVec.ofInt 64 (4 * w.toInt)))) ∧
    (∀ w : BitVec 32, ¬ room → exec (.call w) s = .next (c.exhaust s cXLANE)) ∧
    (∀ x : BitVec 5, (c.t.xreg x.toNat).toNat % 4 = 0 → room →
      exec (.callr x) s = .next (c.jump (s.modTeam c.e.team (pushed c m)) (c.t.xreg x.toNat))) ∧
    (∀ x : BitVec 5, (c.t.xreg x.toNat).toNat % 4 = 0 → exec (.jr x) s = .next (c.branch s (c.t.xreg x.toNat))) ∧
    (∀ x : BitVec 5, (c.t.xreg x.toNat).toNat % 4 ≠ 0 →
      exec (.callr x) s = .next (c.raise s cALGN (c.t.xreg x.toNat).toNat) ∧
      exec (.jr x) s = .next (c.raise s cALGN (c.t.xreg x.toNat).toNat)) ∧
    (∀ a : Nat, (∀ l ∈ c.frames, c.t.depth m l ≠ 0 ∧ top l = a) → c.frames ≠ [] →
      exec .ret s = .next (c.jump (s.modTeam c.e.team (popped c m)) (BitVec.ofNat 64 a))) ∧
    ((∃ l ∈ c.frames, c.t.depth m l = 0 ∨ top l ≠ top (c.frames.headD 0)) → exec .ret s = .next (c.illop s))

/-- R91, R195: a number written to bytes of a lane's region reads back there, and every byte of another lane or outside them stays. -/
def Sys2Proof.Claims.LaneBytesReadBack : Prop :=
  ∀ (t : Team) (lane off n x : Nat), off + n ≤ 4294967296 →
    (t.laneWrite lane off n x).laneRead lane off n = x % 256 ^ n ∧
    ∀ lane' off' k, off' + k ≤ 4294967296 → (lane' ≠ lane ∨ off' + k ≤ off ∨ off + n ≤ off') →
      (t.laneWrite lane off n x).laneRead lane' off' k = t.laneRead lane' off' k

/-- R91, R130, R195, R196: calls and returns, and the lane bytes that hold their frames. -/
def Obligations.CallsAndLaneBytes : Prop := Claims.CallsAndReturns ∧ Claims.LaneBytesReadBack


/-- R197, R198: `loop` and `loopi` open the next level over the body that follows, or skip a body of no iteration; `lbrk` leaves its level
for the body's end. -/
def Sys2Proof.Claims.LoopsOpenAndBreak : Prop :=
  ∀ (s : State) (c : Cur) (v : BitVec 2), Standing s c → s.calm c.e.team →
    let st := c.i.after
    let fits (en : Word64) : Prop := v.toNat = c.e.loops.length ∧
      ∀ l, c.e.loops.getLast? = some l → l.start.toNat ≤ st.toNat ∧ en.toNat ≤ l.stop.toNat
    (∀ (r : BitVec 6) (n : BitVec 10), let en := st + BitVec.ofNat 64 (4 * n.toNat)
      fits en → ∃ t, exec (.loop v r n) s = .next t ∧
        if c.t.sreg r.toNat = 0 then StandsAt t c en c.e.loops
        else StandsAt t c st (c.e.loops ++ [{ count := c.t.sreg r.toNat, start := st, stop := en }])) ∧
    (∀ (k : BitVec 8) (n : BitVec 10), let en := st + BitVec.ofNat 64 (4 * n.toNat)
      fits en → k ≠ 0 → ∃ t, exec (.loopi v k n) s = .next t ∧
        StandsAt t c st (c.e.loops ++ [{ count := k.setWidth 32, start := st, stop := en }])) ∧
    (∀ (r : BitVec 6) (n : BitVec 10), ¬ fits (st + BitVec.ofNat 64 (4 * n.toNat)) → exec (.loop v r n) s = .next (c.illop s)) ∧
    (∀ l, c.e.loops[v.toNat]? = some l → (c.e.parent = none ∨ c.e.inherited ≤ v.toNat) →
      ∃ t, exec (.lbrk v) s = .next t ∧ StandsAt t c l.stop (c.e.loops.take v.toNat)) ∧
    (c.e.loops.length ≤ v.toNat → exec (.lbrk v) s = .next (c.illop s))

/-- R198: the sequential end of a body.  Where the innermost level has iterations left, its count falls and the body starts again;
where it has none, the level closes and the next outer one is tested; elsewhere nothing changes. -/
def Sys2Proof.Claims.LoopContinuation : Prop :=
  ∀ (l : LoopLevel) (ls : List LoopLevel) (a : Word64) (inh : Nat), inh ≤ ls.length →
    (a ≠ l.stop → loopNext inh (l :: ls) a = some (l :: ls, a)) ∧
    (a = l.stop → l.count ≠ 1 → loopNext inh (l :: ls) a = some ({ l with count := l.count - 1 } :: ls, l.start)) ∧
    (a = l.stop → l.count = 1 → loopNext inh (l :: ls) a = loopNext inh ls a) ∧
    (loopNext inh [] a = some ([], a)) ∧
    (a = l.stop → loopNext (ls.length + 1) (l :: ls) a = none)

/-- R197, R198: loops. -/
def Obligations.Loops : Prop := Claims.LoopsOpenAndBreak ∧ Claims.LoopContinuation


/-- R200 to R203, R21: `nop` does nothing; `yield` sets LIVE and the deadline and ends its clause; `yieldc` does the same once, and goes to its
target once the counters allow; `wait` holds its entity until they do, a field of 7 asking for nothing;
four fields of 7 observe nothing (R126). -/
def Obligations.YieldsAndWaits : Prop :=
  ∀ (s : State) (c : Cur), Standing s c →
    exec .nop s = .next (c.done s 1 c.t c.i) ∧
    (∀ (d : BitVec 4) (l : BitVec 7), exec (.yield d l) s = .next (c.finish (s.yieldTeam c.e.team d.toNat l.toNat))) ∧
    (∀ (d l : Nat), ∃ t, tabGet (s.yieldTeam c.e.team d l).teams c.e.team = some t ∧ t.live = l ∧ t.deadline = 2 ^ (d + 8) ∧
      t.retired = 0 ∧ t.s = c.t.s ∧ t.v = c.t.v ∧ t.flags = c.t.flags) ∧
    (∀ a b p q : BitVec 3,
      let met := (a = 7 ∨ c.t.cnt .ld ≤ a.toNat) ∧ (b = 7 ∨ c.t.cnt .st ≤ b.toNat) ∧ (p = 7 ∨ c.t.cnt .cp ≤ p.toNat) ∧
        (q = 7 ∨ c.t.cnt .tl ≤ q.toNat)
      let all := a = 7 ∧ b = 7 ∧ p = 7 ∧ q = 7
      (met → exec (.wait a b p q) s = .next (c.advance (if all then s else s.observe c.t) 1)) ∧
      (¬ met → exec (.wait a b p q) s = .next (c.holdAt s .counters)) ∧
      ∀ (d : BitVec 4) (n : BitVec 7) (o : BitVec 21),
        let s' := if c.e.hold = some .yieldc then s else s.yieldTeam c.e.team d.toNat n.toNat
        (met → exec (.yieldc a b p q d n o) s = .next (c.branch (if all then s' else s'.observe c.t)
          (c.i.pc + BitVec.ofInt 64 (4 * o.toInt)))) ∧
        (¬ met → exec (.yieldc a b p q d n o) s = .next (c.holdAt s' .yieldc)))

/-- R202: `exit` of an entity without a deferred path ends it: its lanes retire with it, its trap slot is free (log 33), and what other
entities hold, what it has in flight and every byte of memory stay.  A team entity that leaves fragments leaves them running: their
parent is gone, and at an `rcv` of theirs they go on, as orphans, without effect (for a fragment's fragments that is log 32). -/
def Obligations.ExitEndsEntity : Prop :=
  (∀ (s : State) (c : Cur), Standing s c → s.calm c.e.team → tabSorted 0 s.ents = true → c.e.slots = [] →
    ∃ t, exec .exit s = .next t ∧ tabGet t.ents c.eid = none ∧ (∀ k, k ≠ c.eid → tabGet t.ents k = tabGet s.ents k) ∧
      (∀ i, c.e.handler = some i → tabSorted 0 (s.ctx (s.ctxOf c.t)).traps = true → tabGet (t.ctx (s.ctxOf c.t)).traps i = none) ∧
      (∀ a, t.byteAt a = s.byteAt a) ∧ t.ops = s.ops ∧ t.copies = s.copies) ∧
  ∀ (s : State) (c : Cur) (k : BitVec 4) (q : Nat), Standing s c → c.e.parent = some q → tabGet s.ents q = none →
    tabGet c.e.slots k.toNat = none → (∀ x ∈ s.ents, x.2.parent = some c.eid → x.2.token ≠ k.toNat) →
    exec (.rcv k) s = .next (c.done s 1 c.t c.i)

/-! ## Faults, traps and the return from them -/

/-- R202, R324, R325: `trap` raises TRAP with its code, and its resume point is the word after it.  Where the fault is trapped, the
entity continues at TVEC in handler state with the slot's address in `x31`, the cause in `s60`, 0 in `s61`, its mask and its other
registers; where it is not, the entity ends. -/
def Obligations.TrapInstruction : Prop :=
  ∀ (s : State) (c : Cur) (code : BitVec 16), Standing s c → s.calm c.e.team →
    ∃ f : FaultInfo, f.cause = cTRAP ∧ f.code = code.toNat ∧ f.word = c.i.next + 1 ∧ f.resumePc = c.i.pc ∧ f.resume = c.i.next + 2 ∧
      f.lanes = c.e.mask ∧ f.defer = false ∧
      exec (.trap code) s = .next (c.raiseWith s f) ∧
      (∀ i, (modeTaken s c).trapSlot c.e c.t f = some i → ∃ t e u, exec (.trap code) s = .next t ∧
        tabGet t.ents c.eid = some e ∧ tabGet t.teams c.e.team = some u ∧ e.handler = some i ∧ e.pc = (s.ctx (s.ctxOf c.t)).tvec ∧
        e.issue = none ∧ e.mask = c.e.mask ∧ e.loops = c.e.loops ∧ u.sreg 60 = BitVec.ofNat 32 cTRAP ∧ u.sreg 61 = 0 ∧
        u.xreg 31 = BitVec.ofNat 64 ((s.ctx (s.ctxOf c.t)).slotAddr i) ∧ u.v = c.t.v ∧ u.p = c.t.p ∧ u.flags = c.t.flags ∧
        u.mode = c.i.modeNew.getD c.t.mode ∧ ∀ n, n < 60 → u.sreg n = c.t.sreg n) ∧
      ((modeTaken s c).trapSlot c.e c.t f = none → tabSorted 0 s.ents = true → c.e.slots = [] →
        ∃ t, exec (.trap code) s = .next t ∧ tabGet t.ents c.eid = none)

/-- R324, R325, R397: a fault is trapped exactly where TRAPEN is set, the cause's class bit is set in TMASK, the entity is not in a handler,
the record is not deferred, a slot is free and it can be written, now or, where the walk for it waits for a port, then (log 44); the slot is
the lowest free one. -/
def Sys2Proof.Claims.TrapRouting : Prop :=
  ∀ (s : State) (e : Entity) (t : Team) (f : FaultInfo) (i : Nat),
    let x := s.ctx (s.ctxOf t)
    s.trapSlot e t f = some i ↔
      x.trapEn = true ∧ (∃ b, causeClass f.cause = some b ∧ bitOf x.tmask b = true) ∧ e.handler = none ∧ f.defer = false ∧
      i < x.tslots ∧ i ∉ x.traps.map (·.1) ∧ (∀ j < i, j ∈ x.traps.map (·.1)) ∧
      (s.storeWaits (coreStack (s.coreOf t)) (s.ctxOf t) (x.slotAddr i) 128 = true ∨
        ∃ p q, s.xlateAll (coreStack (s.coreOf t)) (s.ctxOf t) .store (x.slotAddr i) 8 = .ok p q)

/-- R324: the classes of the causes, and the causes that are never trapped. -/
def Sys2Proof.Claims.TrapClasses : Prop :=
  (∀ c ∈ [cILLOP, cILLCL, cILLPV], causeClass c = some 0) ∧
  (∀ c ∈ [cPGPR, cPGXN, cTAGF, cBNDF, cALGN, cSPBND, cBAROV, cWINV, cPGNP], causeClass c = some 1) ∧
  (∀ c ∈ [cSGF, cXAC], causeClass c = some 2) ∧ (∀ c ∈ [cGMIS, cLDEPTH, cFMTF, cNDET], causeClass c = some 3) ∧
  causeClass cTRAP = some 4 ∧ causeClass cBRK = some 5 ∧
  ∀ c ∈ [cYDL, cHANG, cXREG, cXSPAD, cXLANE, cXALW], causeClass c = none

/-- R324, R325, R397: which faults are trapped, and into which slot. -/
def Obligations.TrapRoutingAndClasses : Prop := Claims.TrapRouting ∧ Claims.TrapClasses


/-- R324, R202: a precise fault that is not trapped ends its entity and marks its grid, and no other entity is touched. -/
def Sys2Proof.Claims.UntrappedFaultEndsEntity : Prop :=
  ∀ (s : State) (eid : Nat) (e : Entity) (t : Team) (f : FaultInfo), tabGet s.ents eid = some e → tabGet s.teams e.team = some t →
    tabSorted 0 s.ents = true → e.slots = [] → s.trapSlot e t f = none →
    tabGet (s.deliver eid f).ents eid = none ∧ (∀ k, k ≠ eid → tabGet (s.deliver eid f).ents k = tabGet s.ents k) ∧
    ∀ w, tabGet s.wgs t.wg = some w → ∀ g, tabGet s.grids w.grid = some g →
      ∃ h, tabGet (s.deliver eid f).grids w.grid = some h ∧ h.faulted = true

/-- R325, R340: trap entry writes 128 bytes at the slot: the record, the resume point, and `s60` to `s63`, with zeros in the fields that
are reserved; where the walk for it has no port to cross, at once. -/
def Sys2Proof.Claims.TrapEntryWritesSlot : Prop :=
  ∀ (s : State) (eid : Nat) (e : Entity) (t : Team) (f : FaultInfo) (i : Nat), tabGet s.ents eid = some e → tabGet s.teams e.team = some t →
    ∃ bytes : List Byte, bytes.length = 128 ∧
      (s.wgOf t ≠ none → bytes.take 64 = (s.recordBytes t f true).take 64) ∧
      ((s.wgOf t ≠ none) → leNat ((bytes.drop 64).take 8) = f.resumePc.toNat ∧ leNat ((bytes.drop 72).take 4) = f.resume % 4294967296 ∧
        (∀ j < 4, leNat ((bytes.drop (80 + 4 * j)).take 4) = (t.sreg (60 + j)).toNat) ∧
        (bytes.drop 76).take 4 = List.replicate 4 0 ∧ bytes.drop 96 = List.replicate 32 0) ∧
      (s.wgOf t ≠ none → (s.trapEnter eid e t f i).mem =
        ((s.deviceSend (coreStack (s.coreOf t)) (s.ctxOf t) ((s.ctx (s.ctxOf t)).slotAddr i) bytes).fqWrite
          (coreStack (s.coreOf t)) (s.ctxOf t) ((s.recordBytes t f true).drop 64)).mem) ∧
      (s.storeWaits (coreStack (s.coreOf t)) (s.ctxOf t) ((s.ctx (s.ctxOf t)).slotAddr i) 128 = false →
        s.deviceSend (coreStack (s.coreOf t)) (s.ctxOf t) ((s.ctx (s.ctxOf t)).slotAddr i) bytes =
          s.deviceStore (coreStack (s.coreOf t)) (s.ctxOf t) ((s.ctx (s.ctxOf t)).slotAddr i) bytes)

/-- R324, R325, R340: what a fault does that is not trapped, and what one that is trapped writes. -/
def Obligations.FaultDelivery : Prop := Claims.UntrappedFaultEndsEntity ∧ Claims.TrapEntryWritesSlot


/-- R328: `tret`.  Outside a handler it is ILLOP.  It waits for a store of the handler to the slot's bytes (R111, log 37) and for a port that its
reads need (log 44); a slot that it may not read is the fault of that read, and one without a mapping PGNP (log 37).  Else the resume point comes
from the slot: with k out of range for its clause it is ILLOP; with k in range `s60` to `s63` come back, the slot is free, and the entity stands
at word k of that clause outside handler state, or, with k = N + 1, at the header after it. -/
def Obligations.TretReturns : Prop :=
  ∀ (s : State) (c : Cur), Standing s c → s.calm c.e.team →
    (c.e.handler = none → exec .tret s = .next (c.illop s)) ∧
    ∀ i, c.e.handler = some i →
      let ctx := s.ctxOf c.t
      let stack := s.stackOf c.t
      let slot := (s.ctx ctx).slotAddr i + 64
      let waits := s.storingTo c.eid slot 32 = true ∨ s.rangeWaits stack ctx [.load] slot 32 = true ∨
        s.accessWaits stack ctx .fetch (s.slotResume stack ctx i).1.toNat 4 = true
      let read := s.rangeCheck stack ctx [.load] slot 32
      (waits → exec .tret s = .next (c.waiting s .order)) ∧
      (¬ waits → ∀ x a b, read = .fault x a b → exec .tret s = .next (c.raiseWith s { c.fault x a with addr2 := b })) ∧
      (¬ waits → ∀ a, read = .absent a → exec .tret s = .next (c.raise s cPGNP a)) ∧
      (¬ waits → read = .ok →
        let o := (s.observe c.t).touchRange stack ctx slot 32
        let b := o.deviceLoad stack ctx slot 32
        let h : Word64 := BitVec.ofNat 64 (leNat (b.take 8))
        let k := leNat ((b.drop 8).take 4) % 32
        let n := match o.headerAt c.t h with | some w => w % 16 | none => 15
        let back (e : Entity) (u : Team) (t : State) : Prop := exec .tret s = .next t ∧ tabGet t.ents c.eid = some e ∧
          tabGet t.teams c.e.team = some u ∧ e.handler = none ∧ e.issue = none ∧ e.mask = c.e.mask ∧
          (∀ j < 4, u.sreg (60 + j) = BitVec.ofNat 32 (leNat ((b.drop (16 + 4 * j)).take 4))) ∧
          tabGet (t.ctx ctx).traps i = none
        (k = 0 ∨ n + 1 < k → exec .tret s = .next (c.illop (o.touch stack ctx .fetch h.toNat))) ∧
        (k ≠ 0 → k ≤ n → tabSorted 0 (o.ctx ctx).traps = true → ∃ t e u, back e u t ∧ e.pc = h ∧ e.word = k) ∧
        (k = n + 1 → tabSorted 0 (o.ctx ctx).traps = true → (∀ l ∈ c.e.loops, l.stop ≠ h + BitVec.ofNat 64 (4 * (n + 1))) →
          ∃ t e u, back e u t ∧ e.pc = h + BitVec.ofNat 64 (4 * (n + 1)) ∧ e.word = 0))
/-! ## Loads, stores, atomics and fences -/

namespace Sys2Proof.Claims

/-- Every request that makes an access has a pointer whose bits [59:57] are zero and a page that gives no fault (R87, R100). -/
def PagesPass (s : State) (c : Cur) (a : Acc) (rs : List LaneReq) : Prop :=
  a.space = .global → ∀ r ∈ rs, r.fill = none → bitsOf (ptrOf r.addr) 59 57 = 0 ∧
    ∀ x p q, s.teamXlate c.t a.acc (ptrOf r.addr) a.size ≠ .fault x p q

/-- A vector access executes normally: a lane is active, the grant was not passed at the clause's issue (R44), its counter has room (R51), no
walk of its waits for a port (R385), its pages pass, the replay queue has room (R104), and every lane that makes an access meets `ok`. -/
def Passes (s : State) (c : Cur) (a : Acc) (rs : List LaneReq) (ok : LaneReq → Prop) : Prop :=
  Room c ∧ c.t.cnt a.cnt < 63 ∧ s.walksWait c.t a rs = false ∧ PagesPass s c a rs ∧ c.fits s a rs = true ∧
  ∀ r ∈ rs, r.fill = none → r.addr % a.size = 0 ∧ ok r

/-- The access that each load, store and atomic is. -/
def loadAcc (sp : Space) (z : LdSz) (u acq l2 : Bool) (d : VOp) : Acc :=
  { kind := .load, acc := .load, space := sp, size := (ldBytes z).1, signed := (ldBytes z).2, uniform := u, dest := destOf d
    acq := acq, l2 := l2, cnt := .ld }
def storeAcc (sp : Space) (z : StSz) (rel l2 : Bool) : Acc :=
  { kind := .store, acc := .store, space := sp, size := stBytes z, rel := rel, l2 := l2, cnt := .st }

/-- The loads and the stores of the explicit levels (R214). -/
def levelLoads : List ((LdSz → Bool → VOp → BitVec 4 → VOp → Option (BitVec 32) → Instr) × Space) :=
  [(.ldsp, .spad), (.ldcl, .clmem), (.ldst, .stmem), (.ldlp, .lane)]
def levelStores : List ((StSz → Bool → BitVec 4 → VOp → Option (BitVec 32) → VOp → Instr) × Space) :=
  [(.stsp, .spad), (.stcl, .clmem), (.stst, .stmem), (.stlp, .lane)]

/-- A lane of a space access lies within the allocation (R209). -/
def Within (s : State) (c : Cur) (sp : Space) (n : Nat) (r : LaneReq) : Prop := 0 ≤ r.addr ∧ r.addr + n ≤ c.spaceSize s sp

/-- The atomics of global memory, and those of SPAD and CLMEM (R217, R218, R220). -/
noncomputable def globalAtomics : List ((AOrd → ATy → VOp → BitVec 4 → VOp → Instr) × AtomicOp) :=
  [ (.aadd, .add), (.amin, .min), (.amax, .max), (.aand, .and), (.aor, .or), (.axor, .xor), (.axch, .xch), (.acas, .cas),
    (fun o _ => .aacc o, .acc), (fun o t => .ainc o (t == .n32), .inc) ]
noncomputable def spaceAtomics : List ((AOrd → Sp → ATy → VOp → VOp → Instr) × AtomicOp) :=
  [ (.aaddSpace, .add), (.aminSpace, .min), (.amaxSpace, .max), (.aandSpace, .and), (.aorSpace, .or), (.axorSpace, .xor),
    (.axchSpace, .xch), (.acasSpace, .cas), (fun o p _ => .aaccSpace o p, .acc), (fun o p t => .aincSpace o p (t == .n32), .inc) ]

/-- The type an atomic works on: `aacc` is of 64 bits, `ainc` of i32 or n32. -/
def atomTy (op : AtomicOp) (t : ATy) : ATy :=
  match op with
  | .acc => .b64
  | .inc => if t = .n32 then .n32 else .i32
  | _ => t

end Sys2Proof.Claims

/-- R208, R210, R212, R213: a global load or store whose lanes are aligned, whose pages pass, and, for a store of a compute phase, whose
bytes lie in the window, is issued: one operation for its lanes, their pointers being xB + V + offset modulo 2^64. -/
def Sys2Proof.Claims.GlobalAccessesIssue : Prop :=
  ∀ (s : State) (c : Cur) (b : BitVec 4) (v d : VOp) (off : Option (BitVec 32)), Standing s c →
    (∀ (z : LdSz) (o : LdOrd) (p : Pol),
      let a := loadAcc .global z (isUniform v) (o == .acq) (p == .l2 || o == .stream) d
      let rs := c.globalReqs (isUniform v) b.toNat v (offInt off) fun _ => []
      Passes s c a rs (fun _ => True) →
        exec (.ldg z o p d b v off) s = .next (c.advance (c.launchAccess s a rs) (wordsOf off))) ∧
    (∀ (z : StSz) (o : StOrd) (p : Pol),
      let a := storeAcc .global z (o == .rel) (p == .l2 || o == .stream)
      let rs := c.globalReqs false b.toNat v (offInt off) (c.storeData (stBytes z) d)
      Passes s c a rs (fun r => s.windowOk c.t (ptrOf r.addr) (stBytes z) = true) →
        exec (.stg z o p b v off d) s = .next (c.advance (c.launchAccess s a rs) (wordsOf off))) ∧
    ∀ (u : Bool) (data : Nat → List Byte), ∀ r ∈ c.globalReqs u b.toNat v (offInt off) data, r.lane ∈ lanesOf c.e.mask c.t.lanes ∧
      r.addr = (((c.t.xreg b.toNat).toNat : Int) + ((c.offsets v).getD r.lane 0).toNat + offInt off) % 18446744073709551616

/-- R209, R214, R103: a load or store of SPAD, CLMEM, STMEM or LANE within its allocation is issued, its offsets being sB + V + offset
without wrapping; a store may reach no resident granule, and one to STMEM no compute phase. -/
def Obligations.LevelAccessesIssue : Prop :=
  ∀ (s : State) (c : Cur) (q : Bool) (b : BitVec 4) (v d : VOp) (off : Option (BitVec 32)), Standing s c →
    (∀ r ∈ levelLoads, ∀ z : LdSz,
      let u := isUniform v && r.2 != .lane
      let a := loadAcc r.2 z u q false d
      let rs := c.spaceReqs u b.toNat v (offInt off) fun _ => []
      Passes s c a rs (Within s c r.2 (ldBytes z).1) →
        exec (r.1 z q d b v off) s = .next (c.advance (c.launchAccess s a rs) (wordsOf off))) ∧
    (∀ r ∈ levelStores, ∀ z : StSz,
      let a := storeAcc r.2 z q false
      let rs := c.spaceReqs false b.toNat v (offInt off) (c.storeData (stBytes z) d)
      Passes s c a rs (fun x => Within s c r.2 (stBytes z) x ∧ s.anyResident c.t.wg r.2 (ptrOf x.addr) (stBytes z) = false) →
      (r.2 = .stmem → s.inPhase c.t = false) →
        exec (r.1 z q b v off d) s = .next (c.advance (c.launchAccess s a rs) (wordsOf off))) ∧
    ∀ (u : Bool) (data : Nat → List Byte), ∀ r ∈ c.spaceReqs u b.toNat v (offInt off) data,
      r.addr = ((c.t.sreg (2 * b.toNat)).toNat : Int) + ((c.offsets v).getD r.lane 0).toNat + offInt off

/-- R97, R215: a buffer access whose offsets are aligned, and in bounds or allowed to be out of them by the descriptor, is issued as a
global access; an out-of-bounds load lane is a fill and an out-of-bounds store lane is dropped. -/
def Obligations.BufferAccessesIssue : Prop :=
  ∀ (s : State) (c : Cur) (l : Bool) (b : BitVec 4) (v d : VOp) (off : Option (BitVec 32)), Standing s c →
    let x := c.t.breg b.toNat
    (∀ (z : LdSz) (o : LdOrd),
      let a := loadAcc .global z (isUniform v) (o == .acq) (l || o == .stream) d
      let rs := c.bufferReqs (isUniform v) v (offInt off) fun _ => []
      (∀ r ∈ rs, r.addr % a.size = 0 ∧ (x.flags.getLsbD 0 = true ∨ (0 ≤ r.addr ∧ r.addr + a.size ≤ x.len.toNat))) →
      Passes s c a (x.lanes a.size false rs) (fun _ => True) →
        exec (.ldb z o l d b v off) s = .next (c.advance (c.launchAccess s a (x.lanes a.size false rs)) (wordsOf off))) ∧
    (∀ (z : StSz) (o : StOrd),
      let a := storeAcc .global z (o == .rel) (l || o == .stream)
      let rs := c.bufferReqs false v (offInt off) (c.storeData (stBytes z) d)
      x.flags.getLsbD 5 = false →
      (∀ r ∈ rs, r.addr % a.size = 0 ∧ (x.flags.getLsbD 1 = true ∨ (0 ≤ r.addr ∧ r.addr + a.size ≤ x.len.toNat))) →
      Passes s c a (x.lanes a.size true rs) (fun r => s.windowOk c.t (ptrOf r.addr) (stBytes z) = true) →
        exec (.stb z o l b v off d) s = .next (c.advance (c.launchAccess s a (x.lanes a.size true rs)) (wordsOf off))) ∧
    ∀ (n : Nat) (st : Bool) (rs : List LaneReq), ∀ r ∈ x.lanes n st rs, r.fill = none → (∀ y ∈ rs, y.fill = none) →
      ∃ y ∈ rs, 0 ≤ y.addr ∧ y.addr + n ≤ x.len.toNat ∧ r.addr = ((x.base.toNat : Int) + y.addr) % 18446744073709551616

/-- R100, R217, R218, R221, R37: an atomic whose lanes are aligned and pass their checks is issued.  A global atomic of a compute phase is WINV on
every active lane, whatever its address; and under MODE.DET a float addition, global or of a space, is NDET before any other check. -/
def Obligations.AtomicsIssue : Prop :=
  ∀ (s : State) (c : Cur) (o : AOrd) (t : ATy) (d v : VOp) (b : BitVec 4) (p : Sp), Standing s c →
    (∀ r ∈ globalAtomics, c.detFault r.2 (atomTy r.2 t) = false → s.inPhase c.t = false →
      let a := atomAcc r.2 (atomTy r.2 t) o .global d
      let rs := c.globalReqs false b.toNat v 0 (c.atomData r.2 (atomTy r.2 t) d)
      Passes s c a rs (fun _ => True) → exec (r.1 o t d b v) s = .next (c.advance (c.launchAccess s a rs) 1)) ∧
    (∀ r ∈ spaceAtomics, c.detFault r.2 (atomTy r.2 t) = false →
      let a := atomAcc r.2 (atomTy r.2 t) o (spOf p) d
      let rs := c.spaceReqs false 0 v 0 (c.atomData r.2 (atomTy r.2 t) d)
      Passes s c a rs (fun x => Within s c (spOf p) a.size x ∧ s.anyResident c.t.wg (spOf p) (ptrOf x.addr) a.size = false) →
        exec (r.1 o p t d v) s = .next (c.advance (c.launchAccess s a rs) 1)) ∧
    (∀ r ∈ globalAtomics, c.detFault r.2 (atomTy r.2 t) = false → s.inPhase c.t = true →
      let a := atomAcc r.2 (atomTy r.2 t) o .global d
      let rs := c.globalReqs false b.toNat v 0 (c.atomData r.2 (atomTy r.2 t) d)
      Room c → c.t.cnt a.cnt < 63 → s.walksWait c.t a rs = false → rs ≠ [] → (∀ x ∈ rs, x.addr % a.size = 0) →
        ∃ f : FaultInfo, exec (r.1 o t d b v) s = .next (c.raiseWith s f) ∧ f.cause = cWINV ∧ f.lanes = maskOf (lanesOf c.e.mask c.t.lanes)) ∧
    (∀ r ∈ globalAtomics, c.e.mask ≠ 0 → c.detFault r.2 (atomTy r.2 t) = true → exec (r.1 o t d b v) s = .next (c.raise s cNDET 0)) ∧
    (∀ r ∈ spaceAtomics, c.e.mask ≠ 0 → c.detFault r.2 (atomTy r.2 t) = true → exec (r.1 o p t d v) s = .next (c.raise s cNDET 0)) ∧
    ∀ op ty, c.detFault op ty = true ↔ c.i.mode.getLsbD 5 = true ∧ (op = .acc ∨ (op = .add ∧ ty = .f32))

/-- R216: `sld` and `sst` make one aligned access at xA + 4 × IMM10, for the team's scalar. -/
def Sys2Proof.Claims.ScalarAccessesIssue : Prop :=
  ∀ (s : State) (c : Cur) (d a : BitVec 6) (i : BitVec 10), Standing s c →
    let ptr : Int := (((c.t.xreg (a.toNat / 2)).toNat : Int) + 4 * i.toInt) % 18446744073709551616
    let go (x : Acc) (data : List Byte) (ins : Instr) : Prop :=
      let rs : List LaneReq := [{ lane := 0, addr := ptr, data := data, fill := none }]
      ptr % 4 = 0 → c.t.cnt x.cnt < 63 → s.walksWait c.t x rs = false → PagesPass s c x rs → c.fits s x rs = true →
        exec ins s = .next (c.advance (c.launchAccess s x rs) 1)
    go { kind := .load, acc := .load, space := .global, size := 4, uniform := true, dest := .scalar d.toNat, cnt := .ld } [] (.sld d a i) ∧
    (s.windowOk c.t (ptrOf ptr) 4 = true →
      go { kind := .store, acc := .store, space := .global, size := 4, uniform := true, cnt := .st }
        (leBytes 4 (c.t.sreg d.toNat).toNat) (.sst a i d))

/-- R208, R210, R212, R213, R216: the issue of global loads and stores, of lanes and of the team. -/
def Obligations.GlobalAndScalarAccessesIssue : Prop := Claims.GlobalAccessesIssue ∧ Claims.ScalarAccessesIssue


/-- R21, R45, R51, R126, R213: what the issue of an access leaves, where no lane parks.  Its operation is in flight under a new number with the
lanes it asked for, its counter has risen by one and its destination registers are pending.  Its own team changes in nothing else: every
vector register reads in every lane as before, and those that are no destination are the same; every other team and entity, and what else is in
flight stay; memory is what the translations of the mapped lanes leave of it, and for an access of an explicit level it stays.  Inside its clause the entity then stands at the next word. -/
def Sys2Proof.Claims.AccessIssueEffects : Prop :=
  ∀ (s : State) (c : Cur) (a : Acc) (rs : List LaneReq), Standing s c → (∀ r ∈ rs, (s.laneAcc c.t a r).parked = false) →
    let t := c.launchAccess s a rs
    ∃ o u, tabGet t.ops s.nextId = some o ∧ tabGet t.teams c.e.team = some u ∧ o.ent = c.eid ∧ o.team = c.e.team ∧ o.kind = a.kind ∧
      o.space = a.space ∧ o.size = a.size ∧ o.dest = a.dest ∧ o.mask = c.e.mask ∧ o.lanes.map (·.lane) = rs.map (·.lane) ∧
      o.lanes.map (·.ptr) = rs.map (fun r => ptrOf r.addr) ∧ u.cnt a.cnt = c.t.cnt a.cnt + 1 ∧
      (∀ r ∈ a.dest.refs (regCount a.size), u.isPending r = true) ∧ u.s = c.t.s ∧ u.p = c.t.p ∧ u.flags = c.t.flags ∧ u.mode = c.t.mode ∧
      t.nextId = s.nextId + 1 ∧ t.replay = s.replay ∧ (a.space ≠ .global → t.mem = s.mem) ∧
      (a.space = .global → t.mem = (rs.foldl (fun x r => if (s.laneAcc c.t a r).phys.isSome
        then x.touch (s.stackOf c.t) (s.ctxOf c.t) a.acc (ptrOf r.addr) else x) s).mem) ∧
      (∀ k, k ≠ c.e.team → tabGet t.teams k = tabGet s.teams k) ∧ t.ents = s.ents ∧
      (∀ k, k ≠ s.nextId → tabGet t.ops k = tabGet s.ops k) ∧ t.wgs = s.wgs ∧ t.copies = s.copies ∧ t.engines = s.engines ∧
      u = { c.t with v := u.v, pend := u.pend, cntLd := u.cntLd, cntSt := u.cntSt, cntCp := u.cntCp, cntTl := u.cntTl } ∧
      (∀ n, Ref.v n ∉ a.dest.refs (regCount a.size) → u.vreg n = c.t.vreg n) ∧
      (∀ n, ∀ l < c.t.lanes, (u.vreg n).lane 0xFF800001 l = (c.t.vreg n).lane 0xFF800001 l) ∧
      ∀ n, c.inside n → tabGet (c.advance t n).ents c.eid = some { c.e with hold := none, issue := some { c.i with next := c.i.next + n } } ∧
        c.advance t n = { t with ents := (c.advance t n).ents } ∧ ∀ k, k ≠ c.eid → tabGet (c.advance t n).ents k = tabGet t.ents k

/-- R104, R338: lanes on one page without a mapping park: one entry of the replay queue names the operation, the page and those lanes. -/
def Sys2Proof.Claims.MissingPageParks : Prop :=
  ∀ (s : State) (c : Cur) (a : Acc) (rs : List LaneReq) (p : Nat), Standing s c → a.space = .global →
    (∀ r ∈ rs, (s.laneAcc c.t a r).parked = true ∧ pageOf (ptrOf r.addr) = p) → rs ≠ [] →
    ∃ r, tabGet (c.launchAccess s a rs).replay (s.nextId + 1) = some r ∧ r.op = s.nextId ∧ r.ent = c.eid ∧ r.team = c.e.team ∧
      r.page = p ∧ r.lanes = rs.map (·.lane) ∧ r.released = false

/-- R335: what a translation leaves in memory.  It writes its leaf entry and no other byte: there the accessed bit is set, for a write the written
bit too, and every other bit stays; an access without a leaf leaves the machine as it is. -/
def Sys2Proof.Claims.TranslationMarksItsEntry : Prop :=
  ∀ (s : State) (stack ctx : Nat) (k : AccKind) (ptr : Nat),
    let u := s.touch stack ctx k ptr
    ((∀ e lvl p, s.leafFor stack ctx k (ptr % 2 ^ 57) ≠ .leaf e lvl p) → u = s) ∧
    ∀ e lvl p, s.leafFor stack ctx k (ptr % 2 ^ 57) = .leaf e lvl p → Memory.wf s.mem = true → p % 8 = 0 → p + 8 ≤ 2 ^ 48 →
      tabGet s.lineKey (p / 64) = none →
      (∀ a, a < p ∨ p + 8 ≤ a → u.byteAt a = s.byteAt a) ∧ u.teams = s.teams ∧ u.ents = s.ents ∧ u.ops = s.ops ∧
      (s.tlbFind stack ctx (ptr % 2 ^ 57) = none → s.reaches p = true →
        bitOf (u.pteAt p) 8 = true ∧ (k.writes = true → bitOf (u.pteAt p) 9 = true) ∧
        ∀ i, i ≠ 8 → i ≠ 9 → bitOf (u.pteAt p) i = bitOf (s.pteAt p) i)

/-- R51, R104, R126, R335, R338: what the issue of an access leaves, where its pages are there and where one is not. -/
def Obligations.IssuedAccess : Prop := Claims.AccessIssueEffects ∧ Claims.TranslationMarksItsEntry ∧ Claims.MissingPageParks


/-- R100, R341: the checks of an access go in their order: the first that some lane fails decides, its fault names exactly the lanes that
fail it, and its address is the lowest of theirs. -/
def Sys2Proof.Claims.ChecksInOrder : Prop :=
  ∀ (rs : List LaneReq) (ks : List Check) (x : Nat) (ls : List Nat) (a : Int) (b : Nat), firstFail rs ks = some (x, ls, a, b) →
    ∃ before k after, ks = before ++ k :: after ∧ (∀ j ∈ before, ∀ r ∈ rs, j.bad r = none) ∧ k.cause = x ∧
      ls = (rs.filter fun r => (k.bad r).isSome).map (·.lane) ∧ (∃ r ∈ rs, k.bad r = some (a, b)) ∧
      ∀ r ∈ rs, ∀ a' b', k.bad r = some (a', b') → a ≤ a'

namespace Sys2Proof.Claims

/-- A check of R100: its cause, and the lanes that fail it; and those of a global access's pages (steps 6 and 7). -/
abbrev Rule := Nat × (LaneReq → Bool)
def alignRule (n : Nat) : Rule := (cALGN, fun r => decide (r.addr % n ≠ 0))
def pageRules (s : State) (c : Cur) (k : AccKind) (n : Nat) : List Rule :=
  let found (r : LaneReq) : Option Nat := match s.teamXlate c.t k (ptrOf r.addr) n with | .fault x _ _ => some x | _ => none
  [ (cPGPR, fun r => bitsOf (ptrOf r.addr) 59 57 != 0), (cPGPR, fun r => (found r).any fun x => x != cTAGF),
    (cTAGF, fun r => found r == some cTAGF) ]
def boundRule (s : State) (c : Cur) (sp : Space) (n : Nat) : Rule :=
  (cSPBND, fun r => decide (r.addr < 0 ∨ (c.spaceSize s sp : Int) < r.addr + n))
def residenceRule (s : State) (c : Cur) (sp : Space) (n : Nat) : Rule := (cBAROV, fun r => s.anyResident c.t.wg sp (ptrOf r.addr) n)

/-- R100, R341: the first of an instruction's checks that some lane fails decides: the instruction faults with its cause, the record names every
lane that fails that check (every active lane for an access that is made once for all), and its address is the lowest of theirs. -/
def FirstRuleDecides (i : Instr) (s : State) (c : Cur) (whole : Bool) (rs : List LaneReq) (ks : List Rule) : Prop :=
  ∀ (before after : List Rule) (x : Nat) (bad : LaneReq → Bool), ks = before ++ (x, bad) :: after →
    let fails (p : LaneReq → Bool) (r : LaneReq) : Prop := r ∈ rs ∧ r.fill = none ∧ p r = true
    (∀ k ∈ before, ∀ r, ¬ fails k.2 r) → (∃ r, fails bad r) →
    ∃ f : FaultInfo, exec i s = .next (c.raiseWith s f) ∧ f.cause = x ∧
      f.lanes = (if whole then c.e.mask else maskOf ((rs.filter fun r => r.fill.isNone && bad r).map (·.lane))) ∧
      ∃ r, fails bad r ∧ f.addr1 = ptrOf r.addr ∧ ∀ q, fails bad q → r.addr ≤ q.addr

end Sys2Proof.Claims

/-- R88, R97, R100, R103, R209, R221, R271: the checks of every load, store and atomic in their order.  Global: ALGN, then WINV of a store or of an
atomic in a compute phase, then the pages.  Buffers: ALGN and BNDF on the offsets, and then those of a global access on the lanes that are
left.  Explicit levels: ALGN, SPBND, then BAROV of what writes, then WINV of a store to STMEM in a compute phase. -/
def Sys2Proof.Claims.AccessChecksInOrder : Prop :=
  ∀ (s : State) (c : Cur) (b : BitVec 4) (v d : VOp) (off : Option (BitVec 32)), Standing s c →
    let issues (a : Acc) (rs : List LaneReq) : Prop := c.t.cnt a.cnt < 63 ∧ s.walksWait c.t a rs = false
    let window (n : Nat) : Rule := (cWINV, fun r => !s.windowOk c.t (ptrOf r.addr) n)
    let x := c.t.breg b.toNat
    let outside (n : Nat) (r : LaneReq) : Bool := decide (r.addr < 0 ∨ (x.len.toNat : Int) < r.addr + n)
    (∀ (z : LdSz) (o : LdOrd) (p : Pol),
      let a := loadAcc .global z (isUniform v) (o == .acq) (p == .l2 || o == .stream) d
      let rs := c.globalReqs (isUniform v) b.toNat v (offInt off) fun _ => []
      Room c → issues a rs → FirstRuleDecides (.ldg z o p d b v off) s c (isUniform v) rs (alignRule a.size :: pageRules s c .load a.size)) ∧
    (∀ (z : StSz) (o : StOrd) (p : Pol),
      let a := storeAcc .global z (o == .rel) (p == .l2 || o == .stream)
      let rs := c.globalReqs false b.toNat v (offInt off) (c.storeData (stBytes z) d)
      Room c → issues a rs → FirstRuleDecides (.stg z o p b v off d) s c false rs
        (alignRule a.size :: window a.size :: pageRules s c .store a.size)) ∧
    (∀ (z : LdSz) (o : LdOrd) (l : Bool),
      let a := loadAcc .global z (isUniform v) (o == .acq) (l || o == .stream) d
      let rs := c.bufferReqs (isUniform v) v (offInt off) fun _ => []
      let ks := [alignRule a.size, (cBNDF, fun r => outside a.size r && !x.flags.getLsbD 0)]
      let gs := x.lanes a.size false rs
      FirstRuleDecides (.ldb z o l d b v off) s c (isUniform v) rs ks ∧
      ((∀ k ∈ ks, ∀ r ∈ rs, k.2 r = false) → Room c → issues a gs →
        FirstRuleDecides (.ldb z o l d b v off) s c (isUniform v) gs (alignRule a.size :: pageRules s c .load a.size))) ∧
    (∀ (z : StSz) (o : StOrd) (l : Bool),
      let a := storeAcc .global z (o == .rel) (l || o == .stream)
      let rs := c.bufferReqs false v (offInt off) (c.storeData (stBytes z) d)
      let ks := [alignRule a.size, (cBNDF, fun r => x.flags.getLsbD 5 || outside a.size r && !x.flags.getLsbD 1)]
      let gs := x.lanes a.size true rs
      FirstRuleDecides (.stb z o l b v off d) s c false rs ks ∧
      ((∀ k ∈ ks, ∀ r ∈ rs, k.2 r = false) → Room c → issues a gs →
        FirstRuleDecides (.stb z o l b v off d) s c false gs (alignRule a.size :: window a.size :: pageRules s c .store a.size))) ∧
    (∀ r ∈ levelLoads, ∀ (z : LdSz) (q : Bool),
      let u := isUniform v && r.2 != .lane
      let a := loadAcc r.2 z u q false d
      Room c → c.t.cnt .ld < 63 → FirstRuleDecides (r.1 z q d b v off) s c u (c.spaceReqs u b.toNat v (offInt off) fun _ => [])
        [alignRule a.size, boundRule s c r.2 a.size]) ∧
    (∀ r ∈ levelStores, ∀ (z : StSz) (q : Bool), Room c → c.t.cnt .st < 63 →
      FirstRuleDecides (r.1 z q b v off d) s c false (c.spaceReqs false b.toNat v (offInt off) (c.storeData (stBytes z) d))
        [ alignRule (stBytes z), boundRule s c r.2 (stBytes z), residenceRule s c r.2 (stBytes z),
          (cWINV, fun _ => r.2 == .stmem && s.inPhase c.t) ]) ∧
    (∀ (o : AOrd) (t : ATy), ∀ r ∈ globalAtomics, c.detFault r.2 (atomTy r.2 t) = false →
      let a := atomAcc r.2 (atomTy r.2 t) o .global d
      let rs := c.globalReqs false b.toNat v 0 (c.atomData r.2 (atomTy r.2 t) d)
      Room c → issues a rs → FirstRuleDecides (r.1 o t d b v) s c false rs
        (alignRule a.size :: (cWINV, fun _ => s.inPhase c.t) :: pageRules s c .atomic a.size)) ∧
    (∀ (o : AOrd) (t : ATy) (p : Sp), ∀ r ∈ spaceAtomics, c.detFault r.2 (atomTy r.2 t) = false →
      let a := atomAcc r.2 (atomTy r.2 t) o (spOf p) d
      Room c → c.t.cnt a.cnt < 63 → FirstRuleDecides (r.1 o p t d v) s c false (c.spaceReqs false 0 v 0 (c.atomData r.2 (atomTy r.2 t) d))
        [alignRule a.size, boundRule s c (spOf p) a.size, residenceRule s c (spOf p) a.size]) ∧
    ∀ (k y : BitVec 6) (i : BitVec 10),
      let ask (data : List Byte) : List LaneReq :=
        [{ lane := 0, addr := (((c.t.xreg (y.toNat / 2)).toNat : Int) + 4 * i.toInt) % 18446744073709551616, data := data, fill := none }]
      (issues (sldAcc k) (ask []) → FirstRuleDecides (.sld k y i) s c true (ask []) (alignRule 4 :: pageRules s c .load 4)) ∧
      let bytes := leBytes 4 (c.t.sreg k.toNat).toNat
      (issues sstAcc (ask bytes) → FirstRuleDecides (.sst y i k) s c true (ask bytes) (alignRule 4 :: window 4 :: pageRules s c .store 4))

/-- R88, R97, R100, R103, R209, R221, R271, R341: the checks of an access. -/
def Obligations.AccessChecks : Prop := Claims.ChecksInOrder ∧ Claims.AccessChecksInOrder


/-- R89, R91, R108, R211, R213: the bytes that a lane of a load reads, no lane of it being performed before: of its lane's region, of the
level it names, or of memory; a NORMAL access without acquire reads what the L1 of its column holds, where it holds the sector, and any other
reads memory after that L1 has written back what it holds of the sector (R99, R115). -/
def Sys2Proof.Claims.LoadReads : Prop :=
  ∀ (s : State) (o : MemOp) (t : Team) (l : LaneAcc), (∀ m ∈ o.lanes, m.done = false) →
    let r := s.readLane o t l
    let p := l.phys.getD 0
    let l1 := s.l1Of (s.columnOf t)
    r.1.length = o.size ∧ r.2.teams = s.teams ∧ r.2.ops = s.ops ∧ r.2.wgs = s.wgs ∧
    (o.space = .lane → leNat r.1 = t.laneRead l.lane l.ptr o.size ∧ r.2 = s) ∧
    (∀ sp ∈ [Space.spad, .clmem, .stmem], o.space = sp → r.2 = s ∧
      ∀ i < o.size, r.1[i]? = some ((tabGet (s.spaceOf t.wg sp).1 (l.ptr + i)).getD 0)) ∧
    (o.space = .global → (l.mtype ≠ 0 ∨ o.acq = true) → o.size ≠ 0 → p % 16 + o.size ≤ 16 →
      let e := s.l1Evict [s.columnOf t] fun a => a / 16 == physAddr p / 16
      r.2.mem = e.mem ∧ ∀ i < o.size, r.1[i]? = some (e.loadByte (p + i))) ∧
    (o.space = .global → l.mtype = 0 → o.acq = false → o.l2 = true → r.2 = s ∧ ∀ i < o.size, r.1[i]? =
      some (match tabGet l1 ((p + i) / 16) with | some c => c.bytes.getD ((p + i) % 16) 0 | none => s.loadByte (p + i))) ∧
    (o.space = .global → l1 = [] → o.size ≤ 16 → p % 16 + o.size ≤ 16 →
      r.2.mem = s.mem ∧ ∀ i < o.size, r.1[i]? = some (s.loadByte (p + i)))

/-- R97, R210, R211, R213, R216, R45: where a performed lane of a load puts its words.  A size below 32 bits is extended to one word, b64
and b128 fill two and four registers; a buffer's fill is written in place of bytes; a uniform load under the full mask leaves its word
in every lane; and every other lane and register stays. -/
def Sys2Proof.Claims.LoadWrites : Prop :=
  ∀ (s s1 : State) (tid : Nat) (t : Team) (o : MemOp) (l : LaneAcc) (ws : List Word) (bs : List Byte), tabGet s.teams tid = some t →
    o.kind = .load → l.lane < t.lanes →
    (l.fill = none → o.size ∈ [1, 2, 4, 8, 16] → s.readLane o t l = (bs, s1) → bs.length = o.size →
      ws.length = regCount o.size → (∀ j, o.size ≥ 4 → j < ws.length → ws[j]? = some (BitVec.ofNat 32 (leNat ((bs.drop (4 * j)).take 4)))) →
      (o.size < 4 → ws = [if o.signed then (BitVec.ofNat (8 * o.size) (leNat bs)).signExtend 32 else BitVec.ofNat 32 (leNat bs)]) →
      let r := s.performLane tid o l
      r.2.2 = 0 ∧ r.2.1.done = true ∧ r.2.1.data = bs ∧ r.1.mem = s1.mem ∧
      (∀ k, o.uniform = false → o.dest = .vreg k → ∃ u, tabGet r.1.teams tid = some u ∧
        (∀ j < ws.length, (u.vreg (k + j)).lane 0 l.lane = ws.getD j 0 ∧
          ∀ i, i < t.lanes → i ≠ l.lane → (u.vreg (k + j)).lane 0 i = (t.vreg (k + j)).lane 0xFF800001 i) ∧
        (∀ n, (n < k ∨ k + ws.length ≤ n) → u.vreg n = t.vreg n) ∧ u.s = t.s ∧ u.o = t.o ∧ u.p = t.p ∧ u.flags = t.flags) ∧
      (∀ k, o.uniform = false → o.dest = .oreg k → (∀ j < ws.length, l.lane < (t.oreg (k + j)).length) →
        ∃ u, tabGet r.1.teams tid = some u ∧ (∀ j < ws.length, (u.oreg (k + j)).getD l.lane 0 = ws.getD j 0 ∧
          ∀ i, i ≠ l.lane → (u.oreg (k + j)).getD i 0 = (t.oreg (k + j)).getD i 0) ∧ u.v = t.v ∧ u.s = t.s) ∧
      (∀ k, o.uniform = true → o.mask = fullMask t.lanes → o.dest = .vreg k → ∃ u, tabGet r.1.teams tid = some u ∧
        (∀ j < ws.length, u.vreg (k + j) = .uniform (ws.getD j 0)) ∧ (∀ n, (n < k ∨ k + ws.length ≤ n) → u.vreg n = t.vreg n) ∧
        u.s = t.s) ∧
      ∀ k, o.uniform = true → o.dest = .scalar k → ∃ u, tabGet r.1.teams tid = some u ∧ u = t.setS k (ws.getD 0 0)) ∧
    ∀ f k, l.fill = some f → o.uniform = false → o.dest = .vreg k → f.length = 4 * ws.length →
      (∀ j < ws.length, ws[j]? = some (BitVec.ofNat 32 (leNat ((f.drop (4 * j)).take 4)))) →
      ∃ u, tabGet (s.performLane tid o l).1.teams tid = some u ∧ (s.performLane tid o l).1.mem = s.mem ∧
        (∀ j < ws.length, (u.vreg (k + j)).lane 0 l.lane = ws.getD j 0) ∧ ∀ n, (n < k ∨ k + ws.length ≤ n) → u.vreg n = t.vreg n

/-- R45, R89, R91, R97, R108, R210, R211, R213, R214, R216: what a performed load reads, in every space, and what it writes. -/
def Obligations.LoadLaneWritesRegister : Prop := Claims.LoadReads ∧ Claims.LoadWrites

/-- R213, R89, R4, R91, R93: a store's lane, performed.  One that no L1 holds back, on plaintext lines that the package reaches: each byte it stores
reads back at its address, low byte first, and every other byte of memory is unchanged.  A NORMAL one into an empty L1 leaves memory as it is
until the L1 is written back, which gives the same.  One of SPAD, of CLMEM, of STMEM or of LANE changes exactly its bytes of that level, of its
own workgroup, cluster launch, grid or lane, and nothing else. -/
def Obligations.StoreLaneWritesBytes : Prop :=
  ∀ (s : State) (tid p : Nat) (t : Team) (o : MemOp) (l : LaneAcc), tabGet s.teams tid = some t → o.kind = .store →
    l.fill = none → (∀ m ∈ o.lanes, m.done = false) →
    let u := (s.performLane tid o l).1
    (o.space = .global → l.phys = some p → Memory.wf s.mem = true → p + l.data.length ≤ 281474976710656 →
      (∀ i < l.data.length, tabGet s.lineKey ((p + i) / 64) = none ∧ s.reaches (p + i) = true) →
      ((l.mtype ≠ 0 ∨ o.l2 = true ∨ o.rel = true) →
        (∀ i, (h : i < l.data.length) → u.byteAt (p + i) = l.data[i]) ∧
        (∀ a, a < p ∨ p + l.data.length ≤ a → u.byteAt a = s.byteAt a) ∧ u.teams = s.teams) ∧
      (l.mtype = 0 → o.l2 = false → o.rel = false → s.l1Of (s.columnOf t) = [] → l.data.length ≤ 16 →
        (∀ a, u.byteAt a = s.byteAt a) ∧ u.teams = s.teams ∧
        (∀ i, (h : i < l.data.length) → (u.l1Sync (s.columnOf t)).byteAt (p + i) = l.data[i]) ∧
        ∀ a, a < p ∨ p + l.data.length ≤ a → (u.l1Sync (s.columnOf t)).byteAt a = s.byteAt a)) ∧
    (∀ w, o.space = .spad → tabGet s.wgs t.wg = some w → w.place = .resident →
      (∀ i, (h : i < l.data.length) → tabGet (u.spaceOf t.wg .spad).1 (l.ptr + i) = some l.data[i]) ∧
      (∀ a, a < l.ptr ∨ l.ptr + l.data.length ≤ a → tabGet (u.spaceOf t.wg .spad).1 a = tabGet (s.spaceOf t.wg .spad).1 a) ∧
      u.mem = s.mem ∧ u.teams = s.teams) ∧
    (∀ w k c, o.space = .clmem → (∀ x ∈ s.wgs, x.2.place = .resident) → tabGet s.wgs t.wg = some w → w.cluster = some k →
      tabGet s.clusters k = some c →
      (∀ i, (h : i < l.data.length) → tabGet (u.spaceOf t.wg .clmem).1 (l.ptr + i) = some l.data[i]) ∧
      (∀ a, a < l.ptr ∨ l.ptr + l.data.length ≤ a → tabGet (u.spaceOf t.wg .clmem).1 a = tabGet c.clmem a) ∧
      (∀ j, j ≠ k → tabGet u.clusters j = tabGet s.clusters j) ∧ u.mem = s.mem ∧ u.teams = s.teams ∧ u.wgs = s.wgs) ∧
    (∀ w g, o.space = .stmem → tabGet s.wgs t.wg = some w → tabGet s.grids w.grid = some g →
      (∀ i, (h : i < l.data.length) → tabGet (u.spaceOf t.wg .stmem).1 (l.ptr + i) = some l.data[i]) ∧
      (∀ a, a < l.ptr ∨ l.ptr + l.data.length ≤ a → tabGet (u.spaceOf t.wg .stmem).1 a = tabGet g.stmem a) ∧
      (∀ j, j ≠ w.grid → tabGet u.grids j = tabGet s.grids j) ∧ u.mem = s.mem ∧ u.teams = s.teams ∧ u.wgs = s.wgs) ∧
    (o.space = .lane → l.ptr + l.data.length ≤ 4294967296 → u.mem = s.mem ∧ ∃ v, tabGet u.teams tid = some v ∧
      v = { t with laneMem := v.laneMem } ∧ v.laneRead l.lane l.ptr l.data.length = leNat l.data ∧
      ∀ lane off n, off + n ≤ 4294967296 → (lane ≠ l.lane ∨ off + n ≤ l.ptr ∨ l.ptr + l.data.length ≤ off) →
        v.laneRead lane off n = t.laneRead lane off n)

/-- R218, R219, R220: what the atomics leave at their location, of the old number and the operand.  The integer ones on 32 and on 64 bits;
float `aadd`, `amin` and `amax`, which combine as the float instructions do, to nearest; and `aacc`, whose cell's count says whether it holds a
value, and stays at 65,535 with CSAT.  A float operand that is absent leaves the location. -/
def Sys2Proof.Claims.AtomicResults : Prop :=
  (∀ (m x : Nat), m < 2 ^ 32 → x < 2 ^ 32 →
    let f (op : AtomicOp) (t : ATy) : Nat := (atomicNew op t m (leBytes 4 x)).1
    let sg (n : Nat) : Int := (BitVec.ofNat 32 n).toInt
    f .add .i32 = (m + x) % 2 ^ 32 ∧ f .add .n32 = (m + x) % 2 ^ 32 ∧ f .min .i32 = (if sg x < sg m then x else m) ∧
    f .max .i32 = (if sg x < sg m then m else x) ∧ f .min .n32 = min m x ∧ f .max .n32 = max m x ∧ f .and .n32 = m &&& x ∧
    f .or .n32 = m ||| x ∧ f .xor .n32 = m ^^^ x ∧ f .xch .n32 = x ∧ f .inc .n32 = (m + 1) % 2 ^ 32) ∧
  (∀ (m x y : Nat), m < 2 ^ 32 → x < 2 ^ 32 → y < 2 ^ 32 →
    (atomicNew .cas .n32 m (leBytes 4 x ++ leBytes 4 y)).1 = if m = x then y else m) ∧
  (∀ (m x : Nat), m < 2 ^ 64 → x < 2 ^ 64 →
    let f (op : AtomicOp) : Nat := (atomicNew op .b64 m (leBytes 8 x)).1
    f .add = (m + x) % 2 ^ 64 ∧ f .and = m &&& x ∧ f .or = m ||| x ∧ f .xor = m ^^^ x ∧ f .xch = x) ∧
  (∀ (m x y : Nat), m < 2 ^ 64 → x < 2 ^ 64 → y < 2 ^ 64 →
    (atomicNew .cas .b64 m (leBytes 8 x ++ leBytes 8 y)).1 = if m = x then y else m) ∧
  (∀ (m x : Nat), m < 2 ^ 32 → x < 2 ^ 32 → x ≠ 0xFF800001 →
    atomicNew .add .f32 m (leBytes 4 x) = float2 fmtF32 .ne false .add m x ∧
    atomicNew .min .f32 m (leBytes 4 x) = float2 fmtF32 .ne false .min m x ∧
    atomicNew .max .f32 m (leBytes 4 x) = float2 fmtF32 .ne false .max m x) ∧
  (∀ (m x : Nat), m < 2 ^ 64 → x < 2 ^ 32 → x ≠ 0xFF800001 →
    let n := m / 2 ^ 32
    let r := float2 fmtF32 .ne false .add (if n = 0 then 0xFF800001 else m % 2 ^ 32) x
    atomicNew .acc .b64 m (leBytes 4 x) = (r.1 + 2 ^ 32 * min (n + 1) 65535, r.2 ||| if 65535 ≤ n then 0x40 else 0)) ∧
  ∀ m, atomicNew .add .f32 m (leBytes 4 0xFF800001) = (m, 0) ∧ atomicNew .acc .b64 m (leBytes 4 0xFF800001) = (m, 0)

/-- R217, R219, R221, R54: an atomic's lane on SPAD, on CLMEM or in global memory, whose sector every L1 gives back first (R89), performed: the
location takes the operation's result and the destination the old number, or nothing is returned; every other byte of memory stays; the flags
of the operation are raised when the instruction completes, unless a lane of it has faulted. -/
def Sys2Proof.Claims.AtomicLaneIsOneUpdate : Prop :=
  (∀ (s : State) (tid p : Nat) (t : Team) (w : Workgroup) (o : MemOp) (l : LaneAcc) (op : AtomicOp) (ty : ATy), tabGet s.teams tid = some t →
    tabGet s.wgs t.wg = some w → (∀ x ∈ s.wgs, x.2.place = .resident) → o.kind = .atomic → o.alu = some (op, ty) → o.size = 4 →
    (∀ k, o.dest = .oreg k → l.lane < (t.oreg k).length) →
    let r := s.performLane tid o l
    let returned (old : Nat) : Prop := (∀ k, o.dest = .oreg k → ∃ u, tabGet r.1.teams tid = some u ∧
      (u.oreg k).getD l.lane 0 = BitVec.ofNat 32 old ∧ u.flags = t.flags) ∧ (o.dest = .none → tabGet r.1.teams tid = some t)
    (∀ sp ∈ [Space.spad, .clmem], o.space = sp → (sp = .clmem → (w.cluster.bind (tabGet s.clusters)).isSome) →
      let old := leNat (s.spaceRead t.wg sp l.ptr 4)
      let new := atomicNew op ty old l.data
      r.2.2 = new.2 ∧ r.2.1.done = true ∧ leNat (r.1.spaceRead t.wg sp l.ptr 4) = new.1 % 2 ^ 32 ∧ returned old ∧ r.1.mem = s.mem) ∧
    (o.space = .global → l.phys = some p → Memory.wf s.mem = true → p + 4 ≤ 2 ^ 48 →
      let e := s.l1Evict s.l1Cols fun a => a / 16 == p / 16
      (∀ i < 4, tabGet e.lineKey ((p + i) / 64) = none ∧ e.reaches (p + i) = true) →
      let old := leNat (e.loadBytes p 4)
      let new := atomicNew op ty old l.data
      r.2.2 = new.2 ∧ r.2.1.done = true ∧ leNat (r.1.loadBytes p 4) = new.1 % 2 ^ 32 ∧ returned old ∧
        ∀ a, a < p ∨ p + 4 ≤ a → r.1.byteAt a = e.byteAt a)) ∧
  ∀ (s : State) (k : Nat) (o : MemOp) (t : Team), tabGet s.teams o.team = some t → s.calm o.team →
    ∃ u, tabGet (s.completeOp k o).teams o.team = some u ∧ u.flags = if o.failed then t.flags else t.flags ||| o.flags

/-- R217, R218, R219, R221: what an atomic leaves at its location. -/
def Obligations.Atomics : Prop := Claims.AtomicResults ∧ Claims.AtomicLaneIsOneUpdate


/-- R110, R111, R213, R221: a load, store or atomic whose turn has come and whose lanes have their mappings completes: it is in flight no
more and no register of it is pending; one whose turn has not come stays as it is. -/
def Sys2Proof.Claims.OperationsComplete : Prop :=
  ∀ (s : State) (k : Nat) (o : MemOp), tabGet s.ops k = some o → tabSorted 0 s.ops = true → s.calm o.team →
    ∀ r ∈ [(Instr.loadComplete k, [OpKind.load]), (.storeComplete k, [.store, .flush]), (.atomicPerform k, [.atomic])], o.kind ∈ r.2 →
      (s.mayPerform k o = true → (∀ l ∈ o.lanes, l.parked = false ∧ (o.space = .global → s.reaches (l.phys.getD 0) = true)) → ∃ t, exec r.1 s = .next t ∧ tabGet t.ops k = none ∧
        ∀ u, tabGet t.teams o.team = some u → ∀ p ∈ u.pend, p.op ≠ k) ∧
      (s.mayPerform k o = false → exec r.1 s = .next s)

/-- R99, R111, R119: an operation waits for every earlier one of its entity that must be performed first; for one of another path that
happens before it, unless it is a load that may pass; and for no other.  An acquire comes before what follows it, a release after what
it follows, accesses of a common byte of memory, of an explicit level or of one lane's region in their order, accesses of a common sector while
one has no mapping, and one to a STRONG page before and after every other; plain accesses of NORMAL pages without a common byte, and of
different spaces, have no order. -/
def Sys2Proof.Claims.LocalOrder : Prop :=
  (∀ (s : State) (k : Nat) (o : MemOp), s.mayPerform k o = true ↔ ∀ x ∈ s.ops,
    (x.2.ent = o.ent → x.1 < k → opBefore x.2 o = false) ∧ (x.1 ∈ o.after → o.kind = .load ∧ opBefore x.2 o = false)) ∧
  ∀ (x y : MemOp), x.kind ≠ .flush → y.kind ≠ .flush →
    ((x.acq = true ∨ y.rel = true) → opBefore x y = true) ∧
    (∀ l ∈ x.lanes, ∀ m ∈ y.lanes, l.done = false → m.done = false → l.fill = none → m.fill = none →
      ((l.mtype = 3 ∨ m.mtype = 3) → opBefore x y = true) ∧
      (∀ p q a, x.space = .global → y.space = .global → l.phys = some p → m.phys = some q → physAddr p ≤ a → a < physAddr p + x.size →
        physAddr q ≤ a → a < physAddr q + y.size → opBefore x y = true) ∧
      (x.space = .global → y.space = .global → (l.phys = none ∨ m.phys = none) → l.ptr % 2 ^ 57 / 16 = m.ptr % 2 ^ 57 / 16 →
        opBefore x y = true) ∧
      (x.space = y.space → x.space ≠ .global → (x.space = .lane → l.lane = m.lane) → l.ptr < m.ptr + y.size → m.ptr < l.ptr + x.size →
        opBefore x y = true)) ∧
    (x.acq = false → y.rel = false → x.space ≠ y.space → (∀ l ∈ x.lanes ++ y.lanes, l.mtype = 0 ∧ l.phys.isSome = true) →
      opBefore x y = false) ∧
    (x.acq = false → y.rel = false → x.space = .global → y.space = .global →
      (∀ l ∈ x.lanes ++ y.lanes, l.mtype = 0 ∧ l.phys.isSome = true) →
      (∀ l ∈ x.lanes, ∀ m ∈ y.lanes, ∀ p q, l.phys = some p → m.phys = some q →
        physAddr p + x.size ≤ physAddr q ∨ physAddr q + y.size ≤ physAddr p) → opBefore x y = false)

/-- R99, R110, R111, R119, R213, R221: when an operation completes, and what that leaves. -/
def Obligations.OperationsCompleteInOrder : Prop := Claims.OperationsComplete ∧ Claims.LocalOrder


/-- R112, R222, R223, R89: `fence` waits for the operations its kind orders and then acts on the L1 at `.clu` or wider; `cprf` never faults and
touches no counter; `cflush` of a range within the pointer's form issues one operation that CNTST counts. -/
def Obligations.FencesPrefetchAndFlush : Prop :=
  ∀ (s : State) (c : Cur), Standing s c →
    (∀ (k : FKind) (x : Scope), (∀ o ∈ s.ops, o.2.ent = c.eid ∨ o.1 ∈ c.e.after → fenceWaits k o.2 = false) →
      exec (.fence k x) s = .next (c.advance (if x = .team ∨ x = .wg then s else s.observe c.t) 1)) ∧
    (∀ (k : FKind) (x : Scope), (∃ o ∈ s.ops, (o.2.ent = c.eid ∨ o.1 ∈ c.e.after) ∧ fenceWaits k o.2 = true) →
      exec (.fence k x) s = .next (c.holdAt s .fence)) ∧
    (∀ (i : BitVec 10) (a : BitVec 6) (l : Bool), ∃ u, exec (.cprf i a l) s = .next (c.advance u 1) ∧ u.teams = s.teams ∧ u.ents = s.ents ∧
      u.ops = s.ops ∧ u.replay = s.replay ∧ (l = false → u = s)) ∧
    ∀ a d : BitVec 6, c.t.cnt .st < 63 → s.replayRoom (s.partOf c.t) 0 0 = true →
      let p := (c.t.xreg (a.toNat / 2)).toNat
      bitsOf p 59 57 = 0 → p % 2 ^ 57 + (c.t.sreg d.toNat).toNat ≤ 2 ^ 57 → c.inside 1 →
      ∃ t o u, exec (.cflush a d) s = .next t ∧ tabGet t.ops s.nextId = some o ∧ o.kind = .flush ∧ o.ent = c.eid ∧
        o.size = (c.t.sreg d.toNat).toNat ∧ o.lanes.map (·.ptr) = [p] ∧ tabGet t.teams c.e.team = some u ∧
        u.cnt .st = c.t.cnt .st + 1 ∧ t.mem = s.mem

/-! ## Barriers, rings, the rendezvous of a workgroup, and collective copies -/

namespace Sys2Proof.Claims

/-- A clause's word that waits for nothing is done in a state that the entity's effect has already changed. -/
def DoneIn (s : State) (i : Instr) (c : Cur) (n : Nat) (p : State → Prop) : Prop := ∃ u, exec i s = .next (c.advance u n) ∧ p u

/-- R101, R205, R206 on one object: an arrival and a completion's bytes count once, a phase ends where both counts meet what is expected
and nothing was too much, a count past its expectation is kept and sets OVR, and a full field stays full. -/
def BarrierRules : Prop :=
  ∀ b : Barrier,
    (b.arrA < 65535 → b.arrA < b.expA → b.arrB ≤ b.expB → (b.arrA + 1 ≠ b.expA ∨ b.arrB ≠ b.expB) →
      b.arrive = { b with arrA := b.arrA + 1 }) ∧
    (b.arrA < 65535 → b.arrA + 1 = b.expA → b.arrB = b.expB → b.ovr = false →
      b.arrive = { b with arrA := 0, arrB := 0, phase := !b.phase }) ∧
    (b.arrA < 65535 → b.expA < b.arrA + 1 → b.arrive = { b with arrA := b.arrA + 1, ovr := true }) ∧
    (b.arrA = 65535 → b.arrive = { b with ovr := true }) ∧
    (b.ovr = true → b.arrive.phase = b.phase ∧ b.arrive.ovr = true ∧ ∀ n, (b.count n).phase = b.phase ∧ (b.count n).ovr = true) ∧
    ∀ n, (b.arrB + n ≤ b.expB → b.expB < 4294967296 → b.arrA ≤ b.expA → (b.arrA ≠ b.expA ∨ b.arrB + n ≠ b.expB) →
        b.count n = { b with arrB := b.arrB + n }) ∧
      (b.arrB + n = b.expB → b.expB < 4294967296 → b.arrA = b.expA → b.ovr = false →
        b.count n = { b with arrA := 0, arrB := 0, phase := !b.phase }) ∧
      (b.expB < b.arrB + n → b.arrB + n < 4294967296 → b.count n = { b with arrB := b.arrB + n, ovr := true }) ∧
      (4294967296 ≤ b.arrB + n → b.count n = { b with arrB := 4294967295, ovr := true })

/-- R103, R204, R205, R206, R128: the barrier and ring instructions, where the checks on their object pass, and where one fails.  That `barinit`
waits for a store on its way to the object is the reading of log 31. -/
def ObjectInstructions : Prop :=
  ∀ (s : State) (c : Cur) (p : Bool) (o a b d : BitVec 6), Standing s c →
    let sp := spOf (spBit p)
    let w := c.t.wg
    let off := (c.t.sreg o.toNat).toNat
    let bar := s.getBar w sp off
    let live := s.objectFault w sp off 16 none true
    let ready := bar.phase ≠ (c.t.sreg b.toNat).getLsbD 0
    let fresh : Barrier := { expA := (c.t.sreg a.toNat).toNat % 65536, arrA := 0, expB := (c.t.sreg b.toNat).toNat, arrB := 0
                             phase := false, slot := false, ovr := false }
    let count := s.spaceWord w sp off
    let j := (c.t.sreg d.toNat).toNat
    let widx := s.spaceWord w sp (off + 8)
    let ridx := s.spaceWord w sp (off + 12)
    (s.objectFault w sp off 16 none false = none → s.copyPending w sp off 16 = false →
      (s.storePending w sp off 16 = false →
        exec (.barinit p o a b) s = .next (c.advance ((s.putBar w sp off fresh).reside w sp off 16) 1)) ∧
      (s.storePending w sp off 16 = true → exec (.barinit p o a b) s = .next (c.holdAt s .order))) ∧
    (s.objectFault w sp off 16 none false = none → s.copyPending w sp off 16 = true →
      exec (.barinit p o a b) s = .next (c.raise s cBAROV off)) ∧
    (live = none → exec (.barexp p o b) s =
      .next (c.advance (s.putBar w sp off ({ bar with expB := (c.t.sreg b.toNat).toNat } : Barrier).test) 1)) ∧
    (live = none → s.settledEnt c.eid = true → exec (.bararr p a o) s =
      .next (c.teamWord ((s.objectSync w (spBit p)).putBar w sp off ((s.objectSync w (spBit p)).getBar w sp off).arrive)
        fun t => t.setS a.toNat (flag ((s.objectSync w (spBit p)).getBar w sp off).phase))) ∧
    (live = none → s.settledEnt c.eid = false → exec (.bararr p a o) s = .next (c.holdAt s .order)) ∧
    (live = none → ready → exec (.barwait p o b) s = .next (c.advance (s.observe c.t) 1)) ∧
    (live = none → ¬ ready → exec (.barwait p o b) s = .next (c.holdAt s .barrier)) ∧
    (live = none → ready → exec (.bartry p a o b) s = .next (c.teamWord (s.observe c.t) fun t => t.setS a.toNat 1)) ∧
    (live = none → ¬ ready → exec (.bartry p a o b) s = .next (c.done s 1 (c.t.setS a.toNat 0) c.i)) ∧
    (s.objectFault w sp off (16 + 16 * count) (some count) true = none →
      let full := (s.getBar w sp (off + 16 + 16 * (j % count))).phase = decide ((j / count + 1) % 2 = 1)
      (full → exec (.awaitf p a o d) s = .next (c.teamWord (s.observe c.t) fun t => t.setS a.toNat (BitVec.ofNat 32 (j % count)))) ∧
      (¬ full → exec (.awaitf p a o d) s = .next (c.holdAt s .ring))) ∧
    (live = none → ridx = widx → exec (.rels p o) s = .next (c.illop s)) ∧
    (live = none → ridx ≠ widx → s.settledEnt c.eid = true → exec (.rels p o) s =
      .next (c.advance ((s.objectSync w (spBit p)).putWord w sp (off + 12) ((ridx + 1) % 4294967296)) 1)) ∧
    (∀ x y, live = some (x, y) → x ≠ cILLOP → ∀ i ∈ [Instr.barexp p o b, .bararr p a o, .barwait p o b, .bartry p a o b, .rels p o],
      exec i s = .next (c.raise s x y))

/-- R206, R103: `ringinit` with its object and its data in place, and no store on its way there (log 31), writes the header, one empty slot
barrier for each slot, and residence. -/
def RingInit : Prop :=
  ∀ (s : State) (c : Cur) (p : Bool) (o x d : BitVec 6), Standing s c →
    let sp := spOf (spBit p)
    let w := c.t.wg
    let off := (c.t.sreg o.toNat).toNat
    let count := (c.t.sreg x.toNat).toNat
    let slotB := (c.t.sreg (x.toNat + 1)).toNat
    let data := (c.t.sreg d.toNat).toNat
    s.objectFault w sp off (16 + 16 * count) (some count) false = none → s.copyPending w sp off (16 + 16 * count) = false →
    data % 16 = 0 → data + count * slotB ≤ (s.spaceOf w sp).2 →
    (slotB = 0 ∨ off + 16 + 16 * count ≤ data ∨ data + count * slotB ≤ off) → s.storePending w sp off (16 + 16 * count) = false →
    exec (.ringinit p o x d) s = .next (c.advance (((s.spaceWrite w sp off (wordsBytes [count, slotB, 0, 0])).putSlots w sp off slotB
      count).reside w sp off (16 + 16 * count)) 1)

/-- R207, R273: the rendezvous of a workgroup's teams.  It waits for this entity's accesses; an entity with a path detached or deferred,
or a fragment, is ILLOP; it holds until the last running team arrives, and then lets this one on.  A phase ends where every arrival
was by `commit`. -/
def Rendezvous : Prop :=
  ∀ (s : State) (c : Cur) (w : Workgroup), Standing s c → tabGet s.wgs c.t.wg = some w → c.e.arrived = none →
    ∀ r ∈ [(Instr.wgbar, false), (.commit, true)],
      let lone := c.e.parent = none ∧ (∀ x ∈ s.ents, x.2.parent ≠ some c.eid) ∧ c.e.slots = []
      let running (k : Nat) : Prop := ∃ x ∈ s.ents, x.2.team = k
      let here (k : Nat) : Prop := k = c.e.team ∨ ∃ a ∈ w.arrivals, a.team = k
      (¬ lone → exec r.1 s = .next (c.illop s)) ∧
      (lone → s.settledEnt c.eid = false → exec r.1 s = .next (c.holdAt s .arriving)) ∧
      (lone → s.settledEnt c.eid = true → (∀ x ∈ s.teams, x.2.wg = c.t.wg → running x.1 → here x.1) →
        DoneIn s r.1 c 1 fun u => ∃ w', tabGet u.wgs c.t.wg = some w' ∧ w'.arrivals = [] ∧ w'.rvGen = w.rvGen + 1 ∧
          (w'.phase = true ↔ w.phase = true ∧ (r.2 = false ∨ ∃ a ∈ w.arrivals, a.commit = false))) ∧
      (lone → s.settledEnt c.eid = true → (∃ x ∈ s.teams, x.2.wg = c.t.wg ∧ running x.1 ∧ ¬ here x.1) →
        ∃ u, exec r.1 s = .next (c.holdAt u .workgroup) ∧ ∃ w', tabGet u.wgs c.t.wg = some w' ∧ w'.rvGen = w.rvGen ∧
          w'.phase = w.phase ∧ w'.arrivals = w.arrivals ++ [{ team := c.e.team, commit := r.2 }])

/-- The copy instructions of some fields, with the function of each and the flags it carries (R224). -/
noncomputable def copyForms (dst src len : BitVec 6) (sl : BitVec 4) (obj idx rows stride : BitVec 6) (mc ring fill : Bool) :
    List (Instr × CopyFn × Nat) :=
  let f (m r l : Bool) : Nat := (if m then 1 else 0) + (if r then 2 else 0) + (if l then 4 else 0)
  [ (.cpyG2s dst src len sl obj idx rows stride mc ring fill, .g2s, f mc ring fill),
    (.cpyG2c dst src len sl obj idx rows stride ring fill, .g2c, f false ring fill),
    (.cpyG2t dst src len sl obj idx rows stride fill, .g2t, f false false fill),
    (.cpyS2g dst src len sl obj idx rows stride, .s2g, 0), (.cpyC2s dst src len sl obj idx rows stride mc ring, .c2s, f mc ring false),
    (.cpyS2c dst src len sl obj idx rows stride ring, .s2c, f false ring false),
    (.cpym dst src len sl obj idx rows stride fill, .gg, f false false fill),
    (.cpyx dst src len sl obj idx rows stride ring, .x2s, f false ring false),
    (.cpyg dst src len sl obj idx rows stride ring fill, .gather, f false ring fill),
    (.cred dst src len sl obj idx rows stride, .cred, 0) ]

/-- Whether what the acceptance of a slice reads, the table of its group and the translations of its pages, waits for a port (R385). -/
def SliceWaits (s : State) (c : Cur) (want : Copy) (i bound : Nat) : Prop :=
  (∃ p ∈ s.groupPieces (s.stackOf c.t) (s.ctxOf c.t) want, s.accessWaits (s.stackOf c.t) (s.ctxOf c.t) p.1 p.2.1 p.2.2 = true) ∨
    ∃ p ∈ s.copyPieces want i bound, s.walkWaits (s.stackOf c.t) (s.ctxOf c.t) p.1 p.2.1 = true

/-- A slice of a copy passes the checks of R227, against the first slice of its copy where one has come, its counter has room, and nothing
waits for a port. -/
def SlicePasses (s : State) (c : Cur) (old : Option Copy) (want : Copy) (i b ftype : Nat) : Prop :=
  c.t.cnt .cp < 63 ∧ ¬ SliceWaits s c want i (want.bound b ftype) ∧ s.copyAlign want ftype = none ∧
  s.copyBounds want i (match want.obj with | some (sp, o) => s.spaceWord want.wg (spOf sp) (o + 4) | none => 0) = none ∧
  s.copyResident want i = none ∧ s.copyWindow c.t want i = none ∧ copyMismatch old want i = false ∧ s.copyEnded want = false ∧
  (want.fn = .cred → s.credBad (s.stackOf c.t) (s.ctxOf c.t) want = false) ∧
  s.copyPages (s.stackOf c.t) (s.ctxOf c.t) (s.groupPieces (s.stackOf c.t) (s.ctxOf c.t) want) = none ∧
  s.copyPages (s.stackOf c.t) (s.ctxOf c.t) (s.copyPieces want i (want.bound b ftype)) = none

/-- What the acceptance of a slice leaves: the slice on its copy, the counter of copies risen, and the ordinal of its key. -/
def SliceTaken (c : Cur) (k : Nat) (want : Copy) (before : List Slice) (i : Nat) (u : State) : Prop :=
  ∃ x t sl, tabGet u.copies k = some x ∧ x.slices = before ++ [sl] ∧ sl.index = i ∧ sl.team = c.e.team ∧ sl.ent = c.eid ∧ sl.moved = 0 ∧
    x.fn = want.fn ∧ x.key = want.key ∧ x.dst = want.dst ∧ x.src = want.src ∧
    tabGet u.teams c.e.team = some t ∧ t.cnt .cp = c.t.cnt .cp + 1 ∧ tabGet t.keys want.key = some (want.ordinal + 1)

/-- R224 to R228, R231, R234: a slice that passes its checks is accepted: the first slice of a copy opens it, a later one joins it, and
the first of a ring copy takes the slot WIDX mod COUNT, which the later ones share.  One that no counter, no slot or no port has room for
waits, and so does one while the replay queue is full, though it takes no entry of it (R104 read for every memory instruction, log 31); one of a copy that was cancelled or has failed is discarded; one of a copy that is over is GMIS. -/
def CopySlices : Prop :=
  ∀ (s : State) (c : Cur) (dst src len : BitVec 6) (sl : BitVec 4) (obj idx rows stride : BitVec 6) (mc ring fill : Bool), Standing s c →
    ∀ r ∈ copyForms dst src len sl obj idx rows stride mc ring fill,
      let ask := c.copyAsk s r.2.1 dst src len sl obj rows stride r.2.2
      let i := (c.t.sreg idx.toNat).toNat
      let x := (c.t.sreg (len.toNat + 1)).toNat
      let b := x % 536870912
      let ftype := x / 536870912
      let hdr (n : Nat) : Nat := match ask.obj with | some (sp, o) => s.spaceWord ask.wg (spOf sp) (o + n) | none => 0
      let inSlot (j : Nat) : Copy := { ask with dst := ask.dst + j * hdr 4, slot := some j }
      let joined (y : Copy) : Copy := match y.slot with | some j => inSlot j | none => ask
      let room := s.replayRoom (s.partOf c.t) 0 0
      (ask.ring = false → s.findCopy ask = none → SlicePasses s c none ask i b ftype →
        (room = true → DoneIn s r.1 c 2 (SliceTaken c s.nextId ask [] i)) ∧
        (room = false → exec r.1 s = .next (c.holdAt s .replay))) ∧
      (ask.ring = true → s.findCopy ask = none → 1 ≤ hdr 0 → hdr 0 ≤ 16 → SlicePasses s c none (inSlot (hdr 8 % hdr 0)) i b ftype →
        ((hdr 8 + 4294967296 - hdr 12) % 4294967296 ≠ hdr 0 → room = true →
          DoneIn s r.1 c 2 fun u => SliceTaken c s.nextId (inSlot (hdr 8 % hdr 0)) [] i u ∧
            ∃ x, tabGet u.copies s.nextId = some x ∧ x.slot = some (hdr 8 % hdr 0)) ∧
        ((hdr 8 + 4294967296 - hdr 12) % 4294967296 = hdr 0 → exec r.1 s = .next (c.holdAt s .slice))) ∧
      (∀ k y, s.findCopy ask = some (k, y) → tabGet s.copies k = some y → SlicePasses s c (some y) (joined y) i b ftype → room = true →
        (y.cancelled = false → y.failed = false → DoneIn s r.1 c 2 (SliceTaken c k (joined y) y.slices i)) ∧
        (y.cancelled = true ∨ y.failed = true → DoneIn s r.1 c 2 fun u => ∃ t, tabGet u.teams c.e.team = some t ∧
          tabGet t.keys ask.key = some (ask.ordinal + 1) ∧ ∀ e ∈ t.cntList .cp, e.op = k → e.done = true)) ∧
      (c.t.cnt .cp < 63 → ask.ring = false → s.findCopy ask = none → s.copyAlign ask ftype = none → s.copyBounds ask i (hdr 4) = none →
        s.copyResident ask i = none → s.copyWindow c.t ask i = none → ¬ SliceWaits s c ask i (ask.bound b ftype) → (∀ x, s.findCopy ask = some x → x.2.slot = none) →
        (s.copyEnded ask = true ∨ ask.sl ≤ i) →
        exec r.1 s = .next (c.raise s cGMIS (if obj = 0 then 0 else (c.t.sreg obj.toNat).toNat))) ∧
      (63 ≤ c.t.cnt .cp → exec r.1 s = .next (c.holdAt s .room)) ∧
      (c.t.cnt .cp < 63 → ask.ring = false → s.findCopy ask = none → s.copyAlign ask ftype = none → s.copyBounds ask i (hdr 4) = none →
        s.copyResident ask i = none → s.copyWindow c.t ask i = none → SliceWaits s c ask i (ask.bound b ftype) →
        exec r.1 s = .next (c.holdAt s .slice)) ∧
      (∀ a, c.t.cnt .cp < 63 → ask.ring = false → s.findCopy ask = none → s.copyAlign ask ftype = some a →
        exec r.1 s = .next (c.raise s cALGN a)) ∧
      ask.wg = c.t.wg ∧ ask.ordinal = (tabGet c.t.keys ask.key).getD 0 ∧ ask.len = (c.t.sreg len.toNat).toNat ∧
      ask.obj.map (·.2) = (if obj = 0 then none else some (c.t.sreg obj.toNat).toNat) ∧ ask.slField = sl.toNat ∧ (sl ≠ 0 → ask.sl = sl.toNat) ∧
      (∀ w, sl = 0 → tabGet s.wgs c.t.wg = some w → ask.sl = w.teams)

/-- R234: `cpycan` cancels the copies of its object that have written nothing, and says how many.  Each of them is gone, or stays
only for its slices still to come, cancelled; and it is counted in no counter of a team that issued it. -/
def CopyCancel : Prop :=
  ∀ (s : State) (c : Cur) (n : BitVec 6) (p : Bool) (o : BitVec 6), Standing s c →
    let off := (c.t.sreg o.toNat).toNat
    let key := copyKey (spBit p) (if o = 0 then none else some off)
    let hit := s.copies.filter fun x => x.2.wg == c.t.wg && x.2.key == key && !x.2.cancelled && !x.2.failed &&
      !x.2.slices.any (fun y => decide ((if x.2.fn = .cred then x.2.granules else 0) < y.moved))
    ((o ≠ 0 → s.objectFault c.t.wg (spOf (spBit p)) off 16 none true = none) →
      (o = 0 → p = true → ∃ w k, tabGet s.wgs c.t.wg = some w ∧ w.cluster = some k) →
      DoneIn s (.cpycan n p o) c 2 fun u =>
        (∃ t, tabGet u.teams c.e.team = some t ∧ t.sreg n.toNat = if n = 0 then 0 else BitVec.ofNat 32 hit.length) ∧
        (tabSorted 0 s.copies = true → ∀ x ∈ hit,
          (∀ y, tabGet u.copies x.1 = some y → y.cancelled = true) ∧
          ∀ z ∈ x.2.slices, ∀ t, tabGet u.teams z.team = some t → ∀ e ∈ t.cntList .cp, e.op = x.1 → e.done = true)) ∧
    (o = 0 → p = true → (s.wgOf c.t).bind (·.cluster) = none → exec (.cpycan n p o) s = .next (c.raise s cSPBND 0)) ∧
    ∀ x y, o ≠ 0 → s.objectFault c.t.wg (spOf (spBit p)) off 16 none true = some (x, y) →
      exec (.cpycan n p o) s = .next (c.raise s x y)

end Sys2Proof.Claims

/-- R101, R103, R128, R204 to R207: barriers, rings, and the workgroup's rendezvous. -/
def Obligations.Synchronization : Prop := Claims.BarrierRules ∧ Claims.ObjectInstructions ∧ Claims.RingInit ∧ Claims.Rendezvous

/-- R104, R206, R224 to R228, R231, R232, R234: collective copies at their issue. -/
def Obligations.CollectiveCopies : Prop := Claims.CopySlices ∧ Claims.CopyCancel

/-! ## Engine instructions, launches and budgets -/

namespace Sys2Proof.Claims

/-- An engine instruction may be taken at once: its counter and the reservation table have room (R126, R239). -/
def EngineRoom (s : State) (c : Cur) : Prop := c.t.cnt .tl < 63 ∧ (s.engine (s.engineOf c.t)).entries.length < 32

/-- What the acceptance of an engine operation leaves (R239, R309): its entry, under a new number and with the pages it lacks; the
counter of its team risen; and its registers pending. -/
def OperationTaken (s : State) (c : Cur) (prio : Nat) (op : EngineOp) (missing : List Nat) (refs : List Ref) (u : State) : Prop :=
  ∃ x t, tabGet (u.engine (s.engineOf c.t)).entries s.nextId = some x ∧ x.op = op ∧ x.ent = c.eid ∧ x.teams = [c.e.team] ∧
    x.wg = c.t.wg ∧ x.prio = prio ∧ x.started = false ∧ x.finished = false ∧ x.missing = missing.map pageOf ∧
    tabGet u.teams c.e.team = some t ∧ t.cnt .tl = c.t.cnt .tl + 1 ∧ (∀ r ∈ refs, t.isPending r = true) ∧ t.s = c.t.s ∧ t.v = c.t.v ∧
    u.nextId = s.nextId + 1

/-- A record that the logical state holds, of a format that is in service (R238, R395). -/
def Holds (s : State) (g : Logical) (d : Nat) (w : Word) : Prop := g.format d = some w ∧ s.fmtOff (fmtKind w) = false

/-- R236, R238, R239, R246 to R260: each engine instruction of a team that is in no gang, where what it names is there and fits, is accepted
as its operation. -/
def EngineOperations : Prop :=
  ∀ (s : State) (c : Cur), Standing s c → s.inCluster c.t = true → EngineRoom s c → c.t.gang = none →
    let g := (s.engine (s.engineOf c.t)).logical
    let taken (i : Instr) (n : Nat) (op : EngineOp) : Prop := DoneIn s i c n (OperationTaken s c (s.gridPrio c.t) op [] [])
    let size (n : BitVec 5) : Nat := (c.t.sreg n.toNat).toNat
    (∀ (d : BitVec 4) (w : Word), g.format d.toNat = none → fmtOk w = true → s.fmtOff (fmtKind w) = false →
      (g.recs.map fun r => fmtSpace r.2.1).sum + fmtSpace w ≤ mobBytes → taken (.mres d w) 2 (.mres d.toNat w)) ∧
    (∀ (d : BitVec 4) (w : Word), g.format d.toNat = some w → taken (.mfree d) 1 (.mfree d.toNat)) ∧
    (∀ (d m : BitVec 4) (o : BitVec 5) (w q : Word), g.format d.toNat = some w → g.format m.toNat = some q → fmtKind q = 3 →
      fmtScaled w = true → size o + fmtCount w * fmtBlocks w ≤ fmtCount q * 128 → taken (.mscl d m o) 1 (.mscl d.toNat m.toNat (size o))) ∧
    (∀ (r k : BitVec 4) (o : BitVec 5) (w : Word), Holds s g r.toNat w → fmtRaw w = false → fmtCount w ≤ fmtWide w →
      (fmtScaled w = true → g.scaled r.toNat = true) →
      taken (.mls r false k o) 1 (.mls r.toNat none) ∧
      (g.raw k.toNat = true → size o + fmtWide w ≤ g.elems k.toNat → taken (.mls r true k o) 1 (.mls r.toNat (some (k.toNat, size o))))) ∧
    taken .mswap 1 .mswap ∧
    (∀ t : BitVec 3, taken (.mzero t) 1 (.mzero t.toNat)) ∧
    (∀ (t : BitVec 3) (r : BitVec 4), g.raw r.toNat = true → rawBytes / 4 ≤ g.elems r.toNat → taken (.mfill t r) 1 (.mfill t.toNat r.toNat)) ∧
    (∀ r : BitVec 4, g.raw r.toNat = true → 131 ≤ g.elems r.toNat → taken (.mtab r) 1 (.mtab r.toNat)) ∧
    (∀ (t : BitVec 3) (a : BitVec 4) (q : BitVec 5) (p : BitVec 2) (sat sums : Bool) (w : Word), Holds s g a.toNat w →
      let rows := size q % 128
      let first := size q / 65536
      1 ≤ rows → rows ≤ 64 → bitsOf (size q) 15 7 = 0 → fmtRaw w = false →
      (∀ x ∈ g.active, ∀ f, x = some f → pairClass f = pairClass w) → (sums = true → pairClass w = 4) → (sat = true → accType w = 1) →
      (fmtScaled w = true → g.scaled a.toNat = true) → first + rows ≤ fmtCount w →
      let op (z : Bool) : EngineOp := .mma t.toNat a.toNat first rows c.t.mshape sums sat z p.toNat
      DoneIn s (.mma t a q p false true sat sums) c 1 (OperationTaken s c p.toNat (op true) [] []) ∧
      (g.tile t.toNat = some 0 ∨ g.tile t.toNat = some (accType w) →
        DoneIn s (.mma t a q p false false sat sums) c 1 (OperationTaken s c p.toNat (op false) [] [])) ∧
      (c.e.arrived = none → exec (.mma t a q p true true sat sums) s = .next (c.illop s))) ∧
    (∀ (m : MldSrc) (d : BitVec 4) (b p : BitVec 5) (w : Word) (op : EngineOp) (missing : List Nat), Holds s g d.toNat w →
      judgeMld s g (s.stackOf c.t) (s.ctxOf c.t) c.t.wg m d.toNat
        (if m = .global then (c.t.xreg (b.toNat / 2)).toNat else size b) (size p) c.strict = .take op missing [] →
      DoneIn s (.mld m d b p) c 1 (OperationTaken s c (s.gridPrio c.t) op missing [])) ∧
    (∀ (t : BitVec 3) (x : BitVec 4) (o : BitVec 5) (n : BitVec 6) (w : Word), (cmdRaw w = true ∨ s.fmtOff (outKind (cmdOut w)) = false) →
      judgeMdrain s g c.t.wg t.toNat x.toNat (size o) (n.toNat + 1) w = .take (.mdrain t.toNat x.toNat w (n.toNat + 1) (size o)) [] [] →
      taken (.mdrain t x o n w) 2 (.mdrain t.toNat x.toNat w (n.toNat + 1) (size o)))

/-- R247: `mld` of a whole record from SPAD or CLMEM asks for its bytes from an aligned offset within the allocation, and from global
memory for pages that give no fault, where no walk waits for a port (log 44); a base that is not aligned is ALGN. -/
def MldAsks : Prop :=
  ∀ (s : State) (g : Logical) (stack ctx wid d base : Nat) (strict : Bool) (w : Word), g.format d = some w →
    (∀ q sp, (q, sp) ∈ [(MldSrc.spad, Space.spad), (.clmem, .clmem)] → base % 16 = 0 → base + fmtBytes w ≤ (s.spaceOf wid sp).2 →
      judgeMld s g stack ctx wid q d base 0 strict =
        .take (.mld d q base 0 (fmtCount w) (fmtBytes w) (fmtKind w == 9 && (strict || fmtStrict w))) [] []) ∧
    (base % 16 = 0 → s.copyPages stack ctx (mldPieces base (fmtBytes w)) = none →
      (∀ p ∈ mldPieces base (fmtBytes w), s.walkWaits stack ctx p.1 p.2.1 = false) →
      judgeMld s g stack ctx wid .global d base 0 strict =
        .take (.mld d .global base 0 (fmtCount w) (fmtBytes w) (fmtKind w == 9 && (strict || fmtStrict w)))
          (s.copyAbsent stack ctx (mldPieces base (fmtBytes w))) []) ∧
    ∀ q, base % 16 ≠ 0 → judgeMld s g stack ctx wid q d base 0 strict = .fault cALGN base 0

/-- R256, R260: a raw drain of all 64 rows of a tile of a known type to SPAD asks for its range; a drain of a tile that an `mfill` is to
fill waits. -/
def DrainAsks : Prop :=
  ∀ (s : State) (g : Logical) (wid t o ty : Nat) (w : Word),
    (g.tile t = some ty → cmdRaw w = true → w &&& 0xFFFF9EFF = 0 → cmdDst w = 0 → cmdOut w ≤ 8 → o % 16 = 0 →
      o + rawBytes ≤ (s.spaceOf wid .spad).2 → s.anyResident wid .spad o rawBytes = false →
      judgeMdrain s g wid t 0 o 64 w = .take (.mdrain t 0 w 64 o) [] []) ∧
    (g.tile t = none → judgeMdrain s g wid t 0 o 64 w = .wait)

/-- R236, R239, R126: outside a cluster launch an owned engine instruction is ILLOP; without room in its counter or in the table it waits. -/
def EngineRefusesAndWaits : Prop :=
  ∀ (s : State) (c : Cur) (d : BitVec 4) (w : Word) (t : BitVec 3), Standing s c → c.t.gang = none →
    ∀ i ∈ [Instr.mres d w, .mfree d, .mswap, .mzero t, .mtab d, .mfill t d],
      (s.inCluster c.t = false → exec i s = .next (c.illop s)) ∧
      (s.inCluster c.t = true → 63 ≤ c.t.cnt .tl → exec i s = .next (c.holdAt s .room)) ∧
      (s.inCluster c.t = true → c.t.cnt .tl < 63 → 32 ≤ (s.engine (s.engineOf c.t)).entries.length →
        exec i s = .next (c.holdAt s .engine))

/-- R242, R243, R249: `mgang` joins a gang of up to six teams that exist and takes the team among them, or leaves it; `mshape` sets the
shape; the first team of a gang to come to an operation waits for the others with its reference. -/
def Gangs : Prop :=
  ∀ (s : State) (c : Cur), Standing s c → s.inCluster c.t = true →
    (∀ (b : BitVec 5) (i : BitVec 4), (∀ x ∈ s.ents, x.2.team = c.e.team → x.2.hold = some .gang → x.1 = c.eid) →
      let m := c.t.sreg b.toNat
      let members := (List.range 32).filter fun k => m.getLsbD k
      (m = 0 → exec (.mgang b i) s = .next (c.done s 1 { c.t with gang := none, gangMap := 0 } c.i)) ∧
      (m ≠ 0 → members.length ≤ 6 → m.getLsbD (s.gangBit c.t) = true → (∀ k ∈ members, s.gangBitExists c.t k = true) →
        exec (.mgang b i) s = .next (c.done s 1 { c.t with gang := some i, gangMap := m } c.i)) ∧
      (6 < members.length → exec (.mgang b i) s = .next (c.raise s cGMIS m.toNat))) ∧
    (∀ m : BitVec 4, (m ≠ 0 → exec (.mshape m) s = .next (c.done s 1 { c.t with mshape := m } c.i)) ∧
      (m = 0 → exec (.mshape m) s = .next (c.illop s))) ∧
    (∀ (k : BitVec 4) (t : BitVec 3), c.t.gang = some k → c.e.parent = none → c.e.arrived = none → c.t.cnt .tl < 63 →
      tabGet (s.engine (s.engineOf c.t)).latches k.toNat = none → 1 < popCount (c.t.gangMap.setWidth 1024) →
      ∃ u l, exec (.mzero t) s = .next (c.holdAt u .gang) ∧ tabGet (u.engine (s.engineOf c.t)).latches k.toNat = some l ∧
        l.members = [c.eid] ∧ (u.engine (s.engineOf c.t)).entries = (s.engine (s.engineOf c.t)).entries) ∧
    ∀ (k : BitVec 4) (t : BitVec 3) (l : GangLatch), c.t.gang = some k → c.e.parent = none → c.e.arrived = none → EngineRoom s c →
      tabGet (s.engine (s.engineOf c.t)).latches k.toNat = some l → l.ref = c.gangRef 1 [] [] →
      l.members.length + 1 = popCount (c.t.gangMap.setWidth 1024) → c.inside 1 →
      (∀ m ∈ l.members, m ≠ c.eid ∧ ∃ e i t, tabGet s.ents m = some e ∧ e.hold = some .gang ∧ e.arrived = some k.toNat ∧
        e.issue = some i ∧ i.next + 1 < i.words.length ∧ tabGet s.teams e.team = some t ∧ t.cnt .tl < 63) →
      ∃ u x, exec (.mzero t) s = .next u ∧ tabGet (u.engine (s.engineOf c.t)).entries s.nextId = some x ∧ x.op = .mzero t.toNat ∧
        c.e.team ∈ x.teams ∧ ∀ m ∈ l.members, ∀ e, tabGet s.ents m = some e → e.team ∈ x.teams

/-- R261: `mred.add` and `mscan.add` need no ownership and no gang; their operation takes the active lanes' words, and their results are
pending; those of a scan are of tag G, and where the check at the clause's issue found that they would pass the grant it exhausts (R44). -/
def TeamReductions : Prop :=
  ∀ (s : State) (c : Cur) (t : RedT) (d : BitVec 6) (a : VOp), Standing s c → EngineRoom s c →
    let vals := (lanesOf c.e.mask c.t.lanes).map fun l => (l, lane c t.constTy a l)
    DoneIn s (.mredAdd t d a) c 1
      (OperationTaken s c (s.gridPrio c.t) (.mred false t d.toNat vals c.eid) [] [.s d.toNat, .s (d.toNat + 1)]) ∧
    (c.pastGrant = true → exec (.mscanAdd t d a) s = .next (c.exhaust s cXREG)) ∧
    (c.pastGrant = false → c.inside 1 → ∃ u x m, exec (.mscanAdd t d a) s = .next u ∧
      tabGet (u.engine (s.engineOf c.t)).entries s.nextId = some x ∧ x.op = .mred true t d.toNat vals c.eid ∧
      tabGet u.teams c.e.team = some m ∧ m.isPending (.v d.toNat) = true ∧ m.isPending (.v (d.toNat + 1)) = true ∧
      (m.vreg d.toNat).isG = true ∧ m.cnt .tl = c.t.cnt .tl + 1)

/-- R264, R265, R268, R269: `launch` of a valid record to a queue whose pages are there: 2 where the queue is disabled, 1 where its ring
is full, and 0 where the record is published as a child of the workgroup.  It waits for the entity's earlier accesses, and at a page
that is not there, with its destination pending, and while an access that it makes must wait for a port (log 44). -/
def LaunchResults : Prop :=
  ∀ (s : State) (c : Cur) (d a q : BitVec 6), Standing s c →
    let ptr := (c.t.xreg (a.toNat / 2)).toNat
    let n := (c.t.sreg q.toNat).toNat
    let depth := match s.gridOf c.t with | some g => g.depth | none => 0
    let ctx := s.ctxOf c.t
    let stack := s.stackOf c.t
    let seen := (s.observe c.t).touchRange stack ctx ptr 128
    let ready := seen.touchRange stack ctx (seen.queueAddr ctx n) 64
    let h := ready.queueHdr stack ctx n
    let sized := h.en = true ∧ 1 ≤ h.logs ∧ h.logs ≤ 12
    let answers (v : Word) : Prop := exec (.launch d a q) s = .next (c.teamWord ready fun t => (t.clearPend c.eid).setS d.toNat v)
    let waits (h : Hold) (u : State) : Prop := exec (.launch d a q) s = .next (c.holdAt u h) ∧
      ∃ t, tabGet u.teams c.e.team = some t ∧ (c.t.pend.any (fun p => p.op == c.eid) = false → t.isPending (.s d.toNat) = true)
    c.e.parkedPc = none →
    (s.inPhase c.t = true → exec (.launch d a q) s = .next (c.raise s cWINV 0)) ∧
    (s.inPhase c.t = false → 10 ≤ depth → exec (.launch d a q) s = .next (c.raise s cLDEPTH 0)) ∧
    (s.inPhase c.t = false → depth < 10 → 63 < n → exec (.launch d a q) s = .next (c.illop s)) ∧
    (s.inPhase c.t = false → depth < 10 → n ≤ 63 → ptr % 128 ≠ 0 → exec (.launch d a q) s = .next (c.raise s cALGN ptr)) ∧
    (s.inPhase c.t = false → depth < 10 → n ≤ 63 → ptr % 128 = 0 → s.settledEnt c.eid = false → ∃ u, waits .order u) ∧
    (s.inPhase c.t = false → depth < 10 → n ≤ 63 → ptr % 128 = 0 → s.settledEnt c.eid = true →
      (s.observe c.t).rangeWaits stack ctx [.load] ptr 128 = true → ∃ u, waits .order u) ∧
    (s.inPhase c.t = false → depth < 10 → n ≤ 63 → ptr % 128 = 0 → s.settledEnt c.eid = true →
      (s.observe c.t).rangeWaits stack ctx [.load] ptr 128 = false →
      (∀ x a1 a2, (s.observe c.t).rangeCheck stack ctx [.load] ptr 128 = .fault x a1 a2 →
        exec (.launch d a q) s = .next (c.raiseWith (s.observe c.t) { c.fault x a1 with addr2 := a2 })) ∧
      (∀ b, (s.observe c.t).rangeCheck stack ctx [.load] ptr 128 = .absent b → s.replayRoom (s.partOf c.t) 1 0 = true →
        ∃ u e, waits .record u ∧ tabGet u.ents c.eid = some e ∧ e.parkedPc = some (pageOf b)) ∧
      ((s.observe c.t).rangeCheck stack ctx [.load] ptr 128 = .ok →
        (recValid (seen.deviceLoad stack ctx ptr 128) false = false → exec (.launch d a q) s = .next (c.illop seen)) ∧
        (recValid (seen.deviceLoad stack ctx ptr 128) false = true →
          seen.rangeWaits stack ctx [.load, .store] (seen.queueAddr ctx n) 64 = false →
          seen.rangeCheck stack ctx [.load, .store] (seen.queueAddr ctx n) 64 = .ok →
          (¬ sized → answers 2) ∧
          (sized → 2 ^ h.logs ≤ h.used → answers 1) ∧
          (sized → h.used < 2 ^ h.logs → ready.rangeWaits stack ctx [.store] (h.slot h.tail) 128 = false →
            ready.rangeCheck stack ctx [.store] (h.slot h.tail) 128 = .ok →
            DoneIn s (.launch d a q) c 1 fun u => ∃ t, tabGet u.teams c.e.team = some t ∧ t = (c.t.clearPend c.eid).setS d.toNat 0 ∧
              (∀ w, tabGet s.wgs c.t.wg = some w → ∃ w', tabGet u.wgs c.t.wg = some w' ∧ w'.kids = w.kids ++ [s.nextId]) ∧
              u.nextId = s.nextId + 1))))

/-- R276, R277: `spgrow` and `lpgrow` give the old size and grow the allocation, or are the fault of a budget, or ALGN with the size that is no multiple of 256 as its address (log 21); `allow` asks whether the
phase has so many words left. -/
def Budgets : Prop :=
  ∀ (s : State) (c : Cur) (d a : BitVec 6) (w : Workgroup) (g : Grid), Standing s c → tabGet s.wgs c.t.wg = some w →
    tabGet s.grids w.grid = some g →
    let n := (c.t.sreg a.toNat).toNat
    let top := c.t.laneSize + n + c.t.callArea g.rcd.laneMax
    (n % 256 = 0 → w.spadSize + n ≤ g.rcd.spadMax → exec (.spgrow d a) s =
      .next (c.teamWord { s with wgs := tabPut s.wgs c.t.wg { w with spadSize := w.spadSize + n } }
        fun t => t.setS d.toNat (BitVec.ofNat 32 w.spadSize))) ∧
    (n % 256 = 0 → g.rcd.spadMax < w.spadSize + n → exec (.spgrow d a) s = .next (c.exhaust s cXSPAD)) ∧
    (n % 256 = 0 → top ≤ g.rcd.laneMax → exec (.lpgrow d a) s =
      .next (c.done s 1 { c.t.setS d.toNat (BitVec.ofNat 32 c.t.laneSize) with laneSize := c.t.laneSize + n } c.i)) ∧
    (n % 256 = 0 → g.rcd.laneMax < top → exec (.lpgrow d a) s = .next (c.exhaust s cXLANE)) ∧
    (n % 256 ≠ 0 → exec (.spgrow d a) s = .next (c.raise s cALGN n) ∧ exec (.lpgrow d a) s = .next (c.raise s cALGN n)) ∧
    (w.phase = false ∨ w.words + (c.t.xreg (a.toNat / 2)).toNat ≤ g.rcd.allow → exec (.allow a) s = .next (c.done s 1 c.t c.i)) ∧
    (w.phase = true → g.rcd.allow < w.words + (c.t.xreg (a.toNat / 2)).toNat → exec (.allow a) s = .next (c.exhaust s cXALW))

/-- R268, R270: `qwait` counts, over the children launched so far, the grids at and below them that had an entity ended by a fault, once
all of them have retired; until then it waits with its destination pending; in a fragment, or with a path detached or deferred, it is
ILLOP. -/
def ChildrenWaited : Prop :=
  ∀ (s : State) (c : Cur) (d : BitVec 6) (w : Workgroup), Standing s c → tabGet s.wgs c.t.wg = some w → c.e.arrived = none →
    let lone := c.e.parent = none ∧ (∀ x ∈ s.ents, x.2.parent ≠ some c.eid) ∧ c.e.slots = []
    let kids := w.kids.filter fun k => decide (k < s.nextId)
    let retired (k : Nat) : Prop := ∃ g, tabGet s.grids k = some g ∧ g.retired = true
    (¬ lone → exec (.qwait d) s = .next (c.illop s)) ∧
    (lone → (∀ k ∈ kids, retired k) → DoneIn s (.qwait d) c 1 fun u => ∃ t, tabGet u.teams c.e.team = some t ∧
      t = (c.t.clearPend c.eid).setS d.toNat (BitVec.ofNat 32 ((kids.map fun k => s.kidFaults k).sum))) ∧
    (lone → (∃ k ∈ kids, ¬ retired k) → ∃ u t, exec (.qwait d) s = .next (c.holdAt u .qwait) ∧ tabGet u.teams c.e.team = some t ∧
      t.s = c.t.s ∧ (c.t.pend.any (fun p => p.op == c.eid) = false → t.isPending (.s d.toNat) = true))

end Sys2Proof.Claims

/-- R236 to R261: the engine instructions at their issue, alone and in gangs. -/
def Obligations.EngineInstructions : Prop :=
  Claims.EngineOperations ∧ Claims.MldAsks ∧ Claims.DrainAsks ∧ Claims.EngineRefusesAndWaits ∧ Claims.Gangs ∧ Claims.TeamReductions

/-- R264, R265, R269, R270, R276, R277: launching, waiting for children, and budgets. -/
def Obligations.LaunchesAndBudgets : Prop := Claims.LaunchResults ∧ Claims.Budgets ∧ Claims.ChildrenWaited

/-! ## The engine's arithmetic and the reductions' orders -/

namespace Sys2Proof.Claims

/-- A number's value, 0 where it is not finite; whether it is finite, a NaN or an infinity; and the number of an integer or of absent. -/
noncomputable def realOf : Machine.Num → ℝ
  | .fin n m e => valueOf n m e
  | _ => 0
def IsFin (z : Machine.Num) : Prop := ∃ n m e, z = .fin n m e
def IsNan (z : Machine.Num) : Prop := ∃ g, z = .nan g
def IsInf (z : Machine.Num) : Prop := ∃ n, z = .inf n
def numOfOption : Option Int → Machine.Num
  | none => .absent
  | some i => numOfInt i

/-- A value rounded to nearest in a format, which keeps a zero a zero; and the nearest integer, ties to even. -/
def Nearest (f : FFmt) (sat : Bool) (x : ℝ) (r : Nat × Word) : Prop :=
  (x = 0 → (∃ n e, numOf f r.1 = .fin n 0 e) ∧ r.2 = 0) ∧ (x ≠ 0 → RoundsTo f .ne sat x r)
noncomputable def evenInt (x : ℝ) : Int := if x < 0 then -roundInt .ne false |x| else roundInt .ne false |x|

/-- A finite value `y` that a value `x` becomes where it is rounded to nearest in a format, with the flags. -/
def Becomes (f : FFmt) (x y : ℝ) (w : Word) : Prop := ∃ k, Nearest f false x (k, w) ∧ IsFin (numOf f k) ∧ realOf (numOf f k) = y

/-- R82, R84, R85: one group of an `mma`'s element.  Without a present pair nothing changes.  With one, the count grows by the present
pairs up to 65,535, with CSAT past it; a float accumulator takes the exact sum of the products, times both scales, in one rounding to
nearest, an absent accumulator being the identity; a NaN, 0 × ∞, infinities of both signs and an infinite scale of a sum of zero give the
canonical NaN, the invalid ones with NV; an INT32 accumulator wraps, or saturates with SATACC. -/
def GroupRule : Prop :=
  (∀ (xs ys : List Machine.Num) (scales : Option (Machine.Num × Machine.Num)) (acc cnt : Nat) (sat : Bool),
    let present := (xs.zip ys).filter fun p => decide (p.1 ≠ .absent) && decide (p.2 ≠ .absent)
    let sum := (present.map fun p => realOf p.1 * realOf p.2).sum
    let factors := scales.toList.flatMap fun p => [p.1, p.2]
    let parts := factors ++ present.flatMap fun p => [p.1, p.2]
    let counts : Word := if 65535 < cnt + present.length then 0x40 else 0
    (present = [] → ∀ ty, groupStep ty sat scales xs ys acc cnt = (acc, cnt, 0)) ∧
    ∀ r ∈ [(2, fmtF32), (3, fmtF64)], present ≠ [] → (∀ x ∈ factors, x ≠ .absent) →
      let z := numOf r.2 acc
      let g := groupStep r.1 sat scales xs ys acc cnt
      let inf (n : Bool) : Prop := z = .inf n ∨ ∃ p ∈ present, (IsInf p.1 ∨ IsInf p.2) ∧ n = (p.1.sign != p.2.sign)
      let invalid : Prop := ∃ p ∈ present, IsInf p.1 ∧ IsFin p.2 ∧ realOf p.2 = 0 ∨ IsInf p.2 ∧ IsFin p.1 ∧ realOf p.1 = 0
      let invalidNan : Prop := g.1 = r.2.nan ∧ g.2.2.getLsbD 0 = true
      g.2.1 = min 65535 (cnt + present.length) ∧
      ((∀ x ∈ parts, IsFin x) → z = .absent ∨ IsFin z → ∃ f, g.2.2 = f ||| counts ∧
        Nearest r.2 false (realOf z + sum * (factors.map realOf).prod) (g.1, f)) ∧
      ((∃ x ∈ z :: parts, IsNan x) → g.1 = r.2.nan ∧ ((∃ x ∈ z :: parts, x = .nan true) → invalidNan)) ∧
      (invalid → invalidNan) ∧
      ((∀ p ∈ present, IsFin p.1 ∧ IsFin p.2) → sum = 0 → (∃ x ∈ factors, IsInf x) → (∀ x ∈ factors, ¬ IsNan x) → invalidNan) ∧
      (scales = none → (∀ x ∈ z :: parts, ¬ IsNan x) → ¬ invalid →
        (inf true → inf false → invalidNan) ∧
        ∀ i n, r.2.inf = some i → inf n → ¬ inf (!n) → (g.1, g.2.2) = (i + (if n then 2 ^ (r.2.width - 1) else 0), counts))) ∧
  ∀ (us vs : List (Option Int)) (acc cnt : Nat) (sat : Bool), acc < 2 ^ 32 →
    let prods := (us.zip vs).filterMap fun p => p.1.bind fun x => p.2.map fun y => x * y
    let t := (BitVec.ofNat 32 acc).toInt + prods.sum
    let r := if sat then codeOf .i32 (some t) else ((BitVec.ofInt 32 t).toNat, 0)
    groupStep 1 sat none (us.map numOfOption) (vs.map numOfOption) acc cnt =
      if prods = [] then (acc, cnt, 0)
      else (r.1, min 65535 (cnt + prods.length), r.2 ||| if 65535 < cnt + prods.length then 0x40 else 0)

/-- R83, R84: the groups of an element are taken in ascending order, each with its own scales, the next from what the last left; how long
they are, and what accumulates them, is by the format. -/
def GroupsInOrder : Prop :=
  (∀ (ty g n : Nat) (sat : Bool) (sa sb xs xs' ys ys' : List Machine.Num) (acc cnt : Nat), xs.length = g * n → ys.length = g * n →
    0 < xs'.length → xs'.length ≤ g → ys'.length = xs'.length →
    let a := groupFold ty sat g sa sb xs ys acc cnt
    let b := groupStep ty sat (sa[n]?.bind fun x => sb[n]?.map fun y => (x, y)) xs' ys' a.1 a.2.1
    groupFold ty sat g sa sb (xs ++ xs') (ys ++ ys') acc cnt = (b.1, b.2.1, a.2.2 ||| b.2.2)) ∧
  (∀ (ty g acc cnt : Nat) (sat : Bool) (sa sb : List Machine.Num), 0 < g → groupFold ty sat g sa sb [] [] acc cnt = (acc, cnt, 0)) ∧
  ∀ w : Word, fmtOk w = true → w.toNat % 16 < 10 →
    (w.toNat / 256 % 4 = 0 → (groupSize w, accType w) =
      [(8, 3), (16, 2), (16, 2), (16, 2), (32, 2), (32, 2), (32, 1), (32, 1), (32, 1), (32, 1)].getD (w.toNat % 16) (0, 0)) ∧
    (w.toNat / 256 % 4 ≠ 0 → (groupSize w, accType w) = (16 * 2 ^ (w.toNat / 256 % 4), 2))

/-- R70 to R73, R248: the elements of a record: a bpi element from its planes, with the centre; a tern5 element from its digit; a scale
from its place in the record attached; and an element of an absent block, which is absent. -/
def RecordElements : Prop :=
  ∀ (e : Engine) (r : MobRecord),
    (∀ i : Nat,
      let p := 64 * ((fmtCount r.format + 1) / 2)
      let k := if r.format.toNat / 16 % 8 = 0 then 8 else r.format.toNat / 16 % 8
      let bit (plane : Nat) : Int := if (r.byte (plane * p + i / 8)).getLsbD (i % 8) then 1 else 0
      let t : Int := ((List.range (k - 1)).map fun j => bit (2 + j) * 2 ^ (k - 2 - j)).sum - bit 1 * 2 ^ (k - 1)
      let mid : Int := if r.format.getLsbD 7 = true ∧ k < 8 then 2 ^ (7 - k) else 0
      r.bpi i = if bit 0 = 1 then numOfInt (t * 2 ^ (8 - k) + mid) else .absent) ∧
    (∀ row j : Nat,
      let b := (r.byte (52 * row + j / 5)).toNat
      r.tern row j = if b < 243 then (numOfInt ([0, 1, -1].getD (b / 3 ^ (j % 5) % 3) 0), false) else (.absent, decide (b ≠ 243))) ∧
    (∀ (m off row block : Nat) (q : MobRecord), r.scales = some (m, off) → tabGet e.recs m = some q → fmtKind q.format = 3 →
      let i := 2 * (off + row * fmtBlocks r.format + block)
      e.scale r row block = numOf fmtBf16 ((q.byte i).toNat + 256 * (q.byte (i + 1)).toNat)) ∧
    ∀ row, (e.row r row).1 = (List.range (fmtLen r.format)).map fun j =>
      if fmtBlock r.format ≠ 0 ∧ e.scale r row (j / fmtBlock r.format) = .absent then .absent else (r.elem row j).1

/-- R249, R250: a column of the plane that `mls` loads is a row of its record, absent past the record's rows, and takes that row's scales; its
sum is that of its present values modulo 2^32, or the FP32 group sum from zero, and is the absent code where none is present. -/
def PlanesAndColumnSums : Prop :=
  ∀ (e : Engine) (r : MobRecord),
    (∀ n, n < fmtWide r.format →
      let b := e.loadBand r (n / (fmtWide r.format / 4))
      b.column (fmtLen r.format) n =
        (if n < fmtCount r.format then (e.row r n).1 else List.replicate (fmtLen r.format) .absent) ∧
      (n < fmtCount r.format → b.scalesOf (fmtBlocks r.format) n = e.rowScales r n)) ∧
    ∀ n,
      let xs := if n < fmtCount r.format then (e.row r n).1 else []
      let present := xs.filter fun x => decide (x ≠ .absent)
      (fmtInt r.format = true → present = [] → e.columnSum r n = (0x80000000, 0)) ∧
      (fmtInt r.format = true → present ≠ [] → ∃ z : Int, (z : ℝ) = (present.map realOf).sum ∧
        e.columnSum r n = ((BitVec.ofInt 32 z).toNat, 0)) ∧
      (fmtInt r.format = false → present = [] → e.columnSum r n = (0xFF800001, 0)) ∧
      (fmtInt r.format = false → present ≠ [] →
        let g := groupFold 2 false (groupSize r.format) (e.rowScales r n) ((e.rowScales r n).map fun _ => numOfInt 1) xs
          (xs.map fun _ => numOfInt 1) 0 0
        e.columnSum r n = (g.1, g.2.2))

/-- R81, R254: row `i` of an `mma`: each element of a band in the shape takes the groups of its row and its column, with the scales of both;
every other element of the tile, and with ROWSUM every other row sum, stays; the row's sum grows by its present values. -/
def MmaRows : Prop :=
  ∀ (e : Engine) (r : MobRecord) (row i : Nat) (m : BitVec 4) (rowsum sat : Bool) (t : Tile), fmtKind r.format < 10 →
    let w := r.format
    let u := (e.mmaRow r row i m rowsum sat t).1
    (∀ n, n < fmtWide w →
      let b := e.band (n / (fmtWide w / 4))
      let g := groupFold (accType w) sat (groupSize w) (e.rowScales r row) (b.scalesOf (fmtBlocks w) n) (e.row r row).1
        (b.column (fmtLen w) n) (t.code (accType w) i n) (t.count (accType w) i n)
      if m.getLsbD (n / (fmtWide w / 4)) = true ∧ b.format ≠ none then
        u.code (accType w) i n = g.1 ∧ u.count (accType w) i n = g.2.1
      else u.code (accType w) i n = t.code (accType w) i n ∧ u.count (accType w) i n = t.count (accType w) i n) ∧
    (∀ j n, j ≠ i → n < tileWidth (accType w) → u.code (accType w) j n = t.code (accType w) j n ∧
      u.count (accType w) j n = t.count (accType w) j n) ∧
    (∀ j, j ≠ i ∨ rowsum = false → u.rowSum j = t.rowSum j) ∧
    (fmtInt w = true → rowsum = true → ∃ z : Int, (z : ℝ) = ((e.row r row).1.map realOf).sum ∧ u.rowSum i = t.rowSum i + BitVec.ofInt 32 z)

/-- R258: a drained element.  One of count 0, or whose value is absent, is the absent code, or zero with ABSZ, with ABS.  Any other goes
through the stages in their order, each rounded once as it says; the row sum of ZP is read as signed (log 35).  The last stage rounds to
a float format, or to an integer, ties to even, and saturates. -/
def DrainStages : Prop :=
  ∀ (a : ActTable) (aux : Nat → Nat) (t : Tile) (cmd : Word) (m n : Nat), (∀ i, aux i < 2 ^ 32) →
    let z : Machine.Num := if t.ty = 1 then numOfInt (BitVec.ofNat 32 (t.code 1 m n)).toInt
      else if t.ty = 3 then numOf fmtF64 (t.code 3 m n) else numOf fmtF32 (t.code 2 m n)
    let c := t.count t.ty m n
    let e := if t.ty = 3 then 128 else 256
    let on (i : Nat) : Bool := cmd.getLsbD i
    let o := cmd.toNat / 512 % 16
    let float : Option FFmt := [some fmtF32, some fmtF16, some fmtBf16, some fmtE4m3, some fmtE5m2].getD o none
    let int : ValT := [ValT.i32, .i8, .n8, .i16].getD (o - 5) .i32
    let signed (x : Nat) : ℝ := ((BitVec.ofNat 32 x).toInt : ℝ)
    let r := drainElem a aux t cmd m n
    let plain : Prop := ∀ i < 5, on i = false
    t.ty ∈ [1, 2, 3] → o < 9 →
    (c = 0 ∨ z = .absent → r = (if on 7 then 0 else match float with | some f => f.absent | none => valAbsent int, 0x80)) ∧
    (c ≠ 0 → IsFin z → (on 0 = true → t.ty = 1) → ∀ (y1 y2 y3 y4 : ℝ) (f1 f2 f3 : Word),
      let y0 := realOf z - if on 0 then signed (aux (2 * e + n)) * ((t.rowSum m).toInt : ℝ) else 0
      let bias := numOf fmtF32 (aux n)
      (if on 1 then (if t.ty = 1 then y1 = evenInt (y0 / c) ∧ f1 = 0 else Becomes (if t.ty = 3 then fmtF64 else fmtF32) (y0 / c) y1 f1)
        else y1 = y0 ∧ f1 = 0) →
      (if on 2 then (bias = .absent ∨ IsFin bias) ∧ Becomes fmtF32 (y1 + realOf bias) y2 f2 else y2 = y1 ∧ f2 = 0) →
      (if on 3 then ∃ k w, Nearest fmtF32 false y2 (k, w) ∧ (y2 = 0 → a.eval 0 = a.eval 0x80000000) ∧ IsFin (numOf fmtF32 (a.eval k).1) ∧
          y3 = realOf (numOf fmtF32 (a.eval k).1) ∧ f3 = w ||| (a.eval k).2
        else y3 = y2 ∧ f3 = 0) →
      (if on 4 then y4 = evenInt (y3 * signed (aux (e + n)) / 2 ^ (31 + cmd.toNat / 32768 % 32)) +
          ((BitVec.ofNat 8 (cmd.toNat / 1048576)).toInt : ℝ)
        else y4 = y3) →
      ∃ f5, r.2 = f1 ||| f2 ||| f3 ||| f5 ∧ match float with
        | some f => Nearest f (on 5) y4 (r.1, f5)
        | none => (r.1, f5) = codeOf int (some (evenInt y4))) ∧
    (c ≠ 0 → plain → IsNan z → match float with
      | some f => r.1 = f.nan
      | none => r.1 = 0 ∧ r.2 = 1) ∧
    (∀ s, c ≠ 0 → plain → z = .inf s → r = match float with
      | some f => (match f.inf with
        | some i => (i + (if s then 2 ^ (f.width - 1) else 0), 0)
        | none => (overflowCode f .ne (on 5) s, 0x14))
      | none => ((codeOf int (some (if s then valLow int else valHigh int))).1, 0x21))

/-- R259: the activation table of a finite value inside it: the segment by the floor of the scaled distance, the ends' segments going on
past them, and one rounding to nearest at each step; an absent origin, step or point makes the result absent. -/
def ActivationTable : Prop :=
  ∀ (a : ActTable) (v : Nat), IsFin (numOf fmtF32 v) →
    let num (w : Word) : Machine.Num := numOf fmtF32 w.toNat
    let y (i : Nat) : Word := a.ys.getD i 0
    (num a.x0 = .absent ∨ num a.h = .absent → (a.eval v).1 = 0xFF800001) ∧
    (IsFin (num a.x0) → IsFin (num a.h) → ∀ (d t s p : ℝ) (f1 f2 f3 f4 f5 : Word) (k : Nat),
      Becomes fmtF32 (realOf (numOf fmtF32 v) - realOf (num a.x0)) d f1 → Becomes fmtF32 (d * realOf (num a.h)) t f2 →
      let i := (max 0 (min 127 ⌊t⌋)).toNat
      (num (y i) = .absent ∨ num (y (i + 1)) = .absent → (a.eval v).1 = 0xFF800001) ∧
      (IsFin (num (y i)) → IsFin (num (y (i + 1))) → Becomes fmtF32 (realOf (num (y (i + 1))) - realOf (num (y i))) s f3 →
        Becomes fmtF32 ((t - i) * s) p f4 → realOf (num (y i)) + p ≠ 0 → Nearest fmtF32 false (realOf (num (y i)) + p) (k, f5) →
        a.eval v = (k, f1 ||| f2 ||| f3 ||| f4 ||| f5)))

/-- R233: what two ranks combine to, the lower rank first: f32 by `fadd` to nearest, i32 in the skip class with saturation, and cells in value
and count. -/
def CredCombines : Prop :=
  (∀ x y, combine 0 x y = float2 fmtF32 .ne false .add x y) ∧
  (∀ x y, x < 2 ^ 32 → y < 2 ^ 32 → combine 1 x y = codeOf .i32 (skipped (· + ·) (valOf .i32 x) (valOf .i32 y))) ∧
  ∀ x y cx cy, x < 2 ^ 32 → y < 2 ^ 32 → cx ≤ 65535 → cy ≤ 65535 →
    let cell (v n : Nat) : Nat := v + 4294967296 * n
    let sum := float2 fmtF32 .ne false .add x y
    combine 2 (cell x cx) (cell y 0) = (cell x cx, 0) ∧
    (0 < cy → (∀ g, numOf fmtF32 y ≠ .nan g) → combine 2 (cell x 0) (cell y cy) = (cell y cy, 0)) ∧
    (0 < cx → 0 < cy → combine 2 (cell x cx) (cell y cy) =
      (cell sum.1 (min 65535 (cx + cy)), if 65535 < cx + cy then sum.2 ||| 0x40 else sum.2))

/-- The value that rank `q` holds after some levels of the fixed tree (R233), and the flags raised below it. -/
def treeNode (ety : Nat) (vs : List Nat) : Nat → Nat → Nat × Word
  | 0, q => (vs.getD q 0, 0)
  | j + 1, q =>
    let a := treeNode ety vs j q
    let b := treeNode ety vs j (q + 2 ^ j)
    if q + 2 ^ j < vs.length then ((combine ety a.1 b.1).1, a.2 ||| b.2 ||| (combine ety a.1 b.1).2) else a

/-- R233: the fixed tree over the ranks of a reduction: level by level in pairs, the lower rank first; an element with nothing present comes
out absent, or as a cell of +0 and count 0, with ABS; and every element of the result is the tree of that element of every rank. -/
def CredTree : Prop :=
  (∀ (ety : Nat) (vs : List Nat), vs ≠ [] → vs.length ≤ 1024 → ety < 3 →
    let r := treeNode ety vs 10 0
    let count := min 65535 (r.1 / 4294967296)
    let absent : Prop := if ety = 0 then numOf fmtF32 r.1 = .absent else if ety = 1 then r.1 = 0x80000000 else count = 0
    (treeSum ety vs).1 = (if ety < 2 then r.1 else if count = 0 then 0 else r.1 % 4294967296 + 4294967296 * count) ∧
    (absent → (treeSum ety vs).2 = r.2 ||| 0x80) ∧ (¬ absent → (treeSum ety vs).2 = r.2)) ∧
  ∀ (ety bytes : Nat) (arrays : List (List Byte)),
    let n := if ety = 2 then 8 else 4
    let elem (i : Nat) : Nat × Word := treeSum ety (arrays.map fun b => leNat ((b.drop (n * i)).take n))
    (credResult ety bytes arrays).1 = (List.range (bytes / n)).flatMap (fun i => leBytes n (elem i).1) ∧
    (credResult ety bytes arrays).2 = ((List.range (bytes / n)).map fun i => (elem i).2).foldr (· ||| ·) 0

/-- R86, R261: a team-wide reduction adds its lanes in groups of 16, each group in one rounding from the accumulator before it, and a lane's
prefix is the accumulator before its group plus the group's contributions up to it, rounded once; the counts are those of the present
contributions; without one, the result is absent with ABS. -/
def TeamSums : Prop :=
  (∀ (t : RedT) (xs ys : List (Nat × Word)) (g : Nat), (∀ x ∈ xs, x.1 / 16 ≠ g) → (∀ y ∈ ys, y.1 / 16 = g) → ys ≠ [] →
    let present (w : Word) : List Machine.Num := (redItems t w).filter fun x => decide (x ≠ .absent)
    let gone : Nat := match t with | .i32 => 0x80000000 | _ => 0xFF800001
    let r := reduceTeam t xs
    let n := r.1.2.1
    let start := if n = 0 then (0, (0 : Word)) else (r.1.1, r.1.2.2)
    let upTo (k : Nat) : List Machine.Num := (ys.take k).flatMap fun y => present y.2
    let sum (k : Nat) : Nat × Word := if upTo k = [] then (start.1, 0) else redAdd t start.1 (upTo k)
    let all := n + (upTo ys.length).length
    (reduceTeam t (xs ++ ys)).1 =
      (if all = 0 then gone else (sum ys.length).1, all, if all = 0 then 0x80 else start.2 ||| (sum ys.length).2) ∧
    (reduceTeam t (xs ++ ys)).2.1 = r.2.1 ++ (List.range ys.length).map fun i =>
      ((ys.getD i (0, 0)).1, if n + (upTo (i + 1)).length = 0 then gone else (sum (i + 1)).1, n + (upTo (i + 1)).length)) ∧
  (∀ t, (reduceTeam t []).1.2.1 = 0 ∧ (reduceTeam t []).2.1 = []) ∧
  (∀ (t : RedT) (acc : Nat) (xs : List Machine.Num), t ≠ .i32 → (∀ x ∈ xs, IsFin x) → numOf fmtF32 acc = .absent ∨ IsFin (numOf fmtF32 acc) →
    Nearest fmtF32 false (realOf (numOf fmtF32 acc) + (xs.map realOf).sum) (redAdd t acc xs)) ∧
  ∀ (acc : Nat) (is : List Int), acc < 2 ^ 32 →
    redAdd .i32 acc (is.map numOfInt) = ((BitVec.ofInt 32 ((BitVec.ofNat 32 acc).toInt + is.sum)).toNat, 0)

end Sys2Proof.Claims

/-- R72, R73, R81 to R86, R233, R250, R254, R258: the arithmetic of the engine, from a record's elements to a drained one, and the orders in
which the other reductions add. -/
def Obligations.EngineArithmetic : Prop :=
  Claims.GroupRule ∧ Claims.GroupsInOrder ∧ Claims.RecordElements ∧ Claims.PlanesAndColumnSums ∧ Claims.MmaRows ∧ Claims.DrainStages ∧
    Claims.ActivationTable ∧ Claims.CredCombines ∧ Claims.CredTree ∧ Claims.TeamSums

/-! ## Privileged instructions, markers and breakpoints -/

namespace Sys2Proof.Claims

/-- R312 to R314, R327, R329, R330, R336: the privileged instructions.  `pcsrr` and `pcsrw` wait for every earlier access of their entity,
and `rqrel` for those that no missing mapping holds back, the others being what it releases (log 37).  `tinv` waits for the stores ordered
before it that no missing mapping holds back, and for every access that an old translation serves; then no L1 keeps what such a store left
dirty.  The pair of a register's low word is kept for the read of its high word under a number of its own (log 33).  A `pcsrw` that asks
for the semaphore while the other port asks too completes as R314 decides. -/
def PrivilegedWords : Prop :=
  ∀ (s : State) (c : Cur) (d a b : BitVec 6), Standing s c →
    let o := s.observe c.t
    let n := (c.t.sreg a.toNat).toNat
    let w := c.t.sreg b.toNat
    let ctx := w.toNat % 64
    let page := pageOf (c.t.xreg (a.toNat / 2)).toNat
    let stores : Prop := ∃ k ∈ s.orderedBefore c.eid, k ∉ s.heldByParking ∧ ∃ op, tabGet s.ops k = some op ∧ op.kind ≠ .load
    let port := (o.ctx (o.ctxOf c.t)).port
    (s.settledEnt c.eid = false → ∀ i ∈ [Instr.pcsrr d a, .pcsrw a b], exec i s = .next (c.holdAt s .order)) ∧
    ((stores ∨ s.usesPage ctx page (w.getLsbD 31) = true) → exec (.tinv a b) s = .next (c.holdAt s .tinv)) ∧
    (¬ stores → s.usesPage ctx page (w.getLsbD 31) = false →
      exec (.tinv a b) s = .next (c.advance ((s.l1Cols.foldl State.l1Sync s).tlbDrop ctx page (w.getLsbD 31)) 1)) ∧
    ((∃ k ∈ s.unperformed c.eid, k ∉ s.heldByParking) → exec (.rqrel a b) s = .next (c.holdAt s .order)) ∧
    ((∀ k ∈ s.unperformed c.eid, k ∈ s.heldByParking) → exec (.rqrel a b) s =
      .next (c.advance ((o.release ctx page (w.getLsbD 31) (w.getLsbD 30)).rewriteParked ctx) 1)) ∧
    (s.settledEnt c.eid = true →
      (o.privPair n = none → (n < 4 ∨ o.privPair (n - 4) = none) →
        exec (.pcsrr d a) s = .next (c.teamWord o fun t => t.setS d.toNat (BitVec.ofNat 32 (o.privWord n)))) ∧
      (∀ v, o.privPair n = some v → DoneIn s (.pcsrr d a) c 1 fun u =>
        (∃ t, tabGet u.teams c.e.team = some t ∧ t = c.t.setS d.toNat (v.setWidth 32)) ∧
        ∃ e, tabGet u.ents c.eid = some e ∧ e.snap = some (4294967296 + n, v)) ∧
      (∀ v x, o.privPair n = none → 4 ≤ n → o.privPair (n - 4) = some v → c.e.snap = some (4294967296 + (n - 4), x) →
        exec (.pcsrr d a) s = .next (c.teamWord o fun t => t.setS d.toNat ((x >>> 32).setWidth 32))) ∧
      (n ≠ 0 ∨ w.getLsbD 2 = false ∨ (c.advance o 1).rivalAsk port = none →
        exec (.pcsrw a b) s = .next ((c.advance o 1).privWrite port n w)) ∧
      ∃ u, exec (.pcsrw a b) s = .next u)

/-- R330, R336: what `tinv` takes from the TLBs, and what a release does to the replay queue. -/
def TranslationsDropped : Prop :=
  ∀ (s : State) (c p : Nat) (all : Bool),
    (∀ st ∈ (s.tlbDrop c p all).tlb, ∀ e ∈ st.2, e.ctx = c → all = false ∧ e.page / 2 ^ (10 * e.level) ≠ p / 2 ^ (10 * e.level)) ∧
    (∀ st ∈ s.tlb, ∀ e ∈ st.2, e.ctx ≠ c → ∃ x ∈ (s.tlbDrop c p all).tlb, x.1 = st.1 ∧ e ∈ x.2) ∧
    ∀ (fail : Bool) (k : Nat) (r : ReplayEntry) (t : Team), tabGet s.replay k = some r → tabGet s.teams r.team = some t →
      tabGet (s.release c p all fail).replay k = some
        (if s.ctxOf t = c ∧ (all = true ∨ r.page = p) then { r with released := true, fail := r.fail || fail } else r)

/-- R331: `hlt` holds its entity until EVPEND AND EVMASK is non-zero, writes that value to the pair, its low 32 bits in the even scalar
and its high ones in the odd scalar, and clears nothing. -/
def HltWaitsForEvents : Prop :=
  ∀ (s : State) (c : Cur) (d : BitVec 6), Standing s c →
    let v := s.evPend &&& s.evMask
    (v = 0 → exec (.hlt d) s = .next (c.holdAt s .hlt)) ∧
    (v ≠ 0 → exec (.hlt d) s = .next (pairDone c s d v)) ∧
    (v ≠ 0 → c.inside 1 → ∀ t, exec (.hlt d) s = .next t → t.evPend = s.evPend ∧ t.evMask = s.evMask)

/-- R376, R378: `tmark` with the stream off or its markers refused does nothing; where the ring has no room the marker is lost and
counted; `brk` without the debug right, or in a handler (log 42), is the fault BRK with its code; with the right it tells the window which
entity broke, and stops the context on its partition: every entity of it there stands stopped, or will at its next boundary, unless
another context is stopped there already (log 42). -/
def MarkersAndBreakpoints : Prop :=
  ∀ (s : State) (c : Cur) (i : BitVec 16), Standing s c →
    let x := s.ctx (s.ctxOf c.t)
    let q := s.partOf c.t
    ((s.trace.en = false ∨ s.trace.mark = false) → exec (.tmark i) s = .next (c.done s 1 c.t c.i)) ∧
    (s.trace.en = true → s.trace.mark = true → c.inside 1 → s.frameDue = false → s.trace.room 1 = false →
      ∃ t, exec (.tmark i) s = .next t ∧ t.trace = { s.trace with mdrop := if s.trace.mdrop < 65535 then s.trace.mdrop + 1 else s.trace.mdrop }) ∧
    (s.trace.en = true → s.trace.mark = true → c.inside 1 → s.frameDue = false → s.trace.room 1 = true →
      ∃ t, exec (.tmark i) s = .next t ∧ t.trace = { s.trace with tail := s.trace.tail + 1 } ∧ t.teams = s.teams) ∧
    ((x.dbgEn = false ∨ c.e.handler.isSome = true) → ∃ f : FaultInfo, exec (.brk i) s = .next (c.raiseWith s f) ∧ f.cause = cBRK ∧
      f.code = i.toNat ∧ f.resume = c.i.next + 2 ∧ f.resumePc = c.i.pc) ∧
    (x.dbgEn = true → c.e.handler = none → ∃ t, exec (.brk i) s = .next t ∧ (tabGet t.debug q).isSome = true ∧
      (t.window q).bval = true ∧ (t.window q).bcode = i.toNat ∧ (t.window q).bent = c.e.selCode c.t ∧
      (((s.window q).stopped = false ∧ (s.window q).stopping = false ∨ (s.window q).sctx = s.ctxOf c.t) →
        (t.window q).sctx = s.ctxOf c.t ∧ ((t.window q).stopped = true ∨ (t.window q).stopping = true) ∧
        (tabSorted 0 s.ents = true → ∀ x ∈ t.entsOn q (s.ctxOf c.t), x.2.stopped = true ∨ x.2.haltNext = true)) ∧
      (((s.window q).stopped = true ∨ (s.window q).stopping = true) → (s.window q).sctx ≠ s.ctxOf c.t →
        (t.window q).err = true ∧ (t.window q).sctx = (s.window q).sctx))

/-- R313, R314: a write by a port that may not write the register changes nothing but the record of dropped writes; DZ_SEM is granted
where it is free, renewed and released by its owner, and no other request has any effect. -/
def PrivilegedWrites : Prop :=
  ∀ (s : State) (port a : Nat) (v : Word),
    (a ≠ 0 → s.privAccepts port a = false → s.privWrite port a v =
      { s with sem := { s.sem with dropCount := if s.sem.dropCount < 65535 then s.sem.dropCount + 1 else s.sem.dropCount
                                   dropPort := port, dropReg := a } }) ∧
    (s.privAccepts port a = true ↔ (s.sem.held = true ∧ s.sem.owner = port) ∨
      ∃ c < 64, (s.ctx c).port = port ∧ a ∈ [ctxBase c + 0x04, ctxBase c + 0x24, ctx2Base c + 0x10, ctx2Base c + 0x14, ctx2Base c + 0x18]) ∧
    (s.sem.held = false → s.privWrite port 0 4 =
      { s with sem := { s.sem with held := true, owner := port, epoch := (s.sem.epoch + 1) % 256, lease := 0 } }) ∧
    (s.sem.held = true → s.sem.owner = port → s.privWrite port 0 4 = { s with sem := { s.sem with lease := 0 } } ∧
      s.privWrite port 0 8 = { s with sem := { s.sem with held := false } } ∧
      s.privWrite port 4 v = { s with sem := { s.sem with lease := 0 } }) ∧
    (s.sem.held = true → s.sem.owner ≠ port → s.privWrite port 0 v = s) ∧
    (s.sem.held = false → s.privWrite port 0 8 = s)

end Sys2Proof.Claims

/-- R312 to R314, R327 to R331, R336: the instructions of privileged code, and the writes of the privileged space. -/
def Obligations.PrivilegedCode : Prop :=
  Claims.PrivilegedWords ∧ Claims.TranslationsDropped ∧ Claims.HltWaitsForEvents ∧ Claims.PrivilegedWrites

/-- R376, R378, R384: `tmark` and `brk`. -/
def Obligations.MarkersAndBreakpoints : Prop := Claims.MarkersAndBreakpoints

/-! ## The machine's own events: issue, memory operations, copies and engines -/

namespace Sys2Proof.Claims

/-- An event that has nothing to act on leaves the state as it is. -/
def Idle (i : Instr) (s : State) : Prop := exec i s = .next s

/-- An event gives a next state of which something holds. -/
def Gives (i : Instr) (s : State) (p : State → Prop) : Prop := ∃ t, exec i s = .next t ∧ p t

/-- An entity stands before a clause that its place lets it issue (R20, R25, R28, R341, R370). -/
def StandsBefore (s : State) (e : Nat) (x : Entity) (t : Team) : Prop :=
  tabGet s.ents e = some x ∧ tabGet s.teams x.team = some t ∧ x.issue = none ∧ x.hold = none ∧ x.parkedPc = none ∧
    x.switchDue = false ∧ s.entRuns x t = true

/-- R21, R22, R104, R145, R338: CLAUSE_ISSUE.  A clause that decodes, is issuable and is its pipe's choice is in issue from its first word on,
under the MODE of its issue, with what the checks at its issue found (R44, R183); one that fails a check there exhausts or faults; one that the
decoder refuses is a fault at the word it names, from which the entity resumes at word 1 (R325); a missing page parks the entity; in a compute
phase the clause's words are charged, and one past the allowance exhausts instead (R277); and an entity that has a clause in issue, has to
switch paths or may not run stays as it is. -/
def ClauseIssues : Prop :=
  ∀ (s : State) (e : Nat),
    (tabGet s.ents e = none → Idle (.clauseIssue e) s) ∧
    (∀ x, tabGet s.ents e = some x → (x.issue.isSome = true ∨ x.hold.isSome = true ∨ x.parkedPc.isSome = true ∨ x.switchDue = true) →
      Idle (.clauseIssue e) s) ∧
    ∀ x t, StandsBefore s e x t →
      (∀ h ws cause word, s.fetchClause (s.stackOf t) (s.ctxOf t) x.pc.toNat = .ok h ws → s.clauseAt x t h ws = .error (cause, word) →
        ∃ (f : FaultInfo) (u : State), exec (.clauseIssue e) s = .next ((u.deliver e f).settle x.team) ∧ f.cause = cause ∧ f.word = word ∧
          f.resume = 1 ∧
          f.pc = x.pc ∧ f.addr1 = x.pc.toNat ∧ f.lanes = x.mask ∧ u.ents = s.ents ∧ u.teams = s.teams) ∧
      (∀ cause a1 a2, s.fetchClause (s.stackOf t) (s.ctxOf t) x.pc.toNat = .fault cause a1 a2 →
        ∃ f : FaultInfo, exec (.clauseIssue e) s = .next ((s.deliver e f).settle x.team) ∧ f.cause = cause ∧ f.word = 0 ∧ f.addr1 = a1) ∧
      (∀ a, s.fetchClause (s.stackOf t) (s.ctxOf t) x.pc.toNat = .absent a → s.replayRoom (s.partOf t) 1 0 = true →
        Gives (.clauseIssue e) s fun u => ∃ y, tabGet u.ents e = some y ∧ y.parkedPc = some (pageOf a) ∧ y.issue = none ∧ y.pc = x.pc) ∧
      (∀ h ws k, s.fetchClause (s.stackOf t) (s.ctxOf t) x.pc.toNat = .ok h ws → s.clauseAt x t h ws = .ok k → x.word = 0 →
        (s.issuable x t k = false → Idle (.clauseIssue e) s) ∧
        ∀ y, tabGet s.stamp.ents e = some y → s.issuable x t k = true → s.stamp.chosen e y (s.partOf t) k = true →
          let u := s.stamp.touchCode (s.stackOf t) (s.ctxOf t) x.pc.toNat ws.length
          let i : Issue := { pc := y.pc, cls := k.cls, words := k.words, next := 0, mode := t.mode, modeNew := none, latches := []
                             vtos := [], claimed := [] }
          let c : Cur := { eid := e, e := y, t := t, i := { i with next := y.word - 1 } }
          let found := c.issueChecks u (u.gRegs y.team t) [] (u.gRegs y.team t) [] k.ins
          let past : Prop := ∃ w g, tabGet s.wgs t.wg = some w ∧ w.phase = true ∧ tabGet s.grids w.grid = some g ∧
            g.rcd.allow < w.words + k.words.length
          (past → ∃ f, exec (.clauseIssue e) s = .next (u.exhaust e y.team f) ∧ f.cause = cXALW ∧ f.word = 1 ∧ f.resume = 1) ∧
          (¬ past → ∀ claimed xreg counts, found = .pass claimed xreg counts →
            Gives (.clauseIssue e) s fun v => v.cur = e ∧
              (∀ w, tabGet s.wgs t.wg = some w → ∃ w', tabGet v.wgs t.wg = some w' ∧
                w'.words = if w.phase then w.words + k.words.length else w.words) ∧ ∃ z, tabGet v.ents e = some z ∧
              z.issue = some { i with claimed := claimed, xreg := xreg, gcounts := counts } ∧
              z.mask = x.mask ∧ z.loops = x.loops ∧ z.hold = none ∧ z.waits = 0) ∧
          (¬ past → ∀ f, found = .exhaust f → exec (.clauseIssue e) s = .next (u.exhaust e y.team f)) ∧
          (¬ past → ∀ f, found = .fault f → exec (.clauseIssue e) s = .next ((u.deliver e f).settle y.team)))

/-- R22, R25, R104, R201, R341, R346, R348: the counts and limits of issue: an entity whose count reaches 64 goes ahead of every class; a
deferral's switch, a stall that ends, and the ends of teams by YDL and HANG, of which the second leaves a team that is being saved. -/
def IssueLimits : Prop :=
  ∀ (s : State) (e : Nat),
    (∀ x t, tabGet s.ents e = some x → tabGet s.teams x.team = some t →
      (64 ≤ x.waits + s.countedCycles t → exec (.issueWaitLimit e) s = exec (.clauseIssue e) s ∧
        ∀ k y u, tabGet s.teams y.team = some u → y.waits + s.countedCycles u < 64 → s.goesBefore (e, x) (k, y) = true ∧
          s.goesBefore (k, y) (e, x) = false) ∧
      (x.waits + s.countedCycles t < 64 → Idle (.issueWaitLimit e) s)) ∧
    (tabGet s.ents e = none → Idle (.issueWaitLimit e) s ∧ Idle (.deferralSwitch e) s ∧ Idle (.replayStallResume e) s) ∧
    (∀ x k sl, tabGet s.ents e = some x → x.innermost = some (k, sl) → x.issue = none → x.hold = none → x.parkedPc = none → x.word = 0 →
      sl.arrived = false →
      (sl.count < 256 → Idle (.deferralSwitch e) s) ∧
      (256 ≤ sl.count → Gives (.deferralSwitch e) s fun t => ∃ y z, tabGet t.ents e = some y ∧ y.mask = sl.mask ∧ y.pc = sl.pc ∧
        tabGet y.slots k = some z ∧ z.mask = x.mask ∧ z.pc = x.pc ∧ z.count = 0 ∧ z.arrived = false ∧ z.minority = !sl.minority)) ∧
    (∀ x t, tabGet s.ents e = some x → tabGet s.teams x.team = some t → x.hold = some .replay → s.replayRoom (s.partOf t) 1 0 = true →
      s.entRuns x t = true → s.mayGoOn e x t = true → Gives (.replayStallResume e) s fun u => u.cur = e ∧ tabGet u.ents e = some { x with hold := none }) ∧
    (∀ t, tabGet s.teams e = some t → t.ydl = none → Idle (.ydl e) s) ∧
    (∀ t f, tabGet s.teams e = some t → t.ydl = some f → tabSorted 0 s.ents = true → (∀ w, tabGet s.wgs t.wg = some w → w.aborting = false) →
      (∀ x ∈ s.ents, x.2.team = e → x.2.atBoundary = true) →
      Gives (.ydl e) s fun u => ∀ x ∈ u.ents, x.2.team ≠ e) ∧
    (∀ t, tabGet s.teams e = some t → (s.hangLim = 0 ∨ t.hang < s.hangLim * 2 ^ 20) → Idle (.hang e) s) ∧
    (∀ t, tabGet s.teams e = some t → (∀ w, tabGet s.wgs t.wg = some w → w.place ≠ .resident) → Idle (.hang e) s) ∧
    ∀ t w, tabGet s.teams e = some t → s.hangLim ≠ 0 → s.hangLim * 2 ^ 20 ≤ t.hang → t.dying = false → tabSorted 0 s.ents = true →
      (∃ x ∈ s.ents, x.2.team = e) → tabGet s.wgs t.wg = some w → w.place = .resident → w.aborting = false →
      (∀ x ∈ s.ents, x.2.team = e → x.2.atBoundary = true) → Gives (.hang e) s fun u => ∀ x ∈ u.ents, x.2.team ≠ e

/-- R206, R238, R239: a held copy slice, and a held engine instruction, that its place and its pipe let run (R20) is executed again. -/
def HeldWordsRetry : Prop :=
  ∀ (s : State) (e : Nat) (x : Entity) (t : Team) (i : Instr), tabGet s.ents e = some x → tabGet s.teams x.team = some t →
    s.entRuns x t = true → s.mayGoOn e x t = true → x.issue.bind (·.instr) = some i →
    (∀ dst src len sl obj idx rows stride mc ring fill,
      i ∈ [Instr.cpyG2s dst src len sl obj idx rows stride mc ring fill, .cpyG2c dst src len sl obj idx rows stride ring fill,
        .cpyC2s dst src len sl obj idx rows stride mc ring, .cpyS2c dst src len sl obj idx rows stride ring,
        .cpyx dst src len sl obj idx rows stride ring, .cpyg dst src len sl obj idx rows stride ring fill] →
      x.hold = some .slice → ∃ u, exec (.heldSliceIssue e) s = .next u ∧ exec i { s with cur := e } = .next u) ∧
    (∀ d w t' r p, i ∈ [Instr.mres d w, .mfree d, .mswap, .mtab d, .mzero t', .mfill t' d, .mls d false r p] →
      (x.hold = some .engine ∨ x.hold = some .gang) →
      ∃ u, exec (.engineDeferredAccept e) s = .next u ∧ exec i { s with cur := e } = .next u) ∧
    (x.hold = some .rcv → Idle (.heldSliceIssue e) s ∧ Idle (.engineDeferredAccept e) s)

/-- Whether a partition's replay queue serves a team (R338, R339): it is not swapped out, and its workgroup is on its core. -/
def Serves (s : State) (t : Team) : Prop :=
  t.swapped = false ∧ ∃ w, tabGet s.wgs t.wg = some w ∧ (w.place = .resident ∨ w.place = .stopping ∨ ∃ y, w.place = .halting y)

/-- R105, R325, R340, R341: the fault of a released access is a precise fault of its entity, which resumes at the word that it waits at, or
where it stands between clauses; where the entity has ended, or its team is ending, the record goes to the fault queue. -/
def ReplayFaultDelivers : Prop :=
  ∀ (s : State) (e tid : Nat) (x : Entity) (t : Team) (f : FaultInfo), tabGet s.teams tid = some t →
    (tabGet s.ents e = some x → x.team = tid → t.dying = false →
      s.replayFault e tid f = (s.deliver e { f with
        resumePc := (match x.issue with | some i => i.pc | none => x.pc)
        resume := (match x.issue with | some i => i.next + 1 | none => if x.word = 0 then 1 else x.word) }).settle tid) ∧
    (tabGet s.ents e = none → s.replayFault e tid f = ((s.errorIrq (s.ctxOf t) f).fqFault t f).markFaulted t)

/-- R338, R339: a released clause fetch, or `launch`, whose page is there lets its entity go on; one whose page is missing waits again without
FAIL, and under it ends with PGNP, which names the page's address; a fetch that fails a check ends with that check's fault. -/
def FetchReplays (s : State) (k : Nat) (r : ReplayEntry) (t : Team) : Prop :=
  ∀ e, r.op = 0 → tabGet s.ents r.ent = some e →
    let fetch : Bool := e.issue.isNone
    let a := if e.issue = none ∧ pageOf e.pc.toNat = r.page then e.pc.toNat else r.page * 65536
    let gone (u : State) : Prop := tabGet u.replay k = none ∧ tabGet u.ents r.ent = some { e with parkedPc := none } ∧ u.teams = s.teams ∧ u.mem = s.mem
    let fails (cause a1 a2 : Nat) : Prop := ∃ (u : State) (f : FaultInfo),
      exec (.parkedAccessReplay k) s = .next (u.replayFault r.ent r.team f) ∧ gone u ∧ f.cause = cause ∧ f.addr1 = a1 ∧ f.addr2 = a2 ∧
        f.parked = true ∧ f.lanes = e.mask ∧ f.word = (match e.issue with | some i => i.next + 1 | none => 0) ∧
        f.pc = (match e.issue with | some i => i.pc | none => e.pc)
    (∀ p m, s.teamXlate t (if fetch then .fetch else .load) a 4 = .ok p m → Gives (.parkedAccessReplay k) s gone) ∧
    (s.teamXlate t (if fetch then .fetch else .load) a 4 = .absent → r.fail = false →
      exec (.parkedAccessReplay k) s = .next { s with replay := tabPut s.replay k { r with released := false } }) ∧
    (s.teamXlate t (if fetch then .fetch else .load) a 4 = .absent → r.fail = true → fails cPGNP a 0) ∧
    (∀ x a1 a2, s.teamXlate t .fetch a 4 = .fault x a1 a2 → fetch = true → fails x a1 a2) ∧
    ∀ x a1 a2, s.teamXlate t .load a 4 = .fault x a1 a2 → fetch = false → Gives (.parkedAccessReplay k) s gone

/-- R104, R105, R339: a released load, store, atomic or flush is translated afresh: where every parked lane of the entry has its mapping and
passes its checks, those lanes can land, at the addresses and with the memory types that the translation gives, and the access is performed
as far as it may be; where the mapping is missing it waits again, or under FAIL faults with PGNP at the lowest of its lanes' addresses; and a
lane that fails a check faults.  The fault is parked, names its lanes, and leaves these lanes without effect and every other as it is; it waits
until its entity stands (log 33). -/
def AccessReplays (s : State) (k : Nat) (r : ReplayEntry) (t : Team) : Prop :=
  ∀ o, r.op ≠ 0 → tabGet s.ops r.op = some o →
    let ls := o.held r
    let at' (s : State) (l : LaneAcc) : Xlat := s.teamXlate t o.accKind l.ptr o.size
    let fails (cause : Nat) (p : FaultInfo → Prop) (named : LaneAcc → Bool) : Prop :=
      (s.stands r.ent = false → Idle (.parkedAccessReplay k) s) ∧
      (s.stands r.ent = true → ∃ (u : State) (f : FaultInfo) (o' : MemOp),
        exec (.parkedAccessReplay k) s = .next ((u.replayFault r.ent r.team f).performOp r.op) ∧ f.cause = cause ∧ f.parked = true ∧
          f.word = o.word ∧ f.pc = o.pc ∧ f.lanes = (if o.uniform then o.mask else maskOf ((ls.filter named).map (·.lane))) ∧ p f ∧
          tabGet u.replay k = none ∧ u.ents = s.ents ∧ u.teams = s.teams ∧ u.mem = s.mem ∧ tabGet u.ops r.op = some o' ∧ o'.failed = true ∧
          ∀ (i : Nat) (l : LaneAcc), o.lanes[i]? = some l → o'.lanes[i]? = some (if l ∈ ls then { l with done := true } else l))
    (∀ l ∈ ls, l.ptr < 2 ^ 64 ∧ bitsOf l.ptr 59 57 = 0) →
    ((∀ l ∈ ls, ∃ p m, at' s l = .ok p m) →
      let v := ls.foldl (fun s l => s.touch (s.stackOf t) (s.ctxOf t) o.accKind l.ptr) s
      ∃ (u : State) (o' : MemOp), exec (.parkedAccessReplay k) s = .next (u.performOp r.op) ∧ tabGet u.replay k = none ∧ u.mem = v.mem ∧
        tabGet u.ops r.op = some o' ∧ o'.failed = o.failed ∧ o'.kind = o.kind ∧ ∀ (i : Nat) (l : LaneAcc), o.lanes[i]? = some l →
          (l ∉ ls → o'.lanes[i]? = some l) ∧
          (l ∈ ls → ∀ p m, at' v l = .ok p m → ∃ l', o'.lanes[i]? = some l' ∧ l'.phys = some p ∧ l'.mtype = m ∧ l'.lane = l.lane ∧ l'.ptr = l.ptr ∧
            l'.data = l.data ∧ l'.done = l.done)) ∧
    ((∀ l ∈ ls, ∀ x a b, at' s l ≠ .fault x a b) → (∃ l ∈ ls, at' s l = .absent) →
      (r.fail = false → exec (.parkedAccessReplay k) s = .next { s with replay := tabPut s.replay k { r with released := false } }) ∧
      (r.fail = true → fails cPGNP (fun f => (∃ l ∈ ls, f.addr1 = l.ptr) ∧ ∀ l ∈ ls, f.addr1 ≤ l.ptr) fun _ => true)) ∧
    (let page (l : LaneAcc) : Bool := match at' s l with | .fault x _ _ => x != cTAGF | _ => false
     let tag (l : LaneAcc) : Bool := match at' s l with | .fault x _ _ => x == cTAGF | _ => false
     let low (p : LaneAcc → Bool) (f : FaultInfo) : Prop := ∃ l ∈ ls, p l = true ∧ ∃ x a, at' s l = .fault x a f.addr2 ∧ f.addr1 = ptrOf a
     ((∃ l ∈ ls, page l = true) → fails cPGPR (low page) page) ∧
     ((∀ l ∈ ls, page l = false) → (∃ l ∈ ls, tag l = true) → fails cTAGF (low tag) tag))

/-- R105, R330, R338, R339, R385: a parked entry that is not released, that its queue does not serve, whose translation waits for a port, or
that an older released one of its queue goes before, waits; any other is translated afresh. -/
def ParkedEntriesReplay : Prop :=
  ∀ (s : State) (k : Nat) (r : ReplayEntry) (t : Team), tabGet s.replay k = some r → tabGet s.teams r.team = some t → tabSorted 0 s.replay = true →
    let older : Prop := ∃ y ∈ s.replay, y.1 < k ∧ y.2.released = true ∧ y.2.part = r.part ∧ ∃ u, tabGet s.teams y.2.team = some u ∧ Serves s u
    ((r.released = false ∨ ¬ Serves s t ∨ s.replayWaits r t = true ∨ older) → Idle (.parkedAccessReplay k) s) ∧
    (r.released = true → Serves s t → s.replayWaits r t = false → ¬ older → FetchReplays s k r t ∧ AccessReplays s k r t)

/-- A slice goes on: its copy is alive, it waits for nothing, and its next accesses all translate, pass their checks and reach memory. -/
def SliceGoes (s : State) (c : Copy) (sl : Slice) : Prop :=
  let ps := s.slicePieces c sl
  c.cancelled = false ∧ c.failed = false ∧ s.copyWaits c = false ∧ s.sliceFault c sl = none ∧ s.piecesFar c ps = false ∧
    s.piecesAbsent c ps = [] ∧ ∀ p ∈ ps, pageOf p.2.1 ∉ sl.missing

/-- The state in which a slice's next accesses are made: its issuers' stores are in memory (R125), and its pages are marked (R335). -/
def sliceView (s : State) (c : Copy) (sl : Slice) : State := (s.observeIssuers c).touchPieces c (s.slicePieces c sl)

/-- The slice of an index, one granule on. -/
def stepped (c : Copy) (i : Nat) : Copy :=
  { c with slices := c.slices.map fun (x : Slice) => if x.index = i then { x with moved := x.moved + 1 } else x }

/-- Whether a workgroup has CLMEM. -/
def HasClmem (s : State) (wid : Nat) : Prop := ∃ w k d, tabGet s.wgs wid = some w ∧ w.cluster = some k ∧ tabGet s.clusters k = some d

/-- R228, R230, R345: a granule of a slice moves once what it comes after is done and its landing is open: its bytes stand at the
destination, in every workgroup that a multicast writes, and the slice is one granule on. -/
def GranulesMove : Prop :=
  ∀ (s : State) (k i : Nat) (c : Copy) (sl : Slice), tabGet s.copies k = some c → (c.slices.find? fun x => x.index == i) = some sl →
    c.fn ≠ .cred → SliceGoes s c sl → sl.moved < c.rows * (c.len / 16) →
    let r := (c.place i sl.moved).1
    let o := (c.place i sl.moved).2
    let v := sliceView s c sl
    let bytes := v.granuleBytes c sl r o
    let at' := c.dstRow r + o
    s.granuleLanded c r o = true →
    Gives (.destinationWrite (.copy k i)) s fun u => tabGet u.copies k = some (stepped c i) ∧
      (c.fn.dstSpace = .spad → ∀ w ∈ s.copyTargets c, tabGet s.wgs w ≠ none → u.spaceRead w .spad at' bytes.length = bytes) ∧
      (c.fn.dstSpace = .clmem → HasClmem s c.wg → u.spaceRead c.wg .clmem at' bytes.length = bytes) ∧
      (c.fn.dstSpace = .stmem → (∃ w g, tabGet s.wgs c.wg = some w ∧ tabGet s.grids w.grid = some g) →
        u.spaceRead c.wg .stmem at' bytes.length = bytes) ∧
      (∀ phys m, c.fn.dstSpace = .global → c.hidden r (o + 15) = false → sl.moved + 1 < c.rows * (c.len / 16) →
        v.xlate (s.copyStack c) (s.copyCtx c) .copyWrite (at' % 2 ^ 64) 16 = .ok phys m → u.mem = (v.storeBytes phys bytes).mem)

/-- R225, R228, R229: a granule is what its source holds, in a space or in global memory; past the bound of a fill it is absent codes. -/
def GranuleSource : Prop :=
  ∀ (s : State) (c : Copy) (sl : Slice) (r o : Nat),
    (o + 16 ≤ sl.bound → c.fn.srcSpace ≠ .global → s.granuleBytes c sl r o = s.spaceRead c.wg c.fn.srcSpace (c.srcRow r + o) 16) ∧
    (∀ phys m, o + 16 ≤ sl.bound → c.fn.srcSpace = .global →
      s.xlate (s.copyStack c) (s.copyCtx c) .copyRead ((s.copySrc c r + o) % 2 ^ 64) 16 = .ok phys m →
      s.granuleBytes c sl r o = s.loadBytes phys 16) ∧
    (sl.bound ≤ o → ∀ j < 16, (s.granuleBytes c sl r o)[j]? =
      some ((absentOf (absTOf sl.ftype)).extractLsb' (8 * ((o + j) % 4)) 8)) ∧
    (c.fn = .gather → s.copySrc c r = leNat (s.spaceRead c.wg .spad (c.src + 8 * r) 8)) ∧
    (c.fn ≠ .gather → s.copySrc c r = c.srcRow r) ∧
    (c.fn ≠ .s2g → c.srcRow r = c.src + r * c.stride ∧ c.dstRow r = c.dst + r * (c.sl * c.len)) ∧
    (c.fn = .s2g → c.srcRow r = c.src + r * (c.sl * c.len) ∧ c.dstRow r = c.dst + r * c.stride)

/-- R206, R228, R231, R233, R341: a copy that was cancelled or has failed moves nothing more; one whose every granule has moved completes:
it is gone and its ordinal is over, its issuers' counters fall, and its object or its ring slot has its bytes; a `cred` needs its result
first and raises the result's flags; and a slice that cannot go on ends its copy with a deferred record. -/
def CopiesEnd : Prop :=
  ∀ (s : State) (k : Nat) (c : Copy), tabGet s.copies k = some c →
    (∀ i, (c.cancelled = true ∨ c.failed = true) → Idle (.destinationWrite (.copy k i)) s ∧ Idle (.copyFailure k i) s ∧ Idle (.copyComplete k) s) ∧
    (c.cancelled = false → c.failed = false → c.allMoved = true → (c.fn = .cred → (s.credResultOf c).isSome = true) →
      tabSorted 0 s.copies = true →
      Gives (.copyComplete k) s fun u => tabGet u.copies k = none ∧
        (∀ w, tabGet s.wgs c.wg = some w → ∃ w', tabGet u.wgs c.wg = some w' ∧ (c.key, c.ordinal) ∈ w'.ended) ∧
        (∀ j ∈ c.slices.map (·.team), ∀ t, tabGet s.teams j = some t → ∃ v, tabGet u.teams j = some v ∧
          v.cntCp = (t.cntDone .cp k).cntCp ∧
          ∀ id x b f, c.cred = some id → tabGet s.creds id = some x → x.result = some (b, f) → v.flags = (t.raiseFlags f).flags) ∧
        ∀ sp o, c.obj = some (sp, o) →
          let off := match c.ring, c.slot with | true, some j => o + 16 + 16 * j | _, _ => o
          (sp = .spad → tabSorted 0 s.wgs = true → ∀ w ∈ s.copyTargets c, tabGet s.wgs w ≠ none →
            u.getBar w .spad off = (s.getBar w .spad off).count (c.rows * (c.sl * c.len))) ∧
          (sp = .clmem → c.mc = false → HasClmem s c.wg →
            u.getBar c.wg .clmem off = (s.getBar c.wg .clmem off).count (c.rows * (c.sl * c.len)))) ∧
    ((c.allMoved = false ∨ c.fn = .cred ∧ s.credResultOf c = none) → Idle (.copyComplete k) s) ∧
    ∀ i sl cause a1 a2, (c.slices.find? fun x => x.index == i) = some sl → c.cancelled = false → c.failed = false →
      (sl.fail = true ∨ s.copyWaits c = false ∧ s.piecesFar c (s.slicePieces c sl) = false) → s.sliceFault c sl = some (cause, a1, a2) →
      ∃ (u : State) (f : FaultInfo), exec (.copyFailure k i) s = .next (u.deferFault sl.team f) ∧ f.cause = cause ∧ f.addr1 = a1 ∧
        f.parked = true ∧ f.pc = sl.pc ∧ f.frag = sl.frag ∧ (c.allCome = false → ∃ d, tabGet u.copies k = some d ∧ d.failed = true)

/-- R233, R389: a reduction that every rank has reached has its result, which its copies then write; one whose ranks disagree is
abandoned once every local rank is there (log 44), its copies with it, and the other packages are told; and another waits.  A block of a rank of
another package is kept at its place, and one whose table, type, length or number of slices is not the reduction's puts it in disagreement; and
what a block carries is rebuilt exactly. -/
def ReductionsComplete : Prop :=
  (∀ (s : State) (g : Nat) (x : Cred), tabGet s.creds g = some x → tabSorted 0 s.creds = true →
    (s.credBroken x = false → s.credReady x = true → x.result = none → Gives (.credComplete g) s fun t =>
      tabGet t.creds g = some { x with result := some (credResult x.ety x.bytes (s.credArrays x)) } ∧ t.copies = s.copies ∧ t.mem = s.mem) ∧
    (s.credBroken x = true → s.credHere x = true → tabSorted 0 s.copies = true → Gives (.credComplete g) s fun t =>
      tabGet t.creds g = none ∧ (∀ p ∈ x.parts, ∀ k, p.copy = some k → tabGet t.copies k = none) ∧
      ∀ m ∈ s.credMembers x, ∃ b : CredBlock, (m, b) ∈ t.sentBlocks ∧ b.abandoned = true ∧ b.cred = g) ∧
    (s.credBroken x = false → (s.credReady x = false ∨ x.result.isSome = true) → Idle (.credComplete g) s) ∧
    (s.credBroken x = true → s.credHere x = false → Idle (.credComplete g) s)) ∧
  (∀ (s : State) (k i : Nat) (c : Copy) (sl : Slice) (id : Nat) (x : Cred), tabGet s.copies k = some c →
    (c.slices.find? fun x => x.index == i) = some sl → c.fn = .cred → c.cred = some id → tabGet s.creds id = some x → SliceGoes s c sl →
    let o := (c.place i sl.moved).2
    let v := sliceView s c sl
    let n := c.rows * (c.len / 16)
    (∀ phys m, sl.moved < n → v.xlate (s.copyStack c) (s.copyCtx c) .copyRead ((c.src + o) % 2 ^ 64) 16 = .ok phys m →
      Gives (.destinationWrite (.copy k i)) s fun u => ∃ d z, tabGet u.copies k = some d ∧ z ∈ d.slices ∧ z.index = i ∧
        z.moved = sl.moved + 1 ∧ z.data = sl.data ++ v.loadBytes phys 16) ∧
    (∀ bytes f, x.result = some (bytes, f) → n ≤ sl.moved → sl.moved < n + n →
      Gives (.destinationWrite (.copy k i)) s fun u => tabGet u.copies k = some (stepped c i) ∧
        ∀ phys m, sl.moved + 1 < n + n →
          v.xlate (s.copyStack c) (s.copyCtx c) .copyWrite ((c.dst + o) % 2 ^ 64) 16 = .ok phys m →
          u.mem = (v.storeBytes phys ((bytes.drop o).take 16)).mem)) ∧
  (∀ (s : State) (b : CredBlock) (x : Cred), tabGet s.creds b.cred = some x →
    let d := x.ranks.getD b.rank s.member
    let off : Prop := b.abandoned = true ∨ b.terms ≠ { ranks := x.ranks, ety := x.ety, bytes := x.bytes, sl := x.sl }
    ((s.localRank d = true ∨ s.pathUp (d % 256) = false ∨ ¬ off ∧ x.blocks ≤ b.index ∨ x.result.isSome = true) → Idle (.credBlock b) s) ∧
    (s.localRank d = false → s.pathUp (d % 256) = true → off → x.result = none → Gives (.credBlock b) s fun t =>
      ∃ y p, tabGet t.creds b.cred = some y ∧ p ∈ y.parts ∧ p.rank = b.rank ∧ p.mismatch = true ∧ t.credBroken y = true) ∧
    (s.localRank d = false → s.pathUp (d % 256) = true → ¬ off → b.index < x.blocks → x.result = none → Gives (.credBlock b) s fun t =>
      ∃ y p, tabGet t.creds b.cred = some y ∧ p ∈ y.parts ∧ p.rank = b.rank ∧
        tabGet p.blocks b.index = some (unwireBlock x.ety b.header b.payload))) ∧
  ∀ (ety : Nat) (bs : List Byte), ety ≤ 2 → bs.length = 16 * credBytes ety →
    (ety = 2 → ∀ i < 16, leNat ((bs.drop (8 * i + 4)).take 4) ≤ 65535) →
    unwireBlock ety (wireBlock ety bs).1 (wireBlock ety bs).2.1 = bs

/-- R240, R246 to R251, R256 to R261: the arbiter.  A busy path, and one without an eligible entry, stays; a grant carries its operation
out, or starts it where it works in granules or bands, and ends its entry's age; an entry that has waited for the limit is aged; bands swap
one after another. -/
def EnginePaths : Prop :=
  ∀ (s : State) (g : Nat),
    let eng := s.engine g
    (∀ p, eng.busy p = true → Idle (.arbiterGrant g p) s) ∧
    (∀ p, s.grantee g p = none → Idle (.arbiterGrant g p) s) ∧
    (∀ p k x, eng.busy p = false → s.grantee g p = some (k, x) → tabGet eng.entries k = some x →
      let grants (f : Engine → EngineEntry → Prop) : Prop := Gives (.arbiterGrant g p) s fun t =>
        ∃ y, tabGet (t.engine g).entries k = some y ∧ y.started = true ∧ y.aged = false ∧ f (t.engine g) y
      let now (f : Engine → Prop) : Prop := grants fun e y => y.finished = true ∧ f e
      (∀ t, x.op = .mzero t → now fun e => e.tile t = .blank) ∧
      (∀ d w, x.op = .mres d w → now fun e => (tabGet e.recs d).map (·.format) = some w) ∧
      (∀ d, x.op = .mfree d → tabSorted 0 eng.recs = true → now fun e => tabGet e.recs d = none) ∧
      (∀ t r, x.op = .mfill t r → now fun e => e.tile t = tileOf (eng.record r).byte) ∧
      (∀ r, x.op = .mtab r → now fun e => e.table.ys = (List.range 129).map (fun i => .ofNat 32 ((eng.record r).word i)) ∧
        e.table.x0 = .ofNat 32 ((eng.record r).word 129) ∧ e.table.h = .ofNat 32 ((eng.record r).word 130)) ∧
      (∀ d r off q, x.op = .mscl d r off → tabGet eng.recs d = some q →
        now fun e => tabGet e.recs d = some { q with scales := some (r, off) }) ∧
      (∀ r, x.op = .mls r none → now fun e => e.recs = eng.recs ∧ e.active = eng.active ∧
        e.shadow = (List.range 4).map (eng.loadBand (eng.record r))) ∧
      (∀ r c off, x.op = .mls r (some (c, off)) → now fun e => ∀ n < fmtWide (eng.record r).format,
        (e.record c).word (off + n) = (eng.columnSum (eng.record r) n).1 % 4294967296) ∧
      (∀ d src base first rows bytes strict, x.op = .mld d src base first rows bytes strict →
        grants fun e y => y.finished = decide (bytes = 0) ∧ y.progress = x.progress ∧ e.recs = eng.recs) ∧
      (∀ t a cmd rows o, x.op = .mdrain t a cmd rows o →
        let bs := (drainBytes eng.table (fun i => (eng.record a).word i) (eng.tile t) cmd rows).1
        (cmdDst cmd = 2 → now fun e => e.record (o % 16) = (eng.record (o % 16)).store 0 bs) ∧
        (cmdDst cmd ≠ 2 → grants fun e y => y.finished = false ∧ y.out = bs ∧ e.recs = eng.recs) ∧
        grants fun e _ => e.tile t = if cmdBit cmd 6 then (eng.tile t).clear rows else eng.tile t) ∧
      (∀ scan ty dst vals ent, x.op = .mred scan ty dst vals ent → now fun e => e.recs = eng.recs ∧ e.tiles = eng.tiles) ∧
      (x.op = .mswap → grants fun _ y => y.finished = x.finished) ∧
      (∀ t a first rows m sums sat zero prio, x.op = .mma t a first rows m sums sat zero prio →
        grants fun e y => y.progress = min rows (x.progress + 16) ∧ y.finished = decide (rows ≤ x.progress + 16) ∧
          e.tile t = (eng.pass x t a first rows m sums sat zero).1)) ∧
    (∀ k x, tabGet eng.entries k = some x → s.eligible g k x = true → Gives (.arbiterAgeLimit g k) s fun t =>
      tabGet (t.engine g).entries k = some { x with aged := true }) ∧
    (∀ k x, tabGet eng.entries k = some x → s.eligible g k x = false → Idle (.arbiterAgeLimit g k) s) ∧
    ∀ k b x, tabGet eng.entries k = some x → x.op = .mswap → x.started = true → b < 4 → x.bands.toNat = 2 ^ b - 1 →
      eng.active.length = 4 → eng.shadow.length = 4 →
      (∀ y ∈ eng.entries, y.1 < k → y.2.op.path = 0 → y.2.finished = true) →
      Gives (.mswapBandSwap g k b) s fun t => (t.engine g).active[b]? = eng.shadow[b]? ∧
        (t.engine g).shadow[b]? = eng.active[b]? ∧
        ∃ y, tabGet (t.engine g).entries k = some y ∧ y.bands.toNat = 2 ^ (b + 1) - 1 ∧ (y.finished = true ↔ b = 3)

/-- R247, R256, R345: a granule of a load goes from its source into its record, and a granule of a drain from its bytes to its
destination, where the landing is open; after the last one the entry has finished. -/
def EngineGranules : Prop :=
  ∀ (s : State) (g k : Nat) (x : EngineEntry), tabGet (s.engine g).entries k = some x → x.started = true → x.finished = false →
    let i := 16 * x.progress
    (∀ d src sp base first rows bytes, x.op = .mld d src base first rows bytes false → (src, sp) ∈ [(MldSrc.spad, Space.spad), (.clmem, .clmem)] →
      s.landed x.wg sp (base + i) = true →
      let n := if bytes < i + 16 then bytes - i else 16
      Gives (.destinationWrite (.engine g k)) s fun u =>
        (∃ y, tabGet (u.engine g).entries k = some y ∧ y.progress = x.progress + 1 ∧ y.finished = decide (bytes ≤ i + 16) ∧ y.reserved = x.reserved) ∧
        ((u.engine g).record d).bytesAt (first + i) n = s.spaceRead x.wg sp (base + i) n) ∧
    (∀ d base first rows bytes phys m, x.op = .mld d .global base first rows bytes false → i < bytes →
      let n := if bytes < i + 16 then bytes - i else 16
      let a := (base + i) % 2 ^ 64
      let v := s.observeTeams x
      let st := (s.entryPlace x).1
      let ctx := (s.entryPlace x).2
      s.loadFault x = none → v.loadFault x = none → v.xlate st ctx .copyRead a n = .ok phys m → pageOf a ∉ x.missing →
      v.walkWaits st ctx .copyRead a = false → v.reaches phys = true →
      Gives (.destinationWrite (.engine g k)) s fun u =>
        (∃ y, tabGet (u.engine g).entries k = some y ∧ y.progress = x.progress + 1 ∧ y.finished = decide (bytes ≤ i + 16)) ∧
        ((u.engine g).record d).bytesAt (first + i) n = v.loadBytes phys n) ∧
    ∀ t a cmd rows o, x.op = .mdrain t a cmd rows o →
      let sp : Space := if cmdDst cmd = 0 then .spad else .clmem
      s.landed x.wg sp (o + i) = true → Gives (.destinationWrite (.engine g k)) s fun u =>
        tabGet (u.engine g).entries k = some { x with progress := x.progress + 1, finished := decide (x.out.length ≤ i + 16) } ∧
        ((sp = .spad ∧ tabGet s.wgs x.wg ≠ none ∨ sp = .clmem ∧ HasClmem s x.wg) →
          u.spaceRead x.wg sp (o + i) ((x.out.drop i).take 16).length = (x.out.drop i).take 16)

/-- R86, R261: an i32 reduction sums the present words of the active lanes, modulo 2^32, and counts them; without one it is absent and
raises ABS. -/
def ReductionSums : Prop :=
  ∀ vals : List (Nat × Word),
    let xs := vals.filterMap fun v => valOf .i32 v.2.toNat
    (reduceTeam .i32 vals).1 = (if xs = [] then 0x80000000 else (xs.sum % 4294967296).toNat, xs.length, if xs = [] then flagABS else 0)

/-- R239, R247, R261, R341, R358: an entry that has finished is freed, its issuers' counters fall, and a reduction's results are in their
registers; a load that cannot go on, or that read a reserved byte under STRICT, is freed with a deferred record; and a band's rail wakes when
needed and is gated when idle. -/
def EngineEntriesEnd : Prop :=
  ∀ (s : State) (g k : Nat),
    (tabGet (s.engine g).entries k = none → Idle (.engineOpComplete g k) s ∧ Idle (.mldFailure g k) s ∧ Idle (.mldStrictFmtf g k) s ∧
      Idle (.arbiterAgeLimit g k) s ∧ Idle (.destinationWrite (.engine g k)) s ∧ ∀ b, Idle (.mswapBandSwap g k b) s) ∧
    (∀ x, tabGet (s.engine g).entries k = some x → x.finished = false → Idle (.engineOpComplete g k) s) ∧
    (∀ x, tabGet (s.engine g).entries k = some x → x.finished = true → x.reserved = none → tabSorted 0 (s.engine g).entries = true →
      Gives (.engineOpComplete g k) s fun u => tabGet (u.engine g).entries k = none ∧
        ∀ j ∈ x.teams, ∀ t, tabGet s.teams j = some t → ∃ v, tabGet u.teams j = some v ∧ v.cntTl = (t.cntDone .tl k).cntTl ∧
          (∀ p ∈ v.pend, p.op ≠ k) ∧
          (∀ ty dst vals e, x.op = .mred false ty dst vals e →
            (dst ≠ 0 → v.sreg dst = .ofNat 32 (reduceTeam ty vals).1.1) ∧ v.sreg (dst + 1) = .ofNat 32 (reduceTeam ty vals).1.2.1 ∧
            v.flags = ((t.raiseFlags (reduceTeam ty vals).1.2.2).raiseFlags x.flags).flags) ∧
          ∀ ty dst vals e, x.op = .mred true ty dst vals e → ((reduceTeam ty vals).2.1.map (·.1)).Nodup →
            ∀ y ∈ (reduceTeam ty vals).2.1, y.1 < t.lanes →
              (v.vreg dst).lane 0 y.1 = .ofNat 32 y.2.1 ∧ (v.vreg (dst + 1)).lane 0 y.1 = .ofNat 32 y.2.2) ∧
    (∀ x cause a b, tabGet (s.engine g).entries k = some x → (x.started = true ∨ x.fail = true) → s.loadFault x = some (cause, a, b) →
      tabSorted 0 (s.engine g).entries = true →
      ∃ (u : State) (f : FaultInfo), exec (.mldFailure g k) s = .next (u.deferFault (x.teams.headD 0) f) ∧ f.cause = cause ∧ f.addr1 = a ∧ f.parked = x.held ∧
        tabGet (u.engine g).entries k = none) ∧
    (∀ x a d q base first rows bytes strict, tabGet (s.engine g).entries k = some x → x.finished = true → x.reserved = some a →
      x.op = .mld d q base first rows bytes strict → tabSorted 0 (s.engine g).entries = true →
      ∃ (u : State) (f : FaultInfo), exec (.mldStrictFmtf g k) s = .next (u.deferFault (x.teams.headD 0) f) ∧ f.cause = cFMTF ∧ f.addr1 = a ∧ f.addr2 = d ∧
        tabGet (u.engine g).entries k = none) ∧
    ∀ b, b < 4 →
      ((s.engine g).on.getLsbD b = false → (s.engine g).bandUsed b = true → Gives (.bandRailWake g b) s fun u =>
        (u.engine g).on.getLsbD b = true ∧ (u.engine g).entries = (s.engine g).entries) ∧
      ((s.engine g).on.getLsbD b = true → Idle (.bandRailWake g b) s) ∧
      ((s.engine g).on.getLsbD b = true → (s.engine g).gate.getLsbD b = true → (s.engine g).bandUsed b = false →
        Gives (.bandRailGate g b) s fun u => (u.engine g).on.getLsbD b = false ∧ (u.engine g).entries = (s.engine g).entries) ∧
      ((s.engine g).bandUsed b = true → Idle (.bandRailGate g b) s)

end Sys2Proof.Claims

/-- R20 to R25, R104, R105, R145, R201, R277, R325, R330, R338, R339, R341, R346: clauses as they issue, and what waits to go on.  When
the fault of a released access is delivered, and where its entity resumes, are readings of the model (log 33). -/
def Obligations.IssueEvents : Prop :=
  Claims.ClauseIssues ∧ Claims.IssueLimits ∧ Claims.HeldWordsRetry ∧ Claims.ReplayFaultDelivers ∧ Claims.ParkedEntriesReplay

/-- R228, R233, R239, R240, R247, R251, R261, R345, R358, R389: copies, reductions and engines at work.  The model's own choices in it: an
abandoned reduction ends once every local rank has come or left, and other packages are told (log 44); bands swap one after another, a drain's
row sum is signed, and a strict FMTF comes after the last byte (log 35). -/
def Obligations.CopyAndEngineEvents : Prop :=
  Claims.GranulesMove ∧ Claims.GranuleSource ∧ Claims.CopiesEnd ∧ Claims.ReductionsComplete ∧ Claims.EnginePaths ∧ Claims.EngineGranules ∧
    Claims.ReductionSums ∧ Claims.EngineEntriesEnd

/-! ## The machine's own events: the grid unit, power, migration, contexts, debug, trace, links and reset -/

namespace Sys2Proof.Claims

/-- R264 to R267, R319 to R322, R397: a published record of an ACTIVE context's queue becomes a grid; a context is chosen and draws with the next
number of its generator; nothing happens where there is nothing to choose or consume. -/
def RecordsAndDraws : Prop :=
  (∀ (s : State) (c q : Nat),
    let stack := lowStack (s.partStacks (s.ctx c).part)
    (((s.ctx c).state ≠ .active ∨ 63 < q ∨ s.rangeWaits stack c [.load] (s.queueAddr c q) 48 = true) → Idle (.queueRecordConsume c q) s) ∧
    let v := s.touchRange stack c (s.queueAddr c q) 48
    let h := v.queueHdr stack c q
    ((s.ctx c).state = .active → q ≤ 63 → s.rangeWaits stack c [.load] (s.queueAddr c q) 48 = false → s.headerRes stack c q = .ok → v.headerRes stack c q = .ok →
      ((tabGet (s.ctx c).queues q).getD Queue.reset).reported = false →
      ((h.en = false ∨ h.sized = false ∨ h.used = 0 ∨ v.rangeWaits stack c [.load] (h.slot h.head) 128 = true) → exec (.queueRecordConsume c q) s = .next v) ∧
      (h.en = true → h.sized = true → 0 < h.used → v.rangeWaits stack c [.load] (h.slot h.head) 128 = false → v.rangeCheck stack c [.load] (h.slot h.head) 128 = .ok →
        recValid (v.deviceLoad stack c (h.slot h.head) 128) false = true → tabGet (s.ctx c).links (linkKey q h.head) = none →
        Gives (.queueRecordConsume c q) s fun t => (t.ctx c).nextGrid = (s.ctx c).nextGrid + 1 ∧
          ∃ g, tabGet t.grids s.nextId = some g ∧ g.ctx = c ∧ g.queue = q ∧ g.gridId = (s.ctx c).nextGrid ∧ g.depth = 1 ∧ g.next = 0 ∧
            g.parent = none ∧ g.rcd = recOf (v.deviceLoad stack c (h.slot h.head) 128)))) ∧
  (∀ (s : State) (st : Nat),
    ((∀ p < 8, s.partStacks p = 0 ∨ lowStack (s.partStacks p) ≠ st) → Idle (.contextChoice st) s) ∧
    ∀ p, ((List.range 8).find? fun p => s.partStacks p != 0 && lowStack (s.partStacks p) == st) = some p →
      let cands := (List.range 64).filter (s.candidate st p)
      let at' := ((tabGet s.rrCtx p).getD (64, 0)).1
      let left := ((tabGet s.rrCtx p).getD (64, 0)).2
      (cands = [] → Idle (.contextChoice st) s) ∧
      ∀ c, (∃ g < 1024, bitOf (s.partStacks p) (coreStack g) = true ∧ s.coreInService g = true ∧ ∃ k < 4, (s.partTeams g k).length < 16) →
        roundRobin at' left cands = some c → Gives (.contextChoice st) s fun t => (t.ctx c).seed = xorshift (s.ctx c).seed ∧
          tabGet t.rrCtx p =
            some (c, if t.candidate st p c then (if 0 < left ∧ c = at' then left - 1 else (s.ctx c).turns - 1) else 0)) ∧
  ∀ (at' left : Nat) (cands : List Nat) (c : Nat), roundRobin at' left cands = some c → c ∈ cands ∧
    (0 < left → at' ∈ cands → c = at') ∧ ((left = 0 ∨ at' ∉ cands) → (∃ d ∈ cands, at' < d) → at' < c)

/-- R13, R14, R56, R202, R317, R326: placement of held units, of swapped teams and of saved workgroups; swapping out; and retirement. -/
def PlacementAndRetirement : Prop :=
  ∀ (s : State),
    (∀ c k, (s.ctx c).state ≠ .active → Idle (.placement c k) s) ∧
    (∀ c, (s.ctx c).held = none → Idle (.placement c 0) s) ∧
    (∀ c p g core, (s.ctx c).state = .active → (s.ctx c).savedWgs = [] → (s.ctx c).held = some (.half p) → tabGet s.grids p.grid = some g →
      s.chooseCore c g = some core → Gives (.placement c 0) s fun t => (t.ctx c).held = none ∧
        ∃ w, tabGet t.wgs s.nextId = some w ∧ w.core = core ∧ w.grid = p.grid ∧ w.lo = p.lo ∧ w.hi = p.hi ∧ w.splits = p.splits ∧
          w.place = .resident) ∧
    (∀ c k w g, (s.ctx c).state = .active → k ≠ 0 → tabGet s.wgs k = some w → w.ctx = c → w.place = .saved → w.cluster = none →
      (s.ctx c).savedWgs.head? = some k → s.reaches (physOf (s.recordAddr w) 0) = true → tabGet s.grids w.grid = some g →
      (∃ core < 1024, bitOf (s.partStacks (s.ctx c).part) (coreStack core) = true ∧ coreStack core = coreStack w.core ∧
        s.restoreFits k g.rcd core = true) →
      Gives (.placement c k) s fun t => (∃ v, tabGet t.wgs k = some v ∧ v.place = .restoring 0 ∧ coreStack v.core = coreStack w.core ∧
          s.restoreFits k g.rcd v.core = true) ∧
        (t.ctx c).savedWgs = (s.ctx c).savedWgs.filter fun j => j != k) ∧
    (∀ c k t, (s.ctx c).state = .active → k ≠ 0 → tabGet s.wgs k = none → tabGet s.teams k = some t → s.ctxOf t = c → t.swapped = true →
      s.reaches (physOf ((s.ctx c).ctxSave.toNat + t.imageAt) 0) = true → s.qwaitOver k t = true → s.partTakes (s.coreOf t) t.part t.lanes t.grant 0 1 0 = true →
      (s.replay.filter fun r => r.2.part == 4 * s.coreOf t + t.part || r.2.team == k).length ≤ 256 →
      s.entryRoom (s.coreOf t) t.part ((s.entsOf k).filter fun e => e.2.isFrag).length = true →
      Gives (.placement c k) s fun u => ∃ v, tabGet u.teams k = some v ∧ v.swapped = false ∧ v.part = t.part ∧
        v.slot = s.freeTeamSlot (s.coreOf t) t.part) ∧
    (∀ k t, tabGet s.teams k = some t → (t.swapped = true ∨ s.teamQuiet k = false) → Idle (.teamSwapOut k) s) ∧
    (∀ k t w, tabGet s.teams k = some t → t.swapped = false → tabGet s.wgs t.wg = some w → w.place = .resident → (∃ x ∈ s.ents, x.2.team = k) →
      (∀ x ∈ s.ents, x.2.team = k → x.2.hold = some .qwait) → s.qwaitOver k t = false → s.teamQuiet k = true →
      let c := s.ctxOf t
      let ps := s.replay.filter fun r => r.2.team == k
      let operands := alignUp (64 * ps.length) 4096
      let image := alignUp (operands + (ps.map fun r => operandBytes r.2).sum) 4096
      let x := { t with swapped := true, imageAt := s.saveBase c + image, v := t.v.filter fun r => decide (r.1 < t.live) }
      let m := (s.entsOf k).foldl (fun s e => s.modEnt e.1 fun e => { e with snap := none }) (s.modTeam k fun _ => x)
      let parts := [(0, m.parkedSection c operands ps), (operands, ps.flatMap fun r => m.operandSection r.2), (image, m.teamImage k x)]
      let a := (s.ctx c).ctxSave.toNat + s.saveBase c
      (∀ p ∈ parts, a + p.1 + p.2.length ≤ 2 ^ 48) →
      Gives (.teamSwapOut k) s fun u => tabGet u.teams k = some x ∧
        (∀ r ∈ u.replay, r.2.team = k → r.2.part = 4096) ∧ (∀ e ∈ u.ents, tabSorted 0 s.ents = true → e.2.team = k → e.2.snap = none) ∧
        ∃ y : State, y.mem = s.mem ∧ y.l1 = s.l1 ∧ y.lineKey = s.lineKey ∧ y.ports = s.ports ∧ y.outbox = s.outbox ∧ u.mem = (parts.foldl (fun s p => s.physPut (a + p.1) p.2) y).mem) ∧
    (∀ k w, tabGet s.wgs k = some w → s.wgOver k w = false → Idle (.workgroupRetire k) s) ∧
    ∀ k w, tabGet s.wgs k = some w → s.wgOver k w = true → tabSorted 0 s.wgs = true → Gives (.workgroupRetire k) s fun t =>
      tabGet t.wgs k = none ∧ ∀ x ∈ t.teams, x.2.wg ≠ k

/-- R351, R352, R354 to R358, R363: samples, the emergency and its notices, and the stage manager's passes. -/
def SamplesAndEmergency : Prop :=
  ∀ (s : State),
    (∀ x, (s.time.toNat % 1000 ≠ 0 ∨ s.policy.lastSample = s.time.toNat) → Idle (.sampleTick x) s) ∧
    (∀ x, s.time.toNat % 1000 = 0 → s.policy.lastSample ≠ s.time.toNat → Gives (.sampleTick x) s fun t =>
      t.policy.lastSample = s.time.toNat ∧
      (t.policy.emg = true ↔ s.policy.emg = true ∨ 1080 < sampleHottest x ∧ s.policy.emgSrc = false) ∧
      (t.policy.emgSrc = true ↔ s.policy.emgSrc = true ∨ 1080 < sampleHottest x) ∧
      (∀ c < 256, (t.column c).seq = ((s.column c).seq + 1) % 65536 ∧ (t.column c).budget = (s.column c).budget ∧
        (t.column c).moves = (s.column c).moves ∧ (t.column c).lost = min 65535 (s.column c).suppressed ∧ (t.column c).suppressed = 0) ∧
      ∀ c < 256, let r := sampleReading x c
        let part (e : EngineCharge) : ℚ := (e.energy * (s.chargedTo e.op).count c : Nat) / ((max (s.chargedTo e.op).length 1 : Nat) : ℚ)
        let pwr := r.events + r.leakage + ⌊(x.engines.map part).sum⌋.toNat
        (t.column c).busy = r.busy % 256 ∧ (t.column c).stall = r.stall % 256 ∧ (t.column c).pwr = pwr % 65536 ∧
        (t.column c).sigma = sigmaOf s.policy.smax pwr (s.column c).budget r.classPower) ∧
    (∀ x, s.time.toNat % 1000 = 0 → s.policy.lastSample ≠ s.time.toNat → Gives (.sampleTick x) s fun t => t.charged = []) ∧
    (s.policy.emg = true → s.policy.emgSrc = true → 100000 ≤ s.policy.coolTicks → Gives .emergencyRelease s fun t =>
      t.policy.emg = false ∧ t.policy.emgSrc = false ∧ ∀ i < 1344, (t.island i).emgCap = 38) ∧
    ((s.policy.emg = false ∨ s.policy.emgSrc = false ∨ s.policy.coolTicks < 100000) → Idle .emergencyRelease s) ∧
    (∀ l n, (s.linkUp l = false ∨ tabGet s.notices n.origin = some n.seq) → Idle (.noticeReceive l n) s) ∧
    (∀ l n, s.linkUp l = true → tabGet s.notices n.origin ≠ some n.seq → Gives (.noticeReceive l n) s fun t =>
      tabGet t.notices n.origin = some n.seq ∧ t.policy.emgSeq = n.seq ∧ t.policy.emgSrc = s.policy.emgSrc ∧
      t.policy.emg = (!n.release || (s.policy.emg && s.policy.emgSrc))) ∧
    (∀ ts gs, Gives (.smLoopPass ts gs) s fun t => t.policy.smhb = (s.policy.smhb + 1) % 4294967296 ∧ t.policy.smhbTicks = 0 ∧
      t.policy.smhbCapped = false ∧ ∀ g, gs = [g] → g.engine < 256 → (t.engine g.engine).gate = g.gate) ∧
    ((s.policy.smhbTicks < 1000000 ∨ s.policy.smhbCapped = true) → Idle .smhbTimeout s) ∧
    (1000000 ≤ s.policy.smhbTicks → s.policy.smhbCapped = false → Gives .smhbTimeout s fun t => t.policy.smhbCapped = true ∧
      ∀ i < 1344, (t.island i).smhbCap = 10 ∧ (t.island i).fcur ≤ 10)

/-- R354, R355: an island's target is refused out of range or below its floor, and else taken or kept for later; a change ramps, settles and
switches in its order. -/
def IslandsChange : Prop :=
  ∀ (s : State) (i : Nat),
    let x := s.island i
    let now := s.time.toNat
    (∀ v f, i < 1344 → (80 < v ∨ 38 < f) → Gives (.islandTarget { island := i, vtgt := v, ftgt := f }) s fun t =>
      t.island i = { x with result := 2 }) ∧
    (∀ v f, i < 1344 → v ≤ 80 → f ≤ 38 → v < floorOf i f → Gives (.islandTarget { island := i, vtgt := v, ftgt := f }) s fun t =>
      t.island i = { x with result := 1 }) ∧
    (∀ v f, i < 1344 → v ≤ 80 → f ≤ 38 → floorOf i f ≤ v → Gives (.islandTarget { island := i, vtgt := v, ftgt := f }) s fun t =>
      (t.island i).result = 0 ∧ (t.island i).vtgt = v ∧ (t.island i).ftgt = f ∧ (t.island i).fcur = x.fcur ∧
      (x.state = .idle → (t.island i).goal = (v, f) ∧ ((t.island i).state = .fdown ∨ (t.island i).state = .ramp)) ∧
      (x.state ≠ .idle → (t.island i).pending = some (v, f) ∧ (t.island i).state = x.state)) ∧
    (∀ v f, 1344 ≤ i → Idle (.islandTarget { island := i, vtgt := v, ftgt := f }) s) ∧
    ((x.state ≠ .ramp ∨ x.vnow now ≠ x.goal.1) → Idle (.voltageRampDone i) s) ∧
    (x.state = .ramp → x.vnow now = x.goal.1 → Gives (.voltageRampDone i) s fun t => (t.island i).vcur = x.goal.1 ∧
      (t.island i).fcur = x.fcur ∧ (x.vcur < x.goal.1 → (t.island i).state = .settle ∧ (t.island i).since = now)) ∧
    ((x.state ≠ .settle ∨ now < x.since + 200) → Idle (.settleDone i) s) ∧
    (x.state = .settle → x.since + 200 ≤ now → Gives (.settleDone i) s fun t => (t.island i).fcur = x.fcur ∧
      (x.fcur < x.fgoal → (t.island i).state = .fup)) ∧
    ((x.state ≠ .fdown ∧ x.state ≠ .fup) → Idle (.frequencySwitch i) s) ∧
    (x.state = .fdown → Gives (.frequencySwitch i) s fun t => (t.island i).state = .ramp ∧ (t.island i).fcur = min x.fcur x.fgoal) ∧
    (x.state = .fup → Gives (.frequencySwitch i) s fun t => (t.island i).fcur = x.fgoal ∧
      (x.pending = none → (t.island i).state = .idle))

/-- R28, R29, R345, R364, R372: a move starts where it may, waits for the clauses in issue, or is deferred; its blocks go over one by one; and
it arrives once all have. -/
def MovesBetweenLayers : Prop :=
  ∀ (s : State) (w y : Nat),
    (tabGet s.wgs w = none → Idle (.migrationStart w y) s ∧ Idle (.migrationArrival w) s ∧ Idle (.saveBlockTransfer w) s) ∧
    ∀ x, tabGet s.wgs w = some x →
      (x.aborting = true → Idle (.migrationStart w y) s) ∧
      (x.place = .resident → ((s.column (coreColumn x.core)).chosen ≠ some (w, y) ∨ s.roomOn (s.moveSet w) y = false) →
        Idle (.migrationStart w y) s) ∧
      (x.aborting = false → (x.place = .halting y ∨
          x.place = .resident ∧ (s.column (coreColumn x.core)).chosen = some (w, y) ∧ s.roomOn (s.moveSet w) y = true) →
        let all (p : Residency) : Prop := Gives (.migrationStart w y) s fun t => ∀ k ∈ s.moveSet w, ∀ v, tabGet s.wgs k = some v →
          ∃ v', tabGet t.wgs k = some v' ∧ v' = { v with place := p }
        ((s.moveForbidden (s.moveSet w) = true ∨ x.place = .halting y ∧ s.entriesFit (s.moveSet w) = false) → all .resident) ∧
        ((x.place = .halting y → s.entriesFit (s.moveSet w) = true) → s.moveForbidden (s.moveSet w) = false → s.allAtBoundary (s.moveSet w) = true → all (.moving y 0)) ∧
        ((x.place = .halting y → s.entriesFit (s.moveSet w) = true) → s.moveForbidden (s.moveSet w) = false →
          s.allAtBoundary (s.moveSet w) = false → all (.halting y))) ∧
      (x.place = .resident → Idle (.migrationArrival w) s ∧ Idle (.saveBlockTransfer w) s) ∧
      (∀ n, x.place = .moving y n → x.cluster = none →
        (n < s.blocksOf w x → Idle (.migrationArrival w) s ∧ Gives (.saveBlockTransfer w) s fun t =>
          tabGet t.wgs w = some { x with place := .moving y (n + 1) }) ∧
        (s.blocksOf w x ≤ n → Gives (.migrationArrival w) s fun t => ∃ v, tabGet t.wgs w = some v ∧ v.place = .resident ∧
          v.core = coreOnLayer x.core y ∧ v.spad = x.spad)) ∧
      (∀ n, x.place = .restoring n → s.reaches (physOf (s.recordAddr x) 0) = false → Idle (.saveBlockTransfer w) s) ∧
      (∀ n, x.place = .restoring n → s.reaches (physOf (s.recordAddr x) 0) = true → Gives (.saveBlockTransfer w) s fun t =>
        (∃ v, tabGet t.wgs w = some v ∧ v.core = x.core ∧ v.place = if s.blocksOf w x ≤ n + 1 then .resident else .restoring (n + 1)) ∧
        let lane := (s.blockCounts w x).1
        (lane ≤ n → n < lane + (s.blockCounts w x).2.1 →
          let b := s.blockSpan w x n
          t.spaceRead w .spad (4096 * (n - lane)) b.2 = s.loadBytes (physOf (s.recordAddr x + b.1) 0) b.2)) ∧
      (∀ n, x.place = .saving n → n < s.blocksOf w x → Gives (.saveBlockTransfer w) s fun t =>
        (∃ v, tabGet t.wgs w = some v ∧ v.spad = x.spad ∧
          v.place = if s.blocksOf w x ≤ n + 1 then .saved else .saving (n + 1)) ∧
        (n + 1 < s.blocksOf w x → t.mem = (s.recordWrite x (s.blockSpan w x n).1 (s.blockBytes w x n)).mem)) ∧
      ∀ n, x.place = .saving n → s.blocksOf w x ≤ n → Gives (.saveBlockTransfer w) s fun t =>
        (∃ v, tabGet t.wgs w = some v ∧ v.place = .saved ∧ v.spad = x.spad) ∧ (t.ctx x.ctx).savedWgs = (s.ctx x.ctx).savedWgs ++ [w]

/-- A port carries writes: it is one of the two, trained and keyed (R312, R393). -/
def Keyed (s : State) (p : Nat) : Prop := p < 2 ∧ ∃ l, tabGet s.ports p = some l ∧ l.trained = true ∧ l.keyed = true

/-- A port may write any register: it is keyed and holds the semaphore (R313). -/
def Owns (s : State) (p : Nat) : Prop := Keyed s p ∧ s.sem.held = true ∧ s.sem.owner = p

/-- R312 to R316, R330, R337, R367 to R374, R379, R392: the rows that are writes of a port: each is its register's write, and a port that carries
none changes nothing. -/
def PortRowsWrite : Prop :=
  ∀ (s : State) (p a c q h : Nat) (v : Word), c < 64 → q < 4096 → h < 280 →
    (∀ o, s.sem.held = false → s.agenda.head?.bind semAsk = some { port := o, word := 4, ent := none } → o ≠ p → Keyed s p → Keyed s o →
      Gives (.acq p) s fun t =>
      t.sem.held = true ∧ t.sem.epoch = (s.sem.epoch + 1) % 256 ∧
      t.sem.owner = (if Config.sameCycle s.free = true then s.sem.epoch % 2 else p) ∧
      t.agenda = if Config.sameCycle s.free = true then s.agenda.tail else s.agenda) ∧
    (∀ r, s.rivalAsk p = some r → Keyed s p →
      let z := { s with free := s.free + 1 }
      exec (.acq p) s = .next (if Config.sameCycle s.free = true then
          (if p = s.sem.epoch % 2 then (z.spent r).semWrite p 4 else (z.spent r).semWrite r.port r.word) else z.semWrite p 4)) ∧
    (∀ (q : Nat) (x : Word), (s.semWrite q x).sem =
      (let m := s.sem
       let m := if x.getLsbD 2 = true then (if m.held = false then { m with held := true, owner := q, epoch := (m.epoch + 1) % 256, lease := 0 }
         else if m.owner = q then { m with lease := 0 } else m) else m
       if x.getLsbD 3 = true ∧ m.held = true ∧ m.owner = q then { m with held := false } else m)) ∧
    ∀ r ∈ [(Instr.privRegisterWrite p a v, a, v), (.acq p, 0, 4), (.rel p, 0, 8), (.dzHb p, 4, 0), (.create p c, ctxBase c + 4, 1),
        (.suspend p c, ctxBase c + 4, 2), (.resume p c, ctxBase c + 4, 3), (.tear p c, ctxBase c + 4, 4),
        (.hostRqrel p c v, ctx2Base c + 0x18, v), (.tagCountWrite p c v, ctx2Base c + 0x34, v), (.attestationRequest p v, 0xA0, v),
        (.stop p q v, windowBase q, (v &&& 0x3F00) ||| 1), (.debugEdit p q v, windowBase q + 0x10, v), (.debugRevoke p c v, dbgBase c, v)],
      (Keyed s p → (r.2.1 = 0 → r.2.2.getLsbD 2 = true → s.rivalAsk p = none) → exec r.1 s = .next (s.privWrite p r.2.1 r.2.2)) ∧
      (¬ Keyed s p → Idle r.1 s)

/-- R316, R332: the commands of a context by a port that owns the semaphore: each from the state that takes it, and ERR from another. -/
def ContextCommands : Prop :=
  ∀ (s : State) (p c : Nat), c < 64 → Owns s p →
    ((s.ctx c).state = .free → s.createOk c = true → Gives (.create p c) s fun t => (t.ctx c).state = .active ∧ (t.ctx c).nextGrid = 1 ∧
      (t.ctx c).root0 = (s.ctx c).root0 ∧ (t.ctx c).held = none) ∧
    ((s.ctx c).state ≠ .free → Gives (.create p c) s fun t => t.ctx c = { s.ctx c with err := true }) ∧
    ((s.ctx c).state = .active → (s.ctx c).held = none → Gives (.suspend p c) s fun t => (t.ctx c).state = .suspending ∧
      ∀ k w, tabGet s.wgs k = some w → w.ctx = c → w.place ≠ .saved → tabGet t.wgs k = some { w with place := .stopping }) ∧
    ((s.ctx c).state ≠ .active → Gives (.suspend p c) s fun t => t.ctx c = { s.ctx c with err := true }) ∧
    ((s.ctx c).state = .suspended → Gives (.resume p c) s fun t => t.ctx c = { s.ctx c with state := .active }) ∧
    ((s.ctx c).state ≠ .suspended → Gives (.resume p c) s fun t => t.ctx c = { s.ctx c with err := true }) ∧
    (((s.ctx c).state = .active ∨ (s.ctx c).state = .suspending ∨ (s.ctx c).state = .suspended) → Gives (.tear p c) s fun t =>
      (t.ctx c).state = .tearing ∧ (t.ctx c).dbgEn = false ∧ (∀ w ∈ t.wgs, w.2.ctx ≠ c) ∧ ∀ g ∈ t.grids, g.2.ctx ≠ c) ∧
    (((s.ctx c).state = .free ∨ (s.ctx c).state = .tearing) → Gives (.tear p c) s fun t => t.ctx c = { s.ctx c with err := true })

/-- R330, R337, R368, R369, R373, R374, R379, R392: the other commands of a port that owns the semaphore. -/
def PortCommands : Prop :=
  ∀ (s : State) (p c q h : Nat) (v : Word), c < 64 → q < 4096 → h < 280 → Owns s p →
    let w := s.window q
    exec (.hostRqrel p c v) s = .next (s.hostRelease c v) ∧
    ((s.ctx c).count = 0 → Gives (.tagCountWrite p c v) s fun t =>
      t.ctx c = { s.ctx c with tag := v.toNat % 16, count := v.toNat / 16 }) ∧
    (s.trust.busy = false → s.trust.verdict = 1 → s.trust.index < Config.signatureCount → Gives (.attestationRequest p v) s fun t =>
      t.trust.busy = true ∧ t.trust.status = 0 ∧ t.trust.reqCtx = v.toNat % 64) ∧
    (s.trust.busy = false → s.trust.verdict ≠ 1 → Gives (.attestationRequest p v) s fun t => t.trust.status = 2 ∧ t.trust.busy = false) ∧
    (let x := v.toNat / 256 % 64
     (s.debugRight p x = false → Gives (.stop p q v) s fun t => (t.window q).err = true ∧ t.ents = s.ents) ∧
     (s.debugRight p x = true → w.stopped = false → w.stopping = false → Gives (.stop p q v) s fun t => (t.window q).sctx = x ∧
       ((t.window q).stopped = true ∨ (t.window q).stopping = true) ∧ (t.window q).stopTime = s.time.toNat)) ∧
    (s.debugRight p w.sctx = true → w.sctx < 64 → tabSorted 0 s.ents = true → Gives (.debugResume p q) s fun t =>
      (t.window q).stopped = false ∧
      ∀ x ∈ s.entsOn q w.sctx, ∃ e, tabGet t.ents x.1 = some e ∧ e.stopped = false ∧ e.haltNext = false) ∧
    (s.debugRight p w.sctx = true → w.sctx < 64 → w.stopped = true → w.busy = false → w.retry = none → (∀ x ∈ s.ents, x.2.haltNext = false) →
      (∀ k e, s.selected q w.sctx w.dsel = some (k, e) → tabGet s.ents k = some e → e.stopped = true → e.issue.isSome = true →
        Gives (.step p q) s fun t => (t.window q).busy = true ∧ (t.window q).retry = some k ∧
          tabGet t.ents k = some { e with stopped := false, haltNext := true }) ∧
      (∀ k ks e, s.stepOrder q w.sctx = k :: ks → tabGet s.ents k = some e → e.stopped = true → e.issue.isSome = true →
        Gives (.stepall p q) s fun t => (t.window q).busy = true ∧ (t.window q).retry = some k ∧ (t.window q).stepping = ks ∧
          tabGet t.ents k = some { e with stopped := false, haltNext := true })) ∧
    (∀ k e t n, s.debugRight p w.sctx = true → w.stopped = true → s.selected q w.sctx w.dsel = some (k, e) → tabGet s.teams e.team = some t →
      n ≠ 0 → n < 64 → w.daddr = BitVec.ofNat 32 (16 * n) → Gives (.debugEdit p q v) s fun u =>
        tabGet u.teams e.team = some (t.setS n v) ∧ (u.ctx w.sctx).dbgMod = true) ∧
    (s.debugRight p w.sctx = false → Gives (.debugEdit p q v) s fun u => (u.window q).err = true ∧ u.teams = s.teams) ∧
    (Gives (.debugRevoke p c v) s fun t => (t.ctx c).dbgEn = v.getLsbD 0 ∧
      ((s.ctx c).dbgEn = true → v.getLsbD 0 = false → ∀ x ∈ t.ents, ∀ u, tabGet s.teams x.2.team = some u → s.ctxOf u = c →
        x.2.stopped = false ∧ x.2.haltNext = false)) ∧
    ((s.hist h).pctl < 256 → (s.hist h).act < 4 → (s.hist h).mincnt < 65536 → Gives (.clr p h) s fun t =>
      t.hist h = { s.hist h with bkt := [], fired := false, frozen := false })

/-- R314, R316, R337, R342, R343, R392: what follows in time: the lease, pre-emption, saves, a teardown's end, tags and attestation. -/
def TimedRows : Prop :=
  ∀ (s : State) (c : Nat),
    (s.sem.held = true → 10000000 ≤ s.sem.lease → Gives .leaseLapse s fun t => t = { s with sem := { s.sem with held := false } }) ∧
    ((s.sem.held = false ∨ s.sem.lease < 10000000) → Idle .leaseLapse s) ∧
    (((s.ctx c).state ≠ .suspending ∨ (s.ctx c).preTicks < s.preTo.toNat) → Idle (.preemptionTimeout c) s) ∧
    ((s.ctx c).state = .suspending → s.preTo.toNat ≤ (s.ctx c).preTicks → Gives (.preemptionTimeout c) s fun t =>
      ∀ k u, tabGet s.teams k = some u → tabGet t.teams k = some (if s.ctxOf u = c then { u with offered := true } else u)) ∧
    ((s.ctx c).state ≠ .suspending → Idle (.contextSaveComplete c) s) ∧
    ((s.ctx c).state = .suspending → (∀ w ∈ s.wgs, w.2.ctx = c → w.2.place = .saved) →
      (s.ctx c).ctxSave.toNat + (s.ctx c).saveTop + (s.contextBytes c).length ≤ 2 ^ 48 →
      Gives (.contextSaveComplete c) s fun t => t.ctx c = { s.ctx c with state := .suspended }) ∧
    ((s.ctx c).state ≠ .tearing → Idle (.tearComplete c) s) ∧
    ((s.ctx c).state = .tearing → Gives (.tearComplete c) s fun t =>
      t.ctx c = { s.ctx c with state := .free, keyId := 0, dbgMod := false }) ∧
    ((s.ctx c).count = 0 → Idle (.granuleTag c) s) ∧
    ((s.ctx c).count ≠ 0 → Gives (.granuleTag c) s fun t =>
      let x := s.ctx c
      let va := x.tagVa % 2 ^ 57
      let leaf := s.leafFor (lowStack (s.partStacks x.part)) c .load va
      t.ctx c = { x with count := x.count - 1, tagVa := (x.tagVa + 16) % 2 ^ 57 } ∧
      (∀ e lvl a, leaf = .leaf e lvl a → bitOf e 5 = true → bitOf e 3 = true → inHbm (leafPa e lvl va) = true → tabSorted 0 s.tags = true →
        (tabGet t.tags (leafPa e lvl va / 16)).getD 0 = x.tag) ∧
      ((∀ e lvl a, leaf = .leaf e lvl a → bitOf e 5 = false ∨ bitOf e 3 = false ∨ inHbm (leafPa e lvl va) = false) →
        t.tags = s.tags ∧ t.mem = s.mem)) ∧
    (s.trust.busy = false → Idle .attestationComplete s) ∧
    (s.trust.busy = true → s.trust.addr.toNat + (s.reportBytes s.trust.reqCtx).length + Config.signatureBytes ≤ 2 ^ 48 →
      Gives .attestationComplete s fun t => t.trust = { s.trust with status := 1, busy := false, index := s.trust.index + 1 }) ∧
    (∀ w x, tabGet s.wgs w = some x → x.cluster = none → s.saveReady w x = false → Idle (.workgroupSave w) s) ∧
    ∀ w x, tabGet s.wgs w = some x → x.cluster = none → s.saveReady w x = true → s.engineQuiet [w] = true →
      let u := ((s.countEvent x.ctx 8 (s.landings [w])).l1Sync (coreColumn x.core)).saveTeams w x
      let top := (u.ctx x.ctx).saveTop
      let u := u.modWg w fun w => { w with place := .saving 0, saveAt := top }
      (∀ y, tabGet u.wgs w = some y → ∀ p ∈ u.recordBytesOf w y none, u.recordAddr y + p.1 + p.2.length ≤ 2 ^ 48) →
      Gives (.workgroupSave w) s fun t => ∃ y, tabGet t.wgs w = some y ∧ y.place = .saving 0 ∧ y.saveAt = top ∧ y.spad = x.spad

/-- R370, R377 to R380: stops that settle, frames of the trace stream, and histograms. -/
def DebugAndTraceRows : Prop :=
  ∀ (s : State) (q h n : Nat),
    ((s.window q).stopping = false → (s.window q).busy = false → Idle (.stopSettled q) s) ∧
    ((s.window q).stopping = true → (s.window q).busy = false → (s.window q).retry = none →
      (∀ x ∈ s.entsOn q (s.window q).sctx, x.2.haltNext = true → x.2.handler = none → x.2.atBoundary = true) →
      Gives (.stopSettled q) s fun t => (t.window q).stopped = true ∧ (t.window q).stopping = false) ∧
    (s.frameDue = false → Idle .traceFrame s) ∧
    (s.frameDue = true → s.trace.room 85 = false → Gives .traceFrame s fun t => t.trace = { s.trace with
      seq := s.trace.seq + 1
      last := s.time.toNat
      fdrop := if s.trace.fdrop < 65535 then s.trace.fdrop + 1 else s.trace.fdrop }) ∧
    (s.frameDue = true → s.trace.room 85 = true → Gives .traceFrame s fun t =>
      t.trace = { s.trace with seq := s.trace.seq + 1, last := s.time.toNat, tail := s.trace.tail + 85 }) ∧
    (280 ≤ h → Idle (.histogramRequest h n) s) ∧
    (h < 280 → (s.hist h).fires n = false → (s.hist h).frozen = true → Gives (.histogramRequest h n) s fun t => t.hist h = s.hist h) ∧
    (h < 280 → (s.hist h).fires n = false → (s.hist h).frozen = false → Gives (.histogramRequest h n) s fun t =>
      tabGet (t.hist h).bkt (bucketOf n) = some (min 4294967295 ((tabGet (s.hist h).bkt (bucketOf n)).getD 0 + 1)) ∨
        4294967295 < (tabGet (s.hist h).bkt (bucketOf n)).getD 0) ∧
    (h < 280 → (s.hist h).fires n = true → Gives (.histogramRequest h n) s fun t => (t.hist h).fired = true ∧
      (t.hist h).flat = min 4294967295 n ∧ (t.hist h).ftime = s.time.toNat ∧ ((s.hist h).act = 3 → ∀ k < 280, (t.hist k).frozen = true))

/-- R385, R388, R390, R393, R394: links and sessions, the host's accesses, memory errors, and the service descriptor. -/
def LinksAndHostRows : Prop :=
  ∀ (s : State) (l : Nat),
    (l < 18 → let x := (tabGet s.links l).getD Link.reset
      (s.trust.kemKey ≠ [] → Gives (.linkKeying l) s fun t =>
        tabGet t.links l = some { x with trained := true, keyed := true, failures := 0 }) ∧
      Gives (.linkLevelRetry l) s (fun t => tabGet t.links l = some { x with retries := x.retries + 1, failures := 0 }) ∧
      (x.failures < 2 → Gives (.flitAuthFailure l) s fun t => tabGet t.links l = some { x with failures := x.failures + 1 }) ∧
      (2 ≤ x.failures → Gives (.flitAuthFailure l) s fun t => tabGet t.links l = some { x with keyed := false, failures := 0 })) ∧
    (l < 2 → s.trust.kemKey ≠ [] → Gives (.linkKeying (18 + l)) s fun t =>
      ∃ x, tabGet t.ports l = some x ∧ x.trained = true ∧ x.keyed = true) ∧
    (s.trust.kemKey = [] → Idle (.linkKeying l) s) ∧
    (18 ≤ l → l < 20 → s.trust.kemKey ≠ [] → ∀ q w, s.outbox = [.irq q w] → (q = l - 18 ∨ Keyed s q) → Gives (.linkKeying l) s fun t =>
      t.outbox = [] ∧ t.irqs = s.irqs ++ [(q, w)]) ∧
    (20 ≤ l → (s.outbox = [] → Idle (.linkKeying l) s) ∧ Idle (.flitAuthFailure l) s ∧ Idle (.linkLevelRetry l) s) ∧
    (∀ x, ¬ Keyed s x.port → Idle (.hostAccess x) s) ∧
    (∀ x : HostAccess, Keyed s x.port → x.ctx < 64 → x.bytes ≠ [] → x.addr < 2 ^ 64 → x.addr % 16 + x.bytes.length ≤ 16 → x.alu = none →
      let stack := lowStack (s.partStacks (s.ctx x.ctx).part)
      let k : AccKind := if x.write then .store else .load
      let n := x.bytes.length
      (∀ a m, s.xlate stack x.ctx k x.addr n = .ok a m →
        (x.write = true → exec (.hostAccess x) s = .next (s.devicePut stack x.ctx x.addr x.bytes)) ∧
        (x.write = false →
          let z := (s.touch stack x.ctx .load x.addr).l1Evict s.l1Cols fun b => b / 16 == physAddr a / 16
          ∀ a' m', z.xlate stack x.ctx .load x.addr n = .ok a' m' →
            exec (.hostAccess x) s = .next { z with responses := s.responses ++ [(x.port, z.loadBytes a' n)] })) ∧
      (∀ f a1 b, s.xlate stack x.ctx k x.addr n = .fault f a1 b →
        exec (.hostAccess x) s = .next (if 2 ^ 63 ≤ b then s.irq (s.ctx x.ctx).port 4 x.ctx 0 else s)) ∧
      (s.xlate stack x.ctx k x.addr n = .absent → Idle (.hostAccess x) s)) ∧
    (∀ (x : HostAccess) (op : AtomicOp) (ty : ATy), Keyed s x.port → x.ctx < 64 → x.alu = some (op, ty) → x.addr < 2 ^ 64 →
      let n := match ty with | .b64 => 8 | _ => 4
      let stack := lowStack (s.partStacks (s.ctx x.ctx).part)
      n ≤ x.bytes.length → x.addr % n = 0 → ∀ a m, s.xlate stack x.ctx .atomic x.addr n = .ok a m →
        let z := (s.touch stack x.ctx .atomic x.addr).l1Evict s.l1Cols fun b => b / 16 == physAddr a / 16
        ∀ a' m', z.xlate stack x.ctx .atomic x.addr n = .ok a' m' →
          let old := z.loadBytes a' n
          exec (.hostAccess x) s = .next ({ z with responses := s.responses ++ [(x.port, old)] }.storeBytes a'
            (leBytes n (atomicNew op ty (leNat old) x.bytes).1))) ∧
    (∀ x : ScrubResult, x.uncorrectable = true → inHbm (64 * x.line) = false → Idle (.patrolScrub x) s) ∧
    (∀ x : ScrubResult, x.uncorrectable = false → exec (.patrolScrub x) s = .next { s with corrected := s.corrected + 1 }) ∧
    (∀ x : ScrubResult, x.uncorrectable = true → inHbm (64 * x.line) = true → Gives (.patrolScrub x) s fun t =>
      (tabGet t.poison x.line).isSome = true ∧ t.mem = s.mem) ∧
    (∀ x : Descriptor, s.trust.verdict = 0 → Idle (.descriptorPublish x) s) ∧
    (∀ x : Descriptor, s.service.boot = 0 → s.trust.verdict = 1 → x.svc ≠ 1 → Idle (.descriptorPublish x) s) ∧
    (∀ x : Descriptor, s.trust.verdict = 2 → x.svc ≠ 0 → Idle (.descriptorPublish x) s) ∧
    (∀ x : Descriptor, s.trust.verdict = 2 → x.svc = 0 → Gives (.descriptorPublish x) s fun t => t.service.svc = 0 ∧
      t.service.boot = 2 ∧ t.service.seq = (s.service.seq + 1) % 65536 ∧
      t.irqs.length + t.outbox.length = s.irqs.length + s.outbox.length + 2) ∧
    ∀ x : Descriptor, s.trust.verdict = 1 → x.svc ≤ 2 → (s.service.boot = 0 → x.svc = 1) → Gives (.descriptorPublish x) s fun t =>
      t.service.svc = x.svc ∧
      t.service.seq = (s.service.seq + 1) % 65536 ∧ (x.svc = 2 → t.service.stk = 255 ∧ t.service.lyr = 15 ∧ t.service.fmax = 38) ∧
      (x.svc = 1 → t.service.stk = 1 ∧ t.service.lyr = 3 ∧ t.service.fmax = 10) ∧
      t.irqs.length + t.outbox.length = s.irqs.length + s.outbox.length + 2

/-- R391: RESET leaves TIME, the signing index, and host memory, and puts everything else at its reset value; the boot ROM's verdict on
the image is known. -/
def ResetLeaves : Prop :=
  ∀ (s : State) (x : BootInput), Gives (.reset x) s fun t =>
    t.time = s.time ∧ t.agenda = s.agenda ∧ t.trust.verdict = (if bootVerifies x then 1 else 2) ∧
    (let signs := bootVerifies x && decide (s.trust.index < Config.signatureCount)
     t.trust.index = s.trust.index + (if signs then 1 else 0) ∧ t.trust.kemKey.length = (if signs then Config.kemBytes else 0)) ∧
    t = { State.reset with time := s.time, agenda := s.agenda, mem := t.mem, trust := t.trust } ∧
    (Memory.wf s.mem = true → ∀ a, inHbm a = false → t.byteAt a = s.byteAt a)

end Sys2Proof.Claims

/-- R13, R14, R28, R29, R202, R264 to R267, R317 to R326, R351 to R364: the grid unit, migration, and the islands.  The model's own choices
in it: what a sample reports and how fractions are rounded (logs 12, 14), where images lie in the save area (log 15), that a release notice
counts for nothing at its origin and lifts the caps at once (log 38), and that a move halts its workgroups before it starts (log 39). -/
def Obligations.GridAndPowerEvents : Prop :=
  Claims.RecordsAndDraws ∧ Claims.PlacementAndRetirement ∧ Claims.SamplesAndEmergency ∧ Claims.IslandsChange ∧ Claims.MovesBetweenLayers

/-- R312 to R318, R330, R337, R342, R343, R367 to R380, R385, R388 to R394: ports, contexts, debug, trace, links and reset.  The model's own
choices in it: whether two requests come in one cycle, and that CREATE numbers grids from 1 (log 20); what RESET keeps and the reset values
the spec does not give (logs 1, 3, 44); that the host's accesses go by the lowest stack of a partition, and what waits for a port (log 44);
that a port acts only when it is trained and keyed (log 37); and what a timeout of a pre-emption does (log 40). -/
def Obligations.ContextAndHostEvents : Prop :=
  Claims.PortRowsWrite ∧ Claims.ContextCommands ∧ Claims.PortCommands ∧ Claims.TimedRows ∧ Claims.DebugAndTraceRows ∧
    Claims.LinksAndHostRows ∧ Claims.ResetLeaves

/-! ## Words, the step, reset and memory -/

namespace Sys2Proof.Claims

/-- The bytes of an instruction as memory holds them: each word in its byte order, the first at the lowest address (R4, R130). -/
def bytesOf (i : Instr) : List Byte := (encode i).flatMap bytesOfWord

end Sys2Proof.Claims

/-- R136 to R144: decoding the bytes of a well-formed instruction, whatever follows them, gives that instruction: no bit of any of its operands
is dropped. -/
def Obligations.EncodeDecodeAgree : Prop :=
  ∀ (i : Instr) (more : List Byte), i.wellFormed = true → i.isStep = false → decodeBytes (Claims.bytesOf i ++ more) = .ok i

/-- R142 to R144: an opcode the map does not assign is refused by its number; what decodes is a well-formed instruction, is no step of the
machine, and is written by those words alone. -/
def Obligations.EveryWordHasOneMeaning : Prop :=
  ∀ (w x : Nat), w < 2 ^ 32 → x < 2 ^ 32 →
    ((fld w 31 26 = 0 ∨ 0x26 < fld w 31 26) → decodePair w x = .error (.unassignedOpcode (fld w 31 26))) ∧
    ∀ i, decodePair w x = .ok i → i.wellFormed = true ∧ i.isStep = false ∧
      encode i = if instrWords w = 1 then [w] else [w, x]

/-- R136 to R144: words written out from the layouts, one or more of a family, and the instructions that they are. -/
def Obligations.WordsOfTheLayouts : Prop :=
  decodeTableWord 32 0x0400C101 = some (.faddF32 (.v 1) (.v 2) (.v 3)) ∧
  decodeTableWord 32 0x285F0082 = some (.fcmp .lt 2 (.v 1) (.const .two)) ∧
  decodeTableWord 32 0x40003081 = some (.sadd 1 2 3) ∧
  decodeTableWord 32 0x443FF185 = some (.saddi 5 6 0x3FF) ∧
  decodeTableWord 32 0x4EAF3787 = some (.slui 7 0xABCDE) ∧
  decodeTableWord 32 0x50000FFE = some (.bra 0xFFE) ∧
  decodeTableWord 64 0xFFFFFFF06204C082 = some (.ldg .b32 .plain .normal (.v 2) 3 (.v 1) (some 0xFFFFFFF0)) ∧
  decodeTableWord 32 0x7C025000 = some (.fence .ar .sys) ∧
  decodeTableWord 32 0x8486A201 = some (.mld .spad 3 10 4) ∧
  decodeTableWord 32 0x90000000 = some .tret ∧
  decodeTableWord 32 0x91400008 = some (.hlt 8) ∧
  decodeTableWord 32 0x94001234 = some (.brk 0x1234) ∧
  decodeTableWord 32 0x99800286 = some (.mredAdd .i32 6 (.v 5)) ∧
  decodeTableWord 32 0x00000000 = none ∧ decodeTableWord 32 0x9C000000 = none

/-- R20, R58 and log 5 (the model's choice of which entity goes on): where nothing from outside is due and the current entity goes on with the
clause it has in issue, a step is the instruction that the clause's next words decode to, or another event's while a register that it reads is pending (R117); an event
from outside that is due comes first. -/
def Obligations.StepRunsTheDecodedWord : Prop :=
  ∀ (s : State),
    (∀ i rest, s.agenda = i :: rest → step s = exec i { s with agenda := rest }) ∧
    (s.agenda = [] → ∀ (e : Entity) (k : Issue) (w : Word) (more : List Word) (i : Instr), tabGet s.ents s.cur = some e → e.hold = none →
      e.stopped = false → e.issue = some k → k.words.drop k.next = w :: more →
      decodePair w.toNat (more.headD 0).toNat = .ok i →
      (s.sourcePending s.cur e i = false → step s = exec i s) ∧ (s.sourcePending s.cur e i = true → step s = s.idleStep)) ∧
    (s.agenda = [] → tabGet s.ents s.cur = none → step s = s.idleStep) ∧
    (s.agenda = [] → ∀ e, tabGet s.ents s.cur = some e → (e.hold ≠ none ∨ e.stopped = true ∨ e.issue = none) → step s = s.idleStep)

/-- R315, R318, R346, R359, R361, R377, R379, R388, R391, R394: what the registers read as right after reset, where the spec says it, and that no
work is in the machine; that memory lists nothing is the model's choice (log 1). -/
def Obligations.ResetAsTheSpecSays : Prop :=
  let r (a : Nat) : Word := State.reset.privRead a
  (∀ a ∈ [0x00, 0x08, 0x0C, 0x14, 0x18, 0x1C, 0x20, 0x24, 0x28, 0x2C, 0x30, 0x34, 0x38, 0x3C, 0x4C, 0x50, 0x54, 0x58, 0x5C, 0x70, 0x74],
    r a = 0) ∧
  r 0x10 = 0xFF ∧ r 0x40 = 100000 ∧ r 0x44 = 1024 ∧ r 0x48 = 20 ∧
  r 0x10100 = 920 + 65536 * 1000 ∧ r 0x10104 = 0x80000000 + 65536 * 80 + 1080 ∧ r 0x10108 = 10000 ∧ r 0x1010C = 7 ∧
  (∀ c < 64, r (0x1000 + 64 * c) = 0x20 ∧ r (0x1008 + 64 * c) = 0 ∧ r (0x100C + 64 * c) = 1 ∧ r (0x3000 + 64 * c) = 0) ∧
  (∀ k < 256, r (0x10800 + 4 * k) = 188) ∧
  r (0x20000 + 0x80) = 243 ∧ r 0x40004 = 0 ∧
  State.reset.service.svc = 0 ∧ State.reset.ents = [] ∧ State.reset.teams = [] ∧ State.reset.wgs = [] ∧ State.reset.copies = [] ∧
  Memory.wf State.reset.mem = true

/-- The memory stays in its one form through every step of the machine, so that equal memories are equal data: addresses rise, and no byte
listed is one that an unlisted address reads as (log 1). -/
def Obligations.MemoryStaysCanonical : Prop := KeptByStep fun s => Memory.wf s.mem = true
end

