-- ==== Sys2Proof/Laws/Exec.lean ====
section
/-! SUPPORT. `exec` on each constructor is its meaning, so that no proof unfolds the table. -/

namespace Sys2Proof.Machine

@[simp] theorem exec_faddF32 d a b (s : State) : exec (.faddF32 d a b) s = execFaddF32 d a b s := rfl
@[simp] theorem exec_faddF16Bf16 t d a b (s : State) : exec (.faddF16Bf16 t d a b) s = execFaddF16Bf16 t d a b s := rfl
@[simp] theorem exec_faddF64 d a b (s : State) : exec (.faddF64 d a b) s = execFaddF64 d a b s := rfl
@[simp] theorem exec_faddFp8 t d a b (s : State) : exec (.faddFp8 t d a b) s = execFaddFp8 t d a b s := rfl
@[simp] theorem exec_fsubF32 d a b (s : State) : exec (.fsubF32 d a b) s = execFsubF32 d a b s := rfl
@[simp] theorem exec_fsubF16Bf16 t d a b (s : State) : exec (.fsubF16Bf16 t d a b) s = execFsubF16Bf16 t d a b s := rfl
@[simp] theorem exec_fsubF64 d a b (s : State) : exec (.fsubF64 d a b) s = execFsubF64 d a b s := rfl
@[simp] theorem exec_fsubFp8 t d a b (s : State) : exec (.fsubFp8 t d a b) s = execFsubFp8 t d a b s := rfl
@[simp] theorem exec_fmulF32 d a b (s : State) : exec (.fmulF32 d a b) s = execFmulF32 d a b s := rfl
@[simp] theorem exec_fmulF16Bf16 t d a b (s : State) : exec (.fmulF16Bf16 t d a b) s = execFmulF16Bf16 t d a b s := rfl
@[simp] theorem exec_fmulF64 d a b (s : State) : exec (.fmulF64 d a b) s = execFmulF64 d a b s := rfl
@[simp] theorem exec_fmulFp8 t d a b (s : State) : exec (.fmulFp8 t d a b) s = execFmulFp8 t d a b s := rfl
@[simp] theorem exec_fminF32 d a b (s : State) : exec (.fminF32 d a b) s = execFminF32 d a b s := rfl
@[simp] theorem exec_fminF16Bf16 t d a b (s : State) : exec (.fminF16Bf16 t d a b) s = execFminF16Bf16 t d a b s := rfl
@[simp] theorem exec_fminF64 d a b (s : State) : exec (.fminF64 d a b) s = execFminF64 d a b s := rfl
@[simp] theorem exec_fminFp8 t d a b (s : State) : exec (.fminFp8 t d a b) s = execFminFp8 t d a b s := rfl
@[simp] theorem exec_fmaxF32 d a b (s : State) : exec (.fmaxF32 d a b) s = execFmaxF32 d a b s := rfl
@[simp] theorem exec_fmaxF16Bf16 t d a b (s : State) : exec (.fmaxF16Bf16 t d a b) s = execFmaxF16Bf16 t d a b s := rfl
@[simp] theorem exec_fmaxF64 d a b (s : State) : exec (.fmaxF64 d a b) s = execFmaxF64 d a b s := rfl
@[simp] theorem exec_fmaxFp8 t d a b (s : State) : exec (.fmaxFp8 t d a b) s = execFmaxFp8 t d a b s := rfl
@[simp] theorem exec_fabsF32 d a (s : State) : exec (.fabsF32 d a) s = execFabsF32 d a s := rfl
@[simp] theorem exec_fabsF16Bf16 t d a (s : State) : exec (.fabsF16Bf16 t d a) s = execFabsF16Bf16 t d a s := rfl
@[simp] theorem exec_fabsF64 d a (s : State) : exec (.fabsF64 d a) s = execFabsF64 d a s := rfl
@[simp] theorem exec_fabsFp8 t d a (s : State) : exec (.fabsFp8 t d a) s = execFabsFp8 t d a s := rfl
@[simp] theorem exec_fnegF32 d a (s : State) : exec (.fnegF32 d a) s = execFnegF32 d a s := rfl
@[simp] theorem exec_fnegF16Bf16 t d a (s : State) : exec (.fnegF16Bf16 t d a) s = execFnegF16Bf16 t d a s := rfl
@[simp] theorem exec_fnegF64 d a (s : State) : exec (.fnegF64 d a) s = execFnegF64 d a s := rfl
@[simp] theorem exec_fnegFp8 t d a (s : State) : exec (.fnegFp8 t d a) s = execFnegFp8 t d a s := rfl
@[simp] theorem exec_fsatF32 d a (s : State) : exec (.fsatF32 d a) s = execFsatF32 d a s := rfl
@[simp] theorem exec_fsatF16Bf16 t d a (s : State) : exec (.fsatF16Bf16 t d a) s = execFsatF16Bf16 t d a s := rfl
@[simp] theorem exec_fsatF64 d a (s : State) : exec (.fsatF64 d a) s = execFsatF64 d a s := rfl
@[simp] theorem exec_fsatFp8 t d a (s : State) : exec (.fsatFp8 t d a) s = execFsatFp8 t d a s := rfl
@[simp] theorem exec_frndF32 m d a (s : State) : exec (.frndF32 m d a) s = execFrndF32 m d a s := rfl
@[simp] theorem exec_frndF16Bf16 t m d a (s : State) : exec (.frndF16Bf16 t m d a) s = execFrndF16Bf16 t m d a s := rfl
@[simp] theorem exec_frndF64 m d a (s : State) : exec (.frndF64 m d a) s = execFrndF64 m d a s := rfl
@[simp] theorem exec_fdivF32 d a b (s : State) : exec (.fdivF32 d a b) s = execFdivF32 d a b s := rfl
@[simp] theorem exec_fdivF64 d a b (s : State) : exec (.fdivF64 d a b) s = execFdivF64 d a b s := rfl
@[simp] theorem exec_fsqrtF32 d a (s : State) : exec (.fsqrtF32 d a) s = execFsqrtF32 d a s := rfl
@[simp] theorem exec_fsqrtF64 d a (s : State) : exec (.fsqrtF64 d a) s = execFsqrtF64 d a s := rfl
@[simp] theorem exec_ffmaF32 d a b (s : State) : exec (.ffmaF32 d a b) s = execFfmaF32 d a b s := rfl
@[simp] theorem exec_ffmsF32 d a b (s : State) : exec (.ffmsF32 d a b) s = execFfmsF32 d a b s := rfl
@[simp] theorem exec_ffnmaF32 d a b (s : State) : exec (.ffnmaF32 d a b) s = execFfnmaF32 d a b s := rfl
@[simp] theorem exec_ffmaF16 d a b (s : State) : exec (.ffmaF16 d a b) s = execFfmaF16 d a b s := rfl
@[simp] theorem exec_ffmaBf16 d a b (s : State) : exec (.ffmaBf16 d a b) s = execFfmaBf16 d a b s := rfl
@[simp] theorem exec_ffmaF64 d a b (s : State) : exec (.ffmaF64 d a b) s = execFfmaF64 d a b s := rfl
@[simp] theorem exec_fdot2F16 d a b (s : State) : exec (.fdot2F16 d a b) s = execFdot2F16 d a b s := rfl
@[simp] theorem exec_fdot2Bf16 d a b (s : State) : exec (.fdot2Bf16 d a b) s = execFdot2Bf16 d a b s := rfl
@[simp] theorem exec_fdot4E4m3 d a b (s : State) : exec (.fdot4E4m3 d a b) s = execFdot4E4m3 d a b s := rfl
@[simp] theorem exec_fdot4E5m2 d a b (s : State) : exec (.fdot4E5m2 d a b) s = execFdot4E5m2 d a b s := rfl
@[simp] theorem exec_idot4Ii d a b (s : State) : exec (.idot4Ii d a b) s = execIdot4Ii d a b s := rfl
@[simp] theorem exec_idot4In d a b (s : State) : exec (.idot4In d a b) s = execIdot4In d a b s := rfl
@[simp] theorem exec_idot4Ni d a b (s : State) : exec (.idot4Ni d a b) s = execIdot4Ni d a b s := rfl
@[simp] theorem exec_idot4Nn d a b (s : State) : exec (.idot4Nn d a b) s = execIdot4Nn d a b s := rfl
@[simp] theorem exec_iadd d a b (s : State) : exec (.iadd d a b) s = execIadd d a b s := rfl
@[simp] theorem exec_isub d a b (s : State) : exec (.isub d a b) s = execIsub d a b s := rfl
@[simp] theorem exec_imul d a b (s : State) : exec (.imul d a b) s = execImul d a b s := rfl
@[simp] theorem exec_imulhI32 d a b (s : State) : exec (.imulhI32 d a b) s = execImulhI32 d a b s := rfl
@[simp] theorem exec_imulhN32 d a b (s : State) : exec (.imulhN32 d a b) s = execImulhN32 d a b s := rfl
@[simp] theorem exec_imad d a b (s : State) : exec (.imad d a b) s = execImad d a b s := rfl
@[simp] theorem exec_iminI32 d a b (s : State) : exec (.iminI32 d a b) s = execIminI32 d a b s := rfl
@[simp] theorem exec_imaxI32 d a b (s : State) : exec (.imaxI32 d a b) s = execImaxI32 d a b s := rfl
@[simp] theorem exec_iminN32 d a b (s : State) : exec (.iminN32 d a b) s = execIminN32 d a b s := rfl
@[simp] theorem exec_imaxN32 d a b (s : State) : exec (.imaxN32 d a b) s = execImaxN32 d a b s := rfl
@[simp] theorem exec_iabs d a (s : State) : exec (.iabs d a) s = execIabs d a s := rfl
@[simp] theorem exec_ineg d a (s : State) : exec (.ineg d a) s = execIneg d a s := rfl
@[simp] theorem exec_iaddV t d a b (s : State) : exec (.iaddV t d a b) s = execIaddV t d a b s := rfl
@[simp] theorem exec_isubV t d a b (s : State) : exec (.isubV t d a b) s = execIsubV t d a b s := rfl
@[simp] theorem exec_imulV t d a b (s : State) : exec (.imulV t d a b) s = execImulV t d a b s := rfl
@[simp] theorem exec_iminV t d a b (s : State) : exec (.iminV t d a b) s = execIminV t d a b s := rfl
@[simp] theorem exec_imaxV t d a b (s : State) : exec (.imaxV t d a b) s = execImaxV t d a b s := rfl
@[simp] theorem exec_iabsV t d a (s : State) : exec (.iabsV t d a) s = execIabsV t d a s := rfl
@[simp] theorem exec_and d a b (s : State) : exec (.and d a b) s = execAnd d a b s := rfl
@[simp] theorem exec_or d a b (s : State) : exec (.or d a b) s = execOr d a b s := rfl
@[simp] theorem exec_xor d a b (s : State) : exec (.xor d a b) s = execXor d a b s := rfl
@[simp] theorem exec_not d a (s : State) : exec (.not d a) s = execNot d a s := rfl
@[simp] theorem exec_andn d a b (s : State) : exec (.andn d a b) s = execAndn d a b s := rfl
@[simp] theorem exec_shl d a b (s : State) : exec (.shl d a b) s = execShl d a b s := rfl
@[simp] theorem exec_shr d a b (s : State) : exec (.shr d a b) s = execShr d a b s := rfl
@[simp] theorem exec_sar d a b (s : State) : exec (.sar d a b) s = execSar d a b s := rfl
@[simp] theorem exec_bfeI d a b (s : State) : exec (.bfeI d a b) s = execBfeI d a b s := rfl
@[simp] theorem exec_bfeN d a b (s : State) : exec (.bfeN d a b) s = execBfeN d a b s := rfl
@[simp] theorem exec_bfi d a b (s : State) : exec (.bfi d a b) s = execBfi d a b s := rfl
@[simp] theorem exec_popc d a (s : State) : exec (.popc d a) s = execPopc d a s := rfl
@[simp] theorem exec_clz d a (s : State) : exec (.clz d a) s = execClz d a s := rfl
@[simp] theorem exec_brev d a (s : State) : exec (.brev d a) s = execBrev d a s := rfl
@[simp] theorem exec_bperm d a b (s : State) : exec (.bperm d a b) s = execBperm d a b s := rfl
@[simp] theorem exec_fcmp c p a b (s : State) : exec (.fcmp c p a b) s = execFcmp c p a b s := rfl
@[simp] theorem exec_icmpI32 c p a b (s : State) : exec (.icmpI32 c p a b) s = execIcmpI32 c p a b s := rfl
@[simp] theorem exec_icmpN32 c p a b (s : State) : exec (.icmpN32 c p a b) s = execIcmpN32 c p a b s := rfl
@[simp] theorem exec_tabs t p a (s : State) : exec (.tabs t p a) s = execTabs t p a s := rfl
@[simp] theorem exec_cvtF32F16 d a (s : State) : exec (.cvtF32F16 d a) s = execCvtF32F16 d a s := rfl
@[simp] theorem exec_cvtF32Bf16 d a (s : State) : exec (.cvtF32Bf16 d a) s = execCvtF32Bf16 d a s := rfl
@[simp] theorem exec_cvtF32E4m3 d a (s : State) : exec (.cvtF32E4m3 d a) s = execCvtF32E4m3 d a s := rfl
@[simp] theorem exec_cvtF32E5m2 d a (s : State) : exec (.cvtF32E5m2 d a) s = execCvtF32E5m2 d a s := rfl
@[simp] theorem exec_cvtF16F32 d a (s : State) : exec (.cvtF16F32 d a) s = execCvtF16F32 d a s := rfl
@[simp] theorem exec_cvtBf16F32 d a (s : State) : exec (.cvtBf16F32 d a) s = execCvtBf16F32 d a s := rfl
@[simp] theorem exec_cvtE4m3F32 d a (s : State) : exec (.cvtE4m3F32 d a) s = execCvtE4m3F32 d a s := rfl
@[simp] theorem exec_cvtE5m2F32 d a (s : State) : exec (.cvtE5m2F32 d a) s = execCvtE5m2F32 d a s := rfl
@[simp] theorem exec_cvtF64F32 d a (s : State) : exec (.cvtF64F32 d a) s = execCvtF64F32 d a s := rfl
@[simp] theorem exec_cvtF32F64 d a (s : State) : exec (.cvtF32F64 d a) s = execCvtF32F64 d a s := rfl
@[simp] theorem exec_cvtF32I32 d a (s : State) : exec (.cvtF32I32 d a) s = execCvtF32I32 d a s := rfl
@[simp] theorem exec_cvtF32N32 d a (s : State) : exec (.cvtF32N32 d a) s = execCvtF32N32 d a s := rfl
@[simp] theorem exec_cvtI32F32 d a (s : State) : exec (.cvtI32F32 d a) s = execCvtI32F32 d a s := rfl
@[simp] theorem exec_cvtN32F32 d a (s : State) : exec (.cvtN32F32 d a) s = execCvtN32F32 d a s := rfl
@[simp] theorem exec_cvtI32I8 d a (s : State) : exec (.cvtI32I8 d a) s = execCvtI32I8 d a s := rfl
@[simp] theorem exec_cvtI32N8 d a (s : State) : exec (.cvtI32N8 d a) s = execCvtI32N8 d a s := rfl
@[simp] theorem exec_cvtI8I32 d a (s : State) : exec (.cvtI8I32 d a) s = execCvtI8I32 d a s := rfl
@[simp] theorem exec_cvtN8I32 d a (s : State) : exec (.cvtN8I32 d a) s = execCvtN8I32 d a s := rfl
@[simp] theorem exec_cvtpk d a b (s : State) : exec (.cvtpk d a b) s = execCvtpk d a b s := rfl
@[simp] theorem exec_cvtup t e d a (s : State) : exec (.cvtup t e d a) s = execCvtup t e d a s := rfl
@[simp] theorem exec_tunpk d a k (s : State) : exec (.tunpk d a k) s = execTunpk d a k s := rfl
@[simp] theorem exec_frcp d a (s : State) : exec (.frcp d a) s = execFrcp d a s := rfl
@[simp] theorem exec_frsq d a (s : State) : exec (.frsq d a) s = execFrsq d a s := rfl
@[simp] theorem exec_fexp2 d a (s : State) : exec (.fexp2 d a) s = execFexp2 d a s := rfl
@[simp] theorem exec_flog2 d a (s : State) : exec (.flog2 d a) s = execFlog2 d a s := rfl
@[simp] theorem exec_fsin d a (s : State) : exec (.fsin d a) s = execFsin d a s := rfl
@[simp] theorem exec_fcos d a (s : State) : exec (.fcos d a) s = execFcos d a s := rfl
@[simp] theorem exec_ftanh d a (s : State) : exec (.ftanh d a) s = execFtanh d a s := rfl
@[simp] theorem exec_fsigm d a (s : State) : exec (.fsigm d a) s = execFsigm d a s := rfl
@[simp] theorem exec_shfl d a b (s : State) : exec (.shfl d a b) s = execShfl d a b s := rfl
@[simp] theorem exec_shflup d a b (s : State) : exec (.shflup d a b) s = execShflup d a b s := rfl
@[simp] theorem exec_shfldn d a b (s : State) : exec (.shfldn d a b) s = execShfldn d a b s := rfl
@[simp] theorem exec_shflx d a b (s : State) : exec (.shflx d a b) s = execShflx d a b s := rfl
@[simp] theorem exec_bcast d a (s : State) : exec (.bcast d a) s = execBcast d a s := rfl
@[simp] theorem exec_ballot d p (s : State) : exec (.ballot d p) s = execBallot d p s := rfl
@[simp] theorem exec_vany d p (s : State) : exec (.vany d p) s = execVany d p s := rfl
@[simp] theorem exec_vall d p (s : State) : exec (.vall d p) s = execVall d p s := rfl
@[simp] theorem exec_wredAddF32 d a (s : State) : exec (.wredAddF32 d a) s = execWredAddF32 d a s := rfl
@[simp] theorem exec_wredMaxF32 d a (s : State) : exec (.wredMaxF32 d a) s = execWredMaxF32 d a s := rfl
@[simp] theorem exec_wredAddI32 d a (s : State) : exec (.wredAddI32 d a) s = execWredAddI32 d a s := rfl
@[simp] theorem exec_wscanAddF32 d a (s : State) : exec (.wscanAddF32 d a) s = execWscanAddF32 d a s := rfl
@[simp] theorem exec_wscanAddI32 d a (s : State) : exec (.wscanAddI32 d a) s = execWscanAddI32 d a s := rfl
@[simp] theorem exec_lanes d (s : State) : exec (.lanes d) s = execLanes d s := rfl
@[simp] theorem exec_mov d a (s : State) : exec (.mov d a) s = execMov d a s := rfl
@[simp] theorem exec_sel d p a b (s : State) : exec (.sel d p a b) s = execSel d p a b s := rfl
@[simp] theorem exec_toabs t d a p (s : State) : exec (.toabs t d a p) s = execToabs t d a p s := rfl
@[simp] theorem exec_defabs t d a b (s : State) : exec (.defabs t d a b) s = execDefabs t d a b s := rfl
@[simp] theorem exec_plog o d a b (s : State) : exec (.plog o d a b) s = execPlog o d a b s := rfl
@[simp] theorem exec_gtag d a (s : State) : exec (.gtag d a) s = execGtag d a s := rfl
@[simp] theorem exec_mkg d a (s : State) : exec (.mkg d a) s = execMkg d a s := rfl
@[simp] theorem exec_iaddi d a iv (s : State) : exec (.iaddi d a iv) s = execIaddi d a iv s := rfl
@[simp] theorem exec_andi d a iv (s : State) : exec (.andi d a iv) s = execAndi d a iv s := rfl
@[simp] theorem exec_ori d a iv (s : State) : exec (.ori d a iv) s = execOri d a iv s := rfl
@[simp] theorem exec_xori d a iv (s : State) : exec (.xori d a iv) s = execXori d a iv s := rfl
@[simp] theorem exec_shli d a n (s : State) : exec (.shli d a n) s = execShli d a n s := rfl
@[simp] theorem exec_shri d a n (s : State) : exec (.shri d a n) s = execShri d a n s := rfl
@[simp] theorem exec_sari d a n (s : State) : exec (.sari d a n) s = execSari d a n s := rfl
@[simp] theorem exec_movi d iv (s : State) : exec (.movi d iv) s = execMovi d iv s := rfl
@[simp] theorem exec_sadd d a b (s : State) : exec (.sadd d a b) s = execSadd d a b s := rfl
@[simp] theorem exec_ssub d a b (s : State) : exec (.ssub d a b) s = execSsub d a b s := rfl
@[simp] theorem exec_smul d a b (s : State) : exec (.smul d a b) s = execSmul d a b s := rfl
@[simp] theorem exec_smulhI d a b (s : State) : exec (.smulhI d a b) s = execSmulhI d a b s := rfl
@[simp] theorem exec_smulhN d a b (s : State) : exec (.smulhN d a b) s = execSmulhN d a b s := rfl
@[simp] theorem exec_sminI d a b (s : State) : exec (.sminI d a b) s = execSminI d a b s := rfl
@[simp] theorem exec_smaxI d a b (s : State) : exec (.smaxI d a b) s = execSmaxI d a b s := rfl
@[simp] theorem exec_sminN d a b (s : State) : exec (.sminN d a b) s = execSminN d a b s := rfl
@[simp] theorem exec_smaxN d a b (s : State) : exec (.smaxN d a b) s = execSmaxN d a b s := rfl
@[simp] theorem exec_sand d a b (s : State) : exec (.sand d a b) s = execSand d a b s := rfl
@[simp] theorem exec_sor d a b (s : State) : exec (.sor d a b) s = execSor d a b s := rfl
@[simp] theorem exec_sxor d a b (s : State) : exec (.sxor d a b) s = execSxor d a b s := rfl
@[simp] theorem exec_sshl d a b (s : State) : exec (.sshl d a b) s = execSshl d a b s := rfl
@[simp] theorem exec_sshr d a b (s : State) : exec (.sshr d a b) s = execSshr d a b s := rfl
@[simp] theorem exec_ssar d a b (s : State) : exec (.ssar d a b) s = execSsar d a b s := rfl
@[simp] theorem exec_sbfeI d a b (s : State) : exec (.sbfeI d a b) s = execSbfeI d a b s := rfl
@[simp] theorem exec_sbfeN d a b (s : State) : exec (.sbfeN d a b) s = execSbfeN d a b s := rfl
@[simp] theorem exec_sbfi d a b (s : State) : exec (.sbfi d a b) s = execSbfi d a b s := rfl
@[simp] theorem exec_spopc d a (s : State) : exec (.spopc d a) s = execSpopc d a s := rfl
@[simp] theorem exec_sclz d a (s : State) : exec (.sclz d a) s = execSclz d a s := rfl
@[simp] theorem exec_sadd64 d a b (s : State) : exec (.sadd64 d a b) s = execSadd64 d a b s := rfl
@[simp] theorem exec_ssub64 d a b (s : State) : exec (.ssub64 d a b) s = execSsub64 d a b s := rfl
@[simp] theorem exec_sshl64 d a b (s : State) : exec (.sshl64 d a b) s = execSshl64 d a b s := rfl
@[simp] theorem exec_scmpEq d a b (s : State) : exec (.scmpEq d a b) s = execScmpEq d a b s := rfl
@[simp] theorem exec_scmpLtI d a b (s : State) : exec (.scmpLtI d a b) s = execScmpLtI d a b s := rfl
@[simp] theorem exec_scmpLtN d a b (s : State) : exec (.scmpLtN d a b) s = execScmpLtN d a b s := rfl
@[simp] theorem exec_saddi d a iv (s : State) : exec (.saddi d a iv) s = execSaddi d a iv s := rfl
@[simp] theorem exec_sandi d a iv (s : State) : exec (.sandi d a iv) s = execSandi d a iv s := rfl
@[simp] theorem exec_sori d a iv (s : State) : exec (.sori d a iv) s = execSori d a iv s := rfl
@[simp] theorem exec_sxori d a iv (s : State) : exec (.sxori d a iv) s = execSxori d a iv s := rfl
@[simp] theorem exec_sshli d a n (s : State) : exec (.sshli d a n) s = execSshli d a n s := rfl
@[simp] theorem exec_sshri d a n (s : State) : exec (.sshri d a n) s = execSshri d a n s := rfl
@[simp] theorem exec_ssari d a n (s : State) : exec (.ssari d a n) s = execSsari d a n s := rfl
@[simp] theorem exec_scmpiLt d a iv (s : State) : exec (.scmpiLt d a iv) s = execScmpiLt d a iv s := rfl
@[simp] theorem exec_smovi d iv (s : State) : exec (.smovi d iv) s = execSmovi d iv s := rfl
@[simp] theorem exec_srd d n (s : State) : exec (.srd d n) s = execSrd d n s := rfl
@[simp] theorem exec_swr n sv (s : State) : exec (.swr n sv) s = execSwr n sv s := rfl
@[simp] theorem exec_vtos d a l (s : State) : exec (.vtos d a l) s = execVtos d a l s := rfl
@[simp] theorem exec_stov d sv (s : State) : exec (.stov d sv) s = execStov d sv s := rfl
@[simp] theorem exec_smovw d w (s : State) : exec (.smovw d w) s = execSmovw d w s := rfl
@[simp] theorem exec_bdset d a c (s : State) : exec (.bdset d a c) s = execBdset d a c s := rfl
@[simp] theorem exec_slui d iv (s : State) : exec (.slui d iv) s = execSlui d iv s := rfl
@[simp] theorem exec_bra o (s : State) : exec (.bra o) s = execBra o s := rfl
@[simp] theorem exec_bpt p k o (s : State) : exec (.bpt p k o) s = execBpt p k o s := rfl
@[simp] theorem exec_bpf p k o (s : State) : exec (.bpf p k o) s = execBpf p k o s := rfl
@[simp] theorem exec_bany p o (s : State) : exec (.bany p o) s = execBany p o s := rfl
@[simp] theorem exec_ball p o (s : State) : exec (.ball p o) s = execBall p o s := rfl
@[simp] theorem exec_bnz sv o (s : State) : exec (.bnz sv o) s = execBnz sv o s := rfl
@[simp] theorem exec_bz sv o (s : State) : exec (.bz sv o) s = execBz sv o s := rfl
@[simp] theorem exec_jmp w (s : State) : exec (.jmp w) s = execJmp w s := rfl
@[simp] theorem exec_loop v sv n (s : State) : exec (.loop v sv n) s = execLoop v sv n s := rfl
@[simp] theorem exec_loopi v c n (s : State) : exec (.loopi v c n) s = execLoopi v c n s := rfl
@[simp] theorem exec_lbrk v (s : State) : exec (.lbrk v) s = execLbrk v s := rfl
@[simp] theorem exec_nop (s : State) : exec (.nop) s = execNop s := rfl
@[simp] theorem exec_rcv k (s : State) : exec (.rcv k) s = execRcv k s := rfl
@[simp] theorem exec_call w (s : State) : exec (.call w) s = execCall w s := rfl
@[simp] theorem exec_callr x (s : State) : exec (.callr x) s = execCallr x s := rfl
@[simp] theorem exec_ret (s : State) : exec (.ret) s = execRet s := rfl
@[simp] theorem exec_jr x (s : State) : exec (.jr x) s = execJr x s := rfl
@[simp] theorem exec_yield d l (s : State) : exec (.yield d l) s = execYield d l s := rfl
@[simp] theorem exec_yieldc l sv c t d n o (s : State) : exec (.yieldc l sv c t d n o) s = execYieldc l sv c t d n o s := rfl
@[simp] theorem exec_exit (s : State) : exec (.exit) s = execExit s := rfl
@[simp] theorem exec_trap iv (s : State) : exec (.trap iv) s = execTrap iv s := rfl
@[simp] theorem exec_wait l sv c t (s : State) : exec (.wait l sv c t) s = execWait l sv c t s := rfl
@[simp] theorem exec_barinit p o n b (s : State) : exec (.barinit p o n b) s = execBarinit p o n b s := rfl
@[simp] theorem exec_barexp p o b (s : State) : exec (.barexp p o b) s = execBarexp p o b s := rfl
@[simp] theorem exec_bararr p t o (s : State) : exec (.bararr p t o) s = execBararr p t o s := rfl
@[simp] theorem exec_barwait p o t (s : State) : exec (.barwait p o t) s = execBarwait p o t s := rfl
@[simp] theorem exec_bartry p r o t (s : State) : exec (.bartry p r o t) s = execBartry p r o t s := rfl
@[simp] theorem exec_ringinit p o c d (s : State) : exec (.ringinit p o c d) s = execRinginit p o c d s := rfl
@[simp] theorem exec_awaitf p iv o j (s : State) : exec (.awaitf p iv o j) s = execAwaitf p iv o j s := rfl
@[simp] theorem exec_rels p o (s : State) : exec (.rels p o) s = execRels p o s := rfl
@[simp] theorem exec_wgbar (s : State) : exec (.wgbar) s = execWgbar s := rfl
@[simp] theorem exec_ldg z o p d b v off (s : State) : exec (.ldg z o p d b v off) s = execLdg z o p d b v off s := rfl
@[simp] theorem exec_stg z o p b v off d (s : State) : exec (.stg z o p b v off d) s = execStg z o p b v off d s := rfl
@[simp] theorem exec_ldsp z q d b v off (s : State) : exec (.ldsp z q d b v off) s = execLdsp z q d b v off s := rfl
@[simp] theorem exec_ldcl z q d b v off (s : State) : exec (.ldcl z q d b v off) s = execLdcl z q d b v off s := rfl
@[simp] theorem exec_ldst z q d b v off (s : State) : exec (.ldst z q d b v off) s = execLdst z q d b v off s := rfl
@[simp] theorem exec_ldlp z q d b v off (s : State) : exec (.ldlp z q d b v off) s = execLdlp z q d b v off s := rfl
@[simp] theorem exec_stsp z q b v off d (s : State) : exec (.stsp z q b v off d) s = execStsp z q b v off d s := rfl
@[simp] theorem exec_stcl z q b v off d (s : State) : exec (.stcl z q b v off d) s = execStcl z q b v off d s := rfl
@[simp] theorem exec_stst z q b v off d (s : State) : exec (.stst z q b v off d) s = execStst z q b v off d s := rfl
@[simp] theorem exec_stlp z q b v off d (s : State) : exec (.stlp z q b v off d) s = execStlp z q b v off d s := rfl
@[simp] theorem exec_ldb z o l d b v off (s : State) : exec (.ldb z o l d b v off) s = execLdb z o l d b v off s := rfl
@[simp] theorem exec_stb z o l b v off d (s : State) : exec (.stb z o l b v off d) s = execStb z o l b v off d s := rfl
@[simp] theorem exec_aadd o t d b v (s : State) : exec (.aadd o t d b v) s = execAadd o t d b v s := rfl
@[simp] theorem exec_amin o t d b v (s : State) : exec (.amin o t d b v) s = execAmin o t d b v s := rfl
@[simp] theorem exec_amax o t d b v (s : State) : exec (.amax o t d b v) s = execAmax o t d b v s := rfl
@[simp] theorem exec_aand o t d b v (s : State) : exec (.aand o t d b v) s = execAand o t d b v s := rfl
@[simp] theorem exec_aor o t d b v (s : State) : exec (.aor o t d b v) s = execAor o t d b v s := rfl
@[simp] theorem exec_axor o t d b v (s : State) : exec (.axor o t d b v) s = execAxor o t d b v s := rfl
@[simp] theorem exec_axch o t d b v (s : State) : exec (.axch o t d b v) s = execAxch o t d b v s := rfl
@[simp] theorem exec_acas o t d b v (s : State) : exec (.acas o t d b v) s = execAcas o t d b v s := rfl
@[simp] theorem exec_aacc o d b v (s : State) : exec (.aacc o d b v) s = execAacc o d b v s := rfl
@[simp] theorem exec_ainc o n d b v (s : State) : exec (.ainc o n d b v) s = execAinc o n d b v s := rfl
@[simp] theorem exec_aaddSpace o sv t d v (s : State) : exec (.aaddSpace o sv t d v) s = execAaddSpace o sv t d v s := rfl
@[simp] theorem exec_aminSpace o sv t d v (s : State) : exec (.aminSpace o sv t d v) s = execAminSpace o sv t d v s := rfl
@[simp] theorem exec_amaxSpace o sv t d v (s : State) : exec (.amaxSpace o sv t d v) s = execAmaxSpace o sv t d v s := rfl
@[simp] theorem exec_aandSpace o sv t d v (s : State) : exec (.aandSpace o sv t d v) s = execAandSpace o sv t d v s := rfl
@[simp] theorem exec_aorSpace o sv t d v (s : State) : exec (.aorSpace o sv t d v) s = execAorSpace o sv t d v s := rfl
@[simp] theorem exec_axorSpace o sv t d v (s : State) : exec (.axorSpace o sv t d v) s = execAxorSpace o sv t d v s := rfl
@[simp] theorem exec_axchSpace o sv t d v (s : State) : exec (.axchSpace o sv t d v) s = execAxchSpace o sv t d v s := rfl
@[simp] theorem exec_acasSpace o sv t d v (s : State) : exec (.acasSpace o sv t d v) s = execAcasSpace o sv t d v s := rfl
@[simp] theorem exec_aaccSpace o sv d v (s : State) : exec (.aaccSpace o sv d v) s = execAaccSpace o sv d v s := rfl
@[simp] theorem exec_aincSpace o sv n d v (s : State) : exec (.aincSpace o sv n d v) s = execAincSpace o sv n d v s := rfl
@[simp] theorem exec_fence k sv (s : State) : exec (.fence k sv) s = execFence k sv s := rfl
@[simp] theorem exec_cprf iv a l (s : State) : exec (.cprf iv a l) s = execCprf iv a l s := rfl
@[simp] theorem exec_cflush a d (s : State) : exec (.cflush a d) s = execCflush a d s := rfl
@[simp] theorem exec_sld d a iv (s : State) : exec (.sld d a iv) s = execSld d a iv s := rfl
@[simp] theorem exec_sst a iv d (s : State) : exec (.sst a iv d) s = execSst a iv d s := rfl
@[simp] theorem exec_cpyG2s dst src len sl obj idx rows stride mc ring fill (s : State) : exec (.cpyG2s dst src len sl obj idx rows stride mc ring fill) s = execCpyG2s dst src len sl obj idx rows stride mc ring fill s := rfl
@[simp] theorem exec_cpyG2c dst src len sl obj idx rows stride ring fill (s : State) : exec (.cpyG2c dst src len sl obj idx rows stride ring fill) s = execCpyG2c dst src len sl obj idx rows stride ring fill s := rfl
@[simp] theorem exec_cpyG2t dst src len sl obj idx rows stride fill (s : State) : exec (.cpyG2t dst src len sl obj idx rows stride fill) s = execCpyG2t dst src len sl obj idx rows stride fill s := rfl
@[simp] theorem exec_cpyS2g dst src len sl obj idx rows stride (s : State) : exec (.cpyS2g dst src len sl obj idx rows stride) s = execCpyS2g dst src len sl obj idx rows stride s := rfl
@[simp] theorem exec_cpyC2s dst src len sl obj idx rows stride mc ring (s : State) : exec (.cpyC2s dst src len sl obj idx rows stride mc ring) s = execCpyC2s dst src len sl obj idx rows stride mc ring s := rfl
@[simp] theorem exec_cpyS2c dst src len sl obj idx rows stride ring (s : State) : exec (.cpyS2c dst src len sl obj idx rows stride ring) s = execCpyS2c dst src len sl obj idx rows stride ring s := rfl
@[simp] theorem exec_cpym dst src len sl obj idx rows stride fill (s : State) : exec (.cpym dst src len sl obj idx rows stride fill) s = execCpym dst src len sl obj idx rows stride fill s := rfl
@[simp] theorem exec_cpyx dst src len sl obj idx rows stride ring (s : State) : exec (.cpyx dst src len sl obj idx rows stride ring) s = execCpyx dst src len sl obj idx rows stride ring s := rfl
@[simp] theorem exec_cpyg dst src len sl obj idx rows stride ring fill (s : State) : exec (.cpyg dst src len sl obj idx rows stride ring fill) s = execCpyg dst src len sl obj idx rows stride ring fill s := rfl
@[simp] theorem exec_cred dst src len sl obj idx rows stride (s : State) : exec (.cred dst src len sl obj idx rows stride) s = execCred dst src len sl obj idx rows stride s := rfl
@[simp] theorem exec_cpycan n cl obj (s : State) : exec (.cpycan n cl obj) s = execCpycan n cl obj s := rfl
@[simp] theorem exec_mres d w (s : State) : exec (.mres d w) s = execMres d w s := rfl
@[simp] theorem exec_mfree d (s : State) : exec (.mfree d) s = execMfree d s := rfl
@[simp] theorem exec_mld q d sv p (s : State) : exec (.mld q d sv p) s = execMld q d sv p s := rfl
@[simp] theorem exec_mscl d sv o (s : State) : exec (.mscl d sv o) s = execMscl d sv o s := rfl
@[simp] theorem exec_mgang b iv (s : State) : exec (.mgang b iv) s = execMgang b iv s := rfl
@[simp] theorem exec_mshape m (s : State) : exec (.mshape m) s = execMshape m s := rfl
@[simp] theorem exec_mls r sv c o (s : State) : exec (.mls r sv c o) s = execMls r sv c o s := rfl
@[simp] theorem exec_mswap (s : State) : exec (.mswap) s = execMswap s := rfl
@[simp] theorem exec_mma t a q p g z sv w (s : State) : exec (.mma t a q p g z sv w) s = execMma t a q p g z sv w s := rfl
@[simp] theorem exec_mdrain t x o n w (s : State) : exec (.mdrain t x o n w) s = execMdrain t x o n w s := rfl
@[simp] theorem exec_mtab t (s : State) : exec (.mtab t) s = execMtab t s := rfl
@[simp] theorem exec_mzero t (s : State) : exec (.mzero t) s = execMzero t s := rfl
@[simp] theorem exec_mfill t r (s : State) : exec (.mfill t r) s = execMfill t r s := rfl
@[simp] theorem exec_mredAdd t d a (s : State) : exec (.mredAdd t d a) s = execMredAdd t d a s := rfl
@[simp] theorem exec_mscanAdd t d a (s : State) : exec (.mscanAdd t d a) s = execMscanAdd t d a s := rfl
@[simp] theorem exec_launch d a q (s : State) : exec (.launch d a q) s = execLaunch d a q s := rfl
@[simp] theorem exec_commit (s : State) : exec (.commit) s = execCommit s := rfl
@[simp] theorem exec_spgrow d a (s : State) : exec (.spgrow d a) s = execSpgrow d a s := rfl
@[simp] theorem exec_lpgrow d a (s : State) : exec (.lpgrow d a) s = execLpgrow d a s := rfl
@[simp] theorem exec_qwait d (s : State) : exec (.qwait d) s = execQwait d s := rfl
@[simp] theorem exec_allow a (s : State) : exec (.allow a) s = execAllow a s := rfl
@[simp] theorem exec_tret (s : State) : exec (.tret) s = execTret s := rfl
@[simp] theorem exec_pcsrr d a (s : State) : exec (.pcsrr d a) s = execPcsrr d a s := rfl
@[simp] theorem exec_pcsrw a b (s : State) : exec (.pcsrw a b) s = execPcsrw a b s := rfl
@[simp] theorem exec_tinv a b (s : State) : exec (.tinv a b) s = execTinv a b s := rfl
@[simp] theorem exec_rqrel a b (s : State) : exec (.rqrel a b) s = execRqrel a b s := rfl
@[simp] theorem exec_hlt d (s : State) : exec (.hlt d) s = execHlt d s := rfl
@[simp] theorem exec_brk iv (s : State) : exec (.brk iv) s = execBrk iv s := rfl
@[simp] theorem exec_tmark iv (s : State) : exec (.tmark iv) s = execTmark iv s := rfl
@[simp] theorem exec_clauseIssue e (s : State) : exec (.clauseIssue e) s = execClauseIssue e s := rfl
@[simp] theorem exec_issueWaitLimit e (s : State) : exec (.issueWaitLimit e) s = execIssueWaitLimit e s := rfl
@[simp] theorem exec_ydl e (s : State) : exec (.ydl e) s = execYdl e s := rfl
@[simp] theorem exec_deferralSwitch e (s : State) : exec (.deferralSwitch e) s = execDeferralSwitch e s := rfl
@[simp] theorem exec_loadComplete op (s : State) : exec (.loadComplete op) s = execLoadComplete op s := rfl
@[simp] theorem exec_storeComplete op (s : State) : exec (.storeComplete op) s = execStoreComplete op s := rfl
@[simp] theorem exec_atomicPerform op (s : State) : exec (.atomicPerform op) s = execAtomicPerform op s := rfl
@[simp] theorem exec_replayStallResume e (s : State) : exec (.replayStallResume e) s = execReplayStallResume e s := rfl
@[simp] theorem exec_parkedAccessReplay r (s : State) : exec (.parkedAccessReplay r) s = execParkedAccessReplay r s := rfl
@[simp] theorem exec_heldSliceIssue e (s : State) : exec (.heldSliceIssue e) s = execHeldSliceIssue e s := rfl
@[simp] theorem exec_copyComplete c (s : State) : exec (.copyComplete c) s = execCopyComplete c s := rfl
@[simp] theorem exec_copyFailure c iv (s : State) : exec (.copyFailure c iv) s = execCopyFailure c iv s := rfl
@[simp] theorem exec_credComplete g (s : State) : exec (.credComplete g) s = execCredComplete g s := rfl
@[simp] theorem exec_engineDeferredAccept e (s : State) : exec (.engineDeferredAccept e) s = execEngineDeferredAccept e s := rfl
@[simp] theorem exec_arbiterGrant g p (s : State) : exec (.arbiterGrant g p) s = execArbiterGrant g p s := rfl
@[simp] theorem exec_arbiterAgeLimit g k (s : State) : exec (.arbiterAgeLimit g k) s = execArbiterAgeLimit g k s := rfl
@[simp] theorem exec_mswapBandSwap g k b (s : State) : exec (.mswapBandSwap g k b) s = execMswapBandSwap g k b s := rfl
@[simp] theorem exec_engineOpComplete g k (s : State) : exec (.engineOpComplete g k) s = execEngineOpComplete g k s := rfl
@[simp] theorem exec_mldFailure g k (s : State) : exec (.mldFailure g k) s = execMldFailure g k s := rfl
@[simp] theorem exec_mldStrictFmtf g k (s : State) : exec (.mldStrictFmtf g k) s = execMldStrictFmtf g k s := rfl
@[simp] theorem exec_bandRailWake g b (s : State) : exec (.bandRailWake g b) s = execBandRailWake g b s := rfl
@[simp] theorem exec_bandRailGate g b (s : State) : exec (.bandRailGate g b) s = execBandRailGate g b s := rfl
@[simp] theorem exec_queueRecordConsume c q (s : State) : exec (.queueRecordConsume c q) s = execQueueRecordConsume c q s := rfl
@[simp] theorem exec_contextChoice st (s : State) : exec (.contextChoice st) s = execContextChoice st s := rfl
@[simp] theorem exec_placement c k (s : State) : exec (.placement c k) s = execPlacement c k s := rfl
@[simp] theorem exec_teamSwapOut t (s : State) : exec (.teamSwapOut t) s = execTeamSwapOut t s := rfl
@[simp] theorem exec_workgroupRetire w (s : State) : exec (.workgroupRetire w) s = execWorkgroupRetire w s := rfl
@[simp] theorem exec_hang t (s : State) : exec (.hang t) s = execHang t s := rfl
@[simp] theorem exec_sampleTick x (s : State) : exec (.sampleTick x) s = execSampleTick x s := rfl
@[simp] theorem exec_emergencyRelease (s : State) : exec (.emergencyRelease) s = execEmergencyRelease s := rfl
@[simp] theorem exec_noticeReceive l n (s : State) : exec (.noticeReceive l n) s = execNoticeReceive l n s := rfl
@[simp] theorem exec_migrationStart w y (s : State) : exec (.migrationStart w y) s = execMigrationStart w y s := rfl
@[simp] theorem exec_migrationArrival w (s : State) : exec (.migrationArrival w) s = execMigrationArrival w s := rfl
@[simp] theorem exec_smLoopPass ts gs (s : State) : exec (.smLoopPass ts gs) s = execSmLoopPass ts gs s := rfl
@[simp] theorem exec_smhbTimeout (s : State) : exec (.smhbTimeout) s = execSmhbTimeout s := rfl
@[simp] theorem exec_islandTarget x (s : State) : exec (.islandTarget x) s = execIslandTarget x s := rfl
@[simp] theorem exec_voltageRampDone iv (s : State) : exec (.voltageRampDone iv) s = execVoltageRampDone iv s := rfl
@[simp] theorem exec_settleDone iv (s : State) : exec (.settleDone iv) s = execSettleDone iv s := rfl
@[simp] theorem exec_frequencySwitch iv (s : State) : exec (.frequencySwitch iv) s = execFrequencySwitch iv s := rfl
@[simp] theorem exec_acq p (s : State) : exec (.acq p) s = execAcq p s := rfl
@[simp] theorem exec_rel p (s : State) : exec (.rel p) s = execRel p s := rfl
@[simp] theorem exec_dzHb p (s : State) : exec (.dzHb p) s = execDzHb p s := rfl
@[simp] theorem exec_leaseLapse (s : State) : exec (.leaseLapse) s = execLeaseLapse s := rfl
@[simp] theorem exec_privRegisterWrite p a v (s : State) : exec (.privRegisterWrite p a v) s = execPrivRegisterWrite p a v s := rfl
@[simp] theorem exec_create p c (s : State) : exec (.create p c) s = execCreate p c s := rfl
@[simp] theorem exec_suspend p c (s : State) : exec (.suspend p c) s = execSuspend p c s := rfl
@[simp] theorem exec_resume p c (s : State) : exec (.resume p c) s = execResume p c s := rfl
@[simp] theorem exec_tear p c (s : State) : exec (.tear p c) s = execTear p c s := rfl
@[simp] theorem exec_preemptionTimeout c (s : State) : exec (.preemptionTimeout c) s = execPreemptionTimeout c s := rfl
@[simp] theorem exec_workgroupSave w (s : State) : exec (.workgroupSave w) s = execWorkgroupSave w s := rfl
@[simp] theorem exec_contextSaveComplete c (s : State) : exec (.contextSaveComplete c) s = execContextSaveComplete c s := rfl
@[simp] theorem exec_tearComplete c (s : State) : exec (.tearComplete c) s = execTearComplete c s := rfl
@[simp] theorem exec_hostRqrel p c v (s : State) : exec (.hostRqrel p c v) s = execHostRqrel p c v s := rfl
@[simp] theorem exec_tagCountWrite p c v (s : State) : exec (.tagCountWrite p c v) s = execTagCountWrite p c v s := rfl
@[simp] theorem exec_granuleTag c (s : State) : exec (.granuleTag c) s = execGranuleTag c s := rfl
@[simp] theorem exec_attestationRequest p v (s : State) : exec (.attestationRequest p v) s = execAttestationRequest p v s := rfl
@[simp] theorem exec_attestationComplete (s : State) : exec (.attestationComplete) s = execAttestationComplete s := rfl
@[simp] theorem exec_stop p q v (s : State) : exec (.stop p q v) s = execStop p q v s := rfl
@[simp] theorem exec_stopSettled q (s : State) : exec (.stopSettled q) s = execStopSettled q s := rfl
@[simp] theorem exec_debugResume p q (s : State) : exec (.debugResume p q) s = execDebugResume p q s := rfl
@[simp] theorem exec_step p q (s : State) : exec (.step p q) s = execStep p q s := rfl
@[simp] theorem exec_stepall p q (s : State) : exec (.stepall p q) s = execStepall p q s := rfl
@[simp] theorem exec_debugEdit p q v (s : State) : exec (.debugEdit p q v) s = execDebugEdit p q v s := rfl
@[simp] theorem exec_debugRevoke p c v (s : State) : exec (.debugRevoke p c v) s = execDebugRevoke p c v s := rfl
@[simp] theorem exec_traceFrame (s : State) : exec (.traceFrame) s = execTraceFrame s := rfl
@[simp] theorem exec_histogramRequest h n (s : State) : exec (.histogramRequest h n) s = execHistogramRequest h n s := rfl
@[simp] theorem exec_clr p h (s : State) : exec (.clr p h) s = execClr p h s := rfl
@[simp] theorem exec_hostAccess x (s : State) : exec (.hostAccess x) s = execHostAccess x s := rfl
@[simp] theorem exec_credBlock x (s : State) : exec (.credBlock x) s = execCredBlock x s := rfl
@[simp] theorem exec_linkKeying l (s : State) : exec (.linkKeying l) s = execLinkKeying l s := rfl
@[simp] theorem exec_flitAuthFailure l (s : State) : exec (.flitAuthFailure l) s = execFlitAuthFailure l s := rfl
@[simp] theorem exec_patrolScrub x (s : State) : exec (.patrolScrub x) s = execPatrolScrub x s := rfl
@[simp] theorem exec_reset x (s : State) : exec (.reset x) s = execReset x s := rfl
@[simp] theorem exec_descriptorPublish x (s : State) : exec (.descriptorPublish x) s = execDescriptorPublish x s := rfl
@[simp] theorem exec_destinationWrite x (s : State) : exec (.destinationWrite x) s = execDestinationWrite x s := rfl
@[simp] theorem exec_saveBlockTransfer w (s : State) : exec (.saveBlockTransfer w) s = execSaveBlockTransfer w s := rfl
@[simp] theorem exec_linkLevelRetry l (s : State) : exec (.linkLevelRetry l) s = execLinkLevelRetry l s := rfl

end Sys2Proof.Machine
end

