-- ==== Sys2Proof/Laws/Table.lean ====
section
/-! SUPPORT. Laws of the sparse tables: what an entry reads as after a write or a removal, and that the order of keys is kept. -/

namespace Sys2Proof

variable {α : Type}

@[simp] theorem tabGet_nil (i : Nat) : tabGet ([] : Tab α) i = none := rfl

@[simp] theorem tabGet_put_same (t : Tab α) (i : Nat) (y : α) : tabGet (tabPut t i y) i = some y := by
  induction t with
  | nil => simp [tabPut, tabGet]
  | cons p t ih =>
    obtain ⟨k, x⟩ := p
    simp only [tabPut]
    split
    · simp [tabGet]
    · split
      · simp [tabGet]
      · simp_all [tabGet]

theorem tabGet_put_other (t : Tab α) {i j : Nat} (y : α) (h : j ≠ i) : tabGet (tabPut t i y) j = tabGet t j := by
  induction t with
  | nil => simp [tabPut, tabGet, h]
  | cons p t ih =>
    obtain ⟨k, x⟩ := p
    by_cases h1 : i = k
    · subst h1
      simp [tabPut, tabGet, h]
    · by_cases h2 : i < k
      · simp only [tabPut, h1, h2, if_false, if_true, tabGet, h]
        split
        · rw [if_neg (by omega), if_pos (by omega)]
        · rfl
      · simp only [tabPut, h1, h2, if_false, tabGet, ih]

theorem tabGet_put (t : Tab α) (i j : Nat) (y : α) : tabGet (tabPut t i y) j = if j = i then some y else tabGet t j := by
  by_cases h : j = i
  · subst h; simp
  · simp [h, tabGet_put_other t y h]

theorem tabGet_del_other (t : Tab α) {i j : Nat} (h : j ≠ i) (hs : tabSorted 0 t = true) :
    tabGet (tabDel t i) j = tabGet t j := by
  suffices ∀ b, tabSorted b t = true → tabGet (tabDel t i) j = tabGet t j from this 0 hs
  clear hs
  induction t with
  | nil => intros; rfl
  | cons p t ih =>
    obtain ⟨k, x⟩ := p
    intro b hb
    simp only [tabSorted, Bool.and_eq_true, decide_eq_true_eq] at hb
    by_cases h1 : i = k
    · subst h1
      simp only [tabDel, if_true, tabGet, h, if_false]
      split
      · rename_i hj
        clear ih
        induction t generalizing i with
        | nil => rfl
        | cons q t _ =>
          obtain ⟨k', x'⟩ := q
          simp only [tabSorted, Bool.and_eq_true, decide_eq_true_eq] at hb
          simp only [tabGet]
          rw [if_neg (by omega), if_pos (by omega)]
      · rfl
    · by_cases h2 : i < k
      · simp [tabDel, h1, h2]
      · simp only [tabDel, h1, h2, if_false, tabGet, ih _ hb.2]

theorem tabGet_sorted_below (t : Tab α) (b : Nat) (hs : tabSorted b t = true) {i : Nat} (h : i < b) : tabGet t i = none := by
  cases t with
  | nil => rfl
  | cons p t =>
    obtain ⟨k, x⟩ := p
    simp only [tabSorted, Bool.and_eq_true, decide_eq_true_eq] at hs
    simp only [tabGet]
    rw [if_neg (by omega), if_pos (by omega)]

theorem tabGet_del_same (t : Tab α) (i : Nat) (hs : tabSorted 0 t = true) : tabGet (tabDel t i) i = none := by
  suffices ∀ b, tabSorted b t = true → tabGet (tabDel t i) i = none from this 0 hs
  clear hs
  induction t with
  | nil => intros; rfl
  | cons p t ih =>
    obtain ⟨k, x⟩ := p
    intro b hb
    simp only [tabSorted, Bool.and_eq_true, decide_eq_true_eq] at hb
    by_cases h1 : i = k
    · subst h1
      simp only [tabDel, if_true]
      exact tabGet_sorted_below t (i + 1) hb.2 (by omega)
    · by_cases h2 : i < k
      · simp [tabDel, tabGet, h1, h2]
      · simp [tabDel, h1, h2, tabGet, ih _ hb.2]

theorem tabSorted_put (t : Tab α) (i : Nat) (y : α) (b : Nat) (hb : b ≤ i) (hs : tabSorted b t = true) :
    tabSorted b (tabPut t i y) = true := by
  induction t generalizing b with
  | nil => simp [tabPut, tabSorted, hb]
  | cons p t ih =>
    obtain ⟨k, x⟩ := p
    simp only [tabSorted, Bool.and_eq_true, decide_eq_true_eq] at hs
    by_cases h1 : i = k
    · subst h1; simp [tabPut, tabSorted, hs.1, hs.2]
    · by_cases h2 : i < k
      · simp only [tabPut, h1, h2, if_false, if_true, tabSorted, Bool.and_eq_true, decide_eq_true_eq]
        exact ⟨hb, by omega, hs.2⟩
      · simp only [tabPut, h1, h2, if_false, tabSorted, Bool.and_eq_true, decide_eq_true_eq]
        exact ⟨hs.1, ih (k + 1) (by omega) hs.2⟩

theorem tabSorted_weaken (t : Tab α) {b c : Nat} (h : c ≤ b) (hs : tabSorted b t = true) : tabSorted c t = true := by
  cases t with
  | nil => rfl
  | cons p t =>
    obtain ⟨k, x⟩ := p
    simp only [tabSorted, Bool.and_eq_true, decide_eq_true_eq] at hs ⊢
    exact ⟨by omega, hs.2⟩

theorem tabSorted_del (t : Tab α) (i : Nat) (b : Nat) (hs : tabSorted b t = true) : tabSorted b (tabDel t i) = true := by
  induction t generalizing b with
  | nil => rfl
  | cons p t ih =>
    obtain ⟨k, x⟩ := p
    simp only [tabSorted, Bool.and_eq_true, decide_eq_true_eq] at hs
    by_cases h1 : i = k
    · subst h1; simp only [tabDel, if_true]; exact tabSorted_weaken t (by omega) hs.2
    · by_cases h2 : i < k
      · simp [tabDel, h1, h2, tabSorted, hs.1, hs.2]
      · simp [tabDel, h1, h2, tabSorted, hs.1, ih (k + 1) hs.2]

theorem tabSorted_filter (t : Tab α) (f : Nat × α → Bool) (b : Nat) (hs : tabSorted b t = true) :
    tabSorted b (t.filter f) = true := by
  induction t generalizing b with
  | nil => rfl
  | cons p t ih =>
    obtain ⟨k, x⟩ := p
    simp only [tabSorted, Bool.and_eq_true, decide_eq_true_eq] at hs
    simp only [List.filter]
    split
    · simp [tabSorted, hs.1, ih (k + 1) hs.2]
    · exact tabSorted_weaken _ (by omega : b ≤ k + 1) (ih (k + 1) hs.2)

theorem mem_tabPut (t : Tab α) (i : Nat) (y : α) (p : Nat × α) (h : p ∈ tabPut t i y) : p = (i, y) ∨ p ∈ t := by
  induction t with
  | nil => simpa [tabPut] using h
  | cons q t ih =>
    obtain ⟨k, x⟩ := q
    simp only [tabPut] at h
    split at h
    · rcases List.mem_cons.mp h with h | h
      · exact .inl h
      · exact .inr (List.mem_cons_of_mem _ h)
    · split at h
      · rcases List.mem_cons.mp h with h | h
        · exact .inl h
        · exact .inr h
      · rcases List.mem_cons.mp h with h | h
        · exact .inr (by simp [h])
        · exact (ih h).imp id (List.mem_cons_of_mem _)

theorem mem_tabDel (t : Tab α) (i : Nat) (p : Nat × α) (h : p ∈ tabDel t i) : p ∈ t := by
  induction t with
  | nil => simp [tabDel] at h
  | cons q t ih =>
    obtain ⟨k, x⟩ := q
    simp only [tabDel] at h
    split at h
    · exact List.mem_cons_of_mem _ h
    · split at h
      · exact h
      · rcases List.mem_cons.mp h with h | h
        · simp [h]
        · exact List.mem_cons_of_mem _ (ih h)

namespace Machine

theorem tabMod_of_get {t : Tab α} {k : Nat} {x : α} (f : α → α) (h : tabGet t k = some x) : tabMod t k f = tabPut t k (f x) := by
  simp [tabMod, h]

theorem tabGet_mod_same (t : Tab α) (k : Nat) (f : α → α) : tabGet (tabMod t k f) k = (tabGet t k).map f := by
  unfold tabMod
  split <;> simp_all

theorem tabGet_mod_other (t : Tab α) {k j : Nat} (f : α → α) (h : j ≠ k) : tabGet (tabMod t k f) j = tabGet t j := by
  unfold tabMod
  split
  · exact tabGet_put_other t _ h
  · rfl

end Machine
end Sys2Proof
end

