-- ==== Sys2Proof/Laws/Memory.lean ====
section
/-! SUPPORT. Laws of memory: a byte reads as it was last written, every other byte stays, and every operation keeps the canonical
form. -/

namespace Sys2Proof.Machine

theorem wf_sorted {m : List Host.Cell} (h : Memory.wf m = true) : tabSorted 0 m = true := (Bool.and_eq_true_iff.mp h).1

theorem wf_listed {m : List Host.Cell} (h : Memory.wf m = true) (c : Host.Cell) (hc : c ∈ m) : c.2 ≠ Memory.blank := by
  have := List.all_eq_true.mp (Bool.and_eq_true_iff.mp h).2 c hc
  simpa using this

theorem wf_of {m : List Host.Cell} (hs : tabSorted 0 m = true) (hl : ∀ c ∈ m, c.2 ≠ Memory.blank) : Memory.wf m = true := by
  simp only [Memory.wf, hs, Bool.true_and, List.all_eq_true]
  intro c hc
  simpa using hl c hc

@[simp] theorem wf_nil : Memory.wf [] = true := rfl

theorem write_wf {m : List Host.Cell} (h : Memory.wf m = true) (a : Nat) (b : Byte) : Memory.wf (Memory.write m a b) = true := by
  unfold Memory.write
  split
  · exact wf_of (tabSorted_del m a 0 (wf_sorted h)) fun c hc => wf_listed h c (mem_tabDel m a c hc)
  · rename_i hb
    refine wf_of (tabSorted_put m a b 0 (Nat.zero_le _) (wf_sorted h)) fun c hc => ?_
    rcases mem_tabPut m a b c hc with rfl | hc
    · exact hb
    · exact wf_listed h c hc

theorem writeN_wf {m : List Host.Cell} (h : Memory.wf m = true) (a : Nat) (bs : List Byte) :
    Memory.wf (Memory.writeN m a bs) = true := by
  induction bs generalizing m a with
  | nil => exact h
  | cons b bs ih => exact ih (write_wf h a b) (a + 1)

theorem filter_wf {m : List Host.Cell} (h : Memory.wf m = true) (f : Host.Cell → Bool) : Memory.wf (m.filter f) = true :=
  wf_of (tabSorted_filter m f 0 (wf_sorted h)) fun c hc => wf_listed h c (List.mem_filter.mp hc).1

theorem read_write_same {m : List Host.Cell} (h : Memory.wf m = true) (a : Nat) (b : Byte) :
    Memory.read (Memory.write m a b) a = b := by
  unfold Memory.read Memory.write
  split
  · rename_i hb; rw [tabGet_del_same m a (wf_sorted h)]; exact hb.symm
  · simp

theorem read_write_other {m : List Host.Cell} (h : Memory.wf m = true) {a x : Nat} (b : Byte) (hx : x ≠ a) :
    Memory.read (Memory.write m a b) x = Memory.read m x := by
  unfold Memory.read Memory.write
  split
  · rw [tabGet_del_other m hx (wf_sorted h)]
  · rw [tabGet_put_other m b hx]

theorem read_writeN_before {m : List Host.Cell} (h : Memory.wf m = true) (bs : List Byte) (a x : Nat) (hx : x < a) :
    Memory.read (Memory.writeN m a bs) x = Memory.read m x := by
  induction bs generalizing m a with
  | nil => rfl
  | cons b bs ih => rw [Memory.writeN, ih (write_wf h a b) (a + 1) (by omega), read_write_other h b (by omega)]

theorem read_writeN_outside {m : List Host.Cell} (h : Memory.wf m = true) (bs : List Byte) (a x : Nat)
    (hx : x < a ∨ a + bs.length ≤ x) : Memory.read (Memory.writeN m a bs) x = Memory.read m x := by
  induction bs generalizing m a with
  | nil => rfl
  | cons b bs ih =>
    simp only [List.length_cons] at hx
    rw [Memory.writeN, ih (write_wf h a b) (a + 1) (by omega), read_write_other h b (by omega)]

theorem read_writeN_inside {m : List Host.Cell} (h : Memory.wf m = true) (bs : List Byte) (a i : Nat) (hi : i < bs.length) :
    Memory.read (Memory.writeN m a bs) (a + i) = bs[i] := by
  induction bs generalizing m a i with
  | nil => simp at hi
  | cons b bs ih =>
    cases i with
    | zero => rw [Memory.writeN, read_writeN_before (write_wf h a b) bs (a + 1) (a + 0) (by omega)]; simpa using read_write_same h a b
    | succ i =>
      rw [Memory.writeN]
      have := ih (write_wf h a b) (a + 1) i (by simpa using hi)
      rw [show a + (i + 1) = a + 1 + i by omega, this]
      rfl

@[simp] theorem leBytes_length (n x : Nat) : (leBytes n x).length = n := by
  induction n generalizing x with
  | zero => rfl
  | succ n ih => simp [leBytes, ih]

theorem leNat_leBytes (n x : Nat) : leNat (leBytes n x) = x % 256 ^ n := by
  induction n generalizing x with
  | zero => simp [leBytes, leNat, Nat.mod_one]
  | succ n ih =>
    have h8 : (2 : Nat) ^ 8 = 256 := rfl
    simp only [leBytes, leNat, ih, BitVec.toNat_ofNat, h8]
    rw [Nat.pow_succ', Nat.mod_mul]

end Sys2Proof.Machine
end

