-- ==== Sys2Proof/Laws/State.lean ====
section
/-! SUPPORT. What each update of the state leaves in each of its fields: one lemma a field an update, so that no proof unfolds a record. -/

namespace Sys2Proof.Machine

variable (s : State)

/-! ### `modEnt` -/

@[simp] theorem State.modEnt_mem (k : Nat) (f : Entity → Entity) : (s.modEnt k f).mem = s.mem := rfl
@[simp] theorem State.modEnt_tags (k : Nat) (f : Entity → Entity) : (s.modEnt k f).tags = s.tags := rfl
@[simp] theorem State.modEnt_poison (k : Nat) (f : Entity → Entity) : (s.modEnt k f).poison = s.poison := rfl
@[simp] theorem State.modEnt_lineKey (k : Nat) (f : Entity → Entity) : (s.modEnt k f).lineKey = s.lineKey := rfl
@[simp] theorem State.modEnt_l1 (k : Nat) (f : Entity → Entity) : (s.modEnt k f).l1 = s.l1 := rfl
@[simp] theorem State.modEnt_tlb (k : Nat) (f : Entity → Entity) : (s.modEnt k f).tlb = s.tlb := rfl
@[simp] theorem State.modEnt_ents (k : Nat) (f : Entity → Entity) : (s.modEnt k f).ents = tabMod s.ents k f := rfl
@[simp] theorem State.modEnt_teams (k : Nat) (f : Entity → Entity) : (s.modEnt k f).teams = s.teams := rfl
@[simp] theorem State.modEnt_wgs (k : Nat) (f : Entity → Entity) : (s.modEnt k f).wgs = s.wgs := rfl
@[simp] theorem State.modEnt_clusters (k : Nat) (f : Entity → Entity) : (s.modEnt k f).clusters = s.clusters := rfl
@[simp] theorem State.modEnt_grids (k : Nat) (f : Entity → Entity) : (s.modEnt k f).grids = s.grids := rfl
@[simp] theorem State.modEnt_ops (k : Nat) (f : Entity → Entity) : (s.modEnt k f).ops = s.ops := rfl
@[simp] theorem State.modEnt_replay (k : Nat) (f : Entity → Entity) : (s.modEnt k f).replay = s.replay := rfl
@[simp] theorem State.modEnt_copies (k : Nat) (f : Entity → Entity) : (s.modEnt k f).copies = s.copies := rfl
@[simp] theorem State.modEnt_creds (k : Nat) (f : Entity → Entity) : (s.modEnt k f).creds = s.creds := rfl
@[simp] theorem State.modEnt_engines (k : Nat) (f : Entity → Entity) : (s.modEnt k f).engines = s.engines := rfl
@[simp] theorem State.modEnt_ctxs (k : Nat) (f : Entity → Entity) : (s.modEnt k f).ctxs = s.ctxs := rfl
@[simp] theorem State.modEnt_parts (k : Nat) (f : Entity → Entity) : (s.modEnt k f).parts = s.parts := rfl
@[simp] theorem State.modEnt_sem (k : Nat) (f : Entity → Entity) : (s.modEnt k f).sem = s.sem := rfl
@[simp] theorem State.modEnt_evPend (k : Nat) (f : Entity → Entity) : (s.modEnt k f).evPend = s.evPend := rfl
@[simp] theorem State.modEnt_evMask (k : Nat) (f : Entity → Entity) : (s.modEnt k f).evMask = s.evMask := rfl
@[simp] theorem State.modEnt_preTo (k : Nat) (f : Entity → Entity) : (s.modEnt k f).preTo = s.preTo := rfl
@[simp] theorem State.modEnt_hangLim (k : Nat) (f : Entity → Entity) : (s.modEnt k f).hangLim = s.hangLim := rfl
@[simp] theorem State.modEnt_rrCtx (k : Nat) (f : Entity → Entity) : (s.modEnt k f).rrCtx = s.rrCtx := rfl
@[simp] theorem State.modEnt_cols (k : Nat) (f : Entity → Entity) : (s.modEnt k f).cols = s.cols := rfl
@[simp] theorem State.modEnt_policy (k : Nat) (f : Entity → Entity) : (s.modEnt k f).policy = s.policy := rfl
@[simp] theorem State.modEnt_islands (k : Nat) (f : Entity → Entity) : (s.modEnt k f).islands = s.islands := rfl
@[simp] theorem State.modEnt_debug (k : Nat) (f : Entity → Entity) : (s.modEnt k f).debug = s.debug := rfl
@[simp] theorem State.modEnt_hists (k : Nat) (f : Entity → Entity) : (s.modEnt k f).hists = s.hists := rfl
@[simp] theorem State.modEnt_trace (k : Nat) (f : Entity → Entity) : (s.modEnt k f).trace = s.trace := rfl
@[simp] theorem State.modEnt_member (k : Nat) (f : Entity → Entity) : (s.modEnt k f).member = s.member := rfl
@[simp] theorem State.modEnt_routes (k : Nat) (f : Entity → Entity) : (s.modEnt k f).routes = s.routes := rfl
@[simp] theorem State.modEnt_linkEn (k : Nat) (f : Entity → Entity) : (s.modEnt k f).linkEn = s.linkEn := rfl
@[simp] theorem State.modEnt_links (k : Nat) (f : Entity → Entity) : (s.modEnt k f).links = s.links := rfl
@[simp] theorem State.modEnt_ports (k : Nat) (f : Entity → Entity) : (s.modEnt k f).ports = s.ports := rfl
@[simp] theorem State.modEnt_notices (k : Nat) (f : Entity → Entity) : (s.modEnt k f).notices = s.notices := rfl
@[simp] theorem State.modEnt_sentBlocks (k : Nat) (f : Entity → Entity) : (s.modEnt k f).sentBlocks = s.sentBlocks := rfl
@[simp] theorem State.modEnt_service (k : Nat) (f : Entity → Entity) : (s.modEnt k f).service = s.service := rfl
@[simp] theorem State.modEnt_trust (k : Nat) (f : Entity → Entity) : (s.modEnt k f).trust = s.trust := rfl
@[simp] theorem State.modEnt_irqs (k : Nat) (f : Entity → Entity) : (s.modEnt k f).irqs = s.irqs := rfl
@[simp] theorem State.modEnt_outbox (k : Nat) (f : Entity → Entity) : (s.modEnt k f).outbox = s.outbox := rfl
@[simp] theorem State.modEnt_charged (k : Nat) (f : Entity → Entity) : (s.modEnt k f).charged = s.charged := rfl
@[simp] theorem State.modEnt_responses (k : Nat) (f : Entity → Entity) : (s.modEnt k f).responses = s.responses := rfl
@[simp] theorem State.modEnt_corrected (k : Nat) (f : Entity → Entity) : (s.modEnt k f).corrected = s.corrected := rfl
@[simp] theorem State.modEnt_time (k : Nat) (f : Entity → Entity) : (s.modEnt k f).time = s.time := rfl
@[simp] theorem State.modEnt_cur (k : Nat) (f : Entity → Entity) : (s.modEnt k f).cur = s.cur := rfl
@[simp] theorem State.modEnt_agenda (k : Nat) (f : Entity → Entity) : (s.modEnt k f).agenda = s.agenda := rfl
@[simp] theorem State.modEnt_turn (k : Nat) (f : Entity → Entity) : (s.modEnt k f).turn = s.turn := rfl
@[simp] theorem State.modEnt_nextId (k : Nat) (f : Entity → Entity) : (s.modEnt k f).nextId = s.nextId := rfl
@[simp] theorem State.modEnt_free (k : Nat) (f : Entity → Entity) : (s.modEnt k f).free = s.free := rfl

/-! ### `modTeam` -/

@[simp] theorem State.modTeam_mem (k : Nat) (f : Team → Team) : (s.modTeam k f).mem = s.mem := rfl
@[simp] theorem State.modTeam_tags (k : Nat) (f : Team → Team) : (s.modTeam k f).tags = s.tags := rfl
@[simp] theorem State.modTeam_poison (k : Nat) (f : Team → Team) : (s.modTeam k f).poison = s.poison := rfl
@[simp] theorem State.modTeam_lineKey (k : Nat) (f : Team → Team) : (s.modTeam k f).lineKey = s.lineKey := rfl
@[simp] theorem State.modTeam_l1 (k : Nat) (f : Team → Team) : (s.modTeam k f).l1 = s.l1 := rfl
@[simp] theorem State.modTeam_tlb (k : Nat) (f : Team → Team) : (s.modTeam k f).tlb = s.tlb := rfl
@[simp] theorem State.modTeam_ents (k : Nat) (f : Team → Team) : (s.modTeam k f).ents = s.ents := rfl
@[simp] theorem State.modTeam_teams (k : Nat) (f : Team → Team) : (s.modTeam k f).teams = tabMod s.teams k f := rfl
@[simp] theorem State.modTeam_wgs (k : Nat) (f : Team → Team) : (s.modTeam k f).wgs = s.wgs := rfl
@[simp] theorem State.modTeam_clusters (k : Nat) (f : Team → Team) : (s.modTeam k f).clusters = s.clusters := rfl
@[simp] theorem State.modTeam_grids (k : Nat) (f : Team → Team) : (s.modTeam k f).grids = s.grids := rfl
@[simp] theorem State.modTeam_ops (k : Nat) (f : Team → Team) : (s.modTeam k f).ops = s.ops := rfl
@[simp] theorem State.modTeam_replay (k : Nat) (f : Team → Team) : (s.modTeam k f).replay = s.replay := rfl
@[simp] theorem State.modTeam_copies (k : Nat) (f : Team → Team) : (s.modTeam k f).copies = s.copies := rfl
@[simp] theorem State.modTeam_creds (k : Nat) (f : Team → Team) : (s.modTeam k f).creds = s.creds := rfl
@[simp] theorem State.modTeam_engines (k : Nat) (f : Team → Team) : (s.modTeam k f).engines = s.engines := rfl
@[simp] theorem State.modTeam_ctxs (k : Nat) (f : Team → Team) : (s.modTeam k f).ctxs = s.ctxs := rfl
@[simp] theorem State.modTeam_parts (k : Nat) (f : Team → Team) : (s.modTeam k f).parts = s.parts := rfl
@[simp] theorem State.modTeam_sem (k : Nat) (f : Team → Team) : (s.modTeam k f).sem = s.sem := rfl
@[simp] theorem State.modTeam_evPend (k : Nat) (f : Team → Team) : (s.modTeam k f).evPend = s.evPend := rfl
@[simp] theorem State.modTeam_evMask (k : Nat) (f : Team → Team) : (s.modTeam k f).evMask = s.evMask := rfl
@[simp] theorem State.modTeam_preTo (k : Nat) (f : Team → Team) : (s.modTeam k f).preTo = s.preTo := rfl
@[simp] theorem State.modTeam_hangLim (k : Nat) (f : Team → Team) : (s.modTeam k f).hangLim = s.hangLim := rfl
@[simp] theorem State.modTeam_rrCtx (k : Nat) (f : Team → Team) : (s.modTeam k f).rrCtx = s.rrCtx := rfl
@[simp] theorem State.modTeam_cols (k : Nat) (f : Team → Team) : (s.modTeam k f).cols = s.cols := rfl
@[simp] theorem State.modTeam_policy (k : Nat) (f : Team → Team) : (s.modTeam k f).policy = s.policy := rfl
@[simp] theorem State.modTeam_islands (k : Nat) (f : Team → Team) : (s.modTeam k f).islands = s.islands := rfl
@[simp] theorem State.modTeam_debug (k : Nat) (f : Team → Team) : (s.modTeam k f).debug = s.debug := rfl
@[simp] theorem State.modTeam_hists (k : Nat) (f : Team → Team) : (s.modTeam k f).hists = s.hists := rfl
@[simp] theorem State.modTeam_trace (k : Nat) (f : Team → Team) : (s.modTeam k f).trace = s.trace := rfl
@[simp] theorem State.modTeam_member (k : Nat) (f : Team → Team) : (s.modTeam k f).member = s.member := rfl
@[simp] theorem State.modTeam_routes (k : Nat) (f : Team → Team) : (s.modTeam k f).routes = s.routes := rfl
@[simp] theorem State.modTeam_linkEn (k : Nat) (f : Team → Team) : (s.modTeam k f).linkEn = s.linkEn := rfl
@[simp] theorem State.modTeam_links (k : Nat) (f : Team → Team) : (s.modTeam k f).links = s.links := rfl
@[simp] theorem State.modTeam_ports (k : Nat) (f : Team → Team) : (s.modTeam k f).ports = s.ports := rfl
@[simp] theorem State.modTeam_notices (k : Nat) (f : Team → Team) : (s.modTeam k f).notices = s.notices := rfl
@[simp] theorem State.modTeam_sentBlocks (k : Nat) (f : Team → Team) : (s.modTeam k f).sentBlocks = s.sentBlocks := rfl
@[simp] theorem State.modTeam_service (k : Nat) (f : Team → Team) : (s.modTeam k f).service = s.service := rfl
@[simp] theorem State.modTeam_trust (k : Nat) (f : Team → Team) : (s.modTeam k f).trust = s.trust := rfl
@[simp] theorem State.modTeam_irqs (k : Nat) (f : Team → Team) : (s.modTeam k f).irqs = s.irqs := rfl
@[simp] theorem State.modTeam_outbox (k : Nat) (f : Team → Team) : (s.modTeam k f).outbox = s.outbox := rfl
@[simp] theorem State.modTeam_charged (k : Nat) (f : Team → Team) : (s.modTeam k f).charged = s.charged := rfl
@[simp] theorem State.modTeam_responses (k : Nat) (f : Team → Team) : (s.modTeam k f).responses = s.responses := rfl
@[simp] theorem State.modTeam_corrected (k : Nat) (f : Team → Team) : (s.modTeam k f).corrected = s.corrected := rfl
@[simp] theorem State.modTeam_time (k : Nat) (f : Team → Team) : (s.modTeam k f).time = s.time := rfl
@[simp] theorem State.modTeam_cur (k : Nat) (f : Team → Team) : (s.modTeam k f).cur = s.cur := rfl
@[simp] theorem State.modTeam_agenda (k : Nat) (f : Team → Team) : (s.modTeam k f).agenda = s.agenda := rfl
@[simp] theorem State.modTeam_turn (k : Nat) (f : Team → Team) : (s.modTeam k f).turn = s.turn := rfl
@[simp] theorem State.modTeam_nextId (k : Nat) (f : Team → Team) : (s.modTeam k f).nextId = s.nextId := rfl
@[simp] theorem State.modTeam_free (k : Nat) (f : Team → Team) : (s.modTeam k f).free = s.free := rfl

/-! ### `modWg` -/

@[simp] theorem State.modWg_mem (k : Nat) (f : Workgroup → Workgroup) : (s.modWg k f).mem = s.mem := rfl
@[simp] theorem State.modWg_tags (k : Nat) (f : Workgroup → Workgroup) : (s.modWg k f).tags = s.tags := rfl
@[simp] theorem State.modWg_poison (k : Nat) (f : Workgroup → Workgroup) : (s.modWg k f).poison = s.poison := rfl
@[simp] theorem State.modWg_lineKey (k : Nat) (f : Workgroup → Workgroup) : (s.modWg k f).lineKey = s.lineKey := rfl
@[simp] theorem State.modWg_l1 (k : Nat) (f : Workgroup → Workgroup) : (s.modWg k f).l1 = s.l1 := rfl
@[simp] theorem State.modWg_tlb (k : Nat) (f : Workgroup → Workgroup) : (s.modWg k f).tlb = s.tlb := rfl
@[simp] theorem State.modWg_ents (k : Nat) (f : Workgroup → Workgroup) : (s.modWg k f).ents = s.ents := rfl
@[simp] theorem State.modWg_teams (k : Nat) (f : Workgroup → Workgroup) : (s.modWg k f).teams = s.teams := rfl
@[simp] theorem State.modWg_wgs (k : Nat) (f : Workgroup → Workgroup) : (s.modWg k f).wgs = tabMod s.wgs k f := rfl
@[simp] theorem State.modWg_clusters (k : Nat) (f : Workgroup → Workgroup) : (s.modWg k f).clusters = s.clusters := rfl
@[simp] theorem State.modWg_grids (k : Nat) (f : Workgroup → Workgroup) : (s.modWg k f).grids = s.grids := rfl
@[simp] theorem State.modWg_ops (k : Nat) (f : Workgroup → Workgroup) : (s.modWg k f).ops = s.ops := rfl
@[simp] theorem State.modWg_replay (k : Nat) (f : Workgroup → Workgroup) : (s.modWg k f).replay = s.replay := rfl
@[simp] theorem State.modWg_copies (k : Nat) (f : Workgroup → Workgroup) : (s.modWg k f).copies = s.copies := rfl
@[simp] theorem State.modWg_creds (k : Nat) (f : Workgroup → Workgroup) : (s.modWg k f).creds = s.creds := rfl
@[simp] theorem State.modWg_engines (k : Nat) (f : Workgroup → Workgroup) : (s.modWg k f).engines = s.engines := rfl
@[simp] theorem State.modWg_ctxs (k : Nat) (f : Workgroup → Workgroup) : (s.modWg k f).ctxs = s.ctxs := rfl
@[simp] theorem State.modWg_parts (k : Nat) (f : Workgroup → Workgroup) : (s.modWg k f).parts = s.parts := rfl
@[simp] theorem State.modWg_sem (k : Nat) (f : Workgroup → Workgroup) : (s.modWg k f).sem = s.sem := rfl
@[simp] theorem State.modWg_evPend (k : Nat) (f : Workgroup → Workgroup) : (s.modWg k f).evPend = s.evPend := rfl
@[simp] theorem State.modWg_evMask (k : Nat) (f : Workgroup → Workgroup) : (s.modWg k f).evMask = s.evMask := rfl
@[simp] theorem State.modWg_preTo (k : Nat) (f : Workgroup → Workgroup) : (s.modWg k f).preTo = s.preTo := rfl
@[simp] theorem State.modWg_hangLim (k : Nat) (f : Workgroup → Workgroup) : (s.modWg k f).hangLim = s.hangLim := rfl
@[simp] theorem State.modWg_rrCtx (k : Nat) (f : Workgroup → Workgroup) : (s.modWg k f).rrCtx = s.rrCtx := rfl
@[simp] theorem State.modWg_cols (k : Nat) (f : Workgroup → Workgroup) : (s.modWg k f).cols = s.cols := rfl
@[simp] theorem State.modWg_policy (k : Nat) (f : Workgroup → Workgroup) : (s.modWg k f).policy = s.policy := rfl
@[simp] theorem State.modWg_islands (k : Nat) (f : Workgroup → Workgroup) : (s.modWg k f).islands = s.islands := rfl
@[simp] theorem State.modWg_debug (k : Nat) (f : Workgroup → Workgroup) : (s.modWg k f).debug = s.debug := rfl
@[simp] theorem State.modWg_hists (k : Nat) (f : Workgroup → Workgroup) : (s.modWg k f).hists = s.hists := rfl
@[simp] theorem State.modWg_trace (k : Nat) (f : Workgroup → Workgroup) : (s.modWg k f).trace = s.trace := rfl
@[simp] theorem State.modWg_member (k : Nat) (f : Workgroup → Workgroup) : (s.modWg k f).member = s.member := rfl
@[simp] theorem State.modWg_routes (k : Nat) (f : Workgroup → Workgroup) : (s.modWg k f).routes = s.routes := rfl
@[simp] theorem State.modWg_linkEn (k : Nat) (f : Workgroup → Workgroup) : (s.modWg k f).linkEn = s.linkEn := rfl
@[simp] theorem State.modWg_links (k : Nat) (f : Workgroup → Workgroup) : (s.modWg k f).links = s.links := rfl
@[simp] theorem State.modWg_ports (k : Nat) (f : Workgroup → Workgroup) : (s.modWg k f).ports = s.ports := rfl
@[simp] theorem State.modWg_notices (k : Nat) (f : Workgroup → Workgroup) : (s.modWg k f).notices = s.notices := rfl
@[simp] theorem State.modWg_sentBlocks (k : Nat) (f : Workgroup → Workgroup) : (s.modWg k f).sentBlocks = s.sentBlocks := rfl
@[simp] theorem State.modWg_service (k : Nat) (f : Workgroup → Workgroup) : (s.modWg k f).service = s.service := rfl
@[simp] theorem State.modWg_trust (k : Nat) (f : Workgroup → Workgroup) : (s.modWg k f).trust = s.trust := rfl
@[simp] theorem State.modWg_irqs (k : Nat) (f : Workgroup → Workgroup) : (s.modWg k f).irqs = s.irqs := rfl
@[simp] theorem State.modWg_outbox (k : Nat) (f : Workgroup → Workgroup) : (s.modWg k f).outbox = s.outbox := rfl
@[simp] theorem State.modWg_charged (k : Nat) (f : Workgroup → Workgroup) : (s.modWg k f).charged = s.charged := rfl
@[simp] theorem State.modWg_responses (k : Nat) (f : Workgroup → Workgroup) : (s.modWg k f).responses = s.responses := rfl
@[simp] theorem State.modWg_corrected (k : Nat) (f : Workgroup → Workgroup) : (s.modWg k f).corrected = s.corrected := rfl
@[simp] theorem State.modWg_time (k : Nat) (f : Workgroup → Workgroup) : (s.modWg k f).time = s.time := rfl
@[simp] theorem State.modWg_cur (k : Nat) (f : Workgroup → Workgroup) : (s.modWg k f).cur = s.cur := rfl
@[simp] theorem State.modWg_agenda (k : Nat) (f : Workgroup → Workgroup) : (s.modWg k f).agenda = s.agenda := rfl
@[simp] theorem State.modWg_turn (k : Nat) (f : Workgroup → Workgroup) : (s.modWg k f).turn = s.turn := rfl
@[simp] theorem State.modWg_nextId (k : Nat) (f : Workgroup → Workgroup) : (s.modWg k f).nextId = s.nextId := rfl
@[simp] theorem State.modWg_free (k : Nat) (f : Workgroup → Workgroup) : (s.modWg k f).free = s.free := rfl

/-! ### `modCluster` -/

@[simp] theorem State.modCluster_mem (k : Nat) (f : Cluster → Cluster) : (s.modCluster k f).mem = s.mem := rfl
@[simp] theorem State.modCluster_tags (k : Nat) (f : Cluster → Cluster) : (s.modCluster k f).tags = s.tags := rfl
@[simp] theorem State.modCluster_poison (k : Nat) (f : Cluster → Cluster) : (s.modCluster k f).poison = s.poison := rfl
@[simp] theorem State.modCluster_lineKey (k : Nat) (f : Cluster → Cluster) : (s.modCluster k f).lineKey = s.lineKey := rfl
@[simp] theorem State.modCluster_l1 (k : Nat) (f : Cluster → Cluster) : (s.modCluster k f).l1 = s.l1 := rfl
@[simp] theorem State.modCluster_tlb (k : Nat) (f : Cluster → Cluster) : (s.modCluster k f).tlb = s.tlb := rfl
@[simp] theorem State.modCluster_ents (k : Nat) (f : Cluster → Cluster) : (s.modCluster k f).ents = s.ents := rfl
@[simp] theorem State.modCluster_teams (k : Nat) (f : Cluster → Cluster) : (s.modCluster k f).teams = s.teams := rfl
@[simp] theorem State.modCluster_wgs (k : Nat) (f : Cluster → Cluster) : (s.modCluster k f).wgs = s.wgs := rfl
@[simp] theorem State.modCluster_clusters (k : Nat) (f : Cluster → Cluster) : (s.modCluster k f).clusters = tabMod s.clusters k f := rfl
@[simp] theorem State.modCluster_grids (k : Nat) (f : Cluster → Cluster) : (s.modCluster k f).grids = s.grids := rfl
@[simp] theorem State.modCluster_ops (k : Nat) (f : Cluster → Cluster) : (s.modCluster k f).ops = s.ops := rfl
@[simp] theorem State.modCluster_replay (k : Nat) (f : Cluster → Cluster) : (s.modCluster k f).replay = s.replay := rfl
@[simp] theorem State.modCluster_copies (k : Nat) (f : Cluster → Cluster) : (s.modCluster k f).copies = s.copies := rfl
@[simp] theorem State.modCluster_creds (k : Nat) (f : Cluster → Cluster) : (s.modCluster k f).creds = s.creds := rfl
@[simp] theorem State.modCluster_engines (k : Nat) (f : Cluster → Cluster) : (s.modCluster k f).engines = s.engines := rfl
@[simp] theorem State.modCluster_ctxs (k : Nat) (f : Cluster → Cluster) : (s.modCluster k f).ctxs = s.ctxs := rfl
@[simp] theorem State.modCluster_parts (k : Nat) (f : Cluster → Cluster) : (s.modCluster k f).parts = s.parts := rfl
@[simp] theorem State.modCluster_sem (k : Nat) (f : Cluster → Cluster) : (s.modCluster k f).sem = s.sem := rfl
@[simp] theorem State.modCluster_evPend (k : Nat) (f : Cluster → Cluster) : (s.modCluster k f).evPend = s.evPend := rfl
@[simp] theorem State.modCluster_evMask (k : Nat) (f : Cluster → Cluster) : (s.modCluster k f).evMask = s.evMask := rfl
@[simp] theorem State.modCluster_preTo (k : Nat) (f : Cluster → Cluster) : (s.modCluster k f).preTo = s.preTo := rfl
@[simp] theorem State.modCluster_hangLim (k : Nat) (f : Cluster → Cluster) : (s.modCluster k f).hangLim = s.hangLim := rfl
@[simp] theorem State.modCluster_rrCtx (k : Nat) (f : Cluster → Cluster) : (s.modCluster k f).rrCtx = s.rrCtx := rfl
@[simp] theorem State.modCluster_cols (k : Nat) (f : Cluster → Cluster) : (s.modCluster k f).cols = s.cols := rfl
@[simp] theorem State.modCluster_policy (k : Nat) (f : Cluster → Cluster) : (s.modCluster k f).policy = s.policy := rfl
@[simp] theorem State.modCluster_islands (k : Nat) (f : Cluster → Cluster) : (s.modCluster k f).islands = s.islands := rfl
@[simp] theorem State.modCluster_debug (k : Nat) (f : Cluster → Cluster) : (s.modCluster k f).debug = s.debug := rfl
@[simp] theorem State.modCluster_hists (k : Nat) (f : Cluster → Cluster) : (s.modCluster k f).hists = s.hists := rfl
@[simp] theorem State.modCluster_trace (k : Nat) (f : Cluster → Cluster) : (s.modCluster k f).trace = s.trace := rfl
@[simp] theorem State.modCluster_member (k : Nat) (f : Cluster → Cluster) : (s.modCluster k f).member = s.member := rfl
@[simp] theorem State.modCluster_routes (k : Nat) (f : Cluster → Cluster) : (s.modCluster k f).routes = s.routes := rfl
@[simp] theorem State.modCluster_linkEn (k : Nat) (f : Cluster → Cluster) : (s.modCluster k f).linkEn = s.linkEn := rfl
@[simp] theorem State.modCluster_links (k : Nat) (f : Cluster → Cluster) : (s.modCluster k f).links = s.links := rfl
@[simp] theorem State.modCluster_ports (k : Nat) (f : Cluster → Cluster) : (s.modCluster k f).ports = s.ports := rfl
@[simp] theorem State.modCluster_notices (k : Nat) (f : Cluster → Cluster) : (s.modCluster k f).notices = s.notices := rfl
@[simp] theorem State.modCluster_sentBlocks (k : Nat) (f : Cluster → Cluster) : (s.modCluster k f).sentBlocks = s.sentBlocks := rfl
@[simp] theorem State.modCluster_service (k : Nat) (f : Cluster → Cluster) : (s.modCluster k f).service = s.service := rfl
@[simp] theorem State.modCluster_trust (k : Nat) (f : Cluster → Cluster) : (s.modCluster k f).trust = s.trust := rfl
@[simp] theorem State.modCluster_irqs (k : Nat) (f : Cluster → Cluster) : (s.modCluster k f).irqs = s.irqs := rfl
@[simp] theorem State.modCluster_outbox (k : Nat) (f : Cluster → Cluster) : (s.modCluster k f).outbox = s.outbox := rfl
@[simp] theorem State.modCluster_charged (k : Nat) (f : Cluster → Cluster) : (s.modCluster k f).charged = s.charged := rfl
@[simp] theorem State.modCluster_responses (k : Nat) (f : Cluster → Cluster) : (s.modCluster k f).responses = s.responses := rfl
@[simp] theorem State.modCluster_corrected (k : Nat) (f : Cluster → Cluster) : (s.modCluster k f).corrected = s.corrected := rfl
@[simp] theorem State.modCluster_time (k : Nat) (f : Cluster → Cluster) : (s.modCluster k f).time = s.time := rfl
@[simp] theorem State.modCluster_cur (k : Nat) (f : Cluster → Cluster) : (s.modCluster k f).cur = s.cur := rfl
@[simp] theorem State.modCluster_agenda (k : Nat) (f : Cluster → Cluster) : (s.modCluster k f).agenda = s.agenda := rfl
@[simp] theorem State.modCluster_turn (k : Nat) (f : Cluster → Cluster) : (s.modCluster k f).turn = s.turn := rfl
@[simp] theorem State.modCluster_nextId (k : Nat) (f : Cluster → Cluster) : (s.modCluster k f).nextId = s.nextId := rfl
@[simp] theorem State.modCluster_free (k : Nat) (f : Cluster → Cluster) : (s.modCluster k f).free = s.free := rfl

/-! ### `modGrid` -/

@[simp] theorem State.modGrid_mem (k : Nat) (f : Grid → Grid) : (s.modGrid k f).mem = s.mem := rfl
@[simp] theorem State.modGrid_tags (k : Nat) (f : Grid → Grid) : (s.modGrid k f).tags = s.tags := rfl
@[simp] theorem State.modGrid_poison (k : Nat) (f : Grid → Grid) : (s.modGrid k f).poison = s.poison := rfl
@[simp] theorem State.modGrid_lineKey (k : Nat) (f : Grid → Grid) : (s.modGrid k f).lineKey = s.lineKey := rfl
@[simp] theorem State.modGrid_l1 (k : Nat) (f : Grid → Grid) : (s.modGrid k f).l1 = s.l1 := rfl
@[simp] theorem State.modGrid_tlb (k : Nat) (f : Grid → Grid) : (s.modGrid k f).tlb = s.tlb := rfl
@[simp] theorem State.modGrid_ents (k : Nat) (f : Grid → Grid) : (s.modGrid k f).ents = s.ents := rfl
@[simp] theorem State.modGrid_teams (k : Nat) (f : Grid → Grid) : (s.modGrid k f).teams = s.teams := rfl
@[simp] theorem State.modGrid_wgs (k : Nat) (f : Grid → Grid) : (s.modGrid k f).wgs = s.wgs := rfl
@[simp] theorem State.modGrid_clusters (k : Nat) (f : Grid → Grid) : (s.modGrid k f).clusters = s.clusters := rfl
@[simp] theorem State.modGrid_grids (k : Nat) (f : Grid → Grid) : (s.modGrid k f).grids = tabMod s.grids k f := rfl
@[simp] theorem State.modGrid_ops (k : Nat) (f : Grid → Grid) : (s.modGrid k f).ops = s.ops := rfl
@[simp] theorem State.modGrid_replay (k : Nat) (f : Grid → Grid) : (s.modGrid k f).replay = s.replay := rfl
@[simp] theorem State.modGrid_copies (k : Nat) (f : Grid → Grid) : (s.modGrid k f).copies = s.copies := rfl
@[simp] theorem State.modGrid_creds (k : Nat) (f : Grid → Grid) : (s.modGrid k f).creds = s.creds := rfl
@[simp] theorem State.modGrid_engines (k : Nat) (f : Grid → Grid) : (s.modGrid k f).engines = s.engines := rfl
@[simp] theorem State.modGrid_ctxs (k : Nat) (f : Grid → Grid) : (s.modGrid k f).ctxs = s.ctxs := rfl
@[simp] theorem State.modGrid_parts (k : Nat) (f : Grid → Grid) : (s.modGrid k f).parts = s.parts := rfl
@[simp] theorem State.modGrid_sem (k : Nat) (f : Grid → Grid) : (s.modGrid k f).sem = s.sem := rfl
@[simp] theorem State.modGrid_evPend (k : Nat) (f : Grid → Grid) : (s.modGrid k f).evPend = s.evPend := rfl
@[simp] theorem State.modGrid_evMask (k : Nat) (f : Grid → Grid) : (s.modGrid k f).evMask = s.evMask := rfl
@[simp] theorem State.modGrid_preTo (k : Nat) (f : Grid → Grid) : (s.modGrid k f).preTo = s.preTo := rfl
@[simp] theorem State.modGrid_hangLim (k : Nat) (f : Grid → Grid) : (s.modGrid k f).hangLim = s.hangLim := rfl
@[simp] theorem State.modGrid_rrCtx (k : Nat) (f : Grid → Grid) : (s.modGrid k f).rrCtx = s.rrCtx := rfl
@[simp] theorem State.modGrid_cols (k : Nat) (f : Grid → Grid) : (s.modGrid k f).cols = s.cols := rfl
@[simp] theorem State.modGrid_policy (k : Nat) (f : Grid → Grid) : (s.modGrid k f).policy = s.policy := rfl
@[simp] theorem State.modGrid_islands (k : Nat) (f : Grid → Grid) : (s.modGrid k f).islands = s.islands := rfl
@[simp] theorem State.modGrid_debug (k : Nat) (f : Grid → Grid) : (s.modGrid k f).debug = s.debug := rfl
@[simp] theorem State.modGrid_hists (k : Nat) (f : Grid → Grid) : (s.modGrid k f).hists = s.hists := rfl
@[simp] theorem State.modGrid_trace (k : Nat) (f : Grid → Grid) : (s.modGrid k f).trace = s.trace := rfl
@[simp] theorem State.modGrid_member (k : Nat) (f : Grid → Grid) : (s.modGrid k f).member = s.member := rfl
@[simp] theorem State.modGrid_routes (k : Nat) (f : Grid → Grid) : (s.modGrid k f).routes = s.routes := rfl
@[simp] theorem State.modGrid_linkEn (k : Nat) (f : Grid → Grid) : (s.modGrid k f).linkEn = s.linkEn := rfl
@[simp] theorem State.modGrid_links (k : Nat) (f : Grid → Grid) : (s.modGrid k f).links = s.links := rfl
@[simp] theorem State.modGrid_ports (k : Nat) (f : Grid → Grid) : (s.modGrid k f).ports = s.ports := rfl
@[simp] theorem State.modGrid_notices (k : Nat) (f : Grid → Grid) : (s.modGrid k f).notices = s.notices := rfl
@[simp] theorem State.modGrid_sentBlocks (k : Nat) (f : Grid → Grid) : (s.modGrid k f).sentBlocks = s.sentBlocks := rfl
@[simp] theorem State.modGrid_service (k : Nat) (f : Grid → Grid) : (s.modGrid k f).service = s.service := rfl
@[simp] theorem State.modGrid_trust (k : Nat) (f : Grid → Grid) : (s.modGrid k f).trust = s.trust := rfl
@[simp] theorem State.modGrid_irqs (k : Nat) (f : Grid → Grid) : (s.modGrid k f).irqs = s.irqs := rfl
@[simp] theorem State.modGrid_outbox (k : Nat) (f : Grid → Grid) : (s.modGrid k f).outbox = s.outbox := rfl
@[simp] theorem State.modGrid_charged (k : Nat) (f : Grid → Grid) : (s.modGrid k f).charged = s.charged := rfl
@[simp] theorem State.modGrid_responses (k : Nat) (f : Grid → Grid) : (s.modGrid k f).responses = s.responses := rfl
@[simp] theorem State.modGrid_corrected (k : Nat) (f : Grid → Grid) : (s.modGrid k f).corrected = s.corrected := rfl
@[simp] theorem State.modGrid_time (k : Nat) (f : Grid → Grid) : (s.modGrid k f).time = s.time := rfl
@[simp] theorem State.modGrid_cur (k : Nat) (f : Grid → Grid) : (s.modGrid k f).cur = s.cur := rfl
@[simp] theorem State.modGrid_agenda (k : Nat) (f : Grid → Grid) : (s.modGrid k f).agenda = s.agenda := rfl
@[simp] theorem State.modGrid_turn (k : Nat) (f : Grid → Grid) : (s.modGrid k f).turn = s.turn := rfl
@[simp] theorem State.modGrid_nextId (k : Nat) (f : Grid → Grid) : (s.modGrid k f).nextId = s.nextId := rfl
@[simp] theorem State.modGrid_free (k : Nat) (f : Grid → Grid) : (s.modGrid k f).free = s.free := rfl

/-! ### `modOp` -/

@[simp] theorem State.modOp_mem (k : Nat) (f : MemOp → MemOp) : (s.modOp k f).mem = s.mem := rfl
@[simp] theorem State.modOp_tags (k : Nat) (f : MemOp → MemOp) : (s.modOp k f).tags = s.tags := rfl
@[simp] theorem State.modOp_poison (k : Nat) (f : MemOp → MemOp) : (s.modOp k f).poison = s.poison := rfl
@[simp] theorem State.modOp_lineKey (k : Nat) (f : MemOp → MemOp) : (s.modOp k f).lineKey = s.lineKey := rfl
@[simp] theorem State.modOp_l1 (k : Nat) (f : MemOp → MemOp) : (s.modOp k f).l1 = s.l1 := rfl
@[simp] theorem State.modOp_tlb (k : Nat) (f : MemOp → MemOp) : (s.modOp k f).tlb = s.tlb := rfl
@[simp] theorem State.modOp_ents (k : Nat) (f : MemOp → MemOp) : (s.modOp k f).ents = s.ents := rfl
@[simp] theorem State.modOp_teams (k : Nat) (f : MemOp → MemOp) : (s.modOp k f).teams = s.teams := rfl
@[simp] theorem State.modOp_wgs (k : Nat) (f : MemOp → MemOp) : (s.modOp k f).wgs = s.wgs := rfl
@[simp] theorem State.modOp_clusters (k : Nat) (f : MemOp → MemOp) : (s.modOp k f).clusters = s.clusters := rfl
@[simp] theorem State.modOp_grids (k : Nat) (f : MemOp → MemOp) : (s.modOp k f).grids = s.grids := rfl
@[simp] theorem State.modOp_ops (k : Nat) (f : MemOp → MemOp) : (s.modOp k f).ops = tabMod s.ops k f := rfl
@[simp] theorem State.modOp_replay (k : Nat) (f : MemOp → MemOp) : (s.modOp k f).replay = s.replay := rfl
@[simp] theorem State.modOp_copies (k : Nat) (f : MemOp → MemOp) : (s.modOp k f).copies = s.copies := rfl
@[simp] theorem State.modOp_creds (k : Nat) (f : MemOp → MemOp) : (s.modOp k f).creds = s.creds := rfl
@[simp] theorem State.modOp_engines (k : Nat) (f : MemOp → MemOp) : (s.modOp k f).engines = s.engines := rfl
@[simp] theorem State.modOp_ctxs (k : Nat) (f : MemOp → MemOp) : (s.modOp k f).ctxs = s.ctxs := rfl
@[simp] theorem State.modOp_parts (k : Nat) (f : MemOp → MemOp) : (s.modOp k f).parts = s.parts := rfl
@[simp] theorem State.modOp_sem (k : Nat) (f : MemOp → MemOp) : (s.modOp k f).sem = s.sem := rfl
@[simp] theorem State.modOp_evPend (k : Nat) (f : MemOp → MemOp) : (s.modOp k f).evPend = s.evPend := rfl
@[simp] theorem State.modOp_evMask (k : Nat) (f : MemOp → MemOp) : (s.modOp k f).evMask = s.evMask := rfl
@[simp] theorem State.modOp_preTo (k : Nat) (f : MemOp → MemOp) : (s.modOp k f).preTo = s.preTo := rfl
@[simp] theorem State.modOp_hangLim (k : Nat) (f : MemOp → MemOp) : (s.modOp k f).hangLim = s.hangLim := rfl
@[simp] theorem State.modOp_rrCtx (k : Nat) (f : MemOp → MemOp) : (s.modOp k f).rrCtx = s.rrCtx := rfl
@[simp] theorem State.modOp_cols (k : Nat) (f : MemOp → MemOp) : (s.modOp k f).cols = s.cols := rfl
@[simp] theorem State.modOp_policy (k : Nat) (f : MemOp → MemOp) : (s.modOp k f).policy = s.policy := rfl
@[simp] theorem State.modOp_islands (k : Nat) (f : MemOp → MemOp) : (s.modOp k f).islands = s.islands := rfl
@[simp] theorem State.modOp_debug (k : Nat) (f : MemOp → MemOp) : (s.modOp k f).debug = s.debug := rfl
@[simp] theorem State.modOp_hists (k : Nat) (f : MemOp → MemOp) : (s.modOp k f).hists = s.hists := rfl
@[simp] theorem State.modOp_trace (k : Nat) (f : MemOp → MemOp) : (s.modOp k f).trace = s.trace := rfl
@[simp] theorem State.modOp_member (k : Nat) (f : MemOp → MemOp) : (s.modOp k f).member = s.member := rfl
@[simp] theorem State.modOp_routes (k : Nat) (f : MemOp → MemOp) : (s.modOp k f).routes = s.routes := rfl
@[simp] theorem State.modOp_linkEn (k : Nat) (f : MemOp → MemOp) : (s.modOp k f).linkEn = s.linkEn := rfl
@[simp] theorem State.modOp_links (k : Nat) (f : MemOp → MemOp) : (s.modOp k f).links = s.links := rfl
@[simp] theorem State.modOp_ports (k : Nat) (f : MemOp → MemOp) : (s.modOp k f).ports = s.ports := rfl
@[simp] theorem State.modOp_notices (k : Nat) (f : MemOp → MemOp) : (s.modOp k f).notices = s.notices := rfl
@[simp] theorem State.modOp_sentBlocks (k : Nat) (f : MemOp → MemOp) : (s.modOp k f).sentBlocks = s.sentBlocks := rfl
@[simp] theorem State.modOp_service (k : Nat) (f : MemOp → MemOp) : (s.modOp k f).service = s.service := rfl
@[simp] theorem State.modOp_trust (k : Nat) (f : MemOp → MemOp) : (s.modOp k f).trust = s.trust := rfl
@[simp] theorem State.modOp_irqs (k : Nat) (f : MemOp → MemOp) : (s.modOp k f).irqs = s.irqs := rfl
@[simp] theorem State.modOp_outbox (k : Nat) (f : MemOp → MemOp) : (s.modOp k f).outbox = s.outbox := rfl
@[simp] theorem State.modOp_charged (k : Nat) (f : MemOp → MemOp) : (s.modOp k f).charged = s.charged := rfl
@[simp] theorem State.modOp_responses (k : Nat) (f : MemOp → MemOp) : (s.modOp k f).responses = s.responses := rfl
@[simp] theorem State.modOp_corrected (k : Nat) (f : MemOp → MemOp) : (s.modOp k f).corrected = s.corrected := rfl
@[simp] theorem State.modOp_time (k : Nat) (f : MemOp → MemOp) : (s.modOp k f).time = s.time := rfl
@[simp] theorem State.modOp_cur (k : Nat) (f : MemOp → MemOp) : (s.modOp k f).cur = s.cur := rfl
@[simp] theorem State.modOp_agenda (k : Nat) (f : MemOp → MemOp) : (s.modOp k f).agenda = s.agenda := rfl
@[simp] theorem State.modOp_turn (k : Nat) (f : MemOp → MemOp) : (s.modOp k f).turn = s.turn := rfl
@[simp] theorem State.modOp_nextId (k : Nat) (f : MemOp → MemOp) : (s.modOp k f).nextId = s.nextId := rfl
@[simp] theorem State.modOp_free (k : Nat) (f : MemOp → MemOp) : (s.modOp k f).free = s.free := rfl

/-! ### `modCopy` -/

@[simp] theorem State.modCopy_mem (k : Nat) (f : Copy → Copy) : (s.modCopy k f).mem = s.mem := rfl
@[simp] theorem State.modCopy_tags (k : Nat) (f : Copy → Copy) : (s.modCopy k f).tags = s.tags := rfl
@[simp] theorem State.modCopy_poison (k : Nat) (f : Copy → Copy) : (s.modCopy k f).poison = s.poison := rfl
@[simp] theorem State.modCopy_lineKey (k : Nat) (f : Copy → Copy) : (s.modCopy k f).lineKey = s.lineKey := rfl
@[simp] theorem State.modCopy_l1 (k : Nat) (f : Copy → Copy) : (s.modCopy k f).l1 = s.l1 := rfl
@[simp] theorem State.modCopy_tlb (k : Nat) (f : Copy → Copy) : (s.modCopy k f).tlb = s.tlb := rfl
@[simp] theorem State.modCopy_ents (k : Nat) (f : Copy → Copy) : (s.modCopy k f).ents = s.ents := rfl
@[simp] theorem State.modCopy_teams (k : Nat) (f : Copy → Copy) : (s.modCopy k f).teams = s.teams := rfl
@[simp] theorem State.modCopy_wgs (k : Nat) (f : Copy → Copy) : (s.modCopy k f).wgs = s.wgs := rfl
@[simp] theorem State.modCopy_clusters (k : Nat) (f : Copy → Copy) : (s.modCopy k f).clusters = s.clusters := rfl
@[simp] theorem State.modCopy_grids (k : Nat) (f : Copy → Copy) : (s.modCopy k f).grids = s.grids := rfl
@[simp] theorem State.modCopy_ops (k : Nat) (f : Copy → Copy) : (s.modCopy k f).ops = s.ops := rfl
@[simp] theorem State.modCopy_replay (k : Nat) (f : Copy → Copy) : (s.modCopy k f).replay = s.replay := rfl
@[simp] theorem State.modCopy_copies (k : Nat) (f : Copy → Copy) : (s.modCopy k f).copies = tabMod s.copies k f := rfl
@[simp] theorem State.modCopy_creds (k : Nat) (f : Copy → Copy) : (s.modCopy k f).creds = s.creds := rfl
@[simp] theorem State.modCopy_engines (k : Nat) (f : Copy → Copy) : (s.modCopy k f).engines = s.engines := rfl
@[simp] theorem State.modCopy_ctxs (k : Nat) (f : Copy → Copy) : (s.modCopy k f).ctxs = s.ctxs := rfl
@[simp] theorem State.modCopy_parts (k : Nat) (f : Copy → Copy) : (s.modCopy k f).parts = s.parts := rfl
@[simp] theorem State.modCopy_sem (k : Nat) (f : Copy → Copy) : (s.modCopy k f).sem = s.sem := rfl
@[simp] theorem State.modCopy_evPend (k : Nat) (f : Copy → Copy) : (s.modCopy k f).evPend = s.evPend := rfl
@[simp] theorem State.modCopy_evMask (k : Nat) (f : Copy → Copy) : (s.modCopy k f).evMask = s.evMask := rfl
@[simp] theorem State.modCopy_preTo (k : Nat) (f : Copy → Copy) : (s.modCopy k f).preTo = s.preTo := rfl
@[simp] theorem State.modCopy_hangLim (k : Nat) (f : Copy → Copy) : (s.modCopy k f).hangLim = s.hangLim := rfl
@[simp] theorem State.modCopy_rrCtx (k : Nat) (f : Copy → Copy) : (s.modCopy k f).rrCtx = s.rrCtx := rfl
@[simp] theorem State.modCopy_cols (k : Nat) (f : Copy → Copy) : (s.modCopy k f).cols = s.cols := rfl
@[simp] theorem State.modCopy_policy (k : Nat) (f : Copy → Copy) : (s.modCopy k f).policy = s.policy := rfl
@[simp] theorem State.modCopy_islands (k : Nat) (f : Copy → Copy) : (s.modCopy k f).islands = s.islands := rfl
@[simp] theorem State.modCopy_debug (k : Nat) (f : Copy → Copy) : (s.modCopy k f).debug = s.debug := rfl
@[simp] theorem State.modCopy_hists (k : Nat) (f : Copy → Copy) : (s.modCopy k f).hists = s.hists := rfl
@[simp] theorem State.modCopy_trace (k : Nat) (f : Copy → Copy) : (s.modCopy k f).trace = s.trace := rfl
@[simp] theorem State.modCopy_member (k : Nat) (f : Copy → Copy) : (s.modCopy k f).member = s.member := rfl
@[simp] theorem State.modCopy_routes (k : Nat) (f : Copy → Copy) : (s.modCopy k f).routes = s.routes := rfl
@[simp] theorem State.modCopy_linkEn (k : Nat) (f : Copy → Copy) : (s.modCopy k f).linkEn = s.linkEn := rfl
@[simp] theorem State.modCopy_links (k : Nat) (f : Copy → Copy) : (s.modCopy k f).links = s.links := rfl
@[simp] theorem State.modCopy_ports (k : Nat) (f : Copy → Copy) : (s.modCopy k f).ports = s.ports := rfl
@[simp] theorem State.modCopy_notices (k : Nat) (f : Copy → Copy) : (s.modCopy k f).notices = s.notices := rfl
@[simp] theorem State.modCopy_sentBlocks (k : Nat) (f : Copy → Copy) : (s.modCopy k f).sentBlocks = s.sentBlocks := rfl
@[simp] theorem State.modCopy_service (k : Nat) (f : Copy → Copy) : (s.modCopy k f).service = s.service := rfl
@[simp] theorem State.modCopy_trust (k : Nat) (f : Copy → Copy) : (s.modCopy k f).trust = s.trust := rfl
@[simp] theorem State.modCopy_irqs (k : Nat) (f : Copy → Copy) : (s.modCopy k f).irqs = s.irqs := rfl
@[simp] theorem State.modCopy_outbox (k : Nat) (f : Copy → Copy) : (s.modCopy k f).outbox = s.outbox := rfl
@[simp] theorem State.modCopy_charged (k : Nat) (f : Copy → Copy) : (s.modCopy k f).charged = s.charged := rfl
@[simp] theorem State.modCopy_responses (k : Nat) (f : Copy → Copy) : (s.modCopy k f).responses = s.responses := rfl
@[simp] theorem State.modCopy_corrected (k : Nat) (f : Copy → Copy) : (s.modCopy k f).corrected = s.corrected := rfl
@[simp] theorem State.modCopy_time (k : Nat) (f : Copy → Copy) : (s.modCopy k f).time = s.time := rfl
@[simp] theorem State.modCopy_cur (k : Nat) (f : Copy → Copy) : (s.modCopy k f).cur = s.cur := rfl
@[simp] theorem State.modCopy_agenda (k : Nat) (f : Copy → Copy) : (s.modCopy k f).agenda = s.agenda := rfl
@[simp] theorem State.modCopy_turn (k : Nat) (f : Copy → Copy) : (s.modCopy k f).turn = s.turn := rfl
@[simp] theorem State.modCopy_nextId (k : Nat) (f : Copy → Copy) : (s.modCopy k f).nextId = s.nextId := rfl
@[simp] theorem State.modCopy_free (k : Nat) (f : Copy → Copy) : (s.modCopy k f).free = s.free := rfl

/-! ### `setEngine` -/

@[simp] theorem State.setEngine_mem (k : Nat) (e : Engine) : (s.setEngine k e).mem = s.mem := rfl
@[simp] theorem State.setEngine_tags (k : Nat) (e : Engine) : (s.setEngine k e).tags = s.tags := rfl
@[simp] theorem State.setEngine_poison (k : Nat) (e : Engine) : (s.setEngine k e).poison = s.poison := rfl
@[simp] theorem State.setEngine_lineKey (k : Nat) (e : Engine) : (s.setEngine k e).lineKey = s.lineKey := rfl
@[simp] theorem State.setEngine_l1 (k : Nat) (e : Engine) : (s.setEngine k e).l1 = s.l1 := rfl
@[simp] theorem State.setEngine_tlb (k : Nat) (e : Engine) : (s.setEngine k e).tlb = s.tlb := rfl
@[simp] theorem State.setEngine_ents (k : Nat) (e : Engine) : (s.setEngine k e).ents = s.ents := rfl
@[simp] theorem State.setEngine_teams (k : Nat) (e : Engine) : (s.setEngine k e).teams = s.teams := rfl
@[simp] theorem State.setEngine_wgs (k : Nat) (e : Engine) : (s.setEngine k e).wgs = s.wgs := rfl
@[simp] theorem State.setEngine_clusters (k : Nat) (e : Engine) : (s.setEngine k e).clusters = s.clusters := rfl
@[simp] theorem State.setEngine_grids (k : Nat) (e : Engine) : (s.setEngine k e).grids = s.grids := rfl
@[simp] theorem State.setEngine_ops (k : Nat) (e : Engine) : (s.setEngine k e).ops = s.ops := rfl
@[simp] theorem State.setEngine_replay (k : Nat) (e : Engine) : (s.setEngine k e).replay = s.replay := rfl
@[simp] theorem State.setEngine_copies (k : Nat) (e : Engine) : (s.setEngine k e).copies = s.copies := rfl
@[simp] theorem State.setEngine_creds (k : Nat) (e : Engine) : (s.setEngine k e).creds = s.creds := rfl
@[simp] theorem State.setEngine_engines (k : Nat) (e : Engine) : (s.setEngine k e).engines = tabPut s.engines k e := rfl
@[simp] theorem State.setEngine_ctxs (k : Nat) (e : Engine) : (s.setEngine k e).ctxs = s.ctxs := rfl
@[simp] theorem State.setEngine_parts (k : Nat) (e : Engine) : (s.setEngine k e).parts = s.parts := rfl
@[simp] theorem State.setEngine_sem (k : Nat) (e : Engine) : (s.setEngine k e).sem = s.sem := rfl
@[simp] theorem State.setEngine_evPend (k : Nat) (e : Engine) : (s.setEngine k e).evPend = s.evPend := rfl
@[simp] theorem State.setEngine_evMask (k : Nat) (e : Engine) : (s.setEngine k e).evMask = s.evMask := rfl
@[simp] theorem State.setEngine_preTo (k : Nat) (e : Engine) : (s.setEngine k e).preTo = s.preTo := rfl
@[simp] theorem State.setEngine_hangLim (k : Nat) (e : Engine) : (s.setEngine k e).hangLim = s.hangLim := rfl
@[simp] theorem State.setEngine_rrCtx (k : Nat) (e : Engine) : (s.setEngine k e).rrCtx = s.rrCtx := rfl
@[simp] theorem State.setEngine_cols (k : Nat) (e : Engine) : (s.setEngine k e).cols = s.cols := rfl
@[simp] theorem State.setEngine_policy (k : Nat) (e : Engine) : (s.setEngine k e).policy = s.policy := rfl
@[simp] theorem State.setEngine_islands (k : Nat) (e : Engine) : (s.setEngine k e).islands = s.islands := rfl
@[simp] theorem State.setEngine_debug (k : Nat) (e : Engine) : (s.setEngine k e).debug = s.debug := rfl
@[simp] theorem State.setEngine_hists (k : Nat) (e : Engine) : (s.setEngine k e).hists = s.hists := rfl
@[simp] theorem State.setEngine_trace (k : Nat) (e : Engine) : (s.setEngine k e).trace = s.trace := rfl
@[simp] theorem State.setEngine_member (k : Nat) (e : Engine) : (s.setEngine k e).member = s.member := rfl
@[simp] theorem State.setEngine_routes (k : Nat) (e : Engine) : (s.setEngine k e).routes = s.routes := rfl
@[simp] theorem State.setEngine_linkEn (k : Nat) (e : Engine) : (s.setEngine k e).linkEn = s.linkEn := rfl
@[simp] theorem State.setEngine_links (k : Nat) (e : Engine) : (s.setEngine k e).links = s.links := rfl
@[simp] theorem State.setEngine_ports (k : Nat) (e : Engine) : (s.setEngine k e).ports = s.ports := rfl
@[simp] theorem State.setEngine_notices (k : Nat) (e : Engine) : (s.setEngine k e).notices = s.notices := rfl
@[simp] theorem State.setEngine_sentBlocks (k : Nat) (e : Engine) : (s.setEngine k e).sentBlocks = s.sentBlocks := rfl
@[simp] theorem State.setEngine_service (k : Nat) (e : Engine) : (s.setEngine k e).service = s.service := rfl
@[simp] theorem State.setEngine_trust (k : Nat) (e : Engine) : (s.setEngine k e).trust = s.trust := rfl
@[simp] theorem State.setEngine_irqs (k : Nat) (e : Engine) : (s.setEngine k e).irqs = s.irqs := rfl
@[simp] theorem State.setEngine_outbox (k : Nat) (e : Engine) : (s.setEngine k e).outbox = s.outbox := rfl
@[simp] theorem State.setEngine_charged (k : Nat) (e : Engine) : (s.setEngine k e).charged = s.charged := rfl
@[simp] theorem State.setEngine_responses (k : Nat) (e : Engine) : (s.setEngine k e).responses = s.responses := rfl
@[simp] theorem State.setEngine_corrected (k : Nat) (e : Engine) : (s.setEngine k e).corrected = s.corrected := rfl
@[simp] theorem State.setEngine_time (k : Nat) (e : Engine) : (s.setEngine k e).time = s.time := rfl
@[simp] theorem State.setEngine_cur (k : Nat) (e : Engine) : (s.setEngine k e).cur = s.cur := rfl
@[simp] theorem State.setEngine_agenda (k : Nat) (e : Engine) : (s.setEngine k e).agenda = s.agenda := rfl
@[simp] theorem State.setEngine_turn (k : Nat) (e : Engine) : (s.setEngine k e).turn = s.turn := rfl
@[simp] theorem State.setEngine_nextId (k : Nat) (e : Engine) : (s.setEngine k e).nextId = s.nextId := rfl
@[simp] theorem State.setEngine_free (k : Nat) (e : Engine) : (s.setEngine k e).free = s.free := rfl

/-! ### `modEngine` -/

@[simp] theorem State.modEngine_mem (k : Nat) (f : Engine → Engine) : (s.modEngine k f).mem = s.mem := rfl
@[simp] theorem State.modEngine_tags (k : Nat) (f : Engine → Engine) : (s.modEngine k f).tags = s.tags := rfl
@[simp] theorem State.modEngine_poison (k : Nat) (f : Engine → Engine) : (s.modEngine k f).poison = s.poison := rfl
@[simp] theorem State.modEngine_lineKey (k : Nat) (f : Engine → Engine) : (s.modEngine k f).lineKey = s.lineKey := rfl
@[simp] theorem State.modEngine_l1 (k : Nat) (f : Engine → Engine) : (s.modEngine k f).l1 = s.l1 := rfl
@[simp] theorem State.modEngine_tlb (k : Nat) (f : Engine → Engine) : (s.modEngine k f).tlb = s.tlb := rfl
@[simp] theorem State.modEngine_ents (k : Nat) (f : Engine → Engine) : (s.modEngine k f).ents = s.ents := rfl
@[simp] theorem State.modEngine_teams (k : Nat) (f : Engine → Engine) : (s.modEngine k f).teams = s.teams := rfl
@[simp] theorem State.modEngine_wgs (k : Nat) (f : Engine → Engine) : (s.modEngine k f).wgs = s.wgs := rfl
@[simp] theorem State.modEngine_clusters (k : Nat) (f : Engine → Engine) : (s.modEngine k f).clusters = s.clusters := rfl
@[simp] theorem State.modEngine_grids (k : Nat) (f : Engine → Engine) : (s.modEngine k f).grids = s.grids := rfl
@[simp] theorem State.modEngine_ops (k : Nat) (f : Engine → Engine) : (s.modEngine k f).ops = s.ops := rfl
@[simp] theorem State.modEngine_replay (k : Nat) (f : Engine → Engine) : (s.modEngine k f).replay = s.replay := rfl
@[simp] theorem State.modEngine_copies (k : Nat) (f : Engine → Engine) : (s.modEngine k f).copies = s.copies := rfl
@[simp] theorem State.modEngine_creds (k : Nat) (f : Engine → Engine) : (s.modEngine k f).creds = s.creds := rfl
@[simp] theorem State.modEngine_engines (k : Nat) (f : Engine → Engine) : (s.modEngine k f).engines = tabPut s.engines k (f (s.engine k)) := rfl
@[simp] theorem State.modEngine_ctxs (k : Nat) (f : Engine → Engine) : (s.modEngine k f).ctxs = s.ctxs := rfl
@[simp] theorem State.modEngine_parts (k : Nat) (f : Engine → Engine) : (s.modEngine k f).parts = s.parts := rfl
@[simp] theorem State.modEngine_sem (k : Nat) (f : Engine → Engine) : (s.modEngine k f).sem = s.sem := rfl
@[simp] theorem State.modEngine_evPend (k : Nat) (f : Engine → Engine) : (s.modEngine k f).evPend = s.evPend := rfl
@[simp] theorem State.modEngine_evMask (k : Nat) (f : Engine → Engine) : (s.modEngine k f).evMask = s.evMask := rfl
@[simp] theorem State.modEngine_preTo (k : Nat) (f : Engine → Engine) : (s.modEngine k f).preTo = s.preTo := rfl
@[simp] theorem State.modEngine_hangLim (k : Nat) (f : Engine → Engine) : (s.modEngine k f).hangLim = s.hangLim := rfl
@[simp] theorem State.modEngine_rrCtx (k : Nat) (f : Engine → Engine) : (s.modEngine k f).rrCtx = s.rrCtx := rfl
@[simp] theorem State.modEngine_cols (k : Nat) (f : Engine → Engine) : (s.modEngine k f).cols = s.cols := rfl
@[simp] theorem State.modEngine_policy (k : Nat) (f : Engine → Engine) : (s.modEngine k f).policy = s.policy := rfl
@[simp] theorem State.modEngine_islands (k : Nat) (f : Engine → Engine) : (s.modEngine k f).islands = s.islands := rfl
@[simp] theorem State.modEngine_debug (k : Nat) (f : Engine → Engine) : (s.modEngine k f).debug = s.debug := rfl
@[simp] theorem State.modEngine_hists (k : Nat) (f : Engine → Engine) : (s.modEngine k f).hists = s.hists := rfl
@[simp] theorem State.modEngine_trace (k : Nat) (f : Engine → Engine) : (s.modEngine k f).trace = s.trace := rfl
@[simp] theorem State.modEngine_member (k : Nat) (f : Engine → Engine) : (s.modEngine k f).member = s.member := rfl
@[simp] theorem State.modEngine_routes (k : Nat) (f : Engine → Engine) : (s.modEngine k f).routes = s.routes := rfl
@[simp] theorem State.modEngine_linkEn (k : Nat) (f : Engine → Engine) : (s.modEngine k f).linkEn = s.linkEn := rfl
@[simp] theorem State.modEngine_links (k : Nat) (f : Engine → Engine) : (s.modEngine k f).links = s.links := rfl
@[simp] theorem State.modEngine_ports (k : Nat) (f : Engine → Engine) : (s.modEngine k f).ports = s.ports := rfl
@[simp] theorem State.modEngine_notices (k : Nat) (f : Engine → Engine) : (s.modEngine k f).notices = s.notices := rfl
@[simp] theorem State.modEngine_sentBlocks (k : Nat) (f : Engine → Engine) : (s.modEngine k f).sentBlocks = s.sentBlocks := rfl
@[simp] theorem State.modEngine_service (k : Nat) (f : Engine → Engine) : (s.modEngine k f).service = s.service := rfl
@[simp] theorem State.modEngine_trust (k : Nat) (f : Engine → Engine) : (s.modEngine k f).trust = s.trust := rfl
@[simp] theorem State.modEngine_irqs (k : Nat) (f : Engine → Engine) : (s.modEngine k f).irqs = s.irqs := rfl
@[simp] theorem State.modEngine_outbox (k : Nat) (f : Engine → Engine) : (s.modEngine k f).outbox = s.outbox := rfl
@[simp] theorem State.modEngine_charged (k : Nat) (f : Engine → Engine) : (s.modEngine k f).charged = s.charged := rfl
@[simp] theorem State.modEngine_responses (k : Nat) (f : Engine → Engine) : (s.modEngine k f).responses = s.responses := rfl
@[simp] theorem State.modEngine_corrected (k : Nat) (f : Engine → Engine) : (s.modEngine k f).corrected = s.corrected := rfl
@[simp] theorem State.modEngine_time (k : Nat) (f : Engine → Engine) : (s.modEngine k f).time = s.time := rfl
@[simp] theorem State.modEngine_cur (k : Nat) (f : Engine → Engine) : (s.modEngine k f).cur = s.cur := rfl
@[simp] theorem State.modEngine_agenda (k : Nat) (f : Engine → Engine) : (s.modEngine k f).agenda = s.agenda := rfl
@[simp] theorem State.modEngine_turn (k : Nat) (f : Engine → Engine) : (s.modEngine k f).turn = s.turn := rfl
@[simp] theorem State.modEngine_nextId (k : Nat) (f : Engine → Engine) : (s.modEngine k f).nextId = s.nextId := rfl
@[simp] theorem State.modEngine_free (k : Nat) (f : Engine → Engine) : (s.modEngine k f).free = s.free := rfl

/-! ### `modColumn` -/

@[simp] theorem State.modColumn_mem (k : Nat) (f : Column → Column) : (s.modColumn k f).mem = s.mem := rfl
@[simp] theorem State.modColumn_tags (k : Nat) (f : Column → Column) : (s.modColumn k f).tags = s.tags := rfl
@[simp] theorem State.modColumn_poison (k : Nat) (f : Column → Column) : (s.modColumn k f).poison = s.poison := rfl
@[simp] theorem State.modColumn_lineKey (k : Nat) (f : Column → Column) : (s.modColumn k f).lineKey = s.lineKey := rfl
@[simp] theorem State.modColumn_l1 (k : Nat) (f : Column → Column) : (s.modColumn k f).l1 = s.l1 := rfl
@[simp] theorem State.modColumn_tlb (k : Nat) (f : Column → Column) : (s.modColumn k f).tlb = s.tlb := rfl
@[simp] theorem State.modColumn_ents (k : Nat) (f : Column → Column) : (s.modColumn k f).ents = s.ents := rfl
@[simp] theorem State.modColumn_teams (k : Nat) (f : Column → Column) : (s.modColumn k f).teams = s.teams := rfl
@[simp] theorem State.modColumn_wgs (k : Nat) (f : Column → Column) : (s.modColumn k f).wgs = s.wgs := rfl
@[simp] theorem State.modColumn_clusters (k : Nat) (f : Column → Column) : (s.modColumn k f).clusters = s.clusters := rfl
@[simp] theorem State.modColumn_grids (k : Nat) (f : Column → Column) : (s.modColumn k f).grids = s.grids := rfl
@[simp] theorem State.modColumn_ops (k : Nat) (f : Column → Column) : (s.modColumn k f).ops = s.ops := rfl
@[simp] theorem State.modColumn_replay (k : Nat) (f : Column → Column) : (s.modColumn k f).replay = s.replay := rfl
@[simp] theorem State.modColumn_copies (k : Nat) (f : Column → Column) : (s.modColumn k f).copies = s.copies := rfl
@[simp] theorem State.modColumn_creds (k : Nat) (f : Column → Column) : (s.modColumn k f).creds = s.creds := rfl
@[simp] theorem State.modColumn_engines (k : Nat) (f : Column → Column) : (s.modColumn k f).engines = s.engines := rfl
@[simp] theorem State.modColumn_ctxs (k : Nat) (f : Column → Column) : (s.modColumn k f).ctxs = s.ctxs := rfl
@[simp] theorem State.modColumn_parts (k : Nat) (f : Column → Column) : (s.modColumn k f).parts = s.parts := rfl
@[simp] theorem State.modColumn_sem (k : Nat) (f : Column → Column) : (s.modColumn k f).sem = s.sem := rfl
@[simp] theorem State.modColumn_evPend (k : Nat) (f : Column → Column) : (s.modColumn k f).evPend = s.evPend := rfl
@[simp] theorem State.modColumn_evMask (k : Nat) (f : Column → Column) : (s.modColumn k f).evMask = s.evMask := rfl
@[simp] theorem State.modColumn_preTo (k : Nat) (f : Column → Column) : (s.modColumn k f).preTo = s.preTo := rfl
@[simp] theorem State.modColumn_hangLim (k : Nat) (f : Column → Column) : (s.modColumn k f).hangLim = s.hangLim := rfl
@[simp] theorem State.modColumn_rrCtx (k : Nat) (f : Column → Column) : (s.modColumn k f).rrCtx = s.rrCtx := rfl
@[simp] theorem State.modColumn_cols (k : Nat) (f : Column → Column) : (s.modColumn k f).cols = tabPut s.cols k (f (s.column k)) := rfl
@[simp] theorem State.modColumn_policy (k : Nat) (f : Column → Column) : (s.modColumn k f).policy = s.policy := rfl
@[simp] theorem State.modColumn_islands (k : Nat) (f : Column → Column) : (s.modColumn k f).islands = s.islands := rfl
@[simp] theorem State.modColumn_debug (k : Nat) (f : Column → Column) : (s.modColumn k f).debug = s.debug := rfl
@[simp] theorem State.modColumn_hists (k : Nat) (f : Column → Column) : (s.modColumn k f).hists = s.hists := rfl
@[simp] theorem State.modColumn_trace (k : Nat) (f : Column → Column) : (s.modColumn k f).trace = s.trace := rfl
@[simp] theorem State.modColumn_member (k : Nat) (f : Column → Column) : (s.modColumn k f).member = s.member := rfl
@[simp] theorem State.modColumn_routes (k : Nat) (f : Column → Column) : (s.modColumn k f).routes = s.routes := rfl
@[simp] theorem State.modColumn_linkEn (k : Nat) (f : Column → Column) : (s.modColumn k f).linkEn = s.linkEn := rfl
@[simp] theorem State.modColumn_links (k : Nat) (f : Column → Column) : (s.modColumn k f).links = s.links := rfl
@[simp] theorem State.modColumn_ports (k : Nat) (f : Column → Column) : (s.modColumn k f).ports = s.ports := rfl
@[simp] theorem State.modColumn_notices (k : Nat) (f : Column → Column) : (s.modColumn k f).notices = s.notices := rfl
@[simp] theorem State.modColumn_sentBlocks (k : Nat) (f : Column → Column) : (s.modColumn k f).sentBlocks = s.sentBlocks := rfl
@[simp] theorem State.modColumn_service (k : Nat) (f : Column → Column) : (s.modColumn k f).service = s.service := rfl
@[simp] theorem State.modColumn_trust (k : Nat) (f : Column → Column) : (s.modColumn k f).trust = s.trust := rfl
@[simp] theorem State.modColumn_irqs (k : Nat) (f : Column → Column) : (s.modColumn k f).irqs = s.irqs := rfl
@[simp] theorem State.modColumn_outbox (k : Nat) (f : Column → Column) : (s.modColumn k f).outbox = s.outbox := rfl
@[simp] theorem State.modColumn_charged (k : Nat) (f : Column → Column) : (s.modColumn k f).charged = s.charged := rfl
@[simp] theorem State.modColumn_responses (k : Nat) (f : Column → Column) : (s.modColumn k f).responses = s.responses := rfl
@[simp] theorem State.modColumn_corrected (k : Nat) (f : Column → Column) : (s.modColumn k f).corrected = s.corrected := rfl
@[simp] theorem State.modColumn_time (k : Nat) (f : Column → Column) : (s.modColumn k f).time = s.time := rfl
@[simp] theorem State.modColumn_cur (k : Nat) (f : Column → Column) : (s.modColumn k f).cur = s.cur := rfl
@[simp] theorem State.modColumn_agenda (k : Nat) (f : Column → Column) : (s.modColumn k f).agenda = s.agenda := rfl
@[simp] theorem State.modColumn_turn (k : Nat) (f : Column → Column) : (s.modColumn k f).turn = s.turn := rfl
@[simp] theorem State.modColumn_nextId (k : Nat) (f : Column → Column) : (s.modColumn k f).nextId = s.nextId := rfl
@[simp] theorem State.modColumn_free (k : Nat) (f : Column → Column) : (s.modColumn k f).free = s.free := rfl

/-! ### `modIsland` -/

@[simp] theorem State.modIsland_mem (k : Nat) (f : Island → Island) : (s.modIsland k f).mem = s.mem := rfl
@[simp] theorem State.modIsland_tags (k : Nat) (f : Island → Island) : (s.modIsland k f).tags = s.tags := rfl
@[simp] theorem State.modIsland_poison (k : Nat) (f : Island → Island) : (s.modIsland k f).poison = s.poison := rfl
@[simp] theorem State.modIsland_lineKey (k : Nat) (f : Island → Island) : (s.modIsland k f).lineKey = s.lineKey := rfl
@[simp] theorem State.modIsland_l1 (k : Nat) (f : Island → Island) : (s.modIsland k f).l1 = s.l1 := rfl
@[simp] theorem State.modIsland_tlb (k : Nat) (f : Island → Island) : (s.modIsland k f).tlb = s.tlb := rfl
@[simp] theorem State.modIsland_ents (k : Nat) (f : Island → Island) : (s.modIsland k f).ents = s.ents := rfl
@[simp] theorem State.modIsland_teams (k : Nat) (f : Island → Island) : (s.modIsland k f).teams = s.teams := rfl
@[simp] theorem State.modIsland_wgs (k : Nat) (f : Island → Island) : (s.modIsland k f).wgs = s.wgs := rfl
@[simp] theorem State.modIsland_clusters (k : Nat) (f : Island → Island) : (s.modIsland k f).clusters = s.clusters := rfl
@[simp] theorem State.modIsland_grids (k : Nat) (f : Island → Island) : (s.modIsland k f).grids = s.grids := rfl
@[simp] theorem State.modIsland_ops (k : Nat) (f : Island → Island) : (s.modIsland k f).ops = s.ops := rfl
@[simp] theorem State.modIsland_replay (k : Nat) (f : Island → Island) : (s.modIsland k f).replay = s.replay := rfl
@[simp] theorem State.modIsland_copies (k : Nat) (f : Island → Island) : (s.modIsland k f).copies = s.copies := rfl
@[simp] theorem State.modIsland_creds (k : Nat) (f : Island → Island) : (s.modIsland k f).creds = s.creds := rfl
@[simp] theorem State.modIsland_engines (k : Nat) (f : Island → Island) : (s.modIsland k f).engines = s.engines := rfl
@[simp] theorem State.modIsland_ctxs (k : Nat) (f : Island → Island) : (s.modIsland k f).ctxs = s.ctxs := rfl
@[simp] theorem State.modIsland_parts (k : Nat) (f : Island → Island) : (s.modIsland k f).parts = s.parts := rfl
@[simp] theorem State.modIsland_sem (k : Nat) (f : Island → Island) : (s.modIsland k f).sem = s.sem := rfl
@[simp] theorem State.modIsland_evPend (k : Nat) (f : Island → Island) : (s.modIsland k f).evPend = s.evPend := rfl
@[simp] theorem State.modIsland_evMask (k : Nat) (f : Island → Island) : (s.modIsland k f).evMask = s.evMask := rfl
@[simp] theorem State.modIsland_preTo (k : Nat) (f : Island → Island) : (s.modIsland k f).preTo = s.preTo := rfl
@[simp] theorem State.modIsland_hangLim (k : Nat) (f : Island → Island) : (s.modIsland k f).hangLim = s.hangLim := rfl
@[simp] theorem State.modIsland_rrCtx (k : Nat) (f : Island → Island) : (s.modIsland k f).rrCtx = s.rrCtx := rfl
@[simp] theorem State.modIsland_cols (k : Nat) (f : Island → Island) : (s.modIsland k f).cols = s.cols := rfl
@[simp] theorem State.modIsland_policy (k : Nat) (f : Island → Island) : (s.modIsland k f).policy = s.policy := rfl
@[simp] theorem State.modIsland_islands (k : Nat) (f : Island → Island) : (s.modIsland k f).islands = tabPut s.islands k (f (s.island k)) := rfl
@[simp] theorem State.modIsland_debug (k : Nat) (f : Island → Island) : (s.modIsland k f).debug = s.debug := rfl
@[simp] theorem State.modIsland_hists (k : Nat) (f : Island → Island) : (s.modIsland k f).hists = s.hists := rfl
@[simp] theorem State.modIsland_trace (k : Nat) (f : Island → Island) : (s.modIsland k f).trace = s.trace := rfl
@[simp] theorem State.modIsland_member (k : Nat) (f : Island → Island) : (s.modIsland k f).member = s.member := rfl
@[simp] theorem State.modIsland_routes (k : Nat) (f : Island → Island) : (s.modIsland k f).routes = s.routes := rfl
@[simp] theorem State.modIsland_linkEn (k : Nat) (f : Island → Island) : (s.modIsland k f).linkEn = s.linkEn := rfl
@[simp] theorem State.modIsland_links (k : Nat) (f : Island → Island) : (s.modIsland k f).links = s.links := rfl
@[simp] theorem State.modIsland_ports (k : Nat) (f : Island → Island) : (s.modIsland k f).ports = s.ports := rfl
@[simp] theorem State.modIsland_notices (k : Nat) (f : Island → Island) : (s.modIsland k f).notices = s.notices := rfl
@[simp] theorem State.modIsland_sentBlocks (k : Nat) (f : Island → Island) : (s.modIsland k f).sentBlocks = s.sentBlocks := rfl
@[simp] theorem State.modIsland_service (k : Nat) (f : Island → Island) : (s.modIsland k f).service = s.service := rfl
@[simp] theorem State.modIsland_trust (k : Nat) (f : Island → Island) : (s.modIsland k f).trust = s.trust := rfl
@[simp] theorem State.modIsland_irqs (k : Nat) (f : Island → Island) : (s.modIsland k f).irqs = s.irqs := rfl
@[simp] theorem State.modIsland_outbox (k : Nat) (f : Island → Island) : (s.modIsland k f).outbox = s.outbox := rfl
@[simp] theorem State.modIsland_charged (k : Nat) (f : Island → Island) : (s.modIsland k f).charged = s.charged := rfl
@[simp] theorem State.modIsland_responses (k : Nat) (f : Island → Island) : (s.modIsland k f).responses = s.responses := rfl
@[simp] theorem State.modIsland_corrected (k : Nat) (f : Island → Island) : (s.modIsland k f).corrected = s.corrected := rfl
@[simp] theorem State.modIsland_time (k : Nat) (f : Island → Island) : (s.modIsland k f).time = s.time := rfl
@[simp] theorem State.modIsland_cur (k : Nat) (f : Island → Island) : (s.modIsland k f).cur = s.cur := rfl
@[simp] theorem State.modIsland_agenda (k : Nat) (f : Island → Island) : (s.modIsland k f).agenda = s.agenda := rfl
@[simp] theorem State.modIsland_turn (k : Nat) (f : Island → Island) : (s.modIsland k f).turn = s.turn := rfl
@[simp] theorem State.modIsland_nextId (k : Nat) (f : Island → Island) : (s.modIsland k f).nextId = s.nextId := rfl
@[simp] theorem State.modIsland_free (k : Nat) (f : Island → Island) : (s.modIsland k f).free = s.free := rfl

/-! ### `modWindow` -/

@[simp] theorem State.modWindow_mem (k : Nat) (f : DebugWindow → DebugWindow) : (s.modWindow k f).mem = s.mem := rfl
@[simp] theorem State.modWindow_tags (k : Nat) (f : DebugWindow → DebugWindow) : (s.modWindow k f).tags = s.tags := rfl
@[simp] theorem State.modWindow_poison (k : Nat) (f : DebugWindow → DebugWindow) : (s.modWindow k f).poison = s.poison := rfl
@[simp] theorem State.modWindow_lineKey (k : Nat) (f : DebugWindow → DebugWindow) : (s.modWindow k f).lineKey = s.lineKey := rfl
@[simp] theorem State.modWindow_l1 (k : Nat) (f : DebugWindow → DebugWindow) : (s.modWindow k f).l1 = s.l1 := rfl
@[simp] theorem State.modWindow_tlb (k : Nat) (f : DebugWindow → DebugWindow) : (s.modWindow k f).tlb = s.tlb := rfl
@[simp] theorem State.modWindow_ents (k : Nat) (f : DebugWindow → DebugWindow) : (s.modWindow k f).ents = s.ents := rfl
@[simp] theorem State.modWindow_teams (k : Nat) (f : DebugWindow → DebugWindow) : (s.modWindow k f).teams = s.teams := rfl
@[simp] theorem State.modWindow_wgs (k : Nat) (f : DebugWindow → DebugWindow) : (s.modWindow k f).wgs = s.wgs := rfl
@[simp] theorem State.modWindow_clusters (k : Nat) (f : DebugWindow → DebugWindow) : (s.modWindow k f).clusters = s.clusters := rfl
@[simp] theorem State.modWindow_grids (k : Nat) (f : DebugWindow → DebugWindow) : (s.modWindow k f).grids = s.grids := rfl
@[simp] theorem State.modWindow_ops (k : Nat) (f : DebugWindow → DebugWindow) : (s.modWindow k f).ops = s.ops := rfl
@[simp] theorem State.modWindow_replay (k : Nat) (f : DebugWindow → DebugWindow) : (s.modWindow k f).replay = s.replay := rfl
@[simp] theorem State.modWindow_copies (k : Nat) (f : DebugWindow → DebugWindow) : (s.modWindow k f).copies = s.copies := rfl
@[simp] theorem State.modWindow_creds (k : Nat) (f : DebugWindow → DebugWindow) : (s.modWindow k f).creds = s.creds := rfl
@[simp] theorem State.modWindow_engines (k : Nat) (f : DebugWindow → DebugWindow) : (s.modWindow k f).engines = s.engines := rfl
@[simp] theorem State.modWindow_ctxs (k : Nat) (f : DebugWindow → DebugWindow) : (s.modWindow k f).ctxs = s.ctxs := rfl
@[simp] theorem State.modWindow_parts (k : Nat) (f : DebugWindow → DebugWindow) : (s.modWindow k f).parts = s.parts := rfl
@[simp] theorem State.modWindow_sem (k : Nat) (f : DebugWindow → DebugWindow) : (s.modWindow k f).sem = s.sem := rfl
@[simp] theorem State.modWindow_evPend (k : Nat) (f : DebugWindow → DebugWindow) : (s.modWindow k f).evPend = s.evPend := rfl
@[simp] theorem State.modWindow_evMask (k : Nat) (f : DebugWindow → DebugWindow) : (s.modWindow k f).evMask = s.evMask := rfl
@[simp] theorem State.modWindow_preTo (k : Nat) (f : DebugWindow → DebugWindow) : (s.modWindow k f).preTo = s.preTo := rfl
@[simp] theorem State.modWindow_hangLim (k : Nat) (f : DebugWindow → DebugWindow) : (s.modWindow k f).hangLim = s.hangLim := rfl
@[simp] theorem State.modWindow_rrCtx (k : Nat) (f : DebugWindow → DebugWindow) : (s.modWindow k f).rrCtx = s.rrCtx := rfl
@[simp] theorem State.modWindow_cols (k : Nat) (f : DebugWindow → DebugWindow) : (s.modWindow k f).cols = s.cols := rfl
@[simp] theorem State.modWindow_policy (k : Nat) (f : DebugWindow → DebugWindow) : (s.modWindow k f).policy = s.policy := rfl
@[simp] theorem State.modWindow_islands (k : Nat) (f : DebugWindow → DebugWindow) : (s.modWindow k f).islands = s.islands := rfl
@[simp] theorem State.modWindow_debug (k : Nat) (f : DebugWindow → DebugWindow) : (s.modWindow k f).debug = tabPut s.debug k (f (s.window k)) := rfl
@[simp] theorem State.modWindow_hists (k : Nat) (f : DebugWindow → DebugWindow) : (s.modWindow k f).hists = s.hists := rfl
@[simp] theorem State.modWindow_trace (k : Nat) (f : DebugWindow → DebugWindow) : (s.modWindow k f).trace = s.trace := rfl
@[simp] theorem State.modWindow_member (k : Nat) (f : DebugWindow → DebugWindow) : (s.modWindow k f).member = s.member := rfl
@[simp] theorem State.modWindow_routes (k : Nat) (f : DebugWindow → DebugWindow) : (s.modWindow k f).routes = s.routes := rfl
@[simp] theorem State.modWindow_linkEn (k : Nat) (f : DebugWindow → DebugWindow) : (s.modWindow k f).linkEn = s.linkEn := rfl
@[simp] theorem State.modWindow_links (k : Nat) (f : DebugWindow → DebugWindow) : (s.modWindow k f).links = s.links := rfl
@[simp] theorem State.modWindow_ports (k : Nat) (f : DebugWindow → DebugWindow) : (s.modWindow k f).ports = s.ports := rfl
@[simp] theorem State.modWindow_notices (k : Nat) (f : DebugWindow → DebugWindow) : (s.modWindow k f).notices = s.notices := rfl
@[simp] theorem State.modWindow_sentBlocks (k : Nat) (f : DebugWindow → DebugWindow) : (s.modWindow k f).sentBlocks = s.sentBlocks := rfl
@[simp] theorem State.modWindow_service (k : Nat) (f : DebugWindow → DebugWindow) : (s.modWindow k f).service = s.service := rfl
@[simp] theorem State.modWindow_trust (k : Nat) (f : DebugWindow → DebugWindow) : (s.modWindow k f).trust = s.trust := rfl
@[simp] theorem State.modWindow_irqs (k : Nat) (f : DebugWindow → DebugWindow) : (s.modWindow k f).irqs = s.irqs := rfl
@[simp] theorem State.modWindow_outbox (k : Nat) (f : DebugWindow → DebugWindow) : (s.modWindow k f).outbox = s.outbox := rfl
@[simp] theorem State.modWindow_charged (k : Nat) (f : DebugWindow → DebugWindow) : (s.modWindow k f).charged = s.charged := rfl
@[simp] theorem State.modWindow_responses (k : Nat) (f : DebugWindow → DebugWindow) : (s.modWindow k f).responses = s.responses := rfl
@[simp] theorem State.modWindow_corrected (k : Nat) (f : DebugWindow → DebugWindow) : (s.modWindow k f).corrected = s.corrected := rfl
@[simp] theorem State.modWindow_time (k : Nat) (f : DebugWindow → DebugWindow) : (s.modWindow k f).time = s.time := rfl
@[simp] theorem State.modWindow_cur (k : Nat) (f : DebugWindow → DebugWindow) : (s.modWindow k f).cur = s.cur := rfl
@[simp] theorem State.modWindow_agenda (k : Nat) (f : DebugWindow → DebugWindow) : (s.modWindow k f).agenda = s.agenda := rfl
@[simp] theorem State.modWindow_turn (k : Nat) (f : DebugWindow → DebugWindow) : (s.modWindow k f).turn = s.turn := rfl
@[simp] theorem State.modWindow_nextId (k : Nat) (f : DebugWindow → DebugWindow) : (s.modWindow k f).nextId = s.nextId := rfl
@[simp] theorem State.modWindow_free (k : Nat) (f : DebugWindow → DebugWindow) : (s.modWindow k f).free = s.free := rfl

/-! ### `setCtx` -/

@[simp] theorem State.setCtx_mem (k : Nat) (x : Ctx) : (s.setCtx k x).mem = s.mem := rfl
@[simp] theorem State.setCtx_tags (k : Nat) (x : Ctx) : (s.setCtx k x).tags = s.tags := rfl
@[simp] theorem State.setCtx_poison (k : Nat) (x : Ctx) : (s.setCtx k x).poison = s.poison := rfl
@[simp] theorem State.setCtx_lineKey (k : Nat) (x : Ctx) : (s.setCtx k x).lineKey = s.lineKey := rfl
@[simp] theorem State.setCtx_l1 (k : Nat) (x : Ctx) : (s.setCtx k x).l1 = s.l1 := rfl
@[simp] theorem State.setCtx_tlb (k : Nat) (x : Ctx) : (s.setCtx k x).tlb = s.tlb := rfl
@[simp] theorem State.setCtx_ents (k : Nat) (x : Ctx) : (s.setCtx k x).ents = s.ents := rfl
@[simp] theorem State.setCtx_teams (k : Nat) (x : Ctx) : (s.setCtx k x).teams = s.teams := rfl
@[simp] theorem State.setCtx_wgs (k : Nat) (x : Ctx) : (s.setCtx k x).wgs = s.wgs := rfl
@[simp] theorem State.setCtx_clusters (k : Nat) (x : Ctx) : (s.setCtx k x).clusters = s.clusters := rfl
@[simp] theorem State.setCtx_grids (k : Nat) (x : Ctx) : (s.setCtx k x).grids = s.grids := rfl
@[simp] theorem State.setCtx_ops (k : Nat) (x : Ctx) : (s.setCtx k x).ops = s.ops := rfl
@[simp] theorem State.setCtx_replay (k : Nat) (x : Ctx) : (s.setCtx k x).replay = s.replay := rfl
@[simp] theorem State.setCtx_copies (k : Nat) (x : Ctx) : (s.setCtx k x).copies = s.copies := rfl
@[simp] theorem State.setCtx_creds (k : Nat) (x : Ctx) : (s.setCtx k x).creds = s.creds := rfl
@[simp] theorem State.setCtx_engines (k : Nat) (x : Ctx) : (s.setCtx k x).engines = s.engines := rfl
@[simp] theorem State.setCtx_ctxs (k : Nat) (x : Ctx) : (s.setCtx k x).ctxs = tabPut s.ctxs k x := rfl
@[simp] theorem State.setCtx_parts (k : Nat) (x : Ctx) : (s.setCtx k x).parts = s.parts := rfl
@[simp] theorem State.setCtx_sem (k : Nat) (x : Ctx) : (s.setCtx k x).sem = s.sem := rfl
@[simp] theorem State.setCtx_evPend (k : Nat) (x : Ctx) : (s.setCtx k x).evPend = s.evPend := rfl
@[simp] theorem State.setCtx_evMask (k : Nat) (x : Ctx) : (s.setCtx k x).evMask = s.evMask := rfl
@[simp] theorem State.setCtx_preTo (k : Nat) (x : Ctx) : (s.setCtx k x).preTo = s.preTo := rfl
@[simp] theorem State.setCtx_hangLim (k : Nat) (x : Ctx) : (s.setCtx k x).hangLim = s.hangLim := rfl
@[simp] theorem State.setCtx_rrCtx (k : Nat) (x : Ctx) : (s.setCtx k x).rrCtx = s.rrCtx := rfl
@[simp] theorem State.setCtx_cols (k : Nat) (x : Ctx) : (s.setCtx k x).cols = s.cols := rfl
@[simp] theorem State.setCtx_policy (k : Nat) (x : Ctx) : (s.setCtx k x).policy = s.policy := rfl
@[simp] theorem State.setCtx_islands (k : Nat) (x : Ctx) : (s.setCtx k x).islands = s.islands := rfl
@[simp] theorem State.setCtx_debug (k : Nat) (x : Ctx) : (s.setCtx k x).debug = s.debug := rfl
@[simp] theorem State.setCtx_hists (k : Nat) (x : Ctx) : (s.setCtx k x).hists = s.hists := rfl
@[simp] theorem State.setCtx_trace (k : Nat) (x : Ctx) : (s.setCtx k x).trace = s.trace := rfl
@[simp] theorem State.setCtx_member (k : Nat) (x : Ctx) : (s.setCtx k x).member = s.member := rfl
@[simp] theorem State.setCtx_routes (k : Nat) (x : Ctx) : (s.setCtx k x).routes = s.routes := rfl
@[simp] theorem State.setCtx_linkEn (k : Nat) (x : Ctx) : (s.setCtx k x).linkEn = s.linkEn := rfl
@[simp] theorem State.setCtx_links (k : Nat) (x : Ctx) : (s.setCtx k x).links = s.links := rfl
@[simp] theorem State.setCtx_ports (k : Nat) (x : Ctx) : (s.setCtx k x).ports = s.ports := rfl
@[simp] theorem State.setCtx_notices (k : Nat) (x : Ctx) : (s.setCtx k x).notices = s.notices := rfl
@[simp] theorem State.setCtx_sentBlocks (k : Nat) (x : Ctx) : (s.setCtx k x).sentBlocks = s.sentBlocks := rfl
@[simp] theorem State.setCtx_service (k : Nat) (x : Ctx) : (s.setCtx k x).service = s.service := rfl
@[simp] theorem State.setCtx_trust (k : Nat) (x : Ctx) : (s.setCtx k x).trust = s.trust := rfl
@[simp] theorem State.setCtx_irqs (k : Nat) (x : Ctx) : (s.setCtx k x).irqs = s.irqs := rfl
@[simp] theorem State.setCtx_outbox (k : Nat) (x : Ctx) : (s.setCtx k x).outbox = s.outbox := rfl
@[simp] theorem State.setCtx_charged (k : Nat) (x : Ctx) : (s.setCtx k x).charged = s.charged := rfl
@[simp] theorem State.setCtx_responses (k : Nat) (x : Ctx) : (s.setCtx k x).responses = s.responses := rfl
@[simp] theorem State.setCtx_corrected (k : Nat) (x : Ctx) : (s.setCtx k x).corrected = s.corrected := rfl
@[simp] theorem State.setCtx_time (k : Nat) (x : Ctx) : (s.setCtx k x).time = s.time := rfl
@[simp] theorem State.setCtx_cur (k : Nat) (x : Ctx) : (s.setCtx k x).cur = s.cur := rfl
@[simp] theorem State.setCtx_agenda (k : Nat) (x : Ctx) : (s.setCtx k x).agenda = s.agenda := rfl
@[simp] theorem State.setCtx_turn (k : Nat) (x : Ctx) : (s.setCtx k x).turn = s.turn := rfl
@[simp] theorem State.setCtx_nextId (k : Nat) (x : Ctx) : (s.setCtx k x).nextId = s.nextId := rfl
@[simp] theorem State.setCtx_free (k : Nat) (x : Ctx) : (s.setCtx k x).free = s.free := rfl

/-! ### `modCtx` -/

@[simp] theorem State.modCtx_mem (k : Nat) (f : Ctx → Ctx) : (s.modCtx k f).mem = s.mem := rfl
@[simp] theorem State.modCtx_tags (k : Nat) (f : Ctx → Ctx) : (s.modCtx k f).tags = s.tags := rfl
@[simp] theorem State.modCtx_poison (k : Nat) (f : Ctx → Ctx) : (s.modCtx k f).poison = s.poison := rfl
@[simp] theorem State.modCtx_lineKey (k : Nat) (f : Ctx → Ctx) : (s.modCtx k f).lineKey = s.lineKey := rfl
@[simp] theorem State.modCtx_l1 (k : Nat) (f : Ctx → Ctx) : (s.modCtx k f).l1 = s.l1 := rfl
@[simp] theorem State.modCtx_tlb (k : Nat) (f : Ctx → Ctx) : (s.modCtx k f).tlb = s.tlb := rfl
@[simp] theorem State.modCtx_ents (k : Nat) (f : Ctx → Ctx) : (s.modCtx k f).ents = s.ents := rfl
@[simp] theorem State.modCtx_teams (k : Nat) (f : Ctx → Ctx) : (s.modCtx k f).teams = s.teams := rfl
@[simp] theorem State.modCtx_wgs (k : Nat) (f : Ctx → Ctx) : (s.modCtx k f).wgs = s.wgs := rfl
@[simp] theorem State.modCtx_clusters (k : Nat) (f : Ctx → Ctx) : (s.modCtx k f).clusters = s.clusters := rfl
@[simp] theorem State.modCtx_grids (k : Nat) (f : Ctx → Ctx) : (s.modCtx k f).grids = s.grids := rfl
@[simp] theorem State.modCtx_ops (k : Nat) (f : Ctx → Ctx) : (s.modCtx k f).ops = s.ops := rfl
@[simp] theorem State.modCtx_replay (k : Nat) (f : Ctx → Ctx) : (s.modCtx k f).replay = s.replay := rfl
@[simp] theorem State.modCtx_copies (k : Nat) (f : Ctx → Ctx) : (s.modCtx k f).copies = s.copies := rfl
@[simp] theorem State.modCtx_creds (k : Nat) (f : Ctx → Ctx) : (s.modCtx k f).creds = s.creds := rfl
@[simp] theorem State.modCtx_engines (k : Nat) (f : Ctx → Ctx) : (s.modCtx k f).engines = s.engines := rfl
@[simp] theorem State.modCtx_ctxs (k : Nat) (f : Ctx → Ctx) : (s.modCtx k f).ctxs = tabPut s.ctxs k (f (s.ctx k)) := rfl
@[simp] theorem State.modCtx_parts (k : Nat) (f : Ctx → Ctx) : (s.modCtx k f).parts = s.parts := rfl
@[simp] theorem State.modCtx_sem (k : Nat) (f : Ctx → Ctx) : (s.modCtx k f).sem = s.sem := rfl
@[simp] theorem State.modCtx_evPend (k : Nat) (f : Ctx → Ctx) : (s.modCtx k f).evPend = s.evPend := rfl
@[simp] theorem State.modCtx_evMask (k : Nat) (f : Ctx → Ctx) : (s.modCtx k f).evMask = s.evMask := rfl
@[simp] theorem State.modCtx_preTo (k : Nat) (f : Ctx → Ctx) : (s.modCtx k f).preTo = s.preTo := rfl
@[simp] theorem State.modCtx_hangLim (k : Nat) (f : Ctx → Ctx) : (s.modCtx k f).hangLim = s.hangLim := rfl
@[simp] theorem State.modCtx_rrCtx (k : Nat) (f : Ctx → Ctx) : (s.modCtx k f).rrCtx = s.rrCtx := rfl
@[simp] theorem State.modCtx_cols (k : Nat) (f : Ctx → Ctx) : (s.modCtx k f).cols = s.cols := rfl
@[simp] theorem State.modCtx_policy (k : Nat) (f : Ctx → Ctx) : (s.modCtx k f).policy = s.policy := rfl
@[simp] theorem State.modCtx_islands (k : Nat) (f : Ctx → Ctx) : (s.modCtx k f).islands = s.islands := rfl
@[simp] theorem State.modCtx_debug (k : Nat) (f : Ctx → Ctx) : (s.modCtx k f).debug = s.debug := rfl
@[simp] theorem State.modCtx_hists (k : Nat) (f : Ctx → Ctx) : (s.modCtx k f).hists = s.hists := rfl
@[simp] theorem State.modCtx_trace (k : Nat) (f : Ctx → Ctx) : (s.modCtx k f).trace = s.trace := rfl
@[simp] theorem State.modCtx_member (k : Nat) (f : Ctx → Ctx) : (s.modCtx k f).member = s.member := rfl
@[simp] theorem State.modCtx_routes (k : Nat) (f : Ctx → Ctx) : (s.modCtx k f).routes = s.routes := rfl
@[simp] theorem State.modCtx_linkEn (k : Nat) (f : Ctx → Ctx) : (s.modCtx k f).linkEn = s.linkEn := rfl
@[simp] theorem State.modCtx_links (k : Nat) (f : Ctx → Ctx) : (s.modCtx k f).links = s.links := rfl
@[simp] theorem State.modCtx_ports (k : Nat) (f : Ctx → Ctx) : (s.modCtx k f).ports = s.ports := rfl
@[simp] theorem State.modCtx_notices (k : Nat) (f : Ctx → Ctx) : (s.modCtx k f).notices = s.notices := rfl
@[simp] theorem State.modCtx_sentBlocks (k : Nat) (f : Ctx → Ctx) : (s.modCtx k f).sentBlocks = s.sentBlocks := rfl
@[simp] theorem State.modCtx_service (k : Nat) (f : Ctx → Ctx) : (s.modCtx k f).service = s.service := rfl
@[simp] theorem State.modCtx_trust (k : Nat) (f : Ctx → Ctx) : (s.modCtx k f).trust = s.trust := rfl
@[simp] theorem State.modCtx_irqs (k : Nat) (f : Ctx → Ctx) : (s.modCtx k f).irqs = s.irqs := rfl
@[simp] theorem State.modCtx_outbox (k : Nat) (f : Ctx → Ctx) : (s.modCtx k f).outbox = s.outbox := rfl
@[simp] theorem State.modCtx_charged (k : Nat) (f : Ctx → Ctx) : (s.modCtx k f).charged = s.charged := rfl
@[simp] theorem State.modCtx_responses (k : Nat) (f : Ctx → Ctx) : (s.modCtx k f).responses = s.responses := rfl
@[simp] theorem State.modCtx_corrected (k : Nat) (f : Ctx → Ctx) : (s.modCtx k f).corrected = s.corrected := rfl
@[simp] theorem State.modCtx_time (k : Nat) (f : Ctx → Ctx) : (s.modCtx k f).time = s.time := rfl
@[simp] theorem State.modCtx_cur (k : Nat) (f : Ctx → Ctx) : (s.modCtx k f).cur = s.cur := rfl
@[simp] theorem State.modCtx_agenda (k : Nat) (f : Ctx → Ctx) : (s.modCtx k f).agenda = s.agenda := rfl
@[simp] theorem State.modCtx_turn (k : Nat) (f : Ctx → Ctx) : (s.modCtx k f).turn = s.turn := rfl
@[simp] theorem State.modCtx_nextId (k : Nat) (f : Ctx → Ctx) : (s.modCtx k f).nextId = s.nextId := rfl
@[simp] theorem State.modCtx_free (k : Nat) (f : Ctx → Ctx) : (s.modCtx k f).free = s.free := rfl

/-! ### `setL1` -/

@[simp] theorem State.setL1_mem (k : Nat) (t : Tab Sector) : (s.setL1 k t).mem = s.mem := rfl
@[simp] theorem State.setL1_tags (k : Nat) (t : Tab Sector) : (s.setL1 k t).tags = s.tags := rfl
@[simp] theorem State.setL1_poison (k : Nat) (t : Tab Sector) : (s.setL1 k t).poison = s.poison := rfl
@[simp] theorem State.setL1_lineKey (k : Nat) (t : Tab Sector) : (s.setL1 k t).lineKey = s.lineKey := rfl
@[simp] theorem State.setL1_l1 (k : Nat) (t : Tab Sector) : (s.setL1 k t).l1 = if t.isEmpty then tabDel s.l1 k else tabPut s.l1 k t := rfl
@[simp] theorem State.setL1_tlb (k : Nat) (t : Tab Sector) : (s.setL1 k t).tlb = s.tlb := rfl
@[simp] theorem State.setL1_ents (k : Nat) (t : Tab Sector) : (s.setL1 k t).ents = s.ents := rfl
@[simp] theorem State.setL1_teams (k : Nat) (t : Tab Sector) : (s.setL1 k t).teams = s.teams := rfl
@[simp] theorem State.setL1_wgs (k : Nat) (t : Tab Sector) : (s.setL1 k t).wgs = s.wgs := rfl
@[simp] theorem State.setL1_clusters (k : Nat) (t : Tab Sector) : (s.setL1 k t).clusters = s.clusters := rfl
@[simp] theorem State.setL1_grids (k : Nat) (t : Tab Sector) : (s.setL1 k t).grids = s.grids := rfl
@[simp] theorem State.setL1_ops (k : Nat) (t : Tab Sector) : (s.setL1 k t).ops = s.ops := rfl
@[simp] theorem State.setL1_replay (k : Nat) (t : Tab Sector) : (s.setL1 k t).replay = s.replay := rfl
@[simp] theorem State.setL1_copies (k : Nat) (t : Tab Sector) : (s.setL1 k t).copies = s.copies := rfl
@[simp] theorem State.setL1_creds (k : Nat) (t : Tab Sector) : (s.setL1 k t).creds = s.creds := rfl
@[simp] theorem State.setL1_engines (k : Nat) (t : Tab Sector) : (s.setL1 k t).engines = s.engines := rfl
@[simp] theorem State.setL1_ctxs (k : Nat) (t : Tab Sector) : (s.setL1 k t).ctxs = s.ctxs := rfl
@[simp] theorem State.setL1_parts (k : Nat) (t : Tab Sector) : (s.setL1 k t).parts = s.parts := rfl
@[simp] theorem State.setL1_sem (k : Nat) (t : Tab Sector) : (s.setL1 k t).sem = s.sem := rfl
@[simp] theorem State.setL1_evPend (k : Nat) (t : Tab Sector) : (s.setL1 k t).evPend = s.evPend := rfl
@[simp] theorem State.setL1_evMask (k : Nat) (t : Tab Sector) : (s.setL1 k t).evMask = s.evMask := rfl
@[simp] theorem State.setL1_preTo (k : Nat) (t : Tab Sector) : (s.setL1 k t).preTo = s.preTo := rfl
@[simp] theorem State.setL1_hangLim (k : Nat) (t : Tab Sector) : (s.setL1 k t).hangLim = s.hangLim := rfl
@[simp] theorem State.setL1_rrCtx (k : Nat) (t : Tab Sector) : (s.setL1 k t).rrCtx = s.rrCtx := rfl
@[simp] theorem State.setL1_cols (k : Nat) (t : Tab Sector) : (s.setL1 k t).cols = s.cols := rfl
@[simp] theorem State.setL1_policy (k : Nat) (t : Tab Sector) : (s.setL1 k t).policy = s.policy := rfl
@[simp] theorem State.setL1_islands (k : Nat) (t : Tab Sector) : (s.setL1 k t).islands = s.islands := rfl
@[simp] theorem State.setL1_debug (k : Nat) (t : Tab Sector) : (s.setL1 k t).debug = s.debug := rfl
@[simp] theorem State.setL1_hists (k : Nat) (t : Tab Sector) : (s.setL1 k t).hists = s.hists := rfl
@[simp] theorem State.setL1_trace (k : Nat) (t : Tab Sector) : (s.setL1 k t).trace = s.trace := rfl
@[simp] theorem State.setL1_member (k : Nat) (t : Tab Sector) : (s.setL1 k t).member = s.member := rfl
@[simp] theorem State.setL1_routes (k : Nat) (t : Tab Sector) : (s.setL1 k t).routes = s.routes := rfl
@[simp] theorem State.setL1_linkEn (k : Nat) (t : Tab Sector) : (s.setL1 k t).linkEn = s.linkEn := rfl
@[simp] theorem State.setL1_links (k : Nat) (t : Tab Sector) : (s.setL1 k t).links = s.links := rfl
@[simp] theorem State.setL1_ports (k : Nat) (t : Tab Sector) : (s.setL1 k t).ports = s.ports := rfl
@[simp] theorem State.setL1_notices (k : Nat) (t : Tab Sector) : (s.setL1 k t).notices = s.notices := rfl
@[simp] theorem State.setL1_sentBlocks (k : Nat) (t : Tab Sector) : (s.setL1 k t).sentBlocks = s.sentBlocks := rfl
@[simp] theorem State.setL1_service (k : Nat) (t : Tab Sector) : (s.setL1 k t).service = s.service := rfl
@[simp] theorem State.setL1_trust (k : Nat) (t : Tab Sector) : (s.setL1 k t).trust = s.trust := rfl
@[simp] theorem State.setL1_irqs (k : Nat) (t : Tab Sector) : (s.setL1 k t).irqs = s.irqs := rfl
@[simp] theorem State.setL1_outbox (k : Nat) (t : Tab Sector) : (s.setL1 k t).outbox = s.outbox := rfl
@[simp] theorem State.setL1_charged (k : Nat) (t : Tab Sector) : (s.setL1 k t).charged = s.charged := rfl
@[simp] theorem State.setL1_responses (k : Nat) (t : Tab Sector) : (s.setL1 k t).responses = s.responses := rfl
@[simp] theorem State.setL1_corrected (k : Nat) (t : Tab Sector) : (s.setL1 k t).corrected = s.corrected := rfl
@[simp] theorem State.setL1_time (k : Nat) (t : Tab Sector) : (s.setL1 k t).time = s.time := rfl
@[simp] theorem State.setL1_cur (k : Nat) (t : Tab Sector) : (s.setL1 k t).cur = s.cur := rfl
@[simp] theorem State.setL1_agenda (k : Nat) (t : Tab Sector) : (s.setL1 k t).agenda = s.agenda := rfl
@[simp] theorem State.setL1_turn (k : Nat) (t : Tab Sector) : (s.setL1 k t).turn = s.turn := rfl
@[simp] theorem State.setL1_nextId (k : Nat) (t : Tab Sector) : (s.setL1 k t).nextId = s.nextId := rfl
@[simp] theorem State.setL1_free (k : Nat) (t : Tab Sector) : (s.setL1 k t).free = s.free := rfl

/-! ### `irq` -/

@[simp] theorem State.irq_mem (p k c m : Nat) : (s.irq p k c m).mem = s.mem := rfl
@[simp] theorem State.irq_tags (p k c m : Nat) : (s.irq p k c m).tags = s.tags := rfl
@[simp] theorem State.irq_poison (p k c m : Nat) : (s.irq p k c m).poison = s.poison := rfl
@[simp] theorem State.irq_lineKey (p k c m : Nat) : (s.irq p k c m).lineKey = s.lineKey := rfl
@[simp] theorem State.irq_l1 (p k c m : Nat) : (s.irq p k c m).l1 = s.l1 := rfl
@[simp] theorem State.irq_tlb (p k c m : Nat) : (s.irq p k c m).tlb = s.tlb := rfl
@[simp] theorem State.irq_ents (p k c m : Nat) : (s.irq p k c m).ents = s.ents := rfl
@[simp] theorem State.irq_teams (p k c m : Nat) : (s.irq p k c m).teams = s.teams := rfl
@[simp] theorem State.irq_wgs (p k c m : Nat) : (s.irq p k c m).wgs = s.wgs := rfl
@[simp] theorem State.irq_clusters (p k c m : Nat) : (s.irq p k c m).clusters = s.clusters := rfl
@[simp] theorem State.irq_grids (p k c m : Nat) : (s.irq p k c m).grids = s.grids := rfl
@[simp] theorem State.irq_ops (p k c m : Nat) : (s.irq p k c m).ops = s.ops := rfl
@[simp] theorem State.irq_replay (p k c m : Nat) : (s.irq p k c m).replay = s.replay := rfl
@[simp] theorem State.irq_copies (p k c m : Nat) : (s.irq p k c m).copies = s.copies := rfl
@[simp] theorem State.irq_creds (p k c m : Nat) : (s.irq p k c m).creds = s.creds := rfl
@[simp] theorem State.irq_engines (p k c m : Nat) : (s.irq p k c m).engines = s.engines := rfl
@[simp] theorem State.irq_ctxs (p k c m : Nat) : (s.irq p k c m).ctxs = s.ctxs := rfl
@[simp] theorem State.irq_parts (p k c m : Nat) : (s.irq p k c m).parts = s.parts := rfl
@[simp] theorem State.irq_sem (p k c m : Nat) : (s.irq p k c m).sem = s.sem := rfl
@[simp] theorem State.irq_evPend (p k c m : Nat) : (s.irq p k c m).evPend = s.evPend := rfl
@[simp] theorem State.irq_evMask (p k c m : Nat) : (s.irq p k c m).evMask = s.evMask := rfl
@[simp] theorem State.irq_preTo (p k c m : Nat) : (s.irq p k c m).preTo = s.preTo := rfl
@[simp] theorem State.irq_hangLim (p k c m : Nat) : (s.irq p k c m).hangLim = s.hangLim := rfl
@[simp] theorem State.irq_rrCtx (p k c m : Nat) : (s.irq p k c m).rrCtx = s.rrCtx := rfl
@[simp] theorem State.irq_cols (p k c m : Nat) : (s.irq p k c m).cols = s.cols := rfl
@[simp] theorem State.irq_policy (p k c m : Nat) : (s.irq p k c m).policy = s.policy := rfl
@[simp] theorem State.irq_islands (p k c m : Nat) : (s.irq p k c m).islands = s.islands := rfl
@[simp] theorem State.irq_debug (p k c m : Nat) : (s.irq p k c m).debug = s.debug := rfl
@[simp] theorem State.irq_hists (p k c m : Nat) : (s.irq p k c m).hists = s.hists := rfl
@[simp] theorem State.irq_trace (p k c m : Nat) : (s.irq p k c m).trace = s.trace := rfl
@[simp] theorem State.irq_member (p k c m : Nat) : (s.irq p k c m).member = s.member := rfl
@[simp] theorem State.irq_routes (p k c m : Nat) : (s.irq p k c m).routes = s.routes := rfl
@[simp] theorem State.irq_linkEn (p k c m : Nat) : (s.irq p k c m).linkEn = s.linkEn := rfl
@[simp] theorem State.irq_links (p k c m : Nat) : (s.irq p k c m).links = s.links := rfl
@[simp] theorem State.irq_ports (p k c m : Nat) : (s.irq p k c m).ports = s.ports := rfl
@[simp] theorem State.irq_notices (p k c m : Nat) : (s.irq p k c m).notices = s.notices := rfl
@[simp] theorem State.irq_sentBlocks (p k c m : Nat) : (s.irq p k c m).sentBlocks = s.sentBlocks := rfl
@[simp] theorem State.irq_service (p k c m : Nat) : (s.irq p k c m).service = s.service := rfl
@[simp] theorem State.irq_trust (p k c m : Nat) : (s.irq p k c m).trust = s.trust := rfl
theorem State.irq_irqs (p k c m : Nat) : (s.irq p k c m).irqs =
    if s.portUp p then s.irqs ++ [(p, BitVec.ofNat 32 (k + 16 * c + 1024 * m))] else s.irqs := rfl
theorem State.irq_outbox (p k c m : Nat) : (s.irq p k c m).outbox =
    if s.portUp p then s.outbox else s.outbox ++ [.irq p (BitVec.ofNat 32 (k + 16 * c + 1024 * m))] := rfl
@[simp] theorem State.irq_charged (p k c m : Nat) : (s.irq p k c m).charged = s.charged := rfl
@[simp] theorem State.irq_responses (p k c m : Nat) : (s.irq p k c m).responses = s.responses := rfl
@[simp] theorem State.irq_corrected (p k c m : Nat) : (s.irq p k c m).corrected = s.corrected := rfl
@[simp] theorem State.irq_time (p k c m : Nat) : (s.irq p k c m).time = s.time := rfl
@[simp] theorem State.irq_cur (p k c m : Nat) : (s.irq p k c m).cur = s.cur := rfl
@[simp] theorem State.irq_agenda (p k c m : Nat) : (s.irq p k c m).agenda = s.agenda := rfl
@[simp] theorem State.irq_turn (p k c m : Nat) : (s.irq p k c m).turn = s.turn := rfl
@[simp] theorem State.irq_nextId (p k c m : Nat) : (s.irq p k c m).nextId = s.nextId := rfl
@[simp] theorem State.irq_free (p k c m : Nat) : (s.irq p k c m).free = s.free := rfl

end Sys2Proof.Machine
end

