-- ==== Sys2Proof/Laws/Registers.lean ====
section
/-! SUPPORT. Laws of a team's registers: what each register reads as after a write, and the hard-wired ones (R40, R48). -/

namespace Sys2Proof.Machine

@[simp] theorem sreg_zero (t : Team) : t.sreg 0 = 0 := rfl
@[simp] theorem setS_zero (t : Team) (w : Word) : t.setS 0 w = t := rfl
@[simp] theorem xreg_zero (t : Team) : t.xreg 0 = 0 := rfl
@[simp] theorem setX_zero (t : Team) (w : Word64) : t.setX 0 w = t := rfl
@[simp] theorem preg_zero (t : Team) : t.preg 0 = fullMask t.lanes := rfl
@[simp] theorem setP_zero (t : Team) (m : BitVec 1024) : t.setP 0 m = t := rfl

theorem sreg_setS (t : Team) (n m : Nat) (w : Word) : (t.setS n w).sreg m = if m = n ∧ n ≠ 0 then w else t.sreg m := by
  by_cases hn : n = 0
  · subst hn; simp
  · by_cases hm : m = 0
    · subst hm; simp [Ne.symm hn]
    · simp only [Team.sreg, Team.setS, hn, hm, if_false, tabGet_put]
      by_cases h : m = n <;> simp [h, hn]

theorem sreg_setS_same (t : Team) {n : Nat} (w : Word) (h : n ≠ 0) : (t.setS n w).sreg n = w := by simp [sreg_setS, h]
theorem sreg_setS_other (t : Team) {n m : Nat} (w : Word) (h : m ≠ n) : (t.setS n w).sreg m = t.sreg m := by simp [sreg_setS, h]

/-- A write of a scalar leaves everything of a team but the scalars. -/
theorem setS_only (t : Team) (n : Nat) (w : Word) : (t.setS n w) = { t with s := (t.setS n w).s } := by
  unfold Team.setS; split <;> rfl

theorem setX_only (t : Team) (k : Nat) (w : Word64) : (t.setX k w) = { t with s := (t.setX k w).s } := by
  unfold Team.setX; split
  · rfl
  · rw [setS_only, setS_only t]

theorem xreg_setX_same (t : Team) {k : Nat} (w : Word64) (h : k ≠ 0) : (t.setX k w).xreg k = w := by
  have h1 : (2 * k + 1) ≠ 0 := by omega
  have h2 : (2 * k) ≠ 0 := by omega
  simp only [Team.setX, Team.xreg, h, if_false, sreg_setS]
  simp only [ne_eq, h1, not_false_eq_true, if_true, h2, and_true]
  rw [if_neg (by omega)]
  apply BitVec.eq_of_getLsbD_eq
  intro i hi
  rw [BitVec.getLsbD_append]
  split
  · rename_i h32
    simp [h32]
  · rename_i h32
    simp only [BitVec.getLsbD_setWidth, BitVec.getLsbD_ushiftRight]
    rw [show 32 + (i - 32) = i by omega]
    simp
    omega

theorem vreg_setV (t : Team) (n m : Nat) (r : VReg) : (t.setV n r).vreg m = if m = n then r else t.vreg m := by
  simp only [Team.vreg, Team.setV, tabGet_put]
  split <;> rfl

theorem oreg_setO (t : Team) (n m : Nat) (ws : List Word) : (t.setO n ws).oreg m = if m = n then ws else t.oreg m := by
  simp only [Team.oreg, Team.setO, tabGet_put]
  split <;> rfl

theorem preg_setP (t : Team) (n m : Nat) (b : BitVec 1024) (h : n ≠ 0) :
    (t.setP n b).preg m = if m = n then b else t.preg m := by
  by_cases hm : m = 0
  · subst hm; simp [Ne.symm h, Team.setP, Team.preg, h]
  · simp only [Team.setP, Team.preg, h, hm, if_false, tabGet_put]
    split <;> rfl

end Sys2Proof.Machine
end

