-- ==== Sys2Proof/Laws/Words.lean ====
section
/-! SUPPORT. Laws of a word of the current entity: when it runs, what its end inside its clause leaves, and what waiting leaves. -/

namespace Sys2Proof.Machine

variable {s : State} {c : Cur}

/-- The meaning of a word is its function of the entity that stands at it. -/
theorem withCur_standing (h : Standing s c) (f : Cur → State) : withCur s f = .next (f c) := by
  obtain ⟨h1, h2, h3, h4⟩ := h
  obtain ⟨eid, e, t, i⟩ := c
  simp only at h1 h2 h3 h4
  subst h1
  simp [withCur, h2, h3, h4]

/-- A team's change, where the current entity stands. -/
theorem modTeam_standing (h : Standing s c) (f : Team → Team) :
    s.modTeam c.e.team f = { s with teams := tabPut s.teams c.e.team (f c.t) } := by
  simp [State.modTeam, tabMod_of_get f h.team]

theorem modEnt_standing (h : Standing s c) (f : Entity → Entity) :
    s.modEnt c.eid f = { s with ents := tabPut s.ents c.eid (f c.e) } := by
  simp [State.modEnt, tabMod_of_get f h.ent]

/-- A word inside its clause only moves the entity on. -/
theorem advance_inside (n : Nat) (t : State) (h : c.inside n) :
    c.advance t n = t.modEnt c.eid fun e => { e with hold := none, issue := e.issue.map fun i => { i with next := c.i.next + n } } := by
  unfold Cur.advance
  rw [if_neg (by unfold Cur.inside at h; omega)]

theorem tabPut_get_self {α : Type} (t : Tab α) (k : Nat) (x : α) (h : tabGet t k = some x) : tabPut t k x = t := by
  induction t with
  | nil => simp [tabGet] at h
  | cons p t ih =>
    obtain ⟨j, y⟩ := p
    simp only [tabGet] at h
    simp only [tabPut]
    split at h
    · simp_all
    · split at h
      · simp at h
      · simp_all

theorem tabPut_put {α : Type} (t : Tab α) (k : Nat) (x y : α) : tabPut (tabPut t k x) k y = tabPut t k y := by
  induction t with
  | nil => simp [tabPut]
  | cons p t ih =>
    obtain ⟨j, z⟩ := p
    simp only [tabPut]
    split
    · simp [tabPut]
    · split
      · simp [tabPut]
      · simp_all [tabPut]

/-- The end of a word is `done` of what it left of its team and its clause. -/
theorem advance_done (n : Nat) (t : Team) (i : Issue) (u : State)
    (hu : u = { s with teams := tabPut s.teams c.e.team t, ents := tabPut s.ents c.eid { c.e with issue := some i } }) :
    c.advance u n = c.done s n t i := by
  subst hu
  unfold Cur.advance Cur.done
  by_cases h : c.i.next + n < c.i.words.length
  · rw [if_neg (by omega), if_pos h]
    simp [State.modEnt, tabMod, tabPut_put]
  · rw [if_pos (by omega), if_neg h]

theorem ent_self (hs : Standing s c) : tabPut s.ents c.eid { c.e with issue := some c.i } = s.ents := by
  have : ({ c.e with issue := some c.i } : Entity) = c.e := by
    obtain ⟨_, e, _, i⟩ := c; have := hs.issue; simp only at this; cases e; simp_all
  rw [this]; exact tabPut_get_self _ _ _ hs.ent

theorem team_self (hs : Standing s c) : tabPut s.teams c.e.team c.t = s.teams := tabPut_get_self _ _ _ hs.team

/-- A word that changes the team alone. -/
theorem teamWord_done (hs : Standing s c) (f : Team → Team) : c.teamWord s f = c.done s 1 (f c.t) c.i := by
  unfold Cur.teamWord
  apply advance_done
  rw [modTeam_standing hs, ent_self hs]

/-- A word that changes nothing. -/
theorem advance_self (hs : Standing s c) (n : Nat) : c.advance s n = c.done s n c.t c.i := by
  apply advance_done
  rw [ent_self hs, team_self hs]

/-- What `done` gives inside a clause. -/
theorem done_inside (n : Nat) (t : Team) (i : Issue) (h : c.inside n) : c.done s n t i =
    { s with teams := tabPut s.teams c.e.team t
             ents := tabPut s.ents c.eid { c.e with hold := none, issue := some { i with next := c.i.next + n } } } := by
  exact if_pos h

/-- Where nothing is about to happen to a team, its boundary leaves the state as it is. -/
theorem settle_calm {t : State} {tid : Nat} (h : t.calm tid) : t.settle tid = t := by
  unfold State.settle
  cases h1 : tabGet t.teams tid with
  | none => rfl
  | some x =>
    obtain ⟨hd, hw⟩ := h x h1
    simp only [hd, Bool.false_and, Bool.false_eq_true, if_false]
    cases h2 : tabGet t.wgs x.wg with
    | none => rfl
    | some w => simp [hw w h2]

/-- An entity that waits at its word leaves everything else as it is, where nothing is about to happen to its team. -/
theorem holdAt_calm (hs : Standing s c) (hc : s.calm c.e.team) (k : Hold) : c.holdAt s k = c.waiting s k := by
  unfold Cur.holdAt
  rw [settle_calm]
  · simp [State.modEnt, tabMod_of_get _ hs.ent, Cur.waiting]
  · intro t ht
    exact hc t (by simpa using ht)

theorem done_team (n : Nat) (t : Team) (i : Issue) (h : c.inside n) : tabGet (c.done s n t i).teams c.e.team = some t := by
  simp [done_inside n t i h]

theorem done_only (n : Nat) (t : Team) (i : Issue) (h : c.inside n) : OnlyOne s (c.done s n t i) c.e.team c.eid := by
  rw [done_inside n t i h]
  exact ⟨rfl, fun _ h => tabGet_put_other _ _ h, fun _ h => tabGet_put_other _ _ h⟩

end Sys2Proof.Machine
end

