-- ==== Sys2Proof/Laws/Vector.lean ====
section
/-! SUPPORT. Laws of vector words: what the shared operations of the vector families do in each lane, with their flags, their tag and
their latch. -/

namespace Sys2Proof.Machine

open Sys2Proof.Claims

variable {s : State} {c : Cur}

theorem words_length (r : VReg) (w : Word) (n : Nat) : (r.words w n).length = n := by
  unfold VReg.words; split <;> simp

@[simp] theorem curWords_length (c : Cur) (ty : ConstTy) (x : VOp) : (c.words ty x).length = c.t.lanes := by
  simp [Cur.words, words_length]

@[simp] theorem pairs_length (c : Cur) (x : VOp) : (c.pairs x).length = c.t.lanes := by
  unfold Cur.pairs; split <;> simp [words_length]

/-- The lane function over a list of lanes: the words, and the flags of those that are active. -/
theorem lanes3_spec (m : BitVec 1024) (f : Word → Word → Word → Word × Word) (k n : Nat) (as bs ds os : List Word)
    (ha : as.length = n) (hb : bs.length = n) (hd : ds.length = n) (ho : os.length = n) :
    lanes3 m f k as bs ds os =
      ((List.range n).map fun l => if m.getLsbD (k + l) then (f (as.getD l 0) (bs.getD l 0) (ds.getD l 0)).1 else os.getD l 0,
       ((List.range n).filter fun l => m.getLsbD (k + l)).foldr
         (fun l fl => fl ||| (f (as.getD l 0) (bs.getD l 0) (ds.getD l 0)).2) 0) := by
  induction n generalizing k as bs ds os with
  | zero => cases as <;> simp_all [lanes3]
  | succ n ih =>
    obtain ⟨a, as, rfl⟩ := List.exists_cons_of_length_eq_add_one ha
    obtain ⟨b, bs, rfl⟩ := List.exists_cons_of_length_eq_add_one hb
    obtain ⟨d, ds, rfl⟩ := List.exists_cons_of_length_eq_add_one hd
    obtain ⟨o, os, rfl⟩ := List.exists_cons_of_length_eq_add_one ho
    simp only [List.length_cons, Nat.add_right_cancel_iff] at ha hb hd ho
    simp only [lanes3, ih (k + 1) as bs ds os ha hb hd ho, List.range_succ_eq_map, List.map_cons, List.map_map, List.filter_cons,
      List.filter_map, Nat.add_zero]
    have hk : ∀ l, k + 1 + l = k + (l + 1) := by intro l; omega
    by_cases h : m.getLsbD k
    · simp [h, hk, Function.comp_def, List.foldr_map]
    · simp [h, hk, Function.comp_def, List.foldr_map]

theorem lanes3d_spec (m : BitVec 1024) (f : Word64 → Word64 → Word64 → Word64 × Word) (k n : Nat) (as bs ds os : List Word64)
    (ha : as.length = n) (hb : bs.length = n) (hd : ds.length = n) (ho : os.length = n) :
    lanes3d m f k as bs ds os =
      ((List.range n).map fun l => if m.getLsbD (k + l) then (f (as.getD l 0) (bs.getD l 0) (ds.getD l 0)).1 else os.getD l 0,
       ((List.range n).filter fun l => m.getLsbD (k + l)).foldr
         (fun l fl => fl ||| (f (as.getD l 0) (bs.getD l 0) (ds.getD l 0)).2) 0) := by
  induction n generalizing k as bs ds os with
  | zero => cases as <;> simp_all [lanes3d]
  | succ n ih =>
    obtain ⟨a, as, rfl⟩ := List.exists_cons_of_length_eq_add_one ha
    obtain ⟨b, bs, rfl⟩ := List.exists_cons_of_length_eq_add_one hb
    obtain ⟨d, ds, rfl⟩ := List.exists_cons_of_length_eq_add_one hd
    obtain ⟨o, os, rfl⟩ := List.exists_cons_of_length_eq_add_one ho
    simp only [List.length_cons, Nat.add_right_cancel_iff] at ha hb hd ho
    simp only [lanes3d, ih (k + 1) as bs ds os ha hb hd ho, List.range_succ_eq_map, List.map_cons, List.map_map, List.filter_cons,
      List.filter_map, Nat.add_zero]
    have hk : ∀ l, k + 1 + l = k + (l + 1) := by intro l; omega
    by_cases h : m.getLsbD k
    · simp [h, hk, Function.comp_def, List.foldr_map]
    · simp [h, hk, Function.comp_def, List.foldr_map]

/-- Flags may be collected from either end. -/
theorem orFlags (ls : List Nat) (f : Nat → Word) : ls.foldr (fun l fl => fl ||| f l) 0 = ls.foldl (fun fl l => fl ||| f l) 0 := by
  suffices ∀ x : Word, ls.foldl (fun fl l => fl ||| f l) x = x ||| ls.foldr (fun l fl => fl ||| f l) 0 by
    rw [this 0]; simp
  induction ls with
  | nil => intro x; simp
  | cons a ls ih =>
    intro x
    simp only [List.foldl_cons, List.foldr_cons, ih, BitVec.or_assoc]
    rw [BitVec.or_comm (f a)]

/-- The flags of a vector word, in the state and in the clause in issue. -/
theorem raiseAfter_eq (c : Cur) (s : State) (t : Team) (i : Issue) (fl : Word) (ht : tabGet s.teams c.e.team = some t)
    (he : tabGet s.ents c.eid = some { c.e with issue := some i }) :
    c.raiseAfter s fl = { s with teams := tabPut s.teams c.e.team (raised c t fl)
                                 ents := tabPut s.ents c.eid { c.e with issue := some (flagged c i fl) } } := by
  unfold Cur.raiseAfter raised flagged
  by_cases h : c.flagsWait
  · simp [h, Cur.modIssue, State.modEnt, tabMod, he, tabPut_get_self _ _ _ ht]
  · simp [h, State.modTeam, tabMod, ht, tabPut_get_self _ _ _ he]

/-- The end of a vector word of one destination. -/
theorem vecEnd_one (hs : Standing s c) (l : Latch) (rule : TagRule) (d : VOp) (srcs : List VOp) (ws : List Word) (fl : Word) :
    (Room c → c.vecEnd s (res32 l rule d srcs) [ws] fl =
      c.done s 1 (raised c (stored c.t (tagOf c rule srcs) d ws) fl) (flagged c (latched c.i (some l) ws) fl)) ∧
    (c.e.mask = 0 → c.vecEnd s (res32 l rule d srcs) [ws] fl = c.done s 1 c.t c.i) ∧
    (c.e.mask ≠ 0 → ¬ Room c → c.vecEnd s (res32 l rule d srcs) [ws] fl = c.exhaust s cXREG) := by
  refine ⟨fun ⟨hm, hr⟩ => ?_, fun hm => ?_, fun hm hr => ?_⟩
  · unfold Cur.vecEnd
    rw [if_neg hm]
    have htag : (res32 l rule d srcs).tag c.e c.t c.i = tagOf c rule srcs := rfl
    simp only [htag, show (res32 l rule d srcs).dst = [d] from rfl, hr, Bool.false_eq_true, if_false]
    apply advance_done
    simp only [List.zip_cons_cons, List.zip_nil_right, List.foldl_cons, List.foldl_nil, show (res32 l rule d srcs).latch = some l from rfl,
      List.getD_cons_zero]
    have hstore : c.storeOne s (tagOf c rule srcs) d ws =
        { s with teams := tabPut s.teams c.e.team (stored c.t (tagOf c rule srcs) d ws) } := by
      unfold Cur.storeOne stored
      cases d <;> simp [State.modTeam, tabMod, hs.team, tabPut_get_self _ _ _ hs.team]
    have hlatch : c.storeLatch { s with teams := tabPut s.teams c.e.team (stored c.t (tagOf c rule srcs) d ws) } (some l) ws =
        { s with teams := tabPut s.teams c.e.team (stored c.t (tagOf c rule srcs) d ws)
                 ents := tabPut s.ents c.eid { c.e with issue := some (latched c.i (some l) ws) } } := by
      unfold Cur.storeLatch latched Cur.modIssue
      by_cases hv : c.i.cls = .vx
      · simp [hv, State.modEnt, tabMod, hs.ent, hs.issue]
      · have hi : ({ c.e with issue := some c.i } : Entity) = c.e := by
          have := hs.issue; obtain ⟨_, e, _, i⟩ := c; simp only at this; cases e; simp_all
        simp [hv, hi, tabPut_get_self _ _ _ hs.ent]
    rw [hstore, hlatch, raiseAfter_eq c _ (stored c.t (tagOf c rule srcs) d ws) (latched c.i (some l) ws) fl (by simp) (by simp)]
    simp [tabPut_put]
  · unfold Cur.vecEnd
    rw [if_pos hm]
    exact advance_self hs 1
  · unfold Cur.vecEnd
    have hp : c.pastGrant = true := by
      by_contra h; exact hr ⟨hm, by simpa using h⟩
    rw [if_neg hm]
    simp [hp]

/-- A vector instruction on 32-bit lane words (R41, R42, R44, R79, R155). -/
theorem vec_result {i : Instr} {d : VOp} {l : Latch} {rule : TagRule} {srcs : List VOp} {ty : ConstTy} (a b : ConstTy × VOp)
    (f : Cur → Word → Word → Word → Word × Word) (g : Cur → Nat → Word × Word)
    (he : ∀ s, exec i s = withCur s fun c => c.vec s (res32 l rule d srcs) ty d a b (f c))
    (hf : ∀ c n, n < c.t.lanes → f c (lane c a.1 a.2 n) (lane c b.1 b.2 n) (lane c ty d n) = g c n) :
    VecResult i d l rule srcs ty g := by
  intro s c hs
  have key : c.vec s (res32 l rule d srcs) ty d a b (f c) =
      c.vecEnd s (res32 l rule d srcs) [perLane c (c.words ty d) fun n => (g c n).1] (flagsOf c fun n => (g c n).2) := by
    simp only [Cur.vec, Cur.oldWords]
    rw [lanes3_spec c.e.mask (f c) 0 c.t.lanes (c.words a.1 a.2) (c.words b.1 b.2) (c.words ty d) (c.words ty d) (curWords_length ..)
      (curWords_length ..) (curWords_length ..) (curWords_length ..)]
    simp only [Nat.zero_add, orFlags]
    congr 1
    · congr 1
      unfold perLane
      apply List.map_congr_left
      intro n hn
      have := hf c n (by simpa using hn)
      unfold lane at this
      rw [this]
    · unfold flagsOf lanesOf
      apply List.foldl_ext
      intro fl n hn
      have hn : n < c.t.lanes := by simpa using (List.mem_filter.mp hn).1
      have := hf c n hn
      unfold lane at this
      rw [this]
  have hx : exec i s = .next (c.vecEnd s (res32 l rule d srcs) [perLane c (c.words ty d) fun n => (g c n).1]
      (flagsOf c fun n => (g c n).2)) := by
    rw [he, withCur_standing hs, key]
  obtain ⟨h1, h2, h3⟩ := vecEnd_one hs l rule d srcs (perLane c (c.words ty d) fun n => (g c n).1) (flagsOf c fun n => (g c n).2)
  exact ⟨fun h => by rw [hx, h1 h], fun h => by rw [hx, h2 h], fun h h' => by rw [hx, h3 h h']⟩

/-- The end of a vector word of a pair of destinations. -/
theorem vecEnd_pair (hs : Standing s c) (d : VOp) (ss srcs : List VOp) (w1 w2 : List Word) (fl : Word) :
    (Room c → c.vecEnd s { res64 d ss with srcs := srcs } [w1, w2] fl =
      c.done s 1 (raised c (stored (stored c.t (tagOf c .plain srcs) d w1) (tagOf c .plain srcs) (vopNext d) w2) fl)
        (flagged c c.i fl)) ∧
    (c.e.mask = 0 → c.vecEnd s { res64 d ss with srcs := srcs } [w1, w2] fl = c.done s 1 c.t c.i) ∧
    (c.e.mask ≠ 0 → ¬ Room c → c.vecEnd s { res64 d ss with srcs := srcs } [w1, w2] fl = c.exhaust s cXREG) := by
  have htag : ({ res64 d ss with srcs := srcs } : VRes).tag c.e c.t c.i = tagOf c .plain srcs := rfl
  have hdst : ({ res64 d ss with srcs := srcs } : VRes).dst = [d, vopNext d] := rfl
  have hlat : ({ res64 d ss with srcs := srcs } : VRes).latch = none := rfl
  generalize ({ res64 d ss with srcs := srcs } : VRes) = r at htag hdst hlat
  generalize tagOf c .plain srcs = tag at *
  refine ⟨fun ⟨hm, hr⟩ => ?_, fun hm => ?_, fun hm hr => ?_⟩
  · unfold Cur.vecEnd
    rw [if_neg hm]
    simp only [htag, hdst, hr, Bool.false_eq_true, if_false, hlat, Cur.storeLatch]
    apply advance_done
    simp only [List.zip_cons_cons, List.zip_nil_right, List.foldl_cons, List.foldl_nil]
    have hstore (t : Team) (x : VOp) (ws : List Word) : c.storeOne { s with teams := tabPut s.teams c.e.team t } tag x ws =
        { s with teams := tabPut s.teams c.e.team (stored t tag x ws) } := by
      unfold Cur.storeOne stored
      cases x <;> simp [State.modTeam, tabMod, tabPut_put]
    have hi : ({ c.e with issue := some c.i } : Entity) = c.e := by
      have := hs.issue; obtain ⟨_, e, _, i⟩ := c; simp only at this; cases e; simp_all
    have h0 : s = { s with teams := tabPut s.teams c.e.team c.t } := by
      rw [tabPut_get_self _ _ _ hs.team]
    conv_lhs => rw [h0]
    rw [hstore, hstore, raiseAfter_eq c _ (stored (stored c.t tag d w1) tag (vopNext d) w2) c.i fl (by simp) (by rw [hi]; exact hs.ent)]
    simp [tabPut_put]
  · unfold Cur.vecEnd
    rw [if_pos hm]
    exact advance_self hs 1
  · unfold Cur.vecEnd
    have hp : c.pastGrant = true := by
      by_contra h; exact hr ⟨hm, by simpa using h⟩
    rw [if_neg hm]
    simp [hp]

/-- A vector instruction on 64-bit values in pairs, from its lane function's words and flags (R139). -/
theorem vec64_result {i : Instr} {d : VOp} {ss srcs : List VOp} (g : Cur → Nat → Word64 × Word)
    (he : ∀ s, exec i s = withCur s fun c => c.vecEnd s { res64 d ss with srcs := srcs }
      [(perLane64 c (c.pairs d) fun l => (g c l).1).map fun w => w.setWidth 32,
       (perLane64 c (c.pairs d) fun l => (g c l).1).map fun (w : Word64) => (w >>> 32).setWidth 32] (flagsOf c fun l => (g c l).2)) :
    VecResult64 i d srcs g := by
  intro s c hs
  have hx := he s
  rw [withCur_standing hs] at hx
  obtain ⟨h1, h2, h3⟩ := vecEnd_pair hs d ss srcs ((perLane64 c (c.pairs d) fun l => (g c l).1).map fun w => w.setWidth 32)
    ((perLane64 c (c.pairs d) fun l => (g c l).1).map fun (w : Word64) => (w >>> 32).setWidth 32) (flagsOf c fun n => (g c n).2)
  exact ⟨fun h => by rw [hx, h1 h], fun h => by rw [hx, h2 h], fun h h' => by rw [hx, h3 h h']⟩

/-- The words and flags of a lane function on pairs. -/
theorem lanes3d_words (f : Word64 → Word64 → Word64 → Word64 × Word) (as bs ds os : List Word64) (g : Nat → Word64 × Word)
    (ha : as.length = c.t.lanes) (hb : bs.length = c.t.lanes) (hd : ds.length = c.t.lanes) (ho : os.length = c.t.lanes)
    (hf : ∀ l, l < c.t.lanes → f (as.getD l 0) (bs.getD l 0) (ds.getD l 0) = g l) :
    lanes3d c.e.mask f 0 as bs ds os = (perLane64 c os fun l => (g l).1, flagsOf c fun l => (g l).2) := by
  rw [lanes3d_spec c.e.mask f 0 c.t.lanes as bs ds os ha hb hd ho]
  simp only [Nat.zero_add, orFlags]
  congr 1
  · unfold perLane64
    apply List.map_congr_left
    intro n hn
    rw [hf n (by simpa using hn)]
  · unfold flagsOf lanesOf
    apply List.foldl_ext
    intro fl n hn
    rw [hf n (by simpa using (List.mem_filter.mp hn).1)]

end Sys2Proof.Machine
end

