-- ==== Sys2Proof/Tests/Slice0.lean ====
section
/-! SUPPORT. The modeller's own tests: ill-formed instructions, words written out from the layouts, results of single words, and for every
statement with hypotheses a state that meets them. -/

open Sys2Proof Sys2Proof.Machine Sys2Proof.Claims

namespace Sys2Proof.Tests

set_option Elab.async false

/-! ### States to test on -/

/-- One team of 32 lanes on core 0 in a cluster launch, at the first of two words of a clause in issue; entity 5, team 4, cluster launch 3,
workgroup 2, grid 1. -/
def demo : State := State.reset.placeWord 0

/-- The current entity of a state built from `demo`. -/
def here (s : State) : Cur := (s.curOf 5).getD ⟨5, startEntity 0 0 0, startTeam 0 0 0 0 placedRecord, placedClause 0⟩

/-- `demo` with its entity, its team, its clause, or its workgroup changed. -/
def demoE (f : Entity → Entity) : State := demo.modEnt 5 f
def demoT (f : Team → Team) : State := demo.modTeam 4 f
def demoI (f : Issue → Issue) : State := demoE fun e => { e with issue := e.issue.map f }
def demoW (f : Workgroup → Workgroup) : State := demo.modWg 2 f

/-- A state in which context 0 has the first 64 GiB of its addresses mapped to the same physical addresses; pages may be read, written
and executed. -/
def paged (s : State) : State :=
  ((s.modCtx 0 fun x => { x with root0 := 0x10001 }).storeBytes 0x10000 (leBytes 8 0x14001)).storeBytes 0x14000 (leBytes 8 0x30F)

/-- Nothing is about to happen to a team, as a test. -/
def calmNow (s : State) (tid : Nat) : Bool :=
  match tabGet s.teams tid with
  | some t => !t.dying && (match tabGet s.wgs t.wg with | some w => !w.aborting | none => true)
  | none => true

theorem calm_of (s : State) (tid : Nat) (h : calmNow s tid = true) : s.calm tid := by
  intro t ht
  simp only [calmNow, ht, Bool.and_eq_true, Bool.not_eq_true'] at h
  refine ⟨h.1, fun w hw => ?_⟩
  have := h.2
  rw [hw] at this
  simpa using this

/-- An entity that has a word stands at it. -/
theorem standing_of (s : State) (h : ((s.curOf 5).isSome && s.cur == 5) = true) : Standing s (here s) := by
  simp only [Bool.and_eq_true, beq_iff_eq, Option.isSome_iff_exists] at h
  obtain ⟨⟨c, hc⟩, h5⟩ := h
  simp only [here, hc, Option.getD_some]
  simp only [State.curOf] at hc
  split at hc
  · cases hc
  · split at hc
    · cases hc; exact ⟨h5, ‹_›, ‹_›, ‹_›⟩
    · cases hc

/-- It stands at it, and what else is decided holds. -/
theorem stands (s : State) {p : Prop} (h : ((s.curOf 5).isSome && s.cur == 5) = true ∧ p) : Standing s (here s) ∧ p := ⟨standing_of s h.1, h.2⟩

/-- A store of the current entity that is not performed yet. -/
def busyOp : MemOp :=
  { ent := 5, team := 4, kind := .store, space := .spad, size := 4, signed := false, uniform := false, dest := .none, alu := none, acq := false
    rel := false, l2 := false, cnt := .st, pc := 0, word := 1, mask := 1, lanes := [], failed := false }

/-- `demo` with a fragment of its entity, number 6, of token 3, waiting as given; and with a deferral slot of token 3. -/
def demoF (h : Option Hold) : State :=
  { demo with ents := tabPut demo.ents 6 { startEntity 4 (fullMask 8) 0 with parent := some 5, token := 3, hold := h } }
def demoS (arrived : Bool) : State :=
  demoE fun e => { e with slots := [(3, { mask := 1, pc := 64, count := 0, opened := 0, arrived := arrived })] }

/-- `demo` with the offset of an object in `s6`. -/
def atOff (n : Nat) : State := demoT fun t => t.setS 6 (BitVec.ofNat 32 n)

/-- A lane of an operation in flight. -/
def laneAt (p : Nat) (d : List Byte) : LaneAcc := { lane := 31, ptr := p, phys := some p, mtype := 2, data := d, fill := none, done := false }

/-- `demo` with records in the MOB of its engine (engine 0), and one scalar. -/
def mob (rs : Tab MobRecord) (n : Nat) : State := (atOff n).modEngine 0 fun e => { e with recs := rs }
def recOf (w : Word) : MobRecord := { format := w, bytes := [], fresh := 0, scales := none }

/-- INT8, bf16, scaled E4M3 of blocks of 32, and raw formats of some rows. -/
def int8 (n : Nat) : Word := BitVec.ofNat 32 (65536 * n + 6)
def bf16 (n : Nat) : Word := BitVec.ofNat 32 (65536 * n + 3)
def scaledE4m3 (n : Nat) : Word := BitVec.ofNat 32 (65536 * n + 256 + 4)
def rawFmt (n : Nat) : Word := BitVec.ofNat 32 (65536 * n + 10)

/-- An entry that a release of its page or of every page reaches. -/
def parkedEntry (op page : Nat) : ReplayEntry :=
  { op := op, ent := 5, team := 4, part := 0, page := page, lanes := [], bytes := 0, released := false, fail := false }

/-- A valid record of one lane item at 0x20000, its address in `x4`, and the header of queue 0 at 0x21000, of a ring of two records. -/
def record : List Byte :=
  leBytes 16 0 ++ wordsBytes [32 + 65536 + 16777216, 1, 0, 0, 1, 1, 1, 0, 1, 1, 1, 0, 1, 1, 1, 0, 0, 0, 0, 0, 1, 0, 0, 0, 0, 0, 0, 0]
def launching (en head tail : Nat) (rcd : List Byte) : State :=
  ((((paged demo).modCtx 0 fun x => { x with qtBase := 0x21000 }).storeBytes 0x20000 rcd).storeBytes 0x21000
    (leBytes 8 0x22000 ++ leBytes 2 0 ++ leBytes 2 en ++ leBytes 4 1 ++ leBytes 8 head ++ leBytes 8 0 ++ leBytes 8 tail)).modTeam 4
      fun t => t.setX 4 0x20000

/-- The checks of a range pass, as a test. -/
def rangeOk (s : State) (ks : List AccKind) (p n : Nat) : Bool := match s.rangeCheck 0 0 ks p n with | .ok => true | _ => false


/-! ### Ill-formed instructions -/

/-- Operands: a destination that is no register (R138), the latch of another unit (R135), constants that a type does not take (R138), odd
halves of pairs (R139), and latches and lane numbers in pairs. -/
theorem test_ill_formed_operands : ∀ i ∈ [Instr.faddF32 (.s 1) (.v 1) (.v 2), .iadd (.latch .a) (.v 1) (.v 2), .iadd (.v 1) (.const .half) (.v 2),
    .icmpN32 .eq 1 (.const .negOne) (.v 2), .faddF64 (.v 3) (.v 2) (.v 4), .faddF64 (.v 2) (.v 5) (.v 4), .faddF64 (.v 2) (.latch .a) (.v 4),
    .faddF64 (.v 2) (.const .lane) (.v 4), .sel (.v 1) 0 (.v 2) (.v 3), .plog .not 1 2 3, .cvtup .f16 2 (.v 1) (.v 2), .tunpk (.v 1) (.v 2) 5],
    i.wellFormed = false := by decide +kernel

/-- Scalars and control: odd pairs (R137), special registers that are not written (R52), loop levels, bodies and counts out of range (R197),
and LIVE above 64 (R201). -/
theorem test_ill_formed_scalar : ∀ i ∈ [Instr.sadd64 1 2 4, .ssub64 2 3 4, .sshl64 2 3 4, .swr 0x000 1, .bdset 0 1 2, .bdset 0 2 3, .loop 3 1 1,
    .loop 0 1 0, .loop 0 1 257, .loopi 0 0 1, .lbrk 3, .yield 0 65, .yieldc 7 7 7 7 0 65 0, .ringinit false 0 1 0, .hlt 1, .tinv 1 2,
    .rqrel 1 2, .allow 1, .launch 0 1 2], i.wellFormed = false := by decide +kernel

/-- Memory: data registers and pointers that are not aligned (R211), latches outside VX (R47), atomics of a type they do not have (R217, R218),
and copies whose fields disagree (R225 to R227). -/
theorem test_ill_formed_memory : ∀ i ∈ [Instr.ldg .b64 .plain .normal (.v 1) 0 (.v 0) none, .ldg .b128 .plain .normal (.v 2) 0 (.v 0) none,
    .ldg .b32 .plain .normal (.s 1) 0 (.v 0) none, .ldg .b32 .plain .normal (.v 1) 0 (.latch .a) none,
    .stg .b128 .plain .normal 0 (.v 0) none (.s 4), .stg .b32 .plain .normal 0 (.v 0) none (.const .half),
    .amin .relaxed .b64 (.v 2) 0 (.v 0), .aand .relaxed .f32 (.v 2) 0 (.v 0), .aadd .relaxed .b64 (.v 1) 0 (.v 0),
    .acas .relaxed .i32 (.v 1) 0 (.v 0), .acas .relaxed .b64 (.v 2) 0 (.v 0), .aacc .relaxed (.const .absent) 0 (.v 0), .cprf 0 1 true,
    .cflush 1 0, .sld 0 1 0, .sst 1 0 0, .cpyG2s 0 1 0 0 0 0 0 0 false false false, .cpyG2s 0 2 0 0 1 0 0 0 true true false,
    .cpyG2s 0 2 0 0 0 0 0 0 false true false, .cpyG2s 0 2 1 0 0 0 0 0 false false true, .cpyS2g 1 0 0 0 0 0 0 0, .cpym 1 2 0 0 0 0 0 0 false,
    .cpyg 0 0 0 0 0 0 0 1 false false, .cred 1 2 0 0 0 0 0 0, .mld .global 0 1 0, .mshape 0, .mls 0 false 1 0], i.wellFormed = false := by
  decide +kernel

/-! ### Words written out from the layouts (R136 to R144): one or more of every constructor that has words -/

theorem test_decode_op01 :
    [decodeTableWord 32 0x04189106,
      decodeTableWord 32 0x04389106,
      decodeTableWord 32 0x04589106,
      decodeTableWord 32 0x04789106,
      decodeTableWord 32 0x04989106,
      decodeTableWord 32 0x04A01106,
      decodeTableWord 32 0x04C01106,
      decodeTableWord 32 0x04E01106,
      decodeTableWord 32 0x05201106,
      decodeTableWord 32 0x05989106,
      decodeTableWord 32 0x05A01106] =
    [some (.faddF32 (.v 6) (.v 34) (.o 2)),
      some (.fsubF32 (.v 6) (.v 34) (.o 2)),
      some (.fmulF32 (.v 6) (.v 34) (.o 2)),
      some (.fminF32 (.v 6) (.v 34) (.o 2)),
      some (.fmaxF32 (.v 6) (.v 34) (.o 2)),
      some (.fabsF32 (.v 6) (.v 34)),
      some (.fnegF32 (.v 6) (.v 34)),
      some (.fsatF32 (.v 6) (.v 34)),
      some (.frndF32 .d (.v 6) (.v 34)),
      some (.fdivF32 (.v 6) (.v 34) (.o 2)),
      some (.fsqrtF32 (.v 6) (.v 34))] := by
  decide +kernel

theorem test_decode_op03 :
    [decodeTableWord 32 0x0C189106,
      decodeTableWord 32 0x0C389106,
      decodeTableWord 32 0x0C589106,
      decodeTableWord 32 0x0C789106,
      decodeTableWord 32 0x0C989106,
      decodeTableWord 32 0x0CA01106,
      decodeTableWord 32 0x0CC01106,
      decodeTableWord 32 0x0CE01106,
      decodeTableWord 32 0x0D201106] =
    [some (.faddF16Bf16 .bf16 (.v 6) (.v 34) (.o 2)),
      some (.fsubF16Bf16 .bf16 (.v 6) (.v 34) (.o 2)),
      some (.fmulF16Bf16 .bf16 (.v 6) (.v 34) (.o 2)),
      some (.fminF16Bf16 .bf16 (.v 6) (.v 34) (.o 2)),
      some (.fmaxF16Bf16 .bf16 (.v 6) (.v 34) (.o 2)),
      some (.fabsF16Bf16 .bf16 (.v 6) (.v 34)),
      some (.fnegF16Bf16 .bf16 (.v 6) (.v 34)),
      some (.fsatF16Bf16 .bf16 (.v 6) (.v 34)),
      some (.frndF16Bf16 .bf16 .d (.v 6) (.v 34))] := by
  decide +kernel

theorem test_decode_op04 :
    [decodeTableWord 32 0x10189106,
      decodeTableWord 32 0x10389106,
      decodeTableWord 32 0x10589106,
      decodeTableWord 32 0x10789106,
      decodeTableWord 32 0x10989106,
      decodeTableWord 32 0x10A01106,
      decodeTableWord 32 0x10C01106,
      decodeTableWord 32 0x10E01106,
      decodeTableWord 32 0x11201106,
      decodeTableWord 32 0x11989106,
      decodeTableWord 32 0x11A01106] =
    [some (.faddF64 (.v 6) (.v 34) (.o 2)),
      some (.fsubF64 (.v 6) (.v 34) (.o 2)),
      some (.fmulF64 (.v 6) (.v 34) (.o 2)),
      some (.fminF64 (.v 6) (.v 34) (.o 2)),
      some (.fmaxF64 (.v 6) (.v 34) (.o 2)),
      some (.fabsF64 (.v 6) (.v 34)),
      some (.fnegF64 (.v 6) (.v 34)),
      some (.fsatF64 (.v 6) (.v 34)),
      some (.frndF64 .d (.v 6) (.v 34)),
      some (.fdivF64 (.v 6) (.v 34) (.o 2)),
      some (.fsqrtF64 (.v 6) (.v 34))] := by
  decide +kernel

theorem test_decode_op05 :
    [decodeTableWord 32 0x16189106,
      decodeTableWord 32 0x16389106,
      decodeTableWord 32 0x16589106,
      decodeTableWord 32 0x16789106,
      decodeTableWord 32 0x16989106,
      decodeTableWord 32 0x16A01106,
      decodeTableWord 32 0x16C01106,
      decodeTableWord 32 0x16E01106] =
    [some (.faddFp8 .e5m2 (.v 6) (.v 34) (.o 2)),
      some (.fsubFp8 .e5m2 (.v 6) (.v 34) (.o 2)),
      some (.fmulFp8 .e5m2 (.v 6) (.v 34) (.o 2)),
      some (.fminFp8 .e5m2 (.v 6) (.v 34) (.o 2)),
      some (.fmaxFp8 .e5m2 (.v 6) (.v 34) (.o 2)),
      some (.fabsFp8 .e5m2 (.v 6) (.v 34)),
      some (.fnegFp8 .e5m2 (.v 6) (.v 34)),
      some (.fsatFp8 .e5m2 (.v 6) (.v 34))] := by
  decide +kernel

theorem test_decode_op06 :
    [decodeTableWord 32 0x18189106,
      decodeTableWord 32 0x18389106,
      decodeTableWord 32 0x18589106,
      decodeTableWord 32 0x18789106,
      decodeTableWord 32 0x18989106,
      decodeTableWord 32 0x18B89106,
      decodeTableWord 32 0x18D89106,
      decodeTableWord 32 0x18F89106,
      decodeTableWord 32 0x19189106,
      decodeTableWord 32 0x19389106,
      decodeTableWord 32 0x19589106,
      decodeTableWord 32 0x19789106,
      decodeTableWord 32 0x19989106,
      decodeTableWord 32 0x19B89106] =
    [some (.ffmaF32 (.v 6) (.v 34) (.o 2)),
      some (.ffmsF32 (.v 6) (.v 34) (.o 2)),
      some (.ffnmaF32 (.v 6) (.v 34) (.o 2)),
      some (.ffmaF16 (.v 6) (.v 34) (.o 2)),
      some (.ffmaBf16 (.v 6) (.v 34) (.o 2)),
      some (.ffmaF64 (.v 6) (.v 34) (.o 2)),
      some (.fdot2F16 (.v 6) (.v 34) (.o 2)),
      some (.fdot2Bf16 (.v 6) (.v 34) (.o 2)),
      some (.fdot4E4m3 (.v 6) (.v 34) (.o 2)),
      some (.fdot4E5m2 (.v 6) (.v 34) (.o 2)),
      some (.idot4Ii (.v 6) (.v 34) (.o 2)),
      some (.idot4In (.v 6) (.v 34) (.o 2)),
      some (.idot4Ni (.v 6) (.v 34) (.o 2)),
      some (.idot4Nn (.v 6) (.v 34) (.o 2))] := by
  decide +kernel

theorem test_decode_op07 :
    [decodeTableWord 32 0x1C189106,
      decodeTableWord 32 0x1C389106,
      decodeTableWord 32 0x1C589106,
      decodeTableWord 32 0x1C789106,
      decodeTableWord 32 0x1C989106,
      decodeTableWord 32 0x1CB89106,
      decodeTableWord 32 0x1CD89106,
      decodeTableWord 32 0x1CF89106,
      decodeTableWord 32 0x1D189106,
      decodeTableWord 32 0x1D389106,
      decodeTableWord 32 0x1D401106,
      decodeTableWord 32 0x1D601106] =
    [some (.iadd (.v 6) (.v 34) (.o 2)),
      some (.isub (.v 6) (.v 34) (.o 2)),
      some (.imul (.v 6) (.v 34) (.o 2)),
      some (.imulhI32 (.v 6) (.v 34) (.o 2)),
      some (.imulhN32 (.v 6) (.v 34) (.o 2)),
      some (.imad (.v 6) (.v 34) (.o 2)),
      some (.iminI32 (.v 6) (.v 34) (.o 2)),
      some (.imaxI32 (.v 6) (.v 34) (.o 2)),
      some (.iminN32 (.v 6) (.v 34) (.o 2)),
      some (.imaxN32 (.v 6) (.v 34) (.o 2)),
      some (.iabs (.v 6) (.v 34)),
      some (.ineg (.v 6) (.v 34))] := by
  decide +kernel

theorem test_decode_op08 :
    [decodeTableWord 32 0x21189106,
      decodeTableWord 32 0x21389106,
      decodeTableWord 32 0x21589106,
      decodeTableWord 32 0x21789106,
      decodeTableWord 32 0x21989106,
      decodeTableWord 32 0x21A01106] =
    [some (.iaddV .i16 (.v 6) (.v 34) (.o 2)),
      some (.isubV .i16 (.v 6) (.v 34) (.o 2)),
      some (.imulV .i16 (.v 6) (.v 34) (.o 2)),
      some (.iminV .i16 (.v 6) (.v 34) (.o 2)),
      some (.imaxV .i16 (.v 6) (.v 34) (.o 2)),
      some (.iabsV .i16 (.v 6) (.v 34))] := by
  decide +kernel

theorem test_decode_op09 :
    [decodeTableWord 32 0x24189106,
      decodeTableWord 32 0x24389106,
      decodeTableWord 32 0x24589106,
      decodeTableWord 32 0x24601106,
      decodeTableWord 32 0x24989106,
      decodeTableWord 32 0x24B89106,
      decodeTableWord 32 0x24D89106,
      decodeTableWord 32 0x24F89106,
      decodeTableWord 32 0x25189106,
      decodeTableWord 32 0x25389106,
      decodeTableWord 32 0x25589106,
      decodeTableWord 32 0x25601106,
      decodeTableWord 32 0x25801106,
      decodeTableWord 32 0x25A01106,
      decodeTableWord 32 0x25D89106] =
    [some (.and (.v 6) (.v 34) (.o 2)),
      some (.or (.v 6) (.v 34) (.o 2)),
      some (.xor (.v 6) (.v 34) (.o 2)),
      some (.not (.v 6) (.v 34)),
      some (.andn (.v 6) (.v 34) (.o 2)),
      some (.shl (.v 6) (.v 34) (.o 2)),
      some (.shr (.v 6) (.v 34) (.o 2)),
      some (.sar (.v 6) (.v 34) (.o 2)),
      some (.bfeI (.v 6) (.v 34) (.o 2)),
      some (.bfeN (.v 6) (.v 34) (.o 2)),
      some (.bfi (.v 6) (.v 34) (.o 2)),
      some (.popc (.v 6) (.v 34)),
      some (.clz (.v 6) (.v 34)),
      some (.brev (.v 6) (.v 34)),
      some (.bperm (.v 6) (.v 34) (.o 2))] := by
  decide +kernel

theorem test_decode_op0A :
    [decodeTableWord 32 0x28389103,
      decodeTableWord 32 0x29389103,
      decodeTableWord 32 0x2A389103,
      decodeTableWord 32 0x2B201103] =
    [some (.fcmp .ne 3 (.v 34) (.o 2)),
      some (.icmpI32 .ne 3 (.v 34) (.o 2)),
      some (.icmpN32 .ne 3 (.v 34) (.o 2)),
      some (.tabs .f16 3 (.v 34))] := by
  decide +kernel

theorem test_decode_op0B :
    [decodeTableWord 32 0x2C001106,
      decodeTableWord 32 0x2C201106,
      decodeTableWord 32 0x2C401106,
      decodeTableWord 32 0x2C601106,
      decodeTableWord 32 0x2C801106,
      decodeTableWord 32 0x2CA01106,
      decodeTableWord 32 0x2CC01106,
      decodeTableWord 32 0x2CE01106,
      decodeTableWord 32 0x2D001106,
      decodeTableWord 32 0x2D201106,
      decodeTableWord 32 0x2D401106,
      decodeTableWord 32 0x2D601106,
      decodeTableWord 32 0x2D801106,
      decodeTableWord 32 0x2DA01106,
      decodeTableWord 32 0x2DC01106,
      decodeTableWord 32 0x2DE01106,
      decodeTableWord 32 0x2E001106,
      decodeTableWord 32 0x2E201106,
      decodeTableWord 32 0x2E589106,
      decodeTableWord 32 0x2E645106,
      decodeTableWord 32 0x2E9F1106] =
    [some (.cvtF32F16 (.v 6) (.v 34)),
      some (.cvtF32Bf16 (.v 6) (.v 34)),
      some (.cvtF32E4m3 (.v 6) (.v 34)),
      some (.cvtF32E5m2 (.v 6) (.v 34)),
      some (.cvtF16F32 (.v 6) (.v 34)),
      some (.cvtBf16F32 (.v 6) (.v 34)),
      some (.cvtE4m3F32 (.v 6) (.v 34)),
      some (.cvtE5m2F32 (.v 6) (.v 34)),
      some (.cvtF64F32 (.v 6) (.v 34)),
      some (.cvtF32F64 (.v 6) (.v 34)),
      some (.cvtF32I32 (.v 6) (.v 34)),
      some (.cvtF32N32 (.v 6) (.v 34)),
      some (.cvtI32F32 (.v 6) (.v 34)),
      some (.cvtN32F32 (.v 6) (.v 34)),
      some (.cvtI32I8 (.v 6) (.v 34)),
      some (.cvtI32N8 (.v 6) (.v 34)),
      some (.cvtI8I32 (.v 6) (.v 34)),
      some (.cvtN8I32 (.v 6) (.v 34)),
      some (.cvtpk (.v 6) (.v 34) (.o 2)),
      some (.cvtup .bf16 1 (.v 6) (.v 34)),
      some (.tunpk (.v 6) (.v 34) 4)] := by
  decide +kernel

theorem test_decode_op0C :
    [decodeTableWord 32 0x301E1106,
      decodeTableWord 32 0x303E1106,
      decodeTableWord 32 0x305E1106,
      decodeTableWord 32 0x307E1106,
      decodeTableWord 32 0x309E1106,
      decodeTableWord 32 0x30BE1106,
      decodeTableWord 32 0x30DE1106,
      decodeTableWord 32 0x30FE1106] =
    [some (.frcp (.v 6) (.v 34)),
      some (.frsq (.v 6) (.v 34)),
      some (.fexp2 (.v 6) (.v 34)),
      some (.flog2 (.v 6) (.v 34)),
      some (.fsin (.v 6) (.v 34)),
      some (.fcos (.v 6) (.v 34)),
      some (.ftanh (.v 6) (.v 34)),
      some (.fsigm (.v 6) (.v 34))] := by
  decide +kernel

theorem test_decode_op0D :
    [decodeTableWord 32 0x34189106,
      decodeTableWord 32 0x34389106,
      decodeTableWord 32 0x34589106,
      decodeTableWord 32 0x34789106,
      decodeTableWord 32 0x34801106,
      decodeTableWord 32 0x34A00186,
      decodeTableWord 32 0x34C00186,
      decodeTableWord 32 0x34E00186,
      decodeTableWord 32 0x35001106,
      decodeTableWord 32 0x35201106,
      decodeTableWord 32 0x35401106,
      decodeTableWord 32 0x35601106,
      decodeTableWord 32 0x35801106,
      decodeTableWord 32 0x35A00006] =
    [some (.shfl (.v 6) (.v 34) (.o 2)),
      some (.shflup (.v 6) (.v 34) (.o 2)),
      some (.shfldn (.v 6) (.v 34) (.o 2)),
      some (.shflx (.v 6) (.v 34) (.o 2)),
      some (.bcast (.v 6) (.v 34)),
      some (.ballot (.v 6) 3),
      some (.vany (.v 6) 3),
      some (.vall (.v 6) 3),
      some (.wredAddF32 (.v 6) (.v 34)),
      some (.wredMaxF32 (.v 6) (.v 34)),
      some (.wredAddI32 (.v 6) (.v 34)),
      some (.wscanAddF32 (.v 6) (.v 34)),
      some (.wscanAddI32 (.v 6) (.v 34)),
      some (.lanes (.v 6))] := by
  decide +kernel

theorem test_decode_op0E :
    [decodeTableWord 32 0x38001106,
      decodeTableWord 32 0x38789106,
      decodeTableWord 32 0x3920D106,
      decodeTableWord 32 0x3A389106,
      decodeTableWord 32 0x3B20C183,
      decodeTableWord 32 0x3B800B14,
      decodeTableWord 32 0x3BA01106] =
    [some (.mov (.v 6) (.v 34)),
      some (.sel (.v 6) 3 (.v 34) (.o 2)),
      some (.toabs .f16 (.v 6) (.v 34) 3),
      some (.defabs .f16 (.v 6) (.v 34) (.o 2)),
      some (.plog .or 3 3 3),
      some (.gtag 20 22),
      some (.mkg (.v 6) (.v 34))] := by
  decide +kernel

theorem test_decode_op0F :
    [decodeTableWord 32 0x3C555106,
      decodeTableWord 32 0x3CD55106,
      decodeTableWord 32 0x3D555106,
      decodeTableWord 32 0x3DD55106,
      decodeTableWord 32 0x3E049106,
      decodeTableWord 32 0x3E849106,
      decodeTableWord 32 0x3F049106,
      decodeTableWord 32 0x3FD54006] =
    [some (.iaddi (.v 6) (.v 34) 341),
      some (.andi (.v 6) (.v 34) 341),
      some (.ori (.v 6) (.v 34) 341),
      some (.xori (.v 6) (.v 34) 341),
      some (.shli (.v 6) (.v 34) 18),
      some (.shri (.v 6) (.v 34) 18),
      some (.sari (.v 6) (.v 34) 18),
      some (.movi (.v 6) 341)] := by
  decide +kernel

theorem test_decode_op10 :
    [decodeTableWord 32 0x40018594,
      decodeTableWord 32 0x40058594,
      decodeTableWord 32 0x40098594,
      decodeTableWord 32 0x400D8594,
      decodeTableWord 32 0x40118594,
      decodeTableWord 32 0x40158594,
      decodeTableWord 32 0x40198594,
      decodeTableWord 32 0x401D8594,
      decodeTableWord 32 0x40218594,
      decodeTableWord 32 0x40258594,
      decodeTableWord 32 0x40298594,
      decodeTableWord 32 0x402D8594,
      decodeTableWord 32 0x40318594,
      decodeTableWord 32 0x40358594,
      decodeTableWord 32 0x40398594,
      decodeTableWord 32 0x403D8594,
      decodeTableWord 32 0x40418594,
      decodeTableWord 32 0x40458594,
      decodeTableWord 32 0x40480594,
      decodeTableWord 32 0x404C0594,
      decodeTableWord 32 0x40518594,
      decodeTableWord 32 0x40558594,
      decodeTableWord 32 0x40598594,
      decodeTableWord 32 0x405D8594,
      decodeTableWord 32 0x40618594,
      decodeTableWord 32 0x40658594] =
    [some (.sadd 20 22 24),
      some (.ssub 20 22 24),
      some (.smul 20 22 24),
      some (.smulhI 20 22 24),
      some (.smulhN 20 22 24),
      some (.sminI 20 22 24),
      some (.smaxI 20 22 24),
      some (.sminN 20 22 24),
      some (.smaxN 20 22 24),
      some (.sand 20 22 24),
      some (.sor 20 22 24),
      some (.sxor 20 22 24),
      some (.sshl 20 22 24),
      some (.sshr 20 22 24),
      some (.ssar 20 22 24),
      some (.sbfeI 20 22 24),
      some (.sbfeN 20 22 24),
      some (.sbfi 20 22 24),
      some (.spopc 20 22),
      some (.sclz 20 22),
      some (.sadd64 20 22 24),
      some (.ssub64 20 22 24),
      some (.sshl64 20 22 24),
      some (.scmpEq 20 22 24),
      some (.scmpLtI 20 22 24),
      some (.scmpLtN 20 22 24)] := by
  decide +kernel

theorem test_decode_op11 :
    [decodeTableWord 32 0x442A5594,
      decodeTableWord 32 0x446A5594,
      decodeTableWord 32 0x44AA5594,
      decodeTableWord 32 0x44EA5594,
      decodeTableWord 32 0x45012594,
      decodeTableWord 32 0x45412594,
      decodeTableWord 32 0x45812594,
      decodeTableWord 32 0x45EA5594,
      decodeTableWord 32 0x462A5014] =
    [some (.saddi 20 22 677),
      some (.sandi 20 22 677),
      some (.sori 20 22 677),
      some (.sxori 20 22 677),
      some (.sshli 20 22 18),
      some (.sshri 20 22 18),
      some (.ssari 20 22 18),
      some (.scmpiLt 20 22 677),
      some (.smovi 20 677)] := by
  decide +kernel

theorem test_decode_op12 :
    [decodeTableWord 32 0x48026954,
      decodeTableWord 32 0x4804085A,
      decodeTableWord 32 0x4809A594,
      decodeTableWord 32 0x480C0694,
      decodeTableWord 64 0x89ABCDEF48100014,
      decodeTableWord 32 0x4815A586] =
    [some (.srd 20 2469),
      some (.swr 33 26),
      some (.vtos 20 22 26),
      some (.stov 20 26),
      some (.smovw 20 2309737967),
      some (.bdset 6 22 26)] := by
  decide +kernel

theorem test_decode_op13 :
    [decodeTableWord 32 0x4E6AF354] =
    [some (.slui 20 633805)] := by
  decide +kernel

theorem test_decode_op14 :
    [decodeTableWord 32 0x500009A5,
      decodeTableWord 32 0x504369A5,
      decodeTableWord 32 0x508369A5,
      decodeTableWord 32 0x50C309A5,
      decodeTableWord 32 0x510309A5,
      decodeTableWord 32 0x515A09A5,
      decodeTableWord 32 0x519A09A5,
      decodeTableWord 64 0x89ABCDEF51C00000] =
    [some (.bra 2469),
      some (.bpt 3 6 2469),
      some (.bpf 3 6 2469),
      some (.bany 3 2469),
      some (.ball 3 2469),
      some (.bnz 26 2469),
      some (.bz 26 2469),
      some (.jmp 2309737967)] := by
  decide +kernel

theorem test_decode_op15 :
    [decodeTableWord 32 0x540C8690,
      decodeTableWord 32 0x544C8574,
      decodeTableWord 32 0x54800010] =
    [some (.loop 1 26 200),
      some (.loopi 1 87 200),
      some (.lbrk 1)] := by
  decide +kernel

theorem test_decode_op16 :
    [decodeTableWord 32 0x58000000,
      decodeTableWord 32 0x58400006,
      decodeTableWord 64 0x89ABCDEF58800000,
      decodeTableWord 32 0x58C00480,
      decodeTableWord 32 0x59000000,
      decodeTableWord 32 0x59400480,
      decodeTableWord 32 0x5980602A,
      decodeTableWord 64 0x654AAAAA59C006DB,
      decodeTableWord 32 0x5A000000,
      decodeTableWord 32 0x5A408421,
      decodeTableWord 32 0x5A8006DB] =
    [some (.nop),
      some (.rcv 6),
      some (.call 2309737967),
      some (.callr 18),
      some (.ret),
      some (.jr 18),
      some (.yield 6 42),
      some (.yieldc 3 3 3 3 6 42 699050),
      some (.exit),
      some (.trap 33825),
      some (.wait 3 3 3 3)] := by
  decide +kernel

theorem test_decode_op17 :
    [decodeTableWord 32 0x5C11A698,
      decodeTableWord 32 0x5C518680,
      decodeTableWord 32 0x5C90069A,
      decodeTableWord 32 0x5CD1A680,
      decodeTableWord 32 0x5D11A69A,
      decodeTableWord 32 0x5D51A694,
      decodeTableWord 32 0x5D91A69A,
      decodeTableWord 32 0x5DD00680,
      decodeTableWord 32 0x5E000000] =
    [some (.barinit true 26 26 24),
      some (.barexp true 26 24),
      some (.bararr true 26 26),
      some (.barwait true 26 26),
      some (.bartry true 26 26 26),
      some (.ringinit true 26 26 20),
      some (.awaitf true 26 26 26),
      some (.rels true 26),
      some (.wgbar)] := by
  decide +kernel

theorem test_decode_op18 :
    [decodeTableWord 64 0xFEDCBA98622D8506] =
    [some (.ldg .b32 .acq .l2 (.v 6) 6 (.v 10) (some 0xFEDCBA98))] := by
  decide +kernel

theorem test_decode_op19 :
    [decodeTableWord 64 0xFEDCBA98662D8506] =
    [some (.stg .b32 .rel .l2 6 (.v 10) (some 0xFEDCBA98) (.v 6))] := by
  decide +kernel

theorem test_decode_op1A :
    [decodeTableWord 64 0xFEDCBA986A0D8506,
      decodeTableWord 64 0xFEDCBA986A2D8506,
      decodeTableWord 64 0xFEDCBA986A4D8506,
      decodeTableWord 64 0xFEDCBA986A6D8506] =
    [some (.ldsp .b32 true (.v 6) 6 (.v 10) (some 0xFEDCBA98)),
      some (.ldcl .b32 true (.v 6) 6 (.v 10) (some 0xFEDCBA98)),
      some (.ldst .b32 true (.v 6) 6 (.v 10) (some 0xFEDCBA98)),
      some (.ldlp .b32 true (.v 6) 6 (.v 10) (some 0xFEDCBA98))] := by
  decide +kernel

theorem test_decode_op1B :
    [decodeTableWord 64 0xFEDCBA986E0D8506,
      decodeTableWord 64 0xFEDCBA986E2D8506,
      decodeTableWord 64 0xFEDCBA986E4D8506,
      decodeTableWord 64 0xFEDCBA986E6D8506] =
    [some (.stsp .b32 true 6 (.v 10) (some 0xFEDCBA98) (.v 6)),
      some (.stcl .b32 true 6 (.v 10) (some 0xFEDCBA98) (.v 6)),
      some (.stst .b32 true 6 (.v 10) (some 0xFEDCBA98) (.v 6)),
      some (.stlp .b32 true 6 (.v 10) (some 0xFEDCBA98) (.v 6))] := by
  decide +kernel

theorem test_decode_op1C :
    [decodeTableWord 64 0xFEDCBA98721D8506,
      decodeTableWord 64 0xFEDCBA98725D8506] =
    [some (.ldb .b32 .acq true (.v 6) 6 (.v 10) (some 0xFEDCBA98)),
      some (.stb .b32 .rel true 6 (.v 10) (some 0xFEDCBA98) (.v 6))] := by
  decide +kernel

theorem test_decode_op1D :
    [decodeTableWord 32 0x74118506,
      decodeTableWord 32 0x74518506,
      decodeTableWord 32 0x74918506,
      decodeTableWord 32 0x74D18506,
      decodeTableWord 32 0x75118506,
      decodeTableWord 32 0x75518506,
      decodeTableWord 32 0x75918506,
      decodeTableWord 32 0x75D18506,
      decodeTableWord 32 0x761D8506,
      decodeTableWord 32 0x76558506] =
    [some (.aadd .acq .i32 (.v 6) 6 (.v 10)),
      some (.amin .acq .i32 (.v 6) 6 (.v 10)),
      some (.amax .acq .i32 (.v 6) 6 (.v 10)),
      some (.aand .acq .i32 (.v 6) 6 (.v 10)),
      some (.aor .acq .i32 (.v 6) 6 (.v 10)),
      some (.axor .acq .i32 (.v 6) 6 (.v 10)),
      some (.axch .acq .i32 (.v 6) 6 (.v 10)),
      some (.acas .acq .i32 (.v 6) 6 (.v 10)),
      some (.aacc .acq (.v 6) 6 (.v 10)),
      some (.ainc .acq true (.v 6) 6 (.v 10))] := by
  decide +kernel

theorem test_decode_op1E :
    [decodeTableWord 32 0x78140506,
      decodeTableWord 32 0x78540506,
      decodeTableWord 32 0x78940506,
      decodeTableWord 32 0x78D40506,
      decodeTableWord 32 0x79140506,
      decodeTableWord 32 0x79540506,
      decodeTableWord 32 0x79940506,
      decodeTableWord 32 0x79D40506,
      decodeTableWord 32 0x7A170506,
      decodeTableWord 32 0x7A550506] =
    [some (.aaddSpace .acq .clmem .i32 (.v 6) (.v 10)),
      some (.aminSpace .acq .clmem .i32 (.v 6) (.v 10)),
      some (.amaxSpace .acq .clmem .i32 (.v 6) (.v 10)),
      some (.aandSpace .acq .clmem .i32 (.v 6) (.v 10)),
      some (.aorSpace .acq .clmem .i32 (.v 6) (.v 10)),
      some (.axorSpace .acq .clmem .i32 (.v 6) (.v 10)),
      some (.axchSpace .acq .clmem .i32 (.v 6) (.v 10)),
      some (.acasSpace .acq .clmem .i32 (.v 6) (.v 10)),
      some (.aaccSpace .acq .clmem (.v 6) (.v 10)),
      some (.aincSpace .acq .clmem true (.v 6) (.v 10))] := by
  decide +kernel

theorem test_decode_op1F :
    [decodeTableWord 32 0x7C011000,
      decodeTableWord 32 0x7C6A5581,
      decodeTableWord 32 0x7C800594,
      decodeTableWord 32 0x7CEA5594,
      decodeTableWord 32 0x7D2A5594] =
    [some (.fence .rel .wg),
      some (.cprf 677 22 true),
      some (.cflush 22 20),
      some (.sld 20 22 677),
      some (.sst 22 677 20)] := by
  decide +kernel

theorem test_decode_op20 :
    [decodeTableWord 64 0x69A069A5801A69A6,
      decodeTableWord 64 0x69A069A6805A69A6,
      decodeTableWord 64 0x69A069A4809A69A6,
      decodeTableWord 64 0x69A069A080DA69A6,
      decodeTableWord 64 0x69A069A1811A69A6,
      decodeTableWord 64 0x69A069A2815A69A6,
      decodeTableWord 64 0x69A069A4819A69A6,
      decodeTableWord 64 0x69A069A281DA69A6,
      decodeTableWord 64 0x69A06806821A69A6,
      decodeTableWord 64 0x69A069A0825A69A6,
      decodeTableWord 64 0x68000000829A0001] =
    [some (.cpyG2s 26 26 26 6 26 26 26 26 true false true),
      some (.cpyG2c 26 26 26 6 26 26 26 26 true true),
      some (.cpyG2t 26 26 26 6 26 26 26 26 true),
      some (.cpyS2g 26 26 26 6 26 26 26 26),
      some (.cpyC2s 26 26 26 6 26 26 26 26 true false),
      some (.cpyS2c 26 26 26 6 26 26 26 26 true),
      some (.cpym 26 26 26 6 26 26 26 26 true),
      some (.cpyx 26 26 26 6 26 26 26 26 true),
      some (.cpyg 26 26 26 6 26 26 26 0 true true),
      some (.cred 26 26 26 6 26 26 26 26),
      some (.cpycan 26 true 26)] := by
  decide +kernel

theorem test_decode_op21 :
    [decodeTableWord 64 0x89ABCDEF840C0000,
      decodeTableWord 32 0x844C0000,
      decodeTableWord 32 0x848D2901,
      decodeTableWord 32 0x84CC6900] =
    [some (.mres 6 2309737967),
      some (.mfree 6),
      some (.mld .spad 6 18 18),
      some (.mscl 6 6 18)] := by
  decide +kernel

theorem test_decode_op22 :
    [decodeTableWord 32 0x88000906,
      decodeTableWord 32 0x88400006,
      decodeTableWord 32 0x888C6901,
      decodeTableWord 32 0x88C00000,
      decodeTableWord 32 0x8906691F,
      decodeTableWord 64 0x89ABCDEF8946691A,
      decodeTableWord 32 0x89806000,
      decodeTableWord 32 0x89C60000,
      decodeTableWord 32 0x8A066000] =
    [some (.mgang 18 6),
      some (.mshape 6),
      some (.mls 6 true 6 18),
      some (.mswap),
      some (.mma 3 6 18 1 true true true true),
      some (.mdrain 3 6 18 26 2309737967),
      some (.mtab 6),
      some (.mzero 3),
      some (.mfill 3 6)] := by
  decide +kernel

theorem test_decode_op23 :
    [decodeTableWord 32 0x8C01A594,
      decodeTableWord 32 0x8C400000,
      decodeTableWord 32 0x8C800594,
      decodeTableWord 32 0x8CC00594,
      decodeTableWord 32 0x8D000014,
      decodeTableWord 32 0x8D400580] =
    [some (.launch 20 22 26),
      some (.commit),
      some (.spgrow 20 22),
      some (.lpgrow 20 22),
      some (.qwait 20),
      some (.allow 22)] := by
  decide +kernel

theorem test_decode_op24 :
    [decodeTableWord 32 0x90000000,
      decodeTableWord 32 0x90400594,
      decodeTableWord 32 0x90818580,
      decodeTableWord 32 0x90C18580,
      decodeTableWord 32 0x91018580,
      decodeTableWord 32 0x91400014] =
    [some (.tret),
      some (.pcsrr 20 22),
      some (.pcsrw 22 24),
      some (.tinv 22 24),
      some (.rqrel 22 24),
      some (.hlt 20)] := by
  decide +kernel

theorem test_decode_op25 :
    [decodeTableWord 32 0x94008421,
      decodeTableWord 32 0x94408421] =
    [some (.brk 33825),
      some (.tmark 33825)] := by
  decide +kernel

theorem test_decode_op26 :
    [decodeTableWord 32 0x98801114,
      decodeTableWord 32 0x98A01114] =
    [some (.mredAdd .f16 20 (.v 34)),
      some (.mscanAdd .f16 20 (.v 34))] := by
  decide +kernel


/-! ### What meets the hypotheses: words and scalars -/

/-- Serves every statement that asks for `Standing` alone: ScalarResults, SpecialRegisters, Compares, Branches and others. -/
theorem witness_standing : Standing demo (here demo) := ⟨rfl, rfl, rfl, rfl⟩

theorem witness_WordMovesOnlyItsEntity : Standing demo (here demo) ∧ (here demo).inside 1 ∧ (here demo).pastGrant = false :=
  ⟨witness_standing, by unfold Cur.inside; decide +kernel, by decide +kernel⟩

/-- The last word of a clause, of a team whose only entity it is, and of one with another entity in a `yieldc` or a `hlt`. -/
theorem witness_LastWordRetiresClause :
    (Standing demo (here demo) ∧ ¬ (here demo).inside 2 ∧ demo.calm (here demo).e.team ∧ (here demo).e.loops = [] ∧ (here demo).t.dying = false ∧
      ∀ x ∈ demo.ents, x.2.team = (here demo).e.team → x.1 ≠ (here demo).eid → x.2.hold ≠ some .yieldc ∧ x.2.hold ≠ some .hlt) ∧
    ∀ h ∈ [Hold.yieldc, .hlt],
    let s := demoF (some h)
    Standing s (here s) ∧ ¬ (here s).inside 2 ∧ s.calm (here s).e.team ∧
      ∃ x, tabGet s.ents 6 = some x ∧ x.team = (here s).e.team ∧ 6 ≠ (here s).eid ∧ (x.hold = some .yieldc ∨ x.hold = some .hlt) :=
  ⟨⟨witness_standing, by unfold Cur.inside; decide +kernel, calm_of _ _ (by decide +kernel), by decide +kernel⟩,
    fun h hh => by
      have hh : h = .yieldc ∨ h = .hlt := by simpa using hh
      rcases hh with rfl | rfl <;>
        exact ⟨standing_of _ (by decide +kernel), by unfold Cur.inside; decide +kernel, calm_of _ _ (by decide +kernel), _, rfl, by decide +kernel⟩⟩

theorem witness_ScalarRegistersBehave : (1 : Nat) ≠ 0 ∧ (3 : Nat) ≠ 1 ∧ 3 ≠ 2 * 1 ∧ (4 : Nat) ≠ 2 * 1 + 1 := by decide

theorem witness_SluiAsTheRuleSays : (0x4C000000 : Nat) < 2 ^ 32 ∧ 0x4C000000 / 2 ^ 26 = 0x13 ∧ 0x4FFFFFFF / 2 ^ 26 = 0x13 := by decide

/-- One word, the low word of a pair, and its high word after the low one was read and where it was not. -/
theorem witness_SpecialRegisters :
    (demo.wideReg (here demo).t 0 = none) ∧ (demo.wideReg (here demo).t 0x4B = none ∧ demo.wideReg (here demo).t 0x4A = none) ∧
    (∃ v, demo.wideReg (here demo).t 0x30 = some v) ∧
    let s := demoE fun e => { e with snap := some (0x30, 5) }
    (Standing s (here s) ∧ s.wideReg (here s).t 0x31 = none ∧ (∃ v, s.wideReg (here s).t 0x30 = some v) ∧ (here s).e.snap = some (0x30, 5)) ∧
    (here demo).e.snap = none ∧ (here demo).t.gang = none ∧ demo.wgOf (here demo).t ≠ none ∧ demo.gridOf (here demo).t ≠ none :=
  ⟨by decide +kernel, by decide +kernel, ⟨_, rfl⟩, ⟨⟨rfl, rfl, rfl, rfl⟩, by decide +kernel, ⟨_, rfl⟩, by decide +kernel⟩, by decide +kernel⟩

theorem witness_MovesBetweenFiles : (here demo).i.cls ≠ .vx ∧
    let s := demoI fun i => { i with cls := .vx, gcounts := [(1, 64)] }
    Standing s (here s) ∧ (here s).i.cls = .vx ∧ tabGet (here s).i.gcounts ((here s).i.next + 1) = some 64 :=
  ⟨by decide +kernel, ⟨rfl, rfl, rfl, rfl⟩, by decide +kernel⟩

theorem witness_ScalarFrame : ∃ t, exec (.sadd 1 2 3) demo = .next t := ⟨_, rfl⟩

/-! ### Vector instructions -/

/-- A result has room where the check at the issue found none to pass the grant, and where it found that a later word does; serves every
`VecResult` and `VecResult64`. -/
theorem witness_vector_room : Room (here demo) ∧
    let s := demoI fun i => { i with xreg := some 2 }
    Standing s (here s) ∧ Room (here s) :=
  ⟨⟨by decide +kernel, by decide +kernel⟩, ⟨rfl, rfl, rfl, rfl⟩, by decide +kernel, by decide +kernel⟩

/-- No lane is active. -/
theorem witness_vector_masked : let s := demoE fun e => { e with mask := 0 }
    Standing s (here s) ∧ (here s).e.mask = 0 := ⟨⟨rfl, rfl, rfl, rfl⟩, by decide +kernel⟩

/-- A lane is active and the check at the issue found that this word passes the grant. -/
theorem witness_vector_no_room : let s := demoI fun i => { i with xreg := some 1 }
    Standing s (here s) ∧ (here s).e.mask ≠ 0 ∧ ¬ Room (here s) :=
  ⟨⟨rfl, rfl, rfl, rfl⟩, by decide +kernel, fun h => Bool.noConfusion (h.2.symm.trans (by decide +kernel : (here (demoI fun i => { i with xreg := some 1 })).pastGrant = true))⟩

theorem witness_TagsAndAffineResults : (∀ t ∈ [Tag.u, .x], t = .u ∨ t = .x) ∧ Tag.g ∈ [Tag.u, .g] ∧ TagRule.plain ≠ .keep ∧
    2 ≤ 2 ∧ (1 : Nat) < 2 := by decide

theorem witness_SelectionCopiesBits : ∀ n ∈ [1, 7], let w := 0x38000000 + n * 2097152 + 2 * 16384 + 1 * 128 + 3
    w < 2 ^ 32 ∧ w / 2 ^ 26 = 0x0E ∧ w / 2 ^ 21 % 32 = n ∧ (match decodePair w 0 with | .ok _ => true | .error _ => false) = true := by
  decide +kernel

/-- Zero is a present number that is no NaN; 3 is finite; and NaNs. -/
theorem witness_FloatAbsentClasses : ∀ f ∈ [fmtF32, fmtF64, fmtF16, fmtBf16, fmtE4m3, fmtE5m2], numOf f 0 ≠ .absent ∧ (∀ n, numOf f 0 ≠ .nan n) ∧
    numOf f f.nan = .nan false := by
  decide +kernel

/-- Numbers for the rounding: 3 is finite and no NaN; an infinity; a signalling NaN; and zero. -/
theorem witness_FloatResults : (numOf fmtF32 0x40400000 ≠ .absent ∧ ∃ n m e, numOf fmtF32 0x40400000 = .fin n m e ∧ m ≠ 0) ∧
    numOf fmtF32 0x7F800000 = .inf false ∧ numOf fmtF32 0x7F800001 = .nan true ∧ (∃ e, numOf fmtF32 0 = .fin false 0 e) ∧
    ∃ e, numOf fmtF32 0x80000000 = .fin true 0 e :=
  ⟨⟨by decide +kernel, _, _, _, rfl, by decide +kernel⟩, by decide +kernel, by decide +kernel, ⟨_, rfl⟩, _, rfl⟩

/-- A product of finite numbers with an absent and with a finite addend; none present; one with a NaN; 1 and −1, whose sum is zero; and infinities
and a zero. -/
theorem witness_FusedAndDotResults : numOf fmtF32 fmtF32.absent = .absent ∧ (∃ n m e, numOf fmtF32 0x40400000 = .fin n m e) ∧
    (∃ g, numOf fmtF32 0x7FC00000 = .nan g) ∧
    (numOf fmtF32 0x3F800000 = .fin false 8388608 (-23) ∧ numOf fmtF32 0xBF800000 = .fin true 8388608 (-23)) ∧
    numOf fmtF32 0x7F800000 = .inf false ∧ numOf fmtF32 0xFF800000 = .inf true ∧ ∃ e, numOf fmtF32 0 = .fin false 0 e :=
  ⟨by decide +kernel, ⟨_, _, _, rfl⟩, ⟨_, rfl⟩, by decide +kernel, by decide +kernel, by decide +kernel, _, rfl⟩

/-- Contributions of a word: 1 and −1, whose sum is zero, infinities of both signs, and NaNs. -/
theorem witness_WordSumAndMaximum : (numOf fmtF32 (0x3F800000 : Word).toNat = .fin false 8388608 (-23) ∧
      numOf fmtF32 (0xBF800000 : Word).toNat = .fin true 8388608 (-23)) ∧
    numOf fmtF32 (0x7F800000 : Word).toNat = .inf false ∧ numOf fmtF32 (0xFF800000 : Word).toNat = .inf true ∧
    numOf fmtF32 (0x7FC00000 : Word).toNat = .nan false ∧ numOf fmtF32 (0x7F800001 : Word).toNat = .nan true := by
  decide +kernel

/-- −0 below +0, and 1 below 2. -/
theorem witness_Compares : (∃ d e, numOf fmtF32 0x80000000 = .fin true 0 d ∧ numOf fmtF32 0 = .fin false 0 e) ∧
    numOf fmtF32 0x3F800000 = .fin false 8388608 (-23) ∧ numOf fmtF32 0x40000000 = .fin false 8388608 (-22) ∧
      rat false 8388608 (-23) < rat false 8388608 (-22) :=
  ⟨⟨_, _, rfl, rfl⟩, by decide +kernel, by decide +kernel, by norm_num [rat]⟩

theorem witness_Conversions : numOf fmtF32 0x7FC00000 ≠ .absent ∧ numOf fmtF32 0x7FC00000 = .nan false ∧ numOf fmtF32 0 ≠ .absent ∧
    numOf fmtF32 0xFF800000 = .inf true ∧ (numOf fmtF32 0x3F800000 = .fin false 8388608 (-23) ∧ numOf fmtF16 0x3C00 = .fin false 1024 (-10)) ∧
    valOf .i32 5 = some 5 ∧ valOf .i32 0 = some 0 ∧ valOf .i32 0x80000000 = none := by
  decide +kernel

/-- Lane 0 holds the reserved byte 244; with STRICT it faults, without it goes on. -/
theorem witness_TernaryUnpacking : let f (t : Team) : Team := t.setV 1 (tagged .g (List.replicate 32 244))
    let s := demoT f
    let u := (demoI fun i => { i with mode := 16 }).modTeam 4 f
    Standing s (here s) ∧ (here s).strict = false ∧ Room (here s) ∧
    Standing u (here u) ∧ (here u).strict = true ∧ (here u).reservedLanes (.v 1) ≠ [] :=
  ⟨⟨rfl, rfl, rfl, rfl⟩, by decide +kernel, ⟨by decide +kernel, by decide +kernel⟩, ⟨rfl, rfl, rfl, rfl⟩, by decide +kernel, by decide +kernel⟩

theorem witness_SpecialFunctionResults : numOf fmtF32 (0xFF800001 : Word).toNat = .absent ∧ numOf fmtF32 (0x7FC00000 : Word).toNat = .nan false ∧
    numOf fmtF32 (0x7F800001 : Word).toNat = .nan true := by decide +kernel

/-- The inputs of the table and of the exact results: both zeros, an infinity, a negative number; −2 as a power of two; 4 as an even one; 128 and
−127 for `fexp2`; a number whose reciprocal is within the range, and one, 2^−129, whose reciprocal is not; and a bound that a code meets. -/
theorem witness_SpecialInputs : (∃ e, numOf fmtF32 0x80000000 = .fin true 0 e) ∧ numOf fmtF32 0xFF800000 = .inf true ∧
    (numOf fmtF32 0xC0000000 = .fin true 8388608 (-22) ∧ rat true 8388608 (-22) = -1 * 2 ^ (1 : Int)) ∧
    (numOf fmtF32 0x40800000 = .fin false 8388608 (-21) ∧ rat false 8388608 (-21) = 2 ^ (2 * 1 : Int)) ∧
    (numOf fmtF32 0x43000000 = .fin false 8388608 (-16) ∧ 128 ≤ rat false 8388608 (-16)) ∧
    (numOf fmtF32 0xC2FE0000 = .fin true 16646144 (-17) ∧ rat true 16646144 (-17) = ((-127 : Int) : ℚ) ∧ rat true 16646144 (-17) < -126) ∧
    numOf fmtF32 0x00100000 = .fin false 1048576 (-149) ∧ rat false 1048576 (-149) = 2 ^ (-129 : Int) :=
  ⟨⟨_, rfl⟩, by decide +kernel, ⟨by decide +kernel, by norm_num [rat]⟩, ⟨by decide +kernel, by norm_num [rat]⟩,
    ⟨by decide +kernel, by norm_num [rat]⟩, ⟨by decide +kernel, by norm_num [rat], by norm_num [rat]⟩, by decide +kernel, by norm_num [rat]⟩

/-! ### Control -/


theorem witness_Branches : Standing demo (here demo) ∧ demo.calm (here demo).e.team := ⟨witness_standing, calm_of _ _ (by decide +kernel)⟩

/-- No lane, every lane, and half of the lanes taken, the tie; a free split-table entry. -/
theorem witness_LaneBranches : let m := (here demo).e.mask
    (m &&& (here demo).t.preg 1 = 0 ∧ m &&& ~~~(here demo).t.preg 0 = 0 ∧ m &&& (here demo).t.preg 0 ≠ 0 ∧
      m &&& ~~~(m &&& (here demo).t.preg 0) = 0 ∧ m &&& ~~~(here demo).t.preg 1 ≠ 0 ∧ m &&& ~~~(m &&& ~~~(here demo).t.preg 1) = 0) ∧
    let s := demoT fun t => t.setP 1 (fullMask 16)
    Standing s (here s) ∧ s.calm (here s).e.team ∧ tabGet s.ents s.nextId = none ∧
    s.freeEntryOf (s.coreOf (here s).t) (here s).t.part = some 0 ∧ (∀ l ∈ (here s).e.loops, l.stop ≠ (here s).i.after) ∧
    (here s).e.mask &&& (here s).t.preg 1 ≠ 0 ∧ (here s).e.mask &&& ~~~((here s).e.mask &&& (here s).t.preg 1) ≠ 0 ∧
    popCount ((here s).e.mask &&& (here s).t.preg 1) = popCount ((here s).e.mask &&& ~~~((here s).e.mask &&& (here s).t.preg 1)) :=
  ⟨by decide +kernel, ⟨rfl, rfl, rfl, rfl⟩, calm_of _ _ (by decide +kernel), by decide +kernel⟩

/-- `demo` with half of its lanes in predicate 1, and with 16 fragments of its team, one in each entry of the split table. -/
def halved : State := demoT fun t => t.setP 1 (fullMask 16)
def crowded (s : State) : State :=
  { s with ents := s.ents ++ (List.range 16).map fun i => (10 + i, { startEntity 4 0 0 with parent := some 5, token := 9, entry := i }) }

/-- No free entry, and the slot of token 3 free and occupied; a level that ends where the smaller side falls through to, and where the larger one
does. -/
theorem witness_DivergenceWithoutEntry :
    (∀ s ∈ [crowded halved, crowded (halved.modEnt 5 fun e => { e with slots := [(3, { mask := 1, pc := 64, count := 0, opened := 0, arrived := false })] })],
      Standing s (here s) ∧ s.calm 4 ∧ s.freeEntryOf (s.coreOf (here s).t) (here s).t.part = none) ∧
    tabGet (here (crowded halved)).e.slots 3 = none ∧ ((here (crowded (demoS false))).e.slots.map (·.1)) = [3] ∧
    let s := halved.modEnt 5 fun e => { e with loops := [{ count := 1, start := 0, stop := 12 }] }
    Standing s (here s) ∧ s.calm 4 ∧ (∃ l ∈ (here s).e.loops, l.stop = (here s).i.after) ∧ tabGet s.ents s.nextId = none ∧
      loopNext 0 (here s).e.loops.reverse (here s).i.after = some ([], 12) ∧
      (here s).e.mask &&& (here s).t.preg 1 = fullMask 16 ∧ (here s).e.mask &&& ~~~(here s).t.preg 1 ≠ 0 := by
  refine ⟨fun s hs => ?_, by decide +kernel, by decide +kernel, standing_of _ (by decide +kernel), calm_of _ _ (by decide +kernel), by decide +kernel⟩
  simp only [List.mem_cons, List.mem_nil_iff, or_false] at hs
  rcases hs with rfl | rfl <;> exact ⟨standing_of _ (by decide +kernel), calm_of _ _ (by decide +kernel), by decide +kernel⟩

/-- A split table without a fragment: its lowest entry is free. -/
theorem witness_EntryIsTheLowestFree : tabGet demo.ents demo.nextId = none ∧ demo.freeEntryOf 0 0 = some 0 := by decide +kernel

/-- Nothing to wait for; a fragment that runs; one that has stopped; a fragment at its own token; and one there with a level of its own. -/
theorem witness_ReconvergenceAtRcv :
    (tabGet (here demo).e.slots 3 = none ∧ (here demo).e.parent = none ∧ (demo.ents.filter fun x => x.2.parent == some 5) = []) ∧
    (let s := demoF none
     Standing s (here s) ∧ s.calm 4 ∧ ∃ x ∈ s.ents, x.2.parent = some 5 ∧ x.2.token = 3 ∧ x.2.hold ≠ some .merge) ∧
    (let s := demoF (some .merge)
     Standing s (here s) ∧ s.calm 4 ∧ (here s).inside 1 ∧ (here s).e.parent = none ∧ tabSorted 0 s.ents = true ∧
       (s.ents.filter fun x => x.2.parent == some 5) ≠ [] ∧ ∀ x ∈ s.ents, x.2.parent = some 5 → x.2.hold = some .merge ∧ x.1 ≠ 5) ∧
    let s (ls : List LoopLevel) : State := { demoE fun e => { e with parent := some 7, token := 3, loops := ls } with
      ents := tabPut (demoE fun e => { e with parent := some 7, token := 3, loops := ls }).ents 7 (startEntity 4 0 0) }
    (Standing (s []) (here (s [])) ∧ (here (s [])).e.parent = some 7 ∧ (tabGet (s []).ents 7).isSome ∧ (here (s [])).e.token = 3 ∧
      (here (s [])).e.loops.length ≤ (here (s [])).e.inherited ∧ ((s []).ents.filter fun x => x.2.parent == some 5) = []) ∧
    let s := s [{ count := 1, start := 0, stop := 64 }]
    Standing s (here s) ∧ s.calm 4 ∧ (here s).e.inherited < (here s).e.loops.length ∧ (∀ x ∈ (here s).e.slots, x.2.minority = false) :=
  ⟨by decide +kernel, ⟨⟨rfl, rfl, rfl, rfl⟩, calm_of _ _ (by decide +kernel), by decide +kernel⟩,
    ⟨⟨rfl, rfl, rfl, rfl⟩, calm_of _ _ (by decide +kernel), by unfold Cur.inside; decide +kernel, by decide +kernel⟩,
    stands _ (by decide +kernel), standing_of _ (by decide +kernel), calm_of _ _ (by decide +kernel), by decide +kernel⟩

theorem witness_DeferredPathsSwitch : ∀ b : Bool, Standing (demoS b) (here (demoS b)) ∧ (demoS b).calm 4 ∧
    (∃ sl, tabGet (here (demoS b)).e.slots 3 = some sl ∧ sl.arrived = b) ∧ (here (demoS b)).inside 1 ∧
    ((demoS b).ents.filter fun x => x.2.parent == some 5 && x.2.token == 3) = [] ∧ tabSorted 0 (here (demoS b)).e.slots = true := by
  intro b
  cases b <;> exact ⟨⟨rfl, rfl, rfl, rfl⟩, calm_of _ _ (by decide +kernel), ⟨_, rfl, rfl⟩, by unfold Cur.inside; decide +kernel, by decide +kernel⟩

/-- Room for exactly one frame, and none; an address that is a word's and one that is not; the one address of a call to return to, and no
depth to return from. -/
theorem witness_CallsAndReturns :
    (let s := demoT fun t => { t with laneSize := 240 }
     Standing s (here s) ∧ (here s).laneMax s = 256 ∧ (∀ l ∈ (here s).frames, (here s).t.laneSize + 8 * ((here s).t.depth 256 l + 2) ≤ 256) ∧
       ((here s).t.xreg 0).toNat % 4 = 0) ∧
    (¬ ∀ l ∈ (here demo).frames, (here demo).t.laneSize + 8 * ((here demo).t.depth 256 l + 2) ≤ 256) ∧
    ((demoT fun t => t.setX 2 1).curOf 5).any (fun c => (c.t.xreg 2).toNat % 4 == 1) = true ∧
    (let s := (demoE fun e => { e with mask := 1 }).modTeam 4 (pushed (here (demoE fun e => { e with mask := 1 })) 256)
     Standing s (here s) ∧ (here s).frames ≠ [] ∧ ∀ l ∈ (here s).frames, (here s).t.depth 256 l ≠ 0 ∧
       (here s).t.laneRead l (256 - 8 - 8 * (here s).t.depth 256 l) 8 = 12) ∧
    ∃ l ∈ (here demo).frames, (here demo).t.depth 256 l = 0 :=
  ⟨⟨⟨rfl, rfl, rfl, rfl⟩, by decide +kernel⟩, by decide +kernel, by decide +kernel, stands _ (by decide +kernel), by decide +kernel⟩

theorem witness_CallsAndLaneBytes : 4294967288 + 8 ≤ 4294967296 ∧ ((1 : Nat) ≠ 0 ∨ 8 + 8 ≤ 0 ∨ 0 + 8 ≤ 8) := by decide

/-- The first level, a second level that ends where the first does, one too many, and a break. -/
theorem witness_Loops :
    ((0 : BitVec 2).toNat = (here demo).e.loops.length) ∧
    (let s := demoE fun e => { e with loops := [{ count := 2, start := 0, stop := 16 }] }
     Standing s (here s) ∧ s.calm 4 ∧ (1 : BitVec 2).toNat = (here s).e.loops.length ∧
       (∀ l ∈ (here s).e.loops, l.start.toNat ≤ (here s).i.after.toNat ∧ ((here s).i.after + BitVec.ofNat 64 (4 * 1)).toNat ≤ l.stop.toNat) ∧
       ¬ ((here s).i.after + BitVec.ofNat 64 (4 * 2)).toNat ≤ 16 ∧
       (∃ l, (here s).e.loops[(0 : BitVec 2).toNat]? = some l) ∧ (here s).e.parent = none) ∧
    (here demo).e.loops.length ≤ (0 : BitVec 2).toNat :=
  ⟨by decide +kernel, ⟨⟨rfl, rfl, rfl, rfl⟩, calm_of _ _ (by decide +kernel), by decide +kernel, by decide +kernel, by decide +kernel,
    ⟨_, rfl⟩, by decide +kernel⟩, by decide +kernel⟩

theorem witness_LoopContinuation : let l : LoopLevel := { count := 1, start := 0, stop := 16 }
    0 ≤ ([] : List LoopLevel).length ∧ (8 : Word64) ≠ l.stop ∧ (16 : Word64) = l.stop ∧ l.count = 1 ∧
    ({ l with count := 0 } : LoopLevel).count ≠ 1 := by decide

/-- One load is outstanding: a bound of 1 is met, and one of 0 is not; 7 asks for nothing. -/
theorem witness_YieldsAndWaits : let s := demoT fun t => { t with cntLd := [{ op := 9, done := false }] }
    Standing s (here s) ∧ (here s).t.cnt .ld ≤ (1 : BitVec 3).toNat ∧ ¬ ((0 : BitVec 3) = 7 ∨ (here s).t.cnt .ld ≤ (0 : BitVec 3).toNat) :=
  ⟨⟨rfl, rfl, rfl, rfl⟩, by decide +kernel⟩

/-- The team entity; one in a handler; and an orphan. -/
theorem witness_ExitEndsEntity :
    (Standing demo (here demo) ∧ demo.calm (here demo).e.team ∧ tabSorted 0 demo.ents = true ∧ (here demo).e.slots = []) ∧
    (let s := (demoE fun e => { e with handler := some 0 }).modCtx 0 fun x => { x with traps := [(0, 5)] }
     Standing s (here s) ∧ s.calm 4 ∧ tabSorted 0 s.ents = true ∧ (here s).e.slots = [] ∧ (here s).e.handler = some 0 ∧
       tabSorted 0 (s.ctx (s.ctxOf (here s).t)).traps = true ∧ tabGet (s.ctx (s.ctxOf (here s).t)).traps 0 ≠ none) ∧
    let s := demoE fun e => { e with parent := some 9 }
    Standing s (here s) ∧ (here s).e.parent = some 9 ∧ tabGet s.ents 9 = none ∧ tabGet (here s).e.slots 3 = none ∧
      ∀ x ∈ s.ents, x.2.parent = some 5 → x.2.token ≠ 3 :=
  ⟨⟨witness_standing, calm_of _ _ (by decide +kernel), by decide +kernel⟩, ⟨standing_of _ (by decide +kernel), calm_of _ _ (by decide +kernel),
    by decide +kernel⟩, standing_of _ (by decide +kernel), by decide +kernel⟩

/-! ### Traps -/

/-- A context whose TRAP faults are trapped, with one slot at address 0x20000. -/
def trapping : State := (paged demo).modCtx 0 fun x => { x with trapEn := true, tmask := 16, tslots := 1, tarea := 0x20000, tvec := 0x30000 }

/-- A fault of the current entity with a cause. -/
def faultOf (cause : Nat) : FaultInfo := (here demo).fault cause 0

theorem witness_TrapInstruction : Standing trapping (here trapping) ∧ trapping.calm 4 ∧
    (modeTaken trapping (here trapping)).trapSlot (here trapping).e (here trapping).t (faultOf cTRAP) = some 0 ∧
    (modeTaken demo (here demo)).trapSlot (here demo).e (here demo).t (faultOf cTRAP) = none ∧ tabSorted 0 demo.ents = true ∧
    (here demo).e.slots = [] :=
  ⟨⟨rfl, rfl, rfl, rfl⟩, calm_of _ _ (by decide +kernel), by decide +kernel⟩

theorem witness_FaultDelivery : (tabGet demo.ents 5 = some (here demo).e ∧ tabGet demo.teams (here demo).e.team = some (here demo).t ∧
    tabSorted 0 demo.ents = true ∧ (here demo).e.slots = [] ∧ (faultOf cPGNP).addr2 < 2 ^ 63 ∧
    demo.trapSlot (here demo).e (here demo).t (faultOf cPGNP) = none ∧ trapping.wgOf (here trapping).t ≠ none ∧
    trapping.storeWaits 0 0 ((trapping.ctx 0).slotAddr 0) 128 = false) ∧ (∃ w, tabGet demo.wgs (here demo).t.wg = some w ∧ (tabGet demo.grids w.grid).isSome = true) :=
  ⟨by decide +kernel, _, rfl, rfl⟩

/-- A handler of slot 0 with a resume point at word 2 of the two-word clause at 0x40000, and one that waits for a store. -/
def handling : State :=
  ((trapping.modEnt 5 fun e => { e with handler := some 0 }).storeBytes 0x20040 (leBytes 8 0x40000 ++ leBytes 4 2)).storeBytes 0x40000
    (leBytes 4 0xD2000002)

/-- Whether a handler of slot 0 has something to wait for at `tret`, as a test, and what its read of the slot finds. -/
def tretWaits (s : State) : Bool :=
  s.storingTo 5 0x20040 32 || s.rangeWaits 0 0 [.load] 0x20040 32 || s.accessWaits 0 0 .fetch (s.slotResume 0 0 0).1.toNat 4
def tretSees (s : State) : Nat := match s.rangeCheck 0 0 [.load] 0x20040 32 with | .ok => 0 | .fault x _ _ => x | .absent _ => 1

/-- Outside a handler; in one whose store to the slot is not performed; and with nothing to wait for: a slot on a page that may not be read, one
on none, and one that reads k out of range, in range, and one past its clause. -/
theorem witness_TretReturns : Standing handling (here handling) ∧ handling.calm 4 ∧ (here demo).e.handler = none ∧
    (let s := { handling with ops := [(6, { busyOp with space := .global, lanes := [laneAt 0x20040 []] })] }
     Standing s (here s) ∧ (here s).e.handler = some 0 ∧ tretWaits s = true) ∧
    (let s := handling.storeBytes 0x14000 (leBytes 8 0x30B)
     let n := handling.modCtx 0 fun x => { x with root0 := 0 }
     (Standing s (here s) ∧ (here s).e.handler = some 0) ∧ tretWaits s = false ∧ tretSees s = cPGPR ∧
       (Standing n (here n) ∧ (here n).e.handler = some 0) ∧ tretWaits n = false ∧ tretSees n = 1) ∧
    ((here handling).e.handler = some 0 ∧ tretWaits handling = false ∧ tretSees handling = 0) ∧
    (let o := (handling.observe (here handling).t).touchRange 0 0 0x20040 32
     o.headerAt (here handling).t 0x40000 = some 0xD2000002 ∧ tabSorted 0 (o.ctx 0).traps = true ∧
       ∀ l ∈ (here handling).e.loops, l.stop ≠ 0x4000C) ∧
    ∀ k ∈ [0, 2, 3, 4], let s := handling.storeBytes 0x20048 (leBytes 4 k)
      let o := (s.observe (here s).t).touchRange 0 0 0x20040 32
      let b := o.deviceLoad 0 0 0x20040 32
      leNat (b.take 8) = 0x40000 ∧ leNat ((b.drop 8).take 4) % 32 = k :=
  ⟨standing_of _ (by decide +kernel), calm_of _ _ (by decide +kernel), by decide +kernel,
    stands _ (by decide +kernel),
    ⟨stands _ (by decide +kernel), by decide +kernel, by decide +kernel,
      stands _ (by decide +kernel), by decide +kernel⟩, by decide +kernel⟩

/-! ### Memory -/

/-- A vector access passes, as a test. -/
def passesNow (s : State) (c : Cur) (a : Acc) (rs : List LaneReq) (ok : LaneReq → Bool) : Bool :=
  c.e.mask != 0 && !c.pastGrant &&
  decide (c.t.cnt a.cnt < 63) &&
  rs.all (fun r => r.fill.isSome || (decide (r.addr % a.size = 0) && ok r && bitsOf (ptrOf r.addr) 59 57 == 0 &&
    (match s.teamXlate c.t a.acc (ptrOf r.addr) a.size with | .fault _ _ _ => false | _ => true))) &&
  c.fits s a rs && !s.walksWait c.t a rs

theorem passes_of (s : State) (c : Cur) (a : Acc) (rs : List LaneReq) (ok : LaneReq → Bool) (h : passesNow s c a rs ok = true) :
    Passes s c a rs (fun r => ok r = true) ∧ rs.all (fun r => r.fill.isSome || ok r) = true := by
  simp only [passesNow, Bool.and_eq_true, bne_iff_ne, decide_eq_true_eq, List.all_eq_true, Bool.or_eq_true, beq_iff_eq, Bool.not_eq_true'] at h
  obtain ⟨⟨⟨⟨⟨h0, h1⟩, h2⟩, h3⟩, h4⟩, h5⟩ := h
  refine ⟨⟨⟨h0, h1⟩, h2, h5, ?_, h4, ?_⟩, ?_⟩
  · intro _ r hr hf
    obtain hx | ⟨⟨⟨_, _⟩, hb⟩, hx⟩ := h3 r hr
    · simp [hf] at hx
    · refine ⟨hb, fun x p q hq => ?_⟩
      rw [hq] at hx
      cases hx
  · intro r hr hf
    obtain hx | ⟨⟨⟨ha, ho⟩, _⟩, _⟩ := h3 r hr
    · simp [hf] at hx
    · exact ⟨ha, ho⟩
  · simp only [List.all_eq_true, Bool.or_eq_true]
    intro r hr
    obtain hx | ⟨⟨⟨_, ho⟩, _⟩, _⟩ := h3 r hr
    · exact .inl hx
    · exact .inr ho

/-- The entity with two lanes active, its pages mapped, a pair holding `x` and a scalar holding `n`. -/
def access (x n : Nat) : State :=
  ((paged demo).modEnt 5 fun e => { e with mask := 3 }).modTeam 4 fun t => ((t.setX 1 (BitVec.ofNat 64 x)).setS 6 (BitVec.ofNat 32 n)).setX 4 (BitVec.ofNat 64 x)

/-- The offsets 0 in both lanes. -/
def zeros : VOp := .const .zero

/-- Bytes at a page that is mapped, at the highest offset of one that is not, and a store of 64 bits. -/
theorem witness_GlobalAccessesIssue :
    (let s := access 0x20000 0
     let c := here s
     Standing s c ∧
     passesNow s c (loadAcc .global .b32 false false false (.v 3)) (c.globalReqs false 1 zeros 0 fun _ => []) (fun _ => true) = true ∧
     passesNow s c (storeAcc .global .b64 false false) (c.globalReqs false 1 zeros 8 (c.storeData 8 (.v 3)))
       (fun r => s.windowOk c.t (ptrOf r.addr) 8) = true) ∧
    let s := (access 0xFFFFFFFFC 0).modCtx 0 fun x => { x with root0 := 0 }
    let c := here s
    Standing s c ∧
    passesNow s c (loadAcc .global .b32 true false false (.v 3)) (c.globalReqs true 1 zeros 0 fun _ => []) (fun _ => true) = true :=
  ⟨⟨standing_of _ (by decide +kernel), by decide +kernel, by decide +kernel⟩, standing_of _ (by decide +kernel), by decide +kernel⟩

/-- The last aligned word of an allocation, in each level, loaded and stored. -/
theorem witness_LevelAccessesIssue :
    (∀ r ∈ [(Space.spad, 252), (.clmem, 0), (.stmem, 252), (.lane, 252)],
      let s := (access 0 r.2).modCluster 3 fun cl => { cl with clmem := [], size := 4 }
      let c := here s
      ((s.curOf 5).isSome && s.cur == 5) = true ∧ s.anyResident c.t.wg r.1 (ptrOf r.2) 4 = false ∧ s.inPhase c.t = false ∧
      passesNow s c (loadAcc r.1 .b32 false false false (.v 3)) (c.spaceReqs false 3 zeros 0 fun _ => [])
        (fun x => decide (0 ≤ x.addr) && decide (x.addr + 4 ≤ c.spaceSize s r.1)) = true ∧
      passesNow s c (storeAcc r.1 .b32 false false) (c.spaceReqs false 3 zeros 0 (c.storeData 4 (.v 3)))
        (fun x => decide (0 ≤ x.addr) && decide (x.addr + 4 ≤ c.spaceSize s r.1)) = true) := by decide +kernel

/-- The last word of a buffer; one past its end with the fill and the drop bits. -/
theorem witness_BufferAccessesIssue :
    ∀ r ∈ [((0 : Word), 12), (3, 16)],
      let s := (access 0x20000 0).modTeam 4 fun t => { t with b := [(2, { base := 0x20000, len := 16, flags := r.1 })] }
      let c := here s
      let x := c.t.breg 2
      let ls := c.bufferReqs false zeros r.2 fun _ => []
      ((s.curOf 5).isSome && s.cur == 5) = true ∧ x.flags.getLsbD 5 = false ∧
      (∀ y ∈ ls, y.addr % 4 = 0 ∧ (x.flags.getLsbD 0 = true ∨ (0 ≤ y.addr ∧ y.addr + 4 ≤ x.len.toNat))) ∧
      passesNow s c (loadAcc .global .b32 false false false (.v 3)) (x.lanes 4 false ls) (fun _ => true) = true ∧
      passesNow s c (storeAcc .global .b32 false false) (x.lanes 4 true (c.bufferReqs false zeros r.2 (c.storeData 4 (.v 3))))
        (fun y => s.windowOk c.t (ptrOf y.addr) 4) = true := by decide +kernel

/-- An addition to global memory and one to SPAD; one to global memory in a compute phase; and with MODE.DET, where an integer addition passes and
a float addition does not. -/
theorem witness_AtomicsIssue :
    (let s := access 0x20000 0
     let c := here s
     Standing s c ∧ s.inPhase c.t = false ∧ c.detFault .add .f32 = false ∧
     passesNow s c (atomAcc .add .f32 .relaxed .global (.v 3)) (c.globalReqs false 1 zeros 0 (c.atomData .add .f32 (.v 3))) (fun _ => true) = true ∧
     passesNow s c (atomAcc .acc .b64 .relaxed .spad (.v 3)) (c.spaceReqs false 0 zeros 0 (c.atomData .acc .b64 (.v 3)))
       (fun x => decide (0 ≤ x.addr) && decide (x.addr + 8 ≤ c.spaceSize s .spad) && !s.anyResident c.t.wg .spad (ptrOf x.addr) 8) = true) ∧
    (let s := (access 0x20000 0).modWg 2 fun w => { w with phase := true }
     let c := here s
     let rs := c.globalReqs false 1 zeros 0 (c.atomData .add .f32 (.v 3))
     Standing s c ∧ Room c ∧ s.inPhase c.t = true ∧ c.detFault .add .f32 = false ∧ c.t.cnt .ld < 63 ∧
     s.walksWait c.t (atomAcc .add .f32 .relaxed .global (.v 3)) rs = false ∧ rs ≠ [] ∧ ∀ x ∈ rs, x.addr % 4 = 0) ∧
    let s := demoI fun i => { i with mode := 32 }
    Standing s (here s) ∧ (here s).e.mask ≠ 0 ∧ (here s).detFault .add .i32 = false ∧ (here s).detFault .add .f32 = true ∧
      (here s).detFault .acc .b64 = true :=
  ⟨stands _ (by decide +kernel),
    ⟨standing_of _ (by decide +kernel), ⟨by decide +kernel, by decide +kernel⟩, by decide +kernel⟩,
    standing_of _ (by decide +kernel), by decide +kernel⟩

theorem witness_ScalarAccessesIssue :
    let s := access 0x20000 0
    let c := here s
    let ptr : Int := (((c.t.xreg 1).toNat : Int) + 4 * (511 : Int)) % 18446744073709551616
    let rs : List LaneReq := [{ lane := 0, addr := ptr, data := [], fill := none }]
    Standing s c ∧ ptr % 4 = 0 ∧ s.windowOk c.t (ptrOf ptr) 4 = true ∧
    (∀ k ∈ [AccKind.load, .store], passesNow s c { kind := if k = .load then .load else .store, acc := k, space := .global, size := 4
                                                   uniform := true, dest := .scalar 9, cnt := if k = .load then .ld else .st } rs
      (fun _ => true) = true) :=
  stands _ (by decide +kernel)

/-- Lanes that have their page, and lanes of one page without a mapping. -/
theorem witness_IssuedAccess :
    let a := loadAcc .global .b32 false false false (.v 3)
    (let s := access 0x20000 0
     Standing s (here s) ∧ ∀ r ∈ (here s).globalReqs false 1 zeros 0 fun _ => [], (s.laneAcc (here s).t a r).parked = false) ∧
    let s := (access 0x20000 0).modCtx 0 fun x => { x with root0 := 0 }
    let rs := (here s).globalReqs false 1 zeros 0 fun _ => []
    Standing s (here s) ∧ rs ≠ [] ∧ ∀ r ∈ rs, (s.laneAcc (here s).t a r).parked = true ∧ pageOf (ptrOf r.addr) = pageOf 0x20000 :=
  ⟨stands _ (by decide +kernel), standing_of _ (by decide +kernel), by decide +kernel⟩

/-- Where the leaf of an address of context 0 lies, as a test. -/
def leafAt (s : State) (k : AccKind) (a : Nat) : Option Nat := match s.leafFor 0 0 k a with | .leaf _ _ p => some p | _ => none

/-- A page without a leaf, and one whose leaf, which no TLB has yet, is the entry at 0x14000. -/
theorem witness_TranslationMarksItsEntry : leafAt demo .store 0x20000 = none ∧
    let s := access 0x20000 0
    leafAt s .store 0x20000 = some 0x14000 ∧ Memory.wf s.mem = true ∧ tabGet s.lineKey (0x14000 / 64) = none ∧ s.tlbFind 0 0 0x20000 = none ∧
      s.reaches 0x14000 = true := by decide +kernel

/-- Two checks of which the second fails in the second lane. -/
theorem witness_ChecksInOrder : firstFail [{ lane := 0, addr := 4, data := [], fill := none }, { lane := 3, addr := 2, data := [], fill := none }]
    [check cPGPR fun _ => false, check cALGN fun r => r.addr % 4 != 0] = some (cALGN, [3], 2, 0) := by decide +kernel

/-- A rule that some lane fails, those before it failed by none, as a test. -/
def decides (rs : List LaneReq) (before : List Rule) (k : Rule) : Bool :=
  (before.all fun j => rs.all fun x => x.fill.isSome || !j.2 x) && rs.any fun x => x.fill.isNone && k.2 x

/-- The requests of a global access, and the rules of its pages. -/
def asks (s : State) (u : Bool) : List LaneReq := (here s).globalReqs u 1 zeros 0 fun _ => []
def pages (s : State) (i : Nat) : Rule := (pageRules s (here s) .load 4).getD i (0, fun _ => false)

/-- Rules that lanes fail: an address off its alignment, in one access for every lane and in one for each; a store outside the window of a
compute phase; bits [59:57] of a pointer, a page that may not be read, and a tag; a buffer's last address but one, and its end; the end of the
SPAD, a resident granule, and the STMEM in a compute phase; and a scalar access off its alignment. -/
theorem witness_AccessChecksInOrder :
    (∀ u : Bool, let s := access 0x20001 0
      ((s.curOf 5).isSome && s.cur == 5) = true ∧ decides (asks s u) [] (alignRule 4) = true ∧
        s.walksWait (here s).t (loadAcc .global .b32 u false false (.v 3)) (asks s u) = false) ∧
    (let s := (access 0x20000 0).modWg 2 fun w => { w with phase := true }
     decides (asks s false) [alignRule 4] (cWINV, fun r => !s.windowOk (here s).t (ptrOf r.addr) 4) = true) ∧
    (decides (asks (access 0x200000000020000 0) false) [alignRule 4] (pages (access 0x200000000020000 0) 0) = true ∧
      (let s := (access 0x20000 0).storeBytes 0x14000 (leBytes 8 0x30B)
       decides (asks s false) [alignRule 4, pages s 0] (pages s 1) = true) ∧
      decides (asks (access 0x1000000000020000 0) false) [alignRule 4, pages (access 0x1000000000020000 0) 0, pages (access 0x1000000000020000 0) 1]
        (pages (access 0x1000000000020000 0) 2) = true) ∧
    (let c := here ((access 0x20000 0).modTeam 4 fun t => { t with b := [(2, { base := 0x20000, len := 16, flags := 0 })] })
     let x := c.t.breg 2
     decides (c.bufferReqs false zeros 14 fun _ => []) [] (alignRule 4) = true ∧
       decides (c.bufferReqs false zeros 16 fun _ => []) [alignRule 4]
         (cBNDF, fun r => decide (r.addr < 0 ∨ (x.len.toNat : Int) < r.addr + 4) && !x.flags.getLsbD 0) = true) ∧
    (let s := (access 0 256).modWg 2 fun w => { w with spadRes := [0], phase := true }
     let c := here s
     let rs (b : Nat) := c.spaceReqs false b zeros 0 fun _ => []
     decides (rs 3) [alignRule 4] (boundRule s c .spad 4) = true ∧
       decides (rs 0) [alignRule 4, boundRule s c .spad 4] (residenceRule s c .spad 4) = true ∧
       decides (rs 0) [alignRule 4, boundRule s c .stmem 4, residenceRule s c .stmem 4] (cWINV, fun _ => s.inPhase c.t) = true) ∧
    decides [{ lane := 0, addr := 0x20002, data := [], fill := none }] [] (alignRule 4) = true := by decide +kernel

/-- A load of the last bytes of LANE's first word. -/
def loadOp : MemOp := { busyOp with kind := .load, space := .lane, size := 2, signed := true, dest := .vreg 3 }

/-- Loads of each space and destination: of LANE, of SPAD into an operand register, of four registers of global memory with and without the L1,
of a team's scalar and of every lane; and a fill. -/
theorem witness_LoadLaneWritesRegister :
    (tabGet demo.teams 4 = some (here demo).t ∧ loadOp.kind = .load ∧ loadOp.failed = false ∧ loadOp.uniform = false ∧ loadOp.dest = .vreg 3 ∧
      (laneAt 2 []).fill = none ∧ loadOp.size ∈ [1, 2, 4, 8, 16] ∧ (laneAt 2 []).lane < (here demo).t.lanes ∧ loadOp.space = .lane ∧
      (∀ m ∈ loadOp.lanes, m.done = false) ∧ (demo.readLane loadOp (here demo).t (laneAt 2 [])).1.length = 2) ∧
    (let o := { loadOp with space := .spad, size := 8, dest := .oreg 3 }
     regCount o.size = 2 ∧ (∀ j < 2, (laneAt 248 []).lane < ((here demo).t.oreg (3 + j)).length) ∧
       (demo.readLane o (here demo).t (laneAt 248 [])).1.length = 8) ∧
    (let o := { loadOp with space := .global, size := 16 }
     let l := { laneAt 0x20010 [] with mtype := 0 }
     o.acq = false ∧ o.l2 = false ∧ demo.l1Of (demo.columnOf (here demo).t) = [] ∧ o.size ≤ 16 ∧ 0x20010 % 16 + o.size ≤ 16 ∧
       (demo.readLane o (here demo).t l).1.length = 16 ∧ ({ o with l2 := true } : MemOp).l2 = true ∧ (laneAt 0x20010 []).mtype ≠ 0) ∧
    (let o := { loadOp with uniform := true, mask := fullMask 32, size := 4, signed := false }
     o.mask = fullMask (here demo).t.lanes ∧ ({ o with dest := .scalar 9 } : MemOp).dest = .scalar 9) ∧
    let l := { laneAt 0 [] with fill := some (leBytes 4 0xFF800001) }
    l.fill = some (leBytes 4 0xFF800001) ∧ (leBytes 4 0xFF800001).length = 4 * 1 := ⟨⟨rfl, by decide +kernel⟩, by decide +kernel⟩

/-- `demo` with its cluster launch holding a CLMEM. -/
def clustered : State := demo.modCluster 3 fun cl => { cl with clmem := [], size := 256 }

/-- Bytes of memory, past the L1 and through it; and stores to SPAD, CLMEM, STMEM and LANE. -/
theorem witness_StoreLaneWritesBytes : let l := laneAt 0x2000C [1, 2, 3, 4]
    let o := { busyOp with space := .global }
    tabGet demo.teams 4 = some (here demo).t ∧
    (o.kind = .store ∧ o.space = .global ∧ l.fill = none ∧ l.phys = some 0x2000C ∧ ∀ m ∈ o.lanes, m.done = false) ∧
    (Memory.wf demo.mem = true ∧ ∀ i < l.data.length, tabGet demo.lineKey ((0x2000C + i) / 64) = none ∧ demo.reaches (0x2000C + i) = true) ∧
    (l.mtype ≠ 0 ∧ ({ l with mtype := 0 } : LaneAcc).mtype = 0 ∧ o.l2 = false ∧ o.rel = false ∧ demo.l1Of (demo.columnOf (here demo).t) = []) ∧
    (∃ w k c g, tabGet clustered.wgs (here clustered).t.wg = some w ∧ w.cluster = some k ∧ tabGet clustered.clusters k = some c ∧
      tabGet clustered.grids w.grid = some g) ∧
    (∀ x ∈ clustered.wgs, x.2.place = .resident) ∧ 4294967292 + l.data.length ≤ 4294967296 :=
  ⟨rfl, by decide +kernel, by decide +kernel, by decide +kernel, ⟨_, _, _, _, rfl, rfl, rfl, rfl⟩, by decide +kernel⟩

theorem witness_Atomics : (2 : Nat) ^ 32 - 1 < 2 ^ 32 ∧ (2 : Nat) ^ 64 - 1 < 2 ^ 64 ∧
    let o := { busyOp with kind := .atomic, alu := some (.add, .i32), dest := .oreg 3 }
    let e := demo.l1Evict demo.l1Cols fun a => a / 16 == 0x20000 / 16
    tabGet demo.teams 4 = some (here demo).t ∧ (∃ w, tabGet demo.wgs (here demo).t.wg = some w ∧ (w.cluster.bind (tabGet demo.clusters)).isSome) ∧
    (o.kind = .atomic ∧ o.alu = some (.add, .i32) ∧ o.space = .spad ∧ o.dest = .oreg 3 ∧ o.size = 4 ∧
      (laneAt 252 [1, 0, 0, 0]).lane < ((here demo).t.oreg 3).length ∧ ∀ x ∈ demo.wgs, x.2.place = .resident) ∧
    (Memory.wf demo.mem = true ∧ ∀ i < 4, tabGet e.lineKey ((0x20000 + i) / 64) = none ∧ e.reaches (0x20000 + i) = true) ∧ demo.calm o.team :=
  ⟨by decide, by decide, rfl, ⟨_, rfl, rfl⟩, by decide +kernel, by decide +kernel, calm_of _ _ (by decide +kernel)⟩

/-- Accesses with a common byte, of memory, of an explicit level and of a lane's region; with a common sector, of which one has no mapping; and
without a common byte. -/
theorem witness_LocalOrder : let x := { busyOp with space := .global, lanes := [laneAt 16 []] }
    (x.kind ≠ .flush ∧ ∀ m ∈ [laneAt 16 [], { laneAt 16 [] with mtype := 3 }, { laneAt 16 [] with phys := none }], m.done = false ∧ m.fill = none) ∧
    (∃ a, physAddr 16 ≤ a ∧ a < physAddr 16 + x.size ∧ physAddr 19 ≤ a ∧ a < physAddr 19 + x.size) ∧
    ((laneAt 16 []).ptr % 2 ^ 57 / 16 = (laneAt 28 []).ptr % 2 ^ 57 / 16 ∧ (laneAt 16 []).ptr < (laneAt 19 []).ptr + 4 ∧
      (laneAt 19 []).ptr < (laneAt 16 []).ptr + 4 ∧ (laneAt 16 []).lane = (laneAt 19 []).lane) ∧
    (x.acq = false ∧ x.rel = false ∧ physAddr 16 + x.size ≤ physAddr 20 ∧ ({ laneAt 16 [] with mtype := 0 } : LaneAcc).phys.isSome = true) :=
  ⟨by decide +kernel, ⟨19, by decide +kernel⟩, by decide +kernel⟩

/-- A store in flight, alone, and behind another to the same bytes. -/
theorem witness_OperationsComplete :
    let o := { busyOp with lanes := [laneAt 0 [1]] }
    (let s := { demo with ops := [(6, o)] }
     tabGet s.ops 6 = some o ∧ tabSorted 0 s.ops = true ∧ s.calm o.team ∧ o.kind ∈ [OpKind.store, .flush] ∧ s.mayPerform 6 o = true ∧
       ∀ l ∈ o.lanes, l.parked = false ∧ o.space ≠ .global) ∧
    let s := { demo with ops := [(6, o), (7, o)] }
    tabGet s.ops 7 = some o ∧ tabSorted 0 s.ops = true ∧ s.calm o.team ∧ s.mayPerform 7 o = false :=
  ⟨⟨by decide +kernel, by decide +kernel, calm_of _ _ (by decide +kernel), by decide +kernel⟩,
    by decide +kernel, by decide +kernel, calm_of _ _ (by decide +kernel), by decide +kernel⟩

/-- No operation to wait for; a store that a release waits for and an acquire does not; and a flush of the last bytes that a pointer reaches. -/
theorem witness_FencesPrefetchAndFlush :
    (∀ o ∈ demo.ops, o.2.ent = (here demo).eid ∨ o.1 ∈ (here demo).e.after → fenceWaits .ar o.2 = false) ∧
    (let s := { demo with ops := [(6, { busyOp with lanes := [laneAt 0 [1]] })] }
     Standing s (here s) ∧ (∃ o ∈ s.ops, o.2.ent = (here s).eid ∧ fenceWaits .rel o.2 = true) ∧
       ∀ o ∈ s.ops, o.2.ent = (here s).eid ∨ o.1 ∈ (here s).e.after → fenceWaits .acq o.2 = false) ∧
    let s := access 0x1FFFFFFFFFFFFFC 4
    Standing s (here s) ∧ ((here s).t.cnt .st < 63 ∧ s.replayRoom (s.partOf (here s).t) 0 0 = true) ∧ bitsOf ((here s).t.xreg 4).toNat 59 57 = 0 ∧
      ((here s).t.xreg 4).toNat % 2 ^ 57 + ((here s).t.sreg 6).toNat ≤ 2 ^ 57 ∧ (here s).inside 1 :=
  ⟨by decide +kernel, stands _ (by decide +kernel), standing_of _ (by decide +kernel), by decide +kernel,
    by decide +kernel, by decide +kernel, by unfold Cur.inside; decide +kernel⟩

/-! ### Barriers, rings and copies -/

/-- A copy of one slice from CLMEM to SPAD. -/
def moving (n : Nat) : Copy :=
  { wg := 2, key := 0, ordinal := 0, fn := .c2s, sl := 1, flags := 0, len := 16, rows := 1, stride := 0, src := 0, dst := 240, obj := none
    slot := none, group := 0, ety := 0, credOrd := 0, cred := none, cancelled := false, failed := false
    slices := [{ team := 4, ent := 5, index := 0, moved := n, missing := [], fail := false, after := [], bound := 16, ftype := 0, pc := 0, word := 1
                 mask := 1 }] }
def movingFrom : Copy := { moving 0 with fn := .g2s, src := 0x20000 }

/-- A barrier at a SPAD offset, in a phase, and a ring of one slot. -/
def bar (a x b y : Nat) : Barrier := { expA := a, arrA := x, expB := b, arrB := y, phase := false, slot := false, ovr := false }
def withBar (n : Nat) (b : Barrier) : State := ((atOff n).putBar 2 .spad n b).reside 2 .spad n 16
def withRing (n widx ridx : Nat) (phase : Bool) : State :=
  (((atOff n).spaceWrite 2 .spad n (wordsBytes [1, 16, widx, ridx])).putBar 2 .spad (n + 16)
    { bar 0 0 16 0 with phase := phase, slot := true }).reside 2 .spad n 32

/-- Each rule of the barrier's counts at the edge of its range. -/
theorem witness_BarrierRules :
    (let b := bar 2 0 16 16; b.arrA < 65535 ∧ b.arrA < b.expA ∧ b.arrB ≤ b.expB ∧ (b.arrA + 1 ≠ b.expA ∨ b.arrB ≠ b.expB)) ∧
    (let b := bar 65535 65534 0 0; b.arrA < 65535 ∧ b.arrA + 1 = b.expA ∧ b.arrB = b.expB ∧ b.ovr = false) ∧
    (let b := bar 65534 65534 0 0; b.arrA < 65535 ∧ b.expA < b.arrA + 1) ∧ (bar 0 65535 0 0).arrA = 65535 ∧
    ({ bar 0 0 0 0 with ovr := true } : Barrier).ovr = true ∧
    (let b := bar 1 0 32 16; b.arrB + 16 ≤ b.expB ∧ b.expB < 4294967296 ∧ b.arrA ≤ b.expA ∧ (b.arrA ≠ b.expA ∨ b.arrB + 16 ≠ b.expB)) ∧
    (let b := bar 1 1 32 16; b.arrB + 16 = b.expB ∧ b.expB < 4294967296 ∧ b.arrA = b.expA ∧ b.ovr = false) ∧
    (let b := bar 0 0 15 0; b.expB < b.arrB + 16 ∧ b.arrB + 16 < 4294967296) ∧ 4294967296 ≤ (bar 0 0 0 4294967280).arrB + 16 := by decide

/-- An object at the last 16 bytes of SPAD: not there yet, alone, before a store and under a copy; there, in the phase that is waited for and not; with an access to wait for; a
ring whose slot is full and empty; a ring with nothing to release and with a slot to release; and an object past the end. -/
theorem witness_ObjectInstructions :
    (Standing (atOff 240) (here (atOff 240)) ∧ (atOff 240).objectFault 2 .spad 240 16 none false = none ∧
      (atOff 240).copyPending 2 .spad 240 16 = false ∧ (atOff 240).storePending 2 .spad 240 16 = false) ∧
    (let s := { atOff 240 with ops := [(6, { busyOp with lanes := [laneAt 252 [1, 2, 3, 4]] })] }
     Standing s (here s) ∧ s.objectFault 2 .spad 240 16 none false = none ∧ s.copyPending 2 .spad 240 16 = false ∧
       s.storePending 2 .spad 240 16 = true) ∧
    (let s := { atOff 240 with copies := [(6, { moving 0 with dst := 240 })] }
     Standing s (here s) ∧ s.objectFault 2 .spad 240 16 none false = none ∧ s.copyPending 2 .spad 240 16 = true) ∧
    (∀ ph : Bool, let s := withBar 240 { bar 1 0 0 0 with phase := ph }
      Standing s (here s) ∧ s.objectFault 2 .spad 240 16 none true = none ∧ s.settledEnt 5 = true ∧ (s.getBar 2 .spad 240).phase = ph ∧
        ((here s).t.sreg 7).getLsbD 0 = false) ∧
    (let s := { withBar 240 (bar 1 0 0 0) with ops := [(6, busyOp)] }
     Standing s (here s) ∧ s.objectFault 2 .spad 240 16 none true = none ∧ s.settledEnt 5 = false) ∧
    (∀ ph : Bool, let s := withRing 224 1 0 ph
      Standing s (here s) ∧ s.objectFault 2 .spad 224 (16 + 16 * 1) (some 1) true = none ∧ s.spaceWord 2 .spad 224 = 1 ∧
        (s.getBar 2 .spad (224 + 16 + 16 * (0 % 1))).phase = ph ∧ s.objectFault 2 .spad 224 16 none true = none ∧
        s.spaceWord 2 .spad (224 + 12) ≠ s.spaceWord 2 .spad (224 + 8) ∧ s.settledEnt 5 = true) ∧
    (let s := withRing 224 1 1 false
     Standing s (here s) ∧ s.objectFault 2 .spad 224 16 none true = none ∧ s.spaceWord 2 .spad (224 + 12) = s.spaceWord 2 .spad (224 + 8)) ∧
    (atOff 256).objectFault 2 .spad 256 16 none true = some (cSPBND, 256) ∧ cSPBND ≠ cILLOP :=
  ⟨stands _ (by decide +kernel), stands _ (by decide +kernel),
    stands _ (by decide +kernel),
    fun ph => by cases ph <;> exact stands _ (by decide +kernel),
    stands _ (by decide +kernel),
    fun ph => by cases ph <;> exact stands _ (by decide +kernel),
    stands _ (by decide +kernel), by decide +kernel⟩

/-- A ring of one slot whose header starts at 0 and whose data is the last 16 bytes of SPAD. -/
theorem witness_RingInit : let s := demoT fun t => ((t.setS 8 1).setS 9 16).setS 10 240
    Standing s (here s) ∧ s.objectFault 2 .spad 0 (16 + 16 * 1) (some 1) false = none ∧ s.copyPending 2 .spad 0 32 = false ∧
    240 % 16 = 0 ∧ 240 + 1 * 16 ≤ (s.spaceOf 2 .spad).2 ∧ (0 + 16 + 16 * 1 ≤ 240 ∨ 240 + 1 * 16 ≤ 0) ∧ s.storePending 2 .spad 0 32 = false :=
  stands _ (by decide +kernel)

/-- The only team of its workgroup; a team with a detached path; one with an access to wait for; and one of two teams. -/
theorem witness_Rendezvous :
    (Standing demo (here demo) ∧ (∃ w, tabGet demo.wgs (here demo).t.wg = some w ∧ w.arrivals = []) ∧ (here demo).e.arrived = none ∧
      ((here demo).e.parent = none ∧ (∀ x ∈ demo.ents, x.2.parent ≠ some 5) ∧ (here demo).e.slots = []) ∧ demo.settledEnt 5 = true ∧
      ∀ x ∈ demo.teams, x.2.wg = (here demo).t.wg → x.1 = (here demo).e.team) ∧
    (let s := demoF none
     Standing s (here s) ∧ ¬ ((here s).e.parent = none ∧ (∀ x ∈ s.ents, x.2.parent ≠ some 5) ∧ (here s).e.slots = [])) ∧
    (let s := { demo with ops := [(6, busyOp)] }
     Standing s (here s) ∧ s.settledEnt 5 = false) ∧
    let s := { demo with teams := tabPut demo.teams 6 (here demo).t, ents := tabPut demo.ents 7 (startEntity 6 1 0) }
    Standing s (here s) ∧ s.settledEnt 5 = true ∧ (∀ x ∈ s.ents, x.2.parent ≠ some 5) ∧
      ∃ x ∈ s.teams, x.2.wg = (here s).t.wg ∧ (∃ y ∈ s.ents, y.2.team = x.1) ∧ x.1 ≠ (here s).e.team :=
  ⟨⟨witness_standing, ⟨_, rfl, rfl⟩, by decide +kernel⟩, stands _ (by decide +kernel),
    stands _ (by decide +kernel), standing_of _ (by decide +kernel), by decide +kernel⟩

/-- A copy from mapped memory into the last 16 bytes of SPAD: the destination in `s4`, the source in `x4`, the length in `s10`. -/
def copying (dst : Nat) : State :=
  (paged demo).modTeam 4 fun t => ((((t.setS 4 (BitVec.ofNat 32 dst)).setX 4 0x20000).setS 10 16).setS 12 1)

/-- A slice waits for no port, and it passes, as tests. -/
def sliceNear (s : State) (c : Cur) (want : Copy) (i bound : Nat) : Bool :=
  ((s.groupPieces (s.stackOf c.t) (s.ctxOf c.t) want).all fun p => !s.accessWaits (s.stackOf c.t) (s.ctxOf c.t) p.1 p.2.1 p.2.2) &&
  (s.copyPieces want i bound).all fun p => !s.walkWaits (s.stackOf c.t) (s.ctxOf c.t) p.1 p.2.1

theorem not_sliceWaits (s : State) (c : Cur) (want : Copy) (i bound : Nat) (h : sliceNear s c want i bound = true) :
    ¬ SliceWaits s c want i bound := by
  simp only [sliceNear, Bool.and_eq_true, List.all_eq_true, Bool.not_eq_true'] at h
  rintro (⟨p, hp, e⟩ | ⟨p, hp, e⟩)
  · exact Bool.noConfusion ((h.1 p hp).symm.trans e)
  · exact Bool.noConfusion ((h.2 p hp).symm.trans e)

def slicePassesNow (s : State) (c : Cur) (old : Option Copy) (want : Copy) (i b ftype : Nat) : Bool :=
  decide (c.t.cnt .cp < 63) && (s.copyAlign want ftype).isNone &&
  (s.copyBounds want i (match want.obj with | some (sp, o) => s.spaceWord want.wg (spOf sp) (o + 4) | none => 0)).isNone &&
  (s.copyResident want i).isNone && (s.copyWindow c.t want i).isNone && !copyMismatch old want i && !s.copyEnded want &&
  (want.fn != .cred || !s.credBad (s.stackOf c.t) (s.ctxOf c.t) want) &&
  (s.copyPages (s.stackOf c.t) (s.ctxOf c.t) (s.groupPieces (s.stackOf c.t) (s.ctxOf c.t) want)).isNone &&
  (s.copyPages (s.stackOf c.t) (s.ctxOf c.t) (s.copyPieces want i (want.bound b ftype))).isNone &&
  sliceNear s c want i (want.bound b ftype)

theorem slicePasses_of (s : State) (c : Cur) (old : Option Copy) (want : Copy) (i b ftype : Nat)
    (h : slicePassesNow s c old want i b ftype = true) : SlicePasses s c old want i b ftype := by
  simp only [slicePassesNow, Bool.and_eq_true, decide_eq_true_eq, Option.isNone_iff_eq_none, Bool.not_eq_true', Bool.or_eq_true, bne_iff_ne] at h
  obtain ⟨⟨⟨⟨⟨⟨⟨⟨⟨⟨a, b⟩, c⟩, d⟩, e⟩, f⟩, k⟩, g⟩, j⟩, h⟩, n⟩ := h
  exact ⟨a, not_sliceWaits _ _ _ _ _ n, b, c, d, e, f, k, fun hc => g.resolve_left (fun hn => hn hc), j, h⟩

/-- A parked access, of which 256 fill the replay queue. -/
def fullQueue (s : State) : State := { s with replay := (List.range 256).map fun k => (k + 10, parkedEntry 0 k) }

/-- The first slice of a copy, with and without room for what it could park; the second slice of one that has come, cancelled or not; a copy
that is over; no room in the counter; a misaligned destination; and a translation that reads host memory, with no port up. -/
theorem witness_CopySlices :
    (let s := copying 240
     let ask := (here s).copyAsk s .g2s 4 8 10 1 0 12 14 0
     Standing s (here s) ∧ ask.ring = false ∧ s.findCopy ask = none ∧ SlicePasses s (here s) none ask 0 0 0 ∧
       s.replayRoom (s.partOf (here s).t) 0 0 = true) ∧
    (let s := fullQueue (copying 240)
     let ask := (here s).copyAsk s .g2s 4 8 10 1 0 12 14 0
     Standing s (here s) ∧ s.findCopy ask = none ∧ SlicePasses s (here s) none ask 0 0 0 ∧ s.replayRoom (s.partOf (here s).t) 0 0 = false) ∧
    (∀ cancelled : Bool, let s := copying 224
     let ask := (here s).copyAsk s .g2s 4 8 10 2 0 12 14 0
     let y := { ask with cancelled := cancelled }
     let u := { s with copies := [(6, y)] }
     Standing u (here u) ∧ u.findCopy ask = some (6, y) ∧ tabGet u.copies 6 = some y ∧ ask.slot = none ∧ y.failed = false ∧
       SlicePasses u (here u) (some y) ask 1 0 0) ∧
    (let s := copying 240
     let ask := (here s).copyAsk s .g2s 4 8 10 1 0 12 14 0
     let u := s.modWg 2 fun w => { w with ended := [(ask.key, ask.ordinal)] }
     (Standing u (here u) ∧ u.findCopy ask = none ∧ u.copyEnded ask = true ∧ (here u).t.cnt .cp < 63 ∧ u.copyAlign ask 0 = none ∧
       u.copyBounds ask 0 0 = none ∧ u.copyResident ask 0 = none ∧ u.copyWindow (here u).t ask 0 = none) ∧
       ¬ SliceWaits u (here u) ask 0 (ask.bound 0 0)) ∧
    (let s := (copying 240).modTeam 4 fun t => { t with cntCp := (List.range 63).map fun k => { op := k, done := false } }
     Standing s (here s) ∧ 63 ≤ (here s).t.cnt .cp) ∧
    (let s := copying 241
     let ask := (here s).copyAsk s .g2s 4 8 10 1 0 12 14 0
     Standing s (here s) ∧ (here s).t.cnt .cp < 63 ∧ ask.ring = false ∧ s.findCopy ask = none ∧ s.copyAlign ask 0 = some 241) ∧
    let s := (copying 240).modCtx 0 fun x => { x with root0 := 2 ^ 47 + 1 }
    let ask := (here s).copyAsk s .g2s 4 8 10 1 0 12 14 0
    Standing s (here s) ∧ ((here s).t.cnt .cp < 63 ∧ ask.ring = false ∧ s.findCopy ask = none ∧ s.copyAlign ask 0 = none ∧
      s.copyBounds ask 0 0 = none ∧ s.copyResident ask 0 = none ∧ s.copyWindow (here s).t ask 0 = none) ∧
      SliceWaits s (here s) ask 0 (ask.bound 0 0) :=
  ⟨⟨standing_of _ (by decide +kernel), by decide +kernel, by decide +kernel, slicePasses_of _ _ _ _ _ _ _ (by decide +kernel),
      by decide +kernel⟩,
    ⟨standing_of _ (by decide +kernel), by decide +kernel, slicePasses_of _ _ _ _ _ _ _ (by decide +kernel), by decide +kernel⟩,
    fun b => by
      cases b <;> exact ⟨standing_of _ (by decide +kernel), by decide +kernel, by decide +kernel, by decide +kernel, by decide +kernel,
        slicePasses_of _ _ _ _ _ _ _ (by decide +kernel)⟩,
    ⟨stands _ (by decide +kernel), not_sliceWaits _ _ _ _ _ (by decide +kernel)⟩,
    stands _ (by decide +kernel), stands _ (by decide +kernel),
    standing_of _ (by decide +kernel), by decide +kernel, .inr (by decide +kernel)⟩

/-- A copy into a ring of one slot: a free slot, and none. -/
theorem witness_CopyIntoRing : ∀ r ∈ [(0, 1), (1, 0)],
    let s := ((((paged demo).spaceWrite 2 .spad 208 (wordsBytes [1, 16, r.1, 0])).putBar 2 .spad 224 { bar 0 0 16 0 with slot := true }).reside 2
      .spad 208 32).modTeam 4 fun t => ((((t.setS 4 240).setX 4 0x20000).setS 10 16).setS 12 1).setS 6 208
    let ask := (here s).copyAsk s .g2s 4 8 10 1 6 12 14 2
    let claimed : Copy := { ask with dst := 240 + r.1 % 1 * 16, slot := some (r.1 % 1) }
    ((s.curOf 5).isSome && s.cur == 5) = true ∧ ask.ring = true ∧ s.findCopy ask = none ∧ s.spaceWord 2 .spad 208 = 1 ∧
    slicePassesNow s (here s) none claimed 0 0 0 = true ∧
    (decide ((s.spaceWord 2 .spad (208 + 8) + 4294967296 - s.spaceWord 2 .spad (208 + 12)) % 4294967296 ≠ 1) = (r.2 == 1)) := by
  decide +kernel

/-- A second slice of a ring copy finds the slot that the first has claimed. -/
theorem witness_RingSliceJoins : let s := ((((paged demo).spaceWrite 2 .spad 192 (wordsBytes [1, 32, 1, 0])).putBar 2 .spad 208
        { bar 0 0 32 0 with slot := true }).reside 2 .spad 192 32).modTeam 4 fun t =>
          ((((t.setS 4 224).setX 4 0x20000).setS 10 16).setS 12 1).setS 6 192
    let ask := (here s).copyAsk s .g2s 4 8 10 2 6 12 14 2
    let y := { ask with slot := some 0 }
    let u := { s with copies := [(6, y)] }
    ((u.curOf 5).isSome && u.cur == 5) = true ∧ ask.ring = true ∧ u.findCopy ask = some (6, y) ∧
      slicePassesNow u (here u) (some y) { ask with dst := ask.dst + 0 * 16, slot := some 0 } 1 0 0 = true := by decide +kernel

/-- A copy of the object that has written nothing; none of an object; an object past the end; and a team without a cluster launch. -/
theorem witness_CopyCancel :
    (let s := { withBar 240 (bar 1 0 0 0) with copies := [(6, { moving 0 with key := copyKey .spad (some 240), obj := some (.spad, 240) })] }
     Standing s (here s) ∧ s.objectFault 2 .spad 240 16 none true = none ∧ tabSorted 0 s.copies = true ∧
       (∃ w k, tabGet s.wgs (here s).t.wg = some w ∧ w.cluster = some k) ∧
       (s.copies.filter fun x => x.2.wg == 2 && x.2.key == copyKey .spad (some 240) && !x.2.cancelled && !x.2.failed &&
         !x.2.slices.any fun y => decide (0 < y.moved)).length = 1) ∧
    (atOff 256).objectFault 2 .spad 256 16 none true = some (cSPBND, 256) ∧
    let s := demoW fun w => { w with cluster := none }
    Standing s (here s) ∧ (s.wgOf (here s).t).bind (·.cluster) = none :=
  ⟨⟨standing_of _ (by decide +kernel), by decide +kernel, by decide +kernel, ⟨_, _, rfl, rfl⟩, by decide +kernel⟩, by decide +kernel,
    standing_of _ (by decide +kernel), by decide +kernel⟩

/-! ### The engine, launches and budgets -/

/-- The last entry of the table is free; the smallest record is reserved; a format has its scales at the last place they fit; a stationary
record, its raw companion, a raw image and a table are large enough; a drain's record is there. -/
theorem witness_EngineOperations :
    (let s := demo.modEngine 0 fun e => { e with entries := (List.range 31).map fun k => (k + 10,
        { op := .mswap, ent := 9, teams := [], wg := 0, prio := 0, started := false, progress := 0, bands := 0, missing := [], held := false
          fail := false, aged := false, finished := false, flags := 0, after := [], pc := 0, word := 1, mask := 0, out := [], reserved := none }) }
     Standing s (here s) ∧ s.inCluster (here s).t = true ∧ EngineRoom s (here s) ∧ (here s).t.gang = none) ∧
    (let g := (demo.engine 0).logical
     g.format 15 = none ∧ fmtOk (int8 1) = true ∧ demo.fmtOff (fmtKind (int8 1)) = false ∧
       (g.recs.map fun r => fmtSpace r.2.1).sum + fmtSpace (int8 1) ≤ mobBytes) ∧
    (let s := mob [(0, recOf (scaledE4m3 1)), (1, recOf (bf16 1))] 120
     Standing s (here s) ∧ let g := (s.engine 0).logical
     g.format 0 = some (scaledE4m3 1) ∧ g.format 1 = some (bf16 1) ∧ fmtKind (bf16 1) = 3 ∧ fmtScaled (scaledE4m3 1) = true ∧
       120 + fmtCount (scaledE4m3 1) * fmtBlocks (scaledE4m3 1) ≤ fmtCount (bf16 1) * 128) ∧
    (let s := mob [(0, recOf (int8 256)), (1, recOf (rawFmt 65535))] 0
     Standing s (here s) ∧ let g := (s.engine 0).logical
     Holds s g 0 (int8 256) ∧ fmtRaw (int8 256) = false ∧ fmtCount (int8 256) ≤ fmtWide (int8 256) ∧ fmtScaled (int8 256) = false ∧
       g.raw 1 = true ∧ 0 + fmtWide (int8 256) ≤ g.elems 1 ∧ rawBytes / 4 ≤ g.elems 1 ∧ 131 ≤ g.elems 1) ∧
    let s := mob [(0, recOf (int8 64))] 64
    Standing s (here s) ∧ let g := (s.engine 0).logical
    Holds s g 0 (int8 64) ∧ 1 ≤ 64 % 128 ∧ bitsOf 64 15 7 = 0 ∧ fmtRaw (int8 64) = false ∧ pairClass (int8 64) = 4 ∧ accType (int8 64) = 1 ∧
      g.active.all (·.isNone) = true ∧ 64 / 65536 + 64 ≤ fmtCount (int8 64) ∧ g.tile 7 = some 0 ∧
      (here s).e.arrived = none :=
  ⟨⟨standing_of _ (by decide +kernel), by decide +kernel, by unfold EngineRoom; decide +kernel, by decide +kernel⟩, by decide +kernel,
    stands _ (by decide +kernel), ⟨standing_of _ (by decide +kernel), by unfold Holds; decide +kernel⟩,
    standing_of _ (by decide +kernel), by unfold Holds; decide +kernel⟩

/-- An `mld` and a raw `mdrain` that are taken: a record of one row of SPAD, and a tile whose rows end where SPAD does. -/
theorem witness_MldAndDrain :
    (let s := mob [(0, recOf (int8 1))] 0
     let w := int8 1
     (s.engine 0).logical.format 0 = some w ∧ 0 + fmtBytes w ≤ (s.spaceOf 2 .spad).2 ∧
       (paged s).copyPages 0 0 (mldPieces 0x20000 (fmtBytes w)) = none ∧
       (∀ p ∈ mldPieces 0x20000 (fmtBytes w), (paged s).walkWaits 0 0 p.1 p.2.1 = false) ∧ 8 % 16 ≠ 0) ∧
    let s := demo.modWg 2 fun w => { w with spadSize := 98576 }
    let g := { (s.engine 0).logical with tiles := [(0, some 1), (1, none)] }
    g.tile 0 = some 1 ∧ cmdRaw 0x100 = true ∧ (0x100 : Word) &&& 0xFFFF9EFF = 0 ∧ cmdDst 0x100 = 0 ∧ cmdOut 0x100 ≤ 8 ∧
      0 + rawBytes ≤ (s.spaceOf 2 .spad).2 ∧ s.anyResident 2 .spad 0 rawBytes = false ∧ g.tile 1 = none := by decide +kernel

/-- A team of a launch without clusters; no room in the counter; none in the table. -/
theorem witness_EngineRefusesAndWaits :
    (let s := demoW fun w => { w with cluster := none }
     Standing s (here s) ∧ (here s).t.gang = none ∧ s.inCluster (here s).t = false) ∧
    (let s := demoT fun t => { t with cntTl := (List.range 63).map fun k => { op := k, done := false } }
     Standing s (here s) ∧ s.inCluster (here s).t = true ∧ 63 ≤ (here s).t.cnt .tl) ∧
    let s := demo.modEngine 0 fun e => { e with entries := (List.range 32).map fun k => (k + 10,
        { op := .mswap, ent := 9, teams := [], wg := 0, prio := 0, started := false, progress := 0, bands := 0, missing := [], held := false
          fail := false, aged := false, finished := false, flags := 0, after := [], pc := 0, word := 1, mask := 0, out := [], reserved := none }) }
    Standing s (here s) ∧ s.inCluster (here s).t = true ∧ (here s).t.cnt .tl < 63 ∧ 32 ≤ (s.engine (s.engineOf (here s).t)).entries.length :=
  ⟨stands _ (by decide +kernel), stands _ (by decide +kernel),
    standing_of _ (by decide +kernel), by decide +kernel⟩

/-- A gang map of the one team there is; one of seven; a team in a gang of two, first to come; and the second to come. -/
def ganged : State := demoT fun t => { t with gang := some 3, gangMap := 3 }
theorem witness_Gangs :
    (let s := demoT fun t => t.setS 6 1
     Standing s (here s) ∧ s.inCluster (here s).t = true ∧ (∀ x ∈ s.ents, x.2.team = 4 → x.2.hold = some .gang → x.1 = 5) ∧
       (here s).t.sreg 6 ≠ 0 ∧ ((List.range 32).filter fun k => ((here s).t.sreg 6).getLsbD k) = [0] ∧
       ((here s).t.sreg 6).getLsbD (s.gangBit (here s).t) = true ∧ s.gangBitExists (here s).t 0 = true) ∧
    6 < ((List.range 32).filter fun k => (0x7F : Word).getLsbD k).length ∧
    (Standing ganged (here ganged) ∧ (here ganged).t.gang = some 3 ∧ (here ganged).e.parent = none ∧ (here ganged).e.arrived = none ∧
      (here ganged).t.cnt .tl < 63 ∧ tabGet (ganged.engine (ganged.engineOf (here ganged).t)).latches 3 = none ∧
      1 < popCount ((here ganged).t.gangMap.setWidth 1024)) ∧
    let s := { ganged with teams := tabPut ganged.teams 6 (here ganged).t
                           ents := tabPut ganged.ents 7 { (here ganged).e with team := 6, hold := some .gang, arrived := some 3 } }
    let s := s.modEngine 0 fun e => { e with latches := [(3, { ref := (here ganged).gangRef 1 [] [], members := [7] })] }
    Standing s (here s) ∧ (here s).t.gang = some 3 ∧ (∃ l, tabGet (s.engine (s.engineOf (here s).t)).latches 3 = some l ∧
      l.ref = (here s).gangRef 1 [] [] ∧ l.members.length + 1 = popCount ((here s).t.gangMap.setWidth 1024) ∧
      ∀ m ∈ l.members, m ≠ 5 ∧ ∃ e i t, tabGet s.ents m = some e ∧ e.hold = some .gang ∧ e.arrived = some 3 ∧ e.issue = some i ∧
        i.next + 1 < i.words.length ∧ tabGet s.teams e.team = some t ∧ t.cnt .tl < 63) ∧
    (here s).inside 1 :=
  ⟨stands _ (by decide +kernel), by decide +kernel,
    stands _ (by decide +kernel), standing_of _ (by decide +kernel), by decide +kernel,
    ⟨_, rfl, by decide +kernel, by decide +kernel, by
      intro m hm
      obtain rfl : m = 7 := by simpa using hm
      exact ⟨by decide, _, _, _, rfl, rfl, rfl, rfl, by decide +kernel, rfl, by decide +kernel⟩⟩, by unfold Cur.inside; decide +kernel⟩

theorem witness_TeamReductions : Standing demo (here demo) ∧ EngineRoom demo (here demo) ∧ (here demo).inside 1 ∧
    (here demo).pastGrant = false ∧
    let s := demoI fun i => { i with xreg := some 1 }
    Standing s (here s) ∧ EngineRoom s (here s) ∧ (here s).pastGrant = true :=
  ⟨witness_standing, by unfold EngineRoom; decide +kernel, by unfold Cur.inside; decide +kernel, by decide +kernel, standing_of _ (by decide +kernel),
    by unfold EngineRoom; decide +kernel, by decide +kernel⟩

/-- Within a compute phase; at depth 10; a queue past 63; a misaligned record; an access to wait for; a record that may not be read, and one whose
page is not there; one whose walk waits for a port; and an invalid one. -/
theorem witness_LaunchFaults :
    (let s := demoW fun w => { w with phase := true }
     Standing s (here s) ∧ (here s).e.parkedPc = none ∧ s.inPhase (here s).t = true) ∧
    (let s := { demo with grids := demo.grids.map fun (g : Nat × Grid) => (g.1, { g.2 with depth := 10 }) }
     Standing s (here s) ∧ s.inPhase (here s).t = false ∧ (s.gridOf (here s).t).any (fun g => decide (10 ≤ g.depth)) = true) ∧
    (Standing (atOff 64) (here (atOff 64)) ∧ 63 < ((here (atOff 64)).t.sreg 6).toNat ∧
      ((atOff 64).gridOf (here (atOff 64)).t).any (fun g => decide (g.depth < 10)) = true) ∧
    (let s := demoT fun t => t.setX 4 64
     Standing s (here s) ∧ ((here s).t.xreg 4).toNat % 128 ≠ 0) ∧
    (let s := { launching 1 0 0 record with ops := [(6, busyOp)] }
     Standing s (here s) ∧ s.settledEnt 5 = false ∧ ((here s).t.pend.any fun p => p.op == 5) = false) ∧
    (∀ b : Bool, let s := if b then (launching 1 0 0 record).storeBytes 0x14000 (leBytes 8 0x309) else (launching 1 0 0 record).modCtx 0 fun x => { x with root0 := 0 }
     Standing s (here s) ∧ s.settledEnt 5 = true ∧ s.replayRoom (s.partOf (here s).t) 1 0 = true ∧
       (s.observe (here s).t).rangeWaits 0 0 [.load] 0x20000 128 = false ∧
       (match (s.observe (here s).t).rangeCheck 0 0 [.load] 0x20000 128 with | .ok => 0 | .absent _ => 1 | .fault .. => 2) = if b then 2 else 1) ∧
    (let s := (launching 1 0 0 record).modCtx 0 fun x => { x with root0 := 2 ^ 47 + 1 }
     Standing s (here s) ∧ s.settledEnt 5 = true ∧ (s.observe (here s).t).rangeWaits 0 0 [.load] 0x20000 128 = true) ∧
    let s := launching 1 0 0 []
    Standing s (here s) ∧ rangeOk (s.observe (here s).t) [.load] 0x20000 128 = true ∧ recValid (((s.observe (here s).t).touchRange 0 0 0x20000 128).deviceLoad (s.stackOf (here s).t) 0 0x20000 128) false = false :=
  ⟨stands _ (by decide +kernel), stands _ (by decide +kernel),
    stands _ (by decide +kernel), stands _ (by decide +kernel),
    stands _ (by decide +kernel), fun b => by cases b <;> exact stands _ (by decide +kernel),
    stands _ (by decide +kernel), standing_of _ (by decide +kernel), by decide +kernel, by decide +kernel⟩

/-- A disabled queue, one with two records in its ring of two, and one with a place. -/
theorem witness_LaunchResults : ∀ r ∈ [(0, 0), (1, 2), (1, 1)],
    let s := launching r.1 0 r.2 record
    let seen := (s.observe (here s).t).touchRange 0 0 0x20000 128
    let ready := seen.touchRange 0 0 (seen.queueAddr 0 0) 64
    let h := ready.queueHdr 0 0 0
    ((s.curOf 5).isSome && s.cur == 5) = true ∧ rangeOk (s.observe (here s).t) [.load] 0x20000 128 = true ∧
    recValid (seen.deviceLoad (s.stackOf (here s).t) 0 0x20000 128) false = true ∧
    rangeOk seen [.load, .store] (seen.queueAddr 0 0) 64 = true ∧ h.en = (r.1 == 1) ∧ (1 ≤ h.logs ∧ h.logs ≤ 12) ∧ h.used = r.2 ∧ 2 ^ h.logs = 2 ∧
    rangeOk ready [.store] (h.slot h.tail) 128 = true ∧ s.settledEnt 5 = true ∧
    ((s.observe (here s).t).rangeWaits 0 0 [.load] 0x20000 128 || seen.rangeWaits 0 0 [.load, .store] (seen.queueAddr 0 0) 64 ||
      ready.rangeWaits 0 0 [.store] (h.slot h.tail) 128) = false := by decide +kernel

/-- Growth to exactly the budget and past it; a size that is no multiple of 256; and the last word of the allowance. -/
theorem witness_Budgets :
    (∃ w g, tabGet demo.wgs (here demo).t.wg = some w ∧ tabGet demo.grids w.grid = some g ∧ w.spadSize + 0 ≤ g.rcd.spadMax ∧
      g.rcd.spadMax < w.spadSize + 256 ∧ (here demo).t.laneSize + 0 + (here demo).t.callArea 256 ≤ g.rcd.laneMax ∧
      g.rcd.laneMax < (here demo).t.laneSize + 256 + (here demo).t.callArea 256 ∧ w.phase = false) ∧
    Standing (atOff 256) (here (atOff 256)) ∧ ((here (atOff 256)).t.sreg 6).toNat % 256 = 0 ∧
    Standing (atOff 255) (here (atOff 255)) ∧ ((here (atOff 255)).t.sreg 6).toNat % 256 ≠ 0 ∧
    let s := (demoW fun w => { w with phase := true, words := 1000000 }).modTeam 4 fun t => t.setX 4 1
    Standing s (here s) ∧ (s.wgOf (here s).t).any (fun w => w.phase && decide (w.words + 0 ≤ 1000000) && decide (1000000 < w.words + 1)) = true :=
  ⟨⟨_, _, rfl, rfl, by decide +kernel⟩, standing_of _ (by decide +kernel), by decide +kernel, standing_of _ (by decide +kernel), by decide +kernel,
    standing_of _ (by decide +kernel), by decide +kernel⟩

/-- A workgroup whose one child has retired, and one whose child runs. -/
theorem witness_ChildrenWaited : ∀ r : Bool,
    let s := { (demoW fun w => { w with kids := [1] }) with grids := demo.grids.map fun (g : Nat × Grid) => (g.1, { g.2 with retired := r }) }
    Standing s (here s) ∧ (∃ w, tabGet s.wgs (here s).t.wg = some w ∧ (w.kids.filter fun k => decide (k < s.nextId)) = [1]) ∧
    (here s).e.arrived = none ∧ ((here s).e.parent = none ∧ (∀ x ∈ s.ents, x.2.parent ≠ some 5) ∧ (here s).e.slots = []) ∧
    ((here s).t.pend.any fun p => p.op == 5) = false ∧ ∃ g, tabGet s.grids 1 = some g ∧ g.retired = r := by
  intro r
  cases r <;> exact ⟨standing_of _ (by decide +kernel), ⟨_, rfl, by decide +kernel⟩, by decide +kernel, by decide +kernel, by decide +kernel, _, rfl, rfl⟩

/-! ### Privileged code, markers and breakpoints -/

/-- An access to wait for, and one that a page holds back; a register of one word, the low and the high word of a pair, the latter after the former was read; a page that no
access uses and one that one uses; and a STRONG store that a `tinv` waits for. -/
theorem witness_PrivilegedWords :
    (let s := { demo with ops := [(6, busyOp)] }
     Standing s (here s) ∧ s.settledEnt 5 = false ∧ (∃ k ∈ s.unperformed 5, k ∉ s.heldByParking)) ∧
    (let s := { demo with ops := [(6, { busyOp with lanes := [{ laneAt 0 [1] with phys := none }] })] }
     Standing s (here s) ∧ s.unperformed 5 = [6] ∧ ∀ k ∈ s.unperformed 5, k ∈ s.heldByParking) ∧
    (Standing demo (here demo) ∧ demo.settledEnt 5 = true ∧ let o := demo.observe (here demo).t
     o.privPair 0 = none ∧ o.privPair 4 = none ∧ (0 < 4 ∨ o.privPair (0 - 4) = none) ∧ (o.privPair 0x38).isSome = true ∧
       demo.usesPage 0 0 false = false ∧ demo.orderedBefore 5 = [] ∧ ((here demo).advance demo 1).rivalAsk 0 = none) ∧
    (let s := demoE fun e => { e with snap := some (4294967296 + (0x3C - 4), 7) }
     Standing s (here s) ∧ s.settledEnt 5 = true ∧ (s.observe (here s).t).privPair 0x3C = none ∧
       ((s.observe (here s).t).privPair (0x3C - 4)).isSome = true ∧ (here s).e.snap = some (4294967296 + (0x3C - 4), 7)) ∧
    (let s := { demo with ops := [(6, { busyOp with ent := 9, space := .global, lanes := [laneAt 0 [1]] })] }
     Standing s (here s) ∧ s.settledEnt 5 = true ∧ s.usesPage 0 0 false = true ∧ s.usesPage 0 1 false = false ∧ s.orderedBefore 5 = []) ∧
    let s := { demo with ops := [(6, { busyOp with space := .global, lanes := [{ laneAt 0 [1] with mtype := 3 }] })] }
    Standing s (here s) ∧ 6 ∈ s.orderedBefore 5 ∧ 6 ∉ s.heldByParking ∧ (tabGet s.ops 6).any (fun o => o.kind != .load) = true :=
  ⟨stands _ (by decide +kernel), stands _ (by decide +kernel),
    stands _ (by decide +kernel),
    stands _ (by decide +kernel), stands _ (by decide +kernel),
    standing_of _ (by decide +kernel), by decide +kernel⟩

theorem witness_TranslationsDropped : let s := { demo with replay := [(6, parkedEntry 0 3)] }
    tabGet s.replay 6 = some (parkedEntry 0 3) ∧ tabGet s.teams (parkedEntry 0 3).team = some (here s).t ∧ s.ctxOf (here s).t = 0 :=
  ⟨rfl, rfl, by decide +kernel⟩

theorem witness_HltWaitsForEvents : Standing demo (here demo) ∧ demo.evPend &&& demo.evMask = 0 ∧
    let s := { demo with evPend := 1 <<< 63, evMask := 1 <<< 63 }
    Standing s (here s) ∧ s.evPend &&& s.evMask ≠ 0 ∧ (here s).inside 1 :=
  ⟨witness_standing, by decide +kernel, standing_of _ (by decide +kernel), by decide +kernel, by unfold Cur.inside; decide +kernel⟩

/-- The stream off; on, with one free unit of its ring, and with none; a context with the debug right, on a partition without a stop and on one
where it is stopping, or another context is; and one in a handler. -/
theorem witness_MarkersAndBreakpoints :
    (Standing demo (here demo) ∧ demo.trace.en = false ∧ (demo.ctx 0).dbgEn = false) ∧
    (∀ n ∈ [255, 256], let s := { demo with trace := { demo.trace with en := true, mark := true, trlog := 8, k := 16, last := demo.time.toNat
                                                                       tail := BitVec.ofNat 32 n, base := 0xFFFFFFFFC000 } }
      Standing s (here s) ∧ (here s).inside 1 ∧ s.frameDue = false ∧ s.trace.room 1 = (n == 255) ∧
        s.trace.base.toNat + 64 * ((255 : Word).toNat % 2 ^ 8) + 64 ≤ 2 ^ 48) ∧
    (∀ d ∈ [(false, 0), (true, 0), (true, 1)], let s := (demo.modCtx 0 fun x => { x with dbgEn := true }).modWindow 0 fun w => { w with stopping := d.1, sctx := d.2 }
     Standing s (here s) ∧ (s.ctx (s.ctxOf (here s).t)).dbgEn = true ∧ (here s).e.handler = none ∧ s.partOf (here s).t = 0 ∧ tabSorted 0 s.ents = true ∧
       (s.window 0).stopped = false ∧ (s.window 0).stopping = d.1 ∧ (s.window 0).sctx = d.2 ∧ s.ctxOf (here s).t = 0) ∧
    let s := demoE fun e => { e with handler := some 0 }
    Standing s (here s) ∧ (here s).e.handler.isSome = true :=
  ⟨⟨witness_standing, by decide +kernel⟩, by
    intro n hn
    simp only [List.mem_cons, List.not_mem_nil, or_false] at hn
    rcases hn with rfl | rfl <;> exact ⟨standing_of _ (by decide +kernel), by unfold Cur.inside; decide +kernel, by decide +kernel⟩,
    fun d hd => by
      simp only [List.mem_cons, List.not_mem_nil, or_false] at hd
      rcases hd with rfl | rfl | rfl <;> exact stands _ (by decide +kernel),
    standing_of _ (by decide +kernel), by decide +kernel⟩

/-- DZ_SEM free, held by port 1, and held by another; a port that neither owns it nor a context. -/
theorem witness_PrivilegedWrites : (8 : Nat) ≠ 0 ∧ demo.privAccepts 1 8 = false ∧ demo.sem.held = false ∧
    let s := { demo with sem := { demo.sem with held := true, owner := 1 } }
    s.sem.held = true ∧ s.sem.owner = 1 ∧ s.sem.owner ≠ 2 ∧ s.privAccepts 1 8 = true := by decide +kernel

/-! ### The machine's own events -/

/-- The entity stands before the clause at 0x40000 of some words, its header first. -/
def before (ws : List Nat) : State :=
  ((paged demo).storeBytes 0x40000 (wordsBytes ws)).modEnt 5 fun e => { e with issue := none, pc := 0x40000 }

/-- What a fetch of that clause and its decoding come to: the fault of the decoder, or 1 where it issues, 2 and 3 where it exhausts and
faults at its issue, and 4 where it passes the allowance of a compute phase. -/
noncomputable def fetchNow (s : State) : Option (Nat × Nat) × Nat :=
  match tabGet s.ents 5 with
  | none => (none, 0)
  | some x => match tabGet s.teams x.team with
    | none => (none, 0)
    | some t => match s.fetchClause (s.stackOf t) (s.ctxOf t) x.pc.toNat with
      | .waits => (none, 0)
      | .absent a => (some (0, a), 0)
      | .fault c a _ => (some (c, a), 0)
      | .ok h ws => match s.clauseAt x t h ws with
        | .error e => (some e, 0)
        | .ok k => (none, if !s.issuable x t k then 0 else (match tabGet s.stamp.ents 5 with
          | some y =>
            let i : Issue := { pc := y.pc, cls := k.cls, words := k.words, next := 0, mode := t.mode, modeNew := none, latches := [], vtos := []
                               claimed := [] }
            let u := s.stamp.touchCode (s.stackOf t) (s.ctxOf t) x.pc.toNat ws.length
            if !s.stamp.chosen 5 y (s.partOf t) k then 0
            else if (tabGet s.wgs t.wg).any (fun w => w.phase && (tabGet s.grids w.grid).any fun g => decide (g.rcd.allow < w.words + k.words.length))
              then 4
            else match ({ eid := 5, e := y, t := t, i := { i with next := y.word - 1 } } : Cur).issueChecks u (u.gRegs y.team t) []
                (u.gRegs y.team t) [] k.ins with
              | .pass .. => 1
              | .exhaust _ => 2
              | .fault _ => 3
          | none => 0))

/-- A clause of one word of class VX. -/
def beforeVX (i : Instr) : State := before (0xD2000001 :: encode i)

/-- A clause of two words in a compute phase that has so many words fewer than two left. -/
def phased (n : Nat) : State :=
  (before [0xD2000032, 0x58000000, 0x58000000]).modWg 2 fun w => { w with phase := true, words := placedRecord.allow - 2 + n }

/-- A clause that issues, and again in a compute phase; one past its allowance; one that is no clause of its class; a page that may not be executed; a page that is not there; a result past a grant
of 0; and a scalar load in a VX clause that is not aligned. -/
theorem witness_ClauseIssues :
    (∀ s ∈ [before [0xD2000032, 0x58000000, 0x58000000], before [0xD2000032, 0xFFFFFFFF, 0], (before []).storeBytes 0x14000 (leBytes 8 0x31F),
        (before []).modCtx 0 fun x => { x with root0 := 0 }, (beforeVX (.popc (.v 3) (.const .lane))).modTeam 4 fun t => { t with grant := 0 },
        (beforeVX (.sld 7 4 0)).modTeam 4 fun t => t.setX 2 0x20001, phased 0, phased 1], ∃ x t, StandsBefore s 5 x t ∧ x.word = 0) ∧
    (fetchNow (phased 0) = (none, 1) ∧ fetchNow (phased 1) = (none, 4)) ∧
    fetchNow (before [0xD2000032, 0x58000000, 0x58000000]) = (none, 1) ∧ fetchNow (before [0xD2000032, 0xFFFFFFFF, 0]) = (some (cILLOP, 1), 0) ∧
    fetchNow ((before []).storeBytes 0x14000 (leBytes 8 0x31F)) = (some (cPGXN, 0x40000), 0) ∧
    fetchNow ((before []).modCtx 0 fun x => { x with root0 := 0 }) = (some (0, 0x40000), 0) ∧
    fetchNow ((beforeVX (.popc (.v 3) (.const .lane))).modTeam 4 fun t => { t with grant := 0 }) = (none, 2) ∧
    fetchNow ((beforeVX (.sld 7 4 0)).modTeam 4 fun t => t.setX 2 0x20001) = (none, 3) := by
  refine ⟨fun s hs => ?_, by decide +kernel⟩
  simp only [List.mem_cons, List.not_mem_nil, or_false] at hs
  rcases hs with rfl | rfl | rfl | rfl | rfl | rfl | rfl | rfl <;> exact ⟨_, _, ⟨rfl, rfl, rfl, rfl, rfl, by decide +kernel, by decide +kernel⟩, rfl⟩

/-- Passing the limits of issue: a clause ready; a deferral at 255 and at 256 clauses; a stalled entity with room; a team with a YDL record; and
the watchdog at its limit. -/
theorem witness_IssueLimits :
    (∃ x t, tabGet demo.ents 5 = some x ∧ tabGet demo.teams x.team = some t ∧ x.waits + demo.countedCycles t < 64 ∧
      64 ≤ ({ x with waits := 64 } : Entity).waits + demo.countedCycles t) ∧
    tabGet demo.ents 99 = none ∧
    (∀ n ∈ [255, 256], ∃ x sl, tabGet ((before []).modEnt 5 fun e => { e with slots := [(3, { mask := 1, pc := 64, count := n, opened := 0, arrived := false })] }).ents 5 = some x ∧
      x.innermost = some (3, sl) ∧ x.issue = none ∧ x.hold = none ∧ x.parkedPc = none ∧ x.word = 0 ∧ sl.arrived = false ∧ sl.count = n) ∧
    (let s := demoE fun e => { e with hold := some .replay }
     ∃ x t, tabGet s.ents 5 = some x ∧ tabGet s.teams x.team = some t ∧ x.hold = some .replay ∧ s.replayRoom (s.partOf t) 1 0 = true ∧
       s.entRuns x t = true ∧ s.mayGoOn 5 x t = true) ∧
    (∃ t, tabGet demo.teams 4 = some t ∧ t.ydl = none ∧ t.hang < demo.hangLim * 2 ^ 20 ∧ demo.hangLim ≠ 0) ∧
    (∃ w, tabGet (demoW fun w => { w with place := .saved }).wgs 2 = some w ∧ w.place ≠ .resident) ∧
    let s := (before []).modTeam 4 fun t => { t with ydl := some ((here demo).fault cYDL 0), hang := 1024 * 2 ^ 20 }
    ∃ t f, tabGet s.teams 4 = some t ∧ t.ydl = some f ∧ s.hangLim * 2 ^ 20 ≤ t.hang ∧ t.dying = false ∧ tabSorted 0 s.ents = true ∧
      (∃ w, tabGet s.wgs t.wg = some w ∧ w.place = .resident ∧ w.aborting = false) ∧ (∃ x ∈ s.ents, x.2.team = 4) ∧
      ∀ x ∈ s.ents, x.2.team = 4 → x.2.atBoundary = true := by
  refine ⟨⟨_, _, rfl, rfl, by decide +kernel⟩, by decide +kernel, ?_, ⟨_, _, rfl, rfl, rfl, by decide +kernel⟩,
    ⟨_, rfl, by decide +kernel⟩, ⟨_, rfl, by decide +kernel⟩, _, _, rfl, rfl, by decide +kernel, rfl, by decide +kernel, ⟨_, rfl, rfl, rfl⟩, by decide +kernel⟩
  intro n hn
  simp only [List.mem_cons, List.not_mem_nil, or_false] at hn
  rcases hn with rfl | rfl <;> exact ⟨_, _, rfl, rfl, rfl, rfl, rfl, rfl, rfl, rfl⟩

/-- An entity that its place lets run holds an `mres`. -/
theorem witness_HeldWordsRetry :
    let s := (demoI fun i => { i with words := encode (.mres 0 (int8 1)) }).modEnt 5 fun e => { e with hold := some .engine }
    ∃ x t, tabGet s.ents 5 = some x ∧ tabGet s.teams x.team = some t ∧ (s.entRuns x t = true ∧ s.mayGoOn 5 x t = true) ∧
      x.issue.bind (·.instr) = some (.mres 0 (int8 1)) ∧ x.hold = some .engine :=
  ⟨_, _, rfl, rfl, by decide +kernel, by decide +kernel, rfl⟩

/-- What a team's access comes to: 0 where its page is there, 1 where it is not, 2 where a check of the page fails, 3 where the tag does. -/
def comes (s : State) (t : Team) (k : AccKind) (a : Nat) : Nat :=
  match s.teamXlate t k a 4 with | .ok _ _ => 0 | .absent => 1 | .fault x _ _ => if x == cTAGF then 3 else 2

/-- A queue that serves its team. -/
theorem serves_of (s : State) (t : Team) (h : (!t.swapped && (tabGet s.wgs t.wg).any fun w => w.place == .resident) = true) : Serves s t := by
  simp only [Bool.and_eq_true, Bool.not_eq_true', Option.any_eq_true, beq_iff_eq] at h
  obtain ⟨h1, w, hw, hp⟩ := h
  exact ⟨h1, w, hw, .inl hp⟩

/-- A released entry of a clause fetch, and of an operation; and a parked load of two lanes. -/
def releasedEntry (op : Nat) (fail : Bool) : ReplayEntry :=
  { parkedEntry op (pageOf (if op = 0 then 0x40000 else 0x20000)) with lanes := [3, 31], released := true, fail := fail }
def parkedLoad (p : Nat) : MemOp :=
  { busyOp with kind := .load, space := .global, dest := .vreg 3, lanes := [{ laneAt p [] with phys := none, lane := 3 }, { laneAt p [] with phys := none }] }

/-- A clause fetch that is replayed, and a load: with context 0's first table at `root`, and the leaf of every page as given. -/
def replaying (op : Nat) (root : Word64) (leaf p : Nat) (fail : Bool) : State :=
  ({ (before []).storeBytes 0x14000 (leBytes 8 leaf) with replay := [(6, releasedEntry op fail)], ops := [(8, parkedLoad p)] }).modCtx 0
    fun x => { x with root0 := root }

/-- An entry not released; one whose queue does not serve its team; one whose walk reads host memory, with no port up; one behind an older released
one; and what goes on: a clause fetch whose page is there, one whose page is not, without FAIL and with it, and one that may not execute; and a
load whose pages are there, missing without and with FAIL, not readable, and under the wrong tag, of an entity that stands. -/
theorem witness_ParkedEntriesReplay :
    (parkedEntry 0 3).released = false ∧ tabSorted 0 (replaying 0 0 0 0 false).replay = true ∧
    (demoT fun t => { t with swapped := true }).teams.all (fun t => t.2.swapped) = true ∧
    (let s := replaying 0 (2 ^ 47 + 1) 0x30F 0 false
     s.replayWaits (releasedEntry 0 false) (here s).t = true) ∧
    (let s := { before [] with replay := [(6, releasedEntry 0 false), (7, releasedEntry 0 false)] }
     tabSorted 0 s.replay = true ∧ ∃ y ∈ s.replay, y.1 < 7 ∧ y.2.released = true ∧ y.2.part = 0 ∧ ∃ u, tabGet s.teams y.2.team = some u ∧ Serves s u) ∧
    ∀ x ∈ [(0, (0x10001 : Word64), 0x30F, false, 0), (0, 0, 0x30F, false, 1), (0, 0, 0x30F, true, 1), (0, 0x10001, 0x31F, false, 2),
        (8, 0x10001, 0x30F, false, 0), (8, 0, 0x30F, false, 1), (8, 0, 0x30F, true, 1), (8, 0x10001, 0x30D, false, 2), (8, 0x10001, 0x32F, false, 3)],
      let r := releasedEntry x.1 x.2.2.2.1
      let s := replaying x.1 x.2.1 x.2.2.1 (if x.2.2.2.2 = 3 then 0x1000000000020000 else 0x20000) x.2.2.2.1
      tabGet s.replay 6 = some r ∧ r.released = true ∧ (∃ t e o, tabGet s.teams r.team = some t ∧ tabGet s.ents r.ent = some e ∧
        tabGet s.ops 8 = some o ∧ Serves s t ∧ s.replayWaits r t = false ∧ (∀ y ∈ s.replay, ¬ y.1 < 6) ∧ s.stands r.ent = true ∧
        (r.op = 0 → e.issue = none ∧ comes s t .fetch 0x40000 = x.2.2.2.2) ∧
        (r.op ≠ 0 → r.op = 8 ∧ (o.held r).length = 2 ∧ ∀ l ∈ o.held r, (l.ptr < 2 ^ 64 ∧ bitsOf l.ptr 59 57 = 0) ∧ o.size = 4 ∧
          comes s t o.accKind l.ptr = x.2.2.2.2)) := by
  refine ⟨by decide +kernel, by decide +kernel, by decide +kernel, by decide +kernel,
    ⟨by decide +kernel, _, .head _, by decide +kernel, rfl, rfl, _, rfl, serves_of _ _ (by decide +kernel)⟩, fun x hx => ?_⟩
  simp only [List.mem_cons, List.not_mem_nil, or_false] at hx
  rcases hx with rfl | rfl | rfl | rfl | rfl | rfl | rfl | rfl | rfl <;>
    exact ⟨by decide +kernel, rfl, _, _, _, rfl, rfl, rfl, serves_of _ _ (by decide +kernel), by decide +kernel⟩

/-- The entity of a released access is there, between clauses and within one, and its team not ending; and it is gone. -/
theorem witness_ReplayFaultDelivers : (∀ s ∈ [demo, before []], ∃ x t, tabGet s.ents 5 = some x ∧ x.team = 4 ∧ tabGet s.teams 4 = some t ∧
    t.dying = false) ∧ tabGet demo.ents 99 = none := by
  refine ⟨fun s hs => ?_, by decide +kernel⟩
  simp only [List.mem_cons, List.not_mem_nil, or_false] at hs
  rcases hs with rfl | rfl <;> exact ⟨_, _, rfl, rfl, rfl, by decide +kernel⟩

/-- A state with one copy, number 6, and the translation of an address, as a test. -/
def withCopy (s : State) (c : Copy) : State := { s with copies := [(6, c)] }
def xlates (s : State) (k : AccKind) (a n : Nat) : Bool := match s.xlate 0 0 k a n with | .ok _ _ => true | _ => false

/-- A granule of a copy into each space, with another to come. -/
theorem witness_GranulesMove : ∀ f ∈ [(CopyFn.c2s, 0, 0), (.s2c, 0, 0), (.g2t, 0x20000, 0), (.s2g, 0, 0x20000)],
    let c := { moving 0 with fn := f.1, len := 32, src := f.2.1, dst := f.2.2 }
    let s := withCopy (paged demo) c
    tabGet s.copies 6 = some c ∧ (∃ sl, (c.slices.find? fun x => x.index == 0) = some sl ∧ SliceGoes s c sl ∧
      (sl.moved + 1 < c.rows * (c.len / 16) ∧ s.granuleLanded c (c.place 0 sl.moved).1 (c.place 0 sl.moved).2 = true ∧ c.hidden 0 15 = false ∧
        (c.fn.dstSpace = .global → xlates (sliceView s c sl) .copyWrite c.dst 16 = true))) ∧
    c.fn ≠ .cred ∧ (∀ w ∈ s.copyTargets c, tabGet s.wgs w ≠ none) ∧ HasClmem s c.wg ∧
      ∃ w g, tabGet s.wgs c.wg = some w ∧ tabGet s.grids w.grid = some g := by
  intro f hf
  simp only [List.mem_cons, List.not_mem_nil, or_false] at hf
  rcases hf with rfl | rfl | rfl | rfl <;>
    exact ⟨rfl, ⟨_, rfl, by unfold SliceGoes; decide +kernel, by decide +kernel⟩,
      by decide +kernel, by decide +kernel, ⟨_, _, _, rfl, rfl, rfl⟩, _, _, rfl, rfl⟩

/-- A granule within the bound from a space and from memory, and one past the bound. -/
theorem witness_GranuleSource : 0 + 16 ≤ 16 ∧ 16 ≤ 16 ∧ (moving 0).fn.srcSpace ≠ .global ∧ movingFrom.fn.srcSpace = .global ∧
    xlates (withCopy (paged demo) movingFrom) .copyRead 0x20000 16 = true ∧ CopyFn.s2g ≠ .gather := by decide +kernel

/-- A copy cancelled; one that has moved everything, with an object in each space; a `cred` with its result and without; one not moved yet; and
a slice whose page lost its permission, of a copy with another slice to come. -/
theorem witness_CopiesEnd :
    (∃ c, tabGet (withCopy demo { moving 0 with cancelled := true }).copies 6 = some c ∧ (c.cancelled = true ∨ c.failed = true)) ∧
    (∀ sp ∈ [Sp.spad, .clmem], let c := { moving 1 with obj := some (sp, 0) }
      let s := withCopy demo c
      c.allMoved = true ∧ tabSorted 0 s.copies = true ∧ tabSorted 0 s.wgs = true ∧ c.mc = false ∧ HasClmem s c.wg ∧
        (∀ w ∈ s.copyTargets c, tabGet s.wgs w ≠ none) ∧ 4 ∈ c.slices.map (·.team) ∧ (tabGet s.teams 4).isSome = true) ∧
    (let c := { moving 2 with fn := .cred, cred := some 7 }
     let x : Cred := { group := 0, ordinal := 0, ranks := [0], ety := 0, bytes := 16, sl := 1, parts := [], result := some ([], flagABS) }
     let s := { withCopy demo c with creds := [(7, x)] }
     c.allMoved = true ∧ (s.credResultOf c).isSome = true ∧ tabGet s.creds 7 = some x ∧ (withCopy demo c).credResultOf c = none) ∧
    (moving 0).allMoved = false ∧
    let c := { movingFrom with sl := 2 }
    let s := withCopy ((paged demo).storeBytes 0x14000 (leBytes 8 0x301)) c
    ∃ sl, (c.slices.find? fun x => x.index == 0) = some sl ∧ s.copyWaits c = false ∧ s.piecesFar c (s.slicePieces c sl) = false ∧
      (s.sliceFault c sl).isSome = true ∧ c.allCome = false := by
  refine ⟨⟨_, rfl, .inl rfl⟩, ?_, by decide +kernel, by decide +kernel, _, rfl, by decide +kernel⟩
  intro sp hs
  simp only [List.mem_cons, List.not_mem_nil, or_false] at hs
  rcases hs with rfl | rfl <;>
    exact ⟨by decide +kernel, by decide +kernel, by decide +kernel, by decide +kernel, ⟨_, _, _, rfl, rfl, rfl⟩, by decide +kernel⟩

/-- A `cred` of a slice that has taken some granules, joined to reduction 7, and its part there. -/
def reducer (n : Nat) : Copy := { moving n with fn := .cred, src := 0x20000, dst := 0x20010, cred := some 7 }
def reducing (ranks : List Nat) (ps : List CredRank) : Cred := { group := 0, ordinal := 0, ranks := ranks, ety := 0, bytes := 16, sl := 1, parts := ps }
def part (r : Nat) (k : Option Nat) (bad : Bool) : CredRank := { rank := r, copy := k, blocks := [(0, List.replicate 64 0)], mismatch := bad }

/-- Link 0 up, and every member reached over it; and over no link. -/
def linked : State :=
  { paged demo with copies := [(6, reducer 1)], linkEn := 1, links := [(0, { Link.reset with trained := true, keyed := true })]
                    routes := List.replicate 256 1 }

/-- Every part there; ranks that disagree, with each local part there and with one missing; a part missing, and a result already there; a
granule to read and one to write; and a block of the other rank at the last place, over a link that is up and one that is not, with the
reduction's terms, with another length, and abandoned. -/
theorem witness_ReductionsComplete :
    (let x := reducing [demo.member, demo.member + 1] [part 0 (some 6) false, part 1 none false]
     linked.credBroken x = false ∧ linked.credReady x = true ∧ x.result = none ∧ tabSorted 0 [(7, x)] = true) ∧
    (let x := reducing [demo.member] [part 0 (some 6) true]
     linked.credBroken x = true ∧ linked.credHere x = true ∧ tabSorted 0 linked.copies = true) ∧
    (let x := reducing [demo.member] [part 1 none true]
     linked.credBroken x = true ∧ linked.credHere x = false) ∧
    (let x := reducing [demo.member, demo.member + 1] [part 0 (some 6) false]
     linked.credBroken x = false ∧ linked.credReady x = false ∧ ({ linked with routes := [] } : State).credBroken x = true) ∧
    (∀ n ∈ [0, 1], let c := reducer n
      let x := { reducing [demo.member] [part 0 (some 6) false] with result := some (List.replicate 16 0, 0) }
      let s := { linked with copies := [(6, c)], creds := [(7, x)] }
      ∃ sl, (c.slices.find? fun x => x.index == 0) = some sl ∧ c.cred = some 7 ∧ tabGet s.creds 7 = some x ∧ SliceGoes s c sl ∧
        sl.moved = n ∧ c.rows * (c.len / 16) = 1 ∧ xlates (sliceView s c sl) .copyRead 0x20000 16 = true) ∧
    (let c := { reducer 1 with len := 32 }
     let x := { reducing [demo.member] [part 0 (some 6) false] with result := some (List.replicate 32 0, 0), bytes := 32 }
     let s := { linked with copies := [(6, { c with slices := c.slices.map fun z => { z with moved := 2 } })], creds := [(7, x)] }
     xlates s .copyWrite 0x20010 16 = true ∧ 2 + 1 < 2 + 2) ∧
    (let x := reducing [demo.member, demo.member + 1] []
     linked.localRank (x.ranks.getD 0 linked.member) = true ∧ linked.localRank (x.ranks.getD 1 linked.member) = false ∧ 0 < x.blocks ∧
       linked.pathUp (x.ranks.getD 1 linked.member % 256) = true ∧ ({ linked with linkEn := 0 } : State).pathUp 1 = false ∧ x.result = none ∧
       tabGet ({ linked with creds := [(7, x)] } : State).creds 7 = some x ∧
       ∀ n ∈ [16, 32], ∀ a : Bool,
         let b : CredBlock := { cred := 7, rank := 1, index := 0, header := 0, payload := 0, abandoned := a
                                terms := { ranks := x.ranks, ety := x.ety, bytes := n, sl := x.sl } }
         b.index < x.blocks ∧ decide (b.abandoned = true ∨ b.terms ≠ { ranks := x.ranks, ety := x.ety, bytes := x.bytes, sl := x.sl }) =
           (a || n == 32)) ∧
    2 ≤ 2 ∧ (List.replicate (16 * credBytes 2) (0 : Byte)).length = 16 * credBytes 2 ∧
      ∀ i < 16, leNat (((List.replicate (16 * credBytes 2) (0 : Byte)).drop (8 * i + 4)).take 4) ≤ 65535 := by
  refine ⟨by decide +kernel, by decide +kernel, by decide +kernel, by decide +kernel, ?_, by decide +kernel, by decide +kernel, by decide +kernel⟩
  intro n hn
  simp only [List.mem_cons, List.not_mem_nil, or_false] at hn
  rcases hn with rfl | rfl <;> exact ⟨_, rfl, rfl, rfl, by unfold SliceGoes; decide +kernel, by decide +kernel⟩

/-- An engine entry, and a state whose engine 0 has it under number 6. -/
def entry (op : EngineOp) : EngineEntry :=
  { op := op, ent := 5, teams := [4], wg := 2, prio := 0, started := false, progress := 0, bands := 0, missing := [], held := false, fail := false
    aged := false, finished := false, flags := 0, after := [], pc := 0, word := 1, mask := 0, out := [], reserved := none }
def withEntry (x : EngineEntry) : State := demo.modEngine 0 fun e => { e with entries := [(6, x)] }

/-- A free path whose only entry is granted, of each of the operations; a record to attach scales to; a busy path; a path with nothing; and the
swap of the first and of the last band. -/
theorem witness_EnginePaths :
    (∀ op ∈ [EngineOp.mzero 7, .mres 15 (int8 1), .mfree 0, .mfill 0 0, .mtab 0, .mswap, .mma 0 0 0 1 0 false false true 0, .mls 0 none,
        .mls 0 (some (1, 0)), .mld 0 .spad 0 0 1 16 false, .mld 0 .spad 0 0 1 0 false, .mdrain 0 0 0x4000 1 0, .mdrain 0 0 0x040 1 0,
        .mred false .i32 4 [] 5],
      let s := withEntry (entry op)
      (s.engine 0).busy op.path = false ∧ s.grantee 0 op.path = some (6, entry op) ∧ tabGet (s.engine 0).entries 6 = some (entry op)) ∧
    (let s := (withEntry (entry (.mscl 0 1 0))).modEngine 0 fun e => { e with recs := [(0, recOf (int8 1))] }
     s.grantee 0 1 = some (6, entry (.mscl 0 1 0)) ∧ tabGet (s.engine 0).recs 0 = some (recOf (int8 1)) ∧ tabSorted 0 (s.engine 0).recs = true) ∧
    cmdDst 0x4000 = 2 ∧ cmdDst 0x040 ≠ 2 ∧
    ((withEntry { entry (.mdrain 0 0 0 64 0) with started := true }).engine 0).busy 2 = true ∧ demo.grantee 0 0 = none ∧
    (withEntry (entry (.mzero 7))).eligible 0 6 (entry (.mzero 7)) = true ∧
    (withEntry { entry (.mzero 7) with finished := true }).eligible 0 6 { entry (.mzero 7) with finished := true } = false ∧
    ∀ b ∈ [0, 3], let x := { entry .mswap with started := true, bands := BitVec.ofNat 4 (2 ^ b - 1) }
      let s := withEntry x
      tabGet (s.engine 0).entries 6 = some x ∧ b < 4 ∧ x.bands.toNat = 2 ^ b - 1 ∧ (s.engine 0).active.length = 4 ∧ (s.engine 0).shadow.length = 4 ∧
      ∀ y ∈ (s.engine 0).entries, y.1 < 6 → y.2.op.path = 0 → y.2.finished = true := by decide +kernel

/-- A granule of a load from SPAD, from CLMEM and from memory, and of a drain to each. -/
theorem witness_EngineGranules :
    (∀ q ∈ [(MldSrc.spad, Space.spad), (.clmem, .clmem)], let x := { entry (.mld 0 q.1 0 0 1 16 false) with started := true }
      let s := withEntry x
      tabGet (s.engine 0).entries 6 = some x ∧ x.started = true ∧ x.finished = false ∧ s.landed x.wg q.2 (0 + 16 * x.progress) = true) ∧
    (let x := { entry (.mld 0 .global 0x20000 0 1 256 false) with started := true }
     let s := paged (withEntry x)
     let v := s.observeTeams x
     s.loadFault x = none ∧ v.loadFault x = none ∧ s.entryPlace x = (0, 0) ∧ v.walkWaits 0 0 .copyRead 0x20000 = false ∧ xlates v .copyRead 0x20000 16 = true ∧ v.reaches 0x20000 = true ∧
       pageOf 0x20000 ∉ x.missing ∧ 16 * x.progress < 256) ∧
    ∀ n ∈ [(0 : Nat), 0x2000], let cmd := BitVec.ofNat 32 n
      let x := { entry (.mdrain 0 0 cmd 1 0) with started := true, out := List.replicate 16 0 }
      let s := withEntry x
      tabGet (s.engine 0).entries 6 = some x ∧ s.landed x.wg (if cmdDst cmd = 0 then .spad else .clmem) (0 + 16 * x.progress) = true ∧
        tabGet s.wgs x.wg ≠ none := by decide +kernel

/-- An entry that has finished, one that has not, loads that cannot go on, of which one waited and was released under FAIL, one that read a reserved byte, a reduction and a scan of two lanes,
and rails. -/
theorem witness_EngineEntriesEnd :
    tabGet (demo.engine 0).entries 6 = none ∧
    (let x := { entry .mswap with finished := true }
     tabGet ((withEntry x).engine 0).entries 6 = some x ∧ x.finished = true ∧ x.reserved = none ∧ tabSorted 0 ((withEntry x).engine 0).entries = true) ∧
    (entry .mswap).finished = false ∧
    (let x := { entry (.mld 0 .global 0x20000 0 1 256 false) with started := true }
     let s := ((paged (withEntry x)).storeBytes 0x14000 (leBytes 8 0x301)).modEngine 0 fun e => { e with recs := [(0, recOf (int8 1))] }
     tabGet (s.engine 0).entries 6 = some x ∧ (s.loadFault x).isSome = true) ∧
    (let x := { entry (.mld 0 .global 0x20000 0 1 256 false) with missing := [2], held := true, fail := true }
     let s := (withEntry x).modEngine 0 fun e => { e with recs := [(0, recOf (int8 1))] }
     tabGet (s.engine 0).entries 6 = some x ∧ (s.loadFault x).isSome = true) ∧
    (let x := { entry (.mld 0 .global 0x20000 0 1 256 true) with finished := true, reserved := some 0x20003 }
     tabGet ((withEntry x).engine 0).entries 6 = some x ∧ x.reserved = some 0x20003) ∧
    (∀ scan ∈ [true, false], let x := { entry (.mred scan .i32 4 [(0, 7), (31, 8)] 5) with finished := true }
      tabGet ((withEntry x).engine 0).entries 6 = some x ∧ 4 ∈ x.teams ∧ (tabGet (withEntry x).teams 4).any (fun t => decide (31 < t.lanes)) = true ∧
        ((reduceTeam .i32 [(0, 7), (31, 8)]).2.1.map (·.1)).Nodup ∧ (31 : Nat) ∈ (reduceTeam .i32 [(0, 7), (31, 8)]).2.1.map (·.1)) ∧
    (let s := (withEntry (entry (.mma 0 0 0 1 8 false false true 0))).modEngine 0 fun e => { e with on := 7 }
     (s.engine 0).on.getLsbD 3 = false ∧ (s.engine 0).bandUsed 3 = true) ∧
    let s := demo.modEngine 0 fun e => { e with on := 8, gate := 8 }
    (s.engine 0).on.getLsbD 3 = true ∧ (s.engine 0).gate.getLsbD 3 = true ∧ (s.engine 0).bandUsed 3 = false := by decide +kernel

/-- What the hypotheses of the engine's arithmetic ask for.  Groups: a pair of present elements, one with an absent one, infinities, a NaN
and a zero; an accumulator that is absent, finite, a NaN or an infinity; a last group shorter than the others.  Records: a format with and
without blocks, and a row with a scale in the record attached, one past the record, and integer and float elements.  Drains and tables: an
element of each tile type, of a count and of none, an output of each kind, and a finite table.  Reductions: a value of one rank, a cell with and
without contributions, and lanes of two groups. -/
theorem witness_EngineArithmetic :
    (([(numOfInt 2, numOfInt 3), (.absent, numOfInt 1)].filter fun p => decide (p.1 ≠ .absent) && decide (p.2 ≠ .absent)) =
        [(numOfInt 2, numOfInt 3)] ∧ (∃ n m e, numOfInt 2 = .fin n m e) ∧ (∃ n e, numOfInt 0 = .fin n 0 e) ∧
      numOf fmtF32 0xFF800001 = .absent ∧ numOf fmtF32 0x7FC00000 = .nan false ∧ numOf fmtF32 0x7F800001 = .nan true ∧
      (∃ n m e, numOf fmtF32 0 = .fin n m e) ∧ numOf fmtF32 0x7F800000 = .inf false ∧ numOf fmtF32 0xFF800000 = .inf true ∧
      fmtF32.inf = some 0x7F800000) ∧
    ((List.replicate 64 (numOfInt 1)).length = 32 * 2 ∧ 0 < [numOfInt 1].length ∧ [numOfInt 1].length ≤ 32 ∧ fmtOk (int8 1) = true ∧
      (int8 1).toNat % 16 < 10 ∧ (int8 1).toNat / 256 % 4 = 0 ∧ fmtOk (scaledE4m3 1) = true ∧ (scaledE4m3 1).toNat % 16 < 10 ∧
      (scaledE4m3 1).toNat / 256 % 4 ≠ 0) ∧
    (let q := (recOf (bf16 1)).store 0 [0x80, 0x3F]
     let x : MobRecord := { recOf (scaledE4m3 1) with scales := some (1, 0) }
     let e := (mob [(0, x), (1, q)] 0).engine 0
     x.scales = some (1, 0) ∧ tabGet e.recs 1 = some q ∧ fmtKind q.format = 3 ∧ fmtBlock x.format ≠ 0 ∧ 0 < fmtCount x.format ∧ ¬ 1 < fmtCount x.format ∧
       0 < fmtWide x.format ∧ fmtKind x.format < 10 ∧ fmtInt x.format = false ∧ fmtInt (recOf (int8 1)).format = true ∧ (15 : BitVec 4).getLsbD 0 = true) ∧
    (∀ ty ∈ [1, 2, 3], let t : Tile := { Tile.blank with ty := ty, cnts := [(0, 1)] }
      t.ty ∈ [1, 2, 3] ∧ t.count t.ty 0 0 ≠ 0 ∧ t.count t.ty 1 0 = 0 ∧ (0x800 : Word).toNat / 512 % 16 < 9 ∧ (0xA00 : Word).toNat / 512 % 16 < 9) ∧
    (∃ n m e, numOf fmtF32 (0x3F800000 : Word).toNat = .fin n m e) ∧
    ([5] : List Nat) ≠ [] ∧ (0 : Nat) < 65535 ∧ (∀ g, numOf fmtF32 0 ≠ .nan g) ∧
    (∀ x ∈ [((3 : Nat), (7 : Word))], x.1 / 16 ≠ 1) ∧ ∀ y ∈ [((16 : Nat), (7 : Word)), (31, 8)], y.1 / 16 = 1 :=
  ⟨⟨by decide +kernel, ⟨_, _, _, rfl⟩, ⟨_, _, rfl⟩, by decide +kernel, by decide +kernel, by decide +kernel, ⟨_, _, _, rfl⟩, by decide +kernel⟩,
    by decide +kernel, by decide +kernel, by decide +kernel, ⟨_, _, _, rfl⟩, by decide +kernel⟩

/-- Zero becomes zero, in every format's rounding. -/
theorem witness_BecomesZero : Becomes fmtF32 0 0 0 := by
  have h : numOf fmtF32 0 = .fin false 0 (-149) := by decide +kernel
  exact ⟨0, ⟨fun _ => ⟨⟨false, -149, h⟩, rfl⟩, fun h0 => absurd rfl h0⟩, ⟨_, _, _, h⟩, by rw [h]; simp [realOf, valueOf]⟩

/-! ### The grid unit, power, migration, contexts, debug, trace, links -/

/-- A queue with one published record, and one that is empty, at the head of its ring; one whose table waits for a port; a partition's stack with a candidate and none; and turns. -/
theorem witness_RecordsAndDraws :
    (∀ n ∈ [1, 0], let s := launching 1 0 n record
      let stack := lowStack (s.partStacks (s.ctx 0).part)
      let v := s.touchRange stack 0 (s.queueAddr 0 0) 48
      let h := v.queueHdr stack 0 0
      (s.ctx 0).state = .active ∧ (∀ z ∈ [s, v], (match z.headerRes stack 0 0 with | .ok => true | _ => false) = true) ∧
        ((tabGet (s.ctx 0).queues 0).getD Queue.reset).reported = false ∧ h.en = true ∧ h.sized = true ∧ h.used = n ∧
        rangeOk v [.load] (h.slot h.head) 128 = true ∧ tabGet (s.ctx 0).links (linkKey 0 h.head) = none ∧
        s.rangeWaits stack 0 [.load] (s.queueAddr 0 0) 48 = false ∧ v.rangeWaits stack 0 [.load] (h.slot h.head) 128 = false) ∧
    (let s := (launching 1 0 1 record).modCtx 0 fun x => { x with root0 := 2 ^ 47 + 1 }
     s.rangeWaits (lowStack (s.partStacks (s.ctx 0).part)) 0 [.load] (s.queueAddr 0 0) 48 = true) ∧
    (let s := (launching 1 0 1 []).storeBytes 0x22000 record
     recValid ((s.touchRange 0 0 (s.queueAddr 0 0) 48).deviceLoad 0 0 0x22000 128) false = true) ∧
    (launching 1 0 1 record).partStacks 0 ≠ 0 ∧ (let s := launching 1 0 1 record
     ((List.range 8).find? fun p => s.partStacks p != 0 && lowStack (s.partStacks p) == 0) = some 0 ∧
       roundRobin 64 0 ((List.range 64).filter (s.candidate 0 0)) = some 0 ∧ coreStack 0 = 0 ∧ s.coreInService 0 = true ∧
       bitOf (s.partStacks 0) (coreStack 0) = true ∧ (s.partTeams 0 0).length < 16) ∧
    (let s := { demo with grids := [] }
     (List.range 64).filter (s.candidate 0 0) = []) ∧
    roundRobin 3 1 [1, 3, 5] = some 3 ∧ roundRobin 3 0 [1, 3, 5] = some 5 ∧ roundRobin 5 0 [1, 3, 5] = some 1 := by decide +kernel

/-- A load on its way. -/
def loadAt : MemOp := { busyOp with kind := .load, lanes := [laneAt 0 []] }

/-- A unit held for a core; a saved workgroup with a core that it fits; a swapped team to place; one that may be swapped out, with the end of what
that writes; and a workgroup that is over. -/
theorem witness_PlacementAndRetirement :
    (demo.ctx 0).state = .active ∧ (demo.ctx 1).state ≠ .active ∧ (demo.ctx 0).held = none ∧
    (let p : Piece := { grid := 1, wgid := ⟨0, 0, 0⟩, lo := ⟨0, 0, 0⟩, hi := ⟨32, 1, 1⟩, splits := 0 }
     let s := demo.modCtx 0 fun x => { x with held := some (.half p) }
     (s.ctx 0).savedWgs = [] ∧ (s.ctx 0).held = some (.half p) ∧ (tabGet s.grids 1).any (fun g => (s.chooseCore 0 g).isSome) = true) ∧
    (let s := (demoW fun w => { w with place := .saved, cluster := none }).modCtx 0 fun x => { x with savedWgs := [2] }
     (tabGet s.wgs 2).any (fun w => w.ctx == 0 && w.place == .saved && w.cluster.isNone && coreStack 0 == coreStack w.core &&
       (tabGet s.grids w.grid).any fun g => bitOf (s.partStacks 0) (coreStack 0) && s.restoreFits 2 g.rcd 0 &&
         s.reaches (physOf (s.recordAddr w) 0)) = true ∧ (s.ctx 0).savedWgs.head? = some 2) ∧
    (let s := (demoT fun t => { t with swapped := true }).modEnt 5 fun e => { e with hold := some .qwait }
     tabGet s.wgs 4 = none ∧ (tabGet s.teams 4).any (fun t => t.swapped && s.qwaitOver 4 t && s.partTakes (s.coreOf t) t.part t.lanes t.grant 0 1 0 &&
       s.reaches (physOf ((s.ctx 0).ctxSave.toNat + t.imageAt) 0) && s.entryRoom (s.coreOf t) t.part ((s.entsOf 4).filter fun e => e.2.isFrag).length) = true ∧
       (s.replay.filter fun r => r.2.part == 0 || r.2.team == 4).length ≤ 256) ∧
    (let s := (demoE fun e => { e with hold := some .qwait }).modWg 2 fun w => { w with kids := [1] }
     (tabGet s.teams 4).any (fun t => !t.swapped && !s.qwaitOver 4 t) = true ∧ (∃ x ∈ s.ents, x.2.team = 4) ∧
       (∀ x ∈ s.ents, x.2.team = 4 → x.2.hold = some .qwait) ∧ (tabGet s.wgs 2).any (fun w => w.place == .resident) = true ∧
       s.replay.filter (fun r => r.2.team == 4) = [] ∧ s.teamQuiet 4 = true ∧ ({ s with ops := [(6, loadAt)] } : State).teamQuiet 4 = false ∧
       (tabGet s.teams 4).any (fun t => decide ((s.ctx 0).ctxSave.toNat + s.saveBase 0 + 2 ^ 20 ≤ 2 ^ 48) &&
         [(s.parkedSection 0 0 []).length, (s.teamImage 4 t).length].all fun n => decide (n ≤ 2 ^ 20)) = true) ∧
    (tabGet demo.wgs 2).any (fun w => !demo.wgOver 2 w && w.place == .resident) = true ∧
    let s := { demo with ents := [] }
    (tabGet s.wgs 2).any (fun w => s.wgOver 2 w) = true ∧ tabSorted 0 s.wgs = true := by decide +kernel

/-- A sample tick and none; an emergency at its release and before; a keyed link with a new notice and with one seen; the heartbeat's limit. -/
theorem witness_SamplesAndEmergency :
    (let s := { demo with time := 1000 }
     s.time.toNat % 1000 = 0 ∧ s.policy.lastSample ≠ s.time.toNat) ∧ ({ demo with time := 999 } : State).time.toNat % 1000 ≠ 0 ∧
    (∀ n ∈ [100000, 99999], let s := { demo with policy := { demo.policy with emg := true, emgSrc := true, coolTicks := n } }
     s.policy.emg = true ∧ s.policy.emgSrc = true ∧ decide (100000 ≤ s.policy.coolTicks) = (n == 100000)) ∧
    (let s := { linked with notices := [(7, 2)] }
     s.linkUp 0 = true ∧ tabGet s.notices 7 = some 2 ∧ tabGet s.notices 7 ≠ some 3 ∧ s.linkUp 17 = false) ∧
    ∀ n ∈ [1000000, 999999], let s := { demo with policy := { demo.policy with smhbTicks := n, smhbCapped := false } }
     decide (1000000 ≤ s.policy.smhbTicks) = (n == 1000000) ∧ s.policy.smhbCapped = false := by decide +kernel

/-- The last island with a target out of range and one within it (its floor is not known); and each state of a change. -/
theorem witness_IslandsChange :
    1343 < 1344 ∧ 80 < 81 ∧ 38 < 39 ∧ 80 ≤ 80 ∧ 38 ≤ 38 ∧ 1344 ≤ 1344 ∧
    (let at' (st : IslandState) (v : Nat) : State :=
       { demo with time := 300, islands := [(3, { demo.island 3 with state := st, vcur := v, goal := (40, 20), since := 100 })] }
     ((at' .ramp 40).island 3).state = .ramp ∧ ((at' .ramp 40).island 3).vnow 300 = 40 ∧ ((at' .ramp 20).island 3).vnow 100 ≠ 40 ∧
       ((at' .settle 40).island 3).state = .settle ∧ ((at' .settle 40).island 3).since + 200 ≤ (at' .settle 40).time.toNat ∧
       ((at' .fdown 40).island 3).state = .fdown ∧ ((at' .fup 40).island 3).state = .fup ∧ ((at' .idle 40).island 3).state = .idle) := by
  decide +kernel

/-- A workgroup whose move is chosen: forbidden, with every clause ended, and with one in issue; one that halts, with split-table entries enough
and with one too few; a record within reach and one that is not; and a workgroup at a
block of a move, of a restore and of a save, and past the last. -/
theorem witness_MovesBetweenLayers :
    tabGet demo.wgs 99 = none ∧
    (let s := { demo with cols := [(coreColumn 0, { demo.column (coreColumn 0) with chosen := some (2, 1) })] }
     (s.column (coreColumn 0)).chosen = some (2, 1) ∧ s.roomOn (s.moveSet 2) 1 = true ∧ s.moveForbidden (s.moveSet 2) = false ∧
       s.allAtBoundary (s.moveSet 2) = false ∧
       (s.modEnt 5 fun e => { e with issue := none }).allAtBoundary (s.moveSet 2) = true ∧
       (s.modEnt 5 fun e => { e with stopped := true }).moveForbidden (s.moveSet 2) = true) ∧
    (let h : State → State := fun s => s.modWg 2 fun w => { w with place := .halting 1 }
     let a := h (crowded demo)
     let b := h { crowded demo with ents := tabPut (crowded demo).ents 40 { startEntity 4 0 0 with parent := some 5, token := 9 } }
     a.entriesFit (a.moveSet 2) = true ∧ b.entriesFit (b.moveSet 2) = false ∧ a.moveForbidden (a.moveSet 2) = false ∧
       [a, b].all (fun s => (tabGet s.wgs 2).any fun w => w.place == .halting 1 && !w.aborting) = true) ∧
    (let s := demo.modCtx 0 fun x => { x with ctxSave := 2 ^ 47 }
     (tabGet demo.wgs 2).any (fun w => demo.reaches (physOf (demo.recordAddr w) 0) && !s.reaches (physOf (s.recordAddr w) 0)) = true) ∧
    (tabGet demo.wgs 2).any (fun w => w.place == .resident && !w.aborting && decide ((demo.column (coreColumn w.core)).chosen ≠ some (2, 1))) = true ∧
    ∀ p ∈ [Residency.moving 1 0, .restoring 2, .saving 0], let s := demoW fun w => { w with place := p, cluster := none }
      (tabGet s.wgs 2).any (fun w => w.place == p && w.cluster == none && decide (0 < s.blocksOf 2 w) && decide (s.blocksOf 2 w ≤ 1000) &&
        decide ((s.blockCounts 2 w).1 ≤ 2) && decide (2 < (s.blockCounts 2 w).1 + (s.blockCounts 2 w).2.1)) = true := by decide +kernel

/-- A port that carries writes and holds the semaphore, and one that does not carry any. -/
def owned : State :=
  { demo with ports := [(0, { Link.reset with trained := true, keyed := true })], sem := { demo.sem with held := true, owner := 0 } }

theorem not_keyed_demo : ¬ Keyed demo 0 := fun h => by
  obtain ⟨_, l, hl, _⟩ := h
  have hn : tabGet demo.ports 0 = none := by decide +kernel
  rw [hn] at hl; cases hl

/-- Registers at the ends of their ranges; ports that carry writes and do not; and two requests for the semaphore, one of each port. -/
theorem witness_PortRowsWrite : (63 < 64 ∧ 4095 < 4096 ∧ 279 < 280) ∧ Keyed owned 0 ∧ ¬ Keyed demo 0 ∧ Owns owned 0 ∧
    owned.rivalAsk 0 = none ∧
    let l : Link := { Link.reset with trained := true, keyed := true }
    let s := { demo with ports := [(0, l), (1, l)], agenda := [.acq 1] }
    let r : SemAsk := { port := 1, word := 4, ent := none }
    s.sem.held = false ∧ s.agenda.head?.bind semAsk = some r ∧ s.rivalAsk 0 = some r ∧ Keyed s 0 ∧ Keyed s 1 :=
  ⟨by decide, ⟨by decide, _, rfl, rfl, rfl⟩, not_keyed_demo, ⟨⟨by decide, _, rfl, rfl, rfl⟩, rfl, rfl⟩, by decide +kernel, rfl, rfl,
    by decide +kernel, ⟨by decide, _, rfl, rfl, rfl⟩, ⟨by decide, _, rfl, rfl, rfl⟩⟩

/-- Each state of a context, without a unit held. -/
theorem witness_ContextCommands : ∀ st ∈ [CtxState.free, .active, .suspending, .suspended, .tearing],
    let s := owned.modCtx 63 fun x => { x with state := st, held := none }
    ((s.ctx 63).state = st ∧ (s.ctx 63).held = none) ∧ (st = .free → (s.modCtx 63 fun x => { x with port := 0, part := 0 }).createOk 63 = true) := by
  decide +kernel

/-- A partition without a stop, and one where context 0 is stopped with an entity to step; the debug right and its absence. -/
theorem witness_PortCommands :
    (owned.ctx 5).count = 0 ∧ owned.trust.busy = false ∧
    (let s := { owned with trust := { owned.trust with verdict := 1, index := 0 } }
     s.trust.verdict = 1 ∧ ({ owned with trust := { owned.trust with verdict := 2 } } : State).trust.verdict ≠ 1) ∧
    owned.debugRight 0 0 = false ∧
    (let s := owned.modCtx 0 fun x => { x with dbgEn := true, dbgPort := 0 }
     let d := { s.window 0 with stopped := true, sctx := 0, dsel := demo.entsOn 0 0 |>.foldl (fun _ x => x.2.selCode (here demo).t) 0, daddr := BitVec.ofNat 32 (16 * 63) }
     let z := { s with debug := [(0, d)], ents := s.ents.map fun (x : Nat × Entity) => (x.1, { x.2 with stopped := true }) }
     s.debugRight 0 0 = true ∧ (s.window 0).stopped = false ∧ (s.window 0).stopping = false ∧
       z.debugRight 0 (z.window 0).sctx = true ∧ (z.window 0).stopped = true ∧ (z.window 0).busy = false ∧ (z.window 0).retry = none ∧
       (∀ x ∈ z.ents, x.2.haltNext = false) ∧ (z.selected 0 0 (z.window 0).dsel).any (fun x => x.2.stopped && x.2.issue.isSome) = true ∧
       (z.stepOrder 0 0).head? = some 5 ∧ tabSorted 0 z.ents = true ∧ (z.window 0).daddr = BitVec.ofNat 32 (16 * 63)) ∧
    (owned.hist 279).pctl < 256 ∧ (owned.hist 279).act < 4 ∧ (owned.hist 279).mincnt < 65536 := by decide +kernel

/-- The lease and the pre-emption at their limits; a context whose workgroups are all saved; one in teardown; tags to write; a report to
make; and a workgroup ready for its save, and one that is not. -/
theorem witness_TimedRows :
    (let s := { owned with sem := { owned.sem with lease := 10000000 } }
     s.sem.held = true ∧ 10000000 ≤ s.sem.lease) ∧ owned.sem.lease < 10000000 ∧
    (let s := owned.modCtx 0 fun x => { x with state := .suspending, preTicks := 100000 }
     (s.ctx 0).state = .suspending ∧ s.preTo.toNat ≤ (s.ctx 0).preTicks) ∧
    (let s := { (owned.modCtx 0 fun x => { x with state := .suspending }) with wgs := [], ents := [], teams := [] }
     (∀ w ∈ s.wgs, w.2.ctx = 0 → w.2.place = .saved) ∧ (s.ctx 0).ctxSave.toNat + (s.ctx 0).saveTop + (s.contextBytes 0).length ≤ 2 ^ 48) ∧
    (let s := owned.modCtx 0 fun x => { x with state := .tearing, count := 1 }
     (s.ctx 0).state = .tearing ∧ (s.ctx 0).count ≠ 0) ∧ (owned.ctx 0).count = 0 ∧
    (∀ va ∈ [0x20010, 2 ^ 50], let s := (paged owned).storeBytes 0x14000 (leBytes 8 0x33F)
     (match s.leafFor (lowStack (s.partStacks (s.ctx 0).part)) 0 .load va with
      | .leaf e lvl _ => va == 0x20010 && bitOf e 5 && bitOf e 3 && inHbm (leafPa e lvl va)
      | _ => va == 2 ^ 50) = true ∧ tabSorted 0 s.tags = true) ∧
    (let s := ((demoE fun e => { e with issue := none }).modWg 2 fun w => { w with place := .stopping, cluster := none }).modTeam 4 fun t => { t with offered := true }
     (tabGet s.wgs 2).any (fun w => s.saveReady 2 w) = true ∧ s.engineQuiet [2] = true ∧
       (tabGet s.wgs 2).any (fun w => (s.recordBytesOf 2 w none).all fun p => decide (s.recordAddr w + p.1 + p.2.length ≤ 2 ^ 48)) = true) ∧
    (tabGet (demoW fun w => { w with cluster := none }).wgs 2).any (fun w => !(demoW fun w => { w with cluster := none }).saveReady 2 w) = true := by
  decide +kernel

/-- A stop that settles; a frame due with room, without, and none due; a histogram of the last unit, frozen and not. -/
theorem witness_DebugAndTraceRows :
    (let s := { (demoE fun e => { e with haltNext := true, issue := none }) with debug := [(0, { demo.window 0 with stopping := true })] }
     (s.window 0).stopping = true ∧ (s.window 0).busy = false ∧ (s.window 0).retry = none ∧
       ∀ x ∈ s.entsOn 0 (s.window 0).sctx, x.2.haltNext = true → x.2.handler = none → x.2.atBoundary = true) ∧
    (demo.window 0).stopping = false ∧ (demo.window 0).busy = false ∧ demo.frameDue = false ∧
    (∀ n ∈ [171, 172], let s := { demo with time := 65536, trace := { demo.trace with en := true, k := 16, last := 0, trlog := 8, tail := BitVec.ofNat 32 n } }
     s.frameDue = true ∧ s.trace.room 85 = (n == 171)) ∧
    (let s := { demo with hists := [(279, { demo.hist 279 with act := 3, arm := true, mincnt := 1, bkt := [(1, 8)] })] }
     (s.hist 279).fires 1000000 = true ∧ (s.hist 279).act = 3) ∧
    280 ≤ 280 ∧ 279 < 280 ∧ (demo.hist 279).fires 1 = false ∧ (demo.hist 279).frozen = false ∧
    (let s := { demo with hists := [(279, { demo.hist 279 with frozen := true })] }
     (s.hist 279).fires 1 = false ∧ (s.hist 279).frozen = true) := by decide +kernel

/-- The last links, with the boot key and without, and what waits for a port; a link's failures below the limit and at it; a host's write, read and atomic of a mapped granule, of
its last bytes, of a page that may not be written and of one that is not there; the last line of HBM and the first past it; and each verdict. -/
theorem witness_LinksAndHostRows :
    (17 < 18 ∧ 1 < 2 ∧ 20 ≤ 20) ∧ (Keyed owned 0 ∧ ¬ Keyed demo 0) ∧ demo.trust.kemKey = [] ∧
    ({ demo with trust := { demo.trust with kemKey := [1] } } : State).trust.kemKey ≠ [] ∧ Link.reset.failures < 2 ∧
    2 ≤ ({ Link.reset with failures := 2 } : Link).failures ∧
    (∀ w : Bool, let x : HostAccess := { port := 0, ctx := 0, write := w, addr := 0x2000F, bytes := [1] }
     let s := paged owned
     let k : AccKind := if w then .store else .load
     x.ctx < 64 ∧ x.bytes ≠ [] ∧ x.addr < 2 ^ 64 ∧ x.addr % 16 + x.bytes.length ≤ 16 ∧ x.alu = none ∧ lowStack (s.partStacks (s.ctx 0).part) = 0 ∧
       xlates s k x.addr 1 = true ∧ xlates ((s.touch 0 0 .load x.addr).l1Evict s.l1Cols fun b => b / 16 == physAddr 0x2000F / 16) .load x.addr 1 = true ∧
       (match owned.xlate 0 0 k x.addr 1 with | .absent => true | _ => false) = true ∧
       (match (s.storeBytes 0x14000 (leBytes 8 0x301)).xlate 0 0 k x.addr 1 with | .fault .. => true | _ => false) = true) ∧
    (let x : HostAccess := { port := 0, ctx := 0, write := true, addr := 0x20008, bytes := leBytes 8 1, alu := some (.add, .b64) }
     let s := paged owned
     x.addr % 8 = 0 ∧ 8 ≤ x.bytes.length ∧ xlates s .atomic x.addr 8 = true ∧
       xlates ((s.touch 0 0 .atomic x.addr).l1Evict s.l1Cols fun b => b / 16 == physAddr 0x20008 / 16) .atomic x.addr 8 = true) ∧
    inHbm (64 * 0) = true ∧ inHbm (64 * 2 ^ 41) = false ∧ demo.outbox = [] ∧ ({ demo with outbox := [.irq 0 5] } : State).outbox = [.irq 0 5] ∧ demo.trust.verdict = 0 ∧ State.reset.service.boot = 0 ∧
    (∀ v ∈ [1, 2], ({ demo with trust := { demo.trust with verdict := v } } : State).trust.verdict = v) :=
  ⟨by decide, ⟨⟨by decide, _, rfl, rfl, rfl⟩, not_keyed_demo⟩, by decide +kernel⟩

theorem witness_ResetLeaves : Memory.wf demo.mem = true ∧ ∃ a, inHbm a = false := ⟨by decide +kernel, 2 ^ 47 + 2 ^ 46, by decide +kernel⟩

/-! ### The whole machine -/

theorem witness_EncodeDecodeAgree : (Instr.ldg .b128 .acq .normal (.v 60) 15 (.v 63) (some 0xFFFFFFFF)).wellFormed = true ∧
    (Instr.ldg .b128 .acq .normal (.v 60) 15 (.v 63) (some 0xFFFFFFFF)).isStep = false := by decide +kernel

theorem witness_EveryWordHasOneMeaning : (0xFFFFFFFF : Nat) < 2 ^ 32 ∧ fld 0 31 26 = 0 ∧ 0x26 < fld 0x9C000000 31 26 ∧
    (match decodePair 0x58000000 0 with | .ok i => i == .nop | .error _ => false) = true := by decide +kernel

/-- An event that is due; a word that the current entity stands at; one whose source register is pending; no current entity; and one that waits. -/
theorem witness_StepRunsTheDecodedWord :
    ({ demo with agenda := [.leaseLapse] } : State).agenda = [.leaseLapse] ∧
    (let s := State.reset.placeWord 0x58000000
     s.agenda = [] ∧ ∃ e k, tabGet s.ents s.cur = some e ∧ e.hold = none ∧ e.stopped = false ∧ e.issue = some k ∧
       k.words.drop k.next = [0x58000000, 0] ∧ (match decodePair 0x58000000 0 with | .ok i => i == .nop | .error _ => false) = true ∧
       s.sourcePending s.cur e .nop = false) ∧
    (let i := Instr.iadd (.v 3) (.v 1) (.v 2)
     let s := (State.reset.placeWord ((encode i).headD 0)).modTeam 4 fun t => { t with pend := [{ op := 9, ref := .v 1, made := 0 }] }
     s.agenda = [] ∧ ∃ e k, tabGet s.ents s.cur = some e ∧ e.hold = none ∧ e.stopped = false ∧ e.issue = some k ∧
       k.words.drop k.next = [BitVec.ofNat 32 ((encode i).headD 0), 0] ∧
       (match decodePair ((encode i).headD 0) 0 with | .ok j => j == i | .error _ => false) = true ∧ s.sourcePending s.cur e i = true) ∧
    (State.reset.agenda = [] ∧ tabGet State.reset.ents State.reset.cur = none) ∧
    ∃ e, tabGet (demoF (some .merge)).ents 6 = some e ∧ e.hold ≠ none :=
  ⟨rfl, ⟨rfl, _, _, rfl, rfl, rfl, rfl, by decide +kernel, by decide +kernel, by decide +kernel⟩,
    ⟨rfl, _, _, rfl, rfl, rfl, rfl, by decide +kernel, by decide +kernel, by decide +kernel⟩, by decide +kernel, _, rfl, by decide +kernel⟩

/-- A state whose memory lists a byte, and a step of it. -/
theorem witness_MemoryStaysCanonical : let s := (State.reset.placeWord 0x58000000).storeBytes 64 [1]
    Memory.wf s.mem = true ∧ s.mem ≠ [] ∧ ∃ t, step s = .next t := ⟨by decide +kernel, by decide +kernel, _, rfl⟩

/-! ### Results of single words, worked out by hand from the rules that each comment names -/

/-- The team of the machine after one instruction, and its lane 0 of a vector register. -/
noncomputable def teamAfter (i : Instr) (s : State) : Option Team :=
  match exec i s with
  | .next t => tabGet t.teams 4
  | _ => none
noncomputable def v3 (i : Instr) (s : State) : Option Word := (teamAfter i s).map fun t => (t.vreg 3).lane 0 0
noncomputable def s7 (i : Instr) (s : State) : Option Word := (teamAfter i s).map fun t => t.sreg 7
noncomputable def fl (i : Instr) (s : State) : Option Word := (teamAfter i s).map fun t => t.flags

/-- Words in `v1` and `v2` in every lane; numbers in `s5` and `s6`. -/
def vv (a b : Word) : State := demoT fun t => (t.setV 1 (.general (List.replicate 32 a))).setV 2 (.general (List.replicate 32 b))
def ss (a b : Word) : State := demoT fun t => (t.setS 5 a).setS 6 b

-- R189: modulo 2^32; the high halves of (2^32 - 1)^2 and of (-1)(-1); a signed order; and `scmpi` of a sign-extended immediate.
theorem test_sadd_wraps : s7 (.sadd 7 5 6) (ss 0xFFFFFFFF 2) = some 1 := by decide +kernel
theorem test_smulh_unsigned : s7 (.smulhN 7 5 6) (ss 0xFFFFFFFF 0xFFFFFFFF) = some 0xFFFFFFFE := by decide +kernel
theorem test_smulh_signed : s7 (.smulhI 7 5 6) (ss 0xFFFFFFFF 0xFFFFFFFF) = some 0 := by decide +kernel
theorem test_smin_signed : s7 (.sminI 7 5 6) (ss 0x80000000 1) = some 0x80000000 := by decide +kernel
theorem test_saddi_negative : s7 (.saddi 7 5 0x3FF) (ss 0 0) = some 0xFFFFFFFF := by decide +kernel
theorem test_ssar_sign : s7 (.ssari 7 5 31) (ss 0x80000000 0) = some 0xFFFFFFFF := by decide +kernel
theorem test_sclz_zero : s7 (.sclz 7 5) (ss 0 0) = some 32 := by decide +kernel
-- R40: `s0` reads zero and discards writes.
theorem test_s0_discards : (teamAfter (.sadd 0 5 6) (ss 3 4)).map (fun t => t.sreg 0) = some 0 := by decide +kernel

-- IEEE 754, RNE (R76): 1 + 2 = 3; 2^24 + 1 ties to even; 3 × 0.5 = 1.5; the maximum plus itself overflows to infinity.
theorem test_fadd : v3 (.faddF32 (.v 3) (.v 1) (.v 2)) (vv 0x3F800000 0x40000000) = some 0x40400000 := by decide +kernel
theorem test_fadd_tie : v3 (.faddF32 (.v 3) (.v 1) (.v 2)) (vv 0x4B800000 0x3F800000) = some 0x4B800000 := by decide +kernel
theorem test_fmul_half : v3 (.fmulF32 (.v 3) (.v 1) (.const .half)) (vv 0x40400000 0) = some 0x3FC00000 := by decide +kernel
theorem test_fsub : v3 (.fsubF32 (.v 3) (.v 1) (.v 2)) (vv 0x3F800000 0x40400000) = some 0xC0000000 := by decide +kernel
theorem test_fadd_overflow : v3 (.faddF32 (.v 3) (.v 1) (.v 2)) (vv 0x7F7FFFFF 0x7F7FFFFF) = some 0x7F800000 := by decide +kernel
theorem test_fdiv : v3 (.fdivF32 (.v 3) (.v 1) (.v 2)) (vv 0x3F800000 0x40400000) = some 0x3EAAAAAB := by decide +kernel
theorem test_fsqrt : v3 (.fsqrtF32 (.v 3) (.v 1)) (vv 0x40800000 0) = some 0x40000000 := by decide +kernel
-- R75: absent is the identity of an addition.
theorem test_fadd_absent : v3 (.faddF32 (.v 3) (.v 1) (.v 2)) (vv 0xFF800001 0x40000000) = some 0x40000000 := by decide +kernel
-- R76 and the fused accumulator of R158: 2 × 3 + 1 = 7.
theorem test_ffma : v3 (.ffmaF32 (.v 3) (.v 1) (.v 2)) ((vv 0x40000000 0x40400000).modTeam 4 fun t => t.setV 3 (.uniform 0x3F800000)) =
    some 0x40E00000 := by decide +kernel

-- R161: raw integers.
theorem test_isub_wraps : v3 (.isub (.v 3) (.v 1) (.v 2)) (vv 0 1) = some 0xFFFFFFFF := by decide +kernel
theorem test_imulh : v3 (.imulhN32 (.v 3) (.v 1) (.v 2)) (vv 0x80000000 4) = some 2 := by decide +kernel
theorem test_popc : v3 (.popc (.v 3) (.v 1)) (vv 0xF0F0F0F1 0) = some 17 := by decide +kernel
theorem test_brev : v3 (.brev (.v 3) (.v 1)) (vv 1 0) = some 0x80000000 := by decide +kernel
theorem test_sari : v3 (.sari (.v 3) (.v 1) 4) (vv 0x80000010 0) = some 0xF8000001 := by decide +kernel
-- An inactive lane keeps its old word (R155).
theorem test_inactive_lane : (teamAfter (.iadd (.v 3) (.v 1) (.v 2)) ((vv 2 3).modEnt 5 fun e => { e with mask := 1 })).map
    (fun t => ((t.vreg 3).lane 0 0, (t.vreg 3).lane 9 1)) = some (5, 0xFF800001) := by decide +kernel

-- R172 and R170: a comparison sets the predicate of the active lanes only.
theorem test_icmp_signed : (teamAfter (.icmpI32 .lt 1 (.v 1) (.v 2)) ((vv 0xFFFFFFFF 0).modEnt 5 fun e => { e with mask := 5 })).map
    (fun t => t.preg 1) = some 5 := by decide +kernel
theorem test_icmp_unsigned : (teamAfter (.icmpN32 .lt 1 (.v 1) (.v 2)) (vv 0xFFFFFFFF 0)).map (fun t => t.preg 1) = some 0 := by decide +kernel
-- Conversions: -2.5 to i32 by RNE is -2; 7 as f32 is 0x40E00000; 1.0 as f16 is 0x3C00.
theorem test_cvt_to_int : v3 (.cvtI32F32 (.v 3) (.v 1)) (vv 0xC0200000 0) = some 0xFFFFFFFE := by decide +kernel
theorem test_cvt_from_int : v3 (.cvtF32I32 (.v 3) (.v 1)) (vv 7 0) = some 0x40E00000 := by decide +kernel
theorem test_cvt_to_half : (v3 (.cvtF16F32 (.v 3) (.v 1)) (vv 0x3F800000 0)).map (fun w => w.toNat % 65536) = some 0x3C00 := by decide +kernel
-- A shuffle by exclusive or exchanges neighbours: lane 0 takes lane 1's word.
theorem test_shflx : v3 (.shflx (.v 3) (.const .lane) (.v 2)) (vv 0 1) = some 1 := by decide +kernel

-- R194: a taken branch stands at header + 4 × offset, and one that is not taken at the next header (two words, header at 0).
noncomputable def pcAfter (i : Instr) (s : State) : Option Word64 :=
  match exec i s with
  | .next t => (tabGet t.ents 5).map (·.pc)
  | _ => none
theorem test_bra_back : pcAfter (.bra 0xFFE) (demoI fun i => { i with pc := 64 }) = some 56 := by decide +kernel
theorem test_bz_not_taken : pcAfter (.bz 5 16) (ss 1 0) = some 12 := by decide +kernel
-- R324, R325: a trapped `trap` stands at TVEC with its cause in `s60` and its slot's address in `x31`.
theorem test_trap_enters : pcAfter (.trap 3) trapping = some 0x30000 ∧
    (teamAfter (.trap 3) trapping).map (fun t => t.xreg 31) = some 0x20000 := by decide +kernel
-- R205: the last arrival flips the phase: `s7` takes the phase it arrived in, 1 here, and the object's word 3 clears its bit 0.
theorem test_bararr : s7 (.bararr false 7 6) (withBar 240 { bar 1 0 0 0 with phase := true }) = some 1 ∧
    (match exec (.bararr false 7 6) (withBar 240 { bar 1 0 0 0 with phase := true }) with
     | .next t => t.spaceWord 2 .spad 252
     | _ => 9) = 0 := by decide +kernel
-- R209: four bytes past the end of SPAD are SPBND, which ends an entity that has no handler.
theorem test_spad_bounds : (match exec (.ldsp .b32 false (.v 3) 3 (.const .zero) none) (atOff 256) with
    | .next t => tabGet t.ents 5 == none
    | _ => false) = true := by decide +kernel

end Sys2Proof.Tests
end

section

/-! SUPPORT: the operations that leave memory as it is -/

namespace Sys2Proof.Machine

@[simp] theorem State.ite_mem (p : Prop) [Decidable p] (s t : State) :
    (if p then s else t).mem = if p then s.mem else t.mem := by
  split <;> rfl

@[simp] theorem State.foldl_mem {α : Type} {f : State → α → State} (hf : ∀ u x, (f u x).mem = u.mem) (l : List α)
    (s : State) : (l.foldl f s).mem = s.mem := by
  induction l generalizing s with
  | nil => rfl
  | cons x l ih => rw [List.foldl_cons, ih, hf]

@[simp] theorem State.freeHandler_mem (s : State) (eid : Nat) (e : Entity) : (s.freeHandler eid e).mem = s.mem := by
  unfold State.freeHandler
  (repeat' split) <;> rfl

@[simp] theorem State.rendezvousCheck_mem (s : State) (wid : Nat) : (s.rendezvousCheck wid).mem = s.mem := by
  unfold State.rendezvousCheck
  split <;> simp

@[simp] theorem State.endEntity_mem (s : State) (eid : Nat) : (s.endEntity eid).mem = s.mem := by
  dsimp only [State.endEntity]
  (repeat' split) <;> simp

@[simp] theorem State.endTeam_mem (s : State) (tid : Nat) : (s.endTeam tid).mem = s.mem := by simp [State.endTeam]

@[simp] theorem State.countEvent_mem (s : State) (c evt n : Nat) : (s.countEvent c evt n).mem = s.mem := by
  simp [State.countEvent]

@[simp] theorem State.errorIrq_mem (s : State) (c : Nat) (f : FaultInfo) : (s.errorIrq c f).mem = s.mem := by
  simp [State.errorIrq]

@[simp] theorem State.endPath_mem (s : State) (eid : Nat) : (s.endPath eid).mem = s.mem := by
  unfold State.endPath
  (repeat' split) <;> simp

@[simp] theorem State.markFaulted_mem (s : State) (t : Team) : (s.markFaulted t).mem = s.mem := by
  unfold State.markFaulted
  split <;> rfl

@[simp] theorem State.retireClause_mem (s : State) (eid : Nat) (e : Entity) (i : Issue) :
    (s.retireClause eid e i).mem = s.mem := by
  dsimp only [State.retireClause]
  split <;> simp

@[simp] theorem Cur.storeOne_mem (c : Cur) (s : State) (tag : Tag) (d : VOp) (ws : List Word) :
    (Cur.storeOne c s tag d ws).mem = s.mem := by
  unfold Cur.storeOne
  split <;> rfl

@[simp] theorem Cur.modIssue_mem (c : Cur) (s : State) (f : Issue → Issue) : (Cur.modIssue c s f).mem = s.mem := rfl

@[simp] theorem Cur.storeLatch_mem (c : Cur) (s : State) (l : Option Latch) (ws : List Word) :
    (Cur.storeLatch c s l ws).mem = s.mem := by
  unfold Cur.storeLatch
  split <;> simp

@[simp] theorem Cur.raiseAfter_mem (c : Cur) (s : State) (fl : Word) : (Cur.raiseAfter c s fl).mem = s.mem := by
  simp [Cur.raiseAfter]

@[simp] theorem State.fresh_mem (s : State) : (s.fresh).2.mem = s.mem := rfl

@[simp] theorem State.mergeKid_mem (s : State) (eid : Nat) (kid : Nat × Entity) :
    (s.mergeKid eid kid).mem = s.mem :=
  rfl

@[simp] theorem State.modSpace_mem (s : State) (wid : Nat) (sp : Space) (f : Tab Byte → Tab Byte) :
    (s.modSpace wid sp f).mem = s.mem := by
  unfold State.modSpace
  (repeat' split) <;> rfl

@[simp] theorem State.reside_mem (s : State) (wid : Nat) (sp : Space) (off len : Nat) :
    (s.reside wid sp off len).mem = s.mem := by
  unfold State.reside
  (repeat' split) <;> rfl

@[simp] theorem State.endCopy_mem (s : State) (k : Nat) (c : Copy) : (s.endCopy k c).mem = s.mem := rfl

@[simp] theorem State.sweepCopy_mem (s : State) (k : Nat) : (s.sweepCopy k).mem = s.mem := by
  unfold State.sweepCopy
  split <;> simp

@[simp] theorem State.semWrite_mem (s : State) (port : Nat) (v : Word) : (s.semWrite port v).mem = s.mem := rfl

@[simp] theorem State.attest_mem (s : State) (c : Nat) : (s.attest c).mem = s.mem := by simp [State.attest]

theorem State.globalWrite_mem (s : State) (a : Nat) (v : Word) {u : State} (h : s.globalWrite a v = some u) :
    u.mem = s.mem := by
  unfold State.globalWrite at h
  extract_lets n at h
  split at h
  · split at h
    · cases h
      rfl
    · cases h
  split at h
  · cases h
    rfl
  split at h
  case h_8 =>
    obtain ⟨t, -, rfl⟩ := Option.map_eq_some_iff.mp h
    rfl
  case h_13 =>
    split at h
    · cases h
    · cases h
      rfl
  case h_15 =>
    cases h
    exact State.attest_mem ..
  all_goals
    cases h
    rfl

@[simp] theorem State.create_mem (s : State) (c : Nat) : (s.create c).mem = s.mem := by
  dsimp only [State.create]
  split <;> simp

@[simp] theorem State.dropChoices_mem (s : State) (c : Nat) : (s.dropChoices c).mem = s.mem := rfl

@[simp] theorem State.unhold_mem (s : State) (c : Nat) : (s.unhold c).mem = s.mem := by
  dsimp only [State.unhold]
  (repeat' split) <;> rfl

@[simp] theorem State.uncountMove_mem (s : State) (wid : Nat) (w : Workgroup) :
    (s.uncountMove wid w).mem = s.mem :=
  State.foldl_mem (fun _ _ => State.modColumn_mem ..) _ _

@[simp] theorem State.endVisit_mem (s : State) (c : Nat) : (s.endVisit c).mem = s.mem := rfl

@[simp] theorem State.suspend_mem (s : State) (c : Nat) : (s.suspend c).mem = s.mem := by
  unfold State.suspend
  extract_lets s₁ s₂ s₃ stop s₄
  have h₁ : s₁.mem = s.mem := by simp [s₁]
  have h₂ : s₂.mem = s.mem := by
    refine (State.foldl_mem (fun u w => ?_) _ _).trans h₁
    split
    · split <;> simp
    · rfl
  exact h₂

@[simp] theorem State.tlbDrop_mem (s : State) (c page : Nat) (all : Bool) : (s.tlbDrop c page all).mem = s.mem := rfl

@[simp] theorem State.revoke_mem (s : State) (c : Nat) : (s.revoke c).mem = s.mem := rfl

@[simp] theorem State.release_mem (s : State) (c page : Nat) (all fail : Bool) :
    (s.release c page all fail).mem = s.mem :=
  rfl

@[simp] theorem State.dbgWrite_mem (s : State) (c : Nat) (v : Word) : (s.dbgWrite c v).mem = s.mem := by
  simp [State.dbgWrite]

theorem State.boardWrite_mem (s : State) (a : Nat) (v : Word) {u : State} (h : s.boardWrite a v = some u) :
    u.mem = s.mem := by
  unfold State.boardWrite at h
  extract_lets n p at h
  repeat' split at h
  all_goals cases h
  all_goals rfl

@[simp] theorem State.modHist_mem (s : State) (h : Nat) (f : Histogram → Histogram) :
    (s.modHist h f).mem = s.mem :=
  rfl

@[simp] theorem State.histWrite_mem (s : State) (h off : Nat) (v : Word) : (s.histWrite h off v).mem = s.mem := by
  simp [State.histWrite]

@[simp] theorem State.settleStop_mem (s : State) (q : Nat) : (s.settleStop q).mem = s.mem := by
  unfold State.settleStop
  extract_lets w going s₁
  have h₁ : s₁.mem = s.mem := State.foldl_mem (fun _ _ => State.modEnt_mem ..) _ _
  split
  · split
    · exact h₁
    · exact h₁
  · rfl

@[simp] theorem State.stopOn_mem (s : State) (q c : Nat) : (s.stopOn q c).mem = s.mem := by
  unfold State.stopOn
  extract_lets w s₁
  have h₁ : s₁.mem = s.mem := State.foldl_mem (fun _ _ => State.modEnt_mem ..) _ _
  split
  · rfl
  · split
    · exact (State.settleStop_mem ..).trans h₁
    · exact (State.settleStop_mem ..).trans h₁

@[simp] theorem State.resumeOn_mem (s : State) (q c : Nat) : (s.resumeOn q c).mem = s.mem := by
  unfold State.resumeOn
  extract_lets s₁
  have h₁ : s₁.mem = s.mem := State.foldl_mem (fun _ _ => State.modEnt_mem ..) _ _
  split
  · exact h₁
  · exact h₁

@[simp] theorem State.stamp_mem (s : State) : s.stamp.mem = s.mem := by simp [State.stamp]

theorem State.editWord_mem (s : State) (eid : Nat) (e : Entity) (t : Team) (daddr : Nat) (v : Word) {u : State}
    (h : s.editWord eid e t daddr v = some u) :
    u.mem = s.mem := by
  unfold State.editWord at h
  extract_lets n l at h
  split at h
  · cases h
  split at h
  case h_2 =>
    split at h
    · cases h
    · cases h
      rfl
  case h_4 =>
    split at h
    · cases h
    · cases h
      rfl
  case h_6 =>
    split at h
    · cases h
    · cases h
      rfl
  all_goals
    cases h
    rfl

@[simp] theorem State.edit_mem (s : State) (port q : Nat) (v : Word) : (s.edit port q v).mem = s.mem := by
  unfold State.edit
  extract_lets w
  split
  · rfl
  split
  · rfl
  split
  · rfl
  split
  · rfl
  next u hu =>
    have h := State.editWord_mem _ _ _ _ _ _ hu
    split
    · exact h
    · exact h

@[simp] theorem State.sweepCred_mem (s : State) (id : Nat) : (s.sweepCred id).mem = s.mem := by
  unfold State.sweepCred
  split <;> simp

@[simp] theorem State.credDone_mem (s : State) (c : Copy) : (s.credDone c).mem = s.mem := by
  unfold State.credDone
  split
  · exact (State.sweepCred_mem ..).trans (State.foldl_mem (fun _ _ => State.modTeam_mem ..) _ _)
  · rfl

@[simp] theorem State.modEntry_mem (s : State) (g k : Nat) (f : EngineEntry → EngineEntry) :
    (s.modEntry g k f).mem = s.mem :=
  rfl

@[simp] theorem State.finishEntry_mem (s : State) (g k : Nat) (f : Word) : (s.finishEntry g k f).mem = s.mem := rfl

@[simp] theorem State.runEntry_mem (s : State) (g k : Nat) (x : EngineEntry) : (s.runEntry g k x).mem = s.mem := by
  unfold State.runEntry
  split <;> simp

@[simp] theorem State.triggerAct_mem (s : State) (h act : Nat) : (s.triggerAct h act).mem = s.mem := by
  unfold State.triggerAct
  extract_lets now later
  split
  · rfl
  · rfl
  · exact State.foldl_mem (fun _ _ => State.modHist_mem ..) _ _
  · rfl

@[simp] theorem State.endVisits_mem (s : State) : s.endVisits.mem = s.mem := rfl

@[simp] theorem State.addTeams_mem (s : State) (wg core : Nat) (lo hi : Triple) (r : LaunchRec)
    (ps : List Nat) (n : Nat) : (s.addTeams wg core lo hi r ps n).mem = s.mem := by
  induction ps generalizing s n with
  | nil => rfl
  | cons p qs ih => exact (ih _ _).trans rfl

@[simp] theorem State.loadOperands_mem (s : State) (a : Nat) (r : ReplayEntry) :
    (s.loadOperands a r).mem = s.mem := by
  simp [State.loadOperands]

@[simp] theorem State.loadParked_mem (s : State) (base a id : Nat) (r : ReplayEntry) :
    (s.loadParked base a id r).mem = s.mem := by
  simp [State.loadParked]

@[simp] theorem State.loadParkedAll_mem (s : State) (wid : Nat) (w : Workgroup) :
    (s.loadParkedAll wid w).mem = s.mem := by
  simp [State.loadParkedAll]

@[simp] theorem State.restartSlots_mem (s : State) (tid : Nat) : (s.restartSlots tid).mem = s.mem :=
  State.foldl_mem (fun _ _ => State.modEnt_mem ..) _ _

@[simp] theorem State.loadEntities_mem (s : State) (a : Nat) (xs : List (Nat × Entity)) :
    (s.loadEntities a xs).1.mem = s.mem := by
  induction xs generalizing s a with
  | nil => rfl
  | cons x ys ih => exact (ih _ _).trans rfl

@[simp] theorem State.loadImage_mem (s : State) (tid a : Nat) : (s.loadImage tid a).mem = s.mem := by
  unfold State.loadImage
  extract_lets lead
  split
  next s' regs hs' =>
    have h' : s'.mem = s.mem := by
      rw [← State.loadEntities_mem s (if lead.isSome then a + 64 else a + 208) (lead.toList ++ s.imageFrags tid), hs']
    split
    · rfl
    · exact (State.modTeam_mem ..).trans ((State.foldl_mem (fun _ _ => State.modEnt_mem ..) _ _).trans h')

@[simp] theorem State.seatStops_mem (s : State) (tid c : Nat) (core p : Nat) :
    (s.seatStops tid c core p).mem = s.mem :=
  State.foldl_mem (fun _ _ => State.modEnt_mem ..) _ _

@[simp] theorem State.seat_mem (s : State) (wid core : Nat) : (s.seat wid core).mem = s.mem := by simp [State.seat]

@[simp] theorem State.reenter_mem (s : State) (tid core : Nat) : (s.reenter tid core).mem = s.mem := by
  unfold State.reenter
  split
  · rfl
  · exact State.foldl_mem (fun _ _ => State.modEnt_mem ..) _ _

@[simp] theorem State.swapIn_mem (s : State) (tid : Nat) (t : Team) : (s.swapIn tid t).mem = s.mem := by
  simp [State.swapIn]

@[simp] theorem State.sendNotice_mem (s : State) (but : Option Nat) (n : Notice) :
    (s.sendNotice but n).mem = s.mem := by
  simp [State.sendNotice]

@[simp] theorem State.originate_mem (s : State) (release : Bool) : (s.originate release).mem = s.mem := by
  simp [State.originate]

@[simp] theorem State.mapIslands_mem (s : State) (f : Nat → Island → Island) : (s.mapIslands f).mem = s.mem := by
  simp [State.mapIslands]

@[simp] theorem State.halveClocks_mem (s : State) : s.halveClocks.mem = s.mem := by simp [State.halveClocks]

@[simp] theorem State.emergencyIrq_mem (s : State) : s.emergencyIrq.mem = s.mem := rfl

@[simp] theorem State.emergency_mem (s : State) (hottest : Nat) : (s.emergency hottest).mem = s.mem := by
  simp [State.emergency]

@[simp] theorem State.govern_mem (s : State) : s.govern.mem = s.mem := by
  refine State.foldl_mem (fun u x => ?_) _ _
  extract_lets w cs first
  split
  · rfl
  split
  · exact State.foldl_mem (fun _ _ => State.modColumn_mem ..) _ _
  · rfl

@[simp] theorem State.sampleCaps_mem (s : State) (x : Sample) : (s.sampleCaps x).mem = s.mem := by
  simp [State.sampleCaps]

@[simp] theorem State.sampleColumns_mem (s : State) (x : Sample) : (s.sampleColumns x).mem = s.mem := rfl

@[simp] theorem State.liftCaps_mem (s : State) : s.liftCaps.mem = s.mem := by simp [State.liftCaps]

@[simp] theorem State.setPlaces_mem (s : State) (ws : List Nat) (p : Residency) : (s.setPlaces ws p).mem = s.mem :=
  State.foldl_mem (fun _ _ => State.modWg_mem ..) _ _

@[simp] theorem State.deferMove_mem (s : State) (wid : Nat) (w : Workgroup) : (s.deferMove wid w).mem = s.mem := by
  simp [State.deferMove]

@[simp] theorem State.startMove_mem (s : State) (wid : Nat) (w : Workgroup) (y : Nat) :
    (s.startMove wid w y).mem = s.mem := by
  unfold State.startMove
  extract_lets ws n s₁ s₂
  have h₁ : s₁.mem = s.mem := State.setPlaces_mem ..
  have h₂ : s₂.mem = s.mem := (State.foldl_mem (fun _ _ => State.modColumn_mem ..) _ _).trans h₁
  exact (State.countEvent_mem ..).trans ((State.countEvent_mem ..).trans h₂)

@[simp] theorem State.moveEngine_mem (s : State) (cid old new : Nat) : (s.moveEngine cid old new).mem = s.mem := rfl

@[simp] theorem State.islandTarget_mem (s : State) (t : IslandTarget) : (s.islandTarget t).mem = s.mem := by
  simp [State.islandTarget]

@[simp] theorem State.saveTeams_mem (s : State) (wid : Nat) (w : Workgroup) : (s.saveTeams wid w).mem = s.mem := by
  refine State.foldl_mem (fun u t => ?_) _ _
  extract_lets q lost u₁ u₂
  have h₂ : u₂.mem = u.mem := State.foldl_mem (fun _ _ => State.modEnt_mem ..) _ _
  split
  · exact h₂
  · exact h₂

@[simp] theorem State.modLink_mem (s : State) (l : Nat) (f : Link → Link) : (s.modLink l f).mem = s.mem := by
  simp [State.modLink]

@[simp] theorem State.startIslands_mem (s : State) : s.startIslands.mem = s.mem := by simp [State.startIslands]

@[simp] theorem State.modSlice_mem (s : State) (k i : Nat) (f : Slice → Slice) : (s.modSlice k i f).mem = s.mem := rfl

@[simp] theorem State.joinCred_mem (s : State) (k : Nat) (c : Copy) : (s.joinCred k c).mem = s.mem := by
  dsimp only [State.joinCred]
  split <;> simp

@[simp] theorem State.sendRank_mem (s : State) (id : Nat) (x : Cred) (rank : Nat) (c : Copy) :
    (s.sendRank id x rank c).mem = s.mem := by
  simp [State.sendRank]

@[simp] theorem State.loadInto_mem (s : State) (g k d : Nat) (at' src : Nat) (strict : Bool) (bs : List Byte) :
    (s.loadInto g k d at' src strict bs).mem = s.mem :=
  rfl

@[simp] theorem State.restoredNow_mem (s : State) (wid : Nat) (w : Workgroup) :
    (s.restoredNow wid w).mem = s.mem :=
  rfl

@[simp] theorem State.loadBlock_mem (s : State) (wid : Nat) (w : Workgroup) (b : Nat) :
    (s.loadBlock wid w b).mem = s.mem := by
  unfold State.loadBlock
  split
  split
  extract_lets bs
  split
  · rfl
  split
  · exact State.foldl_mem (fun _ _ => State.modTeam_mem ..) _ _
  split
  · exact State.modSpace_mem ..
  · exact State.modSpace_mem ..

@[simp] theorem State.tickCounts_mem (s : State) : s.tickCounts.mem = s.mem := rfl

@[simp] theorem State.tickEvents_mem (s : State) : s.tickEvents.mem = s.mem := by simp [State.tickEvents]

@[simp] theorem State.tickTeams_mem (s : State) : s.tickTeams.mem = s.mem := rfl

@[simp] theorem State.tickWaits_mem (s : State) : s.tickWaits.mem = s.mem := rfl

@[simp] theorem State.tickThrottle_mem (s : State) : s.tickThrottle.mem = s.mem := by
  unfold State.tickThrottle
  extract_lets ts most cores s₁
  have h₁ : s₁.mem = s.mem := State.foldl_mem (fun _ _ => State.modColumn_mem ..) _ _
  exact (State.foldl_mem (fun _ _ => State.countEvent_mem ..) _ _).trans h₁

@[simp] theorem State.tick_mem (s : State) : s.tick.mem = s.mem := by simp [State.tick]

end Sys2Proof.Machine

end

section

/-! SUPPORT: what every operation keeps of memory's one form (log 1) -/

namespace Sys2Proof.Machine

/-- The state's memory is in its one form (log 1). -/
structure Canonical (s : State) : Prop where
  wf : Memory.wf s.mem = true

/-- A step that goes on leaves memory in its one form; a fault or a refusal is no state. -/
structure CanonicalNext (o : Host.Outcome State Fault Refusal) : Prop where
  next_wf : ∀ t, o = .next t → Canonical t

/-- Only the memory matters: a state with the same memory is in the one form as well. -/
theorem Canonical.of_mem {s t : State} (h : Canonical s) (e : t.mem = s.mem) : Canonical t := ⟨e ▸ h.wf⟩

theorem Canonical.keep {s t : State} (e : t.mem = s.mem) (h : Canonical s) : Canonical t := h.of_mem e

theorem Canonical.ite {p : Prop} [Decidable p] {s t : State} (hs : Canonical s) (ht : Canonical t) :
    Canonical (if p then s else t) := by
  split
  · exact hs
  · exact ht

theorem Canonical.foldl {α : Type} {f : State → α → State} {l : List α} {s : State}
    (hf : ∀ u x, Canonical u → Canonical (f u x)) (h : Canonical s) :
    Canonical (l.foldl f s) := by
  induction l generalizing s with
  | nil => exact h
  | cons x l ih => exact ih (hf s x h)

theorem Canonical.getD {o : Option State} {d : State} (ho : ∀ u, o = some u → Canonical u) (hd : Canonical d) :
    Canonical (o.getD d) := by
  cases o with
  | none => exact hd
  | some u => exact ho u rfl

theorem CanonicalNext.next {s : State} (h : Canonical s) : CanonicalNext (.next s) :=
  ⟨fun _ e => by cases e; exact h⟩

theorem CanonicalNext.fault {r} : CanonicalNext (.fault r) := ⟨fun _ e => by cases e⟩

theorem CanonicalNext.refused {r} : CanonicalNext (.refused r) := ⟨fun _ e => by cases e⟩

theorem CanonicalNext.ite {p : Prop} [Decidable p] {s t : Host.Outcome State Fault Refusal} (hs : CanonicalNext s)
    (ht : CanonicalNext t) :
    CanonicalNext (if p then s else t) := by
  split
  · exact hs
  · exact ht

variable {s : State}

/-- A word executes for its entity, or leaves the state as it is. -/
theorem CanonicalNext.withCur {f} (h : Canonical s) (hf : ∀ c, Canonical (f c)) : CanonicalNext (withCur s f) := by
  unfold Machine.withCur
  split
  · exact .next h
  · split
    · exact .next (hf _)
    · exact .next h

/-! ### Memory, the L1s and the packages behind them (R4, R89, R93) -/

theorem Canonical.rekey {line key} (h : Canonical s) : Canonical (State.rekey s line key) :=
  .ite h ⟨writeN_wf h.wf _ _⟩

theorem Canonical.writeByte {x b} (h : Canonical s) : Canonical (State.writeByte s x b) :=
  ⟨write_wf (h.rekey (line := physAddr x / 64) (key := physKey x)).wf _ _⟩

theorem Canonical.storeByte {x b} (h : Canonical s) : Canonical (State.storeByte s x b) :=
  .ite (.writeByte h) (.of_mem h rfl)

theorem Canonical.writeDirty {x dirty bs i} (h : Canonical s) : Canonical (State.writeDirty s x dirty bs i) := by
  induction bs generalizing s i with
  | nil => exact h
  | cons b bs ih => exact ih (.ite (.storeByte h) h)

theorem Canonical.writeBack {t} (h : Canonical s) : Canonical (State.writeBack s t) := by
  induction t generalizing s with
  | nil => exact h
  | cons c t ih => exact ih (.writeDirty h)

theorem Canonical.l1Sync {col} (h : Canonical s) : Canonical (State.l1Sync s col) :=
  .keep (State.setL1_mem ..) (.writeBack h)

theorem Canonical.abortWg {wid} (h : Canonical s) : Canonical (State.abortWg s wid) := by
  dsimp only [State.abortWg]
  split
  · exact h
  · split
    · exact h
    · split
      · exact h
      · exact .keep (State.countEvent_mem ..) (.keep (State.modCtx_mem ..) (.of_mem (.l1Sync h) rfl))

theorem Canonical.settle {tid} (h : Canonical s) : Canonical (State.settle s tid) := by
  unfold State.settle
  split
  · exact h
  extract_lets s₁
  have h₁ : Canonical s₁ := .ite (.keep (State.endTeam_mem ..) h) h
  split
  · exact h₁
  extract_lets s₂
  have h₂ : Canonical s₂ := .ite (.of_mem h₁ rfl) h₁
  exact .ite (.abortWg h₂) h₂

theorem Canonical.storeBytes {x bs} (h : Canonical s) : Canonical (State.storeBytes s x bs) := by
  induction bs generalizing s x with
  | nil => exact h
  | cons b bs ih => exact ih (.storeByte h)

theorem Canonical.l1Drop {col hit} (h : Canonical s) : Canonical (State.l1Drop s col hit) :=
  .keep (State.setL1_mem ..) (.writeBack h)

theorem Canonical.l1Evict {cols hit} (h : Canonical s) : Canonical (State.l1Evict s cols hit) :=
  .foldl (fun _ _ h => .l1Drop h) h

theorem Canonical.touch {stack c k ptr} (h : Canonical s) : Canonical (State.touch s stack c k ptr) := by
  unfold State.touch
  extract_lets va
  split
  · exact h
  split
  · extract_lets e1 e2 s₁
    have h₁ : Canonical s₁ := .ite h (.storeBytes h)
    exact .of_mem h₁ rfl
  · exact h

theorem Canonical.deviceStore {stack c ptr bytes} (h : Canonical s) :
    Canonical (State.deviceStore s stack c ptr bytes) := by
  dsimp only [State.deviceStore]
  refine .foldl (fun _ _ h => ?_) h
  split
  · exact .storeBytes (.l1Evict (.touch h))
  · exact h

theorem Canonical.deviceSend {stack c ptr bytes} (h : Canonical s) :
    Canonical (State.deviceSend s stack c ptr bytes) :=
  .ite (.of_mem h rfl) (.deviceStore h)

/-! ### Faults and the end of a word -/

theorem Canonical.fqWrite {stack c bytes} (h : Canonical s) : Canonical (State.fqWrite s stack c bytes) :=
  .ite h (.ite (.of_mem h rfl) (.ite (.of_mem h rfl) (.keep (State.countEvent_mem ..) (.keep (State.irq_mem ..)
    (.of_mem (.foldl (fun _ _ h => .deviceSend h) h) rfl)))))

theorem Canonical.trapEnter {eid e t f i} (h : Canonical s) : Canonical (State.trapEnter s eid e t f i) :=
  .keep (State.modEnt_mem ..) (.keep (State.modTeam_mem ..) (.keep (State.modCtx_mem ..) (.fqWrite (.deviceSend h))))

theorem Canonical.fqFault {t f} (h : Canonical s) : Canonical (State.fqFault s t f) := .fqWrite h

theorem Canonical.deliver {eid f} (h : Canonical s) : Canonical (State.deliver s eid f) := by
  unfold State.deliver
  split
  · exact h
  split
  · exact h
  extract_lets s₁ s₂
  have h₁ : Canonical s₁ := by
    unfold s₁
    split
    · exact .of_mem h rfl
    · exact h
  have h₂ : Canonical s₂ := .keep (State.errorIrq_mem ..) (.of_mem h₁ rfl)
  split
  · exact .trapEnter h₂
  · exact .keep (State.endPath_mem ..) (.keep (State.markFaulted_mem ..) (.fqFault h₂))

theorem Canonical.continueAt {eid tid a} (h : Canonical s) : Canonical (State.continueAt s eid tid a) := by
  unfold State.continueAt
  split
  · exact h
  next e he =>
    generalize loopNext (if e.isFrag then e.inherited else 0) e.loops.reverse a = next
    split
    · exact .settle (.of_mem h rfl)
    · exact .settle (.deliver (.of_mem h rfl))

theorem Canonical.finish {c} (h : Canonical s) : Canonical (Cur.finish c s) := by
  dsimp only [Cur.finish]
  split
  · exact .continueAt (.keep (State.retireClause_mem ..) h)
  · exact h

theorem Canonical.advance {c n} (h : Canonical s) : Canonical (Cur.advance c s n) := .ite (.finish h) (.of_mem h rfl)

theorem Canonical.exhaust {eid tid f} (h : Canonical s) : Canonical (State.exhaust s eid tid f) := by
  dsimp only [State.exhaust]
  split
  · exact h
  · split
    · exact .ite (.settle (.of_mem h rfl)) (.settle (.deliver h))
    · exact h

theorem Canonical.curExhaust {c code} (h : Canonical s) : Canonical (Cur.exhaust c s code) := .exhaust h

/-! ### Vector and scalar words -/

theorem Canonical.vecEnd {c r results flags} (h : Canonical s) : Canonical (Cur.vecEnd c s r results flags) :=
  .ite (.advance h) (.ite (.curExhaust h) (.advance (.keep (Cur.raiseAfter_mem ..) (.keep (Cur.storeLatch_mem ..)
    (.foldl (fun _ _ h => .keep (Cur.storeOne_mem ..) h) h)))))

theorem Canonical.vec {c r ty d a b f} (h : Canonical s) : Canonical (Cur.vec c s r ty d a b f) := .vecEnd h

theorem CanonicalNext.fbin32 {op d a b} (h : Canonical s) : CanonicalNext (fbin32 op d a b s) :=
  .withCur h (fun _ => .vec h)

theorem CanonicalNext.fbinHalf {op t d a b} (h : Canonical s) : CanonicalNext (fbinHalf op t d a b s) :=
  .withCur h (fun _ => .vec h)

theorem Canonical.vec64 {c r d a b f} (h : Canonical s) : Canonical (Cur.vec64 c s r d a b f) := .vecEnd h

theorem CanonicalNext.fbin64 {op d a b} (h : Canonical s) : CanonicalNext (fbin64 op d a b s) :=
  .withCur h (fun _ => .vec64 h)

theorem CanonicalNext.fbin8 {op t d a b} (h : Canonical s) : CanonicalNext (fbin8 op t d a b s) :=
  .withCur h (fun _ => .vec h)

theorem CanonicalNext.fone32 {op d a} (h : Canonical s) : CanonicalNext (fone32 op d a s) :=
  .withCur h (fun _ => .vec h)

theorem CanonicalNext.foneHalf {op t d a} (h : Canonical s) : CanonicalNext (foneHalf op t d a s) :=
  .withCur h (fun _ => .vec h)

theorem CanonicalNext.fone64 {op d a} (h : Canonical s) : CanonicalNext (fone64 op d a s) :=
  .withCur h (fun _ => .vec64 h)

theorem CanonicalNext.fone8 {op t d a} (h : Canonical s) : CanonicalNext (fone8 op t d a s) :=
  .withCur h (fun _ => .vec h)

theorem CanonicalNext.ffused32 {k d a b} (h : Canonical s) : CanonicalNext (ffused32 k d a b s) :=
  .withCur h (fun _ => .vec h)

theorem CanonicalNext.ffusedHalf {t d a b} (h : Canonical s) : CanonicalNext (ffusedHalf t d a b s) :=
  .withCur h (fun _ => .vec h)

theorem CanonicalNext.fdot {w f t d a b} (h : Canonical s) : CanonicalNext (fdot w f t d a b s) :=
  .withCur h (fun _ => .vec h)

theorem CanonicalNext.fidot {fa fb ta tb d a b} (h : Canonical s) : CanonicalNext (fidot fa fb ta tb d a b s) :=
  .withCur h (fun _ => .vec h)

theorem CanonicalNext.raw3 {rule srcs f d a b} (h : Canonical s) : CanonicalNext (raw3 rule srcs f d a b s) :=
  .withCur h (fun _ => .vec h)

theorem CanonicalNext.valOp {op t d a b srcs} (h : Canonical s) : CanonicalNext (valOp op t d a b srcs s) :=
  .withCur h (fun _ => .vec h)

theorem Canonical.predWord {c p f} (h : Canonical s) : Canonical (Cur.predWord c s p f) :=
  .advance (.keep (Cur.raiseAfter_mem ..) (.of_mem h rfl))

theorem CanonicalNext.compare {ty f p a b} (h : Canonical s) : CanonicalNext (compare ty f p a b s) :=
  .withCur h (fun _ => .predWord h)

theorem CanonicalNext.cvt32 {ti to' f d a} (h : Canonical s) : CanonicalNext (cvt32 ti to' f d a s) :=
  .withCur h (fun _ => .vec h)

theorem Canonical.raiseWith {c f} (h : Canonical s) : Canonical (Cur.raiseWith c s f) := .settle (.deliver h)

theorem Canonical.laneWrite {c r ty d f fl} (h : Canonical s) : Canonical (Cur.laneWrite c s r ty d f fl) := .vecEnd h

theorem CanonicalNext.shuffle {pick d a b} (h : Canonical s) : CanonicalNext (shuffle pick d a b s) :=
  .withCur h (fun _ => .laneWrite h)

theorem CanonicalNext.crossPred {f d p} (h : Canonical s) : CanonicalNext (crossPred f d p s) :=
  .withCur h (fun _ => .laneWrite h)

theorem CanonicalNext.reduceWord {ty present scan f d a} (h : Canonical s) :
    CanonicalNext (reduceWord ty present scan f d a s) :=
  .withCur h (fun _ => .laneWrite h)

theorem Canonical.teamWord {c f} (h : Canonical s) : Canonical (Cur.teamWord c s f) := .advance (.of_mem h rfl)

theorem CanonicalNext.rawImm {rule f d a} (h : Canonical s) : CanonicalNext (rawImm rule f d a s) :=
  .withCur h (fun _ => .vec h)

theorem CanonicalNext.scalar3 {f d a b} (h : Canonical s) : CanonicalNext (scalar3 f d a b s) :=
  .withCur h (fun _ => .teamWord h)

theorem CanonicalNext.scalar1 {f d a} (h : Canonical s) : CanonicalNext (scalar1 f d a s) :=
  .withCur h (fun _ => .teamWord h)

theorem CanonicalNext.scalar64 {f d} (h : Canonical s) : CanonicalNext (scalar64 f d s) :=
  .withCur h (fun _ => .teamWord h)

theorem CanonicalNext.execSrd {d n} (h : Canonical s) : CanonicalNext (execSrd d n s) := by
  refine .withCur h fun c => ?_
  split
  · exact .teamWord (.of_mem h rfl)
  · generalize (if n.toNat = 0 then none else s.wideReg c.t (n.toNat - 1)) = low
    split
    · exact .teamWord h
    · exact .teamWord h

theorem Canonical.raise {c cause addr1} (h : Canonical s) : Canonical (Cur.raise c s cause addr1) := .raiseWith h

theorem Canonical.illop {c} (h : Canonical s) : Canonical (Cur.illop c s) := .raise h

theorem CanonicalNext.execSwr {n a} (h : Canonical s) : CanonicalNext (execSwr n a s) :=
  .withCur h (fun _ => .ite (.advance (.of_mem h rfl)) (.ite (.teamWord h) (.illop h)))

theorem CanonicalNext.execVtos {d a l} (h : Canonical s) : CanonicalNext (execVtos d a l s) :=
  .withCur h (fun _ => .ite (.advance (.of_mem h rfl)) (.teamWord h))

/-! ### Branches, loops and calls -/

theorem Canonical.branchTo {eid tid a} (h : Canonical s) : Canonical (State.branchTo s eid tid a) :=
  .settle (.of_mem h rfl)

theorem Canonical.branch {c a} (h : Canonical s) : Canonical (Cur.branch c s a) :=
  .branchTo (.keep (State.retireClause_mem ..) h)

theorem Canonical.choose {c taken a} (h : Canonical s) : Canonical (Cur.choose c s taken a) :=
  .ite (.branch h) (.finish h)

theorem Canonical.majority {c mask taken a} (h : Canonical s) : Canonical (Cur.majority c s mask taken a) :=
  .ite (.branch (.of_mem h rfl)) (.finish (.of_mem h rfl))

theorem Canonical.diverge {c k t f a} (h : Canonical s) : Canonical (Cur.diverge c s k t f a) := by
  dsimp only [Cur.diverge]
  refine .ite (.illop h) ?_
  split
  · exact .majority (.of_mem h rfl)
  · exact .ite (.illop h) (.majority (.of_mem h rfl))

theorem Canonical.perLane {c k t a} (h : Canonical s) : Canonical (Cur.perLane c s k t a) :=
  .ite (.finish h) (.ite (.branch h) (.diverge h))

theorem Canonical.toLevels {c ls a} (h : Canonical s) : Canonical (Cur.toLevels c s ls a) :=
  .settle (.keep (State.modEnt_mem ..) (.keep (State.retireClause_mem ..) h))

theorem Canonical.openLoop {c lvl n len} (h : Canonical s) : Canonical (Cur.openLoop c s lvl n len) :=
  .ite (.illop h) (.ite (.toLevels h) (.toLevels h))

theorem CanonicalNext.execLbrk {v} (h : Canonical s) : CanonicalNext (execLbrk v s) := by
  dsimp only [Machine.execLbrk]
  refine .withCur h (fun _ => ?_)
  split
  · exact .ite (.illop h) (.toLevels h)
  · exact .illop h

theorem Canonical.holdAt {c k} (h : Canonical s) : Canonical (Cur.holdAt c s k) := .settle (.of_mem h rfl)

theorem Canonical.gather {c k done} (h : Canonical s) (hd : ∀ u, Canonical u → Canonical (done u)) :
    Canonical (Cur.gather c s k done) :=
  .ite (hd _ h) (.ite (hd _ (.of_mem (.foldl (fun _ _ h => .keep (State.mergeKid_mem ..) h) h) rfl)) (.holdAt h))

theorem Canonical.stopOrPass {c n} (h : Canonical s) : Canonical (Cur.stopOrPass c s n) := by
  dsimp only [Cur.stopOrPass]
  split
  · exact h
  · refine .ite (.ite (.illop h) ?_) (.advance h)
    split
    · exact .ite (.holdAt h) (.settle (.keep (State.modEnt_mem ..) (.keep (State.retireClause_mem ..) h)))
    · exact .ite (.holdAt h) (.holdAt h)

theorem CanonicalNext.execRcv {k} (h : Canonical s) : CanonicalNext (execRcv k s) := by
  dsimp only [Machine.execRcv]
  refine .withCur h (fun _ => ?_)
  split
  · exact .ite (.gather h (fun _ h => .stopOrPass (.of_mem h rfl))) (.settle (.keep (State.modEnt_mem ..) (.keep
      (State.retireClause_mem ..) h)))
  · exact .gather h (fun _ h => .stopOrPass h)

theorem Canonical.jumpTo {eid tid a} (h : Canonical s) : Canonical (State.jumpTo s eid tid a) :=
  .settle (.of_mem h rfl)

theorem Canonical.jump {c a} (h : Canonical s) : Canonical (Cur.jump c s a) :=
  .jumpTo (.keep (State.retireClause_mem ..) h)

theorem Canonical.call {c a} (h : Canonical s) : Canonical (Cur.call c s a) :=
  .ite (.curExhaust h) (.jump (.of_mem h rfl))

theorem CanonicalNext.execRet (h : Canonical s) : CanonicalNext (execRet s) :=
  .withCur h (fun _ => .ite (.illop h) (.ite (.illop h) (.jump (.of_mem h rfl))))

theorem Canonical.observe {t} (h : Canonical s) : Canonical (State.observe s t) := .l1Sync h

theorem CanonicalNext.execYieldc {l st cp tl d n o} (h : Canonical s) :
    CanonicalNext (execYieldc l st cp tl d n o s) := by
  refine .withCur h fun c => ?_
  extract_lets s₁
  have h₁ : Canonical s₁ := .ite h (.of_mem h rfl)
  exact .ite (.branch (.ite h₁ (.observe h₁))) (.holdAt h₁)

theorem CanonicalNext.execExit (h : Canonical s) : CanonicalNext (execExit s) :=
  .withCur h (fun _ => .settle (.keep (State.endPath_mem ..) (.keep (State.retireClause_mem ..) h)))

theorem CanonicalNext.execWait {l st cp tl} (h : Canonical s) : CanonicalNext (execWait l st cp tl s) :=
  .withCur h (fun _ => .ite (.advance (.ite h (.observe h))) (.holdAt h))

/-! ### Objects, barriers and rings -/

theorem Canonical.onObject {c sp off extent count live f} (h : Canonical s)
    (hf : ∀ u, Canonical u → Canonical (f u)) :
    Canonical (Cur.onObject c s sp off extent count live f) := by
  dsimp only [Cur.onObject]
  split
  · exact .ite (.illop h) (.raise h)
  · exact hf _ h

theorem Canonical.areaWrite {a bs} (h : Canonical s) : Canonical (State.areaWrite s a bs) :=
  .ite h (.storeBytes (.l1Evict h))

theorem Canonical.recordWrite {w off bs} (h : Canonical s) : Canonical (State.recordWrite s w off bs) := .areaWrite h

theorem Canonical.landSpace {wid sp off bs} (h : Canonical s) : Canonical (State.landSpace s wid sp off bs) := by
  dsimp only [State.landSpace]
  split
  · exact h
  · exact .ite (.recordWrite h) h

theorem Canonical.spaceWrite {wid sp off bs} (h : Canonical s) : Canonical (State.spaceWrite s wid sp off bs) :=
  .landSpace (.keep (State.modSpace_mem ..) h)

theorem Canonical.putBar {wid sp off b} (h : Canonical s) : Canonical (State.putBar s wid sp off b) := .spaceWrite h

theorem CanonicalNext.execBarinit {p o n b} (h : Canonical s) : CanonicalNext (execBarinit p o n b s) :=
  .withCur h (fun _ => .onObject h (fun _ h => .ite (.raise h) (.ite (.holdAt h) (.advance (.keep
    (State.reside_mem ..) (.putBar h))))))

theorem Canonical.modBar {wid sp off f} (h : Canonical s) : Canonical (State.modBar s wid sp off f) := .putBar h

theorem CanonicalNext.execBarexp {p o b} (h : Canonical s) : CanonicalNext (execBarexp p o b s) :=
  .withCur h (fun _ => .onObject h (fun _ h => .advance (.modBar h)))

theorem Canonical.objectSync {wid sp} (h : Canonical s) : Canonical (State.objectSync s wid sp) := by
  dsimp only [State.objectSync]
  split
  · exact .l1Sync h
  · exact h

theorem Canonical.released {c sp f} (h : Canonical s) (hf : ∀ u, Canonical u → Canonical (f u)) :
    Canonical (Cur.released c s sp f) :=
  .ite (hf _ (.objectSync h)) (.holdAt h)

theorem CanonicalNext.execBararr {p t o} (h : Canonical s) : CanonicalNext (execBararr p t o s) :=
  .withCur h (fun _ => .onObject h (fun _ h => .released h (fun _ h => .teamWord (.putBar h))))

theorem CanonicalNext.execBarwait {p o t} (h : Canonical s) : CanonicalNext (execBarwait p o t s) :=
  .withCur h (fun _ => .onObject h (fun _ h => .ite (.advance (.observe h)) (.holdAt h)))

theorem CanonicalNext.execBartry {p r o t} (h : Canonical s) : CanonicalNext (execBartry p r o t s) :=
  .withCur h (fun _ => .onObject h (fun _ h => .ite (.teamWord (.observe h)) (.teamWord h)))

theorem Canonical.putSlots {wid sp off slotB n} (h : Canonical s) :
    Canonical (State.putSlots s wid sp off slotB n) := by
  induction n with
  | zero => exact h
  | succ n ih => exact .putBar ih

theorem CanonicalNext.execRinginit {p o x d} (h : Canonical s) : CanonicalNext (execRinginit p o x d s) :=
  .withCur h (fun _ => .onObject h (fun _ h => .ite (.raise h) (.ite (.raise h) (.ite (.raise h) (.ite (.raise h)
    (.ite (.holdAt h) (.advance (.keep (State.reside_mem ..) (.putSlots (.spaceWrite h))))))))))

theorem CanonicalNext.execAwaitf {p i o j} (h : Canonical s) : CanonicalNext (execAwaitf p i o j s) :=
  .withCur h (fun _ => .onObject h (fun _ h => .ite (.teamWord (.observe h)) (.holdAt h)))

theorem Canonical.putWord {wid sp off x} (h : Canonical s) : Canonical (State.putWord s wid sp off x) := .spaceWrite h

theorem CanonicalNext.execRels {p o} (h : Canonical s) : CanonicalNext (execRels p o s) :=
  .withCur h (fun _ => .onObject h (fun _ h => .ite (.illop h) (.released h (fun _ h => .advance (.putWord h)))))

theorem Canonical.rendezvous {c commit} (h : Canonical s) : Canonical (Cur.rendezvous c s commit) := by
  unfold Cur.rendezvous
  split
  · exact .ite (.holdAt h) (.advance (.of_mem h rfl))
  · exact h
  · refine .ite (.illop h) (.ite (.holdAt h) ?_)
    extract_lets s₁ s₂
    have h₂ : Canonical s₂ := .keep (State.rendezvousCheck_mem ..) (.of_mem h rfl)
    split
    · exact .ite (.holdAt h₂) (.advance (.of_mem h₂ rfl))
    · exact h₂

/-! ### Accesses to memory -/

theorem Canonical.park {eid e t op pc word uniform ls page} (h : Canonical s) :
    Canonical (State.park s eid e t op pc word uniform ls page) :=
  .keep (State.countEvent_mem ..) (.fqFault (.of_mem h rfl))

theorem Canonical.launchAccess {c a reqs} (h : Canonical s) : Canonical (Cur.launchAccess c s a reqs) := by
  unfold Cur.launchAccess
  extract_lets ls s₁
  have h₁ : Canonical s₁ := .ite (.foldl (fun _ _ h => .ite (.touch h) h) h) h
  exact .foldl (fun _ _ h => .park h) (.of_mem h₁ rfl)

theorem Canonical.access {c a reqs checks n} (h : Canonical s) : Canonical (Cur.access c s a reqs checks n) := by
  unfold Cur.access
  refine .ite (.holdAt h) (.ite (.holdAt h) ?_)
  extract_lets pages
  split
  · exact .raiseWith h
  · exact .ite (.advance (.launchAccess h)) (.holdAt h)

theorem Canonical.vecAccess {c a reqs checks n} (h : Canonical s) :
    Canonical (Cur.vecAccess c s a reqs checks n) :=
  .ite (.advance h) (.ite (.curExhaust h) (.access h))

theorem CanonicalNext.spaceLoad {sp z q d b v off} (h : Canonical s) : CanonicalNext (spaceLoad sp z q d b v off s) :=
  .withCur h (fun _ => .vecAccess h)

theorem CanonicalNext.spaceStore {sp z q b v off d} (h : Canonical s) :
    CanonicalNext (spaceStore sp z q b v off d s) :=
  .withCur h (fun _ => .vecAccess h)

theorem Canonical.buffer {c b store a rs n} (h : Canonical s) : Canonical (Cur.buffer c s b store a rs n) := by
  unfold Cur.buffer
  extract_lets x allowed bound
  split
  · exact .raiseWith h
  · exact .vecAccess h

theorem CanonicalNext.globalAtomic {op ty o d b v} (h : Canonical s) : CanonicalNext (globalAtomic op ty o d b v s) :=
  .withCur h (fun _ => .ite (.raise h) (.vecAccess h))

theorem CanonicalNext.spaceAtomic {op ty o sp d v} (h : Canonical s) : CanonicalNext (spaceAtomic op ty o sp d v s) :=
  .withCur h (fun _ => .ite (.raise h) (.vecAccess h))

theorem CanonicalNext.execFence {k x} (h : Canonical s) : CanonicalNext (execFence k x s) :=
  .withCur h (fun _ => .ite (.holdAt h) (.advance (.ite (.observe h) h)))

theorem Canonical.l1Room {col sec} (h : Canonical s) : Canonical (State.l1Room s col sec) := .ite h (.l1Drop h)

theorem Canonical.l1Fill {col sec} (h : Canonical s) : Canonical (State.l1Fill s col sec) := by
  dsimp only [State.l1Fill]
  split
  · exact h
  · exact .keep (State.setL1_mem ..) (.l1Room h)

theorem CanonicalNext.execCprf {i a l} (h : Canonical s) : CanonicalNext (execCprf i a l s) := by
  refine .withCur h fun c => ?_
  extract_lets p
  split
  · exact .advance (.ite (.foldl (fun _ _ h => .l1Fill h) (.touch h)) h)
  · exact .advance h

theorem CanonicalNext.execCflush {a d} (h : Canonical s) : CanonicalNext (execCflush a d s) :=
  .withCur h (fun _ => .ite (.holdAt h) (.ite (.raise h) (.ite (.holdAt h) (.teamWord (.of_mem h rfl)))))

/-! ### Copies and the engines -/

theorem Canonical.openCopy {ctx c} (h : Canonical s) : Canonical (State.openCopy s ctx c).2 := by
  unfold State.openCopy
  split
  next id s₁ hfresh =>
    have h₁ : Canonical s₁ := .of_mem h (by rw [← State.fresh_mem s, hfresh])
    extract_lets s₂
    have h₂ : Canonical s₂ := by
      unfold s₂
      split
      · exact .putWord h₁
      · exact h₁
    split
    · exact .of_mem h₂ rfl
    · exact .of_mem h₂ rfl

theorem Canonical.acceptSlice {c id i bound ftype gone} (h : Canonical s) :
    Canonical (Cur.acceptSlice c s id i bound ftype gone) := by
  dsimp only [Cur.acceptSlice]
  split
  · exact h
  · exact .ite (.keep (State.sweepCopy_mem ..) (.keep (State.modTeam_mem ..) (.of_mem (.observe h) rfl))) (.foldl
      (fun _ _ h => .fqFault h) (.of_mem (.observe h) rfl))

theorem Canonical.copySlice {c ask i b ftype} (h : Canonical s) : Canonical (Cur.copySlice c s ask i b ftype) := by
  unfold Cur.copySlice
  refine .ite (.holdAt h) ?_
  extract_lets ctx stack old hdr count badCount slot want bound
  clear_value old
  split
  · exact .raise h
  refine .ite (.illop h) ?_
  split
  · exact .raise h
  split
  · exact .raise h
  split
  · exact .raise h
  refine .ite (.holdAt h) (.ite (.raise h) ?_)
  split
  · exact .raiseWith h
  refine .ite (.holdAt h) (.ite (.holdAt h) ?_)
  split
  next hopen =>
    refine .advance (.acceptSlice ?_)
    split at hopen
    · obtain ⟨-, rfl⟩ := Prod.mk.inj hopen
      exact h
    · have := h.openCopy (ctx := ctx) (c := want)
      rwa [hopen] at this

theorem CanonicalNext.copyWord {fn dst src len sl obj idx rows stride mc ring fill} (h : Canonical s) :
    CanonicalNext (copyWord fn dst src len sl obj idx rows stride mc ring fill s) :=
  .withCur h (fun _ => .copySlice h)

theorem CanonicalNext.execCpyG2s {dst src len sl obj idx rows stride mc ring fill} (h : Canonical s) :
    CanonicalNext (execCpyG2s dst src len sl obj idx rows stride mc ring fill s) :=
  .copyWord h

theorem CanonicalNext.execCpyG2c {dst src len sl obj idx rows stride ring fill} (h : Canonical s) :
    CanonicalNext (execCpyG2c dst src len sl obj idx rows stride ring fill s) :=
  .copyWord h

theorem CanonicalNext.execCpyC2s {dst src len sl obj idx rows stride mc ring} (h : Canonical s) :
    CanonicalNext (execCpyC2s dst src len sl obj idx rows stride mc ring s) :=
  .copyWord h

theorem CanonicalNext.execCpyS2c {dst src len sl obj idx rows stride ring} (h : Canonical s) :
    CanonicalNext (execCpyS2c dst src len sl obj idx rows stride ring s) :=
  .copyWord h

theorem CanonicalNext.execCpyx {dst src len sl obj idx rows stride ring} (h : Canonical s) :
    CanonicalNext (execCpyx dst src len sl obj idx rows stride ring s) :=
  .copyWord h

theorem CanonicalNext.execCpyg {dst src len sl obj idx rows stride ring fill} (h : Canonical s) :
    CanonicalNext (execCpyg dst src len sl obj idx rows stride ring fill s) :=
  .copyWord h

theorem Canonical.recount {tid} (h : Canonical s) : Canonical (State.recount s tid) := by
  dsimp only [State.recount]
  split
  · exact h
  · split
    · exact h
    · exact .ite (.recordWrite h) (.ite (.areaWrite h) h)

theorem Canonical.copyCount {k c} (h : Canonical s) : Canonical (State.copyCount s k c) :=
  .foldl (fun _ _ h => .recount (.of_mem h rfl)) h

theorem Canonical.cancelCopy {k c} (h : Canonical s) : Canonical (State.cancelCopy s k c) :=
  .keep (State.sweepCopy_mem ..) (.copyCount (.of_mem h rfl))

theorem CanonicalNext.execCpycan {n cl obj} (h : Canonical s) : CanonicalNext (execCpycan n cl obj s) := by
  refine .withCur h fun c => ?_
  extract_lets sp off bad hit s₁
  clear_value bad
  split
  · exact .raise h
  · exact .advance (.keep (State.modTeam_mem ..) (.foldl (fun _ _ h => .cancelCopy h) h))

theorem Canonical.accept {g wid prio cs op missing refs n} (h : Canonical s) :
    Canonical (State.accept s g wid prio cs op missing refs n) := by
  dsimp only [State.accept]
  split
  · exact h
  · exact .foldl (fun _ _ h => .ite (.advance (.keep (State.modEnt_mem ..) (.keep (State.modTeam_mem ..)
      (.observe h)))) (.keep (State.modEnt_mem ..) (.advance (.keep (State.modEnt_mem ..) (.keep
      (State.modTeam_mem ..) (.observe h)))))) (.foldl (fun _ _ h => .fqFault h) (.of_mem h rfl))

theorem Canonical.judged {g c cs q hold} (h : Canonical s) : Canonical (State.judged s g c cs q hold) := by
  unfold State.judged
  extract_lets e lead
  refine .ite (.holdAt h) ?_
  generalize (if
    (q.kinds e.logical).any s.fmtOff then Verdict.fault cILLOP 0 0 else q.judge s e.logical lead.t.wg) = verdict
  split
  · exact .holdAt h
  · exact .foldl (fun _ _ h => .ite (.illop (.of_mem h rfl)) (.raiseWith (.of_mem h rfl))) h
  · exact .accept h

theorem Canonical.engineIssue {c q} (h : Canonical s) : Canonical (Cur.engineIssue c s q) := by
  unfold Cur.engineIssue
  extract_lets g
  refine .ite (.illop h) (.ite (.holdAt h) ?_)
  split
  · refine .ite (.illop h) ?_
    extract_lets k old here latch joined members s₁ s₂ cs
    have h₁ : Canonical s₁ := .of_mem h rfl
    refine .ite (.raise h) (.ite (.holdAt (.of_mem h₁ rfl)) ?_)
    generalize (if s₁.tableFull g cs then Verdict.wait else q.judge s₁ (s₁.engine g).logical c.t.wg) = verdict
    split
    · exact .holdAt (.of_mem h₁ rfl)
    · exact .judged (.of_mem h₁ rfl)
  · exact .judged h
  · exact .judged h

theorem CanonicalNext.engineWord {f} (h : Canonical s) : CanonicalNext (engineWord f s) :=
  .withCur h (fun _ => .engineIssue h)

theorem CanonicalNext.execMres {d w} (h : Canonical s) : CanonicalNext (execMres d w s) := .engineWord h

theorem CanonicalNext.execMfree {d} (h : Canonical s) : CanonicalNext (execMfree d s) := .engineWord h

theorem CanonicalNext.execMld {q d sr p} (h : Canonical s) : CanonicalNext (execMld q d sr p s) := .engineWord h

theorem CanonicalNext.execMscl {d sr o} (h : Canonical s) : CanonicalNext (execMscl d sr o s) := .engineWord h

theorem CanonicalNext.execMgang {b i} (h : Canonical s) : CanonicalNext (execMgang b i s) :=
  .withCur h (fun _ => .ite (.illop h) (.ite (.holdAt h) (.ite (.teamWord h) (.ite (.raise h) (.teamWord h)))))

theorem CanonicalNext.execMls {r cs k o} (h : Canonical s) : CanonicalNext (execMls r cs k o s) := .engineWord h

theorem CanonicalNext.execMswap (h : Canonical s) : CanonicalNext (execMswap s) := .engineWord h

theorem CanonicalNext.execMma {t a q p g z sat w} (h : Canonical s) :
    CanonicalNext (execMma t a q p g z sat w s) :=
  .engineWord h

theorem CanonicalNext.execMdrain {t x o n w} (h : Canonical s) : CanonicalNext (execMdrain t x o n w s) :=
  .engineWord h

theorem CanonicalNext.execMtab {t} (h : Canonical s) : CanonicalNext (execMtab t s) := .engineWord h

theorem CanonicalNext.execMzero {t} (h : Canonical s) : CanonicalNext (execMzero t s) := .engineWord h

theorem CanonicalNext.execMfill {t r} (h : Canonical s) : CanonicalNext (execMfill t r s) := .engineWord h

theorem CanonicalNext.execMredAdd {t d a} (h : Canonical s) : CanonicalNext (execMredAdd t d a s) := .engineWord h

theorem CanonicalNext.execMscanAdd {t d a} (h : Canonical s) : CanonicalNext (execMscanAdd t d a s) :=
  .withCur h (fun _ => .ite (.curExhaust h) (.ite (.engineIssue h) (.keep (State.modTeam_mem ..) (.engineIssue h))))

/-! ### Launches, returns and the privileged registers -/

theorem Canonical.holdPending {c d k} (h : Canonical s) : Canonical (Cur.holdPending c s d k) :=
  .ite (.holdAt h) (.holdAt (.of_mem h rfl))

theorem Canonical.parkEntity {eid e t pc word page addr} (h : Canonical s) :
    Canonical (State.parkEntity s eid e t pc word page addr) :=
  .keep (State.modEnt_mem ..) (.keep (State.countEvent_mem ..) (.fqFault (.of_mem h rfl)))

theorem Canonical.touchRange {stack c ptr n} (h : Canonical s) : Canonical (State.touchRange s stack c ptr n) :=
  .foldl (fun _ _ h => .touch h) h

theorem Canonical.launchCheck {c d ks ptr n rest} (h : Canonical s) (hr : ∀ u, Canonical u → Canonical (rest u)) :
    Canonical (Cur.launchCheck c s d ks ptr n rest) := by
  unfold Cur.launchCheck
  refine .ite (.holdPending h) ?_
  split
  · exact .raiseWith h
  · exact .ite (.holdPending h) (.holdPending (.parkEntity h))
  · exact hr _ (.ite (.touchRange h) h)

theorem Canonical.doneScalar {c d n} (h : Canonical s) : Canonical (Cur.doneScalar c s d n) := .teamWord h

theorem Canonical.devicePut {stack c ptr bytes} (h : Canonical s) :
    Canonical (State.devicePut s stack c ptr bytes) := by
  dsimp only [State.devicePut]
  split
  · exact .storeBytes (.l1Evict (.touch h))
  · exact h

theorem Canonical.launchWrite {c d q depth rcd} (h : Canonical s) :
    Canonical (Cur.launchWrite c s d q depth rcd) := by
  unfold Cur.launchWrite
  refine .ite (.doneScalar h) (.ite (.doneScalar h) (.launchCheck h fun u hu => ?_))
  have h₁ : Canonical u.fresh.2 := .of_mem hu rfl
  have h₂ : ∀ {stack c ptr bytes ptr' bytes'}, Canonical
    ((u.fresh.2.deviceStore stack c ptr bytes).devicePut stack c ptr' bytes') :=
    .devicePut (.deviceStore h₁)
  exact .doneScalar (.keep (State.modWg_mem ..) (.keep (State.modCtx_mem ..) h₂))

theorem CanonicalNext.execLaunch {d a q} (h : Canonical s) : CanonicalNext (execLaunch d a q s) :=
  .withCur h (fun _ => .ite (.holdPending h) (.ite (.raise h) (.ite (.raise h) (.ite (.illop h) (.ite (.raise h)
    (.ite (.holdPending h) (.launchCheck (.observe h) (fun _ h => .ite (.illop h) (.launchCheck h
    (fun _ h => .launchWrite h))))))))))

theorem CanonicalNext.execSpgrow {d a} (h : Canonical s) : CanonicalNext (execSpgrow d a s) :=
  .withCur h (fun _ => .ite (.raise h) (.ite (.curExhaust h) (.teamWord (.of_mem h rfl))))

theorem CanonicalNext.execLpgrow {d a} (h : Canonical s) : CanonicalNext (execLpgrow d a s) :=
  .withCur h (fun _ => .ite (.raise h) (.ite (.curExhaust h) (.teamWord h)))

theorem CanonicalNext.execQwait {d} (h : Canonical s) : CanonicalNext (execQwait d s) :=
  .withCur h (fun _ => .ite (.illop h) (.ite (.doneScalar (.keep (State.modEnt_mem ..) (.observe h))) (.holdPending
    (.of_mem h rfl))))

theorem CanonicalNext.execAllow {a} (h : Canonical s) : CanonicalNext (execAllow a s) := by
  dsimp only [Machine.execAllow]
  refine .withCur h (fun _ => ?_)
  split
  · exact .ite (.curExhaust h) (.advance h)
  · exact .advance h

theorem CanonicalNext.execTret (h : Canonical s) : CanonicalNext (execTret s) := by
  dsimp only [Machine.execTret]
  refine .withCur h (fun _ => ?_)
  split
  · exact .illop h
  · refine .ite (.holdAt h) ?_
    split
    · exact .raiseWith h
    · exact .raise h
    · exact .ite (.illop (.touch (.touchRange (.observe h)))) (.ite (.continueAt (.keep (State.modEnt_mem ..) (.keep
        (State.modEnt_mem ..) (.keep (State.modCtx_mem ..) (.keep (State.modTeam_mem ..) (.keep
        (State.retireClause_mem ..) (.touch (.touchRange (.observe h))))))))) (.settle (.keep (State.modEnt_mem ..)
        (.keep (State.modCtx_mem ..) (.keep (State.modTeam_mem ..) (.keep (State.retireClause_mem ..) (.touch
        (.touchRange (.observe h)))))))))

theorem CanonicalNext.execPcsrr {d a} (h : Canonical s) : CanonicalNext (execPcsrr d a s) := by
  refine .withCur h fun c => ?_
  extract_lets n s₁
  have h₁ : Canonical s₁ := .observe h
  refine .ite (.holdAt h) ?_
  split
  · exact .teamWord (.of_mem h₁ rfl)
  · generalize (if n < 4 then none else s₁.privPair (n - 4)) = low
    split
    · exact .teamWord h₁
    · exact .teamWord h₁

theorem Canonical.spent {r} (h : Canonical s) : Canonical (State.spent s r) := by
  dsimp only [State.spent]
  split
  · exact .of_mem h rfl
  · split
    · exact .advance h
    · exact h

theorem Canonical.semRequest {p v} (h : Canonical s) : Canonical (State.semRequest s p v) := by
  unfold State.semRequest
  split
  · exact .of_mem h rfl
  extract_lets t
  have ht : Canonical t := .of_mem h rfl
  exact .ite (.of_mem ht rfl) (.ite (.keep (State.semWrite_mem ..) (.spent ht)) (.keep (State.semWrite_mem ..)
    (.spent ht)))

theorem Canonical.wipe {c} (h : Canonical s) : Canonical (State.wipe s c) :=
  .keep (State.tlbDrop_mem ..) (.of_mem (.foldl (fun _ _ h => .l1Sync h) h) rfl)

theorem Canonical.tear {c} (h : Canonical s) : Canonical (State.tear s c) :=
  .keep (State.modCtx_mem ..) (.keep (State.endVisit_mem ..) (.wipe (.of_mem h rfl)))

theorem Canonical.ctxCommand {c cmd} (h : Canonical s) : Canonical (State.ctxCommand s c cmd) := by
  dsimp only [State.ctxCommand]
  split
  · exact .ite (.keep (State.create_mem ..) h) (.of_mem h rfl)
  · exact .keep (State.suspend_mem ..) h
  · exact .of_mem h rfl
  · exact .tear h
  · exact .tear h
  · exact .tear h
  · exact .of_mem h rfl
  · exact .of_mem h rfl
  · exact .of_mem h rfl
  · exact .of_mem h rfl
  · exact h

theorem Canonical.rewriteParked {c} (h : Canonical s) : Canonical (State.rewriteParked s c) :=
  .foldl (fun _ _ h => .ite (.foldl (fun _ _ h => .recordWrite h) h) h) h

theorem Canonical.hostRelease {c v} (h : Canonical s) : Canonical (State.hostRelease s c v) :=
  .rewriteParked (.of_mem h rfl)

theorem Canonical.ctxWrite {block c off v u} (h : Canonical s) (e : s.ctxWrite block c off v = some u) :
    Canonical u := by
  unfold State.ctxWrite at e
  split at e
  · cases e
    exact .ctxCommand h
  · obtain ⟨x, -, rfl⟩ := Option.map_eq_some_iff.mp e
    exact .of_mem h rfl
  · cases e
    exact .hostRelease h
  · obtain ⟨x, -, rfl⟩ := Option.map_eq_some_iff.mp e
    exact .of_mem h rfl
  · cases e
    exact .keep (State.dbgWrite_mem ..) h
  · obtain ⟨x, -, rfl⟩ := Option.map_eq_some_iff.mp e
    exact .of_mem h rfl

/-! ### Clause issue, debug windows and trace -/

theorem Canonical.touchCode {stack c a n} (h : Canonical s) : Canonical (State.touchCode s stack c a n) :=
  .touch (.touch h)

theorem Canonical.startClause {c k claimed xreg gcounts} (h : Canonical s) :
    Canonical (Cur.startClause c s k claimed xreg gcounts) := by
  unfold Cur.startClause
  extract_lets s₁ s₂
  have h₂ : Canonical s₂ := .ite (.of_mem h rfl) (.observe (.of_mem h rfl))
  exact .of_mem h₂ rfl

theorem Canonical.issueClause {eid e t k} (h : Canonical s) : Canonical (State.issueClause s eid e t k) := by
  dsimp only [State.issueClause]
  refine .ite (.exhaust h) ?_
  split
  · exact .exhaust h
  · exact .settle (.deliver h)
  · exact .startClause h

theorem CanonicalNext.execClauseIssue {e} (h : Canonical s) : CanonicalNext (execClauseIssue e s) := by
  dsimp only [Machine.execClauseIssue]
  refine .next ?_
  split
  · exact h
  · split
    · exact h
    · refine .ite h ?_
      split
      · exact h
      · exact .ite (.parkEntity h) h
      · exact .settle (.deliver h)
      · split
        · exact .settle (.deliver (.touchCode h))
        · refine .ite (.settle (.deliver (.touchCode h))) (.ite h ?_)
          split
          · exact .keep (State.stamp_mem ..) h
          · exact .ite (.issueClause (.touchCode (.keep (State.stamp_mem ..) h))) (.keep (State.stamp_mem ..) h)

theorem Canonical.stepNext {q} (h : Canonical s) : Canonical (State.stepNext s q) := by
  unfold State.stepNext
  extract_lets w going
  refine .ite h ?_
  split
  · exact .of_mem h rfl
  extract_lets skip s₁
  have h₁ : Canonical s₁ := .of_mem h rfl
  have hskip : ∀ u n, Canonical u → Canonical (skip u n) := fun _ _ hu => .of_mem hu rfl
  split
  · exact hskip _ _ h
  refine .ite (hskip _ _ h) (.ite (.of_mem h rfl) ?_)
  split
  next s₂ hs₂ =>
    have h₂ : Canonical s₂ := (CanonicalNext.execClauseIssue h₁).next_wf _ hs₂
    exact .ite (hskip _ _ (.of_mem h₂ rfl)) (.ite h (hskip _ _ h))
  · exact hskip _ _ h

theorem Canonical.stepStart {q es} (h : Canonical s) : Canonical (State.stepStart s q es) :=
  .ite (.of_mem h rfl) (.stepNext (.of_mem h rfl))

theorem Canonical.debugCommand {port q v} (h : Canonical s) : Canonical (State.debugCommand s port q v) := by
  dsimp only [State.debugCommand]
  refine .ite h (.ite (.of_mem h rfl) ?_)
  split
  · exact .keep (State.stopOn_mem ..) h
  · exact .keep (State.resumeOn_mem ..) h
  · exact .stepStart h
  · exact .stepStart h

theorem Canonical.windowWrite {port q off v} (h : Canonical s) : Canonical (State.windowWrite s port q off v) := by
  dsimp only [State.windowWrite]
  split
  · exact .debugCommand h
  · exact .of_mem h rfl
  · exact .of_mem h rfl
  · exact .of_mem h rfl
  · exact .keep (State.edit_mem ..) h
  · exact .of_mem h rfl
  · exact h

theorem Canonical.privApply {port a v u} (h : Canonical s) (e : s.privApply port a v = some u) : Canonical u := by
  unfold State.privApply at e
  split at e
  · exact .keep (State.globalWrite_mem _ _ _ e) h
  split at e
  · exact .ctxWrite h e
  split at e
  · exact .ctxWrite h e
  split at e
  · exact .ctxWrite h e
  split at e
  · exact .keep (State.boardWrite_mem _ _ _ e) h
  split at e
  · cases e
    exact .keep (State.histWrite_mem ..) h
  split at e
  · cases e
    exact .windowWrite h
  · cases e
    exact h

theorem Canonical.privWrite {port a v} (h : Canonical s) : Canonical (State.privWrite s port a v) :=
  .ite (.of_mem h rfl) (.ite (.getD (fun _ e => .privApply h e) (.of_mem h rfl)) (.of_mem h rfl))

theorem CanonicalNext.execPcsrw {a b} (h : Canonical s) : CanonicalNext (execPcsrw a b s) :=
  .withCur h (fun _ => .ite (.holdAt h) (.ite (.semRequest (.advance (.observe h))) (.privWrite (.advance
    (.observe h)))))

theorem CanonicalNext.execTinv {a b} (h : Canonical s) : CanonicalNext (execTinv a b s) :=
  .withCur h fun _ => .ite (.holdAt h) (.advance (.of_mem (.foldl (fun _ _ h => .l1Sync h) h) rfl))

theorem CanonicalNext.execRqrel {a b} (h : Canonical s) : CanonicalNext (execRqrel a b s) :=
  .withCur h (fun _ => .ite (.holdAt h) (.advance (.rewriteParked (.keep (State.release_mem ..) (.observe h)))))

theorem CanonicalNext.execBrk {i} (h : Canonical s) : CanonicalNext (execBrk i s) := by
  refine .withCur h fun c => ?_
  extract_lets ctx q s₁ s₂ s₃
  have h₁ : Canonical s₁ := .of_mem h rfl
  have h₂ : Canonical s₂ := by
    unfold s₂
    split
    · exact .of_mem h₁ rfl
    · exact h₁
  have h₃ : Canonical s₃ := .ite (.finish h₁) (.of_mem h₂ rfl)
  exact .ite (.settle (.keep (State.stopOn_mem ..) h₃)) (.raiseWith h)

theorem Canonical.physPut {a bytes} (h : Canonical s) : Canonical (State.physPut s a bytes) :=
  .storeBytes (.l1Evict h)

theorem Canonical.ringUnits {us} (h : Canonical s) : Canonical (State.ringUnits s us) := by
  induction us generalizing s with
  | nil => exact h
  | cons u us ih => exact ih (.of_mem (.physPut h) rfl)

theorem Canonical.ringWrite {frame units bytes} (h : Canonical s) :
    Canonical (State.ringWrite s frame units bytes) :=
  .ite (.ringUnits h) (.of_mem h rfl)

theorem Canonical.frame (h : Canonical s) : Canonical (State.frame s) := .ringWrite (.of_mem h rfl)

theorem Canonical.marker {bytes} (h : Canonical s) : Canonical (State.marker s bytes) :=
  .ringWrite (.ite (.frame h) h)

theorem CanonicalNext.execIssueWaitLimit {e} (h : Canonical s) : CanonicalNext (execIssueWaitLimit e s) := by
  dsimp only [Machine.execIssueWaitLimit]
  split
  · exact .execClauseIssue h
  · exact .next h

theorem CanonicalNext.execYdl {e} (h : Canonical s) : CanonicalNext (execYdl e s) := by
  dsimp only [Machine.execYdl]
  refine .next ?_
  split
  · exact h
  · split
    · exact h
    · exact .settle (.keep (State.markFaulted_mem ..) (.fqFault (.of_mem h rfl)))

theorem CanonicalNext.execDeferralSwitch {e} (h : Canonical s) : CanonicalNext (execDeferralSwitch e s) := by
  dsimp only [Machine.execDeferralSwitch]
  refine .next ?_
  split
  · exact h
  · split
    · exact h
    · exact .ite h (.of_mem h rfl)

/-! ### Performed operations and replays -/

theorem Canonical.orderL1 {o on} (h : Canonical s) : Canonical (State.orderL1 s o on) := by
  dsimp only [State.orderL1]
  split
  · exact .l1Sync h
  · exact h

theorem Canonical.cacheLoad {col alloc x} (h : Canonical s) : Canonical (State.cacheLoad s col alloc x).2 := by
  unfold State.cacheLoad
  split
  · exact h
  · exact .ite (.l1Fill h) h

theorem Canonical.uncachedLoad {col x} (h : Canonical s) : Canonical (State.uncachedLoad s col x).2 := by
  dsimp only [State.uncachedLoad]
  exact .l1Evict h

theorem Canonical.readLane {o t l} (h : Canonical s) : Canonical (State.readLane s o t l).2 := by
  unfold State.readLane
  split
  · extract_lets p
    refine List.foldlRecOn (motive := fun x : List Byte × State => Canonical x.2) _ _ h fun x hx i _ => ?_
    dsimp only
    split
    · exact hx
    · split
      · exact .cacheLoad hx
      · exact .uncachedLoad hx
  · exact h
  · exact h

theorem Canonical.cacheStore {col alloc x b} (h : Canonical s) : Canonical (State.cacheStore s col alloc x b) := by
  unfold State.cacheStore
  extract_lets s₁
  have h₁ : Canonical s₁ := .ite (.l1Fill h) (.storeByte h)
  split
  · exact .of_mem h₁ rfl
  · exact h₁

theorem Canonical.writeMem {o t tid l bs} (h : Canonical s) : Canonical (State.writeMem s o t tid l bs) := by
  dsimp only [State.writeMem]
  split
  · exact .foldl (fun _ _ h => .ite h (.cacheStore h)) h
  · exact .of_mem h rfl
  · exact .spaceWrite h

theorem Canonical.touchPages {stack c ptr n} (h : Canonical s) : Canonical (State.touchPages s stack c ptr n) :=
  .ite h (.foldl (fun _ _ h => .touch h) h)

theorem Canonical.flushRange {stack c ptr n} (h : Canonical s) : Canonical (State.flushRange s stack c ptr n) := by
  unfold State.flushRange
  exact .l1Evict (.touchPages h)

theorem Canonical.performLane {tid o l} (h : Canonical s) : Canonical (State.performLane s tid o l).1 := by
  unfold State.performLane
  extract_lets l' s₁
  have h₁ : Canonical s₁ := by
    unfold s₁
    split
    · exact .l1Evict h
    · exact h
  clear_value s₁
  split
  · exact h
  next t ht =>
  split
  · split
    next ws u hu =>
      have : Canonical u := by
        split at hu
        · cases hu
          exact h
        · split at hu
          next bs v hv =>
            cases hu
            have hr := h.readLane (o := o) (t := t) (l := l')
            rwa [hv] at hr
      exact .of_mem this rfl
  · exact .ite h (.writeMem h)
  · split
    · exact h
    next op ty hop =>
      extract_lets old
      clear_value old
      split
      next m fl hm =>
        extract_lets s₂
        have h₂ : Canonical s₂ := by
          unfold s₂
          split
          · exact .storeBytes h₁
          · exact .spaceWrite h₁
        exact .of_mem h₂ rfl
  · exact .flushRange h

theorem Canonical.performLanes {tid o ls} (h : Canonical s) : Canonical (State.performLanes s tid o ls).1 := by
  induction ls generalizing s with
  | nil => exact h
  | cons l ls ih => exact ih (.performLane h)

theorem Canonical.completeOp {k o} (h : Canonical s) : Canonical (State.completeOp s k o) :=
  .settle (.recount (.of_mem h rfl))

theorem Canonical.performOp {k} (h : Canonical s) : Canonical (State.performOp s k) := by
  dsimp only [State.performOp]
  split
  · exact h
  · exact .ite h (.ite (.completeOp (.of_mem (.performLanes (.orderL1 h)) rfl)) (.settle (.of_mem (.performLanes
      (.orderL1 h)) rfl)))

theorem Canonical.performKind {op k} (h : Canonical s) : Canonical (State.performKind s op k) := by
  dsimp only [State.performKind]
  split
  · exact .ite (.performOp h) h
  · exact h

theorem CanonicalNext.execReplayStallResume {e} (h : Canonical s) : CanonicalNext (execReplayStallResume e s) := by
  dsimp only [Machine.execReplayStallResume]
  refine .next ?_
  split
  · exact h
  · split
    · exact h
    · exact .ite (.of_mem h rfl) h

theorem Canonical.replayFault {eid tid f} (h : Canonical s) : Canonical (State.replayFault s eid tid f) := by
  dsimp only [State.replayFault]
  split
  · exact .ite h (.ite (.fqFault (.keep (State.errorIrq_mem ..) h)) (.settle (.deliver h)))
  · exact .keep (State.markFaulted_mem ..) (.fqFault (.keep (State.errorIrq_mem ..) h))
  · exact h

theorem Canonical.replayEntity {id r e t} (h : Canonical s) : Canonical (State.replayEntity s id r e t) := by
  unfold State.replayEntity
  extract_lets fetch a go at' f
  have hgo : Canonical (go s) := .of_mem h rfl
  clear_value go at' f
  split
  · exact .ite (.replayFault hgo) (.of_mem h rfl)
  · exact .ite (.replayFault hgo) hgo
  · exact hgo

theorem Canonical.replayAccess {id r o t} (h : Canonical s) : Canonical (State.replayAccess s id r o t) := by
  dsimp only [State.replayAccess]
  split
  · exact .ite h (.performOp (.replayFault (.of_mem h rfl)))
  · exact .ite (.ite (.ite h (.performOp (.replayFault (.of_mem h rfl)))) (.of_mem h rfl)) (.performOp (.keep
      (State.modOp_mem ..) (.of_mem (.foldl (fun _ _ h => .touch h) h) rfl)))

theorem CanonicalNext.execParkedAccessReplay {r} (h : Canonical s) : CanonicalNext (execParkedAccessReplay r s) := by
  dsimp only [Machine.execParkedAccessReplay]
  refine .next ?_
  split
  · exact h
  · split
    · exact .of_mem h rfl
    · refine .ite h (.ite ?_ ?_)
      · split
        · exact .replayEntity h
        · exact .of_mem h rfl
      · split
        · exact .replayAccess h
        · exact .of_mem h rfl

theorem CanonicalNext.retryHeld {e hd f} (h : Canonical s) (hf : ∀ i u, Canonical u → CanonicalNext (f i u)) :
    CanonicalNext (State.retryHeld s e hd f) := by
  unfold State.retryHeld
  split
  · exact .next h
  split
  · exact .ite (hf _ _ (.of_mem h rfl)) (.next h)
  · exact .next h

theorem CanonicalNext.retryCopy {i} (h : Canonical s) : CanonicalNext (retryCopy i s) := by
  dsimp only [Machine.retryCopy]
  split
  · exact .execCpyG2s h
  · exact .execCpyG2c h
  · exact .execCpyC2s h
  · exact .execCpyS2c h
  · exact .execCpyx h
  · exact .execCpyg h
  · exact .next h

/-! ### Completions of copies and of engine operations -/

theorem Canonical.creditObject {c} (h : Canonical s) : Canonical (State.creditObject s c) := by
  dsimp only [State.creditObject]
  split
  · exact h
  · exact .foldl (fun _ _ h => .modBar h) h

theorem CanonicalNext.execCopyComplete {c} (h : Canonical s) : CanonicalNext (execCopyComplete c s) := by
  dsimp only [Machine.execCopyComplete]
  refine .next ?_
  split
  · exact h
  · exact .ite h (.copyCount (.creditObject (.keep (State.credDone_mem ..) (.of_mem h rfl))))

theorem Canonical.deferFault {tid f} (h : Canonical s) : Canonical (State.deferFault s tid f) := by
  dsimp only [State.deferFault]
  split
  · exact h
  · exact .settle (.keep (State.modTeam_mem ..) (.keep (State.markFaulted_mem ..) (.fqFault (.keep
      (State.errorIrq_mem ..) h))))

theorem CanonicalNext.execCopyFailure {c i} (h : Canonical s) : CanonicalNext (execCopyFailure c i s) := by
  dsimp only [Machine.execCopyFailure]
  refine .next ?_
  split
  · exact h
  · split
    · exact h
    · split
      · exact .deferFault (.keep (State.sweepCopy_mem ..) (.copyCount (.of_mem h rfl)))
      · exact h

theorem Canonical.abandonCopy {k} (h : Canonical s) : Canonical (State.abandonCopy s k) := by
  dsimp only [State.abandonCopy]
  split
  · exact h
  · split
    · exact .keep (State.endCopy_mem ..) (.copyCount h)
    · exact .deferFault (.keep (State.endCopy_mem ..) (.copyCount h))

theorem Canonical.credAbandon {id x} (h : Canonical s) : Canonical (State.credAbandon s id x) := by
  unfold State.credAbandon
  extract_lets u
  have hu : Canonical u := .foldl (fun _ _ h => .abandonCopy h) h
  exact .of_mem hu rfl

theorem CanonicalNext.execCredComplete {g} (h : Canonical s) : CanonicalNext (execCredComplete g s) := by
  dsimp only [Machine.execCredComplete]
  refine .next ?_
  split
  · exact h
  · exact .ite (.ite (.credAbandon h) h) (.ite (.of_mem h rfl) h)

theorem CanonicalNext.retryEngine {i} (h : Canonical s) : CanonicalNext (retryEngine i s) := by
  cases i with
  | mres => exact .execMres h
  | mfree => exact .execMfree h
  | mld => exact .execMld h
  | mscl => exact .execMscl h
  | mls => exact .execMls h
  | mswap => exact .execMswap h
  | mma => exact .execMma h
  | mdrain => exact .execMdrain h
  | mtab => exact .execMtab h
  | mzero => exact .execMzero h
  | mfill => exact .execMfill h
  | mredAdd => exact .execMredAdd h
  | mscanAdd => exact .execMscanAdd h
  | _ => exact .next h

theorem CanonicalNext.execArbiterGrant {g p} (h : Canonical s) : CanonicalNext (execArbiterGrant g p s) := by
  dsimp only [Machine.execArbiterGrant]
  refine .next (.ite h ?_)
  split
  · exact .keep (State.runEntry_mem ..) h
  · exact h

theorem CanonicalNext.execArbiterAgeLimit {g k} (h : Canonical s) : CanonicalNext (execArbiterAgeLimit g k s) := by
  dsimp only [Machine.execArbiterAgeLimit]
  refine .next ?_
  split
  · exact .ite (.of_mem h rfl) h
  · exact h

theorem CanonicalNext.execMswapBandSwap {g k b} (h : Canonical s) : CanonicalNext (execMswapBandSwap g k b s) := by
  dsimp only [Machine.execMswapBandSwap]
  refine .next ?_
  split
  · exact .ite (.of_mem h rfl) h
  · exact h

theorem Canonical.histogramRequest {k n} (h : Canonical s) : Canonical (State.histogramRequest s k n) := by
  unfold State.histogramRequest
  exact .ite h (.keep (State.modHist_mem ..) (.ite (.marker (.keep (State.triggerAct_mem ..) (.of_mem h rfl))) h))

theorem Canonical.ownRequest {k} (h : Canonical s) : Canonical (State.ownRequest s k) :=
  .histogramRequest (.of_mem h rfl)

theorem Canonical.freeEntry {g k x} (h : Canonical s) : Canonical (State.freeEntry s g k x) :=
  .foldl (fun _ _ h => .recount (.of_mem h rfl)) (.of_mem h rfl)

theorem CanonicalNext.execEngineOpComplete {g k} (h : Canonical s) : CanonicalNext (execEngineOpComplete g k s) := by
  dsimp only [Machine.execEngineOpComplete]
  refine .next ?_
  split
  · exact .ite (.ownRequest (.freeEntry h)) h
  · exact h

theorem Canonical.failEntry {g k x parked cause a1 a2} (h : Canonical s) :
    Canonical (State.failEntry s g k x parked cause a1 a2) :=
  .deferFault (.freeEntry h)

theorem CanonicalNext.execMldFailure {g k} (h : Canonical s) : CanonicalNext (execMldFailure g k s) := by
  dsimp only [Machine.execMldFailure]
  refine .next ?_
  split
  · split
    · exact .failEntry h
    · exact h
  · exact h

theorem CanonicalNext.execMldStrictFmtf {g k} (h : Canonical s) : CanonicalNext (execMldStrictFmtf g k s) := by
  dsimp only [Machine.execMldStrictFmtf]
  refine .next ?_
  split
  · split
    · exact .failEntry h
    · exact h
  · exact h

/-! ### Queues, placement and retirement -/

theorem Canonical.fqDevice {stack c cause addr1 addr2} (h : Canonical s) :
    Canonical (State.fqDevice s stack c cause addr1 addr2) :=
  .fqWrite (.keep (State.errorIrq_mem ..) h)

theorem Canonical.reportQueue {stack c q} (h : Canonical s) : Canonical (State.reportQueue s stack c q) := by
  dsimp only [State.reportQueue]
  refine .ite h ?_
  split
  · exact .touchRange (.ite h (.of_mem h rfl))
  · exact .ite h (.ite (.fqDevice h) (.keep (State.modCtx_mem ..) (.fqDevice h)))
  · exact .ite h (.ite (.fqDevice h) (.keep (State.modCtx_mem ..) (.fqDevice h)))

theorem Canonical.consume {stack c q} (h : Canonical s) : Canonical (State.consume s stack c q).2 := by
  unfold State.consume
  extract_lets hd addr key link check rcd s₁ s₂ s₃ drop
  clear_value check link
  have h₁ : Canonical s₁ := by
    unfold s₁
    split
    · exact .touchRange h
    · exact h
  have h₂ : Canonical s₂ := .devicePut h₁
  have h₃ : Canonical s₃ := .of_mem h₂ rfl
  have hdrop : Canonical (drop s₃) := by
    unfold drop
    split
    · exact .of_mem h₃ rfl
    · exact h₃
  clear_value drop
  split
  · exact .fqDevice hdrop
  · exact .fqDevice hdrop
  · split
    · exact .fqDevice hdrop
    · clear_value s₃
      split
      next id u hu =>
        have : Canonical u := by
          split at hu
          · cases hu
            exact h₃
          · cases hu
            exact .of_mem h₃ rfl
        exact .of_mem this rfl

theorem CanonicalNext.execQueueRecordConsume {c q} (h : Canonical s) :
    CanonicalNext (execQueueRecordConsume c q s) := by
  dsimp only [Machine.execQueueRecordConsume]
  refine .next (.ite h ?_)
  split
  · exact .ite (.keep (State.endVisits_mem ..) (.consume (.reportQueue h))) (.reportQueue h)
  · exact .reportQueue h

theorem Canonical.addWg {gid r core wgid lo hi splits cluster slot} (h : Canonical s) :
    Canonical (State.addWg s gid r core wgid lo hi splits cluster slot).2 := by
  unfold State.addWg
  exact .keep (State.addTeams_mem ..) (.l1Sync (.of_mem h rfl))

theorem Canonical.addCluster {gid r e first count} (h : Canonical s) :
    Canonical (State.addCluster s gid r e first count) :=
  .foldl (fun _ _ h => .keep (State.modCluster_mem ..) (.addWg h)) (.of_mem h rfl)

theorem Canonical.placeHeld {c} (h : Canonical s) : Canonical (State.placeHeld s c) := by
  dsimp only [State.placeHeld]
  split
  · exact h
  · split
    · split
      · exact .of_mem h rfl
      · split
        · exact .keep (State.modCtx_mem ..) (.addWg h)
        · exact h
    · split
      · exact .of_mem h rfl
      · refine .ite ?_ ?_
        · split
          · exact .keep (State.modCtx_mem ..) (.addCluster h)
          · exact h
        · split
          · exact .keep (State.modCtx_mem ..) (.addWg h)
          · exact h

theorem Canonical.takeUnit {stack c q} (h : Canonical s) : Canonical (State.takeUnit s stack c q).2 := by
  unfold State.takeUnit
  extract_lets old
  split
  · exact .of_mem h rfl
  split
  · exact .of_mem h rfl
  have hc := h.consume (stack := stack) (c := c) (q := q)
  split
  next id u hu =>
    rw [hu] at hc
    split
    · exact .of_mem hc rfl
    · exact hc
  next u hu =>
    rw [hu] at hc
    exact hc

theorem Canonical.draw {stack c} (h : Canonical s) : Canonical (State.draw s stack c) := by
  dsimp only [State.draw]
  split
  · exact .keep (State.modCtx_mem ..) (.foldl (fun _ _ h => .reportQueue h) h)
  · exact .keep (State.modCtx_mem ..) (.takeUnit (.keep (State.modCtx_mem ..) (.foldl
      (fun _ _ h => .reportQueue h) h)))

theorem CanonicalNext.execContextChoice {st} (h : Canonical s) : CanonicalNext (execContextChoice st s) := by
  refine .next ?_
  split
  · exact h
  next p hp =>
    extract_lets room cands
    split
    next at' left hrr =>
      split
      · extract_lets turns s₁
        have h₁ : Canonical s₁ := .placeHeld (.draw h)
        clear_value s₁
        exact .of_mem h₁ rfl
      · exact h

theorem Canonical.standOn {wid core} (h : Canonical s) : Canonical (State.standOn s wid core) := by
  unfold State.standOn
  extract_lets s₁ s₂ s₃
  have h₂ : Canonical s₂ :=
    .keep (State.seat_mem ..) (.foldl (fun _ _ h => .ite h (.keep (State.reenter_mem ..) h)) (.of_mem h rfl))
  have h₃ : Canonical s₃ := .l1Sync h₂
  exact .of_mem h₃ rfl

theorem Canonical.restoreOne {wid core} (h : Canonical s) : Canonical (State.restoreOne s wid core) := by
  dsimp only [State.restoreOne]
  split
  · exact h
  · exact .standOn (.keep (State.modWg_mem ..) (.foldl (fun _ _ h => .keep (State.restartSlots_mem ..) (.keep
      (State.loadImage_mem ..) h)) (.keep (State.loadParkedAll_mem ..) (.of_mem h rfl))))

theorem Canonical.placeSaved {c wid w} (h : Canonical s) : Canonical (State.placeSaved s c wid w) := by
  dsimp only [State.placeSaved]
  split
  · exact h
  · split
    · split
      · exact h
      · exact .keep (State.countEvent_mem ..) (.keep (State.modCtx_mem ..) (.foldl (fun _ _ h => .restoreOne h)
          (.of_mem h rfl)))
    · split
      · exact .keep (State.countEvent_mem ..) (.keep (State.modCtx_mem ..) (.restoreOne h))
      · exact h

theorem CanonicalNext.execPlacement {c k} (h : Canonical s) : CanonicalNext (execPlacement c k s) := by
  dsimp only [Machine.execPlacement]
  refine .next (.ite h (.ite (.ite (.placeHeld h) h) ?_))
  split
  · exact .ite (.placeSaved h) h
  · exact .ite (.keep (State.swapIn_mem ..) h) h
  · exact h

theorem CanonicalNext.physStore {a bytes} (h : Canonical s) : CanonicalNext (State.physStore s a bytes) :=
  .ite .fault (.next (.physPut h))

theorem CanonicalNext.writeParts {base ps} (h : Canonical s) : CanonicalNext (State.writeParts s base ps) := by
  induction ps generalizing s with
  | nil => exact .next h
  | cons p ps ih =>
    have hp := CanonicalNext.physStore (a := base + p.1) (bytes := p.2) h
    unfold State.writeParts
    split
    next u hu => exact ih (hp.next_wf _ hu)
    · exact hp

theorem CanonicalNext.execTeamSwapOut {t} (h : Canonical s) : CanonicalNext (execTeamSwapOut t s) := by
  unfold Machine.execTeamSwapOut
  split
  · exact .next h
  extract_lets es resident c base ps operands image s₁ s₂
  have h₁ : Canonical s₁ := .of_mem h rfl
  have h₂ : Canonical s₂ := .foldl (fun _ _ h => .keep (State.modEnt_mem ..) h) h₁
  refine .ite (.next h) ?_
  split
  · exact .next h₂
  · exact .writeParts (.of_mem h₂ rfl)

theorem Canonical.retireGrid {gid} (h : Canonical s) : Canonical (State.retireGrid s gid) := by
  unfold State.retireGrid
  split
  · exact h
  extract_lets x halves held stack hd s₁
  have h₁ : Canonical s₁ := by
    unfold s₁
    split
    · exact .devicePut h
    · exact .reportQueue h
  exact .ite h (.ite (.of_mem h₁ rfl) (.of_mem h₁ rfl))

theorem CanonicalNext.execWorkgroupRetire {w} (h : Canonical s) : CanonicalNext (execWorkgroupRetire w s) := by
  refine .next ?_
  split
  · exact h
  next x hx =>
    refine .ite h ?_
    extract_lets s₁ s₂ reset s₃
    have h₁ : Canonical s₁ := .l1Sync (.of_mem h rfl)
    have h₂ : Canonical s₂ := .of_mem h₁ rfl
    have h₃ : Canonical s₃ := by
      unfold s₃
      split
      · split
        · exact .ite (.of_mem h₂ rfl) h₂
        · exact h₂
      · exact h₂
    exact .retireGrid h₃

theorem CanonicalNext.execHang {t} (h : Canonical s) : CanonicalNext (execHang t s) := by
  dsimp only [Machine.execHang]
  refine .next ?_
  split
  · exact .ite h (.settle (.keep (State.modTeam_mem ..) (.keep (State.markFaulted_mem ..) (.fqFault h))))
  · exact h

theorem CanonicalNext.execSampleTick {x} (h : Canonical s) : CanonicalNext (execSampleTick x s) := by
  refine .next (.ite h ?_)
  extract_lets s₁ cool
  have h₁ : Canonical s₁ :=
    .keep (State.emergency_mem ..) (.keep (State.govern_mem ..) (.keep (State.sampleCaps_mem ..) (.keep
      (State.sampleColumns_mem ..) h)))
  exact .of_mem h₁ rfl

theorem CanonicalNext.execEmergencyRelease (h : Canonical s) : CanonicalNext (execEmergencyRelease s) := by
  refine .next (.ite ?_ h)
  extract_lets s₁
  have h₁ : Canonical s₁ := .keep (State.originate_mem ..) (.keep (State.liftCaps_mem ..) h)
  exact .keep (State.emergencyIrq_mem ..) (.of_mem h₁ rfl)

theorem CanonicalNext.execNoticeReceive {l n} (h : Canonical s) : CanonicalNext (execNoticeReceive l n s) := by
  refine .next (.ite h ?_)
  extract_lets s₁ s₂ was p lifted s₃ halved s₄
  have h₂ : Canonical s₂ := .keep (State.sendNotice_mem ..) (.of_mem h rfl)
  have hl : Canonical lifted := .keep (State.liftCaps_mem s₂) h₂
  have hh : Canonical halved := .keep (State.halveClocks_mem s₂) h₂
  clear_value s₂ lifted halved
  have h₃ : Canonical s₃ := .of_mem hl rfl
  have h₄ : Canonical s₄ := .of_mem hh rfl
  clear_value s₃ s₄
  exact .ite (.ite (.of_mem h₂ rfl) (.ite (.keep (State.emergencyIrq_mem ..) h₃) h₃))
    (.ite h₄ (.keep (State.emergencyIrq_mem ..) h₄))

theorem CanonicalNext.execMigrationStart {w y} (h : Canonical s) : CanonicalNext (execMigrationStart w y s) := by
  dsimp only [Machine.execMigrationStart]
  refine .next ?_
  split
  · exact h
  · exact .ite h (.ite (.ite (.ite (.keep (State.deferMove_mem ..) h) (.ite (.keep (State.startMove_mem ..) h)
      (.keep (State.setPlaces_mem ..) h))) (.keep (State.setPlaces_mem ..) h)) (.ite (.ite (.keep
      (State.deferMove_mem ..) h) (.ite (.keep (State.startMove_mem ..) h) (.keep (State.setPlaces_mem ..) h))) h))

theorem CanonicalNext.execMigrationArrival {w} (h : Canonical s) : CanonicalNext (execMigrationArrival w s) := by
  refine .next ?_
  split
  · exact h
  next x hx =>
    split
    · extract_lets ws gone new s₁
      have h₁ : Canonical s₁ := by
        unfold s₁
        split
        · exact .keep (State.moveEngine_mem ..) h
        · exact h
      refine .ite h (.foldl (fun u k h => ?_) h₁)
      split
      · exact .standOn (.of_mem h rfl)
      · exact h
    · exact h

theorem CanonicalNext.execSmLoopPass {ts gs} (h : Canonical s) : CanonicalNext (execSmLoopPass ts gs s) := by
  refine .next ?_
  extract_lets s₁ s₂
  have h₁ : Canonical s₁ := .foldl (fun _ _ h => .keep (State.islandTarget_mem ..) h) h
  have h₂ : Canonical s₂ := .foldl (fun _ _ h => .ite (.keep (State.modEngine_mem ..) h) h) h₁
  exact .of_mem h₂ rfl

theorem CanonicalNext.execSmhbTimeout (h : Canonical s) : CanonicalNext (execSmhbTimeout s) :=
  .next (.ite h (.keep (State.mapIslands_mem ..) (.of_mem h rfl)))

theorem CanonicalNext.execFrequencySwitch {i} (h : Canonical s) : CanonicalNext (execFrequencySwitch i s) := by
  dsimp only [Machine.execFrequencySwitch]
  refine .next ?_
  split
  · exact .of_mem h rfl
  · exact .of_mem h rfl
  · exact h

/-! ### Host, link and save events -/

theorem CanonicalNext.portRequest {p v} (h : Canonical s) : CanonicalNext (State.portRequest s p v) :=
  .next (.ite (.semRequest h) h)

theorem CanonicalNext.portWrite {p a v} (h : Canonical s) : CanonicalNext (State.portWrite s p a v) :=
  .next (.ite (.privWrite h) h)

theorem CanonicalNext.thenNext {o f} (ho : CanonicalNext o) (hf : ∀ u, Canonical u → CanonicalNext (f u)) :
    CanonicalNext (thenNext o f) := by
  unfold Machine.thenNext
  split
  · exact hf _ (ho.next_wf _ rfl)
  · exact .fault
  · exact .refused

theorem CanonicalNext.saveOne {wid engine} (h : Canonical s) : CanonicalNext (State.saveOne s wid engine) := by
  dsimp only [State.saveOne]
  split
  · exact .next h
  · split
    · exact .next (.keep (State.modWg_mem ..) (.keep (State.saveTeams_mem ..) (.l1Sync h)))
    · exact .writeParts (.of_mem (.keep (State.saveTeams_mem ..) (.l1Sync h)) rfl)

theorem CanonicalNext.saveAll {engine ws} (h : Canonical s) : CanonicalNext (State.saveAll s engine ws) := by
  induction ws generalizing s engine with
  | nil => exact .next h
  | cons w ws ih => exact .thenNext (.saveOne h) fun _ h => ih h

theorem CanonicalNext.execWorkgroupSave {w} (h : Canonical s) : CanonicalNext (execWorkgroupSave w s) := by
  dsimp only [Machine.execWorkgroupSave]
  split
  · exact .next h
  · refine .ite (.next h) ?_
    split
    · exact .saveAll (.keep (State.countEvent_mem ..) h)
    · exact .saveAll (.keep (State.modEngine_mem ..) (.keep (State.setEngine_mem ..) (.keep
        (State.countEvent_mem ..) h)))

theorem CanonicalNext.execContextSaveComplete {c} (h : Canonical s) : CanonicalNext (execContextSaveComplete c s) :=
  .ite (.next h) (.thenNext (.physStore h) fun _ h => .next (.of_mem h rfl))

theorem CanonicalNext.execGranuleTag {c} (h : Canonical s) : CanonicalNext (execGranuleTag c s) := by
  refine .next ?_
  extract_lets x stack va s₁ s₂
  have h₁ : Canonical s₁ := .touch h
  have h₂ : Canonical s₂ := by
    unfold s₂
    split
    · exact .ite (.of_mem h₁ rfl) h
    · exact h
  exact .ite h (.keep (State.modCtx_mem ..) h₂)

theorem CanonicalNext.execAttestationComplete (h : Canonical s) : CanonicalNext (execAttestationComplete s) :=
  .ite (.next h) (.thenNext (.physStore h) fun _ h => .next (.of_mem h rfl))

theorem CanonicalNext.execHostAccess {x} (h : Canonical s) : CanonicalNext (execHostAccess x s) := by
  dsimp only [Machine.execHostAccess]
  refine .next (.ite h (.ite (.ite (.keep (State.irq_mem ..) h) h) (.ite (.foldl (fun _ _ h => .devicePut h) h) ?_)))
  split
  · exact .storeBytes (.of_mem (.foldl (fun _ _ h => .l1Evict (.touch h)) h) rfl)
  · exact .of_mem (.foldl (fun _ _ h => .l1Evict (.touch h)) h) rfl

theorem CanonicalNext.execCredBlock {x} (h : Canonical s) : CanonicalNext (execCredBlock x s) := by
  dsimp only [Machine.execCredBlock]
  refine .next ?_
  split
  · exact h
  · exact .ite h (.of_mem h rfl)

theorem Canonical.send {m} (h : Canonical s) : Canonical (State.send s m) := by
  dsimp only [State.send]
  split
  · exact .of_mem h rfl
  · exact .storeByte h
  · exact .deviceSend h

theorem Canonical.sendWaiting (h : Canonical s) : Canonical (State.sendWaiting s) :=
  .foldl (fun _ _ h => .send h) (.of_mem h rfl)

theorem CanonicalNext.execLinkKeying {l} (h : Canonical s) : CanonicalNext (execLinkKeying l s) :=
  .next (.ite h (.sendWaiting (.keep (State.modLink_mem ..) h)))

theorem CanonicalNext.execDescriptorPublish {x} (h : Canonical s) : CanonicalNext (execDescriptorPublish x s) := by
  refine .next (.ite h ?_)
  extract_lets seq d s₁
  have h₁ : Canonical s₁ := .ite (.keep (State.startIslands_mem s) h) h
  exact .of_mem h₁ rfl

theorem Canonical.holdSlice {k sl gone} (h : Canonical s) : Canonical (State.holdSlice s k sl gone) := by
  dsimp only [State.holdSlice]
  split
  · exact .of_mem h rfl
  · exact .foldl (fun _ _ h => .fqFault h) (.of_mem h rfl)

theorem Canonical.touchPieces {c ps} (h : Canonical s) : Canonical (State.touchPieces s c ps) :=
  .foldl (fun _ _ h => .touch h) h

theorem Canonical.observeIssuers {c} (h : Canonical s) : Canonical (State.observeIssuers s c) := by
  dsimp only [State.observeIssuers]
  refine .foldl (fun _ _ h => ?_) h
  split
  · exact .observe h
  · exact h

theorem Canonical.credStep {k c sl} (h : Canonical s) : Canonical (State.credStep s k c sl) := by
  unfold State.credStep
  split
  next r o hplace =>
    refine .ite ?_ ?_
    · extract_lets bs s₁
      have h₁ : Canonical s₁ := .of_mem h rfl
      split
      · split
        · split
          · exact .keep (State.sendRank_mem ..) h₁
          · exact h₁
        · exact h₁
      · exact h₁
    · split
      · exact h
      next bytes flags hres =>
        refine .keep (State.modSlice_mem ..) ?_
        split
        · exact .storeBytes h
        · exact h

theorem Canonical.granuleWrite {c r o bs} (h : Canonical s) : Canonical (State.granuleWrite s c r o bs) := by
  dsimp only [State.granuleWrite]
  split
  · split
    · exact .ite (.foldl (fun _ _ h => .ite h (.storeByte h)) h) (.storeBytes h)
    · exact h
  · exact .foldl (fun _ _ h => .spaceWrite h) h
  · exact .spaceWrite h

theorem Canonical.sliceStep {k i} (h : Canonical s) : Canonical (State.sliceStep s k i) := by
  unfold State.sliceStep
  split
  · exact h
  split
  · exact h
  next c hc sl hsl =>
    split
    next r o hplace =>
      extract_lets ps gone new s₁ s₂
      have h₁ : Canonical s₁ := .touchPieces (.observeIssuers h)
      have h₂ : Canonical s₂ := .ite (.credStep h₁) (.keep (State.modSlice_mem ..) (.granuleWrite h₁))
      exact .ite h (.ite (.holdSlice h) (.ite h (.ite (.keep (State.joinCred_mem ..) h₁) (.ite h (.ite
        (.ownRequest h₂) h₂)))))

theorem Canonical.observeTeams {x} (h : Canonical s) : Canonical (State.observeTeams s x) := by
  dsimp only [State.observeTeams]
  refine .ite (.foldl (fun _ _ h => ?_) h) h
  split
  · exact .observe h
  · exact h

theorem Canonical.holdEntry {g k x a} (h : Canonical s) : Canonical (State.holdEntry s g k x a) := by
  dsimp only [State.holdEntry]
  refine .ite h ?_
  split
  · exact .fqFault (.of_mem h rfl)
  · exact .of_mem h rfl

theorem Canonical.engineStep {g k} (h : Canonical s) : Canonical (State.engineStep s g k) := by
  unfold State.engineStep
  split
  · exact h
  refine .ite h ?_
  split
  · extract_lets i n last close a s₁
    have h₁ : Canonical s₁ := .ite h (.observeTeams h)
    have hclose : ∀ u, Canonical u → Canonical (close u) := fun u hu => .ite (.of_mem hu rfl) hu
    clear_value close
    split
    · split
      next st c hplace =>
        refine .ite h₁ ?_
        split
        · exact .ite h₁ (hclose _ (.keep (State.loadInto_mem ..) (.touch h₁)))
        · exact .holdEntry h₁
    · exact .ite (hclose _ (.of_mem h rfl)) h
    · exact .ite (hclose _ (.of_mem h rfl)) h
  · exact .ite h (.keep (State.modEntry_mem ..) (.spaceWrite h))
  · exact h

theorem CanonicalNext.execDestinationWrite {x} (h : Canonical s) : CanonicalNext (execDestinationWrite x s) := by
  dsimp only [Machine.execDestinationWrite]
  refine .next ?_
  split
  · exact .sliceStep h
  · exact .engineStep h

theorem Canonical.savedNow {wid w} (h : Canonical s) : Canonical (State.savedNow s wid w) :=
  .keep (State.modCtx_mem ..) (.keep (State.modWg_mem ..) (.recordWrite h))

theorem CanonicalNext.execSaveBlockTransfer {w} (h : Canonical s) : CanonicalNext (execSaveBlockTransfer w s) := by
  dsimp only [Machine.execSaveBlockTransfer]
  refine .next ?_
  split
  · exact h
  · split
    · exact .ite (.savedNow h) (.ite (.savedNow (.keep (State.modWg_mem ..) (.recordWrite h))) (.keep
        (State.modWg_mem ..) (.recordWrite h)))
    · exact .ite h (.of_mem h rfl)
    · exact .ite h (.ite (.of_mem h rfl) (.ite (.keep (State.restoredNow_mem ..) (.keep (State.modWg_mem ..) (.keep
        (State.loadBlock_mem ..) h))) (.keep (State.modWg_mem ..) (.keep (State.loadBlock_mem ..) h))))
    · exact h

/-! ### Every instruction and every step -/

/-- Every instruction and every event keeps the one form: its arm reduces to the shared operation it is made of. -/
theorem CanonicalNext.exec {i} (h : Canonical s) : CanonicalNext (exec i s) := by
  unfold Machine.exec
  cases i with
  | iadd | isub | imul | imulhI32 | imulhN32 | imad | iminI32 | imaxI32 | iminN32 | imaxN32 | iabs | ineg | and |
    or | xor | not | andn | shl | shr | sar | bfeI | bfeN | bfi | popc | clz | brev | bperm =>
    exact .raw3 h
  | sadd | ssub | smul | smulhI | smulhN | sminI | smaxI | sminN | smaxN | sand | sor | sxor | sshl | sshr | ssar
    | sbfeI | sbfeN | sbfi | scmpEq | scmpLtI | scmpLtN =>
    exact .scalar3 h
  | cvtF32F16 | cvtF32Bf16 | cvtF32E4m3 | cvtF32E5m2 | cvtF16F32 | cvtBf16F32 | cvtE4m3F32 | cvtE5m2F32 |
    cvtF32I32 | cvtF32N32 | cvtI32F32 | cvtN32F32 | cvtI32I8 | cvtI32N8 | cvtI8I32 | cvtN8I32 =>
    exact .cvt32 h
  | rel | dzHb | create | suspend | resume | tear | hostRqrel | tagCountWrite | attestationRequest | stop |
    debugResume | step | stepall | debugEdit | debugRevoke | clr =>
    exact .portWrite h
  | cvtpk | cvtup | frcp | frsq | fexp2 | flog2 | fsin | fcos | ftanh | fsigm | mov | defabs | mkg | movi | stov =>
    exact .withCur h fun _ => .vec h
  | mres | mfree | mld | mscl | mls | mswap | mma | mdrain | mtab | mzero | mfill | mredAdd =>
    exact .engineWord h
  | spopc | sclz | saddi | sandi | sori | sxori | sshli | sshri | ssari | scmpiLt =>
    exact .scalar1 h
  | aadd | amin | amax | aand | aor | axor | axch | acas | aacc | ainc =>
    exact .globalAtomic h
  | aaddSpace | aminSpace | amaxSpace | aandSpace | aorSpace | axorSpace | axchSpace | acasSpace | aaccSpace |
    aincSpace =>
    exact .spaceAtomic h
  | cpyG2s | cpyG2c | cpyG2t | cpyS2g | cpyC2s | cpyS2c | cpym | cpyx | cpyg | cred =>
    exact .copyWord h
  | iaddi | andi | ori | xori | shli | shri | sari =>
    exact .rawImm h
  | bandRailWake | bandRailGate | voltageRampDone | settleDone | leaseLapse | preemptionTimeout | tearComplete =>
    exact .next (.ite (.of_mem h rfl) h)
  | faddF32 | fsubF32 | fmulF32 | fminF32 | fmaxF32 | fdivF32 =>
    exact .fbin32 h
  | faddF64 | fsubF64 | fmulF64 | fminF64 | fmaxF64 | fdivF64 =>
    exact .fbin64 h
  | iaddV | isubV | imulV | iminV | imaxV | iabsV =>
    exact .valOp h
  | bra | bany | ball | bnz | bz | jmp =>
    exact .withCur h fun _ => .choose h
  | faddF16Bf16 | fsubF16Bf16 | fmulF16Bf16 | fminF16Bf16 | fmaxF16Bf16 =>
    exact .fbinHalf h
  | faddFp8 | fsubFp8 | fmulFp8 | fminFp8 | fmaxFp8 =>
    exact .fbin8 h
  | fabsF32 | fnegF32 | fsatF32 | frndF32 | fsqrtF32 =>
    exact .fone32 h
  | fabsF64 | fnegF64 | fsatF64 | frndF64 | fsqrtF64 =>
    exact .fone64 h
  | wredAddF32 | wredMaxF32 | wredAddI32 | wscanAddF32 | wscanAddI32 =>
    exact .reduceWord h
  | fabsF16Bf16 | fnegF16Bf16 | fsatF16Bf16 | frndF16Bf16 =>
    exact .foneHalf h
  | fdot2F16 | fdot2Bf16 | fdot4E4m3 | fdot4E5m2 =>
    exact .fdot h
  | idot4Ii | idot4In | idot4Ni | idot4Nn =>
    exact .fidot h
  | fcmp | icmpI32 | icmpN32 | tabs =>
    exact .compare h
  | shfl | shflup | shfldn | shflx =>
    exact .shuffle h
  | bcast | lanes | sel | toabs =>
    exact .withCur h fun _ => .laneWrite h
  | gtag | smovi | bdset | slui =>
    exact .withCur h fun _ => .teamWord h
  | ldsp | ldcl | ldst | ldlp =>
    exact .spaceLoad h
  | stsp | stcl | stst | stlp =>
    exact .spaceStore h
  | fabsFp8 | fnegFp8 | fsatFp8 =>
    exact .fone8 h
  | ffmaF32 | ffmsF32 | ffnmaF32 =>
    exact .ffused32 h
  | ballot | vany | vall =>
    exact .crossPred h
  | sadd64 | ssub64 | sshl64 =>
    exact .scalar64 h
  | loadComplete | storeComplete | atomicPerform =>
    exact .next (.performKind h)
  | ffmaF16 | ffmaBf16 =>
    exact .ffusedHalf h
  | cvtF64F32 | cvtF32F64 =>
    exact .withCur h fun _ => .vecEnd h
  | bpt | bpf =>
    exact .withCur h fun _ => .perLane h
  | loop | loopi =>
    exact .withCur h fun _ => .openLoop h
  | wgbar | commit =>
    exact .withCur h fun _ => .rendezvous h
  | ldg | stg =>
    exact .withCur h fun _ => .vecAccess h
  | ldb | stb =>
    exact .withCur h fun _ => .buffer h
  | sld | sst =>
    exact .withCur h fun _ => .access h
  | flitAuthFailure | linkLevelRetry =>
    exact .next (.keep (State.modLink_mem ..) h)
  | ffmaF64 => exact .withCur h fun _ => .vec64 h
  | tunpk => exact .withCur h (fun _ => .ite (.raiseWith h) (.vecEnd h))
  | plog => exact .withCur h fun _ => .predWord h
  | srd => exact .execSrd h
  | swr => exact .execSwr h
  | vtos => exact .execVtos h
  | smovw => exact .withCur h fun _ => .advance (.of_mem h rfl)
  | lbrk => exact .execLbrk h
  | nop => exact .withCur h fun _ => .advance h
  | rcv => exact .execRcv h
  | call => exact .withCur h fun _ => .call h
  | callr => exact .withCur h (fun _ => .ite (.raise h) (.call h))
  | ret => exact .execRet h
  | jr => exact .withCur h (fun _ => .ite (.raise h) (.branch h))
  | yield => exact .withCur h fun _ => .finish (.of_mem h rfl)
  | yieldc => exact .execYieldc h
  | exit => exact .execExit h
  | trap => exact .withCur h fun _ => .raiseWith h
  | wait => exact .execWait h
  | barinit => exact .execBarinit h
  | barexp => exact .execBarexp h
  | bararr => exact .execBararr h
  | barwait => exact .execBarwait h
  | bartry => exact .execBartry h
  | ringinit => exact .execRinginit h
  | awaitf => exact .execAwaitf h
  | rels => exact .execRels h
  | fence => exact .execFence h
  | cprf => exact .execCprf h
  | cflush => exact .execCflush h
  | cpycan => exact .execCpycan h
  | mgang => exact .execMgang h
  | mshape => exact .withCur h (fun _ => .ite (.illop h) (.teamWord h))
  | mscanAdd => exact .execMscanAdd h
  | launch => exact .execLaunch h
  | spgrow => exact .execSpgrow h
  | lpgrow => exact .execLpgrow h
  | qwait => exact .execQwait h
  | allow => exact .execAllow h
  | tret => exact .execTret h
  | pcsrr => exact .execPcsrr h
  | pcsrw => exact .execPcsrw h
  | tinv => exact .execTinv h
  | rqrel => exact .execRqrel h
  | hlt => exact .withCur h (fun _ => .ite (.holdAt h) (.teamWord h))
  | brk => exact .execBrk h
  | tmark => exact .withCur h (fun _ => .advance (.ite (.marker h) h))
  | clauseIssue => exact .execClauseIssue h
  | issueWaitLimit => exact .execIssueWaitLimit h
  | ydl => exact .execYdl h
  | deferralSwitch => exact .execDeferralSwitch h
  | replayStallResume => exact .execReplayStallResume h
  | parkedAccessReplay => exact .execParkedAccessReplay h
  | heldSliceIssue => exact .retryHeld h fun _ _ h => .retryCopy h
  | copyComplete => exact .execCopyComplete h
  | copyFailure => exact .execCopyFailure h
  | credComplete => exact .execCredComplete h
  | engineDeferredAccept => exact .retryHeld h fun _ _ h => .retryEngine h
  | arbiterGrant => exact .execArbiterGrant h
  | arbiterAgeLimit => exact .execArbiterAgeLimit h
  | mswapBandSwap => exact .execMswapBandSwap h
  | engineOpComplete => exact .execEngineOpComplete h
  | mldFailure => exact .execMldFailure h
  | mldStrictFmtf => exact .execMldStrictFmtf h
  | queueRecordConsume => exact .execQueueRecordConsume h
  | contextChoice => exact .execContextChoice h
  | placement => exact .execPlacement h
  | teamSwapOut => exact .execTeamSwapOut h
  | workgroupRetire => exact .execWorkgroupRetire h
  | hang => exact .execHang h
  | sampleTick => exact .execSampleTick h
  | emergencyRelease => exact .execEmergencyRelease h
  | noticeReceive => exact .execNoticeReceive h
  | migrationStart => exact .execMigrationStart h
  | migrationArrival => exact .execMigrationArrival h
  | smLoopPass => exact .execSmLoopPass h
  | smhbTimeout => exact .execSmhbTimeout h
  | islandTarget => exact .next (.keep (State.islandTarget_mem ..) h)
  | frequencySwitch => exact .execFrequencySwitch h
  | acq => exact .portRequest h
  | privRegisterWrite => exact .ite (.portRequest h) (.portWrite h)
  | workgroupSave => exact .execWorkgroupSave h
  | contextSaveComplete => exact .execContextSaveComplete h
  | granuleTag => exact .execGranuleTag h
  | attestationComplete => exact .execAttestationComplete h
  | stopSettled => exact .next (.stepNext (.keep (State.settleStop_mem ..) h))
  | traceFrame => exact .next (.ite (.frame h) h)
  | histogramRequest => exact .next (.histogramRequest h)
  | hostAccess => exact .execHostAccess h
  | credBlock => exact .execCredBlock h
  | linkKeying => exact .execLinkKeying h
  | patrolScrub => exact .next (.ite (.of_mem h rfl) (.ite h (.of_mem h rfl)))
  | reset => exact .next ⟨filter_wf h.wf _⟩
  | descriptorPublish => exact .execDescriptorPublish h
  | destinationWrite => exact .execDestinationWrite h
  | saveBlockTransfer => exact .execSaveBlockTransfer h

theorem CanonicalNext.runWord {k} (h : Canonical s) : CanonicalNext (State.runWord s k) := by
  dsimp only [State.runWord]
  split
  · exact .next h
  · split
    · exact .ite (.next h) (.exec (.of_mem h rfl))
    · exact .next h

theorem CanonicalNext.attempt {t} (h : Canonical s) : CanonicalNext (State.attempt s t) := by
  cases t with
  | row i => exact .exec h
  | word e => exact .runWord h
  | step q e => exact .thenNext (.runWord h) fun _ h => .next (.of_mem h rfl)

theorem CanonicalNext.effective {t o} (h : Canonical s) (e : s.effective t = some o) : CanonicalNext o := by
  have ht := CanonicalNext.attempt (t := t) h
  unfold State.effective at e
  split at e
  next u hu =>
    split at e
    · cases e
    · cases e
      exact .next (ht.next_wf _ hu)
  · cases e
    exact ht

theorem CanonicalNext.firstOf {ts o} (h : Canonical s) (e : s.firstOf ts = some o) : CanonicalNext o := by
  induction ts with
  | nil => cases e
  | cons t ts ih =>
    unfold State.firstOf at e
    split at e
    next o' he =>
      cases e
      exact .effective h he
    · exact ih e

/-- A step that finds nothing to do only lets time pass, and a tick does not touch memory. -/
theorem CanonicalNext.rotate {fuel k} (h : Canonical s) : CanonicalNext (State.rotate s fuel k) := by
  induction fuel generalizing k with
  | zero => exact .next (.of_mem h (State.tick_mem s))
  | succ fuel ih =>
    unfold State.rotate
    split
    · exact .next (.of_mem h (State.tick_mem s))
    split
    next o he => exact .thenNext (.firstOf h he) fun _ h => .next (.of_mem h rfl)
    · exact ih

theorem CanonicalNext.idleStep (h : Canonical s) : CanonicalNext (State.idleStep s) := .rotate h

/-- One step of the machine keeps the one form of memory. -/
theorem CanonicalNext.step (h : Canonical s) : CanonicalNext (step s) := by
  dsimp only [Machine.step]
  split
  · exact .exec (.of_mem h rfl)
  · split
    · exact .exec h
    · exact .idleStep h

end Sys2Proof.Machine

end

section

/-! PROOF: memory stays in its one form -/

namespace Sys2Proof.Machine

/-- Settles O60: the one form is an invariant of the step, operation by operation. -/
theorem memoryStaysCanonical : Obligations.MemoryStaysCanonical := by
  unfold Obligations.MemoryStaysCanonical
  intro s t hs ht
  exact ((CanonicalNext.step ⟨hs⟩).next_wf t ht).wf

end Sys2Proof.Machine

end

section

/-! SUPPORT: reads of the special registers (R52, R53, R190), and writes of FLAGS and of MODE (R54, R55) -/

namespace Sys2Proof.Machine

open Sys2Proof.Claims

variable {s : State} {c : Cur}

/-- A number that is neither word of a two-word register reads its one word. -/
theorem exec_srd_oneWord (hs : Standing s c) (d : BitVec 6) (n : BitVec 12) (hn : s.wideReg c.t n.toNat = none)
    (hp : n.toNat = 0 ∨ s.wideReg c.t (n.toNat - 1) = none) :
    exec (.srd d n) s = .next (scalarDone c s 1 d (BitVec.ofNat 32 (s.specialReg c.e c.t n.toNat))) := by
  have hlow : (if n.toNat = 0 then none else s.wideReg c.t (n.toNat - 1)) = none := by
    rcases hp with h | h <;> simp [h]
  simp only [exec_srd, execSrd, withCur_standing hs, hn, hlow, teamWord_done hs, scalarDone]

/-- A high word reads the top of the entity's snapshot or of the live value (`highWord`). -/
theorem exec_srd_highWord (hs : Standing s c) (d : BitVec 6) (n : BitVec 12) {v : Word64}
    (hn : s.wideReg c.t n.toNat = none) (h0 : n.toNat ≠ 0) (hv : s.wideReg c.t (n.toNat - 1) = some v) :
    exec (.srd d n) s = .next (scalarDone c s 1 d (highWord c.e v (n.toNat - 1))) := by
  simp only [exec_srd, execSrd, withCur_standing hs, hn, if_neg h0, hv, teamWord_done hs, scalarDone]

/-- A low word keeps the whole value in the entity. -/
theorem exec_srd_lowWord (hs : Standing s c) (d : BitVec 6) (n : BitVec 12) {v : Word64}
    (hn : s.wideReg c.t n.toNat = some v) :
    exec (.srd d n) s = .next (c.teamWord (s.modEnt c.eid fun e => { e with snap := some (n.toNat, v) })
      fun t => t.setS d.toNat (v.setWidth 32)) := by
  simp only [exec_srd, execSrd, withCur_standing hs, hn]

theorem highWord_of_snap {e : Entity} {n : Nat} {x : Word64} (h : e.snap = some (n, x)) (live : Word64) :
    highWord e live n = (x >>> 32).setWidth 32 := by
  simp [highWord, h]

theorem highWord_of_no_snap {e : Entity} {n : Nat} (h : ∀ k x, e.snap = some (k, x) → k ≠ n) (live : Word64) :
    highWord e live n = (live >>> 32).setWidth 32 := by
  unfold highWord
  split
  next k x hx => rw [if_neg (h k x hx)]
  · rfl

/-- What a word inside its clause leaves where it changed its team and its own entity. -/
theorem teamWord_modEnt_inside (hs : Standing s c) (h : c.inside 1) (g : Entity → Entity) (f : Team → Team) :
    c.teamWord (s.modEnt c.eid g) f =
      { s with teams := tabPut s.teams c.e.team (f c.t)
               ents := tabPut s.ents c.eid
                 { g c.e with hold := none, issue := (g c.e).issue.map fun i => { i with next := c.i.next + 1 } } } := by
  unfold Cur.teamWord
  rw [advance_inside _ _ h]
  simp [State.modEnt, State.modTeam, tabMod, hs.ent, hs.team, tabPut_put]

theorem specialRegisterReads : Claims.SpecialRegisterReads := by
  intro s c d n hs
  refine ⟨exec_srd_oneWord hs d n, ?low, ?snap, ?live⟩
  case low =>
    intro v hv hin
    have h := exec_srd_lowWord hs d n hv
    rw [teamWord_modEnt_inside hs hin] at h
    exact ⟨_, _, h, tabGet_put_same .., tabGet_put_same .., rfl, by simp [hs.issue]⟩
  case snap =>
    intro v x hn h0 hv hx
    rw [exec_srd_highWord hs d n hn h0 hv, highWord_of_snap hx]
  case live =>
    intro v hn h0 hv hx
    rw [exec_srd_highWord hs d n hn h0 hv, highWord_of_no_snap hx]

/-- The registers of a team in its workgroup and its grid. -/
theorem specialRegs_of_wg {t : Team} {w : Workgroup} {g : Grid} (hw : s.wgOf t = some w) (hg : s.gridOf t = some g)
    (e : Entity) :
    s.specialReg e t 0x02 = w.teams ∧
    (s.specialReg e t 0x03 = w.wgid.x ∧ s.specialReg e t 0x04 = w.wgid.y ∧ s.specialReg e t 0x05 = w.wgid.z) ∧
    (s.specialReg e t 0x08 = w.lo.x ∧ s.specialReg e t 0x09 = w.lo.y ∧ s.specialReg e t 0x0A = w.lo.z) ∧
    (s.specialReg e t 0x0C = w.hi.x ∧ s.specialReg e t 0x0D = w.hi.y ∧ s.specialReg e t 0x0E = w.hi.z) ∧
    s.specialReg e t 0x10 = g.gridId ∧ s.specialReg e t 0x11 = g.depth ∧ s.specialReg e t 0x12 = w.splits := by
  simp [State.specialReg, hw, hg]

theorem clusterSlot_specialReg {t : Team} {w : Workgroup} (hw : s.wgOf t = some w) (e : Entity) :
    s.specialReg e t 0x13 = if w.cluster = none then 0 else 2 ^ 31 + w.clusSlot := by
  cases hc : w.cluster with
  | none => simp [State.specialReg, hw, hc]
  | some k => simp [State.specialReg, hw, hc, Nat.add_comm]

theorem allow_wideReg {t : Team} {w : Workgroup} {g : Grid} (hw : s.wgOf t = some w) (hg : s.gridOf t = some g) :
    s.wideReg t 0x18 =
      some (if w.phase = true then BitVec.ofNat 64 (g.rcd.allow - w.words) else BitVec.allOnes 64) := by
  simp [State.wideReg, State.allowLeft, hw, hg]

/-- A team's counters read their values, but a fabric event reads zero in an unprivileged context (R381, R382). -/
theorem teamCounter_eq (s : State) (t : Team) (k : Nat) : s.teamCounter t k =
    if (s.ctx (s.ctxOf t)).priv = false ∧
      ((s.ctx (s.ctxOf t)).evt.getD k 0 = 0x0E ∨ (s.ctx (s.ctxOf t)).evt.getD k 0 = 0x0F) then 0
    else BitVec.ofNat 64 ((s.ctx (s.ctxOf t)).counters.getD k 0) := by
  simp [State.teamCounter, and_comm]

theorem counter_wideReg (s : State) (t : Team) {k : Nat} (hk : k < 4) :
    s.wideReg t (0x50 + 2 * k) = some (s.teamCounter t k) := by
  interval_cases k <;> rfl

theorem gang_specialReg (s : State) (e : Entity) (t : Team) :
    s.specialReg e t 0x23 = t.gang.elim 0 fun g => 256 + g.toNat := by
  cases h : t.gang with
  | none => simp [State.specialReg, h]
  | some g => simp [State.specialReg, h, Nat.add_comm]

/-- The loop registers read the counts of the valid levels. -/
theorem loop_specialReg (s : State) (e : Entity) (t : Team) {k : Nat} (hk : k < 3) :
    s.specialReg e t (0x40 + k) = (e.loops[k]?).elim 0 fun l => l.count.toNat := by
  interval_cases k <;> rfl

theorem specialRegistersHold : Claims.SpecialRegistersHold := by
  refine ⟨fun s e t w g hw hg => ?_, fun s t k hk => ?_, fun s e t => ?_⟩
  · obtain ⟨h02, h03, h08, h0c, h10, h11, h12⟩ := specialRegs_of_wg hw hg e
    exact ⟨h02, h03, h08, h0c, h10, h11, h12, clusterSlot_specialReg hw e, allow_wideReg hw hg⟩
  · rw [counter_wideReg s t hk, teamCounter_eq]
  · refine ⟨fun h => ?_, fun g h => ?_, fun k hk h => ?_, fun k l hk h => ?_,
      rfl, rfl, rfl, rfl, rfl, rfl, rfl, rfl, rfl, rfl, rfl, rfl, rfl⟩
    · rw [gang_specialReg, h]
      rfl
    · rw [gang_specialReg, h]
      rfl
    · rw [loop_specialReg s e t hk, List.getElem?_eq_none h]
      rfl
    · rw [loop_specialReg s e t hk, h]
      rfl

theorem flagsMask_getLsbD : ∀ b < 32, (0x1FF : Word).getLsbD b = decide (b < 9) := by decide

theorem modeMask_getLsbD : ∀ b < 32, (0x37 : Word).getLsbD b = decide (b ∈ [0, 1, 2, 4, 5]) := by decide

theorem flagsWrite_getLsbD (old w : Word) {b : Nat} (hb : b < 32) :
    (flagsWrite old w).getLsbD b = (decide (b < 9) && old.getLsbD b && w.getLsbD b) := by
  rw [flagsWrite, BitVec.getLsbD_and, BitVec.getLsbD_and, flagsMask_getLsbD b hb, Bool.and_comm, Bool.and_assoc]

theorem modeWrite_getLsbD (w : Word) {b : Nat} (hb : b < 32) :
    (modeWrite w).getLsbD b = (w.getLsbD b && decide (b ∈ [0, 1, 2, 4, 5])) := by
  rw [modeWrite, BitVec.getLsbD_and, modeMask_getLsbD b hb]

theorem flagsWriteClearsWithZero : Claims.FlagsWriteClearsWithZero := by
  intro s c a hs
  refine ⟨flagsWrite c.t.flags (c.t.sreg a.toNat), ?_, fun b hb => flagsWrite_getLsbD _ _ hb⟩
  simp [exec_swr, execSwr, withCur_standing hs, teamWord_done hs]

theorem modeWriteWaitsForClause : Claims.ModeWriteWaitsForClause := by
  intro s c a hs
  refine ⟨modeWrite (c.t.sreg a.toNat), ?_, fun b hb => modeWrite_getLsbD _ hb⟩
  simp only [exec_swr, execSwr, withCur_standing hs, if_true]
  rw [advance_done]
  simp [Cur.modIssue, modEnt_standing hs, hs.issue, team_self hs]

end Sys2Proof.Machine

end

section

/-! PROOF: the special registers -/

namespace Sys2Proof.Machine

/-- Settles O6: the reads, what is read, and the two writes. -/
theorem specialRegisters : Obligations.SpecialRegisters :=
  ⟨specialRegisterReads, specialRegistersHold, flagsWriteClearsWithZero, modeWriteWaitsForClause⟩

end Sys2Proof.Machine

end

section

/-! SUPPORT: tables of bytes, and memory written byte by byte on plaintext lines that the package reaches (R4, R93, R385, R393) -/

namespace Sys2Proof

theorem mem_of_tabGet {α : Type} {t : Tab α} {k : Nat} {x : α} (h : tabGet t k = some x) : (k, x) ∈ t := by
  induction t with
  | nil => simp at h
  | cons p t ih =>
    obtain ⟨j, y⟩ := p
    simp only [tabGet] at h
    split at h
    next hk =>
      cases h
      simp [hk]
    · split at h
      · cases h
      · exact List.mem_cons_of_mem _ (ih h)

theorem tabPut_length_le {α : Type} (t : Tab α) (k : Nat) (x : α) : (tabPut t k x).length ≤ t.length + 1 := by
  induction t with
  | nil => simp [tabPut]
  | cons p t ih =>
    simp only [tabPut]
    split
    · simp
    · split
      · simp
      · simpa using ih

namespace Machine

theorem tabGet_tabStore_outside (t : Tab Byte) (off : Nat) (bs : List Byte) {a : Nat}
    (ha : a < off ∨ off + bs.length ≤ a) : tabGet (tabStore t off bs) a = tabGet t a := by
  induction bs generalizing t off with
  | nil => rfl
  | cons b bs ih =>
    simp only [List.length_cons] at ha
    rw [tabStore, ih _ _ (by omega), tabGet_put_other _ _ (by omega)]

theorem tabGet_tabStore_inside (t : Tab Byte) (off : Nat) (bs : List Byte) {i : Nat} (hi : i < bs.length) :
    tabGet (tabStore t off bs) (off + i) = some bs[i] := by
  induction bs generalizing t off i with
  | nil => simp at hi
  | cons b bs ih =>
    cases i with
    | zero => rw [tabStore, tabGet_tabStore_outside _ _ _ (by omega)]; exact tabGet_put_same ..
    | succ i =>
      rw [tabStore, show off + (i + 1) = off + 1 + i by omega, ih _ _ (by simpa using hi)]
      rfl

/-- Two states agree in what decides where a byte of memory goes, in their teams and in their workgroups. -/
structure State.Alike (s u : State) : Prop where
  lineKey : u.lineKey = s.lineKey
  ports : u.ports = s.ports
  teams : u.teams = s.teams
  wgs : u.wgs = s.wgs

theorem State.Alike.refl (s : State) : s.Alike s := ⟨rfl, rfl, rfl, rfl⟩

theorem State.Alike.trans {s u v : State} (h : s.Alike u) (g : u.Alike v) : s.Alike v :=
  ⟨g.lineKey.trans h.lineKey, g.ports.trans h.ports, g.teams.trans h.teams, g.wgs.trans h.wgs⟩

theorem State.Alike.setL1 (s : State) (col : Nat) (T : Tab Sector) : s.Alike (s.setL1 col T) := ⟨rfl, rfl, rfl, rfl⟩

theorem State.Alike.columnOf {s u : State} (h : s.Alike u) (t : Team) : u.columnOf t = s.columnOf t := by
  simp only [State.columnOf, State.coreOf, State.wgOf, h.wgs]

/-- A byte of a plaintext line that the package reaches. -/
structure State.Plain (s : State) (a : Nat) : Prop where
  key : tabGet s.lineKey (a / 64) = none
  reach : s.reaches a = true
  addr : a < 281474976710656

theorem State.reaches_alike {s u : State} (h : s.Alike u) (a : Nat) : u.reaches a = s.reaches a := by
  simp only [State.reaches, State.hostless, State.portUp, h.ports]

theorem State.Plain.alike {s u : State} {a : Nat} (h : s.Plain a) (hu : s.Alike u) : u.Plain a :=
  ⟨by rw [hu.lineKey]; exact h.key, by rw [State.reaches_alike hu]; exact h.reach, h.addr⟩

/-- A plaintext byte is stored in memory, and clears its poison. -/
theorem State.storeByte_plain {s : State} {a : Nat} (h : s.Plain a) (b : Byte) :
    s.storeByte a b = { s with mem := Memory.write s.mem a b, poison := unpoison s.poison a } := by
  have haddr : physAddr a = a := Nat.mod_eq_of_lt h.addr
  have hkey : physKey a = 0 := Nat.div_eq_of_lt h.addr
  simp [State.storeByte, State.writeByte, State.rekey, h.reach, haddr, hkey, h.key]

theorem State.storeByte_alike {s : State} {a : Nat} (h : s.Plain a) (b : Byte) : s.Alike (s.storeByte a b) := by
  rw [State.storeByte_plain h]
  exact ⟨rfl, rfl, rfl, rfl⟩

theorem State.byteAt_storeByte_same {s : State} {a : Nat} (hw : Canonical s) (h : s.Plain a) (b : Byte) :
    (s.storeByte a b).byteAt a = b := by
  rw [State.storeByte_plain h]
  exact read_write_same hw.wf a b

theorem State.byteAt_storeByte_other {s : State} {a x : Nat} (hw : Canonical s) (h : s.Plain a) (b : Byte)
    (hx : x ≠ a) : (s.storeByte a b).byteAt x = s.byteAt x := by
  rw [State.storeByte_plain h]
  exact read_write_other hw.wf b hx

end Machine
end Sys2Proof

end

section

/-! SUPPORT: the bytes that an L1 holds dirty, and what writing them back gives (R89) -/

namespace Sys2Proof.Machine

/-- The byte that a table of sectors holds dirty at an address. -/
def dirtyByte (T : Tab Sector) (a : Nat) : Option Byte :=
  (tabGet T (a / 16)).bind fun c => if c.dirty.getLsbD (a % 16) then c.bytes[a % 16]? else none

/-- Whole sectors in rising order. -/
structure Sectors (T : Tab Sector) : Prop where
  sorted : tabSorted 0 T = true
  whole : ∀ c ∈ T, c.2.bytes.length = 16

theorem Sectors.nil : Sectors [] := ⟨rfl, fun _ h => nomatch h⟩

theorem Sectors.put {T : Tab Sector} (h : Sectors T) (k : Nat) {c : Sector} (hc : c.bytes.length = 16) :
    Sectors (tabPut T k c) where
  sorted := tabSorted_put T k c 0 (Nat.zero_le k) h.sorted
  whole := fun d hd => by
    rcases mem_tabPut T k c d hd with rfl | hd
    · exact hc
    · exact h.whole d hd

@[simp] theorem dirtyByte_nil (a : Nat) : dirtyByte [] a = none := rfl

/-- Writing back the dirty bytes of one sector, from its byte `i` on. -/
theorem State.writeDirty_plain {s : State} (hw : Canonical s) {x : Nat} {dirty : BitVec 16} {bs : List Byte} {i : Nat}
    (hp : ∀ j < bs.length, dirty.getLsbD (i + j) = true → s.Plain (x + (i + j))) :
    let u := s.writeDirty x dirty bs i
    s.Alike u ∧ ∀ a, u.byteAt a =
      (if x + i ≤ a ∧ dirty.getLsbD (a - x) = true then bs[a - (x + i)]? else none).getD (s.byteAt a) := by
  induction bs generalizing s i with
  | nil => exact ⟨.refl s, fun a => by simp [State.writeDirty]⟩
  | cons b bs ih =>
    intro u
    have hb : dirty.getLsbD i = true → s.Plain (x + i) := fun h => hp 0 (by simp) h
    have hs₁ : s.Alike (if dirty.getLsbD i then s.storeByte (x + i) b else s) := by
      split
      next h => exact State.storeByte_alike (hb h) b
      · exact .refl s
    have hw₁ : Canonical (if dirty.getLsbD i then s.storeByte (x + i) b else s) := .ite (.storeByte hw) hw
    obtain ⟨hu, hread⟩ := ih hw₁ (i := i + 1) fun j hj hd => by
      rw [show i + 1 + j = i + (j + 1) by omega] at hd ⊢
      exact (hp (j + 1) (by simpa using hj) hd).alike hs₁
    refine ⟨hs₁.trans hu, fun a => (hread a).trans ?_⟩
    by_cases ha : a = x + i
    · subst ha
      rw [if_neg (by omega)]
      by_cases hd : dirty.getLsbD i = true
      · simp [hd, State.byteAt_storeByte_same hw (hb hd)]
      · simp [hd]
    · have hkeep : (if dirty.getLsbD i then s.storeByte (x + i) b else s).byteAt a = s.byteAt a := by
        split
        next h => exact State.byteAt_storeByte_other hw (hb h) b ha
        · rfl
      rw [hkeep]
      by_cases hle : x + i ≤ a
      · rw [show a - (x + i) = a - (x + (i + 1)) + 1 by omega, List.getElem?_cons_succ]
        simp only [hle, show x + (i + 1) ≤ a by omega]
      · rw [if_neg (by omega), if_neg (by omega)]

/-- A whole sector written back gives its dirty bytes. -/
theorem State.writeDirty_sector {s : State} (hw : Canonical s) {k : Nat} {c : Sector} (hc : c.bytes.length = 16)
    (hp : ∀ a, (dirtyByte [(k, c)] a).isSome = true → s.Plain a) :
    let u := s.writeDirty (16 * k) c.dirty c.bytes 0
    s.Alike u ∧ ∀ a, u.byteAt a = (dirtyByte [(k, c)] a).getD (s.byteAt a) := by
  intro u
  obtain ⟨hu, hread⟩ := State.writeDirty_plain hw (x := 16 * k) (dirty := c.dirty) (i := 0)
      (bs := c.bytes) fun j hj hd => by
    rw [Nat.zero_add] at hd ⊢
    refine hp _ ?_
    have hj' : j < 16 := hc ▸ hj
    simp [dirtyByte, tabGet, show (16 * k + j) / 16 = k by omega, show (16 * k + j) % 16 = j by omega, hd, hj]
  refine ⟨hu, fun a => (hread a).trans ?_⟩
  by_cases ha : a / 16 = k
  · simp [dirtyByte, tabGet, ha, show 16 * k ≤ a by omega, show a - 16 * k = a % 16 by omega]
  · have hnone : dirtyByte [(k, c)] a = none := by simp [dirtyByte, tabGet, ha]
    rw [hnone]
    split
    next h =>
      rw [List.getElem?_eq_none (by omega)]
    · rfl

theorem dirtyByte_cons {k : Nat} {c : Sector} {T : Tab Sector} (h : tabSorted (k + 1) T = true) (a : Nat) :
    dirtyByte ((k, c) :: T) a = (dirtyByte T a).or (dirtyByte [(k, c)] a) := by
  rcases Nat.lt_trichotomy (a / 16) k with ha | ha | ha
  · simp [dirtyByte, tabGet, tabGet_sorted_below T _ h (show a / 16 < k + 1 by omega), ha, ha.ne]
  · subst ha
    simp [dirtyByte, tabGet, tabGet_sorted_below T _ h (Nat.lt_succ_self _)]
  · simp [dirtyByte, tabGet, show a / 16 ≠ k by omega, show ¬ a / 16 < k by omega]

/-- An L1 written back gives the bytes that it holds dirty, and nothing else. -/
theorem State.writeBack_plain {s : State} (hw : Canonical s) {T : Tab Sector} {b : Nat} (hT : tabSorted b T = true)
    (hc : ∀ c ∈ T, c.2.bytes.length = 16) (hp : ∀ a, (dirtyByte T a).isSome = true → s.Plain a) (a : Nat) :
    (s.writeBack T).byteAt a = (dirtyByte T a).getD (s.byteAt a) := by
  induction T generalizing s b with
  | nil => rfl
  | cons p T ih =>
    obtain ⟨k, c⟩ := p
    simp only [tabSorted, Bool.and_eq_true, decide_eq_true_eq] at hT
    have hcons := dirtyByte_cons (c := c) hT.2
    obtain ⟨hu, hread⟩ := State.writeDirty_sector hw (k := k) (hc (k, c) (by simp)) fun x hx =>
      hp x (by rw [hcons, Option.isSome_or, hx, Bool.or_true])
    rw [State.writeBack, ih (.writeDirty hw) hT.2 (fun d hd => hc d (by simp [hd])) fun x hx =>
      (hp x (by rw [hcons, Option.isSome_or, hx, Bool.true_or])).alike hu, hread, hcons]
    cases dirtyByte T a <;> rfl

theorem State.l1Sync_plain {s : State} (hw : Canonical s) {col : Nat} (hT : Sectors (s.l1Of col))
    (hp : ∀ a, (dirtyByte (s.l1Of col) a).isSome = true → s.Plain a) (a : Nat) :
    (s.l1Sync col).byteAt a = (dirtyByte (s.l1Of col) a).getD (s.byteAt a) := by
  have hmem : (s.l1Sync col).byteAt a = (s.writeBack (s.l1Of col)).byteAt a := by
    simp [State.l1Sync, State.byteAt]
  rw [hmem, State.writeBack_plain hw hT.sorted hT.whole hp]

end Sys2Proof.Machine

end

section

/-! SUPPORT: bytes of a store at the memory and in an L1 (R89, R213) -/

namespace Sys2Proof.Machine

theorem linesOf_length_le (T : Tab Sector) : (linesOf T).length ≤ T.length := by
  induction T using linesOf.induct with
  | case1 => simp [linesOf]
  | case2 c => simp [linesOf]
  | case3 c d t h ih =>
    rw [linesOf, if_pos h]
    exact ih.trans (by simp)
  | case4 c d t h ih =>
    rw [linesOf, if_neg h]
    simpa using ih

/-- An L1 that is not full has room. -/
theorem State.l1Room_of_length {s : State} {col : Nat} (h : (s.l1Of col).length < l1Lines) (sec : Nat) :
    s.l1Room col sec = s := by
  have := linesOf_length_le (s.l1Of col)
  simp only [State.l1Room]
  rw [if_pos]
  simp only [Bool.or_eq_true, decide_eq_true_eq]
  omega

theorem tabPut_ne_nil {α : Type} (t : Tab α) (k : Nat) (x : α) : (tabPut t k x).isEmpty = false := by
  cases t with
  | nil => rfl
  | cons p t =>
    simp only [tabPut]
    split
    · rfl
    · split <;> rfl

theorem State.setL1_put (s : State) (col : Nat) (T : Tab Sector) (k : Nat) (c : Sector) :
    s.setL1 col (tabPut T k c) = { s with l1 := tabPut s.l1 col (tabPut T k c) } := by
  simp [State.setL1, tabPut_ne_nil]

theorem State.l1Of_setL1_put (s : State) (col : Nat) (T : Tab Sector) (k : Nat) (c : Sector) :
    (s.setL1 col (tabPut T k c)).l1Of col = tabPut T k c := by
  simp [State.setL1_put, State.l1Of]

/-- A sector of an L1, as memory holds it where it is not there. -/
def State.sectorAt (s : State) (col sec : Nat) : Sector :=
  (tabGet (s.l1Of col) sec).getD { bytes := s.loadBytes (16 * sec) 16, dirty := 0 }

/-- A sector with one byte stored. -/
def Sector.stored (c : Sector) (i : Nat) (b : Byte) : Sector :=
  { bytes := c.bytes.set i b, dirty := c.dirty ||| 1#16 <<< i }

/-- A NORMAL store's byte is held in its sector of the L1. -/
theorem State.cacheStore_held {s : State} {col : Nat} (h : (s.l1Of col).length < l1Lines) (x : Nat) (b : Byte) :
    s.cacheStore col true x b =
      s.setL1 col (tabPut (s.l1Of col) (x / 16) ((s.sectorAt col (x / 16)).stored (x % 16) b)) := by
  cases hc : tabGet (s.l1Of col) (x / 16) with
  | some c => simp [State.cacheStore, State.l1Fill, hc, State.sectorAt, Sector.stored]
  | none =>
    have hfill : s.l1Fill col (x / 16) =
        s.setL1 col (tabPut (s.l1Of col) (x / 16) (s.sectorAt col (x / 16))) := by
      simp [State.l1Fill, hc, State.sectorAt, State.l1Room_of_length h]
    simp only [State.cacheStore, if_true, hfill, State.l1Of_setL1_put, tabGet_put_same, tabPut_put, Sector.stored]
    simp only [State.setL1_put, tabPut_put]

/-- A byte that no L1 holds back is stored in memory. -/
theorem State.cacheStore_through {s : State} (col : Nat) {x : Nat} (hx : s.Plain x) (b : Byte) :
    s.Alike (s.cacheStore col false x b) ∧ (s.cacheStore col false x b).mem = (s.storeByte x b).mem := by
  have h := State.storeByte_alike hx b
  simp only [State.cacheStore, Bool.false_eq_true, if_false]
  split
  · exact ⟨h.trans (.setL1 ..), State.setL1_mem ..⟩
  · exact ⟨h, rfl⟩

theorem Sectors.sectorAt_length {s : State} {col : Nat} (h : Sectors (s.l1Of col)) (sec : Nat) :
    (s.sectorAt col sec).bytes.length = 16 := by
  unfold State.sectorAt
  cases hc : tabGet (s.l1Of col) sec with
  | some c => exact h.whole _ (mem_of_tabGet hc)
  | none => simp [State.loadBytes]

theorem sectorAt_dirtyByte (s : State) (col a : Nat) :
    (if (s.sectorAt col (a / 16)).dirty.getLsbD (a % 16) then (s.sectorAt col (a / 16)).bytes[a % 16]? else none) =
      dirtyByte (s.l1Of col) a := by
  unfold State.sectorAt dirtyByte
  cases hc : tabGet (s.l1Of col) (a / 16) with
  | some c => rfl
  | none => simp

theorem getLsbD_oneHot {i j : Nat} (hj : j < 16) : (1#16 <<< i).getLsbD j = decide (j = i) := by
  rw [BitVec.getLsbD_shiftLeft, BitVec.getLsbD_one]
  by_cases h : j = i
  · simp [h, h ▸ hj]
  · simp [h, hj]
    omega

/-- A stored byte is dirty in its L1, and no other byte's standing changes. -/
theorem dirtyByte_stored {s : State} {col : Nat} (h : Sectors (s.l1Of col)) (x : Nat) (b : Byte) (a : Nat) :
    dirtyByte (tabPut (s.l1Of col) (x / 16) ((s.sectorAt col (x / 16)).stored (x % 16) b)) a =
      if a = x then some b else dirtyByte (s.l1Of col) a := by
  by_cases hsec : a / 16 = x / 16
  · by_cases ha : a = x
    · subst ha
      simp [dirtyByte, Sector.stored, h.sectorAt_length, Nat.mod_lt a (show 0 < 16 by omega)]
    · have hmod : x % 16 ≠ a % 16 := by omega
      have hbit := getLsbD_oneHot (i := x % 16) (show a % 16 < 16 by omega)
      rw [if_neg ha, ← sectorAt_dirtyByte s col a, hsec]
      simp [dirtyByte, Sector.stored, hsec, hbit, List.getElem?_set_ne hmod, Ne.symm hmod]
  · rw [if_neg (fun e => hsec (by rw [e]))]
    simp only [dirtyByte, tabGet_put_other _ _ hsec]

/-- The bytes of a team's store, from an address on: at the memory, or held in the L1 of the team's column. -/
def State.storeFrom (t : Team) (hold : Bool) (s : State) (x : Nat) : List Byte → State
  | [] => s
  | b :: bs => State.storeFrom t hold (s.cacheStore (s.columnOf t) hold x b) (x + 1) bs

/-- The write of a lane of which nothing is performed yet stores its bytes one by one. -/
theorem State.writeMem_global {s : State} {o : MemOp} {l : LaneAcc} {p : Nat} (hsp : o.space = .global)
    (hp : l.phys = some p) (hfirst : ∀ m ∈ o.lanes, m.done = false) (t : Team) (tid : Nat) (bs : List Byte) :
    s.writeMem o t tid l bs = s.storeFrom t (l.mtype == 0 && !o.l2 && !o.rel) p bs := by
  have hnone (a : Nat) : o.wroteAbove l a = false := by
    simp only [MemOp.wroteAbove, List.any_eq_false]
    intro m hm
    simp [hfirst m hm]
  simp only [State.writeMem, hsp, hp, hnone, Bool.false_eq_true, if_false, Option.getD_some]
  generalize (l.mtype == 0 && !o.l2 && !o.rel) = hold
  suffices ∀ k, (bs.zipIdx k).foldl (fun s b => s.cacheStore (s.columnOf t) hold (p + b.2) b.1) s =
      s.storeFrom t hold (p + k) bs from this 0
  intro k
  induction bs generalizing s k with
  | nil => rfl
  | cons b bs ih => exact ih (k + 1)

/-- Bytes that no L1 holds back are written to memory. -/
theorem State.storeFrom_through {s : State} (t : Team) {x : Nat} {bs : List Byte}
    (hp : ∀ i < bs.length, s.Plain (x + i)) :
    s.Alike (s.storeFrom t false x bs) ∧ (s.storeFrom t false x bs).mem = Memory.writeN s.mem x bs := by
  induction bs generalizing s x with
  | nil => exact ⟨.refl s, rfl⟩
  | cons b bs ih =>
    have hx : s.Plain x := hp 0 (by simp)
    obtain ⟨h₁, hmem⟩ := State.cacheStore_through (s.columnOf t) hx b
    obtain ⟨h₂, hrest⟩ := ih (s := s.cacheStore (s.columnOf t) false x b) (x := x + 1) fun i hi => by
      rw [Nat.add_right_comm, Nat.add_assoc]
      exact (hp (i + 1) (by simpa using hi)).alike h₁
    refine ⟨h₁.trans h₂, ?_⟩
    rw [State.storeFrom, hrest, hmem, State.storeByte_plain hx]
    rfl

/-- Bytes held in an L1 that has room are dirty there, and memory stays. -/
theorem State.storeFrom_held {s : State} (t : Team) {x : Nat} {bs : List Byte}
    (hT : Sectors (s.l1Of (s.columnOf t))) (hroom : (s.l1Of (s.columnOf t)).length + bs.length ≤ l1Lines) :
    let u := s.storeFrom t true x bs
    s.Alike u ∧ u.mem = s.mem ∧ Sectors (u.l1Of (s.columnOf t)) ∧
      ∀ a, dirtyByte (u.l1Of (s.columnOf t)) a =
        (if x ≤ a then bs[a - x]? else none).or (dirtyByte (s.l1Of (s.columnOf t)) a) := by
  induction bs generalizing s x with
  | nil => exact ⟨.refl s, rfl, hT, fun a => by simp [State.storeFrom]⟩
  | cons b bs ih =>
    simp only [List.length_cons] at hroom
    have hheld := State.cacheStore_held (show (s.l1Of (s.columnOf t)).length < l1Lines by omega) x b
    have h₁ : s.Alike (s.cacheStore (s.columnOf t) true x b) := hheld ▸ .setL1 ..
    have hT₁ : (s.cacheStore (s.columnOf t) true x b).l1Of (s.columnOf t) = tabPut (s.l1Of (s.columnOf t)) (x / 16)
        ((s.sectorAt (s.columnOf t) (x / 16)).stored (x % 16) b) := by
      rw [hheld, State.l1Of_setL1_put]
    have hlen := tabPut_length_le (s.l1Of (s.columnOf t)) (x / 16)
      ((s.sectorAt (s.columnOf t) (x / 16)).stored (x % 16) b)
    obtain ⟨h₂, hmem, hT₂, hdirty⟩ := ih (s := s.cacheStore (s.columnOf t) true x b) (x := x + 1)
      (by rw [h₁.columnOf, hT₁]; exact hT.put _ (by simp [Sector.stored, hT.sectorAt_length]))
      (by rw [h₁.columnOf, hT₁]; omega)
    rw [h₁.columnOf] at hT₂ hdirty
    refine ⟨h₁.trans h₂, hmem.trans (by rw [hheld]; rfl), hT₂, fun a => (hdirty a).trans ?_⟩
    rw [hT₁, dirtyByte_stored hT]
    rcases Nat.lt_trichotomy a x with ha | ha | ha
    · simp [show ¬ x ≤ a by omega, show ¬ x + 1 ≤ a by omega, ha.ne]
    · simp [ha]
    · simp [show x ≤ a by omega, show x + 1 ≤ a by omega, ha.ne', show a - x = a - (x + 1) + 1 by omega]

/-- The L1 of bytes held where it was empty, written back, gives the bytes and nothing else. -/
theorem State.l1Sync_storeFrom {s : State} (t : Team) (hw : Canonical s) {x : Nat} {bs : List Byte}
    (hT : s.l1Of (s.columnOf t) = []) (hlen : bs.length ≤ 16) (hp : ∀ i < bs.length, s.Plain (x + i)) (a : Nat) :
    ((s.storeFrom t true x bs).l1Sync (s.columnOf t)).byteAt a =
      (if x ≤ a then bs[a - x]? else none).getD (s.byteAt a) := by
  obtain ⟨hu, hmem, hsec, hdirty⟩ := State.storeFrom_held t (s := s) (x := x) (bs := bs)
    (hT ▸ Sectors.nil) (by rw [hT]; simp only [l1Lines, List.length_nil]; omega)
  simp only [hT, dirtyByte_nil, Option.or_none] at hdirty
  rw [State.l1Sync_plain (.of_mem hw hmem) hsec, hdirty]
  · simp only [State.byteAt, hmem]
  · intro y hy
    rw [hdirty] at hy
    split at hy
    next hle =>
      have hlt : y - x < bs.length := by simpa using hy
      have := hp (y - x) hlt
      rw [show x + (y - x) = y by omega] at this
      exact this.alike hu
    · simp at hy

end Sys2Proof.Machine

end

section

/-! SUPPORT: bytes of a store in SPAD, CLMEM, STMEM and LANE (R91, R92, R103) -/

namespace Sys2Proof.Machine

/-- While the workgroup that carries a space's block is in its place, a landing goes nowhere else (R345). -/
theorem State.landSpace_resident {s : State} {wid : Nat} {sp : Space} {off : Nat}
    (h : ∀ w, tabGet s.wgs wid = some w → ∀ x, s.blockAt wid w sp off = some x → x.2.1.place = .resident)
    (bs : List Byte) : s.landSpace wid sp off bs = s := by
  unfold State.landSpace
  split
  · rfl
  next k v b hb =>
    obtain ⟨w, hw, hb⟩ := Option.bind_eq_some_iff.mp hb
    have hv : v.place = .resident := h w hw _ hb
    simp [hv]

/-- A SPAD's bytes of a workgroup in its place. -/
theorem State.spaceWrite_spad {s : State} {wid : Nat} {w : Workgroup} (hw : tabGet s.wgs wid = some w)
    (hr : w.place = .resident) (off : Nat) (bs : List Byte) :
    s.spaceWrite wid .spad off bs = s.modWg wid fun w => { w with spad := tabStore w.spad off bs } := by
  have hmod : s.modSpace wid .spad (fun t => tabStore t off bs) =
      s.modWg wid fun w => { w with spad := tabStore w.spad off bs } := by
    simp [State.modSpace, hw]
  rw [State.spaceWrite, hmod, State.landSpace_resident]
  intro v hv x hx
  rw [State.modWg_wgs, tabGet_mod_same, hw] at hv
  cases hv
  cases hx
  exact hr

theorem State.spaceWrite_clmem {s : State} {wid k : Nat} {w : Workgroup} (hw : tabGet s.wgs wid = some w)
    (hk : w.cluster = some k) (hr : ∀ x ∈ s.wgs, x.2.place = .resident) (off : Nat) (bs : List Byte) :
    s.spaceWrite wid .clmem off bs = s.modCluster k fun c => { c with clmem := tabStore c.clmem off bs } := by
  have hmod : s.modSpace wid .clmem (fun t => tabStore t off bs) =
      s.modCluster k fun c => { c with clmem := tabStore c.clmem off bs } := by
    simp [State.modSpace, hw, hk]
  rw [State.spaceWrite, hmod, State.landSpace_resident]
  intro v _ x hx
  simp only [State.blockAt, Option.bind_eq_some_iff, Option.map_eq_some_iff] at hx
  obtain ⟨j, -, y, hy, rfl⟩ := hx
  exact hr _ (mem_of_tabGet hy)

theorem State.spaceWrite_stmem {s : State} {wid : Nat} {w : Workgroup} (hw : tabGet s.wgs wid = some w) (off : Nat)
    (bs : List Byte) :
    s.spaceWrite wid .stmem off bs = s.modGrid w.grid fun g => { g with stmem := tabStore g.stmem off bs } := by
  have hmod : s.modSpace wid .stmem (fun t => tabStore t off bs) =
      s.modGrid w.grid fun g => { g with stmem := tabStore g.stmem off bs } := by
    simp [State.modSpace, hw]
  rw [State.spaceWrite, hmod, State.landSpace_resident]
  intro v _ x hx
  cases hx

/-- A lane's write puts its bytes into the region one after another. -/
theorem foldl_laneKey_eq_tabStore (m : Tab Byte) (lane off : Nat) (bs : List Byte) :
    (bs.zipIdx).foldl (fun m b => tabPut m (laneKey lane (off + b.2)) b.1) m = tabStore m (laneKey lane off) bs := by
  suffices ∀ k, (bs.zipIdx k).foldl (fun m b => tabPut m (laneKey lane (off + b.2)) b.1) m =
      tabStore m (laneKey lane off + k) bs by simpa using this 0
  intro k
  induction bs generalizing m k with
  | nil => rfl
  | cons b bs ih =>
    rw [List.zipIdx_cons, List.foldl_cons, ih]
    simp only [tabStore, laneKey, Nat.add_assoc]

theorem laneKey_add (lane off i : Nat) : laneKey lane (off + i) = laneKey lane off + i := (Nat.add_assoc ..).symm

/-- A lane's region reads the bytes that were stored there. -/
theorem Team.laneRead_store_same (t : Team) (lane off : Nat) (bs : List Byte) :
    ({ t with laneMem := tabStore t.laneMem (laneKey lane off) bs } : Team).laneRead lane off bs.length = leNat bs := by
  unfold Team.laneRead
  congr 1
  refine List.ext_getElem (by simp) fun i _ hi => ?_
  simp [laneKey_add, tabGet_tabStore_inside _ _ _ hi]

/-- Bytes of another lane, or of other offsets, stay. -/
theorem Team.laneRead_store_other (t : Team) {lane off j x n : Nat} {bs : List Byte}
    (hoff : off + bs.length ≤ 4294967296) (hx : x + n ≤ 4294967296) (h : j ≠ lane ∨ x + n ≤ off ∨ off + bs.length ≤ x) :
    ({ t with laneMem := tabStore t.laneMem (laneKey lane off) bs } : Team).laneRead j x n = t.laneRead j x n := by
  unfold Team.laneRead
  congr 1
  refine List.map_congr_left fun i hi => ?_
  have hi := List.mem_range.mp hi
  rw [tabGet_tabStore_outside]
  simp only [laneKey]
  omega

end Sys2Proof.Machine

end

section

/-! PROOF: a performed lane of a store -/

namespace Sys2Proof.Machine

/-- A store's lane with an access to make, performed, is its write. -/
theorem State.performLane_store {s : State} {tid : Nat} {t : Team} {o : MemOp} {l : LaneAcc}
    (ht : tabGet s.teams tid = some t) (hk : o.kind = .store) (hf : l.fill = none) :
    (s.performLane tid o l).1 = s.writeMem o t tid { l with done := true } l.data := by
  simp [State.performLane, ht, hk, hf]

section

variable {s : State} {tid p : Nat} {t : Team} {o : MemOp} {l : LaneAcc} (ht : tabGet s.teams tid = some t)
  (hk : o.kind = .store) (hf : l.fill = none)

include ht hk hf

/-- The same of a lane of memory. -/
theorem State.performLane_storeGlobal (hd : ∀ m ∈ o.lanes, m.done = false) (hsp : o.space = .global)
    (hp : l.phys = some p) :
    (s.performLane tid o l).1 = s.storeFrom t (l.mtype == 0 && !o.l2 && !o.rel) p l.data := by
  rw [State.performLane_store ht hk hf]
  exact State.writeMem_global hsp hp hd t tid l.data

/-- The same of a lane of an explicit level. -/
theorem State.performLane_storeSpace (h : o.space ≠ .global ∧ o.space ≠ .lane) :
    (s.performLane tid o l).1 = s.spaceWrite t.wg o.space l.ptr l.data := by
  obtain ⟨hglobal, hlane⟩ := h
  rw [State.performLane_store ht hk hf]
  unfold State.writeMem
  split
  · contradiction
  · contradiction
  · rfl

/-- The same of a lane's own region. -/
theorem State.performLane_storeLane (hsp : o.space = .lane) :
    (s.performLane tid o l).1 = s.modTeam tid fun t =>
      { t with laneMem := tabStore t.laneMem (laneKey l.lane l.ptr) l.data } := by
  rw [State.performLane_store ht hk hf]
  simp only [State.writeMem, hsp, foldl_laneKey_eq_tabStore]

/-- R213, R4: a store that no L1 holds back. -/
theorem storeLane_through (hd : ∀ m ∈ o.lanes, m.done = false) (hsp : o.space = .global) (hp : l.phys = some p)
    (hw : Canonical s) (hplain : ∀ i < l.data.length, s.Plain (p + i))
    (hthrough : l.mtype ≠ 0 ∨ o.l2 = true ∨ o.rel = true) :
    let u := (s.performLane tid o l).1
    (∀ i, (h : i < l.data.length) → u.byteAt (p + i) = l.data[i]) ∧
    (∀ a, a < p ∨ p + l.data.length ≤ a → u.byteAt a = s.byteAt a) ∧ u.teams = s.teams := by
  have hhold : (l.mtype == 0 && !o.l2 && !o.rel) = false := by
    rcases hthrough with h | h | h <;> simp [h]
  intro u
  have hu : u = s.storeFrom t false p l.data := by
    rw [← hhold]
    exact State.performLane_storeGlobal ht hk hf hd hsp hp
  obtain ⟨halike, hmem⟩ := State.storeFrom_through t hplain
  rw [hu]
  simp only [State.byteAt, hmem]
  exact ⟨fun i h => read_writeN_inside hw.wf _ _ i h, fun a ha => read_writeN_outside hw.wf _ _ a ha, halike.teams⟩

/-- R213, R89: a NORMAL store into an empty L1, and that L1 written back. -/
theorem storeLane_held (hd : ∀ m ∈ o.lanes, m.done = false) (hsp : o.space = .global) (hp : l.phys = some p)
    (hw : Canonical s) (hplain : ∀ i < l.data.length, s.Plain (p + i))
    (hheld : l.mtype = 0 ∧ o.l2 = false ∧ o.rel = false) (hT : s.l1Of (s.columnOf t) = [])
    (hlen : l.data.length ≤ 16) :
    let u := (s.performLane tid o l).1
    (∀ a, u.byteAt a = s.byteAt a) ∧ u.teams = s.teams ∧
    (∀ i, (h : i < l.data.length) → (u.l1Sync (s.columnOf t)).byteAt (p + i) = l.data[i]) ∧
    ∀ a, a < p ∨ p + l.data.length ≤ a → (u.l1Sync (s.columnOf t)).byteAt a = s.byteAt a := by
  obtain ⟨hmtype, hl2, hrel⟩ := hheld
  intro u
  have hu : u = s.storeFrom t true p l.data := by
    have := State.performLane_storeGlobal ht hk hf hd hsp hp
    rwa [hmtype, hl2, hrel] at this
  obtain ⟨halike, hmem, -, -⟩ := State.storeFrom_held t (s := s) (x := p) (bs := l.data)
    (hT ▸ Sectors.nil) (by rw [hT]; simp only [l1Lines, List.length_nil]; omega)
  have hsync := State.l1Sync_storeFrom t hw hT hlen hplain
  rw [hu]
  refine ⟨fun a => by simp only [State.byteAt, hmem], halike.teams, fun i h => ?_, fun a ha => ?_⟩
  · simp [hsync, h]
  · rw [hsync]
    split
    · rw [List.getElem?_eq_none (by omega)]
      rfl
    · rfl

/-- R91: a store to SPAD. -/
theorem storeLane_spad {w : Workgroup} (hsp : o.space = .spad) (hw : tabGet s.wgs t.wg = some w)
    (hr : w.place = .resident) :
    let u := (s.performLane tid o l).1
    (∀ i, (h : i < l.data.length) → tabGet (u.spaceOf t.wg .spad).1 (l.ptr + i) = some l.data[i]) ∧
    (∀ a, a < l.ptr ∨ l.ptr + l.data.length ≤ a →
      tabGet (u.spaceOf t.wg .spad).1 a = tabGet (s.spaceOf t.wg .spad).1 a) ∧
    u.mem = s.mem ∧ u.teams = s.teams := by
  intro u
  have hu : u = s.modWg t.wg fun w => { w with spad := tabStore w.spad l.ptr l.data } := by
    rw [← State.spaceWrite_spad hw hr, ← hsp]
    exact State.performLane_storeSpace ht hk hf (by simp [hsp])
  have hspace : (u.spaceOf t.wg .spad).1 = tabStore w.spad l.ptr l.data := by
    simp [hu, State.spaceOf, tabGet_mod_same, hw]
  have hbefore : (s.spaceOf t.wg .spad).1 = w.spad := by simp [State.spaceOf, hw]
  rw [hspace, hbefore, hu]
  exact ⟨fun i h => tabGet_tabStore_inside _ _ _ h, fun a ha => tabGet_tabStore_outside _ _ _ ha, rfl, rfl⟩

/-- R93: a store to CLMEM. -/
theorem storeLane_clmem {w : Workgroup} {k : Nat} {c : Cluster} (hsp : o.space = .clmem)
    (hr : ∀ x ∈ s.wgs, x.2.place = .resident) (hw : tabGet s.wgs t.wg = some w) (hwk : w.cluster = some k)
    (hc : tabGet s.clusters k = some c) :
    let u := (s.performLane tid o l).1
    (∀ i, (h : i < l.data.length) → tabGet (u.spaceOf t.wg .clmem).1 (l.ptr + i) = some l.data[i]) ∧
    (∀ a, a < l.ptr ∨ l.ptr + l.data.length ≤ a → tabGet (u.spaceOf t.wg .clmem).1 a = tabGet c.clmem a) ∧
    (∀ j, j ≠ k → tabGet u.clusters j = tabGet s.clusters j) ∧ u.mem = s.mem ∧ u.teams = s.teams ∧ u.wgs = s.wgs := by
  intro u
  have hu : u = s.modCluster k fun c => { c with clmem := tabStore c.clmem l.ptr l.data } := by
    rw [← State.spaceWrite_clmem hw hwk hr, ← hsp]
    exact State.performLane_storeSpace ht hk hf (by simp [hsp])
  have hspace : (u.spaceOf t.wg .clmem).1 = tabStore c.clmem l.ptr l.data := by
    simp [hu, State.spaceOf, tabGet_mod_same, hw, hwk, hc]
  rw [hspace, hu]
  exact ⟨fun i h => tabGet_tabStore_inside _ _ _ h, fun a ha => tabGet_tabStore_outside _ _ _ ha,
    fun j hj => tabGet_mod_other _ _ hj, rfl, rfl, rfl⟩

/-- R93: a store to STMEM. -/
theorem storeLane_stmem {w : Workgroup} {g : Grid} (hsp : o.space = .stmem) (hw : tabGet s.wgs t.wg = some w)
    (hg : tabGet s.grids w.grid = some g) :
    let u := (s.performLane tid o l).1
    (∀ i, (h : i < l.data.length) → tabGet (u.spaceOf t.wg .stmem).1 (l.ptr + i) = some l.data[i]) ∧
    (∀ a, a < l.ptr ∨ l.ptr + l.data.length ≤ a → tabGet (u.spaceOf t.wg .stmem).1 a = tabGet g.stmem a) ∧
    (∀ j, j ≠ w.grid → tabGet u.grids j = tabGet s.grids j) ∧ u.mem = s.mem ∧ u.teams = s.teams ∧ u.wgs = s.wgs := by
  intro u
  have hu : u = s.modGrid w.grid fun g => { g with stmem := tabStore g.stmem l.ptr l.data } := by
    rw [← State.spaceWrite_stmem hw, ← hsp]
    exact State.performLane_storeSpace ht hk hf (by simp [hsp])
  have hspace : (u.spaceOf t.wg .stmem).1 = tabStore g.stmem l.ptr l.data := by
    simp [hu, State.spaceOf, tabGet_mod_same, hw, hg]
  rw [hspace, hu]
  exact ⟨fun i h => tabGet_tabStore_inside _ _ _ h, fun a ha => tabGet_tabStore_outside _ _ _ ha,
    fun j hj => tabGet_mod_other _ _ hj, rfl, rfl, rfl⟩

/-- R91: a store to the lane's own region. -/
theorem storeLane_lane (hsp : o.space = .lane) (hlen : l.ptr + l.data.length ≤ 4294967296) :
    let u := (s.performLane tid o l).1
    u.mem = s.mem ∧ ∃ v, tabGet u.teams tid = some v ∧ v = { t with laneMem := v.laneMem } ∧
      v.laneRead l.lane l.ptr l.data.length = leNat l.data ∧
      ∀ lane off n, off + n ≤ 4294967296 → (lane ≠ l.lane ∨ off + n ≤ l.ptr ∨ l.ptr + l.data.length ≤ off) →
        v.laneRead lane off n = t.laneRead lane off n := by
  intro u
  have hu := State.performLane_storeLane ht hk hf hsp
  refine ⟨by rw [show u = _ from hu]; rfl, _, ?_, rfl, t.laneRead_store_same l.lane l.ptr l.data,
    fun lane off n hn h => t.laneRead_store_other hlen hn h⟩
  rw [show u = _ from hu, State.modTeam_teams, tabGet_mod_same, ht]
  rfl

end

/-- Settles O40: the lane's write, space by space. -/
theorem storeLaneWritesBytes : Obligations.StoreLaneWritesBytes := by
  intro s tid p t o l ht hk hf hd
  refine ⟨fun hsp hp hw hlen hbytes => ?_, fun w hsp hw hr => storeLane_spad ht hk hf hsp hw hr,
    fun w k c hsp hr hw hwk hc => storeLane_clmem ht hk hf hsp hr hw hwk hc,
    fun w g hsp hw hg => storeLane_stmem ht hk hf hsp hw hg, fun hsp hlen => storeLane_lane ht hk hf hsp hlen⟩
  have hplain : ∀ i < l.data.length, s.Plain (p + i) := fun i hi =>
    have ⟨hkey, hreach⟩ := hbytes i hi
    ⟨hkey, hreach, by omega⟩
  exact ⟨storeLane_through ht hk hf hd hsp hp ⟨hw⟩ hplain,
    fun hmtype hl2 hrel hT h16 => storeLane_held ht hk hf hd hsp hp ⟨hw⟩ hplain ⟨hmtype, hl2, hrel⟩ hT h16⟩

end Sys2Proof.Machine

end

section

/-! PROOF: a step runs the word at which the current entity stands (R20, R58, R117, log 5) -/

namespace Sys2Proof.Machine

variable {s : State} {e : Entity}

/-- The word at which an entity stands in its clause, which nothing holds, is what its next words decode to. -/
theorem Entity.nextWord_of_decode {k : Issue} {w : Word} {more : List Word} {i : Instr} (hh : e.hold = none)
    (hs : e.stopped = false) (hi : e.issue = some k) (hw : k.words.drop k.next = w :: more)
    (hd : decodePair w.toNat (more.headD 0).toNat = .ok i) : e.nextWord = some i := by
  have hinstr : k.instr = some i := by
    unfold Issue.instr
    rw [hw]
    exact congrArg Except.toOption hd
  simp [Entity.nextWord, hh, hs, hi, hinstr]

/-- An entity that waits, is stopped, or has no clause in issue has no word to execute. -/
theorem Entity.nextWord_none (h : e.hold ≠ none ∨ e.stopped = true ∨ e.issue = none) : e.nextWord = none := by
  unfold Entity.nextWord
  rcases h with h | h | h
  · simp [Option.isSome_iff_ne_none.mpr h]
  · simp [h]
  · simp [h]

theorem State.curWord_of_ent (he : tabGet s.ents s.cur = some e) :
    s.curWord = e.nextWord.filter fun i => !s.sourcePending s.cur e i := by
  simp [State.curWord, he]

/-- With nothing due from outside, a step is the current entity's word, and without one what the rotation gives. -/
theorem step_word {i : Instr} (ha : s.agenda = []) (hw : s.curWord = some i) : step s = exec i s := by
  simp [step, ha, hw]

theorem step_idle (ha : s.agenda = []) (hw : s.curWord = none) : step s = s.idleStep := by
  simp [step, ha, hw]

/-- Settles O58, by the cases in which the current entity has a word to execute. -/
theorem stepRunsTheDecodedWord : Obligations.StepRunsTheDecodedWord := by
  unfold Obligations.StepRunsTheDecodedWord
  intro s
  refine ⟨fun i rest ha => by simp [step, ha], fun ha e k w more i he hh hs hi hw hd => ?_, fun ha he => ?_, fun ha e he h => ?_⟩
  · have hword := State.curWord_of_ent he
    rw [Entity.nextWord_of_decode hh hs hi hw hd] at hword
    exact ⟨fun hp => step_word ha (by simp [hword, hp]), fun hp => step_idle ha (by simp [hword, hp])⟩
  · exact step_idle ha (by simp [State.curWord, he])
  · exact step_idle ha (by simp [State.curWord_of_ent he, Entity.nextWord_none h])

end Sys2Proof.Machine

end

section

/-! PROOF: what a word leaves unchanged, and the frame of the vector instructions (R19, R42, R44, R54, R141, R155, R159, R169) -/

namespace Sys2Proof.Machine

open Sys2Proof.Claims

variable {s t : State} {c : Cur} {u : Team} {ds : List VOp} {i : Instr} {p : BitVec 3}

/-- A word that is done inside its clause leaves what `keeps` says of the team it leaves. -/
theorem leavesAlone_done {n : Nat} {k : Issue} {keeps : Cur → Team → Prop} (h : c.inside n) (hk : keeps c u) (hx : exec i s = .next (c.done s n u k))
    (ht : exec i s = .next t) :
    (∀ x, t.byteAt x = s.byteAt x) ∧ OnlyOne s t c.e.team c.eid ∧ ∃ u, tabGet t.teams c.e.team = some u ∧ keeps c u := by
  obtain rfl : c.done s n u k = t := by simpa [hx] using ht
  exact ⟨fun _ => by rw [done_inside n u k h]; rfl, done_only n u k h, u, done_team n u k h, hk⟩

theorem onlyVectors_self (ds : List VOp) (c : Cur) : onlyVectors ds c c.t := ⟨rfl, fun _ _ => rfl, fun _ _ => rfl, fun _ h => h⟩

/-- A vector result keeps every register but its destination. -/
theorem onlyVectors_stored {d : VOp} (h : onlyVectors ds c u) (hd : d ∈ ds) (tag : Tag) (ws : List Word) : onlyVectors ds c (stored u tag d ws) := by
  obtain ⟨hu, hv, ho, hf⟩ := h
  cases d with
  | v m =>
    refine ⟨by unfold stored Team.setV; rw [hu], fun n hn => ?_, fun n hn => ho n hn, hf⟩
    have hnm : n.toNat ≠ m.toNat := fun e => hn (BitVec.eq_of_toNat_eq e ▸ hd)
    simp only [stored, vreg_setV, if_neg hnm]
    exact hv n hn
  | o m =>
    refine ⟨by unfold stored Team.setO; rw [hu], fun n hn => hv n hn, fun n hn => ?_, hf⟩
    have hnm : n.toNat ≠ m.toNat := fun e => hn (BitVec.eq_of_toNat_eq e ▸ hd)
    simp only [stored, oreg_setO, if_neg hnm]
    exact ho n hn
  | s _ | latch _ | const _ => exact ⟨hu, hv, ho, hf⟩

/-- Raising flags changes the flags alone, none of which falls. -/
theorem raised_flags (c : Cur) (u : Team) (fl : Word) :
    ∃ g : Word, raised c u fl = { u with flags := g } ∧ ∀ b, u.flags.getLsbD b = true → g.getLsbD b = true := by
  unfold raised Team.raiseFlags
  split
  · exact ⟨u.flags, rfl, fun _ h => h⟩
  · exact ⟨_, rfl, fun b h => by simp [h]⟩

theorem onlyVectors_raised (h : onlyVectors ds c u) (fl : Word) : onlyVectors ds c (raised c u fl) := by
  obtain ⟨hu, hv, ho, hf⟩ := h
  obtain ⟨g, hr, hfl⟩ := raised_flags c u fl
  rw [hr]
  exact ⟨by rw [hu], hv, ho, fun b hb => hfl b (hf b hb)⟩

/-- A write of a predicate changes that predicate and flags alone. -/
theorem onlyPredicate_raised (c : Cur) (p : BitVec 3) (m : BitVec 1024) (fl : Word) : onlyPredicate p c (raised c (c.t.setP p.toNat m) fl) := by
  obtain ⟨g, hr, hfl⟩ := raised_flags c (c.t.setP p.toNat m) fl
  rw [hr]
  have hset : c.t.setP p.toNat m = { c.t with p := (c.t.setP p.toNat m).p } := by unfold Team.setP; split <;> rfl
  refine ⟨by rw [hset], fun n hn => ?_, fun b hb => hfl b (by rw [hset]; exact hb)⟩
  change (c.t.setP p.toNat m).preg n.toNat = _
  rcases eq_or_ne p.toNat 0 with hp | hp
  · rw [hp, setP_zero]
  · rw [preg_setP _ _ _ _ hp, if_neg]
    rintro heq
    have hnp := BitVec.eq_of_toNat_eq heq
    rcases hn with hn | hn
    · exact hn hnp
    · exact hp (by rw [← hnp, hn]; rfl)

/-- A word that is done inside its clause moves its entity past it. -/
theorem doneMovesOnlyItsEntity : DoneMovesOnlyItsEntity := by
  intro s c n t i _ hin
  refine ⟨done_only n t i hin, done_team n t i hin, ?_, fun _ => by rw [done_inside n t i hin]; rfl⟩
  rw [done_inside n t i hin]
  exact ⟨_, tabGet_put_same .., rfl, rfl, rfl, rfl, rfl, rfl⟩

/-- A vector instruction of one destination, where the grant was not passed. -/
theorem vecResult_leaves {d : VOp} {latch : Latch} {rule : TagRule} {srcs : List VOp} {ty : ConstTy} {f : Cur → Nat → Word × Word}
    (hr : VecResult i d latch rule srcs ty f) : LeavesAloneWhen (fun c => c.pastGrant = false) i 1 (onlyVectors [d]) := by
  intro s t c hs hin hg ht
  obtain ⟨hroom, hnone, _⟩ := hr s c hs
  by_cases hm : c.e.mask = 0
  · exact leavesAlone_done hin (onlyVectors_self _ c) (hnone hm) ht
  · exact leavesAlone_done hin (onlyVectors_raised (onlyVectors_stored (onlyVectors_self _ c) (by simp) ..) _) (hroom ⟨hm, hg⟩) ht

theorem vecResult64_leaves {d : VOp} {srcs : List VOp} {f : Cur → Nat → Word64 × Word} (hr : VecResult64 i d srcs f) :
    LeavesAloneWhen (fun c => c.pastGrant = false) i 1 (onlyVectors [d, vopNext d]) := by
  intro s t c hs hin hg ht
  obtain ⟨hroom, hnone, _⟩ := hr s c hs
  by_cases hm : c.e.mask = 0
  · exact leavesAlone_done hin (onlyVectors_self _ c) (hnone hm) ht
  · refine leavesAlone_done hin (onlyVectors_raised ?_ _) (hroom ⟨hm, hg⟩) ht
    exact onlyVectors_stored (onlyVectors_stored (onlyVectors_self _ c) (by simp) ..) (by simp) ..

theorem predResult_leaves {f : Cur → Nat → Bool × Word} (hr : PredResult i p f) : LeavesAlone i 1 (onlyPredicate p) := by
  intro s t c hs hin _ ht
  obtain ⟨m, hx, -⟩ := hr s c hs
  exact leavesAlone_done hin (onlyPredicate_raised c p m _) hx ht

/-- A `tunpk` that meets no reserved byte it has to refuse is a vector word of one destination. -/
theorem tunpk_leaves (d a : VOp) (k : BitVec 3) :
    LeavesAloneWhen (fun c => c.pastGrant = false ∧ (c.strict = false ∨ c.reservedLanes a = [])) (.tunpk d a k) 1 (onlyVectors [d]) := by
  intro s t c hs hin ⟨hg, hok⟩ ht
  have hguard : (c.strict && !(c.reservedLanes a).isEmpty) = false := by
    rcases hok with h | h <;> simp [h]
  obtain ⟨ws, fl, hx⟩ : ∃ ws fl, exec (.tunpk d a k) s = .next (c.vecEnd s (res32 .f .plain d [a]) [ws] fl) :=
    ⟨_, _, by rw [exec_tunpk, execTunpk, withCur_standing hs]; simp only [hguard, Bool.false_eq_true, if_false]; rfl⟩
  obtain ⟨hroom, hnone, _⟩ := vecEnd_one hs .f .plain d [a] ws fl
  by_cases hm : c.e.mask = 0
  · exact leavesAlone_done hin (onlyVectors_self _ c) (hx.trans (congrArg _ (hnone hm))) ht
  · exact leavesAlone_done hin (onlyVectors_raised (onlyVectors_stored (onlyVectors_self _ c) (by simp) ..) _)
      (hx.trans (congrArg _ (hroom ⟨hm, hg⟩))) ht

/-- Settles O1: what `done` leaves, and the vector frame from the results that end in it. -/
theorem wordMovesOnlyItsEntity : Obligations.WordMovesOnlyItsEntity :=
  ⟨doneMovesOnlyItsEntity, fun _ _ _ _ _ _ _ => vecResult_leaves, fun _ _ _ _ => vecResult64_leaves, fun _ _ _ => predResult_leaves,
    tunpk_leaves⟩

end Sys2Proof.Machine

end

section

/-! SUPPORT: the retirement of a clause, and the entity that it leaves (R54, R191, R198, R201, R346) -/

namespace Sys2Proof.Machine

/-- Counting an event changes nothing but the counters of sessions and the messages that their overflows send. -/
structure State.Counted (s u : State) : Prop where
  rest : u = { s with ctxs := u.ctxs, irqs := u.irqs, outbox := u.outbox }
  traps : ∀ k, (u.ctx k).traps = (s.ctx k).traps

theorem State.Counted.refl (s : State) : s.Counted s := ⟨rfl, fun _ => rfl⟩

theorem State.Counted.trans {s u v : State} (h : s.Counted u) (g : u.Counted v) : s.Counted v :=
  ⟨by rw [g.rest, h.rest], fun k => (g.traps k).trans (h.traps k)⟩

theorem State.Counted.foldl {α : Type} {f : State → α → State} (hf : ∀ (s : State) x, s.Counted (f s x)) (l : List α) (s : State) :
    s.Counted (l.foldl f s) := by
  induction l generalizing s with
  | nil => exact .refl s
  | cons x l ih => exact (hf s x).trans (ih _)

theorem State.ctx_setCtx (s : State) (c k : Nat) (x : Ctx) : (s.setCtx c x).ctx k = if k = c then x else s.ctx k := by
  simp only [State.ctx, State.setCtx_ctxs, tabGet_put]
  split <;> rfl

theorem State.Counted.setCtx (s : State) (c : Nat) (x : Ctx) (h : x.traps = (s.ctx c).traps) : s.Counted (s.setCtx c x) := by
  refine ⟨rfl, fun k => ?_⟩
  rw [State.ctx_setCtx]
  split
  · subst_vars; exact h
  · rfl

theorem State.Counted.irq (s : State) (p k c m : Nat) : s.Counted (s.irq p k c m) := ⟨rfl, fun _ => rfl⟩

theorem State.countEvent_counted (s : State) (c evt n : Nat) : s.Counted (s.countEvent c evt n) := by
  unfold State.countEvent
  dsimp only
  split
  · exact .refl s
  · refine .foldl (fun s i => ?_) _ s
    split
    · split
      · exact .trans (.setCtx s c _ (by rfl)) (.irq ..)
      · exact .setCtx s c _ (by rfl)
    · exact .refl s

/-- An entity as the retirement of its clause leaves it. -/
def Entity.between (e : Entity) : Entity := { e with issue := none, hold := none, word := 0 }

/-- The words of a clause that count for its team's deadline (R201, R331). -/
def State.countedWords (s : State) (eid : Nat) (e : Entity) (i : Issue) : Nat :=
  if (s.entsOf e.team).any fun x => x.2.hold.any Hold.pausesWords && x.1 != eid then 0 else i.words.length

/-- What the retirement of a clause does to its team. -/
def Team.retires (t : Team) (e : Entity) (i : Issue) (counted : Nat) : Team :=
  let t := i.vtos.foldl (fun t m => t.vtosMove m.1 m.2.1 m.2.2) t
  let t := match i.modeNew with | some m => { t with mode := m } | none => t
  let t := { t.raiseFlags i.flagsLate with retired := t.retired + counted, hang := 0 }
  if t.deadline < t.retired && t.ydl.isNone then
    { t with ydl := some { cause := cYDL, word := 0, frag := e.fragCode, lanes := e.mask, pc := i.pc, addr1 := t.retired,
                           resumePc := i.pc, resume := 1 } }
  else t

/-- A team with its clause's deferred moves done, its MODE write taken, its late flags raised and its words counted. -/
def Team.afterClause (t : Team) (i : Issue) (counted : Nat) : Team :=
  { t with s := (i.vtos.foldl (fun t m => t.vtosMove m.1 m.2.1 m.2.2) t).s
           mode := i.modeNew.getD t.mode, flags := t.flags ||| i.flagsLate, retired := t.retired + counted, hang := 0 }

theorem Team.vtosMove_only (t : Team) (d a : BitVec 6) (l : Word) : t.vtosMove d a l = { t with s := (t.vtosMove d a l).s } :=
  setS_only ..

/-- The deferred moves of a clause write scalars alone. -/
theorem Team.vtosMoves_only (t : Team) (ms : List (BitVec 6 × BitVec 6 × Word)) :
    ms.foldl (fun t m => t.vtosMove m.1 m.2.1 m.2.2) t = { t with s := (ms.foldl (fun t m => t.vtosMove m.1 m.2.1 m.2.2) t).s } := by
  induction ms generalizing t with
  | nil => rfl
  | cons m ms ih =>
    rw [List.foldl_cons, ih]
    rw [Team.vtosMove_only]

/-- Beside what every clause does to its team, only the record of a passed deadline can have changed. -/
theorem Team.retires_eq (t : Team) (e : Entity) (i : Issue) (n : Nat) :
    t.retires e i n = { t.afterClause i n with ydl := (t.retires e i n).ydl } := by
  have hmoves := t.vtosMoves_only i.vtos
  unfold Team.retires Team.afterClause Team.raiseFlags
  generalize hm : i.vtos.foldl (fun t m => t.vtosMove m.1 m.2.1 m.2.2) t = m at hmoves ⊢
  rw [hmoves]
  cases i.modeNew <;> dsimp only <;> split <;> rfl

/-- A state in which an entity, now `e`, has left its clause, and its team is now `t`: nothing else of it has changed but the sessions. -/
structure State.Left (s u : State) (eid : Nat) (e : Entity) (tid : Nat) (t : Team) : Prop where
  rest : u = { s with teams := u.teams, ents := u.ents, ctxs := u.ctxs, irqs := u.irqs, outbox := u.outbox }
  traps : ∀ k, (u.ctx k).traps = (s.ctx k).traps
  ents : u.ents = tabPut s.ents eid e
  teams : u.teams = tabPut s.teams tid t

variable {s u : State} {eid tid : Nat} {e : Entity} {t : Team}

/-- The retirement of a clause. -/
theorem State.retireClause_left {x : Entity} {i : Issue} (he : tabGet s.ents eid = some e) (ht : tabGet s.teams x.team = some t) :
    s.Left (s.retireClause eid x i) eid e.between x.team (t.retires x i (s.countedWords eid x i)) := by
  have hmod : s.modTeam x.team (·.retires x i (s.countedWords eid x i)) =
      { s with teams := tabPut s.teams x.team (t.retires x i (s.countedWords eid x i)) } := by
    simp only [State.modTeam, tabMod_of_get _ ht]
  have hret : s.retireClause eid x i = (match tabGet (s.modTeam x.team (·.retires x i (s.countedWords eid x i))).teams x.team with
      | some t => ((s.modTeam x.team (·.retires x i (s.countedWords eid x i))).countEvent
          ((s.modTeam x.team (·.retires x i (s.countedWords eid x i))).ctxOf t) 1 1).countEvent
          ((s.modTeam x.team (·.retires x i (s.countedWords eid x i))).ctxOf t) 2 (s.countedWords eid x i)
      | none => s.modTeam x.team (·.retires x i (s.countedWords eid x i))).modEnt eid Entity.between := rfl
  rw [hret, hmod, tabGet_put_same]
  dsimp only
  generalize State.ctxOf _ _ = k
  have hcount := (State.countEvent_counted { s with teams := tabPut s.teams x.team (t.retires x i (s.countedWords eid x i)) } k 1 1).trans
    (State.countEvent_counted _ k 2 (s.countedWords eid x i))
  obtain ⟨hrest, htraps⟩ := hcount
  generalize State.countEvent _ k 2 _ = u at hrest htraps ⊢
  refine ⟨?_, htraps, ?_, ?_⟩
  · rw [hrest]; rfl
  · rw [hrest, State.modEnt_ents, tabMod_of_get _ he]
  · rw [hrest]; rfl

end Sys2Proof.Machine

end

section

/-! SUPPORT: how a clause ends: on to the next header, at a branch's target, or at a jump's (R54, R198) -/

namespace Sys2Proof.Machine

open Sys2Proof.Claims

variable {s u : State} {c : Cur} {eid tid : Nat} {e : Entity} {t : Team} {i : Issue} {a : Word64}

theorem State.Left.ent (h : s.Left u eid e tid t) : tabGet u.ents eid = some e := by rw [h.ents]; exact tabGet_put_same ..
theorem State.Left.team (h : s.Left u eid e tid t) : tabGet u.teams tid = some t := by rw [h.teams]; exact tabGet_put_same ..
theorem State.Left.ent_other (h : s.Left u eid e tid t) {k : Nat} (hk : k ≠ eid) : tabGet u.ents k = tabGet s.ents k := by
  rw [h.ents]; exact tabGet_put_other _ _ hk
theorem State.Left.team_other (h : s.Left u eid e tid t) {k : Nat} (hk : k ≠ tid) : tabGet u.teams k = tabGet s.teams k := by
  rw [h.teams]; exact tabGet_put_other _ _ hk
theorem State.Left.wgs (h : s.Left u eid e tid t) : u.wgs = s.wgs := by rw [h.rest]
theorem State.Left.ops (h : s.Left u eid e tid t) : u.ops = s.ops := by rw [h.rest]
theorem State.Left.copies (h : s.Left u eid e tid t) : u.copies = s.copies := by rw [h.rest]
theorem State.Left.byteAt (h : s.Left u eid e tid t) (x : Nat) : u.byteAt x = s.byteAt x := by rw [h.rest]; rfl

/-- A further change of the entity that has left its clause. -/
theorem State.Left.modEnt (h : s.Left u eid e tid t) (f : Entity → Entity) : s.Left (u.modEnt eid f) eid (f e) tid t where
  rest := by rw [h.rest]; rfl
  traps := h.traps
  ents := by rw [State.modEnt_ents, tabMod_of_get _ h.ent, h.ents, tabPut_put]
  teams := h.teams

/-- Where nothing is about to happen to the team, the boundary that its entity reaches leaves the state as it is. -/
theorem State.Left.settle (h : s.Left u eid e tid t) (hd : t.dying = false) (hw : ∀ w, tabGet s.wgs t.wg = some w → w.aborting = false) :
    u.settle tid = u := by
  refine settle_calm fun x hx => ?_
  obtain rfl : t = x := by simpa [h.team] using hx
  exact ⟨hd, by rw [h.wgs]; exact hw⟩

theorem Team.retires_dying (t : Team) (e : Entity) (i : Issue) (n : Nat) : (t.retires e i n).dying = t.dying := by rw [Team.retires_eq]; rfl
theorem Team.retires_wg (t : Team) (e : Entity) (i : Issue) (n : Nat) : (t.retires e i n).wg = t.wg := by rw [Team.retires_eq]; rfl

/-- A state with another team and another clause in issue of the current entity. -/
def Cur.withClause (c : Cur) (s : State) (t : Team) (i : Issue) : State :=
  { s with teams := tabPut s.teams c.e.team t, ents := tabPut s.ents c.eid { c.e with issue := some i } }

theorem withClause_self (hs : Standing s c) : c.withClause s c.t c.i = s := by
  unfold Cur.withClause
  rw [team_self hs, ent_self hs]

/-- The retirement of the current clause as its last word leaves it. -/
theorem retire_left (c : Cur) (s : State) (t : Team) (i : Issue) :
    s.Left ((c.withClause s t i).retireClause c.eid c.e i) c.eid c.e.between c.e.team
      (t.retires c.e i ((c.withClause s t i).countedWords c.eid c.e i)) := by
  obtain ⟨hrest, htraps, hents, hteams⟩ :=
    State.retireClause_left (s := c.withClause s t i) (x := c.e) (i := i) (tabGet_put_same s.ents c.eid _) (tabGet_put_same s.teams c.e.team t)
  generalize State.retireClause _ c.eid c.e i = u at *
  refine ⟨?_, htraps, ?_, ?_⟩
  · rw [hrest]; rfl
  · rw [hents]; exact tabPut_put ..
  · rw [hteams]; exact tabPut_put ..

/-- The team at the end of the current clause, and the entity of it as it stands at an address with some loop levels. -/
def Cur.ended (c : Cur) (s : State) (t : Team) (i : Issue) : Team := t.retires c.e i ((c.withClause s t i).countedWords c.eid c.e i)
def Entity.at (e : Entity) (a : Word64) (ls : List LoopLevel) : Entity := { e.between with pc := a, loops := ls }

/-- The sequential end of a clause, where its loop levels go on. -/
theorem finish_left {ls : List LoopLevel} (hd : t.dying = false) (hw : ∀ w, tabGet s.wgs t.wg = some w → w.aborting = false)
    (hl : loopNext (if c.e.isFrag then c.e.inherited else 0) c.e.loops.reverse i.after = some (ls, a)) :
    s.Left (c.finish (c.withClause s t i)) c.eid (c.e.at a ls.reverse) c.e.team (c.ended s t i) := by
  have hleft := retire_left c s t i
  have hfinish : c.finish (c.withClause s t i) =
      ((c.withClause s t i).retireClause c.eid c.e i).continueAt c.eid c.e.team i.after := by
    unfold Cur.finish
    rw [show tabGet (c.withClause s t i).ents c.eid = _ from tabGet_put_same ..]
    rfl
  have hmod := hleft.modEnt fun e => { e with loops := ls.reverse, pc := a }
  rw [hfinish]
  unfold State.continueAt
  rw [hleft.ent]
  dsimp only
  rw [show (if c.e.between.isFrag = true then c.e.between.inherited else 0) = if c.e.isFrag then c.e.inherited else 0 from rfl,
    show c.e.between.loops = c.e.loops from rfl, hl]
  dsimp only
  rw [hmod.settle (by rw [Team.retires_dying]; exact hd) (by rw [Team.retires_wg]; exact hw)]
  exact hmod

theorem calm_dying (hs : Standing s c) (hc : s.calm c.e.team) : c.t.dying = false := (hc _ hs.team).1
theorem calm_aborting (hs : Standing s c) (hc : s.calm c.e.team) : ∀ w, tabGet s.wgs c.t.wg = some w → w.aborting = false := (hc _ hs.team).2

theorem finish_self_left {ls : List LoopLevel} (hs : Standing s c) (hc : s.calm c.e.team)
    (hl : loopNext (if c.e.isFrag then c.e.inherited else 0) c.e.loops.reverse c.i.after = some (ls, a)) :
    s.Left (c.finish s) c.eid (c.e.at a ls.reverse) c.e.team (c.ended s c.t c.i) := by
  have h := finish_left (c := c) (calm_dying hs hc) (calm_aborting hs hc) hl
  rwa [withClause_self hs] at h

theorem retire_self_left (hs : Standing s c) :
    s.Left (s.retireClause c.eid c.e c.i) c.eid c.e.between c.e.team (c.ended s c.t c.i) := by
  have h := retire_left c s c.t c.i
  rw [withClause_self hs] at h
  simpa only [Cur.ended, withClause_self hs] using h

/-- The entity at the target of a taken branch. -/
def Entity.branched (e : Entity) (a : Word64) : Entity :=
  { e.between with loops := keepLevels a e.loops, inherited := min e.inherited (keepLevels a e.loops).length, pc := a }

/-- The end of a clause by a taken branch. -/
theorem branch_left (hs : Standing s c) (hc : s.calm c.e.team) (a : Word64) :
    s.Left (c.branch s a) c.eid (c.e.branched a) c.e.team (c.ended s c.t c.i) := by
  have hmod := (retire_self_left hs).modEnt fun e =>
    let ls := keepLevels a e.loops
    { e with loops := ls, inherited := min e.inherited ls.length, pc := a }
  unfold Cur.branch State.branchTo
  rw [hmod.settle (by rw [Cur.ended, Team.retires_dying]; exact calm_dying hs hc) (by rw [Cur.ended, Team.retires_wg]; exact calm_aborting hs hc)]
  exact hmod

/-- The end of a clause by a jump that closes no level. -/
theorem jump_left (hs : Standing s c) (hc : s.calm c.e.team) (a : Word64) :
    s.Left (c.jump s a) c.eid (c.e.at a c.e.loops) c.e.team (c.ended s c.t c.i) := by
  have hmod := (retire_self_left hs).modEnt fun e => { e with pc := a }
  unfold Cur.jump State.jumpTo
  rw [hmod.settle (by rw [Cur.ended, Team.retires_dying]; exact calm_dying hs hc) (by rw [Cur.ended, Team.retires_wg]; exact calm_aborting hs hc)]
  exact hmod

/-- An address at which no level's body ends leaves the levels as they are. -/
theorem loopNext_elsewhere (n : Nat) {ls : List LoopLevel} (h : ∀ l ∈ ls, l.stop ≠ a) : loopNext n ls a = some (ls, a) := by
  cases ls with
  | nil => rfl
  | cons l ls => simp [loopNext, Ne.symm (h l (by simp))]

end Sys2Proof.Machine

end

section

/-! PROOF: the last word of a clause retires it (R18, R54, R191, R198, R201, R331) -/

namespace Sys2Proof.Machine

variable {s : State} {c : Cur} {t : Team} {i : Issue}

/-- The entities whose waits stop the count of words. -/
def State.pausedBeside (s : State) (eid tid : Nat) : Prop :=
  ∃ x ∈ s.ents, x.2.team = tid ∧ x.1 ≠ eid ∧ (x.2.hold = some .yieldc ∨ x.2.hold = some .hlt)

theorem pausesWords_iff (h : Hold) : h.pausesWords = true ↔ h = .yieldc ∨ h = .hlt := by cases h <;> simp [Hold.pausesWords]

/-- The words of a clause count unless another entity of its team waits in a `yieldc` or a `hlt`. -/
theorem countedWords_any (s : State) (eid : Nat) (e : Entity) :
    ((s.entsOf e.team).any fun x => x.2.hold.any Hold.pausesWords && x.1 != eid) = true ↔ s.pausedBeside eid e.team := by
  simp only [State.entsOf, List.any_eq_true, List.mem_filter, Bool.and_eq_true, Option.any_eq_true, pausesWords_iff, bne_iff_ne, beq_iff_eq,
    State.pausedBeside]
  constructor
  · rintro ⟨x, ⟨hx, hteam⟩, ⟨h, hh, hp⟩, hne⟩
    exact ⟨x, hx, hteam, hne, by rw [hh]; simpa using hp⟩
  · rintro ⟨x, hx, hteam, hne, hp⟩
    rcases hp with hp | hp
    · exact ⟨x, ⟨hx, hteam⟩, ⟨_, hp, by simp⟩, hne⟩
    · exact ⟨x, ⟨hx, hteam⟩, ⟨_, hp, by simp⟩, hne⟩

theorem countedWords_all {eid : Nat} {e : Entity} (h : ¬ s.pausedBeside eid e.team) : s.countedWords eid e i = i.words.length :=
  if_neg fun hany => h ((countedWords_any s eid e).mp hany)

theorem countedWords_none {eid : Nat} {e : Entity} (h : s.pausedBeside eid e.team) : s.countedWords eid e i = 0 :=
  if_pos ((countedWords_any s eid e).mpr h)

theorem done_last (n : Nat) (t : Team) (i : Issue) (h : ¬ c.inside n) : c.done s n t i = c.finish (c.withClause s t i) := if_neg h

/-- Settles O2, from the sequential end of a clause without loop levels. -/
theorem lastWordRetiresClause : Obligations.LastWordRetiresClause := by
  unfold Obligations.LastWordRetiresClause
  intro s c t i n hs hin hc hloops hd hwg hpc hwords
  have hleft := finish_left (s := s) (c := c) (t := t) (i := i) (a := i.after) (ls := []) hd (by rw [hwg]; exact calm_aborting hs hc)
    (by rw [hloops]; rfl)
  have hteam : c.ended s t i = { t.afterClause i ((c.withClause s t i).countedWords c.eid c.e i) with ydl := (c.ended s t i).ydl } :=
    Team.retires_eq ..
  rw [done_last n t i hin]
  refine ⟨_, _, hleft.ent, hleft.team, ?_, rfl, rfl, rfl, ?_, ?_, ?_, ?_, ?_, ?_, ?_, hleft.byteAt⟩
  · rw [← hpc, ← hwords]; rfl
  all_goals rw [hteam]
  · rfl
  · rfl
  · rfl
  · rfl
  · intro hnone
    refine congrArg (t.retired + ·) ((countedWords_all ?_).trans (by rw [hwords]))
    rintro ⟨x, hx, hxt, hxe, hp⟩
    rcases mem_tabPut _ _ _ _ hx with rfl | hx
    · exact hxe rfl
    · obtain ⟨h1, h2⟩ := hnone x hx hxt hxe
      exact hp.elim h1 h2
  · intro k x hx hxt hxe hp
    refine congrArg (t.retired + ·) (countedWords_none ⟨(k, x), ?_, hxt, hxe, hp⟩)
    have hput : tabGet (c.withClause s t i).ents k = some x := (tabGet_put_other _ _ hxe).trans hx
    exact mem_of_tabGet hput
  · rfl

end Sys2Proof.Machine

end

section

/-! PROOF: the uniform branches, and the loop levels that they close (R19, R140, R194, R198) -/

namespace Sys2Proof.Machine

open Sys2Proof.Claims

variable {s : State} {c : Cur}

/-- A uniform branch is taken or falls through. -/
theorem choose_eq (c : Cur) (s : State) (a : Word64) {b : Bool} {p : Prop} [Decidable p] (h : b = true ↔ p) :
    c.choose s b a = if p then c.branch s a else c.finish s := by
  simp only [Cur.choose, h]

/-- Lanes that two masks share. -/
theorem and_ne_zero_iff (m p : BitVec 1024) : (m &&& p != 0) = true ↔ ∃ l, l < 1024 ∧ m.getLsbD l = true ∧ p.getLsbD l = true := by
  rw [bne_iff_ne, ne_eq, ← not_iff_comm, not_exists]
  constructor
  · intro h
    refine BitVec.eq_of_getLsbD_eq fun l hl => ?_
    have := h l
    simp_all
  · rintro h l ⟨-, hm, hp⟩
    have := congrArg (BitVec.getLsbD · l) h
    simp [hm, hp] at this

theorem and_not_eq_zero_iff (m p : BitVec 1024) : (m &&& ~~~p == 0) = true ↔ ∀ l, l < 1024 → m.getLsbD l = true → p.getLsbD l = true := by
  rw [beq_iff_eq]
  constructor
  · intro h l hl hm
    have := congrArg (BitVec.getLsbD · l) h
    simpa [hm, hl] using this
  · intro h
    refine BitVec.eq_of_getLsbD_eq fun l hl => ?_
    have := h l hl
    simpa [hl] using this

theorem uniformBranches : UniformBranches := by
  intro s c hs
  refine ⟨fun o => ?_, fun w => ?_, fun r o => ?_, fun r o => ?_, fun p o => ?_, fun p o => ?_⟩
  · rw [exec_bra, execBra, withCur_standing hs]; rfl
  · rw [exec_jmp, execJmp, withCur_standing hs]; rfl
  · rw [exec_bnz, execBnz, withCur_standing hs, choose_eq c s _ bne_iff_ne]; rfl
  · rw [exec_bz, execBz, withCur_standing hs, choose_eq c s _ beq_iff_eq]; rfl
  · rw [exec_bany, execBany, withCur_standing hs, choose_eq c s _ (and_ne_zero_iff ..)]; rfl
  · rw [exec_ball, execBall, withCur_standing hs, choose_eq c s _ (and_not_eq_zero_iff ..)]; rfl

/-- The levels that a taken branch keeps are those around its target. -/
theorem keepLevels_levelsAround (a : Word64) (ls : List LoopLevel) : keepLevels a ls = levelsAround a ls := by
  induction ls with
  | nil => rfl
  | cons l ls ih =>
    unfold levelsAround at ih ⊢
    rw [keepLevels, List.takeWhile_cons, ih]
    simp only [Bool.and_eq_true, decide_eq_true_eq]

theorem branchesCloseLevels : BranchesCloseLevels := by
  intro s c a hs hc
  have hb := branch_left hs hc a
  have hj := jump_left hs hc a
  exact ⟨⟨_, hb.ent, rfl, rfl, rfl, keepLevels_levelsAround ..⟩, ⟨_, hj.ent, rfl, rfl, rfl, rfl⟩, hb.byteAt, hj.byteAt⟩

/-- A uniform branch ends its clause at its target or at the next header. -/
theorem uniformBranch_ends (hs : Standing s c) (r : BitVec 6) (p : BitVec 3) (o : BitVec 12) (w : BitVec 32) {i : Instr}
    (hi : i ∈ [Instr.bra o, .jmp w, .bnz r o, .bz r o, .bany p o, .ball p o]) : exec i s = .next (c.finish s) ∨ ∃ a, exec i s = .next (c.branch s a) := by
  obtain ⟨hbra, hjmp, hbnz, hbz, hbany, hball⟩ := uniformBranches s c hs
  have pick {p : Prop} [Decidable p] {a : Word64} (h : exec i s = .next (if p then c.branch s a else c.finish s)) :
      exec i s = .next (c.finish s) ∨ ∃ a, exec i s = .next (c.branch s a) := by
    split at h
    · exact .inr ⟨a, h⟩
    · exact .inl h
  simp only [List.mem_cons, List.not_mem_nil, or_false] at hi
  rcases hi with rfl | rfl | rfl | rfl | rfl | rfl
  · exact .inr ⟨_, hbra o⟩
  · exact .inr ⟨_, hjmp w⟩
  · exact pick (hbnz r o)
  · exact pick (hbz r o)
  · exact pick (hbany p o)
  · exact pick (hball p o)

/-- What the end of a clause keeps of its team. -/
theorem ended_keeps (c : Cur) (s : State) :
    let u := c.ended s c.t c.i
    u.v = c.t.v ∧ u.o = c.t.o ∧ u.p = c.t.p ∧ u.b = c.t.b ∧ (c.i.vtos = [] → u.s = c.t.s) ∧ u.flags = c.t.flags ||| c.i.flagsLate := by
  have h : c.ended s c.t c.i = { c.t.afterClause c.i ((c.withClause s c.t c.i).countedWords c.eid c.e c.i) with ydl := (c.ended s c.t c.i).ydl } :=
    Team.retires_eq ..
  dsimp only
  rw [h]
  exact ⟨rfl, rfl, rfl, rfl, fun hv => by simp [Team.afterClause, hv], rfl⟩

theorem uniformBranchFrame : UniformBranchFrame := by
  intro s c hs hc hl r p o w i hi
  obtain ⟨t, e, ht, hleft⟩ : ∃ t e, exec i s = .next t ∧ s.Left t c.eid e c.e.team (c.ended s c.t c.i) := by
    rcases uniformBranch_ends hs r p o w hi with h | ⟨a, h⟩
    · have hlevels : ∀ l ∈ c.e.loops.reverse, l.stop ≠ c.i.after := fun l h => hl l (List.mem_reverse.mp h)
      exact ⟨_, _, h, finish_self_left hs hc (loopNext_elsewhere _ hlevels)⟩
    · exact ⟨_, _, h, branch_left hs hc a⟩
  obtain ⟨hv, ho, hp, hb, hS, hf⟩ := ended_keeps c s
  exact ⟨t, _, ht, hleft.team, hv, ho, hp, hb, hS, hf, fun _ => hleft.team_other, fun _ => hleft.ent_other, hleft.ops, hleft.copies, hleft.wgs,
    hleft.byteAt⟩

/-- Settles O22, by the branch that is taken or not and the clause's end either way. -/
theorem branches : Obligations.Branches := ⟨uniformBranches, uniformBranchFrame, branchesCloseLevels⟩

end Sys2Proof.Machine

end

section

/-! SUPPORT: the end of an entity (R202, R207, R325) -/

namespace Sys2Proof.Machine

variable {s : State} {eid tid : Nat} {e : Entity} {t : Team}

/-- A rendezvous changes workgroups alone, and of them none that is about to be aborted. -/
theorem State.rendezvousCheck_only (s : State) (wid : Nat) : s.rendezvousCheck wid = { s with wgs := (s.rendezvousCheck wid).wgs } := by
  unfold State.rendezvousCheck
  split
  · rfl
  · dsimp only; split <;> rfl

theorem State.rendezvousCheck_aborting {wid k : Nat} {w : Workgroup} (h : tabGet (s.rendezvousCheck wid).wgs k = some w) :
    ∃ v, tabGet s.wgs k = some v ∧ v.aborting = w.aborting := by
  unfold State.rendezvousCheck at h
  split at h
  · exact ⟨w, h, rfl⟩
  · dsimp only at h
    split at h
    · exact ⟨w, h, rfl⟩
    · rw [State.modWg_wgs] at h
      rcases eq_or_ne k wid with rfl | hk
      · rw [tabGet_mod_same] at h
        obtain ⟨v, hv, rfl⟩ := Option.map_eq_some_iff.mp h
        exact ⟨v, hv, rfl⟩
      · exact ⟨w, by rwa [tabGet_mod_other _ _ hk] at h, rfl⟩

/-- A team as the end of one of its entities leaves it. -/
structure Team.Outlived (t u : Team) : Prop where
  dying : u.dying = t.dying
  wg : u.wg = t.wg

/-- A state in which an entity has ended. -/
structure State.Ended (s u : State) (eid : Nat) (e : Entity) (t : Team) : Prop where
  rest : u = { s with teams := u.teams, ents := u.ents, wgs := u.wgs, ctxs := u.ctxs }
  ents : u.ents = tabDel s.ents eid
  ctx : ∀ k, u.ctx k = match e.handler with
    | some i => if k = s.ctxOf t then { s.ctx k with traps := tabDel (s.ctx k).traps i } else s.ctx k
    | none => s.ctx k
  team : ∃ v, tabGet u.teams e.team = some v ∧ t.Outlived v
  wgs : ∀ k w, tabGet u.wgs k = some w → ∃ v, tabGet s.wgs k = some v ∧ v.aborting = w.aborting

/-- The sessions' state with an entity's trap slot given back. -/
def State.slotFreed (s : State) (e : Entity) (t : Team) : State :=
  match e.handler with
  | some i => s.modCtx (s.ctxOf t) fun x => { x with traps := tabDel x.traps i }
  | none => s

theorem State.slotFreed_ctx (s : State) (e : Entity) (t : Team) (k : Nat) : (s.slotFreed e t).ctx k = match e.handler with
    | some i => if k = s.ctxOf t then { s.ctx k with traps := tabDel (s.ctx k).traps i } else s.ctx k
    | none => s.ctx k := by
  unfold State.slotFreed
  cases e.handler with
  | none => rfl
  | some i =>
    dsimp only [State.modCtx]
    rw [State.ctx_setCtx]
    split <;> simp_all

/-- What the end of an entity gives back. -/
theorem State.freeHandler_eq (ht : tabGet s.teams e.team = some t) :
    s.freeHandler eid e = { s with teams := tabPut s.teams e.team (t.clearPend eid), ctxs := (s.slotFreed e t).ctxs } := by
  have hmod : s.modTeam e.team (·.clearPend eid) = { s with teams := tabPut s.teams e.team (t.clearPend eid) } := by
    simp only [State.modTeam, tabMod_of_get _ ht]
  unfold State.freeHandler
  rw [ht]
  dsimp only
  rw [hmod]
  unfold State.slotFreed
  cases e.handler <;> rfl

/-- The end of an entity before its team is looked at: the trap slot and the scoreboard are free, and the entity is gone. -/
theorem State.ended_freed (ht : tabGet s.teams e.team = some t) :
    s.Ended { s.freeHandler eid e with ents := tabDel (s.freeHandler eid e).ents eid } eid e t := by
  rw [State.freeHandler_eq ht]
  exact ⟨rfl, rfl, s.slotFreed_ctx e t, ⟨_, tabGet_put_same .., rfl, rfl⟩, fun k w h => ⟨w, h, rfl⟩⟩

/-- The end of an entity. -/
theorem State.endEntity_ended (he : tabGet s.ents eid = some e) (ht : tabGet s.teams e.team = some t) : s.Ended (s.endEntity eid) eid e t := by
  have hfreed := State.ended_freed (eid := eid) ht
  obtain ⟨v, hv, hdying, hwg⟩ := hfreed.team
  unfold State.endEntity
  rw [he]
  dsimp only at hv ⊢
  rw [hv]
  dsimp only
  generalize hu : ({ s.freeHandler eid e with ents := tabDel (s.freeHandler eid e).ents eid } : State) = u at hfreed ⊢
  have hv' : tabGet u.teams e.team = some v := by rw [← hu]; exact hv
  split
  · exact hfreed
  · have honly := State.rendezvousCheck_only (u.modTeam e.team fun t => { t with laneMem := [] }) v.wg
    have hab := @State.rendezvousCheck_aborting (u.modTeam e.team fun t => { t with laneMem := [] }) v.wg
    generalize State.rendezvousCheck _ v.wg = r at honly hab ⊢
    have hteams : r.teams = tabMod u.teams e.team fun t => { t with laneMem := [] } := by rw [honly]; rfl
    refine ⟨?_, ?_, fun k => ?_, ⟨{ v with laneMem := [] }, ?_, hdying, hwg⟩, fun k w hk => ?_⟩
    · rw [honly, hfreed.rest]; rfl
    · rw [honly]; exact hfreed.ents
    · rw [← hfreed.ctx k, honly]; rfl
    · rw [hteams, tabGet_mod_same, hv']; rfl
    · obtain ⟨w', hw', hab'⟩ := hab hk
      obtain ⟨w'', hw'', hab''⟩ := hfreed.wgs k w' hw'
      exact ⟨w'', hw'', hab''.trans hab'⟩


/-- An entity without a deferred path ends where its path does. -/
theorem State.endPath_alone (he : tabGet s.ents eid = some e) (hsl : e.slots = []) : s.endPath eid = s.endEntity eid := by
  unfold State.endPath
  rw [he]
  simp [Entity.innermost, hsl]

/-- A team that nothing is about to end stays so when one of its entities ends. -/
theorem State.Ended.calm {u : State} (h : s.Ended u eid e t) (hd : t.dying = false) (hw : ∀ w, tabGet s.wgs t.wg = some w → w.aborting = false) :
    u.calm e.team := by
  obtain ⟨v, hv, hdying, hwg⟩ := h.team
  intro x hx
  obtain rfl : v = x := by simpa [hv] using hx
  refine ⟨hdying.trans hd, fun w hk => ?_⟩
  obtain ⟨w', hw', hab⟩ := h.wgs _ w hk
  exact hab ▸ hw w' (hwg ▸ hw')

end Sys2Proof.Machine

end

section

/-! PROOF: exit, and the fragments that it leaves (R24, R202, logs 32 and 33) -/

namespace Sys2Proof.Machine

variable {s : State} {c : Cur}

/-- What a state's contexts are called stays where its workgroups do. -/
theorem State.ctxOf_congr {u : State} {t v : Team} (hwgs : u.wgs = s.wgs) (hwg : v.wg = t.wg) : u.ctxOf v = s.ctxOf t := by
  simp [State.ctxOf, State.wgOf, hwgs, hwg]

/-- The clause of an `exit` has retired, and its entity has ended. -/
theorem exit_next (hs : Standing s c) (hc : s.calm c.e.team) (hsl : c.e.slots = []) :
    ∃ u t, exec .exit s = .next t ∧ s.Left u c.eid c.e.between c.e.team (c.ended s c.t c.i) ∧
      u.Ended t c.eid c.e.between (c.ended s c.t c.i) := by
  have hleft := retire_self_left hs
  have hended := State.endEntity_ended hleft.ent hleft.team
  have hcalm : ((s.retireClause c.eid c.e c.i).endEntity c.eid).calm c.e.team :=
    hended.calm ((Team.retires_dying ..).trans (calm_dying hs hc))
      (by rw [hleft.wgs, Cur.ended, Team.retires_wg]; exact calm_aborting hs hc)
  refine ⟨_, _, ?_, hleft, hended⟩
  rw [exec_exit, execExit, withCur_standing hs, State.endPath_alone hleft.ent hsl, settle_calm hcalm]

/-- An `rcv` of an orphan, which waits for nothing of its own, has no effect. -/
theorem rcv_orphan (hs : Standing s c) {k : BitVec 4} {q : Nat} (hp : c.e.parent = some q) (hq : tabGet s.ents q = none)
    (hsl : tabGet c.e.slots k.toNat = none) (hkids : ∀ x ∈ s.ents, x.2.parent = some c.eid → x.2.token ≠ k.toNat) :
    exec (.rcv k) s = .next (c.done s 1 c.t c.i) := by
  have hnone : ((s.kids c.eid).filter fun x => x.2.token == k.toNat) = [] := by
    simp only [State.kids, List.filter_eq_nil_iff, List.mem_filter, beq_iff_eq]
    exact fun x hx => hkids x hx.1 hx.2
  have hpass : c.stopOrPass s k.toNat = c.advance s 1 := by
    unfold Cur.stopOrPass
    simp [hs.ent, hp, hq]
  rw [exec_rcv, execRcv, withCur_standing hs]
  simp only [hsl, Cur.gather, hnone, List.isEmpty_nil, if_true, hpass, advance_self hs]

/-- Settles O28: the end of the clause and then of its entity; and the `rcv` of an orphan. -/
theorem exitEndsEntity : Obligations.ExitEndsEntity := by
  refine ⟨fun s c hs hc hsorted hsl => ?_, fun s c k q hs hp hq hsl hkids => rcv_orphan hs hp hq hsl hkids⟩
  obtain ⟨u, t, ht, hleft, hended⟩ := exit_next hs hc hsl
  have husorted : tabSorted 0 u.ents = true := by rw [hleft.ents]; exact tabSorted_put _ _ _ _ (Nat.zero_le _) hsorted
  refine ⟨t, ht, ?_, fun k hk => ?_, fun i hi htr => ?_, fun a => ?_, ?_, ?_⟩
  · rw [hended.ents]; exact tabGet_del_same _ _ husorted
  · rw [hended.ents, tabGet_del_other _ hk husorted]; exact hleft.ent_other hk
  · have hctx : u.ctxOf (c.ended s c.t c.i) = s.ctxOf c.t := State.ctxOf_congr hleft.wgs (Team.retires_wg ..)
    rw [hended.ctx, hctx, show c.e.between.handler = some i from hi]
    dsimp only
    rw [if_pos rfl, hleft.traps]
    exact tabGet_del_same _ _ htr
  · rw [← hleft.byteAt a, hended.rest]; rfl
  · rw [← hleft.ops, hended.rest]
  · rw [← hleft.copies, hended.rest]

end Sys2Proof.Machine

end

section

/-! PROOF: nop, yield, yieldc and wait (R21, R126, R200, R201, R203) -/

namespace Sys2Proof.Machine

variable {s : State} {c : Cur}

/-- A wait field of 7 asks for nothing. -/
theorem toNat_eq_seven_iff (a : BitVec 3) : a.toNat = 7 ↔ a = 7 := by rw [BitVec.toNat_eq]; rfl

theorem within_iff (t : Team) (a b p q : BitVec 3) :
    t.within a.toNat b.toNat p.toNat q.toNat = true ↔ (a = 7 ∨ t.cnt .ld ≤ a.toNat) ∧ (b = 7 ∨ t.cnt .st ≤ b.toNat) ∧
      (p = 7 ∨ t.cnt .cp ≤ p.toNat) ∧ (q = 7 ∨ t.cnt .tl ≤ q.toNat) := by
  simp only [Team.within, Bool.and_eq_true, Bool.or_eq_true, beq_iff_eq, decide_eq_true_eq, toNat_eq_seven_iff, and_assoc]

/-- A `wait` goes on where the counters allow, and stays at its word elsewhere. -/
theorem exec_wait_within (hs : Standing s c) (a b p q : BitVec 3) :
    exec (.wait a b p q) s = .next (if c.t.within a.toNat b.toNat p.toNat q.toNat then
      c.advance (if a = 7 ∧ b = 7 ∧ p = 7 ∧ q = 7 then s else s.observe c.t) 1 else c.holdAt s .counters) := by
  rw [exec_wait, execWait, withCur_standing hs]

/-- A `yieldc` yields unless it waits already, and goes to its target where the counters allow. -/
theorem exec_yieldc_within (hs : Standing s c) (a b p q : BitVec 3) (d : BitVec 4) (n : BitVec 7) (o : BitVec 21) :
    exec (.yieldc a b p q d n o) s =
      let s' := if c.e.hold = some .yieldc then s else s.yieldTeam c.e.team d.toNat n.toNat
      .next (if c.t.within a.toNat b.toNat p.toNat q.toNat then
        c.branch (if a = 7 ∧ b = 7 ∧ p = 7 ∧ q = 7 then s' else s'.observe c.t) (c.i.pc + BitVec.ofInt 64 (4 * o.toInt))
        else c.holdAt s' .yieldc) := by
  rw [exec_yieldc, execYieldc, withCur_standing hs]
  simp only [beq_iff_eq, Cur.target]

/-- A yield sets LIVE and the deadline, and counts words anew. -/
theorem yieldTeam_team (hs : Standing s c) (d l : Nat) : ∃ t, tabGet (s.yieldTeam c.e.team d l).teams c.e.team = some t ∧
    t.live = l ∧ t.deadline = 2 ^ (d + 8) ∧ t.retired = 0 ∧ t.s = c.t.s ∧ t.v = c.t.v ∧ t.flags = c.t.flags := by
  simp only [State.yieldTeam, State.modTeam_teams, tabGet_mod_same, hs.team, Option.map_some]
  exact ⟨_, rfl, rfl, rfl, rfl, rfl, rfl, rfl⟩

/-- Settles O27, by whether the counters allow the word to go on. -/
theorem yieldsAndWaits : Obligations.YieldsAndWaits := by
  unfold Obligations.YieldsAndWaits
  intro s c hs
  refine ⟨?_, fun d l => ?_, yieldTeam_team hs, fun a b p q => ⟨fun hmet => ?_, fun hmet => ?_, fun d n o => ⟨fun hmet => ?_, fun hmet => ?_⟩⟩⟩
  · rw [exec_nop, execNop, withCur_standing hs, advance_self hs]
  · rw [exec_yield, execYield, withCur_standing hs]
  · rw [exec_wait_within hs, if_pos ((within_iff ..).mpr hmet)]
  · rw [exec_wait_within hs, if_neg fun h => hmet ((within_iff ..).mp h)]
  · rw [exec_yieldc_within hs]
    dsimp only
    rw [if_pos ((within_iff ..).mpr hmet)]
  · rw [exec_yieldc_within hs]
    dsimp only
    rw [if_neg fun h => hmet ((within_iff ..).mp h)]

end Sys2Proof.Machine

end

section

/-! PROOF: rcv of fragments and of deferral slots (R24, R25, R50) -/

namespace Sys2Proof.Machine

open Sys2Proof.Claims

variable {s : State} {c : Cur} {k : BitVec 4} {n : Nat}

/-- An entity after a change of it. -/
theorem tabGet_modEnt {u : State} {eid : Nat} {e : Entity} (f : Entity → Entity) (he : tabGet u.ents eid = some e) :
    tabGet (u.modEnt eid f).ents eid = some (f e) := by
  rw [State.modEnt_ents, tabGet_mod_same, he]; rfl

/-- The entries of a table in order are found. -/
theorem tabGet_of_mem {α : Type} {t : Tab α} {b : Nat} (hs : tabSorted b t = true) {p : Nat × α} (hp : p ∈ t) : b ≤ p.1 ∧ tabGet t p.1 = some p.2 := by
  induction t generalizing b with
  | nil => simp at hp
  | cons q t ih =>
    obtain ⟨j, y⟩ := q
    simp only [tabSorted, Bool.and_eq_true, decide_eq_true_eq] at hs
    rcases List.mem_cons.mp hp with rfl | hp
    · exact ⟨hs.1, by simp [tabGet]⟩
    · obtain ⟨hle, hget⟩ := ih hs.2 hp
      exact ⟨by omega, by rw [tabGet, if_neg (by omega), if_neg (by omega)]; exact hget⟩

/-- The fragments of a token that the current entity detached. -/
def Cur.mine (c : Cur) (s : State) (n : Nat) : List (Nat × Entity) :=
  (s.ents.filter fun x => x.2.parent == some c.eid).filter fun x => x.2.token == n

theorem exec_rcv_free (hs : Standing s c) (hsl : tabGet c.e.slots k.toNat = none) :
    exec (.rcv k) s = .next (c.gather s k.toNat fun s => c.stopOrPass s k.toNat) := by
  rw [exec_rcv, execRcv, withCur_standing hs]
  simp only [hsl]

/-- The `rcv` at which both paths of a slot have come joins them. -/
theorem exec_rcv_joined (hs : Standing s c) {sl : Slot} (hsl : tabGet c.e.slots k.toNat = some sl) (harr : sl.arrived = true) :
    exec (.rcv k) s = .next (c.gather s k.toNat fun s => c.stopOrPass (s.modEnt c.eid fun e =>
      ({ e with mask := e.mask ||| sl.mask, after := s.unperformed c.eid } : Entity).closeSlot k.toNat) k.toNat) := by
  rw [exec_rcv, execRcv, withCur_standing hs]
  simp only [hsl, harr, if_true]

/-- An `rcv` whose entity has no fragment of its token goes on at once. -/
theorem gather_none (f : State → State) (h : c.mine s n = []) : c.gather s n f = f s := by
  unfold Cur.gather State.kids
  unfold Cur.mine at h
  simp only [h, List.isEmpty_nil, if_true]

/-- It waits while one of them runs. -/
theorem gather_running (hs : Standing s c) (hc : s.calm c.e.team) (f : State → State) {x : Nat × Entity} (hx : x ∈ c.mine s n)
    (hrun : x.2.hold ≠ some .merge) : c.gather s n f = c.waiting s .rcv := by
  have hempty : (c.mine s n).isEmpty = false := by cases h : c.mine s n <;> simp_all
  have hall : ((c.mine s n).all fun x => x.2.hold == some .merge) = false := by
    rw [List.all_eq_false]; exact ⟨x, hx, by simpa using hrun⟩
  unfold Cur.gather State.kids
  unfold Cur.mine at hempty hall
  simp only [hempty, hall, Bool.false_eq_true, if_false]
  exact holdAt_calm hs hc .rcv

/-- It takes them in once all have stopped. -/
theorem gather_merged (f : State → State) (hne : c.mine s n ≠ []) (hall : ∀ x ∈ c.mine s n, x.2.hold = some .merge) :
    ∃ before, c.gather s n f = f (((c.mine s n).foldl (fun s x => s.mergeKid c.eid x) s).modEnt c.eid fun e => { e with after := before }) := by
  have hempty : (c.mine s n).isEmpty = false := by cases h : c.mine s n <;> simp_all
  have hall : ((c.mine s n).all fun x => x.2.hold == some .merge) = true := by
    rw [List.all_eq_true]; exact fun x hx => by simpa using hall x hx
  unfold Cur.gather State.kids
  unfold Cur.mine at hempty hall ⊢
  simp only [hempty, hall, Bool.false_eq_true, if_false, if_true]
  exact ⟨_, rfl⟩

/-- An entity that is no fragment of the token goes on. -/
theorem stopOrPass_pass {u : State} {e : Entity} (he : tabGet u.ents c.eid = some e) (h : e.parent = none ∨ e.token ≠ n) :
    c.stopOrPass u n = c.advance u 1 := by
  unfold Cur.stopOrPass
  rw [he]
  dsimp only
  rcases h with h | h
  · simp [Entity.isFrag, h]
  · simp [h]

/-- A merge takes the fragment's lanes and removes it. -/
theorem mergeKid_ents (s : State) (eid : Nat) (x : Nat × Entity) :
    (s.mergeKid eid x).ents = tabMod (tabDel s.ents x.1) eid fun e => { e with mask := e.mask ||| x.2.mask } := rfl

theorem mergeKid_ent {eid : Nat} {x : Nat × Entity} {e : Entity} (hsorted : tabSorted 0 s.ents = true) (he : tabGet s.ents eid = some e)
    (hx : x.1 ≠ eid) : (s.mergeKid eid x).ents = tabPut (tabDel s.ents x.1) eid { e with mask := e.mask ||| x.2.mask } := by
  rw [mergeKid_ents, tabMod_of_get]
  rwa [tabGet_del_other _ (Ne.symm hx) hsorted]

/-- The merge of some fragments: the entity has their lanes, and they are gone. -/
theorem mergeKids_ents (eid : Nat) (kids : List (Nat × Entity)) {s : State} {e : Entity} (hsorted : tabSorted 0 s.ents = true)
    (he : tabGet s.ents eid = some e) (hkids : ∀ x ∈ kids, x.1 ≠ eid) :
    let u := kids.foldl (fun s x => s.mergeKid eid x) s
    tabGet u.ents eid = some { e with mask := kids.foldl (fun m x => m ||| x.2.mask) e.mask } ∧
      ∀ k, k ≠ eid → (tabGet s.ents k = none ∨ ∃ x ∈ kids, x.1 = k) → tabGet u.ents k = none := by
  induction kids generalizing s e with
  | nil => exact ⟨he, fun k _ h => h.elim id fun ⟨x, hx, _⟩ => absurd hx (by simp)⟩
  | cons x kids ih =>
    have hx := hkids x (by simp)
    have hents := mergeKid_ent hsorted he hx
    have hdel := tabSorted_del s.ents x.1 0 hsorted
    obtain ⟨hmask, hgone⟩ := ih (s := s.mergeKid eid x) (e := { e with mask := e.mask ||| x.2.mask })
      (by rw [hents]; exact tabSorted_put _ _ _ _ (Nat.zero_le _) hdel) (by rw [hents]; exact tabGet_put_same ..)
      fun y hy => hkids y (by simp [hy])
    refine ⟨hmask, fun k hk h => hgone k hk ?_⟩
    rw [hents, tabGet_put_other _ _ hk]
    rcases eq_or_ne k x.1 with rfl | hkx
    · exact .inl (tabGet_del_same _ _ hsorted)
    · rw [tabGet_del_other _ hkx hsorted]
      refine h.imp_right ?_
      rintro ⟨y, hy, rfl⟩
      exact ⟨y, by simpa [hkx, ne_comm.mp] using (List.mem_cons.mp hy).resolve_left fun e => hkx (by rw [e]), rfl⟩

/-- The `rcv` at which stopped fragments merge into an entity that is none itself. -/
theorem rcv_merges (hs : Standing s c) (hin : c.inside 1) (hsl : tabGet c.e.slots k.toNat = none) (hp : c.e.parent = none)
    (hsorted : tabSorted 0 s.ents = true) (hne : c.mine s k.toNat ≠ []) (hall : ∀ x ∈ c.mine s k.toNat, x.2.hold = some .merge)
    (hself : ∀ x ∈ c.mine s k.toNat, x.1 ≠ c.eid) :
    ∃ t e, exec (.rcv k) s = .next t ∧ tabGet t.ents c.eid = some e ∧
      e.mask = (c.mine s k.toNat).foldl (fun m x => m ||| x.2.mask) c.e.mask ∧ ∀ x ∈ c.mine s k.toNat, tabGet t.ents x.1 = none := by
  obtain ⟨before, hgather⟩ := gather_merged (fun s => c.stopOrPass s k.toNat) hne hall
  obtain ⟨hmask, hgone⟩ := mergeKids_ents c.eid (c.mine s k.toNat) hsorted hs.ent hself
  generalize (c.mine s k.toNat).foldl (fun s x => s.mergeKid c.eid x) s = u at hgather hmask hgone
  have hent := tabGet_modEnt (fun e => { e with after := before }) hmask
  have hnext := stopOrPass_pass (n := k.toNat) hent (.inl hp)
  rw [advance_inside 1 _ hin] at hnext
  refine ⟨_, _, by rw [exec_rcv_free hs hsl, hgather, hnext], tabGet_modEnt _ hent, rfl, fun x hx => ?_⟩
  · rw [State.modEnt_ents, tabGet_mod_other _ _ (hself x hx), State.modEnt_ents, tabGet_mod_other _ _ (hself x hx)]
    exact hgone _ (hself x hx) (.inr ⟨x, hx, rfl⟩)

/-- A fragment at its own token is ILLOP with a level of its own open, and else stops. -/
theorem stopOrPass_fragment (hs : Standing s c) {q : Nat} (hp : c.e.parent = some q) (hq : (tabGet s.ents q).isSome) (htok : c.e.token = n)
    (hmin : ∀ x ∈ c.e.slots, x.2.minority = false) :
    (c.e.inherited < c.e.loops.length → c.stopOrPass s n = c.illop s) ∧
    (c.e.loops.length ≤ c.e.inherited → c.e.slots = [] → s.kids c.eid = [] → c.stopOrPass s n = c.holdAt s .merge) := by
  have hnone : (c.e.slots.any (·.2.minority)) = false := by
    rw [List.any_eq_false]; exact fun x hx => by simp [hmin x hx]
  have hsome : (tabGet s.ents q).isNone = false := by simpa [Option.isNone_eq_false_iff] using hq
  have hfrag : (c.e.isFrag && !(tabGet s.ents q).isNone && c.e.token == n && !c.e.slots.any (·.2.minority)) = true := by
    simp [Entity.isFrag, hp, hsome, htok, hnone]
  unfold Cur.stopOrPass
  rw [hs.ent]
  simp only [hp, hfrag, if_true]
  refine ⟨fun hlev => if_pos hlev, fun hlev hslots hkids => ?_⟩
  rw [if_neg (by omega)]
  simp only [Entity.innermost, hslots, List.foldl_nil, hkids, List.isEmpty_nil, if_true]

theorem reconvergenceAtRcv : ReconvergenceAtRcv := by
  intro s c k hs hc hsl
  refine ⟨fun hnone hno => ?_, fun x hx hrun => ?_, fun hp hin hne hall hsorted hself => ?_, fun q hp hq htok hlev hslots hkids => ?_,
    fun q hp hq htok hlev hmin hnone => ?_⟩
  · rw [exec_rcv_free hs hsl, gather_none _ hnone, stopOrPass_pass hs.ent hno, advance_self hs]
  · rw [exec_rcv_free hs hsl, gather_running hs hc _ hx hrun]
  · exact rcv_merges hs hin hsl hp hsorted hne hall hself
  · have hmine : c.mine s k.toNat = [] := by unfold Cur.mine; rw [hkids]; rfl
    rw [exec_rcv_free hs hsl, gather_none _ hmine, (stopOrPass_fragment hs hp hq htok (by simp [hslots])).2 hlev hslots hkids,
      holdAt_calm hs hc]
  · rw [exec_rcv_free hs hsl, gather_none _ hnone, (stopOrPass_fragment hs hp hq htok hmin).1 hlev]

/-- What a fold that keeps its choice or takes an element has chosen is an element. -/
theorem foldl_choice {α : Type} (f : Option α → α → Option α) (hf : ∀ b x y, f b x = some y → y = x ∨ b = some y) (l : List α) (b : Option α)
    {y : α} (h : l.foldl f b = some y) : y ∈ l ∨ b = some y := by
  induction l generalizing b with
  | nil => exact .inr h
  | cons x l ih =>
    rcases ih _ h with hy | hy
    · exact .inl (by simp [hy])
    · exact (hf b x y hy).imp (fun e => by simp [e]) id

/-- The innermost slot is one of the slots. -/
theorem innermost_mem {e : Entity} {x : Nat × Slot} (h : e.innermost = some x) : x ∈ e.slots := by
  refine (foldl_choice _ (fun b x y hy => ?_) _ _ h).resolve_right (by simp)
  cases b with
  | none => simp_all
  | some b =>
    dsimp only at hy
    split at hy <;> simp_all

/-- A slot that is closed is empty, and nothing but slots changes. -/
theorem closeSlot_slots {e : Entity} (hsorted : tabSorted 0 e.slots = true) :
    e.closeSlot n = { e with slots := (e.closeSlot n).slots } ∧ tabGet (e.closeSlot n).slots n = none := by
  have hdel := tabGet_del_same e.slots n hsorted
  unfold Entity.closeSlot
  dsimp only
  split
  · split
    · exact ⟨rfl, hdel⟩
    · rename_i j sl hin _
      have hj : n ≠ j := by
        rintro rfl
        have hmem : (n, sl) ∈ tabDel e.slots n := innermost_mem hin
        have hget := (tabGet_of_mem (tabSorted_del e.slots n 0 hsorted) hmem).2
        rw [hdel] at hget
        cases hget
      exact ⟨rfl, by rw [tabGet_put_other _ _ hj]; exact hdel⟩
  · exact ⟨rfl, hdel⟩

/-- The paths of a divergence are exchanged at its `rcv`. -/
theorem rcv_exchanges (hs : Standing s c) (hc : s.calm c.e.team) {sl : Slot} (hsl : tabGet c.e.slots k.toNat = some sl)
    (harr : sl.arrived = false) : ∃ t, exec (.rcv k) s = .next t ∧ s.Left t c.eid (c.e.between.exchange k.toNat sl c.i.pc true) c.e.team (c.ended s c.t c.i) := by
  have hmod := (retire_self_left hs).modEnt fun e => e.exchange k.toNat sl c.i.pc true
  refine ⟨_, ?_, hmod⟩
  rw [exec_rcv, execRcv, withCur_standing hs]
  simp only [hsl, harr, Bool.false_eq_true, if_false]
  rw [hmod.settle ((Team.retires_dying ..).trans (calm_dying hs hc)) (by rw [Cur.ended, Team.retires_wg]; exact calm_aborting hs hc)]

theorem deferredPathsSwitch : DeferredPathsSwitch := by
  intro s c k sl hs hc hsl
  refine ⟨fun harr => ?_, fun harr hin hno hnone hsorted => ?_⟩
  · obtain ⟨t, ht, hleft⟩ := rcv_exchanges hs hc hsl harr
    exact ⟨t, _, _, ht, hleft.ent, rfl, rfl, rfl, tabGet_put_same .., rfl, rfl, rfl⟩
  · have hmine : c.mine s k.toNat = [] := by unfold Cur.mine; rw [List.filter_filter]; simpa [Bool.and_comm] using hnone
    obtain ⟨honly, hempty⟩ := @closeSlot_slots k.toNat { c.e with mask := c.e.mask ||| sl.mask, after := s.unperformed c.eid } hsorted
    have hent := tabGet_modEnt (fun e => ({ e with mask := e.mask ||| sl.mask, after := s.unperformed c.eid } : Entity).closeSlot k.toNat) hs.ent
    have hnext := stopOrPass_pass (n := k.toNat) hent (by rw [honly]; exact hno)
    rw [advance_inside 1 _ hin] at hnext
    have hexec := exec_rcv_joined hs hsl harr
    rw [gather_none _ hmine, hnext] at hexec
    refine ⟨_, _, hexec, tabGet_modEnt _ hent, ?_, hempty, ?_⟩
    · rw [honly]
    · rw [honly]; exact congrArg (Option.map _) hs.issue

/-- Settles O24, by the fragments and slots that the `rcv` finds. -/
theorem reconvergence : Obligations.Reconvergence := ⟨reconvergenceAtRcv, deferredPathsSwitch⟩

end Sys2Proof.Machine

end

section

/-! PROOF: the per-lane branches, of which the choice of a split-table entry fails without the order of the table of entities (R23, R364) -/

namespace Sys2Proof.Machine

open Sys2Proof.Claims

/-- A fragment of the team of a placed word (team 4, of workgroup 2 on core 0), which has entry 0 of the split table. -/
def entryHolder : Entity := { startEntity 4 (fullMask 8) 0 with parent := some 5 }

/-- A placed word with two entities out of order: the second, a fragment, has the number that is given out next, and no look-up of that number
finds it. -/
def outOfOrder : State := { State.reset.placeWord 0 with nextId := 0, ents := [(1, startEntity 4 (fullMask 8) 0), (0, entryHolder)] }

/-- Entry 0 is counted as free, for the choice leaves out whatever has the next number, and yet the fragment has it. -/
theorem outOfOrder_entry : tabGet outOfOrder.ents outOfOrder.nextId = none ∧ outOfOrder.freeEntryOf 0 0 = some 0 ∧
    outOfOrder.hasEntry 0 0 entryHolder = true := by decide

/-- Refutes O23: the clause on the lowest free entry says nothing of the order of the table of entities, and in a table out of order an entity
that no look-up finds under the next number has the entry that is chosen. -/
theorem not_laneBranches : ¬ Obligations.LaneBranches := by
  rintro ⟨-, -, hlowest, -⟩
  obtain ⟨hnone, hfree, hhas⟩ := outOfOrder_entry
  obtain ⟨-, -, hno, -⟩ := (hlowest outOfOrder 0 0 0 hnone).mp hfree
  exact hno ⟨(0, entryHolder), by simp [outOfOrder], hhas, rfl⟩

end Sys2Proof.Machine

end

section

/-! SUPPORT: the checks of an access (R100): what none of its lanes fails, and the first that some lane fails -/

namespace Sys2Proof.Machine

open Sys2Proof.Claims

variable {s : State} {c : Cur} {a : Acc} {rs : List LaneReq} {ks : List Check}

theorem check_passes {x : Nat} {bad : LaneReq → Bool} {r : LaneReq} (h : r.fill = none → bad r = false) : (check x bad).bad r = none := by
  unfold check
  cases hf : r.fill <;> simp [hf, h]

theorem check_fails {x : Nat} {bad : LaneReq → Bool} {r : LaneReq} (hf : r.fill = none) (h : bad r = true) :
    (check x bad).bad r = some (r.addr, 0) := by
  simp [check, hf, h]

theorem alignCheck_passes {n : Nat} {r : LaneReq} (h : r.fill = none → r.addr % n = 0) : (alignCheck n).bad r = none :=
  check_passes fun hf => by simp [h hf]

/-- A check that no lane fails hands on to the next. -/
theorem firstFail_cons_passed {k : Check} (h : ∀ r ∈ rs, k.bad r = none) : firstFail rs (k :: ks) = firstFail rs ks := by
  have hnil : (rs.filterMap fun r => (k.bad r).map fun a => (r.lane, a)) = [] :=
    List.filterMap_eq_nil_iff.mpr fun r hr => by rw [h r hr]; rfl
  rw [firstFail, hnil]

theorem firstFail_passed (h : ∀ k ∈ ks, ∀ r ∈ rs, k.bad r = none) : firstFail rs ks = none := by
  induction ks with
  | nil => rfl
  | cons k ks ih => rw [firstFail_cons_passed (h k (by simp)), ih fun j hj => h j (by simp [hj])]

/-- A check that every lane fails names them all. -/
theorem firstFail_cons_all {k : Check} (hne : rs ≠ []) (h : ∀ r ∈ rs, (k.bad r).isSome) :
    ∃ a b, firstFail rs (k :: ks) = some (k.cause, rs.map (·.lane), a, b) := by
  have hall : (rs.filterMap fun r => (k.bad r).map fun a => (r.lane, a)).map (·.1) = rs.map (·.lane) := by
    rw [List.map_filterMap]
    refine (List.filterMap_congr fun r hr => ?_).trans (congrFun List.filterMap_eq_map rs)
    obtain ⟨x, hx⟩ := Option.isSome_iff_exists.mp (h r hr)
    simp [hx]
  cases hl : rs.filterMap fun r => (k.bad r).map fun a => (r.lane, a) with
  | nil => rw [hl] at hall; exact absurd (List.map_eq_nil_iff.mp hall.symm) hne
  | cons x xs => rw [firstFail, hl, ← hall, hl]; exact ⟨_, _, rfl⟩

/-- The checks on the pages of an access, where each page gives no fault. -/
theorem pageChecks_passed (h : PagesPass s c a rs) (hsp : a.space = .global) : ∀ k ∈ s.pageChecks c.t a.acc a.size, ∀ r ∈ rs, k.bad r = none := by
  intro k hk r hr
  have hpass := h hsp r hr
  have hfault (f : Nat → Nat → Nat → Option (Int × Nat)) : (match r.fill, s.teamXlate c.t a.acc (ptrOf r.addr) a.size with
      | none, .fault x p q => f x p q
      | _, _ => none) = none := by
    cases hf : r.fill with
    | some _ => rfl
    | none =>
      cases hx : s.teamXlate c.t a.acc (ptrOf r.addr) a.size with
      | fault x p q => exact absurd hx ((hpass hf).2 x p q)
      | _ => rfl
  simp only [State.pageChecks, List.mem_cons, List.not_mem_nil, or_false] at hk
  rcases hk with rfl | rfl | rfl
  · exact check_passes fun hf => by simp [(hpass hf).1]
  · exact hfault _
  · exact hfault _

/-- An access that no check stops and that its queue has room for is issued. -/
theorem access_passed {n : Nat} (hcnt : c.t.cnt a.cnt < 63) (hwalk : s.walksWait c.t a rs = false) (hpages : PagesPass s c a rs)
    (hfits : c.fits s a rs = true) (hks : ∀ k ∈ ks, ∀ r ∈ rs, k.bad r = none) :
    c.access s a rs ks n = c.advance (c.launchAccess s a rs) n := by
  have hnone : firstFail rs (ks ++ if a.space = .global then s.pageChecks c.t a.acc a.size else []) = none := by
    refine firstFail_passed fun k hk => (List.mem_append.mp hk).elim (hks k) fun hk => ?_
    split at hk
    · exact pageChecks_passed hpages ‹_› k hk
    · simp at hk
  unfold Cur.access
  simp only [if_neg (Nat.not_le.mpr hcnt), hwalk, hnone, hfits, Bool.false_eq_true, if_false, if_true]

/-- A vector access with room that meets its checks is issued. -/
theorem vecAccess_passed {n : Nat} {ok : LaneReq → Prop} (h : Passes s c a rs ok) (hks : ∀ k ∈ ks, ∀ r ∈ rs, (r.fill = none → r.addr % a.size = 0 ∧ ok r) → k.bad r = none) :
    c.vecAccess s a rs ks n = c.advance (c.launchAccess s a rs) n := by
  obtain ⟨⟨hmask, hgrant⟩, hcnt, hwalk, hpages, hfits, hok⟩ := h
  unfold Cur.vecAccess
  rw [if_neg hmask, hgrant, if_neg Bool.false_ne_true]
  exact access_passed hcnt hwalk hpages hfits fun k hk r hr => hks k hk r hr (hok r hr)

/-- An access whose first failing check fails for every lane is that check's fault. -/
theorem vecAccess_failed {n : Nat} {k : Check} {before after : List Check} (hroom : Room c) (hcnt : c.t.cnt a.cnt < 63)
    (hwalk : s.walksWait c.t a rs = false) (hne : rs ≠ []) (hu : a.uniform = false) (hbefore : ∀ j ∈ before, ∀ r ∈ rs, j.bad r = none)
    (hfail : ∀ r ∈ rs, (k.bad r).isSome) :
    ∃ f : FaultInfo, c.vecAccess s a rs (before ++ k :: after) n = c.raiseWith s f ∧ f.cause = k.cause ∧ f.lanes = maskOf (rs.map (·.lane)) := by
  have hskip (more : List Check) : firstFail rs (before ++ more) = firstFail rs more := by
    induction before with
    | nil => rfl
    | cons j js ih => rw [List.cons_append, firstFail_cons_passed (hbefore j (by simp)), ih fun i hi => hbefore i (by simp [hi])]
  obtain ⟨x, y, hfirst⟩ := firstFail_cons_all (ks := after ++ if a.space = .global then s.pageChecks c.t a.acc a.size else []) hne hfail
  obtain ⟨hmask, hgrant⟩ := hroom
  refine ⟨{ c.fault k.cause (ptrOf x) with lanes := c.named a.uniform (rs.map (·.lane)), addr2 := y }, ?_, rfl, by rw [hu]; rfl⟩
  unfold Cur.vecAccess Cur.access
  simp only [if_neg hmask, hgrant, if_neg (Nat.not_le.mpr hcnt), hwalk, Bool.false_eq_true, if_false, List.append_assoc, List.cons_append, hskip, hfirst]

/-- The requests of an access that is not uniform are those of its active lanes, none of which is a fill. -/
theorem globalReqs_lanes (c : Cur) (b : Nat) (v : VOp) (off : Int) (data : Nat → List Byte) :
    (c.globalReqs false b v off data).map (·.lane) = lanesOf c.e.mask c.t.lanes ∧ ∀ r ∈ c.globalReqs false b v off data, r.fill = none := by
  unfold Cur.globalReqs
  refine ⟨?_, fun r hr => ?_⟩
  · rw [List.map_map]
    exact List.map_id _
  · obtain ⟨l, -, rfl⟩ := List.mem_map.mp hr
    rfl

end Sys2Proof.Machine

end

section

/-! PROOF: atomics issue, and what stops them (R37, R100, R217, R218, R221) -/

namespace Sys2Proof.Machine

open Sys2Proof.Claims

variable {s : State} {c : Cur}

theorem exec_globalAtomic (o : AOrd) (t : ATy) (d v : VOp) (b : BitVec 4) (s : State) :
    ∀ r ∈ globalAtomics, exec (r.1 o t d b v) s = globalAtomic r.2 (atomTy r.2 t) o d b v s := by
  intro r hr
  simp only [globalAtomics, List.mem_cons, List.not_mem_nil, or_false] at hr
  rcases hr with rfl | rfl | rfl | rfl | rfl | rfl | rfl | rfl | rfl | rfl
  case inr.inr.inr.inr.inr.inr.inr.inr.inr => cases t <;> rfl
  all_goals rfl

theorem exec_spaceAtomic (o : AOrd) (p : Sp) (t : ATy) (d v : VOp) (s : State) :
    ∀ r ∈ spaceAtomics, exec (r.1 o p t d v) s = spaceAtomic r.2 (atomTy r.2 t) o p d v s := by
  intro r hr
  simp only [spaceAtomics, List.mem_cons, List.not_mem_nil, or_false] at hr
  rcases hr with rfl | rfl | rfl | rfl | rfl | rfl | rfl | rfl | rfl | rfl
  case inr.inr.inr.inr.inr.inr.inr.inr.inr => cases t <;> rfl
  all_goals rfl

theorem detFault_iff (c : Cur) (op : AtomicOp) (ty : ATy) :
    c.detFault op ty = true ↔ c.i.mode.getLsbD 5 = true ∧ (op = .acc ∨ (op = .add ∧ ty = .f32)) := by
  simp only [Cur.detFault, Cur.det, modeDet, Bool.and_eq_true, Bool.or_eq_true, beq_iff_eq]

/-- Settles O35: each atomic is the one of its space, and each check passes or fails on every lane. -/
theorem atomicsIssue : Obligations.AtomicsIssue := by
  unfold Obligations.AtomicsIssue
  intro s c o t d v b p hs
  refine ⟨fun r hr hdet hphase hpass => ?_, fun r hr hdet hpass => ?_, fun r hr hdet hphase hroom hcnt hwalk hne halign => ?_,
    fun r hr hmask hdet => ?_, fun r hr hmask hdet => ?_, detFault_iff c⟩
  · rw [exec_globalAtomic o t d v b s r hr, globalAtomic, withCur_standing hs]
    simp only [hdet, Bool.and_false, Bool.false_eq_true, if_false]
    rw [vecAccess_passed hpass]
    intro k hk x hx hok
    simp only [List.mem_cons, List.not_mem_nil, or_false] at hk
    rcases hk with rfl | rfl
    · exact alignCheck_passes fun hf => (hok hf).1
    · exact check_passes fun _ => hphase
  · rw [exec_spaceAtomic o p t d v s r hr, spaceAtomic, withCur_standing hs]
    simp only [hdet, Bool.and_false, Bool.false_eq_true, if_false]
    rw [vecAccess_passed hpass]
    intro k hk x hx hok
    simp only [List.mem_cons, List.not_mem_nil, or_false] at hk
    rcases hk with rfl | rfl | rfl
    · exact alignCheck_passes fun hf => (hok hf).1
    · exact check_passes fun hf => by
        obtain ⟨-, ⟨hlow, hhigh⟩, -⟩ := hok hf
        simp [hlow, hhigh]
    · exact check_passes fun hf => (hok hf).2.2
  · obtain ⟨hlanes, hfill⟩ := globalReqs_lanes c b.toNat v 0 (c.atomData r.2 (atomTy r.2 t) d)
    obtain ⟨f, hf, hcause, hnamed⟩ := vecAccess_failed (n := 1) (k := check cWINV fun _ => s.inPhase c.t)
      (before := [alignCheck (atomAcc r.2 (atomTy r.2 t) o .global d).size]) (after := []) hroom hcnt hwalk hne rfl
      (fun j hj x hx => by obtain rfl := List.mem_singleton.mp hj; exact alignCheck_passes fun _ => halign x hx)
      (fun x hx => by rw [check_fails (hfill x hx) hphase]; rfl)
    refine ⟨f, ?_, hcause, by rw [hnamed, hlanes]⟩
    rw [exec_globalAtomic o t d v b s r hr, globalAtomic, withCur_standing hs]
    simp only [hdet, Bool.and_false, Bool.false_eq_true, if_false]
    exact congrArg _ hf
  · rw [exec_globalAtomic o t d v b s r hr, globalAtomic, withCur_standing hs]
    exact congrArg _ (if_pos (by simp only [hdet, Bool.and_true, decide_eq_true_eq]; exact hmask))
  · rw [exec_spaceAtomic o p t d v s r hr, spaceAtomic, withCur_standing hs]
    exact congrArg _ (if_pos (by simp only [hdet, Bool.and_true, decide_eq_true_eq]; exact hmask))

end Sys2Proof.Machine

end

section

/-! SUPPORT: what a translation, a device's store and a fault record leave alone (R324, R335, R336, R397) -/

namespace Sys2Proof.Machine

/-- Two states agree in everything but memory with what stands for it on its way (L1s, TLBs, what waits for a port), the contexts' registers and
the messages sent. -/
structure State.Stored (s u : State) : Prop where
  rest : u = { s with mem := u.mem, poison := u.poison, lineKey := u.lineKey, l1 := u.l1, tlb := u.tlb, ctxs := u.ctxs, evPend := u.evPend
                      irqs := u.irqs, outbox := u.outbox }

theorem State.Stored.refl (s : State) : s.Stored s := ⟨rfl⟩
theorem State.Stored.trans {s u v : State} (h : s.Stored u) (g : u.Stored v) : s.Stored v := ⟨by rw [g.rest, h.rest]⟩

theorem State.Stored.foldl {α : Type} {f : State → α → State} (hf : ∀ (s : State) x, s.Stored (f s x)) (l : List α) (s : State) :
    s.Stored (l.foldl f s) := by
  induction l generalizing s with
  | nil => exact .refl s
  | cons x l ih => exact (hf s x).trans (ih _)

theorem State.Stored.ite {p : Prop} [Decidable p] {s u v : State} (h : s.Stored u) (g : s.Stored v) : s.Stored (if p then u else v) := by
  split
  · exact h
  · exact g

variable {s u : State}

theorem State.Stored.ents (h : s.Stored u) : u.ents = s.ents := by rw [h.rest]
theorem State.Stored.teams (h : s.Stored u) : u.teams = s.teams := by rw [h.rest]
theorem State.Stored.wgs (h : s.Stored u) : u.wgs = s.wgs := by rw [h.rest]
theorem State.Stored.ops (h : s.Stored u) : u.ops = s.ops := by rw [h.rest]
theorem State.Stored.replay (h : s.Stored u) : u.replay = s.replay := by rw [h.rest]
theorem State.Stored.copies (h : s.Stored u) : u.copies = s.copies := by rw [h.rest]
theorem State.Stored.engines (h : s.Stored u) : u.engines = s.engines := by rw [h.rest]
theorem State.Stored.nextId (h : s.Stored u) : u.nextId = s.nextId := by rw [h.rest]
theorem State.Stored.coreOf (h : s.Stored u) (t : Team) : u.coreOf t = s.coreOf t := by simp only [State.coreOf, State.wgOf, h.wgs]
theorem State.Stored.ctxOf (h : s.Stored u) (t : Team) : u.ctxOf t = s.ctxOf t := by simp only [State.ctxOf, State.wgOf, h.wgs]
theorem State.Stored.stackOf (h : s.Stored u) (t : Team) : u.stackOf t = s.stackOf t := by simp only [State.stackOf, h.coreOf]
theorem State.Stored.partOf (h : s.Stored u) (t : Team) : u.partOf t = s.partOf t := by simp only [State.partOf, h.coreOf]

theorem State.rekey_stored (s : State) (line key : Nat) : s.Stored (s.rekey line key) := by
  unfold State.rekey
  split <;> exact ⟨rfl⟩

theorem State.storeByte_stored (s : State) (x : Nat) (b : Byte) : s.Stored (s.storeByte x b) := by
  unfold State.storeByte
  split
  · exact (s.rekey_stored _ _).trans ⟨rfl⟩
  · exact ⟨rfl⟩

theorem State.storeBytes_stored (s : State) (x : Nat) (bs : List Byte) : s.Stored (s.storeBytes x bs) := by
  induction bs generalizing s x with
  | nil => exact .refl s
  | cons b bs ih => exact (s.storeByte_stored x b).trans (ih _ _)

theorem State.writeDirty_stored (s : State) (x : Nat) (dirty : BitVec 16) (bs : List Byte) (i : Nat) : s.Stored (s.writeDirty x dirty bs i) := by
  induction bs generalizing s i with
  | nil => exact .refl s
  | cons b bs ih => exact (State.Stored.ite (s.storeByte_stored ..) (.refl s)).trans (ih _ _)

theorem State.writeBack_stored (s : State) (T : Tab Sector) : s.Stored (s.writeBack T) := by
  induction T generalizing s with
  | nil => exact .refl s
  | cons p T ih => exact (s.writeDirty_stored ..).trans (ih _)

theorem State.l1Drop_stored (s : State) (col : Nat) (hit : Nat → Bool) : s.Stored (s.l1Drop col hit) :=
  (s.writeBack_stored _).trans ⟨rfl⟩

theorem State.l1Evict_stored (s : State) (cols : List Nat) (hit : Nat → Bool) : s.Stored (s.l1Evict cols hit) :=
  .foldl (fun s _ => s.l1Drop_stored ..) _ _

theorem State.touch_stored (s : State) (stack c : Nat) (k : AccKind) (ptr : Nat) : s.Stored (s.touch stack c k ptr) := by
  unfold State.touch
  extract_lets va
  split
  · exact .refl s
  split
  · extract_lets e1 e2 s₁
    exact (State.Stored.ite (.refl s) (s.storeBytes_stored ..) : s.Stored s₁).trans ⟨rfl⟩
  · exact .refl s

theorem State.deviceSend_stored (s : State) (stack c ptr : Nat) (bytes : List Byte) : s.Stored (s.deviceSend stack c ptr bytes) := by
  unfold State.deviceSend State.deviceStore
  refine .ite ⟨rfl⟩ (.foldl (fun s i => ?_) _ s)
  split
  · exact ((s.touch_stored ..).trans (State.l1Evict_stored ..)).trans (State.storeBytes_stored ..)
  · exact .refl s

theorem State.Counted.stored (h : s.Counted u) : s.Stored u := ⟨by rw [h.rest]⟩

theorem State.fqWrite_stored (s : State) (stack c : Nat) (bytes : List Byte) : s.Stored (s.fqWrite stack c bytes) := by
  unfold State.fqWrite
  refine .ite (.refl s) (.ite ⟨rfl⟩ (.ite ⟨rfl⟩ ?_))
  refine State.Stored.trans ?_ (State.countEvent_counted ..).stored
  generalize hv : (List.range (bytes.length / 64)).foldl _ s = v
  have hsent : s.Stored v := hv ▸ .foldl (fun s i => s.deviceSend_stored ..) _ _
  exact hsent.trans ⟨rfl⟩

theorem State.fqFault_stored (s : State) (t : Team) (f : FaultInfo) : s.Stored (s.fqFault t f) := s.fqWrite_stored ..

end Sys2Proof.Machine

end

section

/-! SUPPORT: the bits and the bytes of a page-table entry (R4, R334, R335) -/

namespace Sys2Proof.Machine

theorem bitOf_eq_testBit (x i : Nat) : bitOf x i = x.testBit i := by
  rw [Nat.testBit_eq_decide_div_mod_eq, bitOf, beq_eq_decide]

/-- A bit that is clear is set by adding its power. -/
theorem bitOf_add_two_pow {x k : Nat} (h : bitOf x k = false) (i : Nat) : bitOf (x + 2 ^ k) i = (bitOf x i || decide (i = k)) := by
  simp only [bitOf_eq_testBit] at h ⊢
  rcases Nat.lt_trichotomy i k with hi | rfl | hi
  · rw [Nat.add_comm, Nat.testBit_two_pow_add_gt hi]
    simp [hi.ne]
  · rw [Nat.add_comm, Nat.testBit_two_pow_add_eq]
    simp [h]
  · obtain ⟨j, rfl⟩ : ∃ j, i = j + 1 + k := ⟨i - k - 1, by omega⟩
    rw [Nat.testBit_add _ (j + 1) k, Nat.testBit_add x (j + 1) k, Nat.add_div_right _ (Nat.two_pow_pos k), Nat.testBit_add_one, Nat.testBit_add_one]
    have heven : x / 2 ^ k % 2 = 0 := by
      rw [Nat.testBit_eq_decide_div_mod_eq, decide_eq_false_iff_not] at h
      omega
    rw [show (x / 2 ^ k + 1) / 2 = x / 2 ^ k / 2 by omega]
    simp

theorem leNat_lt (bs : List Byte) : leNat bs < 256 ^ bs.length := by
  induction bs with
  | nil => simp [leNat]
  | cons b bs ih =>
    simp only [leNat, List.length_cons, Nat.pow_succ]
    have := b.isLt
    omega

theorem pteAt_lt (s : State) (a : Nat) : s.pteAt a < 2 ^ 64 := by
  have h := leNat_lt (s.loadBytes a 8)
  rwa [State.loadBytes, List.length_map, List.length_range] at h

/-- A leaf of a walk is the entry at its address. -/
theorem walkFrom_leaf {s : State} {va e l a : Nat} (lvl table : Nat) (h : s.walkFrom va lvl table = .leaf e l a) : e = s.pteAt a := by
  induction lvl generalizing table with
  | zero => simp [State.walkFrom] at h
  | succ lvl ih =>
    simp only [State.walkFrom] at h
    split at h
    · cases h
    · split at h
      · cases h
      · split at h
        · cases h
        · split at h
          · cases h; rfl
          · exact ih _ h

theorem leafFor_leaf {s : State} {stack c va e l a : Nat} {k : AccKind} (hnone : s.tlbFind stack c va = none)
    (h : s.leafFor stack c k va = .leaf e l a) : e = s.pteAt a := by
  simp only [State.leafFor, hnone] at h
  unfold State.walk at h
  generalize BitVec.toNat _ = root at h
  dsimp only at h
  split at h
  · exact walkFrom_leaf _ _ h
  · cases h

/-- The entry that a translation leaves: marked accessed, and written by a write. -/
def markedEntry (k : AccKind) (e : Nat) : Nat :=
  let e1 := if bitOf e 8 then e else e + 256
  if k.writes && !bitOf e1 9 then e1 + 512 else e1

theorem markedEntry_bits (k : AccKind) (e i : Nat) :
    bitOf (markedEntry k e) i = (bitOf e i || decide (i = 8) || (k.writes && decide (i = 9))) := by
  have hacc : ∀ i, bitOf (if bitOf e 8 then e else e + 256) i = (bitOf e i || decide (i = 8)) := fun i => by
    split
    next h => rcases eq_or_ne i 8 with rfl | hi <;> simp [*]
    next h => exact bitOf_add_two_pow (by simpa using h) i
  unfold markedEntry
  generalize (if bitOf e 8 then e else e + 256) = e1 at hacc
  dsimp only
  split
  next h =>
    simp only [Bool.and_eq_true, Bool.not_eq_true'] at h
    rw [show (512 : Nat) = 2 ^ 9 from rfl, bitOf_add_two_pow h.2, hacc, h.1, Bool.true_and]
  next h =>
    rw [hacc]
    rcases eq_or_ne i 9 with rfl | hi
    · have h9 := hacc 9
      cases hw : k.writes <;> simp_all
    · simp [hi]

theorem markedEntry_lt (k : AccKind) {e : Nat} (h : e < 2 ^ 64) : markedEntry k e < 2 ^ 64 := by
  refine Nat.lt_pow_two_of_testBit _ fun i hi => ?_
  rw [← bitOf_eq_testBit, markedEntry_bits, bitOf_eq_testBit, Nat.testBit_lt_two_pow (h.trans_le (Nat.pow_le_pow_right (by omega) hi))]
  simp [show i ≠ 8 by omega, show i ≠ 9 by omega]

variable {s : State}

/-- A byte stored on a plaintext line changes no other byte of memory, even where it waits for a port. -/
theorem storeByte_keyless {x : Nat} (hx : x < 2 ^ 48) (hkey : tabGet s.lineKey (x / 64) = none) (hw : Canonical s) (b : Byte) :
    (s.storeByte x b).lineKey = s.lineKey ∧ ∀ a, a ≠ x → (s.storeByte x b).byteAt a = s.byteAt a := by
  by_cases hr : s.reaches x = true
  · have hplain : s.Plain x := ⟨hkey, hr, hx⟩
    exact ⟨(State.storeByte_alike hplain b).lineKey, fun a ha => State.byteAt_storeByte_other hw hplain b ha⟩
  · rw [State.storeByte, if_neg hr]
    exact ⟨rfl, fun _ _ => rfl⟩

theorem storeBytes_keyless {x : Nat} {bs : List Byte} (hx : x + bs.length ≤ 2 ^ 48)
    (hkey : ∀ i < bs.length, tabGet s.lineKey ((x + i) / 64) = none) (hw : Canonical s) {a : Nat} (ha : a < x ∨ x + bs.length ≤ a) :
    (s.storeBytes x bs).byteAt a = s.byteAt a := by
  induction bs generalizing s x with
  | nil => rfl
  | cons b bs ih =>
    simp only [List.length_cons] at hx hkey ha
    obtain ⟨hline, hbyte⟩ := storeByte_keyless (x := x) (by omega) (by simpa using hkey 0 (by omega)) hw b
    refine (ih (by omega) (fun i hi => ?_) (.storeByte hw) (by omega)).trans (hbyte a (by omega))
    rw [hline, Nat.add_assoc, Nat.add_comm 1]
    exact hkey (i + 1) (by omega)

/-- Bytes stored on plaintext lines that the package reaches are written to memory. -/
theorem storeBytes_plain {x : Nat} {bs : List Byte} (h : ∀ i < bs.length, s.Plain (x + i)) :
    s.Alike (s.storeBytes x bs) ∧ (s.storeBytes x bs).mem = Memory.writeN s.mem x bs := by
  induction bs generalizing s x with
  | nil => exact ⟨.refl s, rfl⟩
  | cons b bs ih =>
    have hplain : s.Plain x := h 0 (by simp)
    have halike := State.storeByte_alike hplain b
    obtain ⟨h1, h2⟩ := ih (s := s.storeByte x b) (x := x + 1) fun i hi => by
      rw [Nat.add_right_comm, Nat.add_assoc]
      exact (h (i + 1) (by simpa using hi)).alike halike
    refine ⟨halike.trans h1, ?_⟩
    rw [State.storeBytes, h2, State.storeByte_plain hplain]
    rfl

theorem loadByte_plain {a : Nat} (h : s.Plain a) : s.loadByte a = s.byteAt a := by
  simp [State.loadByte, physAddr, physKey, Nat.mod_eq_of_lt h.addr, Nat.div_eq_of_lt h.addr, h.key, State.byteAt]

/-- An entry written on a plaintext line reads back. -/
theorem pteAt_storeBytes {p e : Nat} (hw : Memory.wf s.mem = true) (h : ∀ i < 8, s.Plain (p + i)) (he : e < 2 ^ 64) :
    (s.storeBytes p (leBytes 8 e)).pteAt p = e := by
  obtain ⟨halike, hmem⟩ := storeBytes_plain (s := s) (x := p) (bs := leBytes 8 e) (by simpa using h)
  have hbytes : (s.storeBytes p (leBytes 8 e)).loadBytes p 8 = leBytes 8 e := by
    refine List.ext_getElem (by simp [State.loadBytes]) fun i hi hi' => ?_
    have hi8 : i < 8 := by simpa [State.loadBytes] using hi
    simp only [State.loadBytes, List.getElem_map, List.getElem_range]
    rw [loadByte_plain ((h i hi8).alike halike), State.byteAt, hmem, read_writeN_inside hw _ _ _ (by simpa using hi8)]
  rw [State.pteAt, hbytes, leNat_leBytes]
  exact Nat.mod_eq_of_lt he

end Sys2Proof.Machine

end

section

/-! PROOF: what a translation leaves in memory (R335) -/

namespace Sys2Proof.Machine

open Sys2Proof.Claims

variable {s : State} {stack c ptr e lvl p : Nat} {k : AccKind}

theorem touch_no_leaf (h : ∀ e lvl p, s.leafFor stack c k (ptr % 2 ^ 57) ≠ .leaf e lvl p) : s.touch stack c k ptr = s := by
  unfold State.touch
  extract_lets va
  split
  · rfl
  · split
    · exact absurd ‹_› (h _ _ _)
    · rfl

/-- A translation from the TLB that has nothing to mark, and any other. -/
theorem touch_leaf (h : s.leafFor stack c k (ptr % 2 ^ 57) = .leaf e lvl p) :
    (s.tlbFind stack c (ptr % 2 ^ 57) ≠ none ∧ s.touch stack c k ptr = s) ∨
    ∃ T, s.touch stack c k ptr =
      { (if markedEntry k e = e then s else s.storeBytes p (leBytes 8 (markedEntry k e))) with tlb := T } := by
  unfold State.touch
  extract_lets va
  split
  next hf _ => exact .inl ⟨by simp [va] at hf; simp [hf], rfl⟩
  · have h' : s.leafFor stack c k va = .leaf e lvl p := h
    rw [h']
    exact .inr ⟨_, rfl⟩

/-- The eight bytes of an entry lie in one line, and all or none of them in HBM. -/
theorem entry_plain (hp : p % 8 = 0) (hend : p + 8 ≤ 2 ^ 48) (hkey : tabGet s.lineKey (p / 64) = none) (hr : s.reaches p = true) :
    ∀ i < 8, s.Plain (p + i) := by
  intro i hi
  refine ⟨by rw [show (p + i) / 64 = p / 64 by omega]; exact hkey, ?_, by omega⟩
  have hphys (j : Nat) (hj : j < 8) : physAddr (p + j) = p + j := Nat.mod_eq_of_lt (by omega)
  have h0 := hphys 0 (by omega)
  rw [Nat.add_zero] at h0
  simp only [State.reaches, hphys i hi, h0, inHbm, Config.hostBase, Config.hbmStackBytes, Bool.or_eq_true, decide_eq_true_eq] at hr ⊢
  exact hr.imp_left fun h => by omega

/-- A translation that has a leaf writes that entry alone. -/
theorem translationMarksItsEntry : TranslationMarksItsEntry := by
  intro s stack ctx k ptr
  refine ⟨touch_no_leaf, fun e lvl p hleaf hw hp hend hkey => ?_⟩
  have hstored := s.touch_stored stack ctx k ptr
  refine ⟨fun a ha => ?_, hstored.teams, hstored.ents, hstored.ops, fun hnone hr => ?_⟩
  · rcases touch_leaf hleaf with ⟨-, h⟩ | ⟨T, h⟩
    · rw [h]
    · rw [h]
      split
      · rfl
      · refine storeBytes_keyless (s := s) (x := p) (by simpa using hend) (fun i hi => ?_) ⟨hw⟩ (by simpa using ha)
        rw [leBytes_length] at hi
        rw [show (p + i) / 64 = p / 64 by omega]
        exact hkey
  · have hpte := leafFor_leaf hnone hleaf
    have hentry : (s.touch stack ctx k ptr).pteAt p = markedEntry k (s.pteAt p) := by
      rcases touch_leaf hleaf with ⟨h, -⟩ | ⟨T, h⟩
      · exact absurd hnone h
      · rw [h, hpte]
        change State.pteAt (if markedEntry k (s.pteAt p) = s.pteAt p then s else _) p = _
        split
        next hsame => exact hsame.symm
        next => exact pteAt_storeBytes hw (entry_plain hp hend hkey hr) (markedEntry_lt k (pteAt_lt s p))
    rw [hentry]
    refine ⟨by simp [markedEntry_bits], fun hk => by simp [markedEntry_bits, hk], fun i h8 h9 => by simp [markedEntry_bits, h8, h9]⟩

end Sys2Proof.Machine

end

section

/-! SUPPORT: the issue of an access: its operation in flight, its counter, and its destination in the scoreboard (R21, R45, R51, R213) -/

namespace Sys2Proof.Machine

open Sys2Proof.Claims

/-- Some vector registers from a first one on turned to tag G. -/
def Team.expands (t : Team) (k n : Nat) : Team := (List.range n).foldl (fun t i => t.expand (k + i)) t

theorem Team.expands_succ (t : Team) (k n : Nat) : t.expands k (n + 1) = (t.expands k n).expand (k + n) := by
  simp [Team.expands, List.range_succ]

theorem Team.expands_only (t : Team) (k n : Nat) : t.expands k n = { t with v := (t.expands k n).v } := by
  induction n with
  | zero => rfl
  | succ n ih => rw [Team.expands_succ, ih]; rfl

theorem Team.expands_lanes (t : Team) (k n : Nat) : (t.expands k n).lanes = t.lanes := by rw [Team.expands_only]

theorem Team.expands_other (t : Team) {k n m : Nat} (h : ∀ i < n, m ≠ k + i) : (t.expands k n).vreg m = t.vreg m := by
  induction n with
  | zero => rfl
  | succ n ih =>
    rw [Team.expands_succ, Team.expand, vreg_setV, if_neg (h n (by omega)), ih fun i hi => h i (by omega)]

/-- The words of a register are what its lanes hold. -/
theorem words_getD (r : VReg) (w : Word) {n l : Nat} (h : l < n) : (r.words w n).getD l 0 = r.lane w l := by
  cases r <;> simp [VReg.words, VReg.lane, h]

theorem Team.expand_lane (t : Team) (n m : Nat) {l : Nat} (h : l < t.lanes) : ((t.expand n).vreg m).lane absentRaw l = (t.vreg m).lane absentRaw l := by
  rw [Team.expand, vreg_setV]
  split
  next heq =>
    subst heq
    exact words_getD _ _ h
  · rfl

/-- Every lane of an expanded register reads as it did (R45). -/
theorem Team.expands_lane (t : Team) (k n m : Nat) {l : Nat} (h : l < t.lanes) :
    ((t.expands k n).vreg m).lane absentRaw l = (t.vreg m).lane absentRaw l := by
  induction n with
  | zero => rfl
  | succ n ih => rw [Team.expands_succ, Team.expand_lane _ _ _ (by rwa [Team.expands_lanes]), ih]

/-- A team whose access issues as operation `id`. -/
def Team.prepares (t : Team) (a : Acc) (full : Bool) : Team :=
  match a.dest with
  | .vreg k => if a.uniform && full then t else t.expands k (regCount a.size)
  | _ => t
def Team.issues (t : Team) (a : Acc) (full : Bool) (id : Nat) : Team :=
  ((t.prepares a full).cntPush a.cnt id).addPend id id (a.dest.refs (regCount a.size))

theorem Team.prepares_only (t : Team) (a : Acc) (full : Bool) : t.prepares a full = { t with v := (t.prepares a full).v } := by
  unfold Team.prepares
  split
  · split
    · rfl
    · exact t.expands_only ..
  · rfl

theorem Team.prepares_other (t : Team) (a : Acc) (full : Bool) {m : Nat} (h : Ref.v m ∉ a.dest.refs (regCount a.size)) :
    (t.prepares a full).vreg m = t.vreg m := by
  unfold Team.prepares
  split
  next k hk =>
    split
    · rfl
    · refine t.expands_other fun i hi hm => h ?_
      rw [hk, hm]
      exact List.mem_map.mpr ⟨i, List.mem_range.mpr hi, rfl⟩
  · rfl

theorem Team.prepares_lane (t : Team) (a : Acc) (full : Bool) (m : Nat) {l : Nat} (h : l < t.lanes) :
    ((t.prepares a full).vreg m).lane absentRaw l = (t.vreg m).lane absentRaw l := by
  unfold Team.prepares
  split
  · split
    · rfl
    · exact t.expands_lane _ _ _ h
  · rfl

theorem Team.cnt_cntPush (t : Team) (k : CntKind) (id : Nat) : (t.cntPush k id).cnt k = t.cnt k + 1 := by
  cases k <;> simp [Team.cntPush, Team.setCntList, Team.cnt, Team.cntList]

theorem Team.cntPush_only (t : Team) (k : CntKind) (id : Nat) :
    t.cntPush k id = { t with cntLd := (t.cntPush k id).cntLd, cntSt := (t.cntPush k id).cntSt, cntCp := (t.cntPush k id).cntCp
                              cntTl := (t.cntPush k id).cntTl } := by
  cases k <;> rfl

/-- An issue changes no more of its team than vector registers, the scoreboard and the counters. -/
theorem Team.issues_only (t : Team) (a : Acc) (full : Bool) (id : Nat) :
    let u := t.issues a full id
    u = { t with v := u.v, pend := u.pend, cntLd := u.cntLd, cntSt := u.cntSt, cntCp := u.cntCp, cntTl := u.cntTl } := by
  dsimp only
  unfold Team.issues Team.addPend
  rw [Team.cntPush_only, Team.prepares_only]

theorem Team.issues_vreg (t : Team) (a : Acc) (full : Bool) (id m : Nat) : (t.issues a full id).vreg m = (t.prepares a full).vreg m := by
  unfold Team.issues Team.addPend Team.vreg
  rw [Team.cntPush_only]

theorem Team.issues_cnt (t : Team) (a : Acc) (full : Bool) (id : Nat) : (t.issues a full id).cnt a.cnt = t.cnt a.cnt + 1 := by
  have hadd (u : Team) (k : CntKind) (rs : List Ref) : (u.addPend id id rs).cnt k = u.cnt k := by cases k <;> rfl
  have hprep : (t.prepares a full).cnt a.cnt = t.cnt a.cnt := by rw [Team.prepares_only]; cases a.cnt <;> rfl
  rw [Team.issues, hadd, Team.cnt_cntPush, hprep]

theorem Team.issues_pending (t : Team) (a : Acc) (full : Bool) (id : Nat) : ∀ r ∈ a.dest.refs (regCount a.size), (t.issues a full id).isPending r = true := by
  intro r hr
  simp only [Team.issues, Team.isPending, Team.addPend, List.any_append, List.any_map, Bool.or_eq_true, List.any_eq_true]
  exact .inr ⟨r, hr, by simp⟩

/-- The operation of an access that issues. -/
def Cur.opOf (c : Cur) (s : State) (a : Acc) (ls : List LaneAcc) : MemOp :=
  { ent := c.eid, team := c.e.team, kind := a.kind, space := a.space, size := a.size, signed := a.signed, uniform := a.uniform, dest := a.dest
    alu := a.alu, acq := a.acq, rel := a.rel, l2 := a.l2, cnt := a.cnt, pc := c.i.pc, word := c.i.next + 1, mask := c.e.mask, lanes := ls
    failed := false, after := c.e.after.filter fun k => (tabGet s.ops k).isSome, frag := c.e.fragCode }

/-- The state once the translations of an access's mapped lanes are made. -/
def Cur.translated (c : Cur) (s : State) (a : Acc) (ls : List LaneAcc) : State :=
  if a.space = .global then
    ls.foldl (fun s l => if l.phys.isSome then s.touch (s.stackOf c.t) (s.ctxOf c.t) a.acc l.ptr else s) s
  else s

/-- The state once an access has issued and before any lane of it parks. -/
def Cur.inFlight (c : Cur) (s : State) (a : Acc) (rs : List LaneReq) : State :=
  let ls := rs.map (s.laneAcc c.t a)
  { c.translated s a ls with
    nextId := s.nextId + 1
    teams := tabPut s.teams c.e.team (c.t.issues a (c.e.mask == fullMask c.t.lanes) s.nextId)
    ops := tabPut s.ops s.nextId (c.opOf s a ls) }

variable {s : State} {c : Cur} {a : Acc} {rs : List LaneReq}

/-- A lane's access is of its request's lane, at its request's pointer. -/
theorem State.laneAcc_at (s : State) (t : Team) (a : Acc) (r : LaneReq) :
    (s.laneAcc t a r).lane = r.lane ∧ (s.laneAcc t a r).ptr = ptrOf r.addr := by
  unfold State.laneAcc
  cases r.fill with
  | some f => exact ⟨rfl, rfl⟩
  | none =>
    by_cases hsp : a.space = .global
    · simp only [hsp, if_true]
      cases s.teamXlate t a.acc (ptrOf r.addr) a.size <;> exact ⟨rfl, rfl⟩
    · simp only [hsp, if_false, and_self]

theorem State.laneAcc_lane (s : State) (t : Team) (a : Acc) (r : LaneReq) : (s.laneAcc t a r).lane = r.lane := (s.laneAcc_at t a r).1
theorem State.laneAcc_ptr (s : State) (t : Team) (a : Acc) (r : LaneReq) : (s.laneAcc t a r).ptr = ptrOf r.addr := (s.laneAcc_at t a r).2

theorem translated_stored (c : Cur) (s : State) (a : Acc) (ls : List LaneAcc) : s.Stored (c.translated s a ls) :=
  .ite (.foldl (fun s _ => .ite (s.touch_stored ..) (.refl s)) ls s) (.refl s)

theorem launchAccess_eq (hs : Standing s c) : c.launchAccess s a rs =
    (parkPages (rs.map (s.laneAcc c.t a))).foldl
      (fun u p => u.park c.eid c.e c.t s.nextId c.i.pc (c.i.next + 1) a.uniform (rs.map (s.laneAcc c.t a)) p) (c.inFlight s a rs) := by
  have hstored := translated_stored c s a (rs.map (s.laneAcc c.t a))
  unfold Cur.launchAccess Cur.inFlight
  dsimp only
  change List.foldl _ _ (parkPages (List.map (s.laneAcc c.t a) rs)) = _
  have hteams := hstored.teams
  have hops := hstored.ops
  have hnext := hstored.nextId
  generalize hu : c.translated s a (List.map (s.laneAcc c.t a) rs) = u at *
  unfold Cur.translated at hu
  rw [hu]
  simp only [State.fresh, State.modTeam, hteams, hops, hnext, tabMod_of_get _ hs.team]
  rfl

/-- The translations of an access's lanes, by the lanes that it asked for. -/
theorem translated_mem (hsp : a.space = .global) : (c.translated s a (rs.map (s.laneAcc c.t a))).mem =
    (rs.foldl (fun x r => if (s.laneAcc c.t a r).phys.isSome then x.touch (s.stackOf c.t) (s.ctxOf c.t) a.acc (ptrOf r.addr) else x) s).mem := by
  have hptr := s.laneAcc_ptr c.t a
  suffices h : ∀ u, s.Stored u → (rs.map (s.laneAcc c.t a)).foldl
      (fun s l => if l.phys.isSome then s.touch (s.stackOf c.t) (s.ctxOf c.t) a.acc l.ptr else s) u =
      rs.foldl (fun x r => if (s.laneAcc c.t a r).phys.isSome then x.touch (s.stackOf c.t) (s.ctxOf c.t) a.acc (ptrOf r.addr) else x) u by
    unfold Cur.translated
    rw [if_pos hsp, h s (.refl s)]
  generalize s.laneAcc c.t a = acc at hptr
  induction rs with
  | nil => exact fun u _ => rfl
  | cons r rs ih =>
    intro u hu
    rw [List.map_cons, List.foldl_cons, List.foldl_cons, hptr, hu.stackOf, hu.ctxOf]
    exact ih _ (.ite (hu.trans (u.touch_stored ..)) hu)

end Sys2Proof.Machine

end

section

/-! PROOF: what the issue of an access leaves, and where it parks (R21, R45, R51, R104, R126, R213, R335, R338) -/

namespace Sys2Proof.Machine

open Sys2Proof.Claims

variable {s : State} {c : Cur} {a : Acc} {rs : List LaneReq}

/-- An access none of whose lanes parks is in flight. -/
theorem launchAccess_mapped (hs : Standing s c) (h : ∀ r ∈ rs, (s.laneAcc c.t a r).parked = false) : c.launchAccess s a rs = c.inFlight s a rs := by
  have hnone : (rs.map (s.laneAcc c.t a)).filter LaneAcc.parked = [] := by
    rw [List.filter_eq_nil_iff]
    rintro l hl
    obtain ⟨r, hr, rfl⟩ := List.mem_map.mp hl
    simp [h r hr]
  rw [launchAccess_eq hs, parkPages, hnone]
  rfl

theorem accessIssueEffects : AccessIssueEffects := by
  intro s c a rs hs hmapped
  rw [launchAccess_mapped hs hmapped]
  have hstored := translated_stored c s a (rs.map (s.laneAcc c.t a))
  have honly := c.t.issues_only a (c.e.mask == fullMask c.t.lanes) s.nextId
  have hkeep := Team.issues_vreg c.t a (c.e.mask == fullMask c.t.lanes) s.nextId
  refine ⟨c.opOf s a (rs.map (s.laneAcc c.t a)), c.t.issues a (c.e.mask == fullMask c.t.lanes) s.nextId, tabGet_put_same .., tabGet_put_same ..,
    rfl, rfl, rfl, rfl, rfl, rfl, rfl, ?_, ?_, Team.issues_cnt .., Team.issues_pending _ _ _ _, ?_, ?_, ?_, ?_, rfl, hstored.replay, ?_, translated_mem,
    fun k hk => tabGet_put_other _ _ hk, hstored.ents, fun k hk => tabGet_put_other _ _ hk, hstored.wgs, hstored.copies, hstored.engines,
    honly, fun n hn => ?_, fun n l hl => ?_, fun n hin => ?_⟩
  · simp only [Cur.opOf, List.map_map, Function.comp_def, State.laneAcc_lane]
  · simp only [Cur.opOf, List.map_map, Function.comp_def, State.laneAcc_ptr]
  · rw [honly]
  · rw [honly]
  · rw [honly]
  · rw [honly]
  · intro hsp
    change (c.translated s a _).mem = _
    rw [Cur.translated, if_neg hsp]
  · rw [hkeep, Team.prepares_other _ _ _ hn]
  · rw [hkeep]; exact Team.prepares_lane _ _ _ _ hl
  · have hent : tabGet (c.inFlight s a rs).ents c.eid = some c.e := (congrArg (tabGet · c.eid) hstored.ents).trans hs.ent
    rw [advance_inside n _ hin]
    refine ⟨?_, rfl, fun k hk => ?_⟩
    · rw [tabGet_modEnt _ hent, hs.issue]; rfl
    · rw [State.modEnt_ents, tabGet_mod_other _ _ hk]

/-- A list of one page names it once. -/
theorem parkPages_one {ls : List LaneAcc} {p : Nat} (hne : ls ≠ []) (h : ∀ l ∈ ls, l.parked = true ∧ pageOf l.ptr = p) : parkPages ls = [p] := by
  have hall : ls.filter LaneAcc.parked = ls := List.filter_eq_self.mpr fun l hl => (h l hl).1
  have hmap : ls.map (fun l => pageOf l.ptr) = List.replicate ls.length p := List.eq_replicate_iff.mpr ⟨by simp, by
    rintro q hq
    obtain ⟨l, hl, rfl⟩ := List.mem_map.mp hq
    exact (h l hl).2⟩
  obtain ⟨n, hn⟩ : ∃ n, ls.length = n + 1 := Nat.exists_eq_succ_of_ne_zero (by simpa using hne)
  rw [parkPages, hall, hmap, hn, List.replicate_succ, List.eraseDups_cons]
  have hrest : (List.replicate n p).filter (fun q => !q == p) = [] := by simp
  rw [hrest]
  rfl

/-- The entry that a parked access makes in the replay queue. -/
theorem park_replay (s : State) (eid : Nat) (e : Entity) (t : Team) (op : Nat) (pc : Word64) (word : Nat) (u : Bool) (ls : List LaneAcc) (page : Nat) :
    tabGet (s.park eid e t op pc word u ls page).replay s.nextId = some
      { op := op, ent := eid, team := e.team, part := s.partOf t, page := page
        lanes := (ls.filter fun l => l.parked && pageOf l.ptr == page).map (·.lane), bytes := parkBytes ls page, released := false, fail := false } := by
  unfold State.park
  dsimp only [State.fresh]
  rw [(State.countEvent_counted ..).stored.replay, (State.fqFault_stored ..).replay]
  exact tabGet_put_same ..

theorem missingPageParks : MissingPageParks := by
  intro s c a rs p hs hsp hparked hne
  have hls : ∀ l ∈ rs.map (s.laneAcc c.t a), l.parked = true ∧ pageOf l.ptr = p := by
    rintro l hl
    obtain ⟨r, hr, rfl⟩ := List.mem_map.mp hl
    rw [State.laneAcc_ptr]
    exact hparked r hr
  have hfilter : (rs.map (s.laneAcc c.t a)).filter (fun l => l.parked && pageOf l.ptr == p) = rs.map (s.laneAcc c.t a) :=
    List.filter_eq_self.mpr fun l hl => by simp [hls l hl]
  have hreplay := park_replay (c.inFlight s a rs) c.eid c.e c.t s.nextId c.i.pc (c.i.next + 1) a.uniform (rs.map (s.laneAcc c.t a)) p
  rw [hfilter] at hreplay
  rw [launchAccess_eq hs, parkPages_one (by simpa using hne) hls]
  refine ⟨_, hreplay, rfl, rfl, rfl, rfl, ?_, rfl⟩
  simp only [List.map_map, Function.comp_def, State.laneAcc_lane]

/-- Settles O37: an access in flight, what its translations mark, and the page on which it parks. -/
theorem issuedAccess : Obligations.IssuedAccess := ⟨accessIssueEffects, translationMarksItsEntry, missingPageParks⟩

end Sys2Proof.Machine

end

section

/-! SUPPORT: the end of a whole team at its boundary (R28, R341) -/

namespace Sys2Proof.Machine

variable {s : State} {eid tid : Nat} {t : Team}

theorem State.markFaulted_only (s : State) (t : Team) : s.markFaulted t = { s with grids := (s.markFaulted t).grids } := by
  unfold State.markFaulted
  split <;> rfl

theorem State.freeHandler_only (s : State) (eid : Nat) (e : Entity) :
    s.freeHandler eid e = { s with teams := (s.freeHandler eid e).teams, ctxs := (s.freeHandler eid e).ctxs } := by
  unfold State.freeHandler
  split
  · rfl
  · dsimp only; split <;> rfl

/-- The end of an entity takes it out, and leaves no workgroup in another abort. -/
theorem State.endEntity_ents (s : State) (eid : Nat) :
    ((s.endEntity eid).ents = tabDel s.ents eid ∨ (tabGet s.ents eid = none ∧ s.endEntity eid = s)) ∧
    ∀ k w, tabGet (s.endEntity eid).wgs k = some w → ∃ v, tabGet s.wgs k = some v ∧ v.aborting = w.aborting := by
  unfold State.endEntity
  split
  next hnone => exact ⟨.inr ⟨hnone, rfl⟩, fun k w h => ⟨w, h, rfl⟩⟩
  next e he =>
    have hfree := s.freeHandler_only eid e
    generalize s.freeHandler eid e = u at hfree
    have hents : u.ents = s.ents := by rw [hfree]
    have hwgs : u.wgs = s.wgs := by rw [hfree]
    dsimp only
    split
    · exact ⟨.inl (by rw [hents]), fun k w h => ⟨w, hwgs ▸ h, rfl⟩⟩
    split
    · exact ⟨.inl (by rw [hents]), fun k w h => ⟨w, hwgs ▸ h, rfl⟩⟩
    next v _ _ =>
      refine ⟨.inl ?_, fun k w h => ?_⟩
      · rw [State.rendezvousCheck_only, ← hents]; rfl
      · obtain ⟨w', hw', hab⟩ := State.rendezvousCheck_aborting h
        exact ⟨w', hwgs ▸ hw', hab⟩

/-- What is left of a table in order without one of its entries. -/
theorem mem_tabDel_sorted {α : Type} {T : Tab α} {b k : Nat} (hs : tabSorted b T = true) {p : Nat × α} (h : p ∈ tabDel T k) : p ∈ T ∧ p.1 ≠ k := by
  refine ⟨mem_tabDel T k p h, ?_⟩
  rintro rfl
  have hget := (tabGet_of_mem (tabSorted_del T p.1 b hs) h).2
  rw [tabGet_del_same _ _ (tabSorted_weaken T (Nat.zero_le b) hs)] at hget
  cases hget

/-- What is left of a state's entities once some have ended. -/
theorem foldl_endEntity (l : List (Nat × Entity)) {s : State} (hs : tabSorted 0 s.ents = true) :
    let u := l.foldl (fun s x => s.endEntity x.1) s
    (∀ p ∈ u.ents, p ∈ s.ents ∧ ∀ q ∈ l, p.1 ≠ q.1) ∧
    ∀ k w, tabGet u.wgs k = some w → ∃ v, tabGet s.wgs k = some v ∧ v.aborting = w.aborting := by
  induction l generalizing s with
  | nil => exact ⟨fun p hp => ⟨hp, by simp⟩, fun k w h => ⟨w, h, rfl⟩⟩
  | cons x l ih =>
    obtain ⟨hents, hwgs⟩ := s.endEntity_ents x.1
    have hmem : ∀ p ∈ (s.endEntity x.1).ents, p ∈ s.ents ∧ p.1 ≠ x.1 := by
      rcases hents with h | ⟨hnone, h⟩
      · rw [h]; exact fun p hp => mem_tabDel_sorted hs hp
      · rw [h]
        refine fun p hp => ⟨hp, fun heq => ?_⟩
        have hget := (tabGet_of_mem hs hp).2
        rw [heq, hnone] at hget
        cases hget
    have hsorted : tabSorted 0 (s.endEntity x.1).ents = true := by
      rcases hents with h | ⟨-, h⟩
      · rw [h]; exact tabSorted_del _ _ _ hs
      · rw [h]; exact hs
    obtain ⟨hrest, hab⟩ := ih hsorted
    refine ⟨fun p hp => ?_, fun k w hk => ?_⟩
    · obtain ⟨hin, hout⟩ := hrest p hp
      obtain ⟨hin', hne⟩ := hmem p hin
      exact ⟨hin', fun q hq => (List.mem_cons.mp hq).elim (fun e => e ▸ hne) (hout q)⟩
    · obtain ⟨v, hv, h1⟩ := hab k w hk
      obtain ⟨v', hv', h2⟩ := hwgs k v hv
      exact ⟨v', hv', h2.trans h1⟩

/-- A team whose end a deferred fault or the watchdog asks for ends where all its entities stand at a boundary. -/
theorem settle_ends_team (ht : tabGet s.teams tid = some t) (hdying : t.dying = true) (hsorted : tabSorted 0 s.ents = true)
    (hw : ∀ w, tabGet s.wgs t.wg = some w → w.aborting = false) (hb : ∀ x ∈ s.ents, x.2.team = tid → x.2.atBoundary = true) :
    ∀ x ∈ (s.settle tid).ents, x.2.team ≠ tid := by
  obtain ⟨hgone, hwgs⟩ := foldl_endEntity (s.entsOf tid) hsorted
  have hend : s.settle tid = s.endTeam tid := by
    have hall : (s.entsOf tid).all (fun x => x.2.atBoundary) = true := by
      rw [List.all_eq_true]
      intro x hx
      obtain ⟨hx, hteam⟩ := List.mem_filter.mp hx
      exact hb x hx (beq_iff_eq.mp hteam)
    unfold State.settle
    rw [ht]
    simp only [hdying, hall, Bool.and_self, if_true]
    cases hk : tabGet (s.endTeam tid).wgs t.wg with
    | none => rfl
    | some w =>
      obtain ⟨v, hv, hab⟩ := hwgs _ w hk
      simp [← hab, hw v hv]
  rw [hend]
  intro x hx hteam
  obtain ⟨hin, hout⟩ := hgone x hx
  exact hout x (List.mem_filter.mpr ⟨hin, by simpa using hteam⟩) rfl

end Sys2Proof.Machine

end

section

/-! PROOF: the counts and limits of issue (R22, R25, R104, R201, R341, R346, R348) -/

namespace Sys2Proof.Machine

open Sys2Proof.Claims

variable {s : State} {e : Nat} {x : Entity} {t : Team}

theorem issueWaitLimit_eq (hx : tabGet s.ents e = some x) (ht : tabGet s.teams x.team = some t) :
    exec (.issueWaitLimit e) s = if 64 ≤ x.waits + s.countedCycles t then exec (.clauseIssue e) s else .next s := by
  rw [exec_issueWaitLimit, exec_clauseIssue, execIssueWaitLimit, hx]
  simp only [Option.bind_some, ht, Option.map_some, State.overdue]
  by_cases h : 64 ≤ x.waits + s.countedCycles t <;> simp [h]

/-- An entity whose count reaches 64 goes before every one whose count does not. -/
theorem goesBefore_overdue {k : Nat} {y : Entity} {u : Team} (ht : tabGet s.teams x.team = some t) (hu : tabGet s.teams y.team = some u)
    (hold : 64 ≤ x.waits + s.countedCycles t) (hnew : y.waits + s.countedCycles u < 64) :
    s.goesBefore (e, x) (k, y) = true ∧ s.goesBefore (k, y) (e, x) = false := by
  have hover : s.overdue x t = true := decide_eq_true hold
  have hnot : s.overdue y u = false := decide_eq_false (Nat.not_le.mpr hnew)
  simp [State.goesBefore, ht, hu, hover, hnot, List.cons_lt_cons_iff]

theorem deferralSwitch_eq {k : Nat} {sl : Slot} (hx : tabGet s.ents e = some x) (hin : x.innermost = some (k, sl)) (hi : x.issue = none)
    (hh : x.hold = none) (hp : x.parkedPc = none) (hword : x.word = 0) (harr : sl.arrived = false) :
    exec (.deferralSwitch e) s = .next (if 256 ≤ sl.count then s.modEnt e fun x => x.exchange k sl x.pc false else s) := by
  rw [exec_deferralSwitch, execDeferralSwitch, hx]
  by_cases h : 256 ≤ sl.count <;>
    simp [hin, hi, hh, hp, Entity.switchDue, hword, harr, switchLimit, h]

theorem replayStall_goes (hx : tabGet s.ents e = some x) (ht : tabGet s.teams x.team = some t) (hh : x.hold = some .replay)
    (hroom : s.replayRoom (s.partOf t) 1 0 = true) (hruns : s.entRuns x t = true) (hgo : s.mayGoOn e x t = true) :
    exec (.replayStallResume e) s = .next { s.modEnt e (fun x => { x with hold := none }) with cur := e } := by
  rw [exec_replayStallResume, execReplayStallResume, hx]
  simp [ht, hh, hroom, hruns, hgo]

/-- A team that is marked to end, after the record of its fault. -/
theorem ydl_ends {f : FaultInfo} (ht : tabGet s.teams e = some t) (hy : t.ydl = some f) (hsorted : tabSorted 0 s.ents = true)
    (hw : ∀ w, tabGet s.wgs t.wg = some w → w.aborting = false) (hb : ∀ x ∈ s.ents, x.2.team = e → x.2.atBoundary = true) :
    Gives (.ydl e) s fun u => ∀ x ∈ u.ents, x.2.team ≠ e := by
  rw [Gives, exec_ydl, execYdl, ht]
  simp only [hy]
  refine ⟨_, rfl, ?_⟩
  have hstored := (s.modTeam e fun t => { t with ydl := none, dying := true }).fqFault_stored t f
  rw [State.markFaulted_only]
  generalize State.fqFault _ t f = u at hstored
  have hteam : tabGet u.teams e = some { t with ydl := none, dying := true } := by
    rw [hstored.teams, State.modTeam_teams, tabGet_mod_same, ht]; rfl
  exact settle_ends_team (s := { u with grids := _ }) hteam rfl (by rw [← hsorted, hstored.ents]; rfl) (fun w => by rw [hstored.wgs]; exact hw w)
    (by rw [hstored.ents]; exact hb)

/-- A fold that always makes a choice has made one of a list that is not empty. -/
theorem foldl_isSome {α : Type} {f : Option α → α → Option α} (hf : ∀ b x, (f b x).isSome) {l : List α} (hne : l ≠ []) (b : Option α) :
    (l.foldl f b).isSome := by
  rw [← List.dropLast_append_getLast hne, List.foldl_append]
  exact hf _ _

/-- A team with an entity has one that its HANG record names. -/
theorem hangEntity_some (h : ∃ x ∈ s.ents, x.2.team = e) : ∃ y, s.hangEntity e = some y := by
  obtain ⟨x, hx, hteam⟩ := h
  have hne : (s.entsOf e).map (·.2) ≠ [] :=
    List.ne_nil_of_mem (List.mem_map.mpr ⟨x, List.mem_filter.mpr ⟨hx, by simpa using hteam⟩, rfl⟩)
  unfold State.hangEntity
  generalize (s.entsOf e).map (·.2) = es at hne
  dsimp only
  split
  · exact ⟨_, rfl⟩
  · exact Option.isSome_iff_exists.mp (foldl_isSome (fun b y => by cases b <;> (dsimp only; try split) <;> rfl) hne none)

theorem hang_idle (ht : tabGet s.teams e = some t) (h : (s.hangLim = 0 ∨ t.hang < s.hangLim * 2 ^ 20) ∨ ∀ w, tabGet s.wgs t.wg = some w → w.place ≠ .resident) :
    Idle (.hang e) s := by
  rw [Idle, exec_hang, execHang, ht]
  split
  next v y hv hy =>
    obtain rfl : t = v := by simpa using hv
    dsimp only
    rw [if_pos]
    rcases h with (h | h) | h
    · simp [h]
    · have hlim : t.hang < s.hangLimit := h
      simp [hlim]
    · unfold State.wgOf
      cases hw : tabGet s.wgs t.wg with
      | none => simp
      | some w => simp [h w hw]
  · rfl

theorem hang_ends {w : Workgroup} (ht : tabGet s.teams e = some t) (hlim : s.hangLim ≠ 0) (hhang : s.hangLim * 2 ^ 20 ≤ t.hang)
    (hdying : t.dying = false) (hsorted : tabSorted 0 s.ents = true) (hent : ∃ x ∈ s.ents, x.2.team = e) (hwg : tabGet s.wgs t.wg = some w)
    (hplace : w.place = .resident) (hab : w.aborting = false) (hb : ∀ x ∈ s.ents, x.2.team = e → x.2.atBoundary = true) :
    Gives (.hang e) s fun u => ∀ x ∈ u.ents, x.2.team ≠ e := by
  obtain ⟨y, hy⟩ := hangEntity_some hent
  have hcount : ¬ t.hang < s.hangLim * 1048576 := Nat.not_lt.mpr hhang
  have hnot : (s.hangLim = 0 || decide (t.hang < s.hangLimit) || t.dying || !(w.place == .resident)) = false := by
    simp [hlim, State.hangLimit, hdying, hplace, hcount]
  rw [Gives, exec_hang, execHang, ht, hy]
  simp only [State.wgOf, hwg, hnot, Bool.false_eq_true, if_false]
  refine ⟨_, rfl, ?_⟩
  generalize FaultInfo.mk _ _ _ _ _ _ _ _ _ _ _ _ = f
  have hstored := s.fqFault_stored t f
  rw [State.markFaulted_only]
  generalize State.fqFault s t f = u at hstored
  refine settle_ends_team (t := { t with dying := true }) ?_ rfl (by rw [← hsorted, ← hstored.ents]; rfl) (fun v hv => ?_) ?_
  · rw [State.modTeam_teams, tabGet_mod_same]
    change (tabGet u.teams e).map _ = _
    rw [hstored.teams, ht]; rfl
  · have hv' : tabGet s.wgs t.wg = some v := hstored.wgs ▸ hv
    rw [hwg] at hv'
    cases hv'
    exact hab
  · change ∀ x ∈ u.ents, _
    rw [hstored.ents]; exact hb

theorem issueLimits : IssueLimits := by
  intro s e
  refine ⟨fun x t hx ht => ⟨fun hold => ⟨?_, fun k y u hu hnew => goesBefore_overdue ht hu hold hnew⟩, fun hnew => ?_⟩, fun hnone => ⟨?_, ?_, ?_⟩,
    fun x k sl hx hin hi hh hp hword harr => ⟨fun hcnt => ?_, fun hcnt => ?_⟩, fun x t hx ht hh hroom hruns hgo => ?_, fun t ht hy => ?_,
    fun t f ht hy hsorted hw hb => ydl_ends ht hy hsorted hw hb, fun t ht h => hang_idle ht (.inl h), fun t ht h => hang_idle ht (.inr h),
    fun t w ht hlim hhang hdying hsorted hent hwg hplace hab hb => hang_ends ht hlim hhang hdying hsorted hent hwg hplace hab hb⟩
  · rw [issueWaitLimit_eq hx ht, if_pos hold]
  · rw [Idle, issueWaitLimit_eq hx ht, if_neg (by omega)]
  · rw [Idle, exec_issueWaitLimit, execIssueWaitLimit, hnone]; rfl
  · rw [Idle, exec_deferralSwitch, execDeferralSwitch, hnone]
  · rw [Idle, exec_replayStallResume, execReplayStallResume, hnone]
  · rw [Idle, deferralSwitch_eq hx hin hi hh hp hword harr, if_neg (by omega)]
  · rw [Gives, deferralSwitch_eq hx hin hi hh hp hword harr, if_pos hcnt]
    exact ⟨_, rfl, _, _, tabGet_modEnt _ hx, rfl, rfl, tabGet_put_same .., rfl, rfl, rfl, rfl, rfl⟩
  · rw [Gives, replayStall_goes hx ht hh hroom hruns hgo]
    exact ⟨_, rfl, rfl, tabGet_modEnt _ hx⟩
  · rw [Idle, exec_ydl, execYdl, ht]
    simp only [hy]

end Sys2Proof.Machine

end

section

/-! PROOF: held words that are executed again, and the fault of a released access (R105, R206, R238, R239, R325) -/

namespace Sys2Proof.Machine

open Sys2Proof.Claims

variable {s : State} {e : Nat} {x : Entity} {t : Team} {i : Instr}

/-- A word that is held for a reason, and that its place and its pipe let run, is executed again. -/
theorem retryHeld_goes {h : Hold → Bool} {f : Instr → State → Host.Outcome State Fault Refusal} {k : Hold} (hx : tabGet s.ents e = some x)
    (ht : tabGet s.teams x.team = some t) (hruns : s.entRuns x t = true) (hgo : s.mayGoOn e x t = true) (hi : x.issue.bind (·.instr) = some i)
    (hk : x.hold = some k) (hh : h k = true) : s.retryHeld e h f = f i { s with cur := e } := by
  unfold State.retryHeld
  rw [hx]
  dsimp only
  rw [hk, hi, ht]
  simp only [hh, hruns, hgo, Bool.and_self, if_true]

/-- A word that is held for another reason waits. -/
theorem retryHeld_waits {h : Hold → Bool} {f : Instr → State → Host.Outcome State Fault Refusal} {k : Hold} (hx : tabGet s.ents e = some x)
    (hk : x.hold = some k) (hh : h k = false) : s.retryHeld e h f = .next s := by
  unfold State.retryHeld
  rw [hx]
  dsimp only
  rw [hk]
  split
  next heq _ _ => cases heq; simp [hh]
  · rfl

/-- The meaning of a word always gives a next state. -/
theorem withCur_goes (s : State) (f : Cur → State) : ∃ u, withCur s f = .next u := by
  unfold withCur
  split
  · exact ⟨_, rfl⟩
  · split <;> exact ⟨_, rfl⟩

theorem copyWord_goes (fn : CopyFn) (dst src len : BitVec 6) (sl : BitVec 4) (obj idx rows stride : BitVec 6) (mc ring fill : Bool) (s : State) :
    ∃ u, copyWord fn dst src len sl obj idx rows stride mc ring fill s = .next u := withCur_goes s _

theorem engineWord_goes (f : Cur → State → EngineAsk) (s : State) : ∃ u, engineWord f s = .next u := withCur_goes s _

/-- A copy that may wait for a ring slot gives a next state, and executing it again is executing it. -/
theorem retryCopy_exec (s : State) {dst src len : BitVec 6} {sl : BitVec 4} {obj idx rows stride : BitVec 6} {mc ring fill : Bool}
    (hi : i ∈ [Instr.cpyG2s dst src len sl obj idx rows stride mc ring fill, .cpyG2c dst src len sl obj idx rows stride ring fill,
      .cpyC2s dst src len sl obj idx rows stride mc ring, .cpyS2c dst src len sl obj idx rows stride ring,
      .cpyx dst src len sl obj idx rows stride ring, .cpyg dst src len sl obj idx rows stride ring fill]) :
    retryCopy i s = exec i s ∧ ∃ u, exec i s = .next u := by
  simp only [List.mem_cons, List.not_mem_nil, or_false] at hi
  rcases hi with rfl | rfl | rfl | rfl | rfl | rfl <;> refine ⟨rfl, ?_⟩
  · exact exec_cpyG2s .. ▸ copyWord_goes ..
  · exact exec_cpyG2c .. ▸ copyWord_goes ..
  · exact exec_cpyC2s .. ▸ copyWord_goes ..
  · exact exec_cpyS2c .. ▸ copyWord_goes ..
  · exact exec_cpyx .. ▸ copyWord_goes ..
  · exact exec_cpyg .. ▸ copyWord_goes ..

/-- The same for an engine instruction. -/
theorem retryEngine_exec (s : State) {d : BitVec 4} {w : BitVec 32} {t' : BitVec 3} {r : BitVec 4} {p : BitVec 5}
    (hi : i ∈ [Instr.mres d w, .mfree d, .mswap, .mtab d, .mzero t', .mfill t' d, .mls d false r p]) :
    retryEngine i s = exec i s ∧ ∃ u, exec i s = .next u := by
  simp only [List.mem_cons, List.not_mem_nil, or_false] at hi
  rcases hi with rfl | rfl | rfl | rfl | rfl | rfl | rfl <;> refine ⟨rfl, ?_⟩
  · exact exec_mres .. ▸ engineWord_goes ..
  · exact exec_mfree .. ▸ engineWord_goes ..
  · exact exec_mswap .. ▸ engineWord_goes ..
  · exact exec_mtab .. ▸ engineWord_goes ..
  · exact exec_mzero .. ▸ engineWord_goes ..
  · exact exec_mfill .. ▸ engineWord_goes ..
  · exact exec_mls .. ▸ engineWord_goes ..

theorem heldWordsRetry : HeldWordsRetry := by
  intro s e x t i hx ht hruns hgo hi
  refine ⟨fun dst src len sl obj idx rows stride mc ring fill hmem hk => ?_, fun d w t' r p hmem hk => ?_, fun hk => ⟨?_, ?_⟩⟩
  · obtain ⟨hretry, u, hu⟩ := retryCopy_exec { s with cur := e } hmem
    refine ⟨u, ?_, hu⟩
    rw [exec_heldSliceIssue, execHeldSliceIssue, retryHeld_goes hx ht hruns hgo hi hk rfl, hretry, hu]
  · obtain ⟨hretry, u, hu⟩ := retryEngine_exec { s with cur := e } hmem
    refine ⟨u, ?_, hu⟩
    rcases hk with hk | hk <;>
      rw [exec_engineDeferredAccept, execEngineDeferredAccept, retryHeld_goes hx ht hruns hgo hi hk rfl, hretry, hu]
  · exact retryHeld_waits hx hk rfl
  · exact retryHeld_waits hx hk rfl

theorem replayFaultDelivers : ReplayFaultDelivers := by
  intro s e tid x t f ht
  refine ⟨fun hx hteam hdying => ?_, fun hx => ?_⟩
  · unfold State.replayFault
    rw [hx, ht]
    simp only [hteam, hdying, ne_eq, not_true_eq_false, if_false, Bool.false_eq_true, Entity.resumePoint]
    cases x.issue <;> rfl
  · unfold State.replayFault
    rw [hx, ht]

end Sys2Proof.Machine

end

section

/-! SUPPORT: issue marks and counts, and the entities that a stamp leaves (R21, R22) -/

namespace Sys2Proof.Machine

variable {s : State} {e : Nat} {x y : Entity}

theorem tabGet_mapValues {α β : Type} (f : α → β) (T : Tab α) (k : Nat) : tabGet (T.map fun p => (p.1, f p.2)) k = (tabGet T k).map f := by
  induction T with
  | nil => rfl
  | cons p T ih =>
    simp only [List.map_cons, tabGet]
    split
    · rfl
    · split
      · rfl
      · exact ih

/-- An entity with its issue mark and its count brought up to date. -/
noncomputable def State.marked (s : State) (x : Entity) : Entity :=
  if (s.candidateClause x).isSome then (if x.ready = 0 then { x with ready := s.nextId } else x) else { x with ready := 0, waits := 0 }

theorem State.marked_only (s : State) (x : Entity) : s.marked x = { x with ready := (s.marked x).ready, waits := (s.marked x).waits } := by
  unfold State.marked
  split
  · split <;> rfl
  · rfl

theorem State.stamp_only (s : State) : s.stamp = { s with ents := s.stamp.ents, nextId := s.stamp.nextId } := by
  unfold State.stamp
  dsimp only
  generalize List.map _ s.ents = ents
  split <;> rfl

theorem State.stamp_ents (s : State) : s.stamp.ents = s.ents.map fun p => (p.1, s.marked p.2) := by
  have hmap : (s.ents.map fun (x : Nat × Entity) => if (s.candidateClause x.2).isSome then
      (x.1, if x.2.ready = 0 then { x.2 with ready := s.nextId } else x.2) else (x.1, { x.2 with ready := 0, waits := 0 })) =
      s.ents.map fun p => (p.1, s.marked p.2) :=
    List.map_congr_left fun p _ => by unfold State.marked; split <;> rfl
  unfold State.stamp
  dsimp only
  rw [hmap]
  split
  next h => exact h.symm
  next => rfl

/-- A stamp changes marks and counts alone. -/
theorem State.stamp_ent (hx : tabGet s.ents e = some x) : tabGet s.stamp.ents e = some (s.marked x) := by
  rw [State.stamp_ents, tabGet_mapValues, hx]
  rfl

/-- A clause that the running path issues counts in no more than a slot. -/
theorem countClause_only (x : Entity) : x.countClause = { x with slots := x.countClause.slots } := by
  unfold Entity.countClause
  split <;> rfl

theorem State.touchCode_stored (s : State) (stack c a n : Nat) : s.Stored (s.touchCode stack c a n) :=
  (s.touch_stored ..).trans (State.touch_stored ..)

theorem State.l1Sync_stored (s : State) (col : Nat) : s.Stored (s.l1Sync col) := (s.writeBack_stored _).trans ⟨rfl⟩

end Sys2Proof.Machine

end

section

/-! PROOF: the issue of a clause, and what stops it (R21, R22, R104, R145, R277, R325, R338) -/

namespace Sys2Proof.Machine

open Sys2Proof.Claims

variable {s : State} {e h : Nat} {x : Entity} {t : Team} {ws : List Word} {k : Clause}

theorem clauseIssue_idle (hx : tabGet s.ents e = some x)
    (hno : x.issue.isSome = true ∨ x.hold.isSome = true ∨ x.parkedPc.isSome = true ∨ x.switchDue = true) : Idle (.clauseIssue e) s := by
  rw [Idle, exec_clauseIssue, execClauseIssue, hx]
  dsimp only
  split
  · rfl
  · rw [if_pos]
    rcases hno with h | h | h | h <;> simp [h]

/-- An entity that stands before a clause may issue it. -/
theorem standsBefore_goes (hb : StandsBefore s e x t) :
    (x.issue.isSome || x.hold.isSome || x.parkedPc.isSome || x.switchDue || !s.entRuns x t) = false := by
  obtain ⟨-, -, hi, hh, hp, hsw, hr⟩ := hb
  simp [hi, hh, hp, hsw, hr]

theorem clauseIssue_refused {cause word : Nat} (hb : StandsBefore s e x t) (hf : s.fetchClause (s.stackOf t) (s.ctxOf t) x.pc.toNat = .ok h ws)
    (hk : s.clauseAt x t h ws = .error (cause, word)) :
    exec (.clauseIssue e) s = .next (((s.touchCode (s.stackOf t) (s.ctxOf t) x.pc.toNat ws.length).deliver e
      { issueFault x x.pc cause word x.mask with addr1 := x.pc.toNat }).settle x.team) := by
  have hgoes := standsBefore_goes hb
  obtain ⟨hx, ht, -⟩ := hb
  rw [exec_clauseIssue, execClauseIssue, hx]
  simp only [ht, hgoes, hf, hk, Bool.false_eq_true, if_false]

theorem clauseIssue_faults {cause a1 a2 : Nat} (hb : StandsBefore s e x t)
    (hf : s.fetchClause (s.stackOf t) (s.ctxOf t) x.pc.toNat = .fault cause a1 a2) :
    exec (.clauseIssue e) s = .next ((s.deliver e { (issueFault x x.pc cause 0 x.mask).asStood x with addr1 := a1, addr2 := a2 }).settle x.team) := by
  have hgoes := standsBefore_goes hb
  obtain ⟨hx, ht, -⟩ := hb
  rw [exec_clauseIssue, execClauseIssue, hx]
  simp only [ht, hgoes, hf, Bool.false_eq_true, if_false]

theorem clauseIssue_absent {a : Nat} (hb : StandsBefore s e x t) (hf : s.fetchClause (s.stackOf t) (s.ctxOf t) x.pc.toNat = .absent a)
    (hroom : s.replayRoom (s.partOf t) 1 0 = true) : exec (.clauseIssue e) s = .next (s.parkEntity e x t x.pc 0 (pageOf a) a) := by
  have hgoes := standsBefore_goes hb
  obtain ⟨hx, ht, -⟩ := hb
  rw [exec_clauseIssue, execClauseIssue, hx]
  simp only [ht, hgoes, hf, hroom, Bool.false_eq_true, if_false, if_true]

/-- An entity that parks waits for its page, and stands where it stood. -/
theorem parkEntity_ent (hx : tabGet s.ents e = some x) (t : Team) (pc : Word64) (word page addr : Nat) :
    tabGet (s.parkEntity e x t pc word page addr).ents e = some { x with parkedPc := some page } := by
  unfold State.parkEntity
  dsimp only [State.fresh]
  refine tabGet_modEnt _ ?_
  rw [(State.countEvent_counted ..).stored.ents, (State.fqFault_stored ..).ents]
  exact hx

theorem clauseIssue_ok (hb : StandsBefore s e x t) (hf : s.fetchClause (s.stackOf t) (s.ctxOf t) x.pc.toNat = .ok h ws)
    (hk : s.clauseAt x t h ws = .ok k) (hword : x.word = 0) :
    (s.issuable x t k = false → Idle (.clauseIssue e) s) ∧
    (s.issuable x t k = true → s.stamp.chosen e (s.marked x) (s.partOf t) k = true →
      exec (.clauseIssue e) s = .next ((s.stamp.touchCode (s.stackOf t) (s.ctxOf t) x.pc.toNat ws.length).issueClause e (s.marked x) t k)) := by
  have hgoes := standsBefore_goes hb
  obtain ⟨hx, ht, -⟩ := hb
  have hpc : (s.marked x).pc = x.pc := by rw [State.marked_only]
  have hpart : s.stamp.partOf t = s.partOf t := by rw [State.stamp_only]; rfl
  refine ⟨fun hno => ?_, fun hyes hch => ?_⟩
  · rw [Idle, exec_clauseIssue, execClauseIssue, hx]
    simp [ht, hgoes, hf, hk, hword, hno]
  · rw [exec_clauseIssue, execClauseIssue, hx]
    simp [ht, hgoes, hf, hk, hword, hyes, State.stamp_ent hx, hpart, hch, hpc]

/-- A clause of a compute phase that passes its workgroup's allowance (R277). -/
def PastAllowance (s : State) (t : Team) (k : Clause) : Prop :=
  ∃ w g, tabGet s.wgs t.wg = some w ∧ w.phase = true ∧ tabGet s.grids w.grid = some g ∧ g.rcd.allow < w.words + k.words.length

/-- The clause that issues, and its entity as its checks see it. -/
def issueOf (x : Entity) (t : Team) (k : Clause) : Issue :=
  { pc := x.pc, cls := k.cls, words := k.words, next := x.word - 1, mode := t.mode, modeNew := none, latches := [], vtos := [], claimed := [] }
def curBefore (e : Nat) (x : Entity) (t : Team) (k : Clause) : Cur := { eid := e, e := x, t := t, i := issueOf x t k }

theorem past_iff (s : State) (t : Team) (k : Clause) : (match s.wgOf t, s.gridOf t with
    | some w, some g => w.phase && decide (g.rcd.allow < w.words + k.words.length)
    | _, _ => false) = true ↔ PastAllowance s t k := by
  unfold State.gridOf State.wgOf PastAllowance
  cases hw : tabGet s.wgs t.wg with
  | none => simp
  | some w =>
    cases hg : tabGet s.grids w.grid with
    | none => simp [hg]
    | some g => simp [hg]

theorem issueClause_past (hp : PastAllowance s t k) (hword : x.word = 0) :
    s.issueClause e x t k = s.exhaust e x.team (issueFault x x.pc cXALW 1 x.mask) := by
  have hfault : (if k.cls = .vx then issueFault x x.pc cXALW 1 x.mask else (issueFault x x.pc cXALW 1 x.mask).asStood x) =
      issueFault x x.pc cXALW 1 x.mask := by
    split
    · rfl
    · simp [FaultInfo.asStood, hword, issueFault]
  rw [State.issueClause]
  dsimp only
  exact (if_pos ((past_iff s t k).mpr hp)).trans (congrArg _ hfault)

/-- What a clause's issue does with what its checks find. -/
theorem issueClause_checked (hp : ¬ PastAllowance s t k) (hword : x.word = 0) :
    let c := curBefore e x t k
    let found := c.issueChecks s (s.gRegs x.team t) [] (s.gRegs x.team t) [] k.ins
    (∀ f, found = .exhaust f → s.issueClause e x t k = s.exhaust e x.team f) ∧
    (∀ f, found = .fault f → s.issueClause e x t k = (s.deliver e f).settle x.team) ∧
    ∀ claimed xreg counts, found = .pass claimed xreg counts → s.issueClause e x t k = c.startClause s k claimed xreg counts := by
  have hall : (k.ins.filter fun y => decide (x.word ≤ y.1)) = k.ins := List.filter_eq_self.mpr fun y _ => by simp [hword]
  dsimp only
  have hissue : s.issueClause e x t k = (match (curBefore e x t k).issueChecks s (s.gRegs x.team t) [] (s.gRegs x.team t) [] k.ins with
      | .exhaust f => s.exhaust e x.team f
      | .fault f => (s.deliver e f).settle x.team
      | .pass claimed xreg counts => (curBefore e x t k).startClause s k claimed xreg counts) := by
    rw [State.issueClause]
    dsimp only
    rw [hall]
    exact if_neg fun h => hp ((past_iff s t k).mp h)
  exact ⟨fun f hf => by rw [hissue, hf], fun f hf => by rw [hissue, hf], fun a b c hf => by rw [hissue, hf]⟩

/-- A clause in issue, its words charged to a compute phase. -/
theorem startClause_leaves {c : Cur} {claimed : List Nat} {xreg : Option Nat} {counts : Tab Nat} (he : tabGet s.ents c.eid = some c.e) :
    let v := c.startClause s k claimed xreg counts
    v.cur = c.eid ∧
    (∀ w, tabGet s.wgs c.t.wg = some w → ∃ w', tabGet v.wgs c.t.wg = some w' ∧
      w'.words = if w.phase then w.words + k.words.length else w.words) ∧
    tabGet v.ents c.eid = some { c.e.countClause with
      issue := some { c.i with claimed := claimed, xreg := xreg, gcounts := counts }, word := 0, ready := 0, waits := 0, admitted := false } := by
  have hstored (u : State) : u.Stored (if fld k.header 18 7 = 4095 then u else u.observe c.t) := .ite (.refl u) (u.l1Sync_stored _)
  unfold Cur.startClause
  dsimp only
  refine ⟨rfl, fun w hw => ?_, ?_⟩
  · rw [State.modEnt_wgs, (hstored _).wgs, State.modWg_wgs, tabGet_mod_same, hw]
    exact ⟨_, rfl, apply_ite Workgroup.words ..⟩
  · exact tabGet_modEnt _ (by rw [(hstored _).ents]; exact he)

theorem clauseIssues : ClauseIssues := by
  intro s e
  refine ⟨fun hnone => ?_, fun x hx hno => clauseIssue_idle hx hno, fun x t hb => ⟨fun h ws cause word hf hk => ?_, fun cause a1 a2 hf => ?_,
    fun a hf hroom => ?_, fun h ws k hf hk hword => ⟨(clauseIssue_ok hb hf hk hword).1, fun y hy hyes hch => ?_⟩⟩⟩
  · rw [Idle, exec_clauseIssue, execClauseIssue, hnone]
  · have hstored := s.touchCode_stored (s.stackOf t) (s.ctxOf t) x.pc.toNat ws.length
    exact ⟨_, _, clauseIssue_refused hb hf hk, rfl, rfl, rfl, rfl, rfl, rfl, hstored.ents, hstored.teams⟩
  · exact ⟨_, clauseIssue_faults hb hf, rfl, rfl, rfl⟩
  · exact ⟨_, clauseIssue_absent hb hf hroom, _, parkEntity_ent hb.1 .., rfl, hb.2.2.1, rfl⟩
  · obtain rfl : y = s.marked x := Option.some.inj (hy.symm.trans (State.stamp_ent hb.1))
    have hrun := (clauseIssue_ok hb hf hk hword).2 hyes hch
    have hents : tabGet (s.stamp.touchCode (s.stackOf t) (s.ctxOf t) x.pc.toNat ws.length).ents e = some (s.marked x) := by
      rw [(State.touchCode_stored ..).ents]
      exact hy
    have hwgs : (s.stamp.touchCode (s.stackOf t) (s.ctxOf t) x.pc.toNat ws.length).wgs = s.wgs := by
      rw [(State.touchCode_stored ..).wgs, State.stamp_only]
    have hgrids : (s.stamp.touchCode (s.stackOf t) (s.ctxOf t) x.pc.toNat ws.length).grids = s.grids := by
      rw [(State.touchCode_stored ..).rest, State.stamp_only]
    generalize s.stamp.touchCode (s.stackOf t) (s.ctxOf t) x.pc.toNat ws.length = u at hrun hents hwgs hgrids
    have hword' : (s.marked x).word = 0 := by rw [State.marked_only]; exact hword
    have hpast : PastAllowance u t k ↔ PastAllowance s t k := by rw [PastAllowance, PastAllowance, hwgs, hgrids]
    refine ⟨fun hp => ⟨_, hrun.trans (congrArg _ (issueClause_past (hpast.mpr hp) hword')), rfl, rfl, rfl⟩, fun hp claimed xreg counts hfound => ?_,
      fun hp f hfound => ?_, fun hp f hfound => ?_⟩
    · obtain ⟨-, -, hpass⟩ := issueClause_checked (fun h => hp (hpast.mp h)) hword'
      obtain ⟨hcur, hcharged, hent⟩ := startClause_leaves (s := u) (k := k) (c := curBefore e (s.marked x) t k) (claimed := claimed)
        (xreg := xreg) (counts := counts) hents
      refine ⟨_, hrun.trans (congrArg _ (hpass claimed xreg counts hfound)), hcur, fun w hw => hcharged w (hwgs ▸ hw), _, hent, ?_⟩
      have hhold := hb.2.2.2.1
      simp only [curBefore, issueOf, hword']
      rw [countClause_only, State.marked_only]
      exact ⟨trivial, rfl, rfl, hhold, trivial⟩
    · obtain ⟨hex, -, -⟩ := issueClause_checked (fun h => hp (hpast.mp h)) hword'
      exact hrun.trans (congrArg _ (hex f hfound))
    · obtain ⟨-, hfa, -⟩ := issueClause_checked (fun h => hp (hpast.mp h)) hword'
      exact hrun.trans (congrArg _ (hfa f hfound))

end Sys2Proof.Machine

end

section

/-! SUPPORT: a released entry of the replay queue: when it waits, and what its failing and its landing leave (R104, R105, R338, R339) -/

namespace Sys2Proof.Machine

open Sys2Proof.Claims

variable {s : State} {id : Nat} {r : ReplayEntry} {t : Team} {o : MemOp} {e : Entity} {rs : List LaneReq} {ks : List Check}

/-- The first check that some lane fails names its failing lanes, and the addresses of one of them. -/
theorem firstFail_cons_found {k : Check} (h : ∃ r ∈ rs, (k.bad r).isSome) : ∃ r ∈ rs, ∃ a b, k.bad r = some (a, b) ∧
    firstFail rs (k :: ks) = some (k.cause, (rs.filter fun r => (k.bad r).isSome).map (·.lane), a, b) := by
  have hlanes : (rs.filterMap fun r => (k.bad r).map fun a => (r.lane, a)).map (·.1) = (rs.filter fun r => (k.bad r).isSome).map (·.lane) := by
    rw [List.map_filterMap, ← List.filterMap_eq_map, List.filterMap_filter]
    refine List.filterMap_congr fun r _ => ?_
    cases k.bad r <;> rfl
  obtain ⟨r, hr, hbad⟩ := h
  obtain ⟨a, ha⟩ := Option.isSome_iff_exists.mp hbad
  have hmem : (r.lane, a) ∈ rs.filterMap fun r => (k.bad r).map fun a => (r.lane, a) := List.mem_filterMap.mpr ⟨r, hr, by rw [ha]; rfl⟩
  cases hl : rs.filterMap fun r => (k.bad r).map fun a => (r.lane, a) with
  | nil => rw [hl] at hmem; exact absurd hmem (by simp)
  | cons x xs =>
    have hlow : ∀ (l : List (Nat × Int × Nat)) m, l.foldl (fun m y => if y.2.1 < m.2.1 then y else m) m ∈ m :: l := by
      intro l
      induction l with
      | nil => simp
      | cons y l ih =>
        intro m
        rw [List.foldl_cons]
        rcases List.mem_cons.mp (ih (if y.2.1 < m.2.1 then y else m)) with h | h
        · rw [h]; split <;> simp
        · simp [h]
    obtain ⟨q, hq, hsome⟩ := List.mem_filterMap.mp (hl ▸ hlow xs x)
    obtain ⟨b, hb, hpair⟩ := Option.map_eq_some_iff.mp hsome
    refine ⟨q, hq, b.1, b.2, hb, ?_⟩
    rw [firstFail, hl, ← hlanes, hl]
    dsimp only
    rw [← hpair]

/-- The queue serves a team that is here: not swapped out, its workgroup on its core. -/
theorem serves_iff : Serves s t ↔ (!t.swapped && s.onCore t) = true := by
  unfold Serves State.onCore State.wgOf
  rw [Bool.and_eq_true, Bool.not_eq_true']
  refine and_congr_right fun _ => ?_
  cases hw : tabGet s.wgs t.wg with
  | none => simp
  | some w => cases hp : w.place <;> simp [hp]

/-- An older released entry of the same queue that the queue serves. -/
def OlderEntry (s : State) (id : Nat) (r : ReplayEntry) : Prop :=
  ∃ y ∈ s.replay, y.1 < id ∧ y.2.released = true ∧ y.2.part = r.part ∧ ∃ u, tabGet s.teams y.2.team = some u ∧ Serves s u

theorem olderEntry_iff : OlderEntry s id r ↔ (s.replay.any fun y => decide (y.1 < id) && y.2.released && y.2.part == r.part &&
    (tabGet s.teams y.2.team).any fun t => !t.swapped && s.onCore t) = true := by
  simp only [OlderEntry, List.any_eq_true, Bool.and_eq_true, decide_eq_true_eq, beq_iff_eq, Option.any_eq_true, serves_iff, and_assoc]

/-- An entry that has to wait waits. -/
theorem replay_waits (hr : tabGet s.replay id = some r) (ht : tabGet s.teams r.team = some t)
    (h : r.released = false ∨ ¬ Serves s t ∨ s.replayWaits r t = true ∨ OlderEntry s id r) : Idle (.parkedAccessReplay id) s := by
  rw [Idle, exec_parkedAccessReplay, execParkedAccessReplay, hr]
  dsimp only
  rw [ht]
  dsimp only
  refine congrArg _ (if_pos ?_)
  rw [olderEntry_iff, serves_iff] at h
  rcases h with h | h | h | h
  · simp [h]
  · cases hsw : t.swapped <;> simp_all
  · simp [h]
  · simp only [h, Bool.or_true, Bool.true_or]

/-- An entry that need not wait is translated afresh: a fetch or a `launch` for its entity, any other for its operation. -/
theorem replay_goes (hr : tabGet s.replay id = some r) (ht : tabGet s.teams r.team = some t) (hrel : r.released = true) (hs : Serves s t)
    (hw : s.replayWaits r t = false) (hold : ¬ OlderEntry s id r) :
    (∀ e, r.op = 0 → tabGet s.ents r.ent = some e → exec (.parkedAccessReplay id) s = .next (s.replayEntity id r e t)) ∧
    (∀ o, r.op ≠ 0 → tabGet s.ops r.op = some o → exec (.parkedAccessReplay id) s = .next (s.replayAccess id r o t)) := by
  rw [olderEntry_iff, Bool.not_eq_true] at hold
  rw [serves_iff, Bool.and_eq_true, Bool.not_eq_true'] at hs
  have hgo : (!r.released || (s.replay.any fun y => decide (y.1 < id) && y.2.released && y.2.part == r.part &&
      (tabGet s.teams y.2.team).any fun t => !t.swapped && s.onCore t) || t.swapped || !s.onCore t || s.replayWaits r t) = false := by
    rw [hold, hrel, hs.1, hs.2, hw]
    rfl
  rw [exec_parkedAccessReplay, execParkedAccessReplay, hr]
  dsimp only
  rw [ht]
  dsimp only
  rw [hgo]
  refine ⟨fun e hop he => ?_, fun o hop ho => ?_⟩
  · rw [if_neg Bool.false_ne_true, if_pos hop, he]
  · rw [if_neg Bool.false_ne_true, if_neg hop, ho]

/-- The lanes of a released entry are done without effect. -/
def LaneAcc.failed (r : ReplayEntry) (l : LaneAcc) : LaneAcc := if r.lanes.contains l.lane && l.parked then { l with done := true } else l

/-- A lane of a released entry that its page's translation lets land. -/
noncomputable def LaneAcc.landed (s : State) (r : ReplayEntry) (o : MemOp) (t : Team) (l : LaneAcc) : LaneAcc :=
  if r.lanes.contains l.lane && l.parked then
    (match s.teamXlate t o.accKind l.ptr o.size with
     | .ok p m => { l with phys := some p, mtype := m, level := s.leafLevel (s.stackOf t) (s.ctxOf t) l.ptr }
     | _ => l)
  else l

theorem MemOp.mem_held {l : LaneAcc} (hl : l ∈ o.lanes) : l ∈ o.held r ↔ (r.lanes.contains l.lane && l.parked) = true := by
  rw [MemOp.held, List.mem_filter, Bool.and_comm]
  exact and_iff_right hl

/-- The state in which the fault of a released access is delivered: its entry is gone, its lanes are done. -/
def State.dropFailed (s : State) (id : Nat) (r : ReplayEntry) : State :=
  State.modOp { s with replay := tabDel s.replay id } r.op fun o => { o with failed := true, lanes := o.lanes.map (LaneAcc.failed r) }

/-- The fault of a released access. -/
def MemOp.replayInfo (o : MemOp) (cause : Nat) (lanes : List Nat) (a1 a2 : Nat) : FaultInfo :=
  { cause := cause, parked := true, word := o.word, frag := o.frag, lanes := if o.uniform then o.mask else maskOf lanes, pc := o.pc
    addr1 := a1, addr2 := a2, resumePc := o.pc, resume := 1 }

noncomputable def State.accessFails (s : State) (id : Nat) (r : ReplayEntry) (o : MemOp) (cause : Nat) (lanes : List Nat) (a1 a2 : Nat) : State :=
  if !s.stands r.ent then s else ((s.dropFailed id r).replayFault r.ent r.team (o.replayInfo cause lanes a1 a2)).performOp r.op

/-- What the checks of a replay see of its lanes. -/
def MemOp.replayReqs (o : MemOp) (r : ReplayEntry) : List LaneReq := (o.held r).map fun l => { lane := l.lane, addr := l.ptr, data := [], fill := none }

theorem replayAccess_checked {x a2 : Nat} {lanes : List Nat} {a1 : Int}
    (h : firstFail (o.replayReqs r) (s.pageChecks t o.accKind o.size) = some (x, lanes, a1, a2)) :
    s.replayAccess id r o t = s.accessFails id r o x lanes (ptrOf a1) a2 := by
  unfold MemOp.replayReqs at h
  rw [State.replayAccess]
  dsimp only
  rw [h]
  rfl

/-- A lane's page is missing. -/
theorem gone_iff : ((o.held r).any fun l => match s.teamXlate t o.accKind l.ptr o.size with | .absent => true | _ => false) = true ↔
    ∃ l ∈ o.held r, s.teamXlate t o.accKind l.ptr o.size = .absent := by
  rw [List.any_eq_true]
  refine exists_congr fun l => and_congr_right fun _ => ?_
  cases s.teamXlate t o.accKind l.ptr o.size <;> simp

theorem replayAccess_gone (h : firstFail (o.replayReqs r) (s.pageChecks t o.accKind o.size) = none)
    (hg : ∃ l ∈ o.held r, s.teamXlate t o.accKind l.ptr o.size = .absent) :
    s.replayAccess id r o t = if r.fail then s.accessFails id r o cPGNP ((o.held r).map (·.lane))
        (((o.held r).map (·.ptr)).foldl Nat.min (((o.held r).map (·.ptr)).headD 0)) 0
      else { s with replay := tabPut s.replay id { r with released := false } } := by
  unfold MemOp.replayReqs at h
  rw [State.replayAccess]
  dsimp only
  rw [h]
  exact if_pos (gone_iff.mpr hg)

/-- The state in which a released access lands: its pages are marked. -/
noncomputable def State.replayTouched (s : State) (r : ReplayEntry) (o : MemOp) (t : Team) : State :=
  (o.held r).foldl (fun s l => s.touch (s.stackOf t) (s.ctxOf t) o.accKind l.ptr) s

theorem replayTouched_stored (s : State) (r : ReplayEntry) (o : MemOp) (t : Team) : s.Stored (s.replayTouched r o t) :=
  .foldl (fun s _ => s.touch_stored ..) _ _

/-- A released access whose lanes land. -/
noncomputable def State.accessLands (s : State) (id : Nat) (r : ReplayEntry) (o : MemOp) (t : Team) : State :=
  State.modOp { s.replayTouched r o t with replay := tabDel (s.replayTouched r o t).replay id } r.op fun o' =>
    { o' with lanes := o'.lanes.map (LaneAcc.landed (s.replayTouched r o t) r o t) }

theorem replayAccess_lands (h : firstFail (o.replayReqs r) (s.pageChecks t o.accKind o.size) = none)
    (hg : ¬ ∃ l ∈ o.held r, s.teamXlate t o.accKind l.ptr o.size = .absent) :
    s.replayAccess id r o t = (s.accessLands id r o t).performOp r.op := by
  unfold MemOp.replayReqs at h
  rw [State.replayAccess]
  dsimp only
  rw [h]
  exact if_neg fun hany => hg (gone_iff.mp hany)

/-- The least of some addresses is one of them, and no greater than any. -/
theorem foldl_min_least (l : List Nat) (m : Nat) : l.foldl Nat.min m ∈ m :: l ∧ ∀ x ∈ m :: l, l.foldl Nat.min m ≤ x := by
  induction l generalizing m with
  | nil => simp
  | cons y l ih =>
    obtain ⟨hin, hle⟩ := ih (Nat.min m y)
    have hmin := hle (Nat.min m y) (by simp)
    rw [List.foldl_cons]
    refine ⟨?_, fun x hx => ?_⟩
    · rcases List.mem_cons.mp hin with h | h
      · rw [h]
        rcases Nat.le_total m y with hmy | hmy
        · simp [Nat.min_eq_left hmy]
        · simp [Nat.min_eq_right hmy]
      · simp [h]
    · rcases List.mem_cons.mp hx with rfl | hx
      · exact hmin.trans (Nat.min_le_left ..)
      · rcases List.mem_cons.mp hx with rfl | hx
        · exact hmin.trans (Nat.min_le_right ..)
        · exact hle x (by simp [hx])

/-- What a released access that fails leaves. -/
theorem accessFails_leaves {cause a1 a2 : Nat} {lanes : List Nat} (hop : tabGet s.ops r.op = some o) (hsorted : tabSorted 0 s.replay = true) :
    (s.stands r.ent = false → s.accessFails id r o cause lanes a1 a2 = s) ∧
    (s.stands r.ent = true → ∃ (u : State) (f : FaultInfo) (o' : MemOp),
      s.accessFails id r o cause lanes a1 a2 = (u.replayFault r.ent r.team f).performOp r.op ∧ f = o.replayInfo cause lanes a1 a2 ∧
        tabGet u.replay id = none ∧ u.ents = s.ents ∧ u.teams = s.teams ∧ u.mem = s.mem ∧ tabGet u.ops r.op = some o' ∧ o'.failed = true ∧
        o'.lanes = o.lanes.map (LaneAcc.failed r)) := by
  refine ⟨fun hno => by rw [State.accessFails, hno]; rfl, fun hyes => ?_⟩
  refine ⟨s.dropFailed id r, _, { o with failed := true, lanes := o.lanes.map (LaneAcc.failed r) }, by rw [State.accessFails, hyes]; rfl, rfl,
    tabGet_del_same _ _ hsorted, rfl, rfl, rfl, ?_, rfl, rfl⟩
  exact (tabGet_mod_same ..).trans (congrArg _ hop)

end Sys2Proof.Machine

end

section

/-! PROOF: the events of issue (R20, R21, R22, R25, R104, R105, R145, R201, R277, R325, R339, R346) -/

namespace Sys2Proof.Machine

open Sys2Proof.Claims

variable {s : State} {id : Nat} {r : ReplayEntry} {t : Team} {o : MemOp}

/-- The address that a released fetch, or `launch`, translates. -/
def Entity.replayAddr (e : Entity) (r : ReplayEntry) : Nat :=
  if e.issue = none ∧ pageOf e.pc.toNat = r.page then e.pc.toNat else r.page * 65536

def Entity.replayKind (e : Entity) : AccKind := if e.issue.isNone then .fetch else .load

/-- The entry of an entity is gone, and the entity goes on. -/
def State.resumed (s : State) (id : Nat) (r : ReplayEntry) : State :=
  State.modEnt { s with replay := tabDel s.replay id } r.ent fun e => { e with parkedPc := none }

def Entity.replayInfo (e : Entity) (cause a1 a2 : Nat) : FaultInfo :=
  { cause := cause, parked := true, word := match e.issue with | some i => i.next + 1 | none => 0
    frag := e.fragCode, lanes := e.mask, pc := match e.issue with | some i => i.pc | none => e.pc, addr1 := a1, addr2 := a2
    resumePc := e.pc, resume := 1 }

variable {e : Entity}

theorem State.resumed_leaves (hsorted : tabSorted 0 s.replay = true) (he : tabGet s.ents r.ent = some e) :
    tabGet (s.resumed id r).replay id = none ∧ tabGet (s.resumed id r).ents r.ent = some { e with parkedPc := none } ∧
      (s.resumed id r).teams = s.teams ∧ (s.resumed id r).mem = s.mem :=
  ⟨tabGet_del_same _ _ hsorted, tabGet_modEnt _ he, rfl, rfl⟩

/-- What a released fetch, or `launch`, does with its translation. -/
theorem replayEntity_cases (s : State) (id : Nat) (r : ReplayEntry) (e : Entity) (t : Team) :
    (∀ p m, s.teamXlate t e.replayKind (e.replayAddr r) 4 = .ok p m → s.replayEntity id r e t = s.resumed id r) ∧
    (s.teamXlate t e.replayKind (e.replayAddr r) 4 = .absent → s.replayEntity id r e t =
      if r.fail then (s.resumed id r).replayFault r.ent r.team (e.replayInfo cPGNP (e.replayAddr r) 0)
      else { s with replay := tabPut s.replay id { r with released := false } }) ∧
    (∀ x a1 a2, s.teamXlate t e.replayKind (e.replayAddr r) 4 = .fault x a1 a2 → s.replayEntity id r e t =
      if e.issue.isNone then (s.resumed id r).replayFault r.ent r.team (e.replayInfo x a1 a2) else s.resumed id r) := by
  have haddr : (if e.issue.isNone then (if pageOf e.pc.toNat = r.page then e.pc.toNat else r.page * 65536) else r.page * 65536) = e.replayAddr r := by
    unfold Entity.replayAddr
    cases e.issue <;> simp
  rw [Entity.replayKind, State.replayEntity]
  dsimp only
  rw [haddr]
  exact ⟨fun p m hx => by rw [hx]; rfl, fun hx => by rw [hx]; rfl, fun x a1 a2 hx => by rw [hx]; rfl⟩

theorem fetchReplays (hsorted : tabSorted 0 s.replay = true)
    (hgo : ∀ e, r.op = 0 → tabGet s.ents r.ent = some e → exec (.parkedAccessReplay id) s = .next (s.replayEntity id r e t)) :
    FetchReplays s id r t := by
  intro e hop he
  have hgone := State.resumed_leaves (id := id) hsorted he
  have hrun := hgo e hop he
  obtain ⟨hok, habsent, hfault⟩ := replayEntity_cases s id r e t
  refine ⟨fun p m hx => ?_, fun hx hf => ?_, fun hx hf => ?_, fun x a1 a2 hx hfetch => ?_, fun x a1 a2 hx hfetch => ?_⟩
  · exact ⟨_, hrun.trans (congrArg _ (hok p m hx)), hgone⟩
  · rw [hrun, habsent hx, hf]; rfl
  · exact ⟨_, _, hrun.trans (congrArg _ ((habsent hx).trans (if_pos hf))), hgone, rfl, rfl, rfl, rfl, rfl, rfl, rfl⟩
  · refine ⟨_, _, hrun.trans (congrArg _ ((hfault x a1 a2 ?_).trans (if_pos hfetch))), hgone, rfl, rfl, rfl, rfl, rfl, rfl, rfl⟩
    rw [Entity.replayKind, hfetch]; exact hx
  · refine ⟨_, hrun.trans (congrArg _ ((hfault x a1 a2 ?_).trans (if_neg (by simp [hfetch])))), hgone⟩
    rw [Entity.replayKind, hfetch]; exact hx

/-- A pointer of 64 bits is the address that its access has. -/
theorem ptrOf_small {p : Nat} (h : p < 2 ^ 64) : ptrOf (p : Int) = p := by
  unfold ptrOf
  omega

/-- What the checks of a replay find, lane by lane. -/
def PageFault (s : State) (t : Team) (o : MemOp) (l : LaneAcc) : Bool :=
  match s.teamXlate t o.accKind l.ptr o.size with | .fault x _ _ => x != cTAGF | _ => false
def TagFault (s : State) (t : Team) (o : MemOp) (l : LaneAcc) : Bool :=
  match s.teamXlate t o.accKind l.ptr o.size with | .fault x _ _ => x == cTAGF | _ => false

/-- The checks of a replay: the pages' first, then the tags'. -/
theorem replayChecks (hptr : ∀ l ∈ o.held r, l.ptr < 2 ^ 64 ∧ bitsOf l.ptr 59 57 = 0) :
    ∃ page tag : Check, page.cause = cPGPR ∧ tag.cause = cTAGF ∧
      firstFail (o.replayReqs r) (s.pageChecks t o.accKind o.size) = firstFail (o.replayReqs r) [page, tag] ∧
      ∀ l ∈ o.held r, let q : LaneReq := { lane := l.lane, addr := l.ptr, data := [], fill := none }
        ((page.bad q).isSome = PageFault s t o l ∧ ∀ a b, page.bad q = some (a, b) → ∃ x a', s.teamXlate t o.accKind l.ptr o.size = .fault x a' b ∧ a = a') ∧
        ((tag.bad q).isSome = TagFault s t o l ∧ ∀ a b, tag.bad q = some (a, b) → ∃ x a', s.teamXlate t o.accKind l.ptr o.size = .fault x a' b ∧ a = a') := by
  refine ⟨_, _, rfl, rfl, firstFail_cons_passed fun q hq => ?_, fun l hl => ?_⟩
  · obtain ⟨l, hl, rfl⟩ := List.mem_map.mp hq
    obtain ⟨hsmall, hbits⟩ := hptr l hl
    exact check_passes fun _ => by dsimp only; rw [ptrOf_small hsmall, hbits]; rfl
  · obtain ⟨hsmall, -⟩ := hptr l hl
    dsimp only
    rw [ptrOf_small hsmall, PageFault, TagFault]
    cases s.teamXlate t o.accKind l.ptr o.size with
    | fault x a b => by_cases hx : x = cTAGF <;> simp [hx]
    | ok p m => simp
    | absent => simp

/-- What a lane that fails holds after it. -/
theorem failedLane_get {i : Nat} {l : LaneAcc} [Decidable (l ∈ o.held r)] (hl : o.lanes[i]? = some l) :
    (o.lanes.map (LaneAcc.failed r))[i]? = some (if l ∈ o.held r then { l with done := true } else l) := by
  rw [List.getElem?_map, hl, Option.map_some, LaneAcc.failed]
  simp only [MemOp.mem_held (List.mem_of_getElem? hl)]

/-- A released access that fails with a cause, as its statement says. -/
def AccessFails (s : State) (id : Nat) (r : ReplayEntry) (o : MemOp) (cause : Nat) (p : FaultInfo → Prop) (named : LaneAcc → Bool) : Prop :=
  (s.stands r.ent = false → Idle (.parkedAccessReplay id) s) ∧
  (s.stands r.ent = true → ∃ (u : State) (f : FaultInfo) (o' : MemOp),
    exec (.parkedAccessReplay id) s = .next ((u.replayFault r.ent r.team f).performOp r.op) ∧ f.cause = cause ∧ f.parked = true ∧
      f.word = o.word ∧ f.pc = o.pc ∧ f.lanes = (if o.uniform then o.mask else maskOf (((o.held r).filter named).map (·.lane))) ∧ p f ∧
      tabGet u.replay id = none ∧ u.ents = s.ents ∧ u.teams = s.teams ∧ u.mem = s.mem ∧ tabGet u.ops r.op = some o' ∧ o'.failed = true ∧
      ∀ (i : Nat) (l : LaneAcc), o.lanes[i]? = some l → o'.lanes[i]? = some (if l ∈ o.held r then { l with done := true } else l))

theorem accessFails_of {cause a1 a2 : Nat} {p : FaultInfo → Prop} {named : LaneAcc → Bool} (hsorted : tabSorted 0 s.replay = true)
    (hop : tabGet s.ops r.op = some o)
    (hrun : exec (.parkedAccessReplay id) s = .next (s.accessFails id r o cause (((o.held r).filter named).map (·.lane)) a1 a2))
    (hp : p (o.replayInfo cause (((o.held r).filter named).map (·.lane)) a1 a2)) : AccessFails s id r o cause p named := by
  obtain ⟨hwait, hfail⟩ := accessFails_leaves (id := id) (cause := cause) (a1 := a1) (a2 := a2)
    (lanes := ((o.held r).filter named).map (·.lane)) hop hsorted
  refine ⟨fun hno => hrun.trans (congrArg _ (hwait hno)), fun hyes => ?_⟩
  obtain ⟨u, f, o', hu, rfl, hgone, hents, hteams, hmem, ho', hfailed, hlanes⟩ := hfail hyes
  exact ⟨u, _, o', hrun.trans (congrArg _ hu), rfl, rfl, rfl, rfl, rfl, hp, hgone, hents, hteams, hmem, ho', hfailed,
    fun i l hl => hlanes ▸ failedLane_get hl⟩

/-- The lanes that a check of a replay names. -/
theorem replayReqs_named {bad : LaneReq → Bool} {named : LaneAcc → Bool}
    (h : ∀ l ∈ o.held r, bad { lane := l.lane, addr := l.ptr, data := [], fill := none } = named l) :
    ((o.replayReqs r).filter bad).map (·.lane) = ((o.held r).filter named).map (·.lane) := by
  rw [MemOp.replayReqs, List.filter_map, List.map_map]
  exact congrArg _ (List.filter_congr h)

/-- A check of a replay that a lane fails. -/
theorem replayCheck_found {k : Check} {ks : List Check} {named : LaneAcc → Bool}
    (h : ∀ l ∈ o.held r, (k.bad { lane := l.lane, addr := l.ptr, data := [], fill := none }).isSome = named l) (hex : ∃ l ∈ o.held r, named l = true) :
    ∃ l ∈ o.held r, named l = true ∧ ∃ a b, k.bad { lane := l.lane, addr := l.ptr, data := [], fill := none } = some (a, b) ∧
      firstFail (o.replayReqs r) (k :: ks) = some (k.cause, ((o.held r).filter named).map (·.lane), a, b) := by
  obtain ⟨l, hl, hn⟩ := hex
  obtain ⟨q, hq, a, b, hbad, hfirst⟩ := firstFail_cons_found (ks := ks) (k := k) (rs := o.replayReqs r)
    ⟨_, List.mem_map.mpr ⟨l, hl, rfl⟩, (h l hl).trans hn⟩
  obtain ⟨m, hm, rfl⟩ := List.mem_map.mp hq
  refine ⟨m, hm, by rw [← h m hm, hbad]; rfl, a, b, hbad, ?_⟩
  rw [hfirst, replayReqs_named h]

/-- A check of a replay that no lane fails. -/
theorem replayCheck_passed {k : Check} {ks : List Check} {named : LaneAcc → Bool}
    (h : ∀ l ∈ o.held r, (k.bad { lane := l.lane, addr := l.ptr, data := [], fill := none }).isSome = named l) (hno : ∀ l ∈ o.held r, named l = false) :
    firstFail (o.replayReqs r) (k :: ks) = firstFail (o.replayReqs r) ks := by
  refine firstFail_cons_passed fun q hq => ?_
  obtain ⟨l, hl, rfl⟩ := List.mem_map.mp hq
  exact Option.isSome_eq_false_iff.mp ((h l hl).trans (hno l hl)) |> Option.isNone_iff_eq_none.mp

theorem noFault_of (h : ∀ l ∈ o.held r, ∀ x a b, s.teamXlate t o.accKind l.ptr o.size ≠ .fault x a b) {l : LaneAcc} (hl : l ∈ o.held r) :
    PageFault s t o l = false ∧ TagFault s t o l = false := by
  unfold PageFault TagFault
  cases hx : s.teamXlate t o.accKind l.ptr o.size with
  | fault x a b => exact absurd hx (h l hl x a b)
  | ok p m => exact ⟨rfl, rfl⟩
  | absent => exact ⟨rfl, rfl⟩

/-- The lanes that land, at the address and with the memory type of their translation. -/
theorem accessLands_leaves (hsorted : tabSorted 0 s.replay = true) (hop : tabGet s.ops r.op = some o) :
    tabGet (s.accessLands id r o t).replay id = none ∧ (s.accessLands id r o t).mem = (s.replayTouched r o t).mem ∧
    tabGet (s.accessLands id r o t).ops r.op = some { o with lanes := o.lanes.map (LaneAcc.landed (s.replayTouched r o t) r o t) } := by
  have hstored := replayTouched_stored s r o t
  refine ⟨tabGet_del_same _ _ (hstored.replay ▸ hsorted), rfl, (tabGet_mod_same ..).trans ?_⟩
  exact congrArg _ ((congrArg (tabGet · r.op) hstored.ops).trans hop)

theorem landedLane_get {v : State} {i : Nat} {l : LaneAcc} (hl : o.lanes[i]? = some l) :
    (l ∉ o.held r → (o.lanes.map (LaneAcc.landed v r o t))[i]? = some l) ∧
    (l ∈ o.held r → ∀ p m, v.teamXlate t o.accKind l.ptr o.size = .ok p m → ∃ l', (o.lanes.map (LaneAcc.landed v r o t))[i]? = some l' ∧
      l'.phys = some p ∧ l'.mtype = m ∧ l'.lane = l.lane ∧ l'.ptr = l.ptr ∧ l'.data = l.data ∧ l'.done = l.done) := by
  rw [List.getElem?_map, hl, Option.map_some, LaneAcc.landed, MemOp.mem_held (List.mem_of_getElem? hl)]
  refine ⟨fun hno => by rw [if_neg hno], fun hyes p m hx => ⟨_, rfl, ?_⟩⟩
  rw [if_pos hyes, hx]
  exact ⟨rfl, rfl, rfl, rfl, rfl, rfl⟩

/-- The lowest address of a released entry's lanes. -/
theorem heldPtrs_least (h : ∃ l, l ∈ o.held r) :
    let low := ((o.held r).map (·.ptr)).foldl Nat.min (((o.held r).map (·.ptr)).headD 0)
    (∃ l ∈ o.held r, low = l.ptr) ∧ ∀ l ∈ o.held r, low ≤ l.ptr := by
  obtain ⟨hin, hle⟩ := foldl_min_least ((o.held r).map (·.ptr)) (((o.held r).map (·.ptr)).headD 0)
  have hhead : ((o.held r).map (·.ptr)).headD 0 ∈ (o.held r).map (·.ptr) := by
    obtain ⟨l, hl⟩ := h
    cases hh : o.held r with
    | nil => rw [hh] at hl; exact absurd hl (List.not_mem_nil)
    | cons x xs => exact List.mem_cons_self
  obtain ⟨l, hl, heq⟩ := List.mem_map.mp ((List.mem_cons.mp hin).elim (fun h => h.symm ▸ hhead) id)
  exact ⟨⟨l, hl, heq.symm⟩, fun l hl => hle _ (List.mem_cons_of_mem _ (List.mem_map_of_mem hl))⟩

theorem accessReplays (hsorted : tabSorted 0 s.replay = true)
    (hgo : ∀ o, r.op ≠ 0 → tabGet s.ops r.op = some o → exec (.parkedAccessReplay id) s = .next (s.replayAccess id r o t)) :
    AccessReplays s id r t := by
  intro o hne hop
  have hrun := hgo o hne hop
  intro ls at' fails hptr
  obtain ⟨page, tag, hpage, htag, hchecks, hlane⟩ := replayChecks (s := s) (t := t) hptr
  have hpass (h : ∀ l ∈ ls, ∀ x a b, at' s l ≠ .fault x a b) : firstFail (o.replayReqs r) (s.pageChecks t o.accKind o.size) = none := by
    rw [hchecks, replayCheck_passed (fun l hl => (hlane l hl).1.1) fun l hl => (noFault_of h hl).1,
      replayCheck_passed (fun l hl => (hlane l hl).2.1) fun l hl => (noFault_of h hl).2]
    rfl
  refine ⟨fun hok => ?_, fun hnofault habsent => ?_, ?_⟩
  · have hfirst := hpass fun l hl x a b hx => by
      obtain ⟨p, m, h⟩ := hok l hl
      rw [h] at hx
      cases hx
    have hgone : ¬ ∃ l ∈ o.held r, s.teamXlate t o.accKind l.ptr o.size = .absent := fun ⟨l, hl, hx⟩ => by
      obtain ⟨p, m, h⟩ := hok l hl
      cases h.symm.trans hx
    obtain ⟨hdrop, hmem, hop'⟩ := accessLands_leaves (id := id) (t := t) hsorted hop
    exact ⟨_, _, hrun.trans (congrArg _ (replayAccess_lands hfirst hgone)), hdrop, hmem, hop', rfl, rfl, fun i l hl => landedLane_get hl⟩
  · have hacc := replayAccess_gone (id := id) (hpass hnofault) habsent
    refine ⟨fun hf => by rw [hrun, hacc, hf]; rfl, fun hf => ?_⟩
    have hall : (o.held r).filter (fun _ => true) = o.held r := List.filter_true _
    obtain ⟨l, hl, -⟩ := habsent
    refine accessFails_of (named := fun _ => true) (a2 := 0) hsorted hop ?_ (heldPtrs_least ⟨l, hl⟩)
    rw [hrun, hacc, hf, hall]; rfl
  · intro page' tag' low
    refine ⟨fun hex => ?_, fun hno hex => ?_⟩
    · obtain ⟨l, hl, hn, a, b, hbad, hfirst⟩ := replayCheck_found (ks := [tag]) (named := page') (fun l hl => (hlane l hl).1.1) hex
      obtain ⟨x, a', hx, rfl⟩ := (hlane l hl).1.2 a b hbad
      refine accessFails_of hsorted hop (hrun.trans (congrArg _ ?_)) ⟨l, hl, hn, x, _, hx, rfl⟩
      exact (replayAccess_checked (hchecks.trans hfirst)).trans (by rw [hpage]; rfl)
    · obtain ⟨l, hl, hn, a, b, hbad, hfirst⟩ := replayCheck_found (ks := []) (named := tag') (fun l hl => (hlane l hl).2.1) hex
      obtain ⟨x, a', hx, rfl⟩ := (hlane l hl).2.2 a b hbad
      refine accessFails_of hsorted hop (hrun.trans (congrArg _ ?_)) ⟨l, hl, hn, x, _, hx, rfl⟩
      have hpassed := hchecks.trans (replayCheck_passed (named := page') (fun l hl => (hlane l hl).1.1) hno)
      exact (replayAccess_checked (hpassed.trans hfirst)).trans (by rw [htag]; rfl)

theorem parkedEntriesReplay : ParkedEntriesReplay := by
  intro s id r t hr ht hsorted older
  refine ⟨fun h => replay_waits hr ht h, fun hrel hserves hw hold => ?_⟩
  obtain ⟨hfetch, haccess⟩ := replay_goes hr ht hrel hserves hw hold
  exact ⟨fetchReplays hsorted hfetch, accessReplays hsorted haccess⟩

/-- Settles O51: the issue of a clause, the counts and limits, the held words and the replays, each by its own claim. -/
theorem issueEvents : Obligations.IssueEvents :=
  ⟨clauseIssues, issueLimits, heldWordsRetry, replayFaultDelivers, parkedEntriesReplay⟩

end Sys2Proof.Machine

end

section

/-! SUPPORT: islands: what a change of one leaves alone, and what each event does with it (R353 to R357) -/

namespace Sys2Proof.Machine

variable {s : State} {x y : Island}

theorem State.island_modIsland (s : State) (i : Nat) (f : Island → Island) : (s.modIsland i f).island i = f (s.island i) := by
  unfold State.modIsland State.island
  rw [tabGet_put_same]
  rfl

/-- A change begins, ends or is kept for later: voltage, frequency, targets and caps stay. -/
def Island.Steady (x y : Island) : Prop := y = { x with state := y.state, since := y.since, goal := y.goal, pending := y.pending }

theorem Island.Steady.trans {z : Island} (h : x.Steady y) (g : y.Steady z) : x.Steady z := by
  unfold Island.Steady at *
  rw [g, h]

theorem Island.Steady.fcur (h : x.Steady y) : y.fcur = x.fcur := by rw [h]
theorem Island.Steady.vcur (h : x.Steady y) : y.vcur = x.vcur := by rw [h]
theorem Island.Steady.emgCap (h : x.Steady y) : y.emgCap = x.emgCap := by rw [h]
theorem Island.Steady.smhbCap (h : x.Steady y) : y.smhbCap = x.smhbCap := by rw [h]

theorem Island.begin_state (x : Island) (time : Nat) (goal : Nat × Nat) :
    (x.begin time goal).state = .fdown ∨ (x.begin time goal).state = .ramp := by
  unfold Island.begin
  dsimp only
  split
  · exact .inl rfl
  · exact .inr rfl

theorem Island.finish_steady (x : Island) (time : Nat) : x.Steady (x.finish time) := by
  unfold Island.finish
  split <;> rfl

theorem Island.finish_idle {time : Nat} (h : x.pending = none) : (x.finish time).state = .idle := by
  unfold Island.finish
  rw [h]

theorem Island.rise_steady (x : Island) (time : Nat) : x.Steady (x.rise time) := by
  unfold Island.rise
  split
  · rfl
  · exact x.finish_steady time

theorem Island.rise_up {time : Nat} (h : x.fcur < x.fgoal) : (x.rise time).state = .fup := by
  unfold Island.rise
  rw [if_pos h]

/-- A recap moves no cap, and brings the frequency under the lowest of them. -/
theorem Island.recap_caps (x : Island) (time : Nat) : (x.recap time).emgCap = x.emgCap ∧ (x.recap time).smhbCap = x.smhbCap := by
  unfold Island.recap
  split
  · exact ⟨rfl, rfl⟩
  · split
    · exact ⟨(x.rise_steady time).emgCap, (x.rise_steady time).smhbCap⟩
    · exact ⟨rfl, rfl⟩

theorem Island.recap_fcur (x : Island) (time : Nat) : (x.recap time).fcur ≤ x.cap := by
  unfold Island.recap
  split
  · exact le_rfl
  next h =>
    split
    · rw [(x.rise_steady time).fcur]; omega
    · omega

theorem Island.cap_le_smhb (x : Island) : x.cap ≤ x.smhbCap := (Nat.min_le_left _ _).trans (Nat.min_le_right _ _)

end Sys2Proof.Machine

end

section

/-! PROOF: an island's target, its ramp, its settling and its switches (R354, R355) -/

namespace Sys2Proof.Machine

open Sys2Proof.Claims

theorem islandsChange : IslandsChange := by
  intro s i x now
  have htarget (t : IslandTarget) (ht : t.island = i) (hi : i < 1344) :
      exec (.islandTarget t) s = .next (s.modIsland i fun x => x.target i now t) := by
    rw [exec_islandTarget, execIslandTarget, State.islandTarget, ht, if_pos hi]
  refine ⟨fun v f hi hbad => ?_, fun v f hi hv hf hlow => ?_, fun v f hi hv hf hok => ?_, fun v f hi => ?_, fun hno => ?_, fun hst hv => ?_,
    fun hno => ?_, fun hst hsince => ?_, fun hno => ?_, fun hst => ?_, fun hst => ?_⟩
  · refine ⟨_, htarget _ rfl hi, ?_⟩
    beta_reduce; rw [State.island_modIsland, Island.target, if_pos hbad]
  · refine ⟨_, htarget _ rfl hi, ?_⟩
    beta_reduce; rw [State.island_modIsland, Island.target, if_neg (by simp; omega), if_pos hlow]
  · refine ⟨_, htarget _ rfl hi, ?_⟩
    beta_reduce; rw [State.island_modIsland, Island.target, if_neg (by simp; omega), if_neg (by simpa using hok)]
    dsimp only
    by_cases hidle : (s.island i).state = .idle
    · rw [if_pos hidle]
      exact ⟨rfl, rfl, rfl, rfl, fun _ => ⟨rfl, Island.begin_state ..⟩, fun h => absurd hidle h⟩
    · rw [if_neg hidle]
      exact ⟨rfl, rfl, rfl, rfl, fun h => absurd h hidle, fun _ => ⟨rfl, rfl⟩⟩
  · rw [Idle, exec_islandTarget, execIslandTarget, State.islandTarget, if_neg (by simpa using hi)]
  · rw [Idle, exec_voltageRampDone, execVoltageRampDone]
    exact congrArg _ (if_neg fun h => hno.elim (· h.1) (· h.2))
  · refine ⟨_, congrArg Host.Outcome.next (if_pos ⟨hst, hv⟩), ?_⟩
    beta_reduce; rw [State.island_modIsland]
    dsimp only
    split
    · exact ⟨rfl, rfl, fun _ => ⟨rfl, rfl⟩⟩
    next h => exact ⟨(Island.rise_steady _ _).vcur, (Island.rise_steady _ _).fcur, fun hlt => absurd hlt h⟩
  · rw [Idle, exec_settleDone, execSettleDone]
    exact congrArg _ (if_neg fun h => hno.elim (· h.1) h.2.not_gt)
  · refine ⟨_, congrArg Host.Outcome.next (if_pos ⟨hst, hsince⟩), ?_⟩
    beta_reduce; rw [State.island_modIsland]
    exact ⟨(Island.rise_steady _ _).fcur, Island.rise_up⟩
  · rw [Idle, exec_frequencySwitch, execFrequencySwitch]
    dsimp only
    split
    next h => exact absurd h hno.1
    next h => exact absurd h hno.2
    · rfl
  · refine ⟨s.modIsland i fun x => { x with fcur := Nat.min x.fcur x.fgoal, state := .ramp, since := now }, ?_, ?_⟩
    · rw [exec_frequencySwitch, execFrequencySwitch, hst]
    · beta_reduce; rw [State.island_modIsland]
      exact ⟨rfl, rfl⟩
  · refine ⟨s.modIsland i fun x => Island.finish { x with fcur := x.fgoal } now, ?_, ?_⟩
    · rw [exec_frequencySwitch, execFrequencySwitch, hst]
    · beta_reduce; rw [State.island_modIsland]
      exact ⟨(Island.finish_steady _ _).fcur, fun hp => Island.finish_idle hp⟩

end Sys2Proof.Machine

end

section

/-! SUPPORT: samples, notices and the governor's choices: what each leaves alone (R351, R359, R363, R364) -/

namespace Sys2Proof.Machine

variable {s u : State}

theorem tabGet_mapRange' {α : Type} (f : Nat → α) (a n : Nat) {c : Nat} (hlo : a ≤ c) (hhi : c < a + n) :
    tabGet ((List.range' a n).map fun i => (i, f i)) c = some (f c) := by
  induction n generalizing a with
  | zero => omega
  | succ n ih =>
    simp only [List.range'_succ, List.map_cons, tabGet]
    by_cases hc : c = a
    · rw [if_pos hc, hc]
    · rw [if_neg hc, if_neg (by omega)]
      exact ih (a + 1) (by omega) (by omega)

/-- A table that lists every number below a bound. -/
theorem tabGet_mapRange {α : Type} (f : Nat → α) {n c : Nat} (h : c < n) : tabGet ((List.range n).map fun i => (i, f i)) c = some (f c) := by
  rw [List.range_eq_range']
  exact tabGet_mapRange' f 0 n (Nat.zero_le c) (by omega)

theorem State.island_mapIslands (s : State) (f : Nat → Island → Island) {i : Nat} (h : i < 1344) : (s.mapIslands f).island i = f i (s.island i) := by
  have hget := tabGet_mapRange (fun i => f i (s.island i)) h
  unfold State.mapIslands
  generalize (List.range 1344).map _ = l at hget
  rw [State.island, hget]
  rfl

theorem State.column_modColumn (s : State) (i : Nat) (f : Column → Column) (c : Nat) :
    (s.modColumn i f).column c = if c = i then f (s.column i) else s.column c := by
  unfold State.modColumn State.column
  split
  next h => rw [h, tabGet_put_same]; rfl
  next h => rw [tabGet_put_other _ _ h]

/-- A notice, an interrupt and a change of clocks leave all but these places. -/
structure State.Warned (s u : State) : Prop where
  rest : u = { s with islands := u.islands, links := u.links, notices := u.notices, irqs := u.irqs, outbox := u.outbox, policy := u.policy }

theorem State.Warned.trans {v : State} (h : s.Warned u) (g : u.Warned v) : s.Warned v := ⟨by rw [g.rest, h.rest]⟩
theorem State.Warned.cols (h : s.Warned u) : u.cols = s.cols := by rw [h.rest]
theorem State.Warned.charged (h : s.Warned u) : u.charged = s.charged := by rw [h.rest]

theorem State.sendNotice_only (s : State) (but : Option Nat) (n : Notice) : s.sendNotice but n = { s with links := (s.sendNotice but n).links } := by
  unfold State.sendNotice
  generalize List.range 18 = l
  induction l using List.reverseRecOn with
  | nil => rfl
  | append_singleton l i ih =>
    rw [List.foldl_append, List.foldl_cons, List.foldl_nil]
    split
    · dsimp only; rw [ih]
    · exact ih

theorem State.mapIslands_only (s : State) (f : Nat → Island → Island) : s.mapIslands f = { s with islands := (s.mapIslands f).islands } := by
  unfold State.mapIslands
  generalize (List.range 1344).map _ = l
  rfl

theorem State.mapIslands_warned (s : State) (f : Nat → Island → Island) : s.Warned (s.mapIslands f) := ⟨by rw [State.mapIslands_only]⟩
theorem State.mapIslands_policy (s : State) (f : Nat → Island → Island) : (s.mapIslands f).policy = s.policy := by rw [State.mapIslands_only]

theorem State.originate_only (s : State) (release : Bool) : s.originate release = { s with
    links := (s.originate release).links, notices := (s.originate release).notices
    policy := { s.policy with nextSeq := (s.policy.nextSeq + 1) % 256 } } := by
  unfold State.originate
  dsimp only
  rw [State.sendNotice_only]

theorem State.originate_warned (s : State) (release : Bool) : s.Warned (s.originate release) := ⟨by rw [State.originate_only]⟩

/-- The emergency is raised, and both ports are told. -/
theorem State.raised_warned (s : State) :
    s.Warned (State.emergencyIrq { s with policy := { s.policy with emg := true, emgSrc := true } }) := ⟨rfl⟩

/-- Where a sensor reads above TEMG and this package has not raised the emergency, it does now. -/
theorem State.emergency_leaves (s : State) (hottest : Nat) :
    s.Warned (s.emergency hottest) ∧
    ((s.emergency hottest).policy.emg = true ↔ s.policy.emg = true ∨ 1080 < hottest ∧ s.policy.emgSrc = false) ∧
    ((s.emergency hottest).policy.emgSrc = true ↔ s.policy.emgSrc = true ∨ 1080 < hottest) := by
  unfold State.emergency
  split
  next h =>
    have hwarned := (State.mapIslands_warned s _).trans (State.originate_warned s.halveClocks false)
    exact ⟨hwarned.trans (State.raised_warned _), iff_of_true rfl (.inr h), iff_of_true rfl (.inr h.1)⟩
  next h =>
    refine ⟨⟨rfl⟩, (or_iff_left h).symm, (or_iff_left_of_imp fun hhot => ?_).symm⟩
    cases hsrc : s.policy.emgSrc with
    | false => exact absurd ⟨hhot, hsrc⟩ h
    | true => rfl

/-- The governor writes no more than the columns' choices. -/
structure State.Governed (s u : State) : Prop where
  rest : u = { s with cols := u.cols }
  column : ∀ c, u.column c = { s.column c with chosen := (u.column c).chosen }

theorem State.Governed.refl (s : State) : s.Governed s := ⟨rfl, fun _ => rfl⟩
theorem State.Governed.trans {v : State} (h : s.Governed u) (g : u.Governed v) : s.Governed v :=
  ⟨by rw [g.rest, h.rest], fun c => by rw [g.column c, h.column c]⟩

theorem State.Governed.ite {p : Prop} [Decidable p] {v : State} (h : s.Governed u) (g : s.Governed v) : s.Governed (if p then u else v) := by
  split
  · exact h
  · exact g

theorem State.Governed.foldl {α : Type} {f : State → α → State} (hf : ∀ (s : State) x, s.Governed (f s x)) (l : List α) (s : State) :
    s.Governed (l.foldl f s) := by
  induction l generalizing s with
  | nil => exact .refl s
  | cons x l ih => exact (hf s x).trans (ih _)

theorem State.chosen_governed (s : State) (c : Nat) (x : Option (Nat × Nat)) : s.Governed (s.modColumn c fun z => { z with chosen := x }) := by
  refine ⟨rfl, fun d => ?_⟩
  rw [State.column_modColumn]
  split
  next h => rw [h]
  · rfl

theorem State.govern_governed (s : State) : s.Governed s.govern := by
  unfold State.govern
  refine .foldl (fun s x => ?_) _ _
  dsimp only
  refine .ite (.refl s) ?_
  cases s.chooseLayer x.1 x.2 with
  | some y => exact .foldl (fun s c => s.chosen_governed c _) _ _
  | none => exact .refl s

/-- A sum of fractions is their sum. -/
theorem fracSum_eq (l : List (Nat × Nat)) (h : ∀ x ∈ l, 0 < x.2) :
    ((fracSum l).1 : ℚ) / (fracSum l).2 = (l.map fun x => (x.1 : ℚ) / x.2).sum := by
  have hfold : ∀ (l : List (Nat × Nat)) (a : Nat × Nat), 0 < a.2 → (∀ x ∈ l, 0 < x.2) →
      let r := l.foldl (fun a x => (a.1 * x.2 + x.1 * a.2, a.2 * x.2)) a
      (r.1 : ℚ) / r.2 = (a.1 : ℚ) / a.2 + (l.map fun x => (x.1 : ℚ) / x.2).sum := by
    intro l
    induction l with
    | nil => intro a _ _; simp
    | cons x l ih =>
      intro a ha hl
      have hx := hl x (by simp)
      rw [List.foldl_cons, List.map_cons, List.sum_cons]
      refine (ih _ (Nat.mul_pos ha hx) fun y hy => hl y (by simp [hy])).trans ?_
      have ha' : (a.2 : ℚ) ≠ 0 := by positivity
      have hx' : (x.2 : ℚ) ≠ 0 := by positivity
      rw [← add_assoc, div_add_div _ _ ha' hx']
      push_cast
      ring_nf
  simpa [fracSum] using hfold l (0, 1) Nat.one_pos h

/-- What a column draws: its events, its leakage, and its parts of the engines' operations, rounded down once. -/
theorem samplePower_eq (s : State) (x : Sample) (c : Nat) :
    let part (e : EngineCharge) : ℚ := (e.energy * (s.chargedTo e.op).count c : Nat) / ((max (s.chargedTo e.op).length 1 : Nat) : ℚ)
    s.samplePower x c = (sampleReading x c).events + (sampleReading x c).leakage + ⌊(x.engines.map part).sum⌋.toNat := by
  have hsum := fracSum_eq (x.engines.map fun e => (e.energy * (s.chargedTo e.op).count c, max (s.chargedTo e.op).length 1)) (by simp)
  rw [List.map_map] at hsum
  intro part
  have hpart : (x.engines.map part).sum = _ := hsum.symm
  rw [hpart, Rat.floor_natCast_div_natCast]
  rfl

end Sys2Proof.Machine

end

section

/-! PROOF: samples, the emergency and its notices, and the stage manager's passes (R351, R352, R354 to R358, R363) -/

namespace Sys2Proof.Machine

open Sys2Proof.Claims

variable {s : State}

/-- What no element of a fold changes, the fold does not change. -/
theorem foldl_keeps {α β γ : Type} {f : β → α → β} (g : β → γ) (hf : ∀ s x, g (f s x) = g s) (l : List α) (s : β) : g (l.foldl f s) = g s := by
  induction l generalizing s with
  | nil => rfl
  | cons x l ih => exact (ih _).trans (hf s x)

theorem sampleDue_iff : s.sampleDue = true ↔ s.time.toNat % 1000 = 0 ∧ s.policy.lastSample ≠ s.time.toNat := by simp [State.sampleDue]

theorem sampleColumns_column (s : State) (x : Sample) {c : Nat} (h : c < 256) :
    (s.sampleColumns x).column c = (s.column c).sample s.policy.smax (sampleReading x c) (s.samplePower x c) := by
  have hget := tabGet_mapRange (fun c => (s.column c).sample s.policy.smax (sampleReading x c) (s.samplePower x c)) h
  unfold State.sampleColumns
  generalize (List.range 256).map _ = l at hget
  rw [State.column, hget]
  rfl

/-- The state after a sample: the columns' records, the caps, the governor's choices and the emergency. -/
def State.sampled (s : State) (x : Sample) : State := (((s.sampleColumns x).sampleCaps x).govern).emergency (sampleHottest x)

theorem sampleCaps_warned (s : State) (x : Sample) : s.Warned (s.sampleCaps x) := State.mapIslands_warned _ _

/-- Until the emergency a sample changes no policy, leaves the clock, and ends the window's charges. -/
theorem governed_kept (s : State) (x : Sample) :
    (((s.sampleColumns x).sampleCaps x).govern).policy = s.policy ∧ (((s.sampleColumns x).sampleCaps x).govern).charged = [] ∧
      (((s.sampleColumns x).sampleCaps x).govern).time = s.time := by
  rw [(State.govern_governed _).rest]
  dsimp only
  have hpolicy : ((s.sampleColumns x).sampleCaps x).policy = (s.sampleColumns x).policy := State.mapIslands_policy _ _
  have htime : ((s.sampleColumns x).sampleCaps x).time = (s.sampleColumns x).time := by rw [(sampleCaps_warned _ _).rest]
  rw [hpolicy, (sampleCaps_warned _ _).charged, htime]
  unfold State.sampleColumns
  generalize (List.range 256).map _ = l
  exact ⟨rfl, rfl, rfl⟩

theorem sampled_policy (s : State) (x : Sample) :
    ((s.sampled x).policy.emg = true ↔ s.policy.emg = true ∨ 1080 < sampleHottest x ∧ s.policy.emgSrc = false) ∧
    ((s.sampled x).policy.emgSrc = true ↔ s.policy.emgSrc = true ∨ 1080 < sampleHottest x) := by
  obtain ⟨-, hemg, hsrc⟩ := (((s.sampleColumns x).sampleCaps x).govern).emergency_leaves (sampleHottest x)
  rw [(governed_kept s x).1] at hemg hsrc
  exact ⟨hemg, hsrc⟩

theorem sampled_kept (s : State) (x : Sample) : (s.sampled x).charged = [] ∧ (s.sampled x).time = s.time := by
  have hwarned : State.Warned _ (s.sampled x) := (State.emergency_leaves _ _).1
  rw [hwarned.rest]
  exact (governed_kept s x).2

/-- The record of a column after a sample, but for the governor's choice. -/
theorem sampled_column (s : State) (x : Sample) {c : Nat} (h : c < 256) : ∃ ch, (s.sampled x).column c =
    { (s.column c).sample s.policy.smax (sampleReading x c) (s.samplePower x c) with chosen := ch } := by
  have hcaps : ((s.sampleColumns x).sampleCaps x).column c = (s.sampleColumns x).column c :=
    congrArg (fun t => (tabGet t c).getD Column.reset) (sampleCaps_warned _ _).cols
  have hemg : (s.sampled x).column c = (((s.sampleColumns x).sampleCaps x).govern).column c :=
    congrArg (fun t => (tabGet t c).getD Column.reset) (State.emergency_leaves _ _).1.cols
  have hgovern := (State.govern_governed ((s.sampleColumns x).sampleCaps x)).column c
  rw [hcaps, sampleColumns_column s x h] at hgovern
  exact ⟨_, hemg.trans hgovern⟩

/-- A sample that is due writes every record, and hardware reacts to it. -/
theorem sampleTick_due (x : Sample) (h : s.time.toNat % 1000 = 0 ∧ s.policy.lastSample ≠ s.time.toNat) :
    exec (.sampleTick x) s = .next { s.sampled x with policy := { (s.sampled x).policy with
      lastSample := (s.sampled x).time.toNat
      coolTicks := if (s.sampled x).policy.emgSrc && decide (sampleHottest x < 1000) then (s.sampled x).policy.coolTicks + 1000 else 0 } } := by
  rw [exec_sampleTick, execSampleTick, if_neg (by simp [sampleDue_iff.mpr h])]
  rfl

/-- A release that this package originates lifts every cap of the emergency. -/
theorem release_islands (s : State) {i : Nat} (h : i < 1344) : ((s.liftCaps).originate true).island i = { s.island i with emgCap := 38 }.recap s.time.toNat := by
  have hislands : ((s.liftCaps).originate true).islands = s.liftCaps.islands := by rw [State.originate_only]
  exact (congrArg (fun t => (tabGet t i).getD Island.reset) hislands).trans (State.island_mapIslands s _ h)

/-- A notice that comes is applied and sent on. -/
def State.noticed (s : State) (l : Nat) (n : Notice) : State :=
  State.sendNotice { s with notices := tabPut s.notices n.origin n.seq, links := tabMod s.links l fun x => { x with failures := 0 } } (some l) n

theorem noticed_kept (s : State) (l : Nat) (n : Notice) :
    (s.noticed l n).policy = s.policy ∧ tabGet (s.noticed l n).notices n.origin = some n.seq := by
  rw [State.noticed, State.sendNotice_only]
  exact ⟨rfl, tabGet_put_same ..⟩

theorem noticeReceive_applied {l : Nat} {n : Notice} (hup : s.linkUp l = true) (hnew : tabGet s.notices n.origin ≠ some n.seq) :
    exec (.noticeReceive l n) s = .next (
      let v := s.noticed l n
      if n.release then
        (if v.policy.emgSrc then { v with policy := { v.policy with emgSeq := n.seq } }
         else
           let u : State := { v.liftCaps with policy := { v.policy with emg := false, emgSeq := n.seq } }
           if v.policy.emg then u.emergencyIrq else u)
      else
        let u : State := { v.halveClocks with policy := { v.policy with emg := true, emgSeq := n.seq } }
        if v.policy.emg then u else u.emergencyIrq) := by
  rw [exec_noticeReceive, execNoticeReceive, if_neg (by simp [hup, hnew])]
  rfl

/-- Both ports are told, where they have to be. -/
def State.toldIf (b : Bool) (s : State) : State := if b then s.emergencyIrq else s

theorem State.toldIf_kept (b : Bool) (s : State) : (s.toldIf b).notices = s.notices ∧ (s.toldIf b).policy = s.policy := by
  cases b <;> exact ⟨rfl, rfl⟩

theorem State.toldIf_not (b : Bool) (s : State) : s.toldIf (!b) = if b then s else s.emergencyIrq := by
  cases b <;> rfl

/-- What an applied notice leaves: its number, and the emergency as it says. -/
theorem noticeReceive_leaves {l : Nat} {n : Notice} (hup : s.linkUp l = true) (hnew : tabGet s.notices n.origin ≠ some n.seq) :
    Gives (.noticeReceive l n) s fun t => tabGet t.notices n.origin = some n.seq ∧ t.policy.emgSeq = n.seq ∧
      t.policy.emgSrc = s.policy.emgSrc ∧ t.policy.emg = (!n.release || (s.policy.emg && s.policy.emgSrc)) := by
  have hrun := noticeReceive_applied hup hnew
  obtain ⟨hpolicy, hnotices⟩ := noticed_kept s l n
  generalize s.noticed l n = v at hrun hpolicy hnotices
  dsimp only at hrun
  rw [← hpolicy]
  by_cases hrel : n.release = true
  · rw [if_pos hrel] at hrun
    by_cases hsrc : v.policy.emgSrc = true
    · rw [if_pos hsrc] at hrun
      exact ⟨_, hrun, hnotices, rfl, rfl, by simp [hrel, hsrc]⟩
    · rw [if_neg hsrc, ← State.toldIf] at hrun
      refine ⟨_, hrun, ?_⟩
      beta_reduce
      rw [(State.toldIf_kept ..).1, (State.toldIf_kept ..).2]
      refine ⟨?_, rfl, rfl, by simp [hrel, hsrc]⟩
      rw [State.liftCaps, State.mapIslands_only]
      exact hnotices
  · rw [if_neg hrel, ← State.toldIf_not] at hrun
    refine ⟨_, hrun, ?_⟩
    beta_reduce
    rw [(State.toldIf_kept ..).1, (State.toldIf_kept ..).2]
    refine ⟨?_, rfl, rfl, by simp [hrel]⟩
    rw [State.halveClocks, State.mapIslands_only]
    exact hnotices

theorem islandTarget_policy (s : State) (t : IslandTarget) : (s.islandTarget t).policy = s.policy := by
  unfold State.islandTarget
  split <;> rfl

/-- A pass of the stage manager: its writes, then its heartbeat. -/
def State.smWrites (s : State) (ts : List IslandTarget) (gs : List BandPermission) : State :=
  gs.foldl (fun s g => if g.engine < 256 then s.modEngine g.engine fun e => { e with gate := g.gate } else s) (ts.foldl State.islandTarget s)

theorem smWrites_policy (s : State) (ts : List IslandTarget) (gs : List BandPermission) : (s.smWrites ts gs).policy = s.policy :=
  (foldl_keeps State.policy (fun s g => by split <;> rfl) gs _).trans (foldl_keeps State.policy islandTarget_policy ts s)

theorem samplesAndEmergency : SamplesAndEmergency := by
  intro s
  refine ⟨fun x hno => ?_, fun x hmod hlast => ?_, fun x hmod hlast => ?_, fun hemg hsrc hcool => ?_, fun hno => ?_, fun l n hno => ?_,
    fun l n hup hnew => noticeReceive_leaves hup hnew, fun ts gs => ?_, fun hno => ?_, fun hticks hcapped => ?_⟩
  · rw [Idle, exec_sampleTick, execSampleTick, if_pos]
    rcases hno with h | h <;> simp [State.sampleDue, h]
  · obtain ⟨hemg, hsrc⟩ := sampled_policy s x
    refine ⟨_, sampleTick_due x ⟨hmod, hlast⟩, congrArg BitVec.toNat (sampled_kept s x).2, hemg, hsrc, fun c hc => ?_, fun c hc => ?_⟩
    · obtain ⟨ch, hcol⟩ := sampled_column s x hc
      change ((s.sampled x).column c).seq = _ ∧ ((s.sampled x).column c).budget = _ ∧ ((s.sampled x).column c).moves = _ ∧
        ((s.sampled x).column c).lost = _ ∧ ((s.sampled x).column c).suppressed = _
      rw [hcol]
      refine ⟨rfl, rfl, rfl, ?_, rfl⟩
      dsimp only [Column.sample]
      split <;> omega
    · obtain ⟨ch, hcol⟩ := sampled_column s x hc
      intro r part pwr
      have hpwr : s.samplePower x c = pwr := samplePower_eq s x c
      change ((s.sampled x).column c).busy = _ ∧ ((s.sampled x).column c).stall = _ ∧ ((s.sampled x).column c).pwr = _ ∧
        ((s.sampled x).column c).sigma = _
      rw [hcol, hpwr]
      exact ⟨rfl, rfl, rfl, rfl⟩
  · exact ⟨_, sampleTick_due x ⟨hmod, hlast⟩, (sampled_kept s x).1⟩
  · have hislands (i : Nat) (hi : i < 1344) : ((s.liftCaps.originate true).island i).emgCap = 38 := by
      rw [release_islands s hi]
      exact (Island.recap_caps _ _).1
    have hrun : exec .emergencyRelease s = .next (let v := s.liftCaps.originate true
        State.emergencyIrq { v with policy := { v.policy with emg := false, emgSrc := false } }) := by
      rw [exec_emergencyRelease, execEmergencyRelease, if_pos ⟨hemg, hsrc, hcool⟩]
    generalize s.liftCaps.originate true = v at hislands hrun
    exact ⟨_, hrun, rfl, rfl, hislands⟩
  · rw [Idle, exec_emergencyRelease, execEmergencyRelease, if_neg]
    rintro ⟨hemg, hsrc, hcool⟩
    rcases hno with h | h | h
    · simp [hemg] at h
    · simp [hsrc] at h
    · omega
  · rw [Idle, exec_noticeReceive, execNoticeReceive, if_pos]
    rcases hno with h | h <;> simp [h]
  · have hpolicy := smWrites_policy s ts gs
    refine ⟨{ s.smWrites ts gs with policy := { (s.smWrites ts gs).policy with
      smhb := ((s.smWrites ts gs).policy.smhb + 1) % 4294967296, smhbTicks := 0, smhbCapped := false } }, rfl, ?_, rfl, rfl, ?_⟩
    · dsimp only; rw [hpolicy]
    · rintro g rfl hg
      change ((s.smWrites ts [g]).engine g.engine).gate = g.gate
      rw [State.smWrites, List.foldl_cons, List.foldl_nil, if_pos hg, State.engine, State.modEngine_engines, tabGet_put_same]
      rfl
  · rw [Idle, exec_smhbTimeout, execSmhbTimeout, if_pos hno]
  · refine ⟨_, congrArg Host.Outcome.next (if_neg (by simp [hcapped]; omega)), ?_, fun i hi => ?_⟩
    · rw [State.mapIslands_policy]
    · rw [State.island_mapIslands _ _ hi]
      exact ⟨(Island.recap_caps _ _).2, (Island.recap_fcur _ _).trans (Island.cap_le_smhb _)⟩

end Sys2Proof.Machine

end

section

/-! SUPPORT: what the grid unit's reads, writes and records leave of a context (R266, R320, R321, R340, R397) -/

namespace Sys2Proof.Machine

variable {s u v : State} {c : Nat}

theorem State.rekey_ctxs (s : State) (line key : Nat) : (s.rekey line key).ctxs = s.ctxs := by
  unfold State.rekey
  split <;> rfl

theorem State.storeByte_ctxs (s : State) (x : Nat) (b : Byte) : (s.storeByte x b).ctxs = s.ctxs := by
  unfold State.storeByte
  split
  · exact s.rekey_ctxs _ _
  · rfl

theorem State.storeBytes_ctxs (s : State) (x : Nat) (bs : List Byte) : (s.storeBytes x bs).ctxs = s.ctxs := by
  induction bs generalizing s x with
  | nil => rfl
  | cons b bs ih => exact (ih _ _).trans (s.storeByte_ctxs x b)

theorem State.writeDirty_ctxs (s : State) (x : Nat) (dirty : BitVec 16) (bs : List Byte) (i : Nat) : (s.writeDirty x dirty bs i).ctxs = s.ctxs := by
  induction bs generalizing s i with
  | nil => rfl
  | cons b bs ih =>
    refine (ih _ _).trans ?_
    split
    · exact s.storeByte_ctxs ..
    · rfl

theorem State.writeBack_ctxs (s : State) (T : Tab Sector) : (s.writeBack T).ctxs = s.ctxs := by
  induction T generalizing s with
  | nil => rfl
  | cons p T ih => exact (ih _).trans (s.writeDirty_ctxs ..)

theorem State.l1Drop_ctxs (s : State) (col : Nat) (hit : Nat → Bool) : (s.l1Drop col hit).ctxs = s.ctxs := s.writeBack_ctxs _
theorem State.l1Sync_ctxs (s : State) (col : Nat) : (s.l1Sync col).ctxs = s.ctxs := s.writeBack_ctxs _
theorem State.l1Evict_ctxs (s : State) (cols : List Nat) (hit : Nat → Bool) : (s.l1Evict cols hit).ctxs = s.ctxs :=
  foldl_keeps State.ctxs (fun s _ => s.l1Drop_ctxs ..) cols s

theorem State.touch_ctxs (s : State) (stack c : Nat) (k : AccKind) (ptr : Nat) : (s.touch stack c k ptr).ctxs = s.ctxs := by
  unfold State.touch
  extract_lets va
  split
  · rfl
  split
  · extract_lets e1 e2 s₁
    change s₁.ctxs = _
    unfold s₁
    split
    · rfl
    · exact s.storeBytes_ctxs ..
  · rfl

theorem State.touchRange_ctxs (s : State) (stack c ptr n : Nat) : (s.touchRange stack c ptr n).ctxs = s.ctxs :=
  foldl_keeps State.ctxs (fun s _ => s.touch_ctxs ..) _ s

theorem State.touchRange_stored (s : State) (stack c ptr n : Nat) : s.Stored (s.touchRange stack c ptr n) :=
  .foldl (fun s _ => s.touch_stored ..) _ _

theorem State.devicePut_ctxs (s : State) (stack c ptr : Nat) (bytes : List Byte) : (s.devicePut stack c ptr bytes).ctxs = s.ctxs := by
  unfold State.devicePut
  split
  · exact ((State.storeBytes_ctxs ..).trans (State.l1Evict_ctxs ..)).trans (s.touch_ctxs ..)
  · rfl

theorem State.devicePut_stored (s : State) (stack c ptr : Nat) (bytes : List Byte) : s.Stored (s.devicePut stack c ptr bytes) := by
  unfold State.devicePut
  split
  · exact ((s.touch_stored ..).trans (State.l1Evict_stored ..)).trans (State.storeBytes_stored ..)
  · exact .refl s

theorem State.deviceSend_ctxs (s : State) (stack c ptr : Nat) (bytes : List Byte) : (s.deviceSend stack c ptr bytes).ctxs = s.ctxs := by
  unfold State.deviceSend State.deviceStore
  split
  · rfl
  · refine foldl_keeps State.ctxs (fun s i => ?_) _ s
    split
    · exact ((State.storeBytes_ctxs ..).trans (State.l1Evict_ctxs ..)).trans (s.touch_ctxs ..)
    · rfl

theorem State.ctx_of_ctxs (h : u.ctxs = s.ctxs) (c : Nat) : u.ctx c = s.ctx c := by rw [State.ctx, State.ctx, h]

theorem State.ctx_modCtx (s : State) (c : Nat) (f : Ctx → Ctx) (k : Nat) : (s.modCtx c f).ctx k = if k = c then f (s.ctx c) else s.ctx k :=
  s.ctx_setCtx c k _

/-- A part of the contexts' registers is as it was. -/
structure State.Keeps {α : Type} (g : Ctx → α) (s u : State) : Prop where
  ctx : ∀ c, g (u.ctx c) = g (s.ctx c)

section
variable {α : Type} {g : Ctx → α}

theorem State.Keeps.refl (s : State) : State.Keeps g s s := ⟨fun _ => rfl⟩
theorem State.Keeps.trans (h : State.Keeps g s u) (k : State.Keeps g u v) : State.Keeps g s v := ⟨fun c => (k.ctx c).trans (h.ctx c)⟩
theorem State.Keeps.of_ctxs (h : u.ctxs = s.ctxs) : State.Keeps g s u := ⟨fun c => congrArg g (State.ctx_of_ctxs h c)⟩
theorem State.Keeps.ite {p : Prop} [Decidable p] (h : State.Keeps g s u) (k : State.Keeps g s v) : State.Keeps g s (if p then u else v) := by
  split
  · exact h
  · exact k
theorem State.Keeps.foldl {β : Type} {f : State → β → State} (hf : ∀ s x, State.Keeps g s (f s x)) (l : List β) (s : State) :
    State.Keeps g s (l.foldl f s) := by
  induction l generalizing s with
  | nil => exact .refl s
  | cons x l ih => exact (hf s x).trans (ih _)

theorem State.Keeps.setCtx (s : State) (c : Nat) {x : Ctx} (h : g x = g (s.ctx c)) : State.Keeps g s (s.setCtx c x) := by
  refine ⟨fun k => ?_⟩
  rw [State.ctx_setCtx]
  split
  next hk => rw [hk, h]
  · rfl

theorem State.Keeps.modCtx (s : State) (c : Nat) {f : Ctx → Ctx} (h : ∀ x, g (f x) = g x) : State.Keeps g s (s.modCtx c f) :=
  .setCtx s c (h _)

/-- A part of a context that no counter and no place of its fault queue is in. -/
def Ctx.Apart (g : Ctx → α) : Prop := ∀ (x : Ctx) tail lost counters wraps, g { x with fqTail := tail, fqOvf := lost, counters := counters, ovf := wraps } = g x

variable (hg : Ctx.Apart g)
include hg

theorem State.countEvent_keeps (s : State) (c evt n : Nat) : State.Keeps g s (s.countEvent c evt n) := by
  unfold State.countEvent
  dsimp only
  refine .ite (.refl s) (.foldl (fun s i => .ite ?_ (.refl s)) _ s)
  exact .ite ((State.Keeps.setCtx s c (hg ..)).trans (.of_ctxs rfl)) (.setCtx s c (hg ..))

theorem State.fqWrite_keeps (s : State) (stack c : Nat) (bytes : List Byte) : State.Keeps g s (s.fqWrite stack c bytes) := by
  unfold State.fqWrite
  refine .ite (.refl s) (.ite (.setCtx s c (hg ..)) (.ite (.setCtx s c (hg ..)) ?_))
  refine State.Keeps.trans ?_ (State.countEvent_keeps hg ..)
  generalize hv : (List.range (bytes.length / 64)).foldl _ s = v
  have hsent : State.Keeps g s v := hv ▸ .foldl (fun s i => .of_ctxs (s.deviceSend_ctxs ..)) _ _
  exact (hsent.trans (.modCtx v c fun x => hg x ..)).trans (.of_ctxs rfl)

theorem State.fqDevice_keeps (s : State) (stack c cause addr1 addr2 : Nat) : State.Keeps g s (s.fqDevice stack c cause addr1 addr2) := by
  refine State.Keeps.trans ?_ (State.fqWrite_keeps hg ..)
  unfold State.errorIrq
  exact .ite (.of_ctxs rfl) (.refl s)

end

/-! ### The generator of the lottery (R321) -/

theorem seed_apart : Ctx.Apart Ctx.seed := fun _ _ _ _ _ => rfl

theorem State.reportQueue_seed (s : State) (stack c q : Nat) : State.Keeps Ctx.seed s (s.reportQueue stack c q) := by
  unfold State.reportQueue
  extract_lets old mark
  have hmark (s : State) (b : Bool) : State.Keeps Ctx.seed s (mark s b) := .ite (.refl s) (.modCtx s c fun _ => rfl)
  refine .ite (.refl s) ?_
  split
  · exact (hmark s false).trans (.of_ctxs (State.touchRange_ctxs ..))
  · exact .ite (.refl s) ((State.fqDevice_keeps seed_apart ..).trans (hmark _ true))
  · exact .ite (.refl s) ((State.fqDevice_keeps seed_apart ..).trans (hmark _ true))

theorem State.consume_seed (s : State) (stack c q : Nat) : State.Keeps Ctx.seed s (s.consume stack c q).2 := by
  unfold State.consume
  extract_lets h addr key link check rcd s₁ s₂ s₃ drop
  clear_value link check
  have hdrop (s : State) : State.Keeps Ctx.seed s (drop s) := by
    unfold drop
    split
    · exact .of_ctxs rfl
    · exact .refl s
  have h₁ : State.Keeps Ctx.seed s s₁ := by
    unfold s₁
    split
    · exact .of_ctxs (s.touchRange_ctxs ..)
    · exact .refl s
  have h₃ : State.Keeps Ctx.seed s s₃ := (h₁.trans (.of_ctxs (State.devicePut_ctxs ..))).trans (.modCtx s₂ c fun _ => rfl)
  clear_value s₃ drop
  split
  · exact (h₃.trans (hdrop _)).trans (State.fqDevice_keeps seed_apart ..)
  · exact (h₃.trans (hdrop _)).trans (State.fqDevice_keeps seed_apart ..)
  · split
    · exact (h₃.trans (hdrop _)).trans (State.fqDevice_keeps seed_apart ..)
    · cases link with
      | some x => exact (h₃.trans (.setCtx s₃ c (x := { s₃.ctx c with nextGrid := (s₃.ctx c).nextGrid + 1 }) rfl)).trans (.of_ctxs rfl)
      | none => exact (h₃.trans (.setCtx s₃ c (x := { s₃.ctx c with nextGrid := (s₃.ctx c).nextGrid + 1 }) rfl)).trans (.of_ctxs rfl)

theorem State.takeUnit_seed (s : State) (stack c q : Nat) : State.Keeps Ctx.seed s (s.takeUnit stack c q).2 := by
  unfold State.takeUnit
  extract_lets old
  split
  · exact State.Keeps.modCtx s c (f := fun x => { x with queues := _ }) fun _ => rfl
  · split
    · exact .of_ctxs rfl
    · have hconsume := s.consume_seed stack c q
      split
      next heq =>
        rw [heq] at hconsume
        split
        · exact hconsume.trans (.of_ctxs rfl)
        · exact hconsume
      next heq =>
        rw [heq] at hconsume
        exact hconsume

/-- A draw steps its context's generator once. -/
theorem State.draw_seed (s : State) (stack c : Nat) : ((s.draw stack c).ctx c).seed = xorshift (s.ctx c).seed := by
  unfold State.draw
  extract_lets s₁ qs seed s₂
  have h₁ : State.Keeps Ctx.seed s s₁ := .foldl (fun s q => s.reportQueue_seed ..) _ _
  have h₂ : (s₂.ctx c).seed = xorshift (s.ctx c).seed := by
    rw [show s₂ = s₁.modCtx c _ from rfl, State.ctx_modCtx, if_pos rfl, ← h₁.ctx c]
  clear_value s₂
  split
  · exact h₂
  next q _ =>
    refine Eq.trans ?_ (((s₂.takeUnit_seed stack c q).ctx c).trans h₂)
    exact (State.Keeps.modCtx (g := Ctx.seed) _ c (f := fun x => { x with held := (s₂.takeUnit stack c q).1 }) fun _ => rfl).ctx c

theorem State.addTeams_kept (s : State) (wg core : Nat) (lo hi : Triple) (r : LaunchRec) (ps : List Nat) (i : Nat) :
    (s.addTeams wg core lo hi r ps i).ctxs = s.ctxs ∧ (s.addTeams wg core lo hi r ps i).wgs = s.wgs := by
  induction ps generalizing s i with
  | nil => exact ⟨rfl, rfl⟩
  | cons p ps ih =>
    obtain ⟨hctxs, hwgs⟩ := ih (s := _) (i + 1)
    exact ⟨hctxs, hwgs⟩

theorem State.addWg_ctxs (s : State) (gid : Nat) (r : Grid) (core : Nat) (wgid lo hi : Triple) (splits : Nat) (cluster : Option Nat) (slot : Nat) :
    (s.addWg gid r core wgid lo hi splits cluster slot).2.ctxs = s.ctxs :=
  (State.addTeams_kept ..).1.trans (State.l1Sync_ctxs ..)

theorem State.addCluster_ctxs (s : State) (gid : Nat) (r : Grid) (e first count : Nat) : (s.addCluster gid r e first count).ctxs = s.ctxs := by
  unfold State.addCluster
  refine foldl_keeps State.ctxs (fun s i => ?_) _ _
  exact State.addWg_ctxs s ..

theorem State.placeHeld_seed (s : State) (c : Nat) : State.Keeps Ctx.seed s (s.placeHeld c) := by
  unfold State.placeHeld
  split
  · exact .refl s
  · extract_lets done
    have hdone (s : State) : State.Keeps Ctx.seed s (done s) := .modCtx s c fun _ => rfl
    split
    · split
      · exact hdone s
      · split
        · exact (State.Keeps.of_ctxs (State.addWg_ctxs ..)).trans (hdone _)
        · exact .refl s
    · split
      · exact hdone s
      · refine .ite ?_ ?_
        · split
          · exact (State.Keeps.of_ctxs (State.addCluster_ctxs ..)).trans (hdone _)
          · exact .refl s
        · extract_lets w
          split
          · exact (State.Keeps.of_ctxs (State.addWg_ctxs ..)).trans (hdone _)
          · exact .refl s

end Sys2Proof.Machine

end

section

/-! PROOF: records become grids, and a context is chosen and draws (R264 to R267, R319 to R322, R397) -/

namespace Sys2Proof.Machine

open Sys2Proof.Claims

variable {s v : State} {c q stack : Nat}

theorem gives_of {i : Instr} {t : State} {p : State → Prop} (h : exec i s = .next t) (hp : p t) : Gives i s p := ⟨t, h, hp⟩

/-- The state in which a record becomes a grid: its granules are marked, HEAD has advanced, and its link is gone. -/
def State.headTaken (v : State) (stack c q : Nat) : State :=
  let h := v.queueHdr stack c q
  let u := v.touchRange stack c (h.slot h.head) 128
  (u.devicePut stack c (u.queueAddr c q + 16) (leBytes 4 ((h.head + 1) % 4294967296))).modCtx c fun x =>
    { x with links := tabDel x.links (linkKey q h.head) }

/-- The grid of a record that no `launch` has written. -/
def gridOfRecord (c q grid : Nat) (rcd : List Byte) : Grid :=
  { ctx := c, gridId := grid, queue := q, depth := 1, rcd := recOf rcd, parent := none, next := 0, faulted := false, below := 0, retired := false
    stmem := [], stack := none }

/-- A valid record that the grid unit can read, and that no `launch` has written, becomes a grid. -/
theorem consume_valid (hcheck : v.rangeCheck stack c [.load] ((v.queueHdr stack c q).slot (v.queueHdr stack c q).head) 128 = .ok)
    (hvalid : recValid (v.deviceLoad stack c ((v.queueHdr stack c q).slot (v.queueHdr stack c q).head) 128) false = true)
    (hlink : tabGet (v.ctx c).links (linkKey q (v.queueHdr stack c q).head) = none) :
    (v.consume stack c q).2 =
      let u := v.headTaken stack c q
      { State.setCtx { u with nextId := u.nextId + 1 } c { u.ctx c with nextGrid := (u.ctx c).nextGrid + 1 } with
        grids := tabPut u.grids u.nextId
          (gridOfRecord c q (u.ctx c).nextGrid (v.deviceLoad stack c ((v.queueHdr stack c q).slot (v.queueHdr stack c q).head) 128)) } := by
  unfold State.consume
  extract_lets h addr key link check rcd s₁ s₂ s₃ drop u
  have hc : check = .ok := hcheck
  have hl : link = none := hlink
  have hv : recValid rcd false = true := hvalid
  have h₃ : s₃ = u := by
    unfold s₃ s₂ s₁
    rw [hc]
    rfl
  clear_value link check s₃ u
  subst hc hl h₃
  simp only [Option.isSome_none, hv, Bool.not_true, Bool.false_eq_true, if_false]
  rfl

theorem headTaken_kept (v : State) (stack c q : Nat) :
    (v.headTaken stack c q).nextId = v.nextId ∧ ((v.headTaken stack c q).ctx c).nextGrid = (v.ctx c).nextGrid := by
  unfold State.headTaken
  extract_lets h u
  refine ⟨((u.devicePut_stored ..).nextId).trans (v.touchRange_stored ..).nextId, ?_⟩
  rw [State.ctx_modCtx, if_pos rfl, State.ctx_of_ctxs (u.devicePut_ctxs ..), State.ctx_of_ctxs (v.touchRange_ctxs ..)]

/-- A queue whose header is reached, and was not reported, has it read. -/
theorem reportQueue_reached (hw : s.rangeWaits stack c [.load] (s.queueAddr c q) 48 = false) (hres : s.headerRes stack c q = .ok)
    (hrep : ((tabGet (s.ctx c).queues q).getD Queue.reset).reported = false) :
    s.reportQueue stack c q = s.touchRange stack c (s.queueAddr c q) 48 := by
  unfold State.reportQueue
  dsimp only
  rw [hw, hres]
  simp only [hrep, Bool.false_eq_true, if_false, if_true]

theorem roundRobin_mem {at' left : Nat} {cands : List Nat} {c : Nat} (h : roundRobin at' left cands = some c) :
    c ∈ cands ∧ (0 < left → at' ∈ cands → c = at') ∧ ((left = 0 ∨ at' ∉ cands) → (∃ d ∈ cands, at' < d) → at' < c) := by
  unfold roundRobin at h
  split at h
  next hgo =>
    obtain ⟨hleft, hin⟩ := hgo
    have hmem : at' ∈ cands := by simpa using hin
    cases h
    exact ⟨hmem, fun _ _ => rfl, fun hno => absurd hno (by simp [hmem]; omega)⟩
  next hno =>
    have hstop : ¬ (0 < left ∧ at' ∈ cands) := by simpa using hno
    cases hf : cands.find? (fun c => decide (at' < c)) with
    | some d =>
      rw [hf, Option.some_or] at h
      cases h
      exact ⟨List.mem_of_find?_eq_some hf, fun h1 h2 => absurd ⟨h1, h2⟩ hstop, fun _ _ => by simpa using List.find?_some hf⟩
    | none =>
      rw [hf, Option.none_or] at h
      refine ⟨List.mem_of_head? h, fun h1 h2 => absurd ⟨h1, h2⟩ hstop, fun _ ⟨d, hd, hlt⟩ => ?_⟩
      exact absurd (List.find?_eq_none.mp hf d hd) (by simpa using hlt)

/-- The partition whose lowest stack chooses. -/
def State.choosing (s : State) (st : Nat) : Option Nat := (List.range 8).find? fun p => s.partStacks p != 0 && lowStack (s.partStacks p) == st

/-- A partition has a core in service with a free team slot. -/
def State.chooseRoom (s : State) (p : Nat) : Bool := (List.range 1024).any fun g => bitOf (s.partStacks p) (coreStack g) && s.coreInService g &&
  (List.range 4).any fun k => decide ((s.partTeams g k).length < 16)

theorem chooseRoom_of {p : Nat} (h : ∃ g < 1024, bitOf (s.partStacks p) (coreStack g) = true ∧ s.coreInService g = true ∧
    ∃ k < 4, (s.partTeams g k).length < 16) : s.chooseRoom p = true := by
  obtain ⟨g, hg, hbit, hin, k, hk, hlen⟩ := h
  refine List.any_eq_true.mpr ⟨g, List.mem_range.mpr hg, ?_⟩
  rw [hbit, hin]
  exact List.any_eq_true.mpr ⟨k, List.mem_range.mpr hk, decide_eq_true hlen⟩

/-- The choice of a partition: no candidate, or one that draws. -/
theorem contextChoice_cases {st p : Nat} (hp : s.choosing st = some p) :
    let cands := (List.range 64).filter (s.candidate st p)
    let at' := ((tabGet s.rrCtx p).getD (64, 0)).1
    let left := ((tabGet s.rrCtx p).getD (64, 0)).2
    (roundRobin at' left cands = none → Idle (.contextChoice st) s) ∧
    ∀ c, s.chooseRoom p = true → roundRobin at' left cands = some c → exec (.contextChoice st) s = .next (
      let u := (s.draw st c).placeHeld c
      { u with rrCtx := tabPut u.rrCtx p (c, if u.candidate st p c then (if 0 < left ∧ c = at' then left - 1 else (s.ctx c).turns - 1) else 0) }) := by
  unfold State.choosing at hp
  rw [Idle, exec_contextChoice, execContextChoice, hp]
  dsimp only
  refine ⟨fun hnone => ?_, fun c hroom hsome => ?_⟩
  · rw [hnone]
    split
    next heq => cases heq
    · rfl
  · unfold State.chooseRoom at hroom
    rw [hroom, hsome]

/-- Whether a context is a candidate does not depend on the visits. -/
theorem State.candidate_rrCtx (u : State) (T : Tab (Nat × Nat)) (stack p c : Nat) :
    State.candidate { u with rrCtx := T } stack p c = u.candidate stack p c := rfl

theorem recordsAndDraws : RecordsAndDraws := by
  refine ⟨fun s c q => ?_, fun s st => ⟨fun hno => ?_, fun p hp => ⟨fun hnil => ?_, fun c hroom hc => ?_⟩⟩, fun at' left cands c h => roundRobin_mem h⟩
  · intro stack
    refine ⟨fun hno => ?_, ?_⟩
    · rw [Idle, exec_queueRecordConsume, execQueueRecordConsume]
      refine congrArg _ (if_pos ?_)
      rcases hno with h | h | h
      · simp [h]
      · simp [h]
      · rw [h, Bool.or_true]
    intro v h hact hq hw hres hvres hrep
    have hrun : exec (.queueRecordConsume c q) s =
        .next (if h.en && h.sized && decide (0 < h.used) && !v.rangeWaits stack c [.load] (h.slot h.head) 128 then ((v.consume stack c q).2).endVisits else v) := by
      rw [exec_queueRecordConsume, execQueueRecordConsume]
      dsimp only
      rw [if_neg (by simp [hact, hw, stack]; omega), reportQueue_reached hw hres hrep, hvres]
    refine ⟨fun hno => ?_, fun hen hsz hused hwait hcheck hvalid hlink => ?_⟩
    · rw [hrun, if_neg]
      rcases hno with h | h | h | h <;> simp [h]
    · rw [hen, hsz, hwait, decide_eq_true hused] at hrun
      have hctx : v.ctx c = s.ctx c := State.ctx_of_ctxs (s.touchRange_ctxs ..) c
      obtain ⟨hid, hgrid⟩ := headTaken_kept v stack c q
      refine gives_of (hrun.trans (congrArg _ ((if_pos rfl).trans (congrArg State.endVisits (consume_valid hcheck hvalid (hctx ▸ hlink)))))) ?_
      have hnext : v.nextId = s.nextId := (s.touchRange_stored ..).nextId
      rw [hctx] at hgrid
      rw [hnext] at hid
      generalize v.headTaken stack c q = u at hid hgrid
      refine ⟨?_, gridOfRecord c q (u.ctx c).nextGrid (v.deviceLoad stack c (h.slot h.head) 128), ?_, rfl, rfl, hgrid, rfl, rfl, rfl, rfl⟩
      · exact (congrArg Ctx.nextGrid ((State.ctx_setCtx _ c c _).trans (if_pos rfl))).trans (congrArg (· + 1) hgrid)
      · exact hid ▸ tabGet_put_same ..
  · rw [Idle, exec_contextChoice, execContextChoice]
    have hnone : s.choosing st = none := List.find?_eq_none.mpr fun p hp => by
      rcases hno p (List.mem_range.mp hp) with h | h <;> simp [h]
    unfold State.choosing at hnone
    rw [hnone]
  · exact (contextChoice_cases hp).1 (by rw [hnil]; simp [roundRobin])
  · have hrun := (contextChoice_cases hp).2 c (chooseRoom_of hroom) hc
    have hseed := (((s.draw st c).placeHeld_seed c).ctx c).trans (s.draw_seed st c)
    generalize (s.draw st c).placeHeld c = u at hrun hseed
    refine gives_of hrun ⟨hseed, ?_⟩
    rw [State.candidate_rrCtx]
    exact tabGet_put_same ..

end Sys2Proof.Machine

end

section

/-! SUPPORT: where workgroups stand, and what a change of place leaves alone (R28, R343 to R345) -/

namespace Sys2Proof.Machine

variable {s u v : State} {wid core : Nat}

/-- Only entities and teams change. -/
structure State.Peopled (s u : State) : Prop where
  rest : u = { s with ents := u.ents, teams := u.teams }

theorem State.Peopled.refl (s : State) : s.Peopled s := ⟨rfl⟩
theorem State.Peopled.trans (h : s.Peopled u) (g : u.Peopled v) : s.Peopled v := ⟨by rw [g.rest, h.rest]⟩
theorem State.Peopled.foldl {α : Type} {f : State → α → State} (hf : ∀ (s : State) x, s.Peopled (f s x)) (l : List α) (s : State) :
    s.Peopled (l.foldl f s) := by
  induction l generalizing s with
  | nil => exact .refl s
  | cons x l ih => exact (hf s x).trans (ih _)
theorem State.Peopled.ite {p : Prop} [Decidable p] (h : s.Peopled u) (g : s.Peopled v) : s.Peopled (if p then u else v) := by
  split
  · exact h
  · exact g
theorem State.Peopled.wgs (h : s.Peopled u) : u.wgs = s.wgs := by rw [h.rest]
theorem State.Peopled.ctxs (h : s.Peopled u) : u.ctxs = s.ctxs := by rw [h.rest]

theorem State.reenter_peopled (s : State) (tid core : Nat) : s.Peopled (s.reenter tid core) := by
  unfold State.reenter
  split
  · exact .refl s
  · exact .foldl (fun _ _ => ⟨rfl⟩) _ s

theorem State.reenter_teams (s : State) (tid core : Nat) : (s.reenter tid core).teams = s.teams := by
  unfold State.reenter
  split
  · rfl
  · refine foldl_keeps State.teams (fun _ _ => ?_) _ s
    rfl

theorem State.seatStops_peopled (s : State) (tid c core p : Nat) : s.Peopled (s.seatStops tid c core p) :=
  .foldl (fun _ _ => ⟨rfl⟩) _ s

theorem State.seatStops_teams (s : State) (tid c core p : Nat) : (s.seatStops tid c core p).teams = s.teams := by
  refine foldl_keeps State.teams (fun _ _ => ?_) _ s
  rfl

theorem State.restartSlots_peopled (s : State) (tid : Nat) : s.Peopled (s.restartSlots tid) := .foldl (fun _ _ => ⟨rfl⟩) _ s

theorem State.restartSlots_teams (s : State) (tid : Nat) : (s.restartSlots tid).teams = s.teams := by
  refine foldl_keeps State.teams (fun _ _ => ?_) _ s
  rfl

theorem State.seat_peopled (s : State) (wid core : Nat) : s.Peopled (s.seat wid core) :=
  .foldl (fun s _ => .ite (.refl s) (.trans ⟨rfl⟩ (State.seatStops_peopled ..))) _ s

/-- A workgroup stands on a core, and no other changes. -/
theorem State.standOn_kept (s : State) (wid core : Nat) :
    (s.standOn wid core).wgs = tabMod s.wgs wid (fun w => { w with core := core }) ∧ (s.standOn wid core).ctxs = s.ctxs := by
  unfold State.standOn
  extract_lets s₁ s₂ s₃
  have hpeople : s₁.Peopled s₂ :=
    .trans (.foldl (fun s _ => .ite (.refl s) (s.reenter_peopled ..)) _ _) (State.seat_peopled ..)
  refine ⟨?_, ?_⟩
  · change s₃.wgs = s₁.wgs
    rw [← hpeople.wgs]
    exact (s₂.l1Sync_stored _).wgs
  · change s₃.ctxs = s₁.ctxs
    rw [← hpeople.ctxs]
    exact s₂.l1Sync_ctxs _

theorem tabGet_modWg {w : Workgroup} (f : Workgroup → Workgroup) (hw : tabGet s.wgs wid = some w) :
    tabGet (s.modWg wid f).wgs wid = some (f w) := by
  rw [State.modWg_wgs, tabGet_mod_same, hw]; rfl

theorem setPlaces_get {ws : List Nat} {k : Nat} {w : Workgroup} (p : Residency) (hw : tabGet s.wgs k = some w) :
    tabGet (s.setPlaces ws p).wgs k = some { w with place := if k ∈ ws then p else w.place } := by
  induction ws generalizing s w with
  | nil => simpa [State.setPlaces] using hw
  | cons j ws ih =>
    unfold State.setPlaces at ih ⊢
    rw [List.foldl_cons]
    by_cases hj : k = j
    · subst hj
      rw [ih (tabGet_modWg _ hw)]
      simp
    · rw [ih (w := w) (by rw [State.modWg_wgs, tabGet_mod_other _ _ hj, hw])]
      simp [hj]

/-- Every workgroup of a move is at the place that the move has come to. -/
theorem setPlaces_all {ws : List Nat} {k : Nat} {w : Workgroup} (p : Residency) (hk : k ∈ ws) (hw : tabGet s.wgs k = some w) :
    tabGet (s.setPlaces ws p).wgs k = some { w with place := p } := by
  rw [setPlaces_get p hw, if_pos hk]

theorem State.areaWrite_stored (s : State) (a : Nat) (bs : List Byte) : s.Stored (s.areaWrite a bs) :=
  .ite (.refl s) ((s.l1Evict_stored ..).trans (State.storeBytes_stored ..))

theorem State.areaWrite_ctxs (s : State) (a : Nat) (bs : List Byte) : (s.areaWrite a bs).ctxs = s.ctxs := by
  unfold State.areaWrite
  split
  · rfl
  · exact (State.storeBytes_ctxs ..).trans (s.l1Evict_ctxs ..)

/-- What a space reads after a store is what was stored. -/
theorem tabBytes_tabStore (t : Tab Byte) (off : Nat) (bs : List Byte) : tabBytes (tabStore t off bs) off bs.length = bs := by
  refine List.ext_getElem (by simp [tabBytes]) fun i hi hi' => ?_
  simp only [tabBytes, List.getElem_map, List.getElem_range]
  rw [tabGet_tabStore_inside t off bs hi']
  simp

end Sys2Proof.Machine

end

section

/-! PROOF: a move between layers, its blocks, and the blocks of a save and of a restore (R28, R29, R343 to R345, R364, R372) -/

namespace Sys2Proof.Machine

open Sys2Proof.Claims

variable {s : State} {w y n : Nat} {x : Workgroup}

/-- What the start of a move does where its workgroups may go on. -/
def State.moveGo (s : State) (w y : Nat) (x : Workgroup) : State :=
  if s.moveForbidden (s.moveSet w) then s.deferMove w x
  else if s.allAtBoundary (s.moveSet w) then s.startMove w x y
  else s.setPlaces (s.moveSet w) (.halting y)

theorem migrationStart_cases (hx : tabGet s.wgs w = some x) :
    (x.aborting = true → Idle (.migrationStart w y) s) ∧
    (x.place = .resident → ((s.column (coreColumn x.core)).chosen ≠ some (w, y) ∨ s.roomOn (s.moveSet w) y = false) →
      Idle (.migrationStart w y) s) ∧
    (x.aborting = false → x.place = .halting y → exec (.migrationStart w y) s =
      .next (if s.entriesFit (s.moveSet w) then s.moveGo w y x else s.setPlaces (s.moveSet w) .resident)) ∧
    (x.aborting = false → x.place = .resident → (s.column (coreColumn x.core)).chosen = some (w, y) → s.roomOn (s.moveSet w) y = true →
      exec (.migrationStart w y) s = .next (s.moveGo w y x)) := by
  rw [Idle, exec_migrationStart, execMigrationStart, hx]
  dsimp only
  refine ⟨fun hab => ?_, fun hres hno => ?_, fun hab hhalt => ?_, fun hab hres hch hroom => ?_⟩
  · rw [if_pos hab]
  · have hhalt : x.place ≠ .halting y := by simp [hres]
    have hno' : ¬ (x.place = .resident ∧ (s.column (coreColumn x.core)).chosen = some (w, y) ∧ s.roomOn (s.moveSet w) y = true) :=
      fun ⟨_, hch, hroom⟩ => hno.elim (· hch) (by simp [hroom])
    rw [if_neg hhalt, if_neg hno', ite_self]
  · rw [if_neg (by simp [hab]), if_pos hhalt]
    rfl
  · have hhalt : x.place ≠ .halting y := by simp [hres]
    rw [if_neg (by simp [hab]), if_neg hhalt, if_pos ⟨hres, hch, hroom⟩]
    rfl

theorem deferMove_wgs (s : State) (w : Nat) (x : Workgroup) : (s.deferMove w x).wgs = (s.setPlaces (s.moveSet w) .resident).wgs := by
  unfold State.deferMove
  dsimp only
  split
  · rfl
  · exact (State.countEvent_counted ..).stored.wgs

theorem startMove_wgs (s : State) (w : Nat) (x : Workgroup) (y : Nat) :
    (s.startMove w x y).wgs = (s.setPlaces (s.moveSet w) (.moving y 0)).wgs := by
  unfold State.startMove
  dsimp only
  rw [(State.countEvent_counted ..).stored.wgs, (State.countEvent_counted ..).stored.wgs]
  refine foldl_keeps State.wgs (fun _ _ => ?_) _ _
  rfl

/-- Where a chosen move's workgroups stand after its start. -/
theorem moveGo_wgs (s : State) (w y : Nat) (x : Workgroup) :
    (s.moveForbidden (s.moveSet w) = true → (s.moveGo w y x).wgs = (s.setPlaces (s.moveSet w) .resident).wgs) ∧
    (s.moveForbidden (s.moveSet w) = false → s.allAtBoundary (s.moveSet w) = true →
      (s.moveGo w y x).wgs = (s.setPlaces (s.moveSet w) (.moving y 0)).wgs) ∧
    (s.moveForbidden (s.moveSet w) = false → s.allAtBoundary (s.moveSet w) = false →
      (s.moveGo w y x).wgs = (s.setPlaces (s.moveSet w) (.halting y)).wgs) := by
  unfold State.moveGo
  refine ⟨fun hf => ?_, fun hf hb => ?_, fun hf hb => ?_⟩
  · rw [if_pos hf, deferMove_wgs]
  · rw [if_neg (by simp [hf]), if_pos hb, startMove_wgs]
  · rw [if_neg (by simp [hf]), if_neg (by simp [hb])]

/-- An event after which every workgroup of the move stands at a place. -/
theorem places_all {u : State} {p : Residency} (hrun : exec (.migrationStart w y) s = .next u)
    (hwgs : u.wgs = (s.setPlaces (s.moveSet w) p).wgs) :
    Gives (.migrationStart w y) s fun t => ∀ k ∈ s.moveSet w, ∀ v, tabGet s.wgs k = some v →
      ∃ v', tabGet t.wgs k = some v' ∧ v' = { v with place := p } :=
  gives_of hrun fun _ hk _ hv => ⟨_, hwgs ▸ setPlaces_all p hk hv, rfl⟩

theorem moveSet_alone (hx : tabGet s.wgs w = some x) (hcl : x.cluster = none) : s.moveSet w = [w] := by
  unfold State.moveSet
  rw [hx, Option.bind_some, hcl]

/-- The arrival of a workgroup that moves alone, which waits for its last block. -/
theorem migrationArrival_alone (hx : tabGet s.wgs w = some x) (hp : x.place = .moving y n) (hcl : x.cluster = none) :
    (n < s.blocksOf w x → Idle (.migrationArrival w) s) ∧
    (s.blocksOf w x ≤ n → exec (.migrationArrival w) s =
      .next ((s.modWg w fun v => { v with place := .resident }).standOn w (coreOnLayer x.core y))) := by
  rw [Idle, exec_migrationArrival, execMigrationArrival, hx]
  dsimp only
  rw [hp]
  dsimp only
  rw [moveSet_alone hx hcl, hcl]
  refine ⟨fun hlt => congrArg _ (if_pos ?_), fun hle => congrArg _ ((if_neg ?_).trans ?_)⟩
  · simp [hx, hp]
    omega
  · simp [hx, hp]
    omega
  · rw [List.foldl_cons, List.foldl_nil, hx]

theorem saveBlock_moving (hx : tabGet s.wgs w = some x) (hp : x.place = .moving y n) (hlt : n < s.blocksOf w x) :
    exec (.saveBlockTransfer w) s = .next (s.modWg w fun x => { x with place := .moving y (n + 1) }) := by
  rw [exec_saveBlockTransfer, execSaveBlockTransfer, hx]
  dsimp only
  rw [hp]
  dsimp only
  rw [if_neg (by omega)]

/-- A state in which a workgroup is put at a place. -/
def State.putAt (s : State) (w : Nat) (p : Residency) : State := s.modWg w fun x => { x with place := p }

theorem saveBlock_saving (hx : tabGet s.wgs w = some x) (hp : x.place = .saving n) :
    exec (.saveBlockTransfer w) s = .next (
      if s.blocksOf w x ≤ n then s.savedNow w x
      else
        let u := (s.recordWrite x (s.blockSpan w x n).1 (s.blockBytes w x n)).putAt w (.saving (n + 1))
        if s.blocksOf w x ≤ n + 1 then u.savedNow w x else u) := by
  rw [exec_saveBlockTransfer, execSaveBlockTransfer, hx]
  dsimp only
  rw [hp]
  rfl

theorem saveBlock_restoring (hx : tabGet s.wgs w = some x) (hp : x.place = .restoring n) :
    exec (.saveBlockTransfer w) s = .next (
      if !s.reaches (physOf (s.recordAddr x) 0) then s
      else if s.blocksOf w x ≤ n then s.restoredNow w x
      else
        let u := (s.loadBlock w x n).putAt w (.restoring (n + 1))
        if s.blocksOf w x ≤ n + 1 then u.restoredNow w x else u) := by
  rw [exec_saveBlockTransfer, execSaveBlockTransfer, hx]
  dsimp only
  rw [hp]
  rfl

/-- A workgroup whose last block is saved stands in its context's order. -/
theorem savedNow_leaves {v : Workgroup} (hv : tabGet s.wgs w = some v) (x : Workgroup) :
    tabGet (s.savedNow w x).wgs w = some { v with place := .saved } ∧
    ((s.savedNow w x).ctx x.ctx).savedWgs = (s.ctx x.ctx).savedWgs ++ [w] := by
  unfold State.savedNow
  generalize s.residenceSpan w x = r
  obtain ⟨off, n⟩ := r
  refine ⟨?_, ?_⟩
  · exact tabGet_modWg _ ((congrArg (tabGet · w) (State.areaWrite_stored ..).wgs).trans hv)
  · rw [State.ctx_modCtx, if_pos rfl]
    exact congrArg (fun c : Ctx => c.savedWgs ++ [w]) (State.ctx_of_ctxs (State.areaWrite_ctxs ..) _)

/-- A workgroup whose last block is back goes on. -/
theorem restoredNow_leaves {v : Workgroup} (hv : tabGet s.wgs w = some v) (x : Workgroup) :
    ∃ r, tabGet (s.restoredNow w x).wgs w = some { v with place := .resident, spadRes := r } := by
  unfold State.restoredNow
  generalize s.residenceSpan w x = r
  obtain ⟨off, n⟩ := r
  exact ⟨_, tabGet_modWg _ hv⟩

/-- A block is back: of its workgroup only the SPAD may change, which holds the record's bytes where the block is of it. -/
theorem loadBlock_leaves (hx : tabGet s.wgs w = some x) :
    ∃ v, tabGet (s.loadBlock w x n).wgs w = some v ∧ v = { x with spad := v.spad } ∧
      ((s.blockCounts w x).1 ≤ n → n < (s.blockCounts w x).1 + (s.blockCounts w x).2.1 →
        tabBytes v.spad (4096 * (n - (s.blockCounts w x).1)) (s.blockSpan w x n).2 =
          s.loadBytes (physOf (s.recordAddr x + (s.blockSpan w x n).1) 0) (s.blockSpan w x n).2) := by
  have hbytes : ¬ n < (s.blockCounts w x).1 → n < (s.blockCounts w x).1 + (s.blockCounts w x).2.1 → s.blockBytes w x n =
      tabBytes x.spad (4096 * (n - (s.blockCounts w x).1)) (s.blockSpan w x n).2 := by
    intro hlane hspad
    unfold State.blockBytes
    generalize s.blockCounts w x = r at hlane hspad
    obtain ⟨l, m, k⟩ := r
    dsimp only at hlane hspad ⊢
    rw [if_neg hlane, if_pos hspad, State.spaceRead, State.spaceOf, hx]
  have hlen : (s.loadBytes (physOf (s.recordAddr x + (s.blockSpan w x n).1) 0) (s.blockSpan w x n).2).length = (s.blockSpan w x n).2 := by
    simp [State.loadBytes]
  unfold State.loadBlock
  generalize s.blockCounts w x = r at hbytes
  generalize s.blockSpan w x n = b at hbytes hlen
  obtain ⟨l, m, k⟩ := r
  obtain ⟨off, len⟩ := b
  dsimp only at hbytes hlen ⊢
  generalize s.loadBytes (physOf (s.recordAddr x + off) 0) len = bs at hlen
  subst hlen
  split
  next hsame => exact ⟨x, hx, rfl, fun hlane hspad => (hbytes (by omega) hspad).symm.trans hsame.symm⟩
  · split
    next hlane =>
      refine ⟨x, ?_, rfl, fun h => absurd hlane (by omega)⟩
      refine (congrArg (fun t => tabGet t w) ?_).trans hx
      exact foldl_keeps State.wgs (fun _ _ => by rfl) _ s
    · split
      · refine ⟨{ x with spad := tabStore x.spad (4096 * (n - l)) bs }, ?_, rfl, fun _ _ => tabBytes_tabStore ..⟩
        unfold State.modSpace
        rw [hx]
        exact tabGet_modWg _ hx
      next hno =>
        refine ⟨x, ?_, rfl, fun _ h => absurd h hno⟩
        unfold State.modSpace
        rw [hx]
        dsimp only
        split <;> exact hx

/-- A restore's block is read back, and after the last one the workgroup goes on. -/
theorem restoreBlock_leaves (hx : tabGet s.wgs w = some x) (hp : x.place = .restoring n)
    (hreach : s.reaches (physOf (s.recordAddr x) 0) = true) :
    Gives (.saveBlockTransfer w) s fun t =>
      (∃ v, tabGet t.wgs w = some v ∧ v.core = x.core ∧ v.place = if s.blocksOf w x ≤ n + 1 then .resident else .restoring (n + 1)) ∧
      let lane := (s.blockCounts w x).1
      (lane ≤ n → n < lane + (s.blockCounts w x).2.1 →
        let b := s.blockSpan w x n
        t.spaceRead w .spad (4096 * (n - lane)) b.2 = s.loadBytes (physOf (s.recordAddr x + b.1) 0) b.2) := by
  have hrun := saveBlock_restoring hx hp
  rw [hreach] at hrun
  have hread {t : State} {v : Workgroup} (hv : tabGet t.wgs w = some v) (a k : Nat) : t.spaceRead w .spad a k = tabBytes v.spad a k := by
    rw [State.spaceRead, State.spaceOf, hv]
  by_cases hover : s.blocksOf w x ≤ n
  · obtain ⟨r, hv⟩ := restoredNow_leaves hx x
    refine gives_of (hrun.trans (congrArg _ (if_pos hover))) ⟨⟨_, hv, rfl, (if_pos (by omega)).symm⟩, fun hlo hhi => ?_⟩
    have hcount : s.blocksOf w x = (s.blockCounts w x).1 + (s.blockCounts w x).2.1 + (s.blockCounts w x).2.2 := rfl
    omega
  · obtain ⟨v, hv, honly, hbytes⟩ := loadBlock_leaves (n := n) hx
    have hput : tabGet ((s.loadBlock w x n).putAt w (.restoring (n + 1))).wgs w = some { v with place := .restoring (n + 1) } := tabGet_modWg _ hv
    have hcore : v.core = x.core := by rw [honly]
    have hrun' := hrun.trans (congrArg _ (if_neg hover))
    by_cases hlast : s.blocksOf w x ≤ n + 1
    · obtain ⟨r, hv'⟩ := restoredNow_leaves hput x
      exact gives_of (hrun'.trans (congrArg _ (if_pos hlast)))
        ⟨⟨_, hv', hcore, (if_pos hlast).symm⟩, fun hlo hhi => (hread hv' ..).trans (hbytes hlo hhi)⟩
    · exact gives_of (hrun'.trans (congrArg _ (if_neg hlast)))
        ⟨⟨_, hput, hcore, (if_neg hlast).symm⟩, fun hlo hhi => (hread hput ..).trans (hbytes hlo hhi)⟩

/-- A save's block is written, and after the last one the workgroup is saved. -/
theorem saveBlock_leaves (hx : tabGet s.wgs w = some x) (hp : x.place = .saving n) (hlt : n < s.blocksOf w x) :
    Gives (.saveBlockTransfer w) s fun t =>
      (∃ v, tabGet t.wgs w = some v ∧ v.spad = x.spad ∧ v.place = if s.blocksOf w x ≤ n + 1 then .saved else .saving (n + 1)) ∧
      (n + 1 < s.blocksOf w x → t.mem = (s.recordWrite x (s.blockSpan w x n).1 (s.blockBytes w x n)).mem) := by
  have hrun := (saveBlock_saving hx hp).trans (congrArg _ (if_neg (by omega)))
  dsimp only at hrun
  have hput : tabGet ((s.recordWrite x (s.blockSpan w x n).1 (s.blockBytes w x n)).putAt w (.saving (n + 1))).wgs w =
      some { x with place := .saving (n + 1) } :=
    tabGet_modWg _ ((congrArg (tabGet · w) (State.areaWrite_stored ..).wgs).trans hx)
  by_cases hlast : s.blocksOf w x ≤ n + 1
  · exact gives_of (hrun.trans (congrArg _ (if_pos hlast)))
      ⟨⟨_, (savedNow_leaves hput x).1, rfl, (if_pos hlast).symm⟩, fun h => absurd hlast (by omega)⟩
  · exact gives_of (hrun.trans (congrArg _ (if_neg hlast))) ⟨⟨_, hput, rfl, (if_neg hlast).symm⟩, fun _ => rfl⟩

theorem movesBetweenLayers : MovesBetweenLayers := by
  intro s w y
  refine ⟨fun hnone => ⟨?_, ?_, ?_⟩, fun x hx => ?_⟩
  · rw [Idle, exec_migrationStart, execMigrationStart, hnone]
  · rw [Idle, exec_migrationArrival, execMigrationArrival, hnone]
  · rw [Idle, exec_saveBlockTransfer, execSaveBlockTransfer, hnone]
  obtain ⟨haborts, hwaits, hhalting, hresident⟩ := migrationStart_cases (y := y) hx
  refine ⟨haborts, hwaits, fun hab hplace => ?_, fun hres => ⟨?_, ?_⟩, fun n hp hcl => ⟨fun hlt => ⟨(migrationArrival_alone hx hp hcl).1 hlt, ?_⟩,
    fun hle => ?_⟩, fun n hp hno => ?_, fun n hp hreach => restoreBlock_leaves hx hp hreach, fun n hp hlt => saveBlock_leaves hx hp hlt,
    fun n hp hle => ?_⟩
  · have hgo (hfit : x.place = .halting y → s.entriesFit (s.moveSet w) = true) : exec (.migrationStart w y) s = .next (s.moveGo w y x) := by
      rcases hplace with hhalt | ⟨hres, hch, hroom⟩
      · exact (hhalting hab hhalt).trans (congrArg _ (if_pos (hfit hhalt)))
      · exact hresident hab hres hch hroom
    obtain ⟨hforbid, hmoves, hhalts⟩ := moveGo_wgs s w y x
    intro all
    refine ⟨fun hno => ?_, fun hfit hf hb => places_all (hgo hfit) (hmoves hf hb), fun hfit hf hb => places_all (hgo hfit) (hhalts hf hb)⟩
    by_cases hunfit : x.place = .halting y ∧ s.entriesFit (s.moveSet w) = false
    · exact places_all ((hhalting hab hunfit.1).trans (congrArg _ (if_neg (by simp [hunfit.2])))) rfl
    · exact places_all (hgo fun hhalt => by simpa [hhalt] using hunfit) (hforbid (hno.resolve_right hunfit))
  · rw [Idle, exec_migrationArrival, execMigrationArrival, hx]
    dsimp only
    rw [hres]
  · rw [Idle, exec_saveBlockTransfer, execSaveBlockTransfer, hx]
    dsimp only
    rw [hres]
  · exact gives_of (saveBlock_moving hx hp hlt) (tabGet_modWg _ hx)
  · refine gives_of ((migrationArrival_alone hx hp hcl).2 hle) ⟨{ x with place := .resident, core := coreOnLayer x.core y }, ?_, rfl, rfl, rfl⟩
    rw [(State.standOn_kept ..).1, tabGet_mod_same, tabGet_modWg _ hx]
    rfl
  · rw [Idle, saveBlock_restoring hx hp, hno]
    rfl
  · obtain ⟨hv, hctx⟩ := savedNow_leaves hx x
    exact gives_of ((saveBlock_saving hx hp).trans (congrArg _ (if_pos hle))) ⟨⟨_, hv, rfl, rfl⟩, hctx⟩

end Sys2Proof.Machine

end

section

/-! SUPPORT: the choice of a place, and what comes back from a save record or an image (R13, R14, R59, R326, R344) -/

namespace Sys2Proof.Machine

variable {s u v : State} {wid core tid : Nat}

/-! ### The preferred site -/

theorem leastSite_mem {key : Site → Nat} {l : List Site} {x : Site} (h : leastSite key l = some x) : x ∈ l := by
  refine (foldl_choice _ (fun b y z hz => ?_) _ _ h).resolve_right (by simp)
  cases b with
  | none => exact .inl (Option.some.inj hz).symm
  | some b =>
    dsimp only at hz
    split at hz
    · exact .inl (Option.some.inj hz).symm
    · exact .inr hz

theorem leastSite_isSome (key : Site → Nat) {l : List Site} (hne : l ≠ []) : (leastSite key l).isSome := by
  refine foldl_isSome (fun b y => ?_) hne none
  cases b with
  | none => rfl
  | some b => dsimp only; split <;> rfl

/-- The preferred site is one of the sites. -/
theorem bestOf_mem {l : List Site} {n : Nat} (h : bestOf l = some n) : ∃ x ∈ l, x.num = n := by
  unfold bestOf at h
  obtain ⟨x, hx, hn⟩ := Option.map_eq_some_iff.mp h
  obtain ⟨c, -, hc⟩ := List.mem_filterMap.mp (leastSite_mem hx)
  exact ⟨x, List.mem_of_mem_filter (leastSite_mem hc), hn⟩

/-- Where there is a site, one is preferred. -/
theorem bestOf_isSome {l : List Site} {x : Site} (hx : x ∈ l) : ∃ n, bestOf l = some n := by
  unfold bestOf
  have hin : x ∈ l.filter fun y => y.column == x.column := List.mem_filter.mpr ⟨hx, by simp⟩
  obtain ⟨y, hy⟩ := Option.isSome_iff_exists.mp (leastSite_isSome Site.temp (List.ne_nil_of_mem hin))
  have hcol : x.column ∈ (l.map Site.column).eraseDups := List.mem_eraseDups.mpr (List.mem_map_of_mem hx)
  have htop : y ∈ ((l.map Site.column).eraseDups).filterMap fun c => leastSite Site.temp (l.filter fun x => x.column == c) :=
    List.mem_filterMap.mpr ⟨x.column, hcol, hy⟩
  obtain ⟨z, hz⟩ := Option.isSome_iff_exists.mp (leastSite_isSome Site.load (List.ne_nil_of_mem htop))
  exact ⟨z.num, congrArg (Option.map Site.num) hz⟩

/-! ### A record's parts -/

theorem State.loadEntities_peopled (s : State) (a : Nat) (xs : List (Nat × Entity)) :
    s.Peopled (s.loadEntities a xs).1 ∧ (s.loadEntities a xs).1.teams = s.teams := by
  induction xs generalizing s a with
  | nil => exact ⟨.refl s, rfl⟩
  | cons x xs ih =>
    obtain ⟨hpeople, hteams⟩ := ih (s := s.modEnt x.1 _) (a := _)
    exact ⟨.trans ⟨rfl⟩ hpeople, hteams⟩

theorem Team.setS_part (t : Team) (n : Nat) (w : Word) : (t.setS n w).part = t.part := by
  unfold Team.setS
  split <;> rfl

theorem Team.setP_part (t : Team) (n : Nat) (m : BitVec 1024) : (t.setP n m).part = t.part := by
  unfold Team.setP
  split <;> rfl

/-- A team's registers come back, and its partition stays. -/
theorem State.loadRegs_part (s : State) (a : Nat) (t : Team) : (s.loadRegs a t).part = t.part := by
  unfold State.loadRegs
  extract_lets words t₁ a₁ t₂ a₂ t₃ a₃ t₄ a₄ tags
  have h₁ : t₁.part = t.part := by
    refine foldl_keeps Team.part (fun t n => ?_) _ t
    dsimp only
    split
    · rfl
    · exact t.setS_part ..
  have h₂ : t₂.part = t₁.part := by
    refine foldl_keeps Team.part (fun t n => ?_) _ t₁
    dsimp only
    split
    · rfl
    · exact t.setP_part ..
  have h₃ : t₃.part = t₂.part := by
    refine foldl_keeps Team.part (fun t n => ?_) _ t₂
    dsimp only
    split <;> rfl
  have h₄ : t₄.part = t₃.part := by
    refine foldl_keeps Team.part (fun t n => ?_) _ t₃
    dsimp only
    split <;> rfl
  refine Eq.trans ?_ (h₄.trans (h₃.trans (h₂.trans h₁)))
  refine foldl_keeps (fun x : Team × Nat => x.1.part) (fun x n => ?_) _ (t₄, a₄ + 16)
  generalize s.loadVreg _ _ _ = r
  obtain ⟨r, k⟩ := r
  dsimp only
  split <;> rfl

theorem State.loadImage_peopled (s : State) (tid a : Nat) : s.Peopled (s.loadImage tid a) := by
  unfold State.loadImage
  extract_lets lead
  generalize hload : s.loadEntities _ _ = p
  obtain ⟨s', regs⟩ := p
  have hpeople : s.Peopled s' := by
    have h := (s.loadEntities_peopled (if lead.isSome then a + 64 else a + 208) (lead.toList ++ s.imageFrags tid)).1
    rw [hload] at h
    exact h
  dsimp only
  split
  · exact .refl s
  · exact (hpeople.trans (.foldl (fun _ _ => ⟨rfl⟩) _ _)).trans ⟨rfl⟩

/-- A team that comes back from its image keeps its partition. -/
theorem State.loadImage_team {t : Team} (ht : tabGet s.teams tid = some t) (a : Nat) :
    ∃ t', tabGet (s.loadImage tid a).teams tid = some t' ∧ t'.part = t.part := by
  unfold State.loadImage
  extract_lets lead
  generalize hload : s.loadEntities _ _ = p
  obtain ⟨s', regs⟩ := p
  have hteams : s'.teams = s.teams := by
    have h := (s.loadEntities_peopled (if lead.isSome then a + 64 else a + 208) (lead.toList ++ s.imageFrags tid)).2
    rw [hload] at h
    exact h
  rw [ht]
  dsimp only
  generalize hlead : List.foldl _ s' lead.toList = s''
  have hteams' : tabGet s''.teams tid = some t := by
    rw [← hlead, ← ht, ← hteams]
    refine congrArg (tabGet · tid) (foldl_keeps State.teams (fun _ _ => ?_) _ _)
    rfl
  rw [State.modTeam_teams, tabGet_mod_same, hteams', Option.map_some]
  exact ⟨_, rfl, s.loadRegs_part ..⟩

theorem State.loadParked_kept (s : State) (base a id : Nat) (r : ReplayEntry) :
    (s.loadParked base a id r).wgs = s.wgs ∧ (s.loadParked base a id r).ctxs = s.ctxs := by
  unfold State.loadParked
  extract_lets at' st s₁ x s₂
  have h₁ : s₁.wgs = s.wgs ∧ s₁.ctxs = s.ctxs := by
    unfold s₁ State.loadOperands
    extract_lets old
    split <;> exact ⟨rfl, rfl⟩
  clear_value s₁
  exact h₁

theorem State.loadParkedAll_kept (s : State) (wid : Nat) (w : Workgroup) :
    (s.loadParkedAll wid w).wgs = s.wgs ∧ (s.loadParkedAll wid w).ctxs = s.ctxs :=
  ⟨foldl_keeps State.wgs (fun _ _ => (State.loadParked_kept ..).1) _ _, foldl_keeps State.ctxs (fun _ _ => (State.loadParked_kept ..).2) _ _⟩

/-- A saved workgroup stands on its core, its blocks still to be read back. -/
theorem State.restoreOne_leaves {w : Workgroup} (hw : tabGet s.wgs wid = some w) (core : Nat) :
    (∃ v, tabGet (s.restoreOne wid core).wgs wid = some v ∧ v.place = .restoring 0 ∧ v.core = core) ∧ (s.restoreOne wid core).ctxs = s.ctxs := by
  unfold State.restoreOne
  rw [hw]
  dsimp only
  generalize (s.teamsInOrder wid).map _ = places
  generalize hload : (s.loadHeader wid w).loadParkedAll wid w = s₁
  have h₁ : (∃ v, tabGet s₁.wgs wid = some v) ∧ s₁.ctxs = s.ctxs := by
    rw [← hload, (State.loadParkedAll_kept ..).1, (State.loadParkedAll_kept ..).2]
    exact ⟨⟨_, tabGet_modWg _ hw⟩, rfl⟩
  generalize hfold : List.foldl _ s₁ places = s₂
  have hpeople : s₁.Peopled s₂ := hfold ▸ .foldl (fun s _ => (s.loadImage_peopled ..).trans (State.restartSlots_peopled ..)) _ _
  obtain ⟨⟨v, hv⟩, hctxs⟩ := h₁
  have hv₂ : tabGet s₂.wgs wid = some v := hpeople.wgs ▸ hv
  refine ⟨⟨{ v with place := .restoring 0, core := core }, ?_, rfl, rfl⟩, ?_⟩
  · rw [(State.standOn_kept ..).1, tabGet_mod_same, tabGet_modWg _ hv₂]
    rfl
  · rw [(State.standOn_kept ..).2, State.modWg_ctxs, hpeople.ctxs, hctxs]

end Sys2Proof.Machine

end

section

/-! PROOF: placement of held units, of swapped teams and of saved workgroups, swapping out, and retirement (R13, R14, R56, R202, R317, R326) -/

namespace Sys2Proof.Machine

open Sys2Proof.Claims

variable {s u v : State} {c k wid core tid : Nat}

/-! ### A workgroup's half -/

/-- A new workgroup stands on its core under the next number. -/
theorem addWg_get (s : State) (gid : Nat) (r : Grid) (core : Nat) (wgid lo hi : Triple) (splits : Nat) (cluster : Option Nat) (slot : Nat) :
    ∃ w, tabGet (s.addWg gid r core wgid lo hi splits cluster slot).2.wgs s.nextId = some w ∧ w.core = core ∧ w.grid = gid ∧ w.lo = lo ∧ w.hi = hi ∧
      w.splits = splits ∧ w.place = .resident := by
  refine ⟨_, ((congrArg (tabGet · s.nextId) (State.addTeams_kept ..).2).trans
    (congrArg (tabGet · s.nextId) (State.l1Sync_stored ..).wgs)).trans (tabGet_put_same ..), rfl, rfl, rfl, rfl, rfl, rfl⟩

theorem placement_half {p : Piece} {g : Grid} (hact : (s.ctx c).state = .active) (hsaved : (s.ctx c).savedWgs = [])
    (hheld : (s.ctx c).held = some (.half p)) (hg : tabGet s.grids p.grid = some g) (hcore : s.chooseCore c g = some core) :
    exec (.placement c 0) s =
      .next ((s.addWg p.grid g core p.wgid p.lo p.hi p.splits none 0).2.modCtx c fun x => { x with held := none }) := by
  rw [exec_placement, execPlacement, if_neg (by simp [hact]), if_pos rfl, if_pos (by simp [hsaved]), State.placeHeld, hheld]
  dsimp only
  rw [hg]
  dsimp only
  rw [hcore]

/-! ### A saved workgroup -/

/-- A saved workgroup that its partition takes on its stack is placed on such a core. -/
theorem placeSaved_alone {w : Workgroup} {g : Grid} (hcl : w.cluster = none) (hg : tabGet s.grids w.grid = some g)
    (hroom : ∃ core < 1024, bitOf (s.partStacks (s.ctx c).part) (coreStack core) = true ∧ coreStack core = coreStack w.core ∧
      s.restoreFits k g.rcd core = true) :
    ∃ core, coreStack core = coreStack w.core ∧ s.restoreFits k g.rcd core = true ∧ s.placeSaved c k w =
      ((s.restoreOne k core).modCtx c fun x => { x with savedWgs := x.savedWgs.filter fun j => !([k] : List Nat).contains j }).countEvent c 8
        ((s.restoreOne k core).landings [k]) := by
  obtain ⟨core₀, hlt, hbit, hstack, hfits⟩ := hroom
  let ok : List Nat := (s.partitionCores c).filter fun j => ((s.partitionCores c).contains j && coreStack j == coreStack w.core) && s.restoreFits k g.rcd j
  have hpart : core₀ ∈ s.partitionCores c := List.mem_filter.mpr ⟨List.mem_range.mpr hlt, hbit⟩
  have hok : core₀ ∈ ok := List.mem_filter.mpr ⟨hpart, by simp [hpart, hstack, hfits]⟩
  obtain ⟨core, hbest⟩ := bestOf_isSome (List.mem_map_of_mem (f := s.coreSite) hok)
  obtain ⟨site, hsite, hnum⟩ := bestOf_mem hbest
  obtain ⟨j, hj, rfl⟩ := List.mem_map.mp hsite
  obtain rfl : j = core := hnum
  obtain ⟨-, hcond⟩ := List.mem_filter.mp hj
  simp only [Bool.and_eq_true, beq_iff_eq] at hcond
  obtain ⟨⟨-, hstack'⟩, hfits'⟩ := hcond
  refine ⟨j, hstack', hfits', ?_⟩
  rw [State.placeSaved, hg]
  dsimp only
  rw [hcl]
  dsimp only [Option.bind_none]
  rw [hbest]

theorem placement_saved {w : Workgroup} (hact : (s.ctx c).state = .active) (hk : k ≠ 0) (hw : tabGet s.wgs k = some w) (hctx : w.ctx = c)
    (hp : w.place = .saved) (hhead : (s.ctx c).savedWgs.head? = some k) (hreach : s.reaches (physOf (s.recordAddr w) 0) = true) :
    exec (.placement c k) s = .next (s.placeSaved c k w) := by
  rw [exec_placement, execPlacement, if_neg (by simp [hact]), if_neg hk, hw]
  exact congrArg _ (if_pos ⟨hctx, hp, hhead, hreach⟩)

theorem savedWgs_apart : Ctx.Apart Ctx.savedWgs := fun _ _ _ _ _ => rfl

/-! ### A team that was swapped out -/

theorem swapIn_leaves {t : Team} (ht : tabGet s.teams tid = some t) (hswapped : t.swapped = true)
    (hreach : s.reaches (physOf ((s.ctx (s.ctxOf t)).ctxSave.toNat + t.imageAt) 0) = true) (hover : s.qwaitOver tid t = true)
    (htakes : s.partTakes (s.coreOf t) t.part t.lanes t.grant 0 1 0 = true)
    (hqueue : (s.replay.filter fun r => r.2.part == 4 * s.coreOf t + t.part || r.2.team == tid).length ≤ 256)
    (hroom : s.entryRoom (s.coreOf t) t.part ((s.entsOf tid).filter fun e => e.2.isFrag).length = true) :
    ∃ v, tabGet (s.swapIn tid t).teams tid = some v ∧ v.swapped = false ∧ v.part = t.part ∧ v.slot = s.freeTeamSlot (s.coreOf t) t.part := by
  unfold State.swapIn
  extract_lets g c mine queue frags slot s₁ back s₂
  have hgo : (t.swapped && s.reaches (physOf ((s.ctx c).ctxSave.toNat + t.imageAt) 0) && s.qwaitOver tid t && s.partTakes g t.part t.lanes t.grant 0 1 0 &&
      decide (queue ≤ 256) && s.entryRoom g t.part frags) = true := by
    rw [hswapped, hreach, hover, htakes, decide_eq_true (by exact hqueue), hroom]
    rfl
  rw [if_pos hgo, State.restartSlots_teams, State.seatStops_teams, State.reenter_teams]
  obtain ⟨t', ht', hpart⟩ := State.loadImage_team ht ((s.ctx c).ctxSave.toNat + t.imageAt)
  refine ⟨{ t' with swapped := false, slot := slot }, ?_, rfl, hpart, rfl⟩
  change tabGet s₁.teams tid = _
  rw [State.modTeam_teams, tabGet_mod_same, ht']
  rfl

/-! ### Swapping out -/

theorem writeParts_next {base : Nat} {parts : List (Nat × List Byte)} (h : ∀ p ∈ parts, base + p.1 + p.2.length ≤ 2 ^ 48) (s : State) :
    s.writeParts base parts = .next (parts.foldl (fun s p => s.physPut (base + p.1) p.2) s) := by
  induction parts generalizing s with
  | nil => rfl
  | cons p ps ih =>
    rw [State.writeParts, State.physStore, if_neg (by have := h p (by simp); omega)]
    exact ih (fun q hq => h q (by simp [hq])) _

theorem State.physPut_stored (s : State) (a : Nat) (bs : List Byte) : s.Stored (s.physPut a bs) :=
  (s.l1Evict_stored ..).trans (State.storeBytes_stored ..)

/-- An entity's read latch is empty. -/
def Entity.latchless (e : Entity) : Entity := { e with snap := none }

/-- The entities of a list have their read latches emptied. -/
def State.emptyLatches (s : State) (es : List (Nat × Entity)) : State := es.foldl (fun s e => s.modEnt e.1 Entity.latchless) s

theorem emptyLatches_peopled (s : State) (es : List (Nat × Entity)) : s.Peopled (s.emptyLatches es) := .foldl (fun _ _ => ⟨rfl⟩) _ s

theorem emptyLatches_teams (s : State) (es : List (Nat × Entity)) : (s.emptyLatches es).teams = s.teams := by
  refine foldl_keeps State.teams (fun _ _ => ?_) _ s
  rfl

theorem tabSorted_mod {α : Type} {T : Tab α} (i : Nat) (f : α → α) (hs : tabSorted 0 T = true) : tabSorted 0 (tabMod T i f) = true := by
  unfold tabMod
  split
  · exact tabSorted_put _ _ _ _ (Nat.zero_le i) hs
  · exact hs

/-- In a table in order, an entity of the list holds an empty latch, and any other is as it was. -/
theorem emptyLatches_mem (es : List (Nat × Entity)) {s : State} (hs : tabSorted 0 s.ents = true) {p : Nat × Entity}
    (hp : p ∈ (s.emptyLatches es).ents) : p.2.snap = none ∨ p ∈ s.ents ∧ ∀ q ∈ es, q.1 ≠ p.1 := by
  induction es generalizing s with
  | nil => exact .inr ⟨hp, by simp⟩
  | cons q es ih =>
    have hs' : tabSorted 0 (s.modEnt q.1 Entity.latchless).ents = true := tabSorted_mod _ _ hs
    rcases ih hs' hp with h | ⟨hin, hnot⟩
    · exact .inl h
    · have hget := (tabGet_of_mem hs' hin).2
      rw [State.modEnt_ents] at hget
      by_cases hq : p.1 = q.1
      · rw [hq, tabGet_mod_same] at hget
        obtain ⟨e, -, he⟩ := Option.map_eq_some_iff.mp hget
        exact .inl (he ▸ rfl)
      · rw [tabGet_mod_other _ _ hq] at hget
        exact .inr ⟨mem_of_tabGet hget, fun r hr => (List.mem_cons.mp hr).elim (fun h => h ▸ Ne.symm hq) (hnot r)⟩

end Sys2Proof.Machine

end

section

/-! PROOF: a team gives up its slot, a workgroup retires, and the grid unit's events as a whole (R13, R14, R56, R202, R342) -/

namespace Sys2Proof.Machine

open Sys2Proof.Claims

variable {s u v : State} {c k : Nat} {t : Team}

/-- The parked accesses of a team that is swapped out, and where its image and its operands lie after them. -/
def State.parkedByTeam (s : State) (k : Nat) : List (Nat × ReplayEntry) := s.replay.filter fun r => r.2.team == k
def operandsAt (ps : List (Nat × ReplayEntry)) : Nat := alignUp (64 * ps.length) 4096
def imageOffset (ps : List (Nat × ReplayEntry)) : Nat := alignUp (operandsAt ps + (ps.map fun r => operandBytes r.2).sum) 4096

/-- A team as it is swapped out: only its LIVE registers are kept. -/
def Team.outAt (t : Team) (at' : Nat) : Team := { t with swapped := true, imageAt := at', v := t.v.filter fun r => decide (r.1 < t.live) }

/-- The state whose image is written: the team is out, and every entity's read latch is empty. -/
def State.outState (s : State) (k : Nat) (x : Team) : State := (s.modTeam k fun _ => x).emptyLatches (s.entsOf k)

def State.outParts (m : State) (c k : Nat) (x : Team) (ps : List (Nat × ReplayEntry)) : List (Nat × List Byte) :=
  [(0, m.parkedSection c (operandsAt ps) ps), (operandsAt ps, ps.flatMap fun r => m.operandSection r.2), (imageOffset ps, m.teamImage k x)]

/-- A team's entries stand in no queue of a partition. -/
def ReplayEntry.outOf (k : Nat) (r : Nat × ReplayEntry) : Nat × ReplayEntry := if r.2.team = k then (r.1, { r.2 with part := 4096 }) else r

/-- The state in which the image, the parked accesses and their operands are written. -/
def State.outSaved (m : State) (c base k : Nat) (ps : List (Nat × ReplayEntry)) (x : Team) : State :=
  { m.modCtx c fun y => { y with saveTop := base + alignUp (imageOffset ps + (m.teamImage k x).length) 4096 } with
    replay := m.replay.map (ReplayEntry.outOf k) }

def State.outWrites (m : State) (c base k : Nat) (ps : List (Nat × ReplayEntry)) (x : Team) : Host.Outcome State Fault Refusal :=
  (m.outSaved c base k ps x).writeParts (((m.outSaved c base k ps x).ctx c).ctxSave.toNat + base) (m.outParts c k x ps)

/-- A team that waits in `qwait`, and whose accesses are quiet, gives up its slot. -/
theorem teamSwapOut_goes {w : Workgroup} (ht : tabGet s.teams k = some t) (hsw : t.swapped = false) (hw : tabGet s.wgs t.wg = some w)
    (hres : w.place = .resident) (hne : ∃ x ∈ s.ents, x.2.team = k) (hall : ∀ x ∈ s.ents, x.2.team = k → x.2.hold = some .qwait)
    (hover : s.qwaitOver k t = false) (hquiet : s.teamQuiet k = true) :
    let ps := s.parkedByTeam k
    let x := t.outAt (s.saveBase (s.ctxOf t) + imageOffset ps)
    exec (.teamSwapOut k) s = (s.outState k x).outWrites (s.ctxOf t) (s.saveBase (s.ctxOf t)) k ps x := by
  intro ps x
  have hes : (s.entsOf k).isEmpty = false := by
    obtain ⟨y, hy, hteam⟩ := hne
    exact List.isEmpty_eq_false_iff.mpr (List.ne_nil_of_mem (List.mem_filter.mpr ⟨hy, by simpa using hteam⟩))
  have hhold : (s.entsOf k).all (fun e => e.2.hold == some .qwait) = true := by
    refine List.all_eq_true.mpr fun y hy => ?_
    obtain ⟨hin, hteam⟩ := List.mem_filter.mp hy
    simp [hall y hin (by simpa using hteam)]
  have hmod : s.modTeam k (fun y => y.outAt (s.saveBase (s.ctxOf t) + imageOffset ps)) = s.modTeam k fun _ => x := by
    unfold State.modTeam tabMod
    rw [ht]
  have hm : tabGet ((s.modTeam k fun _ => x).emptyLatches (s.entsOf k)).teams k = some x := by
    rw [emptyLatches_teams, State.modTeam_teams, tabGet_mod_same, ht]
    rfl
  have hrun : exec (.teamSwapOut k) s =
      (match tabGet ((s.modTeam k fun y => y.outAt (s.saveBase (s.ctxOf t) + imageOffset ps)).emptyLatches (s.entsOf k)).teams k with
      | none => .next ((s.modTeam k fun y => y.outAt (s.saveBase (s.ctxOf t) + imageOffset ps)).emptyLatches (s.entsOf k))
      | some x => ((s.modTeam k fun y => y.outAt (s.saveBase (s.ctxOf t) + imageOffset ps)).emptyLatches (s.entsOf k)).outWrites
          (s.ctxOf t) (s.saveBase (s.ctxOf t)) k ps x) := by
    rw [exec_teamSwapOut, execTeamSwapOut, ht]
    dsimp only
    refine (if_neg ?_).trans rfl
    rw [hsw, hes, hhold, hover, hquiet, State.wgOf, hw]
    simp [hres]
  rw [hrun, hmod, hm]
  rfl

theorem outSaved_ctxSave (m : State) (c base k : Nat) (ps : List (Nat × ReplayEntry)) (x : Team) :
    ((m.outSaved c base k ps x).ctx c).ctxSave = (m.ctx c).ctxSave := by
  have hctx := m.ctx_modCtx c (fun y => { y with saveTop := base + alignUp (imageOffset ps + (m.teamImage k x).length) 4096 }) c
  rw [if_pos rfl] at hctx
  have hsave := congrArg Ctx.ctxSave hctx
  exact hsave

/-- The parts of a team's image are written where they lie. -/
theorem outWrites_next {m : State} {c base k a : Nat} {ps : List (Nat × ReplayEntry)} {x : Team} (ha : (m.ctx c).ctxSave.toNat + base = a)
    (hsize : ∀ p ∈ m.outParts c k x ps, a + p.1 + p.2.length ≤ 2 ^ 48) :
    m.outWrites c base k ps x = .next ((m.outParts c k x ps).foldl (fun s p => s.physPut (a + p.1) p.2) (m.outSaved c base k ps x)) := by
  rw [State.outWrites, outSaved_ctxSave, ha, writeParts_next hsize]

/-- What the writes of a team's image leave. -/
theorem outWrites_leaves (m : State) (c base k a : Nat) (ps : List (Nat × ReplayEntry)) (x : Team) (parts : List (Nat × List Byte)) :
    let u := parts.foldl (fun s p => s.physPut (a + p.1) p.2) (m.outSaved c base k ps x)
    u.teams = m.teams ∧ u.ents = m.ents ∧ ∀ r ∈ u.replay, r.2.team = k → r.2.part = 4096 := by
  have hstored : (m.outSaved c base k ps x).Stored (parts.foldl (fun s p => s.physPut (a + p.1) p.2) (m.outSaved c base k ps x)) :=
    .foldl (fun s _ => s.physPut_stored ..) _ _
  refine ⟨hstored.teams, hstored.ents, fun r hr hteam => ?_⟩
  rw [hstored.replay] at hr
  obtain ⟨q, -, rfl⟩ := List.mem_map.mp hr
  unfold ReplayEntry.outOf at hteam ⊢
  split
  · rfl
  next hno => rw [if_neg hno] at hteam; exact absurd hteam hno

theorem outState_kept (s : State) (k : Nat) (x : Team) : (s.outState k x).mem = s.mem ∧ (s.outState k x).l1 = s.l1 ∧
    (s.outState k x).lineKey = s.lineKey ∧ (s.outState k x).ports = s.ports ∧ (s.outState k x).outbox = s.outbox ∧ (s.outState k x).ctxs = s.ctxs := by
  unfold State.outState
  rw [(emptyLatches_peopled _ _).rest]
  exact ⟨rfl, rfl, rfl, rfl, rfl, rfl⟩

theorem outState_team (ht : tabGet s.teams k = some t) (x : Team) : tabGet (s.outState k x).teams k = some x := by
  rw [State.outState, emptyLatches_teams, State.modTeam_teams, tabGet_mod_same, ht]
  rfl

theorem outState_latches (x : Team) (hsorted : tabSorted 0 s.ents = true) {e : Nat × Entity} (he : e ∈ (s.outState k x).ents) (hteam : e.2.team = k) :
    e.2.snap = none := by
  refine (emptyLatches_mem (s.entsOf k) (s := s.modTeam k fun _ => x) hsorted he).resolve_right ?_
  rintro ⟨hin, hnot⟩
  exact hnot e (List.mem_filter.mpr ⟨hin, by simpa using hteam⟩) rfl

/-- A state whose memory is as it was before the writes of an image. -/
def State.SameMemory (s y : State) : Prop :=
  y.mem = s.mem ∧ y.l1 = s.l1 ∧ y.lineKey = s.lineKey ∧ y.ports = s.ports ∧ y.outbox = s.outbox

theorem outSaved_memory (m : State) (c base k : Nat) (ps : List (Nat × ReplayEntry)) (x : Team) : m.SameMemory (m.outSaved c base k ps x) :=
  ⟨rfl, rfl, rfl, rfl, rfl⟩

/-- What a swapping out leaves, where its parts lie in memory. -/
theorem swapOut_of {m : State} {a base : Nat} {ps : List (Nat × ReplayEntry)} {x : Team}
    (hrun : exec (.teamSwapOut k) s = m.outWrites c base k ps x) (hteam : tabGet m.teams k = some x)
    (hlatch : tabSorted 0 s.ents = true → ∀ e ∈ m.ents, e.2.team = k → e.2.snap = none) (hmem : s.SameMemory m)
    (ha : (m.ctx c).ctxSave.toNat + base = a) (hsize : ∀ p ∈ m.outParts c k x ps, a + p.1 + p.2.length ≤ 2 ^ 48) :
    Gives (.teamSwapOut k) s fun u => tabGet u.teams k = some x ∧
      (∀ r ∈ u.replay, r.2.team = k → r.2.part = 4096) ∧ (∀ e ∈ u.ents, tabSorted 0 s.ents = true → e.2.team = k → e.2.snap = none) ∧
      ∃ y : State, y.mem = s.mem ∧ y.l1 = s.l1 ∧ y.lineKey = s.lineKey ∧ y.ports = s.ports ∧ y.outbox = s.outbox ∧
        u.mem = ((m.outParts c k x ps).foldl (fun s p => s.physPut (a + p.1) p.2) y).mem := by
  obtain ⟨hteams, hents, hreplay⟩ := outWrites_leaves m c base k a ps x (m.outParts c k x ps)
  obtain ⟨h1, h2, h3, h4, h5⟩ := hmem
  obtain ⟨g1, g2, g3, g4, g5⟩ := outSaved_memory m c base k ps x
  refine gives_of (hrun.trans (outWrites_next ha hsize)) ⟨by rw [hteams]; exact hteam, hreplay, fun e he hs h => hlatch hs e (hents ▸ he) h,
    m.outSaved c base k ps x, g1.trans h1, g2.trans h2, g3.trans h3, g4.trans h4, g5.trans h5, rfl⟩

theorem teamSwapOut_leaves {w : Workgroup} (ht : tabGet s.teams k = some t) (hsw : t.swapped = false) (hw : tabGet s.wgs t.wg = some w)
    (hres : w.place = .resident) (hne : ∃ x ∈ s.ents, x.2.team = k) (hall : ∀ x ∈ s.ents, x.2.team = k → x.2.hold = some .qwait)
    (hover : s.qwaitOver k t = false) (hquiet : s.teamQuiet k = true) :
    let ps := s.parkedByTeam k
    let x := t.outAt (s.saveBase (s.ctxOf t) + imageOffset ps)
    let parts := (s.outState k x).outParts (s.ctxOf t) k x ps
    let a := (s.ctx (s.ctxOf t)).ctxSave.toNat + s.saveBase (s.ctxOf t)
    (∀ p ∈ parts, a + p.1 + p.2.length ≤ 2 ^ 48) →
    Gives (.teamSwapOut k) s fun u => tabGet u.teams k = some x ∧
      (∀ r ∈ u.replay, r.2.team = k → r.2.part = 4096) ∧ (∀ e ∈ u.ents, tabSorted 0 s.ents = true → e.2.team = k → e.2.snap = none) ∧
      ∃ y : State, y.mem = s.mem ∧ y.l1 = s.l1 ∧ y.lineKey = s.lineKey ∧ y.ports = s.ports ∧ y.outbox = s.outbox ∧
        u.mem = (parts.foldl (fun s p => s.physPut (a + p.1) p.2) y).mem := by
  intro ps x parts a hsize
  obtain ⟨hmem, hl1, hkey, hports, hout, hctxs⟩ := outState_kept s k x
  exact swapOut_of (teamSwapOut_goes ht hsw hw hres hne hall hover hquiet) (outState_team ht x) (fun hs e he h => outState_latches x hs he h)
    ⟨hmem, hl1, hkey, hports, hout⟩ (by rw [State.ctx_of_ctxs hctxs]) hsize

/-! ### Retirement -/

theorem State.reportQueue_stored (s : State) (stack c q : Nat) : s.Stored (s.reportQueue stack c q) := by
  unfold State.reportQueue
  extract_lets old mark
  have hmark (s : State) (b : Bool) : s.Stored (mark s b) := .ite (.refl s) ⟨rfl⟩
  have hirq (s : State) (f : FaultInfo) : s.Stored (s.errorIrq c f) := by
    unfold State.errorIrq
    exact .ite ⟨rfl⟩ (.refl s)
  have hfault (s : State) (x a b : Nat) : s.Stored (s.fqDevice stack c x a b) := (hirq ..).trans (State.fqWrite_stored ..)
  refine .ite (.refl s) ?_
  split
  · exact (hmark s false).trans (State.touchRange_stored ..)
  · exact .ite (.refl s) ((hfault ..).trans (hmark _ true))
  · exact .ite (.refl s) ((hfault ..).trans (hmark _ true))

theorem State.retireGrid_kept (s : State) (gid : Nat) : (s.retireGrid gid).wgs = s.wgs ∧ (s.retireGrid gid).teams = s.teams := by
  unfold State.retireGrid
  split
  · exact ⟨rfl, rfl⟩
  · extract_lets x halves held stack h s₁
    split
    · exact ⟨rfl, rfl⟩
    · have hstored : s.Stored s₁ := by
        unfold s₁
        split
        · exact s.devicePut_stored ..
        · exact s.reportQueue_stored ..
      clear_value s₁
      split <;> exact ⟨hstored.wgs, hstored.teams⟩

/-- What is left once the last team of a workgroup has ended, and its allocations are freed. -/
def State.wgFreed (s : State) (k : Nat) (w : Workgroup) : State :=
  let u := (s.foldKids w).l1Sync (coreColumn w.core)
  { u with teams := u.teams.filter fun t => t.2.wg != k, copies := u.copies.filter fun c => c.2.wg != k, wgs := tabDel u.wgs k }

theorem foldKids_wgs (s : State) (w : Workgroup) : (s.foldKids w).wgs = s.wgs := rfl

theorem wgFreed_leaves (w : Workgroup) (hsorted : tabSorted 0 s.wgs = true) :
    tabGet (s.wgFreed k w).wgs k = none ∧ ∀ x ∈ (s.wgFreed k w).teams, x.2.wg ≠ k := by
  refine ⟨?_, fun x hx => ?_⟩
  · refine tabGet_del_same _ _ ?_
    rw [(State.l1Sync_stored ..).wgs, foldKids_wgs]
    exact hsorted
  · simpa using (List.mem_filter.mp hx).2

/-- The engine of a cluster launch goes with its last workgroup. -/
def State.clusterFreed (s : State) (k : Nat) (w : Workgroup) : State :=
  match w.cluster with
  | some cid => match tabGet s.clusters cid with
    | some cl =>
      if (cl.wgs.filter fun j => j != k && (tabGet s.wgs j).isSome).isEmpty then
        State.modEngine { s with clusters := tabDel s.clusters cid } cl.cluster fun e =>
          { Engine.reset with on := e.on, gate := e.gate, entries := e.entries }
      else s
    | none => s
  | none => s

theorem clusterFreed_kept (s : State) (k : Nat) (w : Workgroup) : (s.clusterFreed k w).wgs = s.wgs ∧ (s.clusterFreed k w).teams = s.teams := by
  unfold State.clusterFreed
  split
  · split
    · split <;> exact ⟨rfl, rfl⟩
    · exact ⟨rfl, rfl⟩
  · exact ⟨rfl, rfl⟩

theorem workgroupRetire_leaves {w : Workgroup} (hw : tabGet s.wgs k = some w) (hover : s.wgOver k w = true) (hsorted : tabSorted 0 s.wgs = true) :
    Gives (.workgroupRetire k) s fun t => tabGet t.wgs k = none ∧ ∀ x ∈ t.teams, x.2.wg ≠ k := by
  have hrun : exec (.workgroupRetire k) s = .next (((s.wgFreed k w).clusterFreed k w).retireGrid w.grid) := by
    rw [exec_workgroupRetire, execWorkgroupRetire, hw]
    exact congrArg _ (if_neg (by simp [hover]))
  refine gives_of hrun ?_
  rw [(State.retireGrid_kept ..).1, (State.retireGrid_kept ..).2, (clusterFreed_kept ..).1, (clusterFreed_kept ..).2]
  exact wgFreed_leaves w hsorted

theorem placementAndRetirement : PlacementAndRetirement := by
  intro s
  refine ⟨fun c k hact => ?_, fun c hheld => ?_, fun c p g core hact hsaved hheld hg hcore => ?_, fun c k w g hact hk hw hctx hp hcl hhead hreach hg hroom => ?_,
    fun c k t hact hk hw ht hctx hsw hreach hover htakes hqueue hroom => ?_, fun k t ht hno => ?_,
    fun k t w ht hsw hw hres hne hall hover hquiet => teamSwapOut_leaves ht hsw hw hres hne hall hover hquiet,
    fun k w hw hno => ?_, fun k w hw hover hsorted => workgroupRetire_leaves hw hover hsorted⟩
  · rw [Idle, exec_placement, execPlacement, if_pos (by simp [hact])]
  · have hplace : s.placeHeld c = s := by rw [State.placeHeld, hheld]
    rw [Idle, exec_placement, execPlacement, if_pos rfl, hplace, ite_self, ite_self]
  · obtain ⟨w, hw, hrest⟩ := addWg_get s p.grid g core p.wgid p.lo p.hi p.splits none 0
    refine gives_of (placement_half hact hsaved hheld hg hcore) ⟨?_, w, hw, hrest⟩
    rw [State.ctx_modCtx, if_pos rfl]
  · obtain ⟨core, hstack, hfits, hplace⟩ := placeSaved_alone (c := c) hcl hg hroom
    obtain ⟨⟨v, hv, hvp, hvc⟩, hctxs⟩ := s.restoreOne_leaves hw core
    refine gives_of ((placement_saved hact hk hw hctx hp hhead hreach).trans (congrArg _ hplace)) ⟨⟨v, ?_, hvp, hvc ▸ hstack, hvc ▸ hfits⟩, ?_⟩
    · rw [(State.countEvent_counted ..).stored.wgs]
      exact hv
    · rw [(State.countEvent_keeps savedWgs_apart ..).ctx c, State.ctx_modCtx, if_pos rfl, State.ctx_of_ctxs hctxs]
      refine List.filter_congr fun j _ => ?_
      simp [bne, beq_eq_decide]
  · subst hctx
    refine gives_of ?_ (swapIn_leaves ht hsw hreach hover htakes hqueue hroom)
    rw [exec_placement, execPlacement, if_neg (by simp [hact]), if_neg hk, hw, ht]
    exact congrArg _ (if_pos rfl)
  · rw [Idle, exec_teamSwapOut, execTeamSwapOut, ht]
    refine if_pos ?_
    rcases hno with h | h
    · rw [h]; rfl
    · rw [h, Bool.not_false, Bool.or_true]
  · rw [Idle, exec_workgroupRetire, execWorkgroupRetire, hw]
    exact congrArg _ (if_pos (by simp [hno]))

/-- Settles O53: records and draws, placement and retirement, samples, islands and moves, each by its own claim. -/
theorem gridAndPowerEvents : Obligations.GridAndPowerEvents :=
  ⟨recordsAndDraws, placementAndRetirement, samplesAndEmergency, islandsChange, movesBetweenLayers⟩

end Sys2Proof.Machine

end

section

/-! PROOF: scalar registers and pairs (R40) -/

namespace Sys2Proof.Machine

/-- A pair's write is the write of its odd scalar after that of its even one, whichever way they are read. -/
theorem sreg_setX (t : Team) {k : Nat} (x : Word64) (hk : k ≠ 0) (n : Nat) :
    (t.setX k x).sreg n =
      if n = 2 * k + 1 then x.extractLsb' 32 32 else if n = 2 * k then x.extractLsb' 0 32 else t.sreg n := by
  have hodd : 2 * k + 1 ≠ 0 := by omega
  have heven : 2 * k ≠ 0 := by omega
  have hlow : x.setWidth 32 = x.extractLsb' 0 32 := by ext i hi; simp
  have hhigh : (x >>> 32).setWidth 32 = x.extractLsb' 32 32 := by ext i hi; simp
  simp only [Team.setX, if_neg hk, sreg_setS, hlow, hhigh, ne_eq, hodd, heven, not_false_eq_true, and_true]

/-- Settles O4: each read after a write of a scalar or of a pair. -/
theorem scalarRegistersBehave : Obligations.ScalarRegistersBehave := by
  intro t k w x
  refine ⟨sreg_zero t, setS_zero t w, xreg_zero t, setX_zero t x, fun hk => if_neg hk, fun hk => ?_, fun hk => ?_⟩
  · exact ⟨sreg_setS_same t w hk, fun n hn => sreg_setS_other t w hn⟩
  · refine ⟨?_, ?_, fun n heven hodd => ?_⟩
    · rw [sreg_setX t x hk, if_neg (by omega), if_pos rfl]
    · rw [sreg_setX t x hk, if_pos rfl]
    · rw [sreg_setX t x hk, if_neg hodd, if_neg heven]

end Sys2Proof.Machine

end

section

/-! PROOF: the tag of a vector result, and results kept as base and stride (R41, R42, R45) -/

namespace Sys2Proof.Machine

open Sys2Proof.Claims

/-- Operands that all count as U give U under each rule that looks at them. -/
theorem resultTag_allU {rule : TagRule} {tags : List Tag} (h : tags.all Tag.isU = true) (hg : rule ≠ .alwaysG)
    (hk : rule ≠ .keep) : resultTag true rule tags = .u := by
  cases rule <;> simp_all [resultTag]

/-- One operand of tag G gives G under every rule but that of `keep`. -/
theorem resultTag_of_g {rule : TagRule} {tags : List Tag} (h : Tag.g ∈ tags) (hk : rule ≠ .keep) :
    resultTag true rule tags = .g := by
  have hU : tags.all Tag.isU = false := List.all_eq_false.mpr ⟨.g, h, by simp [Tag.isU]⟩
  have hUA : (tags.all fun t => t.isU || t == .a) = false := List.all_eq_false.mpr ⟨.g, h, by decide⟩
  unfold resultTag
  rw [hU, hUA]
  cases rule <;> simp at hk ⊢

theorem resultTags : ResultTags := by
  intro rule tags
  refine ⟨rfl, rfl, fun _ => rfl, fun hU hrule => ?_, ⟨rfl, rfl⟩, by decide, rfl, rfl, resultTag_of_g⟩
  refine resultTag_allU (List.all_eq_true.mpr fun t ht => ?_) ?_ ?_
  · rcases hU t ht with rfl | rfl <;> rfl
  · rintro rfl; simp at hrule
  · rintro rfl; simp at hrule

/-- Words that rise by a fixed stride are read back exactly from base and stride. -/
theorem tagged_affine_lane {f : Nat → Word} {b st : Word} (hf : ∀ l, f l = b + BitVec.ofNat 32 l * st) {n : Nat}
    (hn : 2 ≤ n) (l : Nat) : (tagged .a ((List.range n).map f)).lane 0 l = f l := by
  have h0 : ((List.range n).map f).getD 0 0 = b := by
    simp [List.getD, show 0 < n by omega, hf]
  have h1 : ((List.range n).map f).getD 1 0 = b + st := by
    simp [List.getD, show 1 < n by omega, hf]
  simp only [tagged, VReg.lane, h0, h1, hf]
  ring

theorem affineResultsAreExact : AffineResultsAreExact := by
  intro b1 s1 b2 s2 u n l hn _
  refine ⟨tagged_affine_lane (b := b1 + b2) (st := s1 + s2) (fun l => ?_) hn l,
    tagged_affine_lane (b := b1 - b2) (st := s1 - s2) (fun l => ?_) hn l,
    tagged_affine_lane (b := b1 + u) (st := s1) (fun l => ?_) hn l,
    tagged_affine_lane (b := b1 * u) (st := s1 * u) (fun l => ?_) hn l,
    tagged_affine_lane (b := -b1) (st := -s1) (fun l => ?_) hn l⟩ <;> ring

/-- Settles O9: the rules of the table, and the linear functions of the lane. -/
theorem tagsAndAffineResults : Obligations.TagsAndAffineResults := ⟨resultTags, affineResultsAreExact⟩

end Sys2Proof.Machine

end

section

/-! PROOF: what a performed load reads, of which the write-back of the L1 fails without the order of the table of L1s (R89, R99, R115) -/

namespace Sys2Proof.Machine

open Sys2Proof.Claims

/-- A sector whose first byte is held dirty. -/
def dirtyFirst (b : Byte) : Sector := { bytes := List.replicate 16 b, dirty := 1 }

/-- A state whose table of L1s lists column 0 twice, each time with a dirty byte of address 0: a look-up finds the first, and once that is
written back and dropped the second stands in its place. -/
def twiceListed : State := { State.reset with l1 := [(0, [(0, dirtyFirst 1)]), (0, [(0, dirtyFirst 2)])] }

/-- A load of two bytes of global memory by one lane, at address 0 of a DEVICE page, and its team. -/
def deviceLane : LaneAcc := { lane := 0, ptr := 0, phys := some 0, mtype := 2, data := [], fill := none, done := false }
def deviceLoad16 : MemOp :=
  { ent := 5, team := 4, kind := .load, space := .global, size := 2, signed := false, uniform := false, dest := .none, alu := none, acq := false
    rel := false, l2 := false, cnt := .ld, pc := 0, word := 1, mask := 1, lanes := [deviceLane], failed := false }
def deviceTeam : Team := startTeam 0 0 0 0 placedRecord

/-- The read of the second byte writes back the second listing, so memory ends with its byte and not with that of one write-back. -/
theorem twiceListed_reads :
    (twiceListed.readLane deviceLoad16 deviceTeam deviceLane).2.byteAt 0 = 2 ∧
    (twiceListed.l1Evict [twiceListed.columnOf deviceTeam] fun a => a / 16 == physAddr 0 / 16).byteAt 0 = 1 := by decide

/-- Refutes O39: the clause on a read past the L1 says nothing of the order of the table of L1s, and where a column is listed twice the second
byte's read writes back what the first one's left listed. -/
theorem not_loadLaneWritesRegister : ¬ Obligations.LoadLaneWritesRegister := by
  rintro ⟨hreads, -⟩
  obtain ⟨-, -, -, -, -, -, hpast, -⟩ := hreads twiceListed deviceLoad16 deviceTeam deviceLane (by decide)
  obtain ⟨hmem, -⟩ := hpast rfl (.inl (by decide)) (by decide) (by decide)
  obtain ⟨hread, hevict⟩ := twiceListed_reads
  have hbyte := congrArg (Memory.read · 0) hmem
  exact absurd (hread.symm.trans (hbyte.trans hevict)) (by decide)

end Sys2Proof.Machine

end

section

/-! SUPPORT: what an atomic leaves at its location, operation by operation (R218, R219, R220) -/

namespace Sys2Proof.Machine

/-- The only absent value of a format is its absent code (R62). -/
theorem numOf_isAbsent (f : FFmt) (c : Nat) : (numOf f c).isAbsent = decide (c = f.absent) := by
  unfold numOf
  by_cases h : c = f.absent
  · simp [h, Num.isAbsent]
  · rw [if_neg h, decide_eq_false h]
    dsimp only
    split_ifs <;> rfl

/-- Two operands of which the first is absent sum to the second (R160). -/
theorem float2_absent_left (f : FFmt) (rm : Rm) (sat : Bool) {op : FOp2} (hop : op ∈ [FOp2.add, .min, .max]) {a b : Nat}
    (ha : (numOf f a).isAbsent = true) (hb : (numOf f b).isAbsent = false) : float2 f rm sat op a b = passNum f b := by
  simp only [List.mem_cons, List.not_mem_nil, or_false] at hop
  rcases hop with rfl | rfl | rfl <;> simp [float2, ha, hb]

/-- The operand of an atomic whose bytes begin with a number's. -/
theorem atomOperand {w x : Nat} (hx : x < 256 ^ w) (rest : List Byte) :
    leNat ((leBytes w x ++ rest).take w) = x ∧ leNat ((leBytes w x ++ rest).drop w) = leNat rest := by
  constructor
  · rw [List.take_left' (leBytes_length w x), leNat_leBytes, Nat.mod_eq_of_lt hx]
  · rw [List.drop_left' (leBytes_length w x)]

theorem atomOperand_whole {w x : Nat} (hx : x < 256 ^ w) : leNat ((leBytes w x).take w) = x := by
  simpa using (atomOperand hx []).1

theorem leNat_leBytes_of_lt {w x : Nat} (hx : x < 256 ^ w) : leNat (leBytes w x) = x := by
  rw [leNat_leBytes, Nat.mod_eq_of_lt hx]

/-- The signed value of a code is that of its word. -/
theorem intVal_eq_toInt {m : Nat} (hm : m < 2 ^ 32) : intVal 32 m = (BitVec.ofNat 32 m).toInt := by
  rw [BitVec.toInt_eq_toNat_cond, BitVec.toNat_ofNat, Nat.mod_eq_of_lt hm, intVal]
  split <;> split <;> omega

/-- The integer operations on 32 bits. -/
theorem atomicNew_word {m x : Nat} (hm : m < 2 ^ 32) (hx : x < 2 ^ 32) :
    let f (op : AtomicOp) (t : ATy) : Nat := (atomicNew op t m (leBytes 4 x)).1
    let sg (n : Nat) : Int := (BitVec.ofNat 32 n).toInt
    f .add .i32 = (m + x) % 2 ^ 32 ∧ f .add .n32 = (m + x) % 2 ^ 32 ∧ f .min .i32 = (if sg x < sg m then x else m) ∧
    f .max .i32 = (if sg x < sg m then m else x) ∧ f .min .n32 = min m x ∧ f .max .n32 = max m x ∧ f .and .n32 = m &&& x ∧
    f .or .n32 = m ||| x ∧ f .xor .n32 = m ^^^ x ∧ f .xch .n32 = x ∧ f .inc .n32 = (m + 1) % 2 ^ 32 := by
  have hop : leNat ((leBytes 4 x).take 4) = x := atomOperand_whole (by omega)
  have hsm := intVal_eq_toInt hm
  have hsx := intVal_eq_toInt hx
  intro f sg
  refine ⟨?_, ?_, ?_, ?_, ?_, ?_, ?_, ?_, ?_, ?_, ?_⟩ <;> simp only [f, sg, atomicNew, hop, hsm, hsx, decide_eq_true_eq]
  · rfl
  · rfl
  · rfl
  · rfl
  · simp only [reduceCtorEq, if_false]; split <;> omega
  · simp only [reduceCtorEq, if_false]; split <;> omega
  · rfl
  · rfl
  · rfl
  · rfl

/-- Those on 64 bits. -/
theorem atomicNew_double {m x : Nat} (hx : x < 2 ^ 64) :
    let f (op : AtomicOp) : Nat := (atomicNew op .b64 m (leBytes 8 x)).1
    f .add = (m + x) % 2 ^ 64 ∧ f .and = m &&& x ∧ f .or = m ||| x ∧ f .xor = m ^^^ x ∧ f .xch = x := by
  have hop : leNat ((leBytes 8 x).take 8) = x := atomOperand_whole (by omega)
  intro f
  refine ⟨?_, ?_, ?_, ?_, ?_⟩ <;> simp only [f, atomicNew, hop] <;> rfl

/-- Compare and swap, on words and on double words. -/
theorem atomicNew_cas {ty : ATy} {w m x y : Nat} (hw : (match ty with | .b64 => 8 | _ => 4) = w) (hx : x < 256 ^ w) (hy : y < 256 ^ w) :
    (atomicNew .cas ty m (leBytes w x ++ leBytes w y)).1 = if m = x then y else m := by
  obtain ⟨hcmp, hnew⟩ := atomOperand hx (leBytes w y)
  rw [leNat_leBytes_of_lt hy] at hnew
  cases ty <;> subst hw <;> simp only [atomicNew, hcmp, hnew]

/-- The float operations combine as the float instructions do. -/
theorem atomicNew_float {m x : Nat} (hx : x < 2 ^ 32) (habs : x ≠ 0xFF800001) :
    atomicNew .add .f32 m (leBytes 4 x) = float2 fmtF32 .ne false .add m x ∧
    atomicNew .min .f32 m (leBytes 4 x) = float2 fmtF32 .ne false .min m x ∧
    atomicNew .max .f32 m (leBytes 4 x) = float2 fmtF32 .ne false .max m x := by
  have hop : leNat ((leBytes 4 x).take 4) = x := atomOperand_whole (by omega)
  have hpresent : (numOf fmtF32 x).isAbsent = false := by rw [numOf_isAbsent]; exact decide_eq_false habs
  have hcombine (op : FOp2) (h : op ∈ [FOp2.add, .min, .max]) :
      (if (numOf fmtF32 m).isAbsent then passNum fmtF32 x else float2 fmtF32 .ne false op m x) = float2 fmtF32 .ne false op m x := by
    split
    next hm => exact (float2_absent_left _ _ _ h hm hpresent).symm
    · rfl
  simp only [atomicNew, hop, hpresent, if_true, Bool.false_eq_true, if_false, hcombine .add (by decide), hcombine .min (by decide),
    hcombine .max (by decide), and_self]

/-- An operand that is absent leaves the location. -/
theorem atomicNew_absent (m : Nat) :
    atomicNew .add .f32 m (leBytes 4 0xFF800001) = (m, 0) ∧ atomicNew .acc .b64 m (leBytes 4 0xFF800001) = (m, 0) := by
  have hop : leNat ((leBytes 4 0xFF800001).take 4) = 0xFF800001 := by decide
  have habsent : (numOf fmtF32 0xFF800001).isAbsent = true := by decide
  simp only [atomicNew, hop, habsent, if_true, and_self]

/-- `aacc`: the value and the count of its cell, which stays at its maximum with CSAT. -/
theorem atomicNew_acc {m x : Nat} (hm : m < 2 ^ 64) (hx : x < 2 ^ 32) (habs : x ≠ 0xFF800001) :
    let n := m / 2 ^ 32
    let r := float2 fmtF32 .ne false .add (if n = 0 then 0xFF800001 else m % 2 ^ 32) x
    atomicNew .acc .b64 m (leBytes 4 x) = (r.1 + 2 ^ 32 * min (n + 1) 65535, r.2 ||| if 65535 ≤ n then 0x40 else 0) := by
  have hop : leNat ((leBytes 4 x).take 4) = x := atomOperand_whole (by omega)
  have hpresent : (numOf fmtF32 x).isAbsent = false := by rw [numOf_isAbsent]; exact decide_eq_false habs
  intro n r
  have hn : m / 4294967296 = n := rfl
  have hval : m % 4294967296 = m % 2 ^ 32 := rfl
  have hcount : (if 65535 < n then 65535 else n) = min n 65535 := by split <;> omega
  have hsum : (if min n 65535 = 0 then passNum fmtF32 x else float2 fmtF32 .ne false .add (m % 2 ^ 32) x) = r := by
    by_cases h0 : n = 0
    · simp only [r, h0, Nat.zero_min, if_true]
      exact (float2_absent_left _ _ _ (by decide) (by decide) hpresent).symm
    · simp only [r, h0, if_false]
      rw [if_neg (by omega)]
  simp only [atomicNew, hop, hpresent, Bool.false_eq_true, if_false, hn, hval, hcount, hsum]
  by_cases hsat : 65535 ≤ n
  · rw [if_pos (by omega), if_pos hsat, Nat.min_eq_right (by omega)]
    rfl
  · rw [if_neg (by omega), if_neg hsat, Nat.min_eq_left (by omega), Nat.min_eq_left (by omega)]
    exact Prod.ext rfl BitVec.or_zero.symm

theorem atomicResults : Claims.AtomicResults :=
  ⟨fun _ _ => atomicNew_word, fun _ _ _ _ hx hy => atomicNew_cas rfl (by omega) (by omega), fun _ _ _ => atomicNew_double,
    fun _ _ _ _ hx hy => atomicNew_cas rfl (by omega) (by omega), fun _ _ _ => atomicNew_float, fun _ _ => atomicNew_acc, atomicNew_absent⟩

end Sys2Proof.Machine

end

section

/-! SUPPORT: bytes read back where they were just stored, and what the completion of an operation leaves of its team (R51, R54, R213, R221) -/

namespace Sys2Proof.Machine

variable {s : State}

/-- Bytes of plaintext lines that the package reaches read back as they were stored. -/
theorem loadBytes_storeBytes_plain (hw : Canonical s) {x : Nat} {bs : List Byte} (h : ∀ i < bs.length, s.Plain (x + i)) :
    (s.storeBytes x bs).loadBytes x bs.length = bs := by
  obtain ⟨halike, hmem⟩ := storeBytes_plain h
  refine List.ext_getElem (by simp [State.loadBytes]) fun i _ hi => ?_
  simp only [State.loadBytes, List.getElem_map, List.getElem_range]
  rw [loadByte_plain ((h i hi).alike halike), State.byteAt, hmem, read_writeN_inside hw.wf _ _ _ hi]

/-- A SPAD or a CLMEM of workgroups in their places reads back what is written, and nothing of memory or of a team changes. -/
theorem spaceRead_spaceWrite {sp : Space} (hsp : sp ∈ [Space.spad, .clmem]) {wid : Nat} {w : Workgroup} (hw : tabGet s.wgs wid = some w)
    (hr : ∀ x ∈ s.wgs, x.2.place = .resident) (hc : sp = .clmem → (w.cluster.bind (tabGet s.clusters)).isSome) (off : Nat) (bs : List Byte) :
    let u := s.spaceWrite wid sp off bs
    u.spaceRead wid sp off bs.length = bs ∧ u.teams = s.teams ∧ u.mem = s.mem := by
  simp only [List.mem_cons, List.not_mem_nil, or_false] at hsp
  rcases hsp with rfl | rfl
  · rw [State.spaceWrite_spad hw (hr _ (mem_of_tabGet hw))]
    refine ⟨?_, rfl, rfl⟩
    simp [State.spaceRead, State.spaceOf, tabGet_mod_same, hw, tabBytes_tabStore]
  · obtain ⟨c, hbind⟩ := Option.isSome_iff_exists.mp (hc rfl)
    obtain ⟨k, hk, hget⟩ := Option.bind_eq_some_iff.mp hbind
    rw [State.spaceWrite_clmem hw hk hr]
    refine ⟨?_, rfl, rfl⟩
    simp [State.spaceRead, State.spaceOf, tabGet_mod_same, hw, hk, hget, tabBytes_tabStore]

theorem State.recount_stored (s : State) (tid : Nat) : s.Stored (s.recount tid) := by
  unfold State.recount
  split
  · exact .refl s
  · split
    · exact .refl s
    · split
      · exact s.areaWrite_stored _ _
      · split
        · exact s.areaWrite_stored _ _
        · exact .refl s

/-- A counter's fall changes no more than the counters. -/
theorem Team.cntDone_only (t : Team) (k : CntKind) (id : Nat) :
    t.cntDone k id = { t with cntLd := (t.cntDone k id).cntLd, cntSt := (t.cntDone k id).cntSt, cntCp := (t.cntDone k id).cntCp
                              cntTl := (t.cntDone k id).cntTl } := by
  cases k <;> rfl

/-- A team of which an operation has completed. -/
def Team.completes (t : Team) (k : Nat) (o : MemOp) : Team :=
  ((t.cntDone o.cnt k).clearPend k).raiseFlags (if o.failed then 0 else o.flags)

theorem Team.completes_only (t : Team) (k : Nat) (o : MemOp) :
    let u := t.completes k o
    u = { t with cntLd := u.cntLd, cntSt := u.cntSt, cntCp := u.cntCp, cntTl := u.cntTl, pend := u.pend, flags := u.flags } := by
  dsimp only
  unfold Team.completes Team.raiseFlags Team.clearPend
  rw [Team.cntDone_only]

theorem Team.completes_flags (t : Team) (k : Nat) (o : MemOp) :
    (t.completes k o).flags = if o.failed then t.flags else t.flags ||| o.flags := by
  unfold Team.completes Team.raiseFlags Team.clearPend
  rw [Team.cntDone_only]
  split
  · exact BitVec.or_zero
  · rfl

/-- Where nothing is about to happen to its team, an operation that completes leaves it as `completes` says. -/
theorem completeOp_team {k : Nat} {o : MemOp} {t : Team} (ht : tabGet s.teams o.team = some t) (hcalm : s.calm o.team) :
    tabGet (s.completeOp k o).teams o.team = some (t.completes k o) := by
  unfold State.completeOp
  dsimp only
  set v := ({ s with ops := tabDel s.ops k } : State).modTeam o.team fun t => t.completes k o with hv
  change tabGet ((v.recount o.team).settle o.team).teams o.team = _
  have hstored := v.recount_stored o.team
  have hteam : tabGet (v.recount o.team).teams o.team = some (t.completes k o) := by
    rw [hstored.teams, hv, State.modTeam_teams, tabGet_mod_same, ht]
    rfl
  have hwgs : (v.recount o.team).wgs = s.wgs := hstored.wgs
  rw [settle_calm, hteam]
  intro u hu
  rw [hteam] at hu
  obtain rfl := Option.some.inj hu
  rw [Team.completes_only, hwgs]
  exact hcalm t ht

end Sys2Proof.Machine

end

section

/-! PROOF: an atomic's lane is one update of its location, and its flags wait for the instruction (R54, R217, R219, R221) -/

namespace Sys2Proof.Machine

/-- The one word of a four-byte location. -/
theorem loadWords_word {bs : List Byte} (h : bs.length = 4) : loadWords 4 false bs = [BitVec.ofNat 32 (leNat bs)] := by
  simp [loadWords, List.take_of_length_le h.le]

/-- A word written to a lane of an operand register, or to none. -/
theorem writeLane_returns {s : State} {tid lane : Nat} {t : Team} {d : Dest} (ht : tabGet s.teams tid = some t)
    (hlane : ∀ k, d = .oreg k → lane < (t.oreg k).length) (w : Word) :
    let r := s.modTeam tid fun t => t.writeLane d lane [w]
    (∀ k, d = .oreg k → ∃ u, tabGet r.teams tid = some u ∧ (u.oreg k).getD lane 0 = w ∧ u.flags = t.flags) ∧
    (d = .none → tabGet r.teams tid = some t) := by
  have hteam : tabGet (s.modTeam tid fun t => t.writeLane d lane [w]).teams tid = some (t.writeLane d lane [w]) := by
    rw [State.modTeam_teams, tabGet_mod_same, ht]
    rfl
  refine ⟨fun k hk => ⟨_, hteam, ?_⟩, fun hd => ?_⟩
  · subst hk
    have hword : ((t.writeLane (.oreg k) lane [w]).oreg k) = (t.oreg k).set lane w := by
      simp [Team.writeLane, Team.laneSetO, oreg_setO]
    refine ⟨?_, rfl⟩
    rw [hword]
    simp [hlane k rfl]
  · subst hd
    exact hteam

section

variable {s : State} {tid : Nat} {t : Team} {o : MemOp} {l : LaneAcc} {op : AtomicOp} {ty : ATy} (ht : tabGet s.teams tid = some t)
  (hk : o.kind = .atomic) (hop : o.alu = some (op, ty))

include ht hk hop

/-- An atomic's lane of memory, performed: every L1 gives back the sector first. -/
theorem performLane_atomicGlobal (hsp : o.space = .global) :
    s.performLane tid o l =
      (let e := s.l1Evict s.l1Cols fun a => a / 16 == physAddr (l.phys.getD 0) / 16
       let old := e.loadBytes (l.phys.getD 0) o.size
       let new := atomicNew op ty (leNat old) l.data
       ((e.storeBytes (l.phys.getD 0) (leBytes o.size new.1)).modTeam tid fun t => t.writeLane o.dest l.lane (loadWords o.size false old),
        { l with done := true }, new.2)) := by
  simp only [State.performLane, ht, hk, hop, hsp]

/-- One of an explicit level. -/
theorem performLane_atomicSpace (hsp : o.space ≠ .global) :
    s.performLane tid o l =
      (let old := s.spaceRead t.wg o.space l.ptr o.size
       let new := atomicNew op ty (leNat old) l.data
       ((s.spaceWrite t.wg o.space l.ptr (leBytes o.size new.1)).modTeam tid fun t => t.writeLane o.dest l.lane (loadWords o.size false old),
        { l with done := true }, new.2)) := by
  cases h : o.space
  case global => exact absurd h hsp
  all_goals simp only [State.performLane, ht, hk, hop, h]

end

theorem atomicLaneIsOneUpdate : Claims.AtomicLaneIsOneUpdate := by
  refine ⟨?_, fun s k o t ht hcalm => ⟨_, completeOp_team ht hcalm, t.completes_flags k o⟩⟩
  intro s tid p t w o l op ty ht hw hres hk hop hsize hlane
  refine ⟨fun sp hsp hspace hcl => ?_, fun hspace hphys hwf hend hplain => ?_⟩
  · have hne : o.space ≠ .global := by rw [hspace]; rintro rfl; simp at hsp
    rw [performLane_atomicSpace ht hk hop hne, hspace, hsize]
    set old := s.spaceRead t.wg sp l.ptr 4 with hold
    have hlen : old.length = 4 := by simp [hold, State.spaceRead, tabBytes]
    obtain ⟨hread, hteams, hmem⟩ := spaceRead_spaceWrite hsp hw hres hcl l.ptr (leBytes 4 (atomicNew op ty (leNat old) l.data).1)
    rw [leBytes_length] at hread
    dsimp only
    rw [loadWords_word hlen]
    refine ⟨rfl, rfl, ?_, writeLane_returns (by rwa [hteams]) hlane _, hmem⟩
    exact (congrArg leNat hread).trans (leNat_leBytes 4 _)
  · have hp : l.phys.getD 0 = p := by rw [hphys]; rfl
    have haddr : physAddr p = p := Nat.mod_eq_of_lt (by omega)
    rw [performLane_atomicGlobal ht hk hop hspace, hp, hsize, haddr]
    set e := s.l1Evict s.l1Cols fun a => a / 16 == p / 16 with he
    set old := e.loadBytes p 4 with hold
    have hlen : old.length = 4 := by simp [hold, State.loadBytes]
    have hcan : Canonical e := .l1Evict ⟨hwf⟩
    have hsector : ∀ i < (leBytes 4 (atomicNew op ty (leNat old) l.data).1).length, e.Plain (p + i) := fun i hi => by
      rw [leBytes_length] at hi
      obtain ⟨hkey, hreach⟩ := hplain i hi
      exact ⟨hkey, hreach, by omega⟩
    obtain ⟨halike, hmem⟩ := storeBytes_plain hsector
    have hread := loadBytes_storeBytes_plain hcan hsector
    rw [leBytes_length] at hread
    have hteams := halike.teams.trans (s.l1Evict_stored _ _).teams
    dsimp only
    rw [loadWords_word hlen]
    refine ⟨rfl, rfl, (congrArg leNat hread).trans (leNat_leBytes 4 _), writeLane_returns (by rwa [hteams]) hlane _, fun a ha => ?_⟩
    exact (congrArg (Memory.read · a) hmem).trans (read_writeN_outside hcan.wf _ _ _ (by simpa using ha))

/-- Settles O41: what each operation leaves, and the lane that takes it to its location. -/
theorem atomics : Obligations.Atomics := ⟨atomicResults, atomicLaneIsOneUpdate⟩

end Sys2Proof.Machine

end

section

/-! SUPPORT: the end of a word never chooses another current entity (R20, log 5) -/

namespace Sys2Proof.Machine

variable {s : State}

theorem State.Stored.cur {u : State} (h : s.Stored u) : u.cur = s.cur := by rw [h.rest]

theorem State.countEvent_cur (s : State) (c evt n : Nat) : (s.countEvent c evt n).cur = s.cur := (s.countEvent_counted c evt n).stored.cur

theorem State.freeHandler_cur (s : State) (eid : Nat) (e : Entity) : (s.freeHandler eid e).cur = s.cur := by
  unfold State.freeHandler
  split
  · rfl
  · dsimp only
    split <;> rfl

theorem State.rendezvousCheck_cur (s : State) (wid : Nat) : (s.rendezvousCheck wid).cur = s.cur := by
  rw [State.rendezvousCheck_only]

theorem State.endEntity_cur (s : State) (eid : Nat) : (s.endEntity eid).cur = s.cur := by
  unfold State.endEntity
  split
  · rfl
  · dsimp only
    split
    · exact s.freeHandler_cur _ _
    · split
      · exact s.freeHandler_cur _ _
      · exact (State.rendezvousCheck_cur _ _).trans (s.freeHandler_cur _ _)

theorem State.endPath_cur (s : State) (eid : Nat) : (s.endPath eid).cur = s.cur := by
  unfold State.endPath
  split
  · rfl
  · split
    · exact s.endEntity_cur _
    · exact s.freeHandler_cur _ _

theorem State.endTeam_cur (s : State) (tid : Nat) : (s.endTeam tid).cur = s.cur :=
  foldl_keeps State.cur (fun s _ => s.endEntity_cur _) _ _

theorem State.abortWg_cur (s : State) (wid : Nat) : (s.abortWg wid).cur = s.cur := by
  unfold State.abortWg
  split
  · rfl
  · split
    · rfl
    · split
      · rfl
      · exact (State.countEvent_cur ..).trans (s.l1Sync_stored _).cur

theorem State.settle_cur (s : State) (tid : Nat) : (s.settle tid).cur = s.cur := by
  unfold State.settle
  split
  · rfl
  · extract_lets v
    have hv : v.cur = s.cur := by
      unfold v
      split
      · exact s.endTeam_cur _
      · rfl
    split
    · exact hv
    · have habort (u : State) (hu : u.cur = v.cur) (b : Bool) (wid : Nat) : (if b then u.abortWg wid else u).cur = s.cur := by
        split
        · exact (u.abortWg_cur _).trans (hu.trans hv)
        · exact hu.trans hv
      dsimp only
      split
      · exact habort (v.discardParked _) rfl _ _
      · exact habort v rfl _ _

theorem State.errorIrq_cur (s : State) (c : Nat) (f : FaultInfo) : (s.errorIrq c f).cur = s.cur := by
  unfold State.errorIrq
  split <;> rfl

theorem State.markFaulted_cur (s : State) (t : Team) : (s.markFaulted t).cur = s.cur := by
  unfold State.markFaulted
  split <;> rfl

theorem State.trapEnter_cur (s : State) (eid : Nat) (e : Entity) (t : Team) (f : FaultInfo) (i : Nat) :
    (s.trapEnter eid e t f i).cur = s.cur :=
  ((s.deviceSend_stored ..).trans (State.fqWrite_stored ..)).cur

theorem State.deliver_cur (s : State) (eid : Nat) (f : FaultInfo) : (s.deliver eid f).cur = s.cur := by
  unfold State.deliver
  split
  · rfl
  · split
    · rfl
    · extract_lets v w
      have hw : w.cur = s.cur := by
        refine (State.errorIrq_cur _ _ _).trans ?_
        unfold v
        split <;> rfl
      split
      · exact (w.trapEnter_cur ..).trans hw
      · exact (State.endPath_cur _ _).trans ((State.markFaulted_cur _ _).trans ((w.fqFault_stored ..).cur.trans hw))

theorem State.retireClause_cur (s : State) (eid : Nat) (e : Entity) (i : Issue) : (s.retireClause eid e i).cur = s.cur := by
  unfold State.retireClause
  dsimp only
  split
  · exact (State.countEvent_cur ..).trans (State.countEvent_cur ..)
  · rfl

theorem State.continueAt_cur (s : State) (eid tid : Nat) (a : Word64) : (s.continueAt eid tid a).cur = s.cur := by
  unfold State.continueAt
  split
  · rfl
  · split
    · exact State.settle_cur _ _
    · exact (State.settle_cur _ _).trans (State.deliver_cur _ _ _)

theorem Cur.finish_cur (c : Cur) (s : State) : (c.finish s).cur = s.cur := by
  unfold Cur.finish
  split
  · exact (State.continueAt_cur ..).trans (State.retireClause_cur ..)
  · rfl

theorem Cur.advance_cur (c : Cur) (s : State) (n : Nat) : (c.advance s n).cur = s.cur := by
  unfold Cur.advance
  split
  · exact c.finish_cur s
  · rfl

end Sys2Proof.Machine

end

section

/-! SUPPORT: an engine operation that one team's entity has accepted, refused or made to wait (R126, R236, R239, R241) -/

namespace Sys2Proof.Machine

open Sys2Proof.Claims

/-- The entry of an operation that some entities have accepted together, the first of them being `c`. -/
def State.entryFor (s : State) (wid prio : Nat) (c : Cur) (cs : List Cur) (op : EngineOp) (missing : List Nat) : EngineEntry :=
  { op := op, ent := c.eid, teams := (c :: cs).map fun (c : Cur) => c.e.team, wg := wid, prio := prio, started := false, progress := 0
    bands := 0, missing := missing.map pageOf, held := !missing.isEmpty, fail := false, aged := false, finished := false, flags := 0
    after := (c :: cs).flatMap fun c => s.orderedBefore c.eid, frag := c.e.fragCode, pc := c.i.pc
    word := c.i.next + 1, mask := c.e.mask, out := [], reserved := none }

/-- The state once an operation has its entry and each page that it lacks its record. -/
def State.entered (s : State) (g wid prio : Nat) (c : Cur) (cs : List Cur) (op : EngineOp) (missing : List Nat) : State :=
  missing.foldl (fun s a => s.fqFault c.t (parkRecord c.e.fragCode c.e.mask c.i.pc (c.i.next + 1) a))
    (({ s with nextId := s.nextId + 1 } : State).modEngine g fun e =>
      { e with entries := tabPut e.entries s.nextId (s.entryFor wid prio c cs op missing) })

/-- A team that has issued an operation to the engine. -/
def Team.asks (t : Team) (id : Nat) (refs : List Ref) : Team := (t.cntPush .tl id).addPend id id refs

/-- The state once an issuer of an operation has counted it, before that entity's word ends. -/
def Cur.counts (c : Cur) (s : State) (id : Nat) (refs : List Ref) : State :=
  ((s.observe c.t).modTeam c.e.team fun t => t.asks id refs).modEnt c.eid fun e => { e with arrived := none }

/-- An issuer goes on past its word, once it has its pipe. -/
def Cur.goesPast (c : Cur) (id : Nat) (refs : List Ref) (n : Nat) (s : State) : State :=
  let v := c.advance (c.counts s id refs) n
  if c.eid == v.cur || v.pipeFree c.eid (v.partOf c.t) (pipeX c.i.cls) then v
  else v.modEnt c.eid fun e => { e with hold := if e.issue.isSome then some .pipe else e.hold }

theorem accept_cons (s : State) (g wid prio : Nat) (c : Cur) (cs : List Cur) (op : EngineOp) (missing : List Nat) (refs : List Ref) (n : Nat) :
    s.accept g wid prio (c :: cs) op missing refs n =
      (c :: cs).foldl (fun u c => c.goesPast s.nextId refs n u) (s.entered g wid prio c cs op missing) := by
  rfl

section

variable (s : State) (g wid prio : Nat) (c : Cur) (cs : List Cur) (op : EngineOp) (missing : List Nat)

theorem entered_stored : (({ s with nextId := s.nextId + 1 } : State).modEngine g fun e =>
    { e with entries := tabPut e.entries s.nextId (s.entryFor wid prio c cs op missing) }).Stored (s.entered g wid prio c cs op missing) :=
  .foldl (fun s _ => s.fqFault_stored _ _) _ _

theorem entered_teams : (s.entered g wid prio c cs op missing).teams = s.teams := (entered_stored ..).teams
theorem entered_ents : (s.entered g wid prio c cs op missing).ents = s.ents := (entered_stored ..).ents
theorem entered_cur : (s.entered g wid prio c cs op missing).cur = s.cur := (entered_stored ..).cur
theorem entered_nextId : (s.entered g wid prio c cs op missing).nextId = s.nextId + 1 := (entered_stored ..).nextId

theorem engine_modEngine (s : State) (g : Nat) (f : Engine → Engine) : (s.modEngine g f).engine g = f (s.engine g) := by
  simp [State.modEngine, State.setEngine, State.engine]

theorem entered_entry :
    tabGet ((s.entered g wid prio c cs op missing).engine g).entries s.nextId = some (s.entryFor wid prio c cs op missing) := by
  rw [State.engine, (entered_stored ..).engines, ← State.engine, engine_modEngine]
  exact tabGet_put_same ..

end

section

variable {s : State} {c : Cur}

theorem counts_engine (s : State) (c : Cur) (id : Nat) (refs : List Ref) (g : Nat) : (c.counts s id refs).engine g = s.engine g :=
  congrArg (fun T => (tabGet T g).getD Engine.reset) (s.l1Sync_stored _).engines

theorem counts_cur (s : State) (c : Cur) (id : Nat) (refs : List Ref) : (c.counts s id refs).cur = s.cur := (s.l1Sync_stored _).cur
theorem counts_nextId (s : State) (c : Cur) (id : Nat) (refs : List Ref) : (c.counts s id refs).nextId = s.nextId := (s.l1Sync_stored _).nextId

theorem counts_team {t : Team} (ht : tabGet s.teams c.e.team = some t) (id : Nat) (refs : List Ref) :
    tabGet (c.counts s id refs).teams c.e.team = some (t.asks id refs) := by
  have hteams : (s.observe c.t).teams = s.teams := (s.l1Sync_stored _).teams
  rw [Cur.counts, State.modEnt_teams, State.modTeam_teams, tabGet_mod_same, hteams, ht]
  rfl

theorem asks_cnt (t : Team) (id : Nat) (refs : List Ref) : (t.asks id refs).cnt .tl = t.cnt .tl + 1 := t.cnt_cntPush .tl id

theorem asks_pending (t : Team) (id : Nat) (refs : List Ref) : ∀ r ∈ refs, (t.asks id refs).isPending r = true := by
  intro r hr
  simp only [Team.asks, Team.isPending, Team.addPend, List.any_append, List.any_map, Bool.or_eq_true, List.any_eq_true]
  exact .inr ⟨r, hr, by simp⟩

/-- The entity that executes goes on past its word whether or not the pipe is free. -/
theorem goesPast_self {v : State} (hcur : v.cur = c.eid) (id : Nat) (refs : List Ref) (n : Nat) :
    c.goesPast id refs n v = c.advance (c.counts v id refs) n := by
  unfold Cur.goesPast
  dsimp only
  rw [Cur.advance_cur, counts_cur, hcur]
  simp

/-- What one entity's acceptance of an operation leaves. -/
theorem accept_alone (hs : Standing s c) (prio : Nat) (op : EngineOp) (missing : List Nat) (refs : List Ref) (n : Nat) :
    ∃ u, s.accept (s.engineOf c.t) c.t.wg prio [c] op missing refs n = c.advance u n ∧ OperationTaken s c prio op missing refs u := by
  set v := s.entered (s.engineOf c.t) c.t.wg prio c [] op missing with hv
  refine ⟨c.counts v s.nextId refs, ?_, s.entryFor c.t.wg prio c [] op missing, c.t.asks s.nextId refs, ?_, rfl, rfl, rfl, rfl, rfl, rfl,
    rfl, rfl, ?_, asks_cnt .., asks_pending _ _ _, rfl, rfl, ?_⟩
  · rw [accept_cons]
    exact goesPast_self ((entered_cur ..).trans hs.cur) _ _ _
  · rw [counts_engine]
    exact entered_entry ..
  · exact counts_team (by rw [hv, entered_teams]; exact hs.team) _ _
  · rw [counts_nextId]
    exact entered_nextId ..

/-- Where the counter and the table have room, nothing makes a lone entity's operation wait. -/
theorem tableFull_alone (hs : Standing s c) (hcnt : c.t.cnt .tl < 63) (g : Nat) :
    s.tableFull g [c] = decide (32 ≤ (s.engine g).entries.length) := by
  have hroom : ¬ 63 ≤ c.t.cnt .tl := by omega
  simp only [State.tableFull, List.any_cons, List.any_nil, hs.team, hroom, decide_false, Bool.or_false]
  rfl

/-- An engine instruction of a team that is in no gang, or of one that no gang takes part in, is judged for its entity alone. -/
theorem engineIssue_alone {q : EngineAsk} (hown : q.owned = true → s.inCluster c.t = true) (hcnt : c.t.cnt .tl < 63)
    (hgang : q.ganged = true → c.t.gang = none) : c.engineIssue s q = s.judged (s.engineOf c.t) c [c] q .engine := by
  have hill : (q.owned && !s.inCluster c.t) = false := by
    cases h : q.owned
    · rfl
    · simp [hown h]
  unfold Cur.engineIssue
  dsimp only
  rw [hill, if_neg (by simp), if_neg (by omega)]
  cases h : q.ganged
  · rfl
  · rw [hgang h]

/-- Outside a cluster launch an owned instruction is ILLOP (R236). -/
theorem engineIssue_outside {q : EngineAsk} (hown : q.owned = true) (hcl : s.inCluster c.t = false) : c.engineIssue s q = c.illop s := by
  simp [Cur.engineIssue, hown, hcl]

/-- Without room in its counter it waits (R126). -/
theorem engineIssue_counterFull {q : EngineAsk} (hcl : s.inCluster c.t = true) (hcnt : 63 ≤ c.t.cnt .tl) :
    c.engineIssue s q = c.holdAt s .room := by
  simp [Cur.engineIssue, hcl, hcnt]

/-- Without room in the table it waits (R239). -/
theorem engineIssue_tableFull (hs : Standing s c) {q : EngineAsk} (hcl : s.inCluster c.t = true) (hcnt : c.t.cnt .tl < 63)
    (hgang : c.t.gang = none) (hfull : 32 ≤ (s.engine (s.engineOf c.t)).entries.length) : c.engineIssue s q = c.holdAt s .engine := by
  rw [engineIssue_alone (fun _ => hcl) hcnt (fun _ => hgang)]
  simp [State.judged, tableFull_alone hs hcnt, hfull]

/-- The verdict on what an instruction asks for, in a logical state and a workgroup. -/
def EngineAsk.verdict (q : EngineAsk) (s : State) (l : Logical) (wid : Nat) : Verdict :=
  if (q.kinds l).any s.fmtOff then .fault cILLOP 0 0 else q.judge s l wid

/-- What follows from a verdict for one entity. -/
def Cur.meets (c : Cur) (s : State) (q : EngineAsk) (hold : Hold) : Verdict → State
  | .wait => c.holdAt s hold
  | .fault x a b =>
    let v := s.modEnt c.eid fun e => { e with arrived := none }
    if x = cILLOP then c.illop v else c.raiseWith v { c.fault x a with addr2 := b }
  | .take op missing refs => s.accept (s.engineOf c.t) c.t.wg (q.prio.getD (s.gridPrio c.t)) [c] op missing refs q.words

/-- Where there is room, the checks of an instruction decide. -/
theorem judged_alone (hs : Standing s c) (hroom : EngineRoom s c) (q : EngineAsk) (hold : Hold) :
    s.judged (s.engineOf c.t) c [c] q hold = c.meets s q hold (q.verdict s (s.engine (s.engineOf c.t)).logical c.t.wg) := by
  obtain ⟨hcnt, hlen⟩ := hroom
  have hfull : s.tableFull (s.engineOf c.t) [c] = false := by rw [tableFull_alone hs hcnt]; exact decide_eq_false (by omega)
  unfold State.judged
  dsimp only
  rw [hfull, if_neg Bool.false_ne_true]
  simp only [List.foldl_cons, List.foldl_nil, lt_self_iff_false, if_false, bne_self_eq_false, Bool.false_eq_true, not_false_eq_true,
    List.filter_cons_of_neg, List.filter_nil]
  rw [← EngineAsk.verdict]
  cases q.verdict s (s.engine (s.engineOf c.t)).logical c.t.wg <;> rfl

/-- An instruction that its checks take is accepted as its operation. -/
theorem engineIssue_taken (hs : Standing s c) (hroom : EngineRoom s c) {q : EngineAsk} (hown : q.owned = true → s.inCluster c.t = true)
    (hgang : q.ganged = true → c.t.gang = none) {op : EngineOp} {missing : List Nat} {refs : List Ref}
    (hkinds : (q.kinds (s.engine (s.engineOf c.t)).logical).any s.fmtOff = false)
    (hjudge : q.judge s (s.engine (s.engineOf c.t)).logical c.t.wg = .take op missing refs) :
    ∃ u, c.engineIssue s q = c.advance u q.words ∧ OperationTaken s c (q.prio.getD (s.gridPrio c.t)) op missing refs u := by
  rw [engineIssue_alone hown hroom.1 hgang, judged_alone hs hroom, EngineAsk.verdict, hkinds, if_neg Bool.false_ne_true, hjudge]
  exact accept_alone hs _ _ _ _ _

/-- An instruction that its checks find to be ILLOP is that. -/
theorem engineIssue_illop (hs : Standing s c) (hroom : EngineRoom s c) {q : EngineAsk} (hown : q.owned = true → s.inCluster c.t = true)
    (hgang : q.ganged = true → c.t.gang = none) (harr : c.e.arrived = none) {a b : Nat}
    (hkinds : (q.kinds (s.engine (s.engineOf c.t)).logical).any s.fmtOff = false)
    (hjudge : q.judge s (s.engine (s.engineOf c.t)).logical c.t.wg = .fault cILLOP a b) : c.engineIssue s q = c.illop s := by
  have hself : (s.modEnt c.eid fun e => { e with arrived := none }) = s := by
    have he : ({ c.e with arrived := none } : Entity) = c.e := by rw [← harr]
    rw [modEnt_standing hs, he, tabPut_get_self _ _ _ hs.ent]
  rw [engineIssue_alone hown hroom.1 hgang, judged_alone hs hroom, EngineAsk.verdict, hkinds, if_neg Bool.false_ne_true, hjudge, Cur.meets, hself]
  exact if_pos rfl

end

end Sys2Proof.Machine

end

section

/-! SUPPORT: what the checks of each engine instruction take (R241, R246 to R260) -/

namespace Sys2Proof.Machine

open Sys2Proof.Claims

variable {s : State} {g : Logical}

/-- A check that passes leaves the rest to decide. -/
theorem orFault_passed {bad : Bool} (h : bad = false) (cause addr : Nat) (rest : Verdict) : orFault bad cause addr rest = rest := by
  rw [orFault, h, if_neg Bool.false_ne_true]

theorem orIllop_passed {bad : Bool} (h : bad = false) (rest : Verdict) : orIllop bad rest = rest := orFault_passed h ..

theorem judgeMres_takes {d : Nat} {w : Word} (hd : g.format d = none) (hw : fmtOk w = true)
    (hfit : (g.recs.map fun r => fmtSpace r.2.1).sum + fmtSpace w ≤ mobBytes) : judgeMres g d w = .take (.mres d w) [] [] := by
  rw [judgeMres, orIllop_passed (by simp [hd, hw]), orFault_passed (by simpa using hfit)]

theorem judgeMfree_takes {d : Nat} {w : Word} (hd : g.format d = some w) : judgeMfree g d = .take (.mfree d) [] [] := by
  rw [judgeMfree, orIllop_passed (by simp [hd])]

theorem judgeMscl_takes {d m off : Nat} {w q : Word} (hd : g.format d = some w) (hm : g.format m = some q) (hq : fmtKind q = 3)
    (hw : fmtScaled w = true) (hfit : off + fmtCount w * fmtBlocks w ≤ fmtCount q * 128) :
    judgeMscl g d m off = .take (.mscl d m off) [] [] := by
  simp only [judgeMscl, hd, hm]
  rw [orIllop_passed (by simp [hq, hw]), orFault_passed (by simpa using hfit)]

theorem judgeMls_takes {r : Nat} {w : Word} (hr : g.format r = some w) (hraw : fmtRaw w = false) (hwide : fmtCount w ≤ fmtWide w)
    (hscaled : fmtScaled w = true → g.scaled r = true) :
    judgeMls g r none = .take (.mls r none) [] [] ∧
    ∀ k off, g.raw k = true → off + fmtWide w ≤ g.elems k → judgeMls g r (some (k, off)) = .take (.mls r (some (k, off))) [] [] := by
  have hill : (fmtRaw w || decide (fmtWide w < fmtCount w) || fmtScaled w && !g.scaled r) = false := by
    cases h : fmtScaled w <;> simp [hraw, hwide, hscaled, h]
  simp only [judgeMls, hr]
  refine ⟨orIllop_passed hill _, fun k off hk hfit => ?_⟩
  rw [orIllop_passed hill, orIllop_passed (by simp [hk]), orFault_passed (by simpa using hfit)]

theorem judgeMfill_takes {t r : Nat} (hr : g.raw r = true) (hfit : rawBytes / 4 ≤ g.elems r) : judgeMfill g t r = .take (.mfill t r) [] [] := by
  rw [judgeMfill, orIllop_passed (by simpa [hr] using hfit)]

theorem judgeMtab_takes {r : Nat} (hr : g.raw r = true) (hfit : 131 ≤ g.elems r) : judgeMtab g r = .take (.mtab r) [] [] := by
  rw [judgeMtab, orIllop_passed (by simpa [hr] using hfit)]

/-- An `mma` of rows of a record that pairs with the active plane, into a tile of its type or from zero. -/
theorem judgeMma_takes {t a r : Nat} {mshape : BitVec 4} {sums sat zero : Bool} {prio : Nat} {w : Word} (ha : g.format a = some w)
    (hrows : 1 ≤ r % 128) (hrows64 : r % 128 ≤ 64) (hres : bitsOf r 15 7 = 0) (hraw : fmtRaw w = false)
    (hpair : ∀ x ∈ g.active, ∀ f, x = some f → pairClass f = pairClass w) (hsums : sums = true → pairClass w = 4)
    (hsat : sat = true → accType w = 1) (hscaled : fmtScaled w = true → g.scaled a = true) (hfit : r / 65536 + r % 128 ≤ fmtCount w)
    (htile : zero = true ∨ g.tile t = some 0 ∨ g.tile t = some (accType w)) :
    judgeMma g t a r mshape sums sat zero prio = .take (.mma t a (r / 65536) (r % 128) mshape sums sat zero prio) [] [] := by
  have hknown : (!zero && (g.tile t).isNone) = false := by rcases htile with h | h | h <;> simp [h]
  have hactive {p : Option Word → Bool} (hnone : p none = true) (hsome : ∀ f, p (some f) = (pairClass f == pairClass w)) :
      g.active.all p = true := by
    refine List.all_eq_true.mpr fun x hx => ?_
    cases x with
    | none => exact hnone
    | some f => rw [hsome, hpair _ hx f rfl, beq_self_eq_true]
  have htype : ((if zero then 0 else (g.tile t).getD 0) != 0 && (if zero then 0 else (g.tile t).getD 0) != accType w) = false := by
    rcases htile with h | h | h <;> cases zero <;> simp_all
  have hscale : (fmtScaled w && !g.scaled a) = false := by cases h : fmtScaled w <;> simp [hscaled, h]
  have hsum : (sums && pairClass w != 4) = false := by cases sums <;> simp [hsums]
  have hsatu : (sat && accType w != 1) = false := by cases sat <;> simp [hsat]
  unfold judgeMma
  dsimp only
  rw [hknown, if_neg Bool.false_ne_true, ha]
  dsimp only
  rw [orIllop_passed, orFault_passed (by simpa using hfit)]
  rw [hactive rfl (fun _ => rfl), htype, hsum, hsatu, hscale, hraw, hres]
  simp
  omega

/-- A whole record's bytes in SPAD or CLMEM, from an aligned offset within the allocation (R247). -/
theorem mldAsks : MldAsks := by
  intro s g stack ctx wid d base strict w hd
  refine ⟨fun q sp hq hal hfit => ?_, fun hal hpages hwaits => ?_, fun q hal => ?_⟩
  · simp only [List.mem_cons, List.not_mem_nil, or_false, Prod.mk.injEq] at hq
    rcases hq with ⟨rfl, rfl⟩ | ⟨rfl, rfl⟩ <;>
      simp [judgeMld, hd, orIllop, orFault, hal, hfit, State.copyPages, State.piecesFail, State.copyAbsent]
  · have hwalks : ((mldPieces base (fmtBytes w)).any fun p => s.walkWaits stack ctx p.1 p.2.1) = false :=
      List.any_eq_false.mpr fun p hp => by rw [hwaits p hp]; exact Bool.false_ne_true
    simp [judgeMld, hd, orIllop, orFault, hal, hpages, hwalks]
  · simp [judgeMld, hd, orIllop, orFault, hal]

/-- R256, R260: a drain of a whole raw tile to SPAD, and one that waits for an `mfill`. -/
theorem drainAsks : DrainAsks := by
  intro s g wid t o ty w
  refine ⟨fun htile hraw hmask hdst hout hal hfit hres => ?_, fun htile => by simp [judgeMdrain, htile]⟩
  have hrest : w &&& 0x6100 = w := by
    have hall : w &&& (0xFFFF9EFF ||| 0x6100) = w := by
      rw [show (0xFFFF9EFF ||| 0x6100 : Word) = BitVec.allOnes 32 by decide, BitVec.and_allOnes]
    rw [BitVec.and_or_distrib_left, hmask] at hall
    exact BitVec.zero_or.symm.trans hall
  have hbit (i : Nat) (hi : (0x6100 : Word).getLsbD i = false) : cmdBit w i = false := by
    rw [cmdBit, ← hrest, BitVec.getLsbD_and, hi, Bool.and_false]
  have hhigh : bitsOf w.toNat 31 28 = 0 := by
    have hle : w.toNat ≤ 0x6100 := by
      rw [← hrest, BitVec.toNat_and]
      exact Nat.and_le_right
    simp only [bitsOf]
    omega
  simp only [judgeMdrain, htile, hraw, hmask, hdst, hbit 0 rfl, hbit 2 rfl, hbit 4 rfl, if_true, hhigh]
  rw [orIllop_passed (by simpa using hout), orFault_passed (by simp [hal]), orFault_passed (by simpa using hfit),
    orFault_passed (by simpa using hres)]

end Sys2Proof.Machine

end

section

/-! PROOF: the engine instructions of a team that is in no gang, and the reductions of a team (R44, R126, R236, R238, R239, R246 to R261) -/

namespace Sys2Proof.Machine

open Sys2Proof.Claims

variable {s : State} {c : Cur}

theorem engineWord_standing (hs : Standing s c) (f : Cur → State → EngineAsk) : engineWord f s = .next (c.engineIssue s (f c s)) :=
  withCur_standing hs _

/-- An engine instruction whose checks take an operation is accepted as it. -/
theorem engineWord_done (hs : Standing s c) (hroom : EngineRoom s c) {i : Instr} {f : Cur → State → EngineAsk} (hx : exec i s = engineWord f s)
    (hown : (f c s).owned = true → s.inCluster c.t = true) (hgang : (f c s).ganged = true → c.t.gang = none) {op : EngineOp}
    {missing : List Nat} {refs : List Ref} (hkinds : ((f c s).kinds (s.engine (s.engineOf c.t)).logical).any s.fmtOff = false)
    (hjudge : (f c s).judge s (s.engine (s.engineOf c.t)).logical c.t.wg = .take op missing refs) :
    DoneIn s i c (f c s).words (OperationTaken s c ((f c s).prio.getD (s.gridPrio c.t)) op missing refs) := by
  obtain ⟨u, hu, htaken⟩ := engineIssue_taken hs hroom hown hgang hkinds hjudge
  exact ⟨u, by rw [hx, engineWord_standing hs, hu], htaken⟩

/-- The formats of a record that the logical state holds are in service. -/
theorem kind_inService {g : Logical} {d : Nat} {w : Word} (h : Holds s g d w) : (g.kind d).any s.fmtOff = false := by
  obtain ⟨hd, hoff⟩ := h
  simp [Logical.kind, hd, hoff]

theorem engineOperations : EngineOperations := by
  intro s c hs hcl hroom hgang g taken size
  have htaken {i : Instr} {f : Cur → State → EngineAsk} {op : EngineOp} {missing : List Nat} {refs : List Ref} (hx : exec i s = engineWord f s) :=
    engineWord_done (op := op) (missing := missing) (refs := refs) hs hroom hx (fun _ => hcl) fun _ => hgang
  refine ⟨?_, ?_, ?_, ?_, ?_, ?_, ?_, ?_, ?_, ?_, ?_⟩
  · intro d w hd hw hoff hfit
    exact htaken (exec_mres ..) (by simp [hoff]) (judgeMres_takes hd hw hfit)
  · intro d w hd
    exact htaken (exec_mfree ..) rfl (judgeMfree_takes hd)
  · intro d m o w q hd hm hq hw hfit
    exact htaken (exec_mscl ..) rfl (judgeMscl_takes hd hm hq hw hfit)
  · intro r k o w hr hraw hwide hscaled
    obtain ⟨hplain, hsums⟩ := judgeMls_takes hr.1 hraw hwide hscaled
    exact ⟨htaken (exec_mls ..) (kind_inService hr) hplain,
      fun hk hfit => htaken (exec_mls ..) (kind_inService hr) (hsums _ _ hk hfit)⟩
  · exact htaken (exec_mswap ..) rfl rfl
  · intro t
    exact htaken (exec_mzero ..) rfl rfl
  · intro t r hr hfit
    exact htaken (exec_mfill ..) rfl (judgeMfill_takes hr hfit)
  · intro r hr hfit
    exact htaken (exec_mtab ..) rfl (judgeMtab_takes hr hfit)
  · intro t a q p sat sums w ha rows first hrows hrows64 hres hraw hpair hsums hsat hscaled hfit op
    have hkinds := kind_inService ha
    have hjudge (z : Bool) (htile : z = true ∨ g.tile t.toNat = some 0 ∨ g.tile t.toNat = some (accType w)) :
        judgeMma g t.toNat a.toNat (size q) c.t.mshape sums sat z p.toNat = .take (op z) [] [] :=
      judgeMma_takes ha.1 hrows hrows64 hres hraw hpair hsums hsat hscaled hfit htile
    refine ⟨?_, fun htile => ?_, fun harr => ?_⟩
    · exact htaken (exec_mma ..) hkinds ((orIllop_passed rfl _).trans (hjudge true (.inl rfl)))
    · exact htaken (exec_mma ..) hkinds ((orIllop_passed rfl _).trans (hjudge false (.inr htile)))
    · refine ((exec_mma ..).trans (engineWord_standing hs _)).trans (congrArg _ ?_)
      refine engineIssue_illop hs hroom (fun _ => hcl) (fun _ => hgang) harr hkinds (a := 0) (b := 0) ?_
      simp [orIllop, orFault, hgang]
  · intro m d b p w op missing hd hjudge
    exact htaken (exec_mld ..) (kind_inService hd) hjudge
  · intro t x o n w hkind hjudge
    refine htaken (exec_mdrain ..) ?_ hjudge
    rcases hkind with h | h <;> simp [h]

theorem engineRefusesAndWaits : EngineRefusesAndWaits := by
  intro s c d w t hs hgang i hi
  obtain ⟨f, hx, hown⟩ : ∃ f, exec i s = engineWord f s ∧ (f c s).owned = true := by
    simp only [List.mem_cons, List.not_mem_nil, or_false] at hi
    rcases hi with rfl | rfl | rfl | rfl | rfl | rfl
    · exact ⟨_, exec_mres .., rfl⟩
    · exact ⟨_, exec_mfree .., rfl⟩
    · exact ⟨_, exec_mswap .., rfl⟩
    · exact ⟨_, exec_mzero .., rfl⟩
    · exact ⟨_, exec_mtab .., rfl⟩
    · exact ⟨_, exec_mfill .., rfl⟩
  rw [hx, engineWord_standing hs]
  exact ⟨fun hcl => congrArg _ (engineIssue_outside hown hcl), fun hcl hcnt => congrArg _ (engineIssue_counterFull hcl hcnt),
    fun hcl hcnt hfull => congrArg _ (engineIssue_tableFull hs hcl hcnt hgang hfull)⟩

/-- The two registers of a scan's results turned to tag G keep all else of their team. -/
theorem expandPair_keeps (t : Team) (d : Nat) :
    let m := (t.expand d).expand (d + 1)
    (m.vreg d).isG = true ∧ (∀ r, m.isPending r = t.isPending r) ∧ m.cnt .tl = t.cnt .tl := by
  refine ⟨?_, fun _ => rfl, rfl⟩
  rw [Team.expand, vreg_setV, if_neg (by omega), Team.expand, vreg_setV, if_pos rfl]
  rfl

/-- What a scan asks for. -/
def Cur.scanAsk (c : Cur) (t : RedT) (d : BitVec 6) (a : VOp) : EngineAsk :=
  { owned := false, judge := fun _ _ _ => .take (.mred true t d.toNat (c.redVals t a) c.eid) [] [.v d.toNat, .v (d.toNat + 1)] }

theorem mscanAdd_standing (hs : Standing s c) (t : RedT) (d : BitVec 6) (a : VOp) :
    exec (.mscanAdd t d a) s = .next (if c.pastGrant then c.exhaust s cXREG
      else if (c.engineIssue s (c.scanAsk t d a)).nextId = s.nextId then c.engineIssue s (c.scanAsk t d a)
      else (c.engineIssue s (c.scanAsk t d a)).modTeam c.e.team fun t => (t.expand d.toNat).expand (d.toNat + 1)) :=
  (exec_mscanAdd ..).trans (withCur_standing hs _)

theorem teamReductions : TeamReductions := by
  intro s c t d a hs hroom vals
  refine ⟨?_, fun hpast => ?_, fun hpast hin => ?_⟩
  · exact engineWord_done hs hroom (exec_mredAdd ..) (fun h => absurd h Bool.false_ne_true) (fun h => absurd h Bool.false_ne_true) rfl rfl
  · rw [mscanAdd_standing hs, if_pos hpast]
  · obtain ⟨u, hu, x, m, hx, hop, -, -, -, -, -, -, -, hm, hcnt, hpend, -, -, hnext⟩ :=
      engineIssue_taken (q := c.scanAsk t d a) hs hroom (fun h => absurd h Bool.false_ne_true) (fun h => absurd h Bool.false_ne_true) rfl rfl
    replace hu := hu.trans (advance_inside 1 u hin)
    have hmoved : (c.engineIssue s (c.scanAsk t d a)).nextId ≠ s.nextId := by
      rw [hu, State.modEnt_nextId, hnext]
      omega
    obtain ⟨hG, hpends, hcnts⟩ := expandPair_keeps m d.toNat
    rw [mscanAdd_standing hs, if_neg (by simp [hpast]), if_neg hmoved, hu]
    refine ⟨_, x, (m.expand d.toNat).expand (d.toNat + 1), rfl, hx, hop, ?_, ?_, ?_, hG, hcnts.trans hcnt⟩
    · rw [State.modTeam_teams, tabGet_mod_same, State.modEnt_teams, hm]
      rfl
    · rw [hpends, hpend _ (by simp)]
    · rw [hpends, hpend _ (by simp)]

end Sys2Proof.Machine

end

section

/-! PROOF: gangs: joining and leaving one, its shape, and the rendezvous at an operation (R242, R243, R249) -/

namespace Sys2Proof.Machine

open Sys2Proof.Claims

variable {s : State} {c : Cur}

/-- `mgang` where no other entity of the team waits at a rendezvous. -/
theorem mgang_standing (hs : Standing s c) (hcl : s.inCluster c.t = true)
    (hfree : ∀ x ∈ s.ents, x.2.team = c.e.team → x.2.hold = some .gang → x.1 = c.eid) (b : BitVec 5) (i : BitVec 4) :
    let m := c.t.sreg b.toNat
    let members := (List.range 32).filter fun k => m.getLsbD k
    exec (.mgang b i) s = .next (
      if m = 0 then c.done s 1 { c.t with gang := none, gangMap := 0 } c.i
      else if 6 < members.length || !m.getLsbD (s.gangBit c.t) || !members.all (s.gangBitExists c.t) then c.raise s cGMIS m.toNat
      else c.done s 1 { c.t with gang := some i, gangMap := m } c.i) := by
  intro m members
  have hwait : (s.entsOf c.e.team).any (fun x => x.2.hold == some .gang && x.2.arrived.isSome && x.1 != c.eid) = false := by
    refine List.any_eq_false.mpr fun x hx => ?_
    obtain ⟨hmem, hteam⟩ := List.mem_filter.mp hx
    by_cases hh : x.2.hold = some .gang
    · simp [hfree x hmem (by simpa using hteam) hh]
    · simp [hh]
  refine ((exec_mgang ..).trans (withCur_standing hs _)).trans (congrArg _ ?_)
  dsimp only
  rw [hcl, if_neg (by simp), hwait, if_neg Bool.false_ne_true]
  simp only [teamWord_done hs]
  rfl

theorem mshape_standing (hs : Standing s c) (hcl : s.inCluster c.t = true) (m : BitVec 4) :
    exec (.mshape m) s = .next (if m = 0 then c.illop s else c.done s 1 { c.t with mshape := m } c.i) := by
  refine ((exec_mshape ..).trans (withCur_standing hs _)).trans (congrArg _ ?_)
  simp [hcl, teamWord_done hs]

section

variable {k : BitVec 4} {q : EngineAsk}

/-- The latch of a gang as an instruction finds it. -/
def State.latchOf (s : State) (g : Nat) (k : Nat) (ref : List Nat) : GangLatch :=
  (tabGet (s.engine g).latches k).getD { ref := ref, members := [] }

/-- The state in which an entity has come to the rendezvous of its gang. -/
def Cur.arrives (c : Cur) (s : State) (k : Nat) : State := s.modEnt c.eid fun e => { e with arrived := some k }

/-- The state in which it waits there with those before it. -/
def Cur.latches (c : Cur) (s : State) (k : Nat) (l : GangLatch) : State :=
  (c.arrives s k).modEngine (s.engineOf c.t) fun e => { e with latches := tabPut e.latches k { l with members := l.members ++ [c.eid] } }

/-- The members of a gang as they stand when the last of them arrives. -/
def Cur.gathered (c : Cur) (s : State) (k : Nat) (members : List Nat) : List Cur := (members ++ [c.eid]).filterMap (c.arrives s k).curOf

/-- An instruction of a gang whose reference is that of the members who stand at the rendezvous: it waits for the others, and with the last
of them what they ask for is judged. -/
theorem engineIssue_joins (hcl : s.inCluster c.t = true) (hcnt : c.t.cnt .tl < 63) (hq : q.ganged = true) (hk : c.t.gang = some k)
    (hp : c.e.parent = none) (href : (s.latchOf (s.engineOf c.t) k.toNat q.ref).ref = q.ref)
    (hstand : ∀ m ∈ (s.latchOf (s.engineOf c.t) k.toNat q.ref).members, s.standsAt k.toNat m = true ∧ m ≠ c.eid) :
    let g := s.engineOf c.t
    let l := s.latchOf g k.toNat q.ref
    let n := popCount (c.t.gangMap.setWidth 1024)
    let v := c.arrives s k.toNat
    let cs := c.gathered s k.toNat l.members
    (l.members.length + 1 < n → c.engineIssue s q = c.holdAt (c.latches s k.toNat l) .gang) ∧
    ∀ op, n ≤ l.members.length + 1 → v.tableFull g cs = false → q.judge v (v.engine g).logical c.t.wg = .take op [] [] →
      c.engineIssue s q = (v.modEngine g fun e => { e with latches := tabDel e.latches k.toNat }).judged g c cs q .gang := by
  intro g l n v cs
  have hhere : l.members.filter (s.standsAt k.toNat) = l.members := List.filter_eq_self.mpr fun m hm => (hstand m hm).1
  have hnew : l.members.contains c.eid = false := by
    simpa using fun hm => (hstand c.eid hm).2 rfl
  have hsame : (if l.members.isEmpty then q.ref else l.ref) = l.ref := by split <;> simp [l, g, href]
  have hown : (q.owned && !s.inCluster c.t) = false := by simp [hcl]
  have hfrag : c.e.isFrag = false := by simp [Entity.isFrag, hp]
  have href' : (l.ref != q.ref) = false := by simp [l, g, href]
  have hlatch : (tabGet (s.engine (s.engineOf c.t)).latches k.toNat).getD { ref := q.ref, members := [] } = l := rfl
  refine ⟨fun hlt => ?_, fun op hge hfull hjudge => ?_⟩
  all_goals
    unfold Cur.engineIssue
    dsimp only
    rw [hown, if_neg Bool.false_ne_true, if_neg (by omega), hq, hk]
    dsimp only
    rw [hfrag, if_neg Bool.false_ne_true]
    simp only [hlatch, hhere, hsame, hnew, href', Bool.not_false, Bool.and_false, Bool.false_eq_true, if_false, List.length_append,
      List.length_cons, List.length_nil]
  · rw [if_pos hlt]
    rfl
  · have hverdict : (if v.tableFull g cs then Verdict.wait else q.judge v (v.engine g).logical c.t.wg) = .take op [] [] := by
      rw [hfull, if_neg Bool.false_ne_true, hjudge]
    rw [if_neg (by omega)]
    split
    next heq => cases hverdict.symm.trans heq
    next => rfl

end

section

/-! An operation that several members of a gang issue together. -/

theorem curOf_of {m : Nat} {e : Entity} {i : Issue} {t : Team} (he : tabGet s.ents m = some e) (hi : e.issue = some i)
    (ht : tabGet s.teams e.team = some t) : s.curOf m = some { eid := m, e := e, t := t, i := i } := by
  simp [State.curOf, he, hi, ht]

/-- A fold that keeps one of two at each turn ends with one of its list. -/
theorem foldl_choice_mem {α : Type} {f : α → α → α} (hf : ∀ a b, f a b = a ∨ f a b = b) (l : List α) (a : α) : l.foldl f a ∈ a :: l :=
  List.foldlRecOn (motive := (· ∈ a :: l)) l f List.mem_cons_self fun b hb x hx => by
    rcases hf b x with h | h <;> rw [h]
    · exact hb
    · exact List.mem_cons_of_mem _ hx

theorem goesPast_engine {y : Cur} {n : Nat} (hy : y.inside n) (id : Nat) (refs : List Ref) (v : State) (g : Nat) :
    (y.goesPast id refs n v).engine g = v.engine g := by
  have hadvance : (y.advance (y.counts v id refs) n).engine g = v.engine g := by
    rw [advance_inside n _ hy]
    exact counts_engine v y id refs g
  unfold Cur.goesPast
  dsimp only
  split
  · exact hadvance
  · exact hadvance

theorem goesPast_all_engine {cs : List Cur} {n : Nat} (hcs : ∀ y ∈ cs, y.inside n) (id : Nat) (refs : List Ref) (v : State) (g : Nat) :
    (cs.foldl (fun u y => y.goesPast id refs n u) v).engine g = v.engine g := by
  induction cs generalizing v with
  | nil => rfl
  | cons y cs ih =>
    rw [List.foldl_cons, ih fun z hz => hcs z (List.mem_cons_of_mem _ hz)]
    exact goesPast_engine (hcs y List.mem_cons_self) ..

/-- The entry of an operation that several entities issue inside their clauses. -/
theorem accept_entry {cs : List Cur} {n : Nat} (hc : c.inside n) (hcs : ∀ y ∈ cs, y.inside n) (g wid prio : Nat) (op : EngineOp)
    (missing : List Nat) (refs : List Ref) :
    tabGet ((s.accept g wid prio (c :: cs) op missing refs n).engine g).entries s.nextId = some (s.entryFor wid prio c cs op missing) := by
  rw [accept_cons, goesPast_all_engine (List.forall_mem_cons.mpr ⟨hc, hcs⟩)]
  exact entered_entry ..

/-- Of two members of a gang, the one that takes part first (R242). -/
def State.placedFirst (s : State) (m x : Cur) : Cur := if s.gangBit x.t < s.gangBit m.t then x else m

/-- An operation that the checks take is accepted for one of the entities and those that are others than it. -/
theorem judged_taken {g : Nat} {cs : List Cur} {q : EngineAsk} {op : EngineOp} {missing : List Nat} {refs : List Ref} (hold : Hold)
    (hfull : s.tableFull g cs = false) (hkinds : (q.kinds (s.engine g).logical).any s.fmtOff = false)
    (hjudge : ∀ wid, q.judge s (s.engine g).logical wid = .take op missing refs) :
    ∃ x ∈ c :: cs, ∃ wid, s.judged g c cs q hold =
      s.accept g wid (q.prio.getD (s.gridPrio c.t)) (x :: cs.filter fun y => y.eid != x.eid) op missing refs q.words := by
  have hlead := foldl_choice_mem (f := s.placedFirst) (fun a b => by unfold State.placedFirst; split <;> simp) cs c
  refine ⟨_, hlead, (cs.foldl s.placedFirst c).t.wg, ?_⟩
  unfold State.judged
  dsimp only
  rw [hfull, if_neg Bool.false_ne_true, hkinds, if_neg Bool.false_ne_true, hjudge]
  rfl

/-- Its entry names the team of every entity, where an entity has one team. -/
theorem judged_entry {g : Nat} {cs : List Cur} {q : EngineAsk} {op : EngineOp} {missing : List Nat} {refs : List Ref} (hold : Hold)
    (hfull : s.tableFull g cs = false) (hkinds : (q.kinds (s.engine g).logical).any s.fmtOff = false)
    (hjudge : ∀ wid, q.judge s (s.engine g).logical wid = .take op missing refs) (hinside : ∀ y ∈ c :: cs, y.inside q.words)
    (hteam : ∀ y ∈ c :: cs, ∀ z ∈ c :: cs, y.eid = z.eid → y.e.team = z.e.team) :
    ∃ x, tabGet ((s.judged g c cs q hold).engine g).entries s.nextId = some x ∧ x.op = op ∧ ∀ y ∈ cs, y.e.team ∈ x.teams := by
  obtain ⟨lead, hmem, wid, heq⟩ := judged_taken (c := c) hold hfull hkinds hjudge
  have hothers : ∀ y ∈ cs.filter (fun y => y.eid != lead.eid), y ∈ c :: cs := fun y hy => List.mem_cons_of_mem _ (List.mem_filter.mp hy).1
  rw [heq]
  refine ⟨_, accept_entry (hinside lead hmem) (fun y hy => hinside y (hothers y hy)) .., rfl, fun y hy => ?_⟩
  refine List.mem_map.mpr ?_
  by_cases hsame : y.eid = lead.eid
  · exact ⟨lead, List.mem_cons_self, hteam lead hmem y (List.mem_cons_of_mem _ hy) hsame.symm⟩
  · exact ⟨y, List.mem_cons_of_mem _ (List.mem_filter.mpr ⟨hy, by simpa using hsame⟩), rfl⟩

end

section

/-- What a gang leaves for the last of its members: each of the others stands there inside its clause, with room in its counter. -/
def State.Awaits (s : State) (c : Cur) (k : Nat) (m : Nat) : Prop :=
  m ≠ c.eid ∧ ∃ e i t, tabGet s.ents m = some e ∧ e.hold = some .gang ∧ e.arrived = some k ∧
    e.issue = some i ∧ i.next + 1 < i.words.length ∧ tabGet s.teams e.team = some t ∧ t.cnt .tl < 63

theorem standsAt_of_awaits {k m : Nat} (h : s.Awaits c k m) : s.standsAt k m = true ∧ m ≠ c.eid := by
  obtain ⟨hne, e, i, t, he, hh, ha, -⟩ := h
  exact ⟨by simp [State.standsAt, he, hh, ha], hne⟩

theorem arrives_ent (hs : Standing s c) (k : Nat) : tabGet (c.arrives s k).ents c.eid = some { c.e with arrived := some k } :=
  tabGet_modEnt _ hs.ent

theorem arrives_ent_other {k m : Nat} (h : m ≠ c.eid) : tabGet (c.arrives s k).ents m = tabGet s.ents m :=
  tabGet_mod_other _ _ h

theorem curOf_arrived (hs : Standing s c) (k : Nat) : (c.arrives s k).curOf c.eid = some { c with e := { c.e with arrived := some k } } :=
  curOf_of (arrives_ent hs k) hs.issue hs.team

/-- Each of them is inside its clause, has room in its counter and has the team that its entity names. -/
theorem gathered_ready (hs : Standing s c) (hin : c.inside 1) (hcnt : c.t.cnt .tl < 63) {k : Nat} {members : List Nat}
    (hwait : ∀ m ∈ members, s.Awaits c k m) {y : Cur} (hy : y ∈ c.gathered s k members) :
    y.inside 1 ∧ y.t.cnt .tl < 63 ∧ tabGet s.teams y.e.team = some y.t ∧ (tabGet s.ents y.eid).map Entity.team = some y.e.team := by
  obtain ⟨m, hm, hy⟩ := List.mem_filterMap.mp hy
  rcases List.mem_append.mp hm with hm | hm
  · obtain ⟨hne, e, i, t, he, -, -, hi, hnext, ht, htl⟩ := hwait m hm
    obtain rfl := Option.some.inj (hy.symm.trans (curOf_of ((arrives_ent_other hne).trans he) hi ht))
    exact ⟨hnext, htl, ht, by simp [he]⟩
  · obtain rfl := List.mem_singleton.mp hm
    obtain rfl := Option.some.inj (hy.symm.trans (curOf_arrived hs k))
    exact ⟨hin, hcnt, hs.team, by simp [hs.ent]⟩

theorem gathered_self (hs : Standing s c) (k : Nat) (members : List Nat) :
    { c with e := { c.e with arrived := some k } } ∈ c.gathered s k members :=
  List.mem_filterMap.mpr ⟨c.eid, by simp, curOf_arrived hs k⟩

theorem gathered_member {k m : Nat} {members : List Nat} (hwait : s.Awaits c k m) (hm : m ∈ members) {e : Entity}
    (he : tabGet s.ents m = some e) : ∃ y ∈ c.gathered s k members, y.e.team = e.team := by
  obtain ⟨hne, e', i, t, he', -, -, hi, -, ht, -⟩ := hwait
  obtain rfl := Option.some.inj (he.symm.trans he')
  exact ⟨_, List.mem_filterMap.mpr ⟨m, by simp [hm], curOf_of ((arrives_ent_other hne).trans he) hi ht⟩, rfl⟩

/-- Nothing makes the operation of a gang wait where its table and its counters have room. -/
theorem tableFull_ready {g : Nat} {cs : List Cur} (hlen : (s.engine g).entries.length < 32)
    (hcs : ∀ y ∈ cs, tabGet s.teams y.e.team = some y.t ∧ y.t.cnt .tl < 63) : s.tableFull g cs = false := by
  simp only [State.tableFull, Bool.or_eq_false_iff, decide_eq_false_iff_not, List.any_eq_false]
  refine ⟨by unfold tableSize; omega, fun y hy => ?_⟩
  obtain ⟨ht, htl⟩ := hcs y hy
  simp only [ht, decide_eq_true_eq]
  omega

/-- What `mzero` asks for. -/
def Cur.zeroAsk (c : Cur) (t : BitVec 3) : EngineAsk :=
  { ganged := true, ref := c.gangRef 1 [] [], judge := fun _ _ _ => .take (.mzero t.toNat) [] [] }

theorem mzero_standing (hs : Standing s c) (t : BitVec 3) : exec (.mzero t) s = .next (c.engineIssue s (c.zeroAsk t)) :=
  (exec_mzero ..).trans (engineWord_standing hs _)

/-- The first of a gang to come to an operation waits with its reference. -/
theorem gang_first (hs : Standing s c) (hcl : s.inCluster c.t = true) {k : BitVec 4} (t : BitVec 3) (hk : c.t.gang = some k)
    (hp : c.e.parent = none) (hcnt : c.t.cnt .tl < 63) (hnone : tabGet (s.engine (s.engineOf c.t)).latches k.toNat = none)
    (hmany : 1 < popCount (c.t.gangMap.setWidth 1024)) :
    ∃ u l, exec (.mzero t) s = .next (c.holdAt u .gang) ∧ tabGet (u.engine (s.engineOf c.t)).latches k.toNat = some l ∧
      l.members = [c.eid] ∧ (u.engine (s.engineOf c.t)).entries = (s.engine (s.engineOf c.t)).entries := by
  have hlatch : s.latchOf (s.engineOf c.t) k.toNat (c.zeroAsk t).ref = { ref := (c.zeroAsk t).ref, members := [] } := by
    simp [State.latchOf, hnone]
  have hjoin := (engineIssue_joins (q := c.zeroAsk t) hcl hcnt rfl hk hp (by rw [hlatch]) (by simp [hlatch])).1
  rw [hlatch] at hjoin
  refine ⟨_, { ref := (c.zeroAsk t).ref, members := [c.eid] }, (mzero_standing hs t).trans (congrArg _ (hjoin hmany)), ?_, rfl, ?_⟩
  · rw [Cur.latches, engine_modEngine]
    exact tabGet_put_same ..
  · rw [Cur.latches, engine_modEngine]
    rfl

/-- With the last of a gang the operation is accepted for all of them. -/
theorem gang_last (hs : Standing s c) (hcl : s.inCluster c.t = true) {k : BitVec 4} (t : BitVec 3) {l : GangLatch} (hk : c.t.gang = some k)
    (hp : c.e.parent = none) (hroom : EngineRoom s c) (hl : tabGet (s.engine (s.engineOf c.t)).latches k.toNat = some l)
    (href : l.ref = c.gangRef 1 [] []) (hall : l.members.length + 1 = popCount (c.t.gangMap.setWidth 1024)) (hin : c.inside 1)
    (hwait : ∀ m ∈ l.members, s.Awaits c k.toNat m) :
    ∃ u x, exec (.mzero t) s = .next u ∧ tabGet (u.engine (s.engineOf c.t)).entries s.nextId = some x ∧ x.op = .mzero t.toNat ∧
      c.e.team ∈ x.teams ∧ ∀ m ∈ l.members, ∀ e, tabGet s.ents m = some e → e.team ∈ x.teams := by
  obtain ⟨hcnt, hlen⟩ := hroom
  set g := s.engineOf c.t with hg
  set cs := c.gathered s k.toNat l.members
  set w := (c.arrives s k.toNat).modEngine g fun e => { e with latches := tabDel e.latches k.toNat } with hw
  have hready {y : Cur} (hy : y ∈ cs) := gathered_ready hs hin hcnt hwait hy
  have hroom : ∀ y ∈ cs, tabGet s.teams y.e.team = some y.t ∧ y.t.cnt .tl < 63 := fun y hy => ⟨(hready hy).2.2.1, (hready hy).2.1⟩
  have hwlen : (w.engine g).entries.length < 32 := by
    rw [hw, engine_modEngine]
    exact hlen
  have hlatch : s.latchOf g k.toNat (c.zeroAsk t).ref = l := by simp [State.latchOf, hl]
  have hjoin := (engineIssue_joins (q := c.zeroAsk t) hcl hcnt rfl hk hp (by rw [← hg, hlatch, href]; rfl)
    (by rw [← hg, hlatch]; exact fun m hm => standsAt_of_awaits (hwait m hm))).2
  rw [← hg, hlatch] at hjoin
  have hinside : ∀ y ∈ c :: cs, y.inside 1 := List.forall_mem_cons.mpr ⟨hin, fun y hy => (hready hy).1⟩
  have hnamed : ∀ y ∈ c :: cs, (tabGet s.ents y.eid).map Entity.team = some y.e.team :=
    List.forall_mem_cons.mpr ⟨by simp [hs.ent], fun y hy => (hready hy).2.2.2⟩
  obtain ⟨x, hx, hop, hteams⟩ := judged_entry (s := w) (c := c) (q := c.zeroAsk t) .gang (tableFull_ready hwlen hroom) rfl (fun _ => rfl) hinside
    fun y hy z hz heq => Option.some.inj ((hnamed y hy).symm.trans ((congrArg (fun n => (tabGet s.ents n).map Entity.team) heq).trans (hnamed z hz)))
  refine ⟨_, x, (mzero_standing hs t).trans (congrArg _ (hjoin _ hall.ge (tableFull_ready hlen hroom) rfl)), hx, hop, ?_, ?_⟩
  · have hself := hteams _ (gathered_self hs k.toNat l.members)
    exact hself
  · intro m hm e he
    obtain ⟨y, hy, hyteam⟩ := gathered_member (hwait m hm) hm he
    exact hyteam ▸ hteams y hy

end

theorem gangs : Gangs := by
  intro s c hs hcl
  refine ⟨?_, fun m => ?_, fun k t hk hp _ => gang_first hs hcl t hk hp, fun k t l hk hp _ => gang_last hs hcl t hk hp⟩
  · intro b i hfree m members
    have hword := mgang_standing hs hcl hfree b i
    refine ⟨fun h => hword.trans (congrArg _ (if_pos h)), fun hne hle hbit hall => ?_, fun hlt => ?_⟩
    · have hgood : (decide (6 < members.length) || !m.getLsbD (s.gangBit c.t) || !members.all (s.gangBitExists c.t)) = false := by
        simp only [hbit, List.all_eq_true.mpr hall, Bool.not_true, Bool.or_false, decide_eq_false_iff_not]
        omega
      exact hword.trans (congrArg _ ((if_neg hne).trans (if_neg (Bool.eq_false_iff.mp hgood))))
    · have hne : m ≠ 0 := fun h => by simp [members, h] at hlt
      have hbad : (decide (6 < members.length) || !m.getLsbD (s.gangBit c.t) || !members.all (s.gangBitExists c.t)) = true := by
        rw [decide_eq_true hlt]
        rfl
      exact hword.trans (congrArg _ ((if_neg hne).trans (if_pos hbad)))
  · have hword := mshape_standing hs hcl m
    exact ⟨fun h => hword.trans (congrArg _ (if_neg h)), fun h => hword.trans (congrArg _ (if_pos h))⟩

/-- Settles O46: what a lone team's instruction asks for is judged and accepted at once, and what a gang's members ask for once the last of
them has come to it. -/
theorem engineInstructions : Obligations.EngineInstructions :=
  ⟨engineOperations, mldAsks, drainAsks, engineRefusesAndWaits, gangs, teamReductions⟩

end Sys2Proof.Machine

end
